-- ==== Sys2Proof/Word.lean ====
section
/-! DEFINITION. The word and byte types and the keyed list that every table of the core is held in. -/

namespace Sys2Proof

/-- A register of the window (R460): 32 bits. -/
abbrev Word := BitVec 32

/-- One byte of storage. -/
abbrev Byte := BitVec 8

/-- A 64-bit quantity: a tick count, a latched pair, a raw partial. -/
abbrev Dword := BitVec 64

/-- A sparse table: keys strictly rising, no entry equal to the table's default value. -/
abbrev NMap (α : Type) := List (Nat × α)

end Sys2Proof
end

