-- ==== Sys2Proof/Syntax.lean ====
section
/-! DEFINITION. The commands of the block: one constructor per row of spec/opcode_table.json, with the operands the
step needs from outside (95, "What each step holds"). -/

namespace Sys2Proof

/-- The four cue lines of R271. -/
inductive Line where
  | f | b | u | m
  deriving DecidableEq, Repr, Inhabited

/-- A command. The docstring of each group names the rules its constructors stand for. -/
inductive Instr where
  /-- R453, R500: the `pwr_ok` pin. -/
  | pwrOkRise
  | pwrOkFall
  /-- R488: power-on reset has been held for 1024 ticks. -/
  | powerOnResetEnd
  /-- R465: the key port presents `key`. -/
  | keyReq (key : BitVec 256)
  | keyWaitTimeout
  /-- R455: `blk_rst_n` has been low for `lowTicks` ticks. -/
  | blockReset (lowTicks : Nat)
  | blockResetEnd
  /-- R454. -/
  | refTickLost
  | refTickRestored
  /-- R457: a rising edge of `tab_in` that stayed high for `highTicks` ticks. -/
  | tabIn (highTicks : Nat)
  | tabOutEnd
  /-- R456. -/
  | irqSample
  /-- R467: an instruction is loaded into the wrapper; `code` is the 4-bit code that acts as WS_BYPASS. -/
  | wsBypass (code : BitVec 4)
  | wsExtest
  | wsIntest
  | wsScan
  | wsMbist
  /-- R282: a host write of the bytes enabled by `be` in the 64-byte lanes of offset `off` of a line's window. -/
  | intakeWrite (l : Line) (off : BitVec 16) (be : BitVec 64) (data : BitVec 512)
  | heldCommitLands (l : Line)
  | intakeHoldExpiry (l : Line)
  /-- R461, R462, R499: an access that is not served; `addr` is `hst_addr`. -/
  | hostMisshapedAccess (addr : BitVec 21) (write : Bool)
  /-- R461: well-shaped accesses of the register window. -/
  | registerWrite (off : BitVec 20) (data : Word)
  | rcRegisterRead (off : BitVec 20)
  | loRegisterRead (off : BitVec 20)
  | snapshotRead (off : BitVec 20)
  /-- R279, R319, R320, R325, R312, R311: writes of the line controls and of the repertoire window. -/
  | lineRingWrite (l : Line) (data : Word)
  | hostHalt (l : Line)
  | lineResume (l : Line)
  | lineResumeSkip (l : Line)
  | lineReset (l : Line)
  | lineResetDone (l : Line)
  | splitModeWrite (data : Word)
  | repWrite (off : BitVec 18) (data : Word)
  /-- R287, R313: one turn of the Prompter; one turn of the fetcher of an engine id. `upset` are the words of the
  repertoire store whose code has become uncorrectable since the last turn (R311), `board` the counters whose codes an access of
  the callboard has found in error since then (R333), curtain counters from 64 on: 1 corrected, 2 uncorrectable. -/
  | prompterDispatch (upset : List Nat := []) (board : List (Fin 80 × Fin 3) := [])
  | fetcherDispatch (engine : Nat)
  /-- The control cues (R277): the Prompter's turn whose cue is this one, from line `l`. -/
  | nop (l : Line)
  | fence (l : Line)
  | loopBegin (l : Line)
  | loopEnd (l : Line)
  | callRoutine (l : Line)
  | setLoop (l : Line)
  | halt (l : Line)
  | stepAdvance (l : Line)
  | curtainCall (l : Line)
  /-- R518: the cue at the head of the tableau queue. -/
  | tableau
  /-- R68, R93, R86: the cue at the head of array queue `q` (0, or 1 under HALVES); `par` are the feed-buffer bytes that
  fail parity (R62), as (buffer, row, byte), a row's block scales standing behind its codes, and `hpar` the hold slots
  with a byte that fails parity, as (array or bank, slot). -/
  | arrFill (q : Fin 2) (par : List (Nat × Nat × Nat)) (hpar : List (Nat × Nat) := [])
  | arrDropHold (q : Fin 2)
  | arrConfig (q : Fin 2)
  /-- R65: the preload of the complete tile of weight-buffer half `h`; `par` are its bytes that fail parity (R62), its block
  scales standing behind its codes. -/
  | weightPreload (h : Fin 2) (par : List Nat)
  /-- R125: a drain of array queue `q` takes a tile-queue slot; `par` are the tile's elements, by row and column, in a
  byte that fails parity (R62). -/
  | drainTile (q : Fin 2) (par : List (Nat × Nat))
  /-- R72: flat bank `bank` falls asleep. -/
  | bankSleep (bank : Nat)
  /-- R101, R127, R142 to R144: the head of chorus unit `u`'s queue. -/
  | choRun (u : Fin 8)
  | tileClaim (u : Fin 8)
  | choProgLoad (u : Fin 8)
  | choConfig (u : Fin 8)
  | choTqDrop (u : Fin 8)
  | redRow (u : Fin 8)
  | redCol (u : Fin 8)
  | scan (u : Fin 8)
  | krnNormFwd (u : Fin 8)
  | krnNormBwd (u : Fin 8)
  | krnSoftmaxFwd (u : Fin 8)
  | krnSoftmaxBwd (u : Fin 8)
  | krnGscanFwd (u : Fin 8)
  | krnGscanBwd (u : Fin 8)
  /-- R181: fly engine `e` moves up to `n` elements of its active transfer. -/
  | flyMove (e : Fin 16) (n : Nat)
  /-- `upset`: what the code of the table entries it reads finds (R242): 1 a corrected error, 2 an uncorrectable one. -/
  | transferArm (e : Fin 16) (upset : Fin 3)
  | transferActivate (e : Fin 16)
  /-- R199: the stream destination of engine `e` returns `n` credits. -/
  | creditReturn (e : Fin 16) (n : Nat)
  /-- R334: the `i`-th acknowledged write lands. -/
  | writeLands (i : Nat)
  /-- R293: the `i`-th cue in flight completes by its engine's rule. -/
  | cueComplete (i : Nat)
  /-- R263: the property cue at the head of its queue; `upset` as for `transferArm`. -/
  | propAlloc (upset : Fin 3)
  | propFree
  | propPageIn
  | propPageOut
  | propMirror
  | propLock
  | hintedPageInStart
  /-- R464: a response on channel `ch` for `tag`. -/
  | backstageResponse (ch : Fin 4) (tag : BitVec 8) (err : Bool) (data : BitVec 512)
  | backstageTimeout (ch : Fin 4) (tag : BitVec 8)
  /-- R236: bank `bank` scrubs its next word; `upset` are the byte errors that arose in the stored word since its
  last access, as (byte index, XOR) pairs. -/
  | scrubRead (bank : Nat) (upset : List (Nat × Byte))
  | scrubPeriodEnd
  | correctedWriteback (bank : Nat)
  | retirementMoveComplete (frame : Nat)
  /-- R336: a POST from core `src` with its tag; `upset`: what the code of the counter finds (R333), as above. -/
  | post (src : BitVec 12) (tag : BitVec 16) (counter : BitVec 7) (delta : BitVec 12) (upset : Fin 3)
  | callHostPost (data : Word)
  | callSet (data : Word)
  | callCcClear (k : Fin 16) (data : Word)
  | curtainArrival (k : Fin 16) (seq : BitVec 8) (child : BitVec 12)
  | curtainRelease (k : Fin 16) (seq : BitVec 8) (maskCall : BitVec 64) (maskCc : BitVec 16) (values : List (BitVec 32))
  | curtainWatchdog (l : Line)
  /-- R410: the exchange cue at the head of its queue. -/
  | exchBucketSet
  | exchSend
  | exchSettle
  | exchOpen
  /-- R394: an exchange operation that reaches this core from core `src`. -/
  | accumulate (src : BitVec 12) (bucket gen : BitVec 16) (seq : BitVec 32) (group : BitVec 16) (count : BitVec 7)
      (ch : BitVec 2) (pmask : BitVec 64) (data : List (BitVec 32))
  | close (src : BitVec 12) (bucket gen : BitVec 16) (seq : BitVec 32) (count : BitVec 20) (ch : BitVec 2)
      (max : BitVec 32) (sum : BitVec 64) (fail : BitVec 64)
  | skip (src : BitVec 12) (bucket gen : BitVec 16) (seq : BitVec 32) (group : BitVec 16) (ch : BitVec 2)
  | notice (src : BitVec 12) (bucket gen : BitVec 16) (shift : BitVec 8)
  | resend (src : BitVec 12) (bucket gen : BitVec 16) (attempt : BitVec 3)
  | unable (src : BitVec 12) (bucket gen : BitVec 16) (attempt : BitVec 3)
  | exchAck (src : BitVec 12) (ch : BitVec 2) (seq : BitVec 32)
  | exchNak (src : BitVec 12) (ch : BitVec 2) (last : BitVec 32)
  | refused (src : BitVec 12) (ch : BitVec 2) (seq : BitVec 32)
  | exchAckTimeout (dst : BitVec 12) (ch : BitVec 2)
  | syncOpTimeout (i : Nat)
  | replayClearSource (data : Word)
  | replayClearAll
  /-- R428 to R448: port `p`, physical channel `c`. -/
  | flitAccept (p : Fin 16) (c : Fin 4) (flit : BitVec 512)
  | linkAck (p : Fin 16) (c : Fin 4) (payload : BitVec 416)
  | linkNak (p : Fin 16) (c : Fin 4) (lseq : BitVec 12)
  | replayTimeout (p : Fin 16) (c : Fin 4)
  | handover (p : Fin 16) (c : Fin 4) (lseq : BitVec 12)
  | hello (p : Fin 16) (peer : BitVec 12)
  | verdict (p : Fin 16) (v : Bool)
  | fabPhyReady (p : Fin 16) (c : Fin 4)
  | fabTrainDone (p : Fin 16) (c : Fin 4)
  | fabTrainFail (p : Fin 16) (c : Fin 4)
  | trainTimeout (p : Fin 16) (c : Fin 4)
  | fabPhyErr (p : Fin 16) (c : Fin 4)
  | downPortRetry (p : Fin 16)
  | fabPortReset (p : Fin 16)
  | fabPortCfgWrite (p : Fin 16) (data : Word)
  /-- R422, R423: a remote operation of core `src` at this core, or an answer to one of this core's. -/
  | write (src : BitVec 12) (addr : BitVec 32) (tag : BitVec 16) (data : List Byte)
  | read (src : BitVec 12) (addr : BitVec 32) (tag : BitVec 16) (count : BitVec 16)
  | readData (src : BitVec 12) (tag : BitVec 16) (status : BitVec 8) (data : List Byte)
  | done (src : BitVec 12) (tag : BitVec 16) (status : BitVec 8)
  | unreachable (opc : BitVec 4) (router : BitVec 12) (key : BitVec 32)
  | remoteOpTimeout (tag : BitVec 16)
  /-- R521: a TABLEAU flit at the local port. -/
  | tableauFlit (id : BitVec 16) (origin : BitVec 12)
  /-- TAB_CMD fields (R513, R515, R520). -/
  | tabTrigger (id : BitVec 16)
  | tabArm
  | thaw
  /-- R480 to R482. -/
  | pbkWriteUpdate
  | pbkWriteRetired
  | writerCounterStart
  | writerTimeout
  | flashOpDone
  /-- R484 to R487: `noise` is the 512 raw bits of the noise source. -/
  | nonceDraw (noise : BitVec 512)
  | proofWrite (data : Word)
  | proofCheckDone
  | doorLockEnd
  | sesClose (data : Word)
  | sessionIdleTimeout
  /-- R493 to R509. -/
  | softReset (data : Word)
  | softResetDone
  | idleEntry
  | drowseRequest
  | drowseEntry
  | drowseEntryTimeout
  /-- `shadowOk`: the configuration shadow passes its check at Waking (R525). -/
  | wake (shadowOk : Bool)
  | wakingComplete
  | pwrVreqWrite (data : Word)
  /-- R506: the window's estimate by parts, in units of 0.5 W, and the temperature. -/
  | powerEstimate (arr cho mem other temp : BitVec 16)
  | paceWindow (count : BitVec 16)
  | rampAllowance
  deriving DecidableEq, Repr, Inhabited

end Sys2Proof
end

