-- ==== Sys2Proof/Machine/Bits.lean ====
section
/-! DEFINITION. Bit fields, little-endian bytes and the keyed lists: the helpers every other file of the machine uses. -/

namespace Sys2Proof.Machine

/-- Bits [lo + w - 1 : lo] of `x` (R14). -/
def field {n : Nat} (x : BitVec n) (lo w : Nat) : BitVec w := (x >>> lo).setWidth w

/-- The same field as a number. -/
def fieldN {n : Nat} (x : BitVec n) (lo w : Nat) : Nat := (x.toNat >>> lo) % 2 ^ w

/-- Bit `i` of `x`. -/
def bit {n : Nat} (x : BitVec n) (i : Nat) : Bool := x.getLsbD i

/-- A number placed at bit `lo` of a register word. -/
def at32 (lo v : Nat) : BitVec 32 := BitVec.ofNat 32 (v <<< lo)

/-- A flag placed at bit `lo` of a register word. -/
def flag32 (lo : Nat) (b : Bool) : BitVec 32 := if b then BitVec.ofNat 32 (1 <<< lo) else 0

/-- Or of the words of a list: a register composed from its fields. -/
def orAll (l : List (BitVec 32)) : BitVec 32 := l.foldl (· ||| ·) 0

/-- A signed value as `n` bits. -/
def bvI (n : Nat) (i : Int) : BitVec n := BitVec.ofInt n i

/-- A number of 0 to `n - 1` rounded up to a multiple of `k`. -/
def roundUp (n k : Nat) : Nat := if k = 0 then n else (n + k - 1) / k * k

/-- The smallest `k` with `2 ^ k ≥ n` (0 for `n = 0` and `n = 1`). -/
def ceilLog2 (n : Nat) : Nat := if n ≤ 1 then 0 else Nat.log2 (n - 1) + 1

/-- `n + d`, held at the top value of `w` bits (the saturating counts of the window). -/
def satAdd {w : Nat} (x : BitVec w) (d : Nat) : BitVec w :=
  BitVec.ofNat w (min (x.toNat + d) (2 ^ w - 1))

/-- The bytes of a word in storage order, least significant first (R14). -/
def bytesOf (n : Nat) (x : Nat) : List Byte :=
  (List.range n).map fun i => BitVec.ofNat 8 (x >>> (8 * i))

/-- The number that a list of bytes spells, least significant first (R14). -/
def numOf (l : List Byte) : Nat := l.foldr (fun b acc => b.toNat + 256 * acc) 0

/-- Lookup in a keyed list; a key that is not listed holds `d`. -/
def NMap.get {α : Type} (d : α) (m : NMap α) (k : Nat) : α :=
  match m with
  | [] => d
  | (k', v) :: rest => if k = k' then v else NMap.get d rest k

/-- Insertion at the key's place, keeping keys strictly rising. -/
def NMap.put {α : Type} (m : NMap α) (k : Nat) (v : α) : NMap α :=
  match m with
  | [] => [(k, v)]
  | (k', v') :: rest =>
    if k < k' then (k, v) :: (k', v') :: rest
    else if k = k' then (k, v) :: rest
    else (k', v') :: NMap.put rest k v

/-- Removal of a key. -/
def NMap.del {α : Type} (m : NMap α) (k : Nat) : NMap α := m.filter fun e => e.1 != k

/-- Update of a keyed list whose unlisted keys hold `d`: writing `d` removes the entry. -/
def NMap.set {α : Type} [DecidableEq α] (d : α) (m : NMap α) (k : Nat) (v : α) : NMap α :=
  if v = d then NMap.del m k else NMap.put m k v

/-- The canonical form: keys strictly rising and no entry equal to what its key reads as unlisted. -/
def NMap.wf {α : Type} [DecidableEq α] (d : Nat → α) (m : NMap α) : Bool :=
  match m with
  | [] => true
  | (k, v) :: [] => decide (v ≠ d k)
  | (k, v) :: (k', v') :: rest => decide (v ≠ d k) && decide (k < k') && NMap.wf d ((k', v') :: rest)

/-- Every listed entry mapped; the keys stay. -/
def NMap.mapVals {α β : Type} (f : Nat → α → β) (m : NMap α) : NMap β := m.map fun (k, v) => (k, f k v)

/-- The entry of a list at `i`, `d` past its end. -/
def listGet {α : Type} (d : α) (l : List α) (i : Nat) : α := (l[i]?).getD d

/-- The list with entry `i` replaced; unchanged past its end. -/
def listSet {α : Type} (l : List α) (i : Nat) (v : α) : List α := l.set i v

/-- The list without its entry `i`. -/
def listDrop1 {α : Type} (l : List α) (i : Nat) : List α := l.take i ++ l.drop (i + 1)

/-- Index of the first entry that satisfies `p`. -/
def findIdx? {α : Type} (p : α → Bool) : List α → Option Nat
  | [] => none
  | x :: xs => if p x then some 0 else (findIdx? p xs).map (· + 1)

/-- A fold that counts its turns: `f 0`, `f 1`, ..., `f (n - 1)` applied in order. -/
def iter {σ : Type} (n : Nat) (f : Nat → σ → σ) (s : σ) : σ := (List.range n).foldl (fun s i => f i s) s

/-- `iter` with an early end: once `f` answers `none` the state stands. -/
def iterWhile {σ : Type} : Nat → (σ → Option σ) → σ → σ
  | 0, _, s => s
  | n + 1, f, s => match f s with
    | none => s
    | some s' => iterWhile n f s'

end Sys2Proof.Machine
end

