-- ==== Sys2Proof/Machine/RegTable.lean ====
section
/-! DEFINITION. Offsets of the registers (R543), and for every word of the register file its access masks, its reset
value and the resets that keep it (a block's or a register's number counts modulo how many there are), from the register tables of the chapters (R52 R97 R148 R179 R226 R270 R326 R358
R416 R450 R491 R512 R531 R542). -/

namespace Sys2Proof.Machine

def R.trkCtrl : Nat := 0x08000
def R.trkSeedLo : Nat := 0x08004
def R.trkSeedHi : Nat := 0x08008
def R.trkStepF : Nat := 0x08010
def R.trkStepB : Nat := 0x08014
def R.trkStepU : Nat := 0x08018
def R.trkStepM : Nat := 0x0801C
def R.trkSel : Nat := 0x08020
def R.trkState : Nat := 0x08024
def R.trkInit : Nat := 0x08028
def R.trkPass : Nat := 0x0802C
def R.trkRunmax : Nat := 0x08030
def R.trkBind : Nat := 0x08034
def R.trkHist (i : Nat) : Nat := 0x08040 + 4 * (i % 16)
def R.trkNanCount : Nat := 0x08080
def R.arrMode : Nat := 0x20000
def R.arrPartition : Nat := 0x20004
def R.arrStatus : Nat := 0x20008
def R.arrHold : Nat := 0x2000C
def R.arrLastE : Nat := 0x20010
def R.arrFills : Nat := 0x20014
def R.arrBusyTicksLo : Nat := 0x20018
def R.arrBusyTicksHi : Nat := 0x2001C
def R.arrBubbleBeats : Nat := 0x20020
def R.arrSatCount : Nat := 0x20024
def R.arrNanCount : Nat := 0x20028
def R.choUnits : Nat := 0x30000
def R.choTqStatus : Nat := 0x30004
def R.choTqWaitBeats : Nat := 0x30008
def R.choNanCount : Nat := 0x3000C
def R.choPoisonCount : Nat := 0x30010
def R.choProgSel : Nat := 0x30020
def R.choProgLo : Nat := 0x30024
def R.choProgHi : Nat := 0x30028
def R.choProgLen : Nat := 0x3002C
def R.choUStatus (p : Nat) : Nat := 0x31000 + 0x100 * (p % 8)
def R.choURuns (p : Nat) : Nat := 0x31004 + 0x100 * (p % 8)
def R.choUElemsLo (p : Nat) : Nat := 0x31008 + 0x100 * (p % 8)
def R.choUElemsHi (p : Nat) : Nat := 0x3100C + 0x100 * (p % 8)
def R.choUStallBeats (p : Nat) : Nat := 0x31010 + 0x100 * (p % 8)
def R.choUPort (p i : Nat) : Nat := 0x31020 + 0x100 * (p % 8) + 4 * (i % 4)
def R.choUFifoLevel (p : Nat) : Nat := 0x31030 + 0x100 * (p % 8)
def R.choRedSatCount : Nat := 0x38000
def R.choRedNanCount : Nat := 0x38004
def R.choRedEmptyCount : Nat := 0x38008
def R.choRedLastE : Nat := 0x3800C
def R.choRuStatus (p : Nat) : Nat := 0x39000 + 0x100 * (p % 8)
def R.choRuRows (p : Nat) : Nat := 0x39004 + 0x100 * (p % 8)
def R.choRuStallBeats (p : Nat) : Nat := 0x39008 + 0x100 * (p % 8)
def R.flyStatus (p : Nat) : Nat := 0x10000 + 0x800 * (p % 16)
def R.flyActiveTag (p : Nat) : Nat := 0x10004 + 0x800 * (p % 16)
def R.flyArmedTag (p : Nat) : Nat := 0x10008 + 0x800 * (p % 16)
def R.flyRemainLo (p : Nat) : Nat := 0x1000C + 0x800 * (p % 16)
def R.flyRemainHi (p : Nat) : Nat := 0x10010 + 0x800 * (p % 16)
def R.flyCredits (p : Nat) : Nat := 0x10014 + 0x800 * (p % 16)
def R.flyXfers (p : Nat) : Nat := 0x10018 + 0x800 * (p % 16)
def R.flyBytesLo (p : Nat) : Nat := 0x1001C + 0x800 * (p % 16)
def R.flyBytesHi (p : Nat) : Nat := 0x10020 + 0x800 * (p % 16)
def R.flyOob (p : Nat) : Nat := 0x10024 + 0x800 * (p % 16)
def R.flySat (p : Nat) : Nat := 0x10028 + 0x800 * (p % 16)
def R.flyNanInt (p : Nat) : Nat := 0x1002C + 0x800 * (p % 16)
def R.flyPoison (p : Nat) : Nat := 0x10030 + 0x800 * (p % 16)
def R.flyAlias (p : Nat) : Nat := 0x10034 + 0x800 * (p % 16)
def R.flyStallCredit (p : Nat) : Nat := 0x10038 + 0x800 * (p % 16)
def R.flyStallPage (p : Nat) : Nat := 0x1003C + 0x800 * (p % 16)
def R.flyLastE (p : Nat) : Nat := 0x10040 + 0x800 * (p % 16)
def R.propStatus : Nat := 0x18000
def R.propFrames : Nat := 0x18004
def R.propFreeFrames : Nat := 0x18008
def R.propFreeDesc : Nat := 0x1800C
def R.propRetired : Nat := 0x18010
def R.propBsSize : Nat := 0x18014
def R.propDescSel : Nat := 0x18020
def R.propDesc (i : Nat) : Nat := 0x18024 + 4 * (i % 4)
def R.propHndSel : Nat := 0x18040
def R.propHnd (i : Nat) : Nat := 0x18044 + 4 * (i % 8)
def R.propCorr : Nat := 0x18080
def R.propUncorr : Nat := 0x18084
def R.propPoisonRead : Nat := 0x18088
def R.propWatchEvict : Nat := 0x1808C
def R.propPageIns : Nat := 0x18090
def R.propWritebacks : Nat := 0x18094
def R.propPageKept : Nat := 0x18098
def R.propRemoteRefused : Nat := 0x1809C
def R.propLocalRefused : Nat := 0x180A0
def R.propStarveTicks : Nat := 0x180A4
def R.propScrub : Nat := 0x180C0
def R.lineStatus (p : Nat) : Nat := 0x04000 + 0x200 * (p % 4)
def R.lineCtrl (p : Nat) : Nat := 0x04004 + 0x200 * (p % 4)
def R.lineRing (p : Nat) : Nat := 0x04008 + 0x200 * (p % 4)
def R.lineRingBase (p : Nat) : Nat := 0x0400C + 0x200 * (p % 4)
def R.lineHead (p : Nat) : Nat := 0x04010 + 0x200 * (p % 4)
def R.lineTail (p : Nat) : Nat := 0x04014 + 0x200 * (p % 4)
def R.lineRetire (p : Nat) : Nat := 0x04018 + 0x200 * (p % 4)
def R.lineCountLo (p : Nat) : Nat := 0x0401C + 0x200 * (p % 4)
def R.lineCountHi (p : Nat) : Nat := 0x04020 + 0x200 * (p % 4)
def R.lineBrkCtrl (p : Nat) : Nat := 0x04024 + 0x200 * (p % 4)
def R.lineBrkCountLo (p : Nat) : Nat := 0x04028 + 0x200 * (p % 4)
def R.lineBrkCountHi (p : Nat) : Nat := 0x0402C + 0x200 * (p % 4)
def R.lineBrkTag (p : Nat) : Nat := 0x04030 + 0x200 * (p % 4)
def R.lineBrkMask (p : Nat) : Nat := 0x04034 + 0x200 * (p % 4)
def R.lineHaltReason (p : Nat) : Nat := 0x04040 + 0x200 * (p % 4)
def R.lineHaltAddr (p : Nat) : Nat := 0x04044 + 0x200 * (p % 4)
def R.lineHaltCountLo (p : Nat) : Nat := 0x04048 + 0x200 * (p % 4)
def R.lineHaltCountHi (p : Nat) : Nat := 0x0404C + 0x200 * (p % 4)
def R.lineHaltTag (p : Nat) : Nat := 0x04050 + 0x200 * (p % 4)
def R.lineLoop (p i : Nat) : Nat := 0x04080 + 0x200 * (p % 4) + 4 * (i % 16)
def R.lineLoopIdx (p i : Nat) : Nat := 0x040C0 + 0x200 * (p % 4) + 4 * (i % 4)
def R.lineLoopCnt (p i : Nat) : Nat := 0x040D0 + 0x200 * (p % 4) + 4 * (i % 4)
def R.lineWaitTicks (p : Nat) : Nat := 0x040E0 + 0x200 * (p % 4)
def R.lineStallTicks (p : Nat) : Nat := 0x040E4 + 0x200 * (p % 4)
def R.lineIntakeRefused (p : Nat) : Nat := 0x040E8 + 0x200 * (p % 4)
def R.lineMode : Nat := 0x04800
def R.lineWeaveLo : Nat := 0x04804
def R.lineWeaveHi : Nat := 0x04808
def R.lineWeavePtr : Nat := 0x0480C
def R.lineRepRefused : Nat := 0x04810
def R.lineSplitCtl (p : Nat) : Nat := 0x05000 + 0x20 * (p % 64)
def R.lineSplitPtr (p : Nat) : Nat := 0x05004 + 0x20 * (p % 64)
def R.lineSplitLim (p : Nat) : Nat := 0x05008 + 0x20 * (p % 64)
def R.lineSplitCountLo (p : Nat) : Nat := 0x0500C + 0x20 * (p % 64)
def R.lineSplitCountHi (p : Nat) : Nat := 0x05010 + 0x20 * (p % 64)
def R.callCount (i : Nat) : Nat := 0x06000 + 4 * (i % 64)
def R.callCcCount (i : Nat) : Nat := 0x06100 + 4 * (i % 16)
def R.callHostPost : Nat := 0x06200
def R.callSet : Nat := 0x06204
def R.callStatus : Nat := 0x06208
def R.callSatLo : Nat := 0x06210
def R.callSatHi : Nat := 0x06214
def R.callUnderLo : Nat := 0x06218
def R.callUnderHi : Nat := 0x0621C
def R.callCcSat : Nat := 0x06220
def R.callCcStray : Nat := 0x06224
def R.callWatch (i : Nat) : Nat := 0x06240 + 4 * (i % 4)
def R.callWatchStatus : Nat := 0x06250
def R.callCueWdog : Nat := 0x06280
def R.callWdogAge (i : Nat) : Nat := 0x06290 + 4 * (i % 4)
def R.callCcCfg (i : Nat) : Nat := 0x06400 + 16 * (i % 16)
def R.callCcStatus (i : Nat) : Nat := 0x06404 + 16 * (i % 16)
def R.callCcCtrl (i : Nat) : Nat := 0x06408 + 16 * (i % 16)
def R.exchCtrl : Nat := 0x40000
def R.exchPoisonPolicy : Nat := 0x40004
def R.exchAckTicks : Nat := 0x40008
def R.exchStatus : Nat := 0x4000C
def R.exchSel : Nat := 0x40010
def R.exchReplayClear : Nat := 0x40014
def R.exchBkt (i : Nat) : Nat := 0x40080 + 4 * (i % 32)
def R.exchSat : Nat := 0x40100
def R.exchPoisonSent : Nat := 0x40104
def R.exchPoisonElems : Nat := 0x40108
def R.exchDup : Nat := 0x4010C
def R.exchNak : Nat := 0x40110
def R.exchRetry : Nat := 0x40114
def R.exchRefused : Nat := 0x40118
def R.exchPartFailed : Nat := 0x4011C
def R.exchChecks : Nat := 0x40120
def R.exchMismatch : Nat := 0x40124
def R.exchRepairs : Nat := 0x40128
def R.exchStray : Nat := 0x4012C
def R.exchSentLo : Nat := 0x40140
def R.exchSentHi : Nat := 0x40144
def R.exchAppliedLo : Nat := 0x40148
def R.exchAppliedHi : Nat := 0x4014C
def R.fabCtrl : Nat := 0x50000
def R.fabLinksUp : Nat := 0x50004
def R.fabCoreId : Nat := 0x50008
def R.fabOpTicks : Nat := 0x5000C
def R.fabTrainTicks : Nat := 0x50010
def R.fabRouteSel : Nat := 0x50020
def R.fabRoute : Nat := 0x50024
def R.fabNoroute : Nat := 0x50040
def R.fabStray : Nat := 0x50044
def R.fabTimeouts : Nat := 0x50048
def R.fabPortCfg (p : Nat) : Nat := 0x51000 + 0x100 * (p % 16)
def R.fabPortStatus (p : Nat) : Nat := 0x51004 + 0x100 * (p % 16)
def R.fabPortCtrl (p : Nat) : Nat := 0x51008 + 0x100 * (p % 16)
def R.fabChStatus (p i : Nat) : Nat := 0x51020 + 0x100 * (p % 16) + 16 * (i % 4)
def R.fabChCrc (p i : Nat) : Nat := 0x51024 + 0x100 * (p % 16) + 16 * (i % 4)
def R.fabChReplay (p i : Nat) : Nat := 0x51028 + 0x100 * (p % 16) + 16 * (i % 4)
def R.fabChFlits (p i : Nat) : Nat := 0x5102C + 0x100 * (p % 16) + 16 * (i % 4)
def R.pbkStatus : Nat := 0x01000
def R.pbkGen : Nat := 0x01004
def R.pbkAGen : Nat := 0x01008
def R.pbkBGen : Nat := 0x0100C
def R.pbkLoadTicks : Nat := 0x01010
def R.pbkFlash : Nat := 0x01014
def R.pbkWrCfg : Nat := 0x01020
def R.pbkWrSrc : Nat := 0x01024
def R.pbkWrLen : Nat := 0x01028
def R.pbkWrCtrl : Nat := 0x0102C
def R.pbkWrStatus : Nat := 0x01030
def R.pbkWrCount : Nat := 0x01034
def R.sesNonce (i : Nat) : Nat := 0x01800 + 4 * (i % 8)
def R.sesHostId : Nat := 0x01820
def R.sesProof (i : Nat) : Nat := 0x01840 + 4 * (i % 8)
def R.sesStatus : Nat := 0x01860
def R.sesOpenId : Nat := 0x01864
def R.sesClose : Nat := 0x01868
def R.sesLockTicks : Nat := 0x0186C
def R.sesIdleTicks : Nat := 0x01870
def R.rstCause : Nat := 0x02000
def R.rstCountBlock : Nat := 0x02004
def R.rstCountSoft : Nat := 0x02008
def R.rstStatus : Nat := 0x0200C
def R.pwrStatus : Nat := 0x02100
def R.pwrCtrl : Nat := 0x02104
def R.pwrEst : Nat := 0x02108
def R.pwrEstParts0 : Nat := 0x0210C
def R.pwrEstParts1 : Nat := 0x02110
def R.pwrLimit : Nat := 0x02114
def R.pwrVreq : Nat := 0x02118
def R.pwrPace : Nat := 0x0211C
def R.pwrTemp : Nat := 0x02120
def R.pwrRamp : Nat := 0x02124
def R.pwrGovTicks : Nat := 0x02128
def R.pwrRampTicks : Nat := 0x0212C
def R.tabCtrl : Nat := 0x60000
def R.tabCmd : Nat := 0x60004
def R.tabStatus : Nat := 0x60008
def R.tabCount : Nat := 0x6000C
def R.tabMissed : Nat := 0x60010
def R.tabMatchCtrl : Nat := 0x60020
def R.tabMatchCountLo : Nat := 0x60024
def R.tabMatchCountHi : Nat := 0x60028
def R.tabMatchTag : Nat := 0x6002C
def R.tabMatchMask : Nat := 0x60030
def R.fltStatus : Nat := 0x70000
def R.fltCtrl : Nat := 0x70004
def R.fltWr : Nat := 0x70008
def R.fltRd : Nat := 0x7000C
def R.fltOverwritten : Nat := 0x70010
def R.fltFatal (i : Nat) : Nat := 0x70040 + 4 * (i % 8)
def R.fltClassCount (i : Nat) : Nat := 0x70080 + 4 * (i % 6)
def R.fltRec (i : Nat) : Nat := 0x70100 + 4 * (i % 512)
def R.ctlIdent : Nat := 0x00000
def R.ctlFeat0 : Nat := 0x00004
def R.ctlFeat1 : Nat := 0x00008
def R.ctlStatus : Nat := 0x0000C
def R.ctlTickLo : Nat := 0x00010
def R.ctlTickHi : Nat := 0x00014
def R.ctlIrqPend : Nat := 0x00020
def R.ctlIrqEnable : Nat := 0x00024
def R.ctlSoftReset : Nat := 0x00030
def R.ctlHostErr : Nat := 0x00040
def R.ctlHostErrAddr : Nat := 0x00044

/-- One row of the register file: words at base + stride × i + stride2 × j, writable bits by access code, whether a
read clears it, and the bits that a block reset, a soft reset and Drowse keep. -/
structure RegRow where
  base : Nat
  n : Nat
  stride : Nat
  n2 : Nat
  stride2 : Nat
  rw : Nat
  rwp : Nat
  w1c : Nat
  rc : Bool
  keepBlock : Nat
  keepSoft : Nat
  keepDrowse : Nat
  deriving DecidableEq, Repr

/-- Rows of the register file. -/
def regRows0 : List RegRow := [
  ⟨0x08000, 1, 4, 1, 0x0, 0x1F0F, 0x0, 0x0, false, 0x0, 0x1F0F, 0x1F0F⟩,
  ⟨0x08004, 1, 4, 1, 0x0, 0xFFFFFFFF, 0x0, 0x0, false, 0x0, 0xFFFFFFFF, 0xFFFFFFFF⟩,
  ⟨0x08008, 1, 4, 1, 0x0, 0xFFFFFFFF, 0x0, 0x0, false, 0x0, 0xFFFFFFFF, 0xFFFFFFFF⟩,
  ⟨0x08010, 1, 4, 1, 0x0, 0xFFFFFFFF, 0x0, 0x0, false, 0x0, 0x0, 0xFFFFFFFF⟩,
  ⟨0x08014, 1, 4, 1, 0x0, 0xFFFFFFFF, 0x0, 0x0, false, 0x0, 0x0, 0xFFFFFFFF⟩,
  ⟨0x08018, 1, 4, 1, 0x0, 0xFFFFFFFF, 0x0, 0x0, false, 0x0, 0x0, 0xFFFFFFFF⟩,
  ⟨0x0801C, 1, 4, 1, 0x0, 0xFFFFFFFF, 0x0, 0x0, false, 0x0, 0x0, 0xFFFFFFFF⟩,
  ⟨0x08020, 1, 4, 1, 0x0, 0x3FF, 0x0, 0x0, false, 0x0, 0x3FF, 0x3FF⟩,
  ⟨0x08080, 1, 4, 1, 0x0, 0x0, 0x0, 0x0, true, 0x0, 0xFFFFFFFF, 0xFFFFFFFF⟩,
  ⟨0x20010, 1, 4, 1, 0x0, 0x0, 0x0, 0x0, false, 0x0, 0xFFFF, 0x0⟩,
  ⟨0x20014, 1, 4, 1, 0x0, 0x0, 0x0, 0x0, false, 0x0, 0xFFFFFFFF, 0x0⟩,
  ⟨0x20018, 1, 4, 1, 0x0, 0x0, 0x0, 0x0, false, 0x0, 0xFFFFFFFF, 0x0⟩,
  ⟨0x2001C, 1, 4, 1, 0x0, 0x0, 0x0, 0x0, false, 0x0, 0xFFFFFFFF, 0x0⟩,
  ⟨0x20020, 1, 4, 1, 0x0, 0x0, 0x0, 0x0, true, 0x0, 0xFFFFFFFF, 0x0⟩,
  ⟨0x20024, 1, 4, 1, 0x0, 0x0, 0x0, 0x0, true, 0x0, 0xFFFFFFFF, 0x0⟩,
  ⟨0x20028, 1, 4, 1, 0x0, 0x0, 0x0, 0x0, true, 0x0, 0xFFFFFFFF, 0x0⟩,
  ⟨0x30008, 1, 4, 1, 0x0, 0x0, 0x0, 0x0, true, 0x0, 0xFFFFFFFF, 0x0⟩,
  ⟨0x3000C, 1, 4, 1, 0x0, 0x0, 0x0, 0x0, true, 0x0, 0xFFFFFFFF, 0x0⟩,
  ⟨0x30010, 1, 4, 1, 0x0, 0x0, 0x0, 0x0, true, 0x0, 0xFFFFFFFF, 0x0⟩,
  ⟨0x30020, 1, 4, 1, 0x0, 0x1F3F07, 0x0, 0x0, false, 0x0, 0x1F3F07, 0x1F3F07⟩,
  ⟨0x31004, 1, 4, 8, 0x100, 0x0, 0x0, 0x0, false, 0x0, 0xFFFFFFFF, 0x0⟩,
  ⟨0x31008, 1, 4, 8, 0x100, 0x0, 0x0, 0x0, false, 0x0, 0xFFFFFFFF, 0x0⟩,
  ⟨0x3100C, 1, 4, 8, 0x100, 0x0, 0x0, 0x0, false, 0x0, 0xFFFFFFFF, 0x0⟩,
  ⟨0x31010, 1, 4, 8, 0x100, 0x0, 0x0, 0x0, true, 0x0, 0xFFFFFFFF, 0x0⟩,
  ⟨0x38000, 1, 4, 1, 0x0, 0x0, 0x0, 0x0, true, 0x0, 0xFFFFFFFF, 0x0⟩,
  ⟨0x38004, 1, 4, 1, 0x0, 0x0, 0x0, 0x0, true, 0x0, 0xFFFFFFFF, 0x0⟩,
  ⟨0x38008, 1, 4, 1, 0x0, 0x0, 0x0, 0x0, true, 0x0, 0xFFFFFFFF, 0x0⟩,
  ⟨0x3800C, 1, 4, 1, 0x0, 0x0, 0x0, 0x0, false, 0x0, 0xFFFF, 0x0⟩,
  ⟨0x39004, 1, 4, 8, 0x100, 0x0, 0x0, 0x0, false, 0x0, 0xFFFFFFFF, 0x0⟩,
  ⟨0x39008, 1, 4, 8, 0x100, 0x0, 0x0, 0x0, true, 0x0, 0xFFFFFFFF, 0x0⟩,
  ⟨0x10018, 1, 4, 16, 0x800, 0x0, 0x0, 0x0, false, 0x0, 0xFFFFFFFF, 0x0⟩,
  ⟨0x1001C, 1, 4, 16, 0x800, 0x0, 0x0, 0x0, false, 0x0, 0xFFFFFFFF, 0x0⟩,
  ⟨0x10020, 1, 4, 16, 0x800, 0x0, 0x0, 0x0, false, 0x0, 0xFFFFFFFF, 0x0⟩,
  ⟨0x10024, 1, 4, 16, 0x800, 0x0, 0x0, 0x0, true, 0x0, 0xFFFFFFFF, 0x0⟩,
  ⟨0x10028, 1, 4, 16, 0x800, 0x0, 0x0, 0x0, true, 0x0, 0xFFFFFFFF, 0x0⟩,
  ⟨0x1002C, 1, 4, 16, 0x800, 0x0, 0x0, 0x0, true, 0x0, 0xFFFFFFFF, 0x0⟩,
  ⟨0x10030, 1, 4, 16, 0x800, 0x0, 0x0, 0x0, true, 0x0, 0xFFFFFFFF, 0x0⟩,
  ⟨0x10034, 1, 4, 16, 0x800, 0x0, 0x0, 0x0, true, 0x0, 0xFFFFFFFF, 0x0⟩,
  ⟨0x10038, 1, 4, 16, 0x800, 0x0, 0x0, 0x0, true, 0x0, 0xFFFFFFFF, 0x0⟩,
  ⟨0x1003C, 1, 4, 16, 0x800, 0x0, 0x0, 0x0, true, 0x0, 0xFFFFFFFF, 0x0⟩,
  ⟨0x10040, 1, 4, 16, 0x800, 0x0, 0x0, 0x0, false, 0x0, 0xFFFF, 0x0⟩,
  ⟨0x18014, 1, 4, 1, 0x0, 0x0, 0x0, 0x0, false, 0x0, 0xFFFFFFFF, 0xFFFFFFFF⟩,
  ⟨0x18020, 1, 4, 1, 0x0, 0xFFFF, 0x0, 0x0, false, 0x0, 0xFFFF, 0xFFFF⟩,
  ⟨0x18024, 4, 4, 1, 0x0, 0x0, 0x0, 0x0, false, 0x0, 0xFFFFFFFF, 0xFFFFFFFF⟩,
  ⟨0x18040, 1, 4, 1, 0x0, 0x3FFF, 0x0, 0x0, false, 0x0, 0x3FFF, 0x3FFF⟩]

/-- Rows of the register file. -/
def regRows1 : List RegRow := [
  ⟨0x18044, 8, 4, 1, 0x0, 0x0, 0x0, 0x0, false, 0x0, 0xFFFFFFFF, 0xFFFFFFFF⟩,
  ⟨0x18080, 1, 4, 1, 0x0, 0x0, 0x0, 0x0, true, 0x0, 0xFFFFFFFF, 0xFFFFFFFF⟩,
  ⟨0x18084, 1, 4, 1, 0x0, 0x0, 0x0, 0x0, true, 0x0, 0xFFFFFFFF, 0xFFFFFFFF⟩,
  ⟨0x18088, 1, 4, 1, 0x0, 0x0, 0x0, 0x0, true, 0x0, 0xFFFFFFFF, 0xFFFFFFFF⟩,
  ⟨0x1808C, 1, 4, 1, 0x0, 0x0, 0x0, 0x0, true, 0x0, 0xFFFFFFFF, 0xFFFFFFFF⟩,
  ⟨0x18090, 1, 4, 1, 0x0, 0x0, 0x0, 0x0, true, 0x0, 0xFFFFFFFF, 0xFFFFFFFF⟩,
  ⟨0x18094, 1, 4, 1, 0x0, 0x0, 0x0, 0x0, true, 0x0, 0xFFFFFFFF, 0xFFFFFFFF⟩,
  ⟨0x18098, 1, 4, 1, 0x0, 0x0, 0x0, 0x0, true, 0x0, 0xFFFFFFFF, 0xFFFFFFFF⟩,
  ⟨0x1809C, 1, 4, 1, 0x0, 0x0, 0x0, 0x0, true, 0x0, 0xFFFFFFFF, 0xFFFFFFFF⟩,
  ⟨0x180A0, 1, 4, 1, 0x0, 0x0, 0x0, 0x0, true, 0x0, 0xFFFFFFFF, 0xFFFFFFFF⟩,
  ⟨0x180A4, 1, 4, 1, 0x0, 0x0, 0x0, 0x0, true, 0x0, 0xFFFFFFFF, 0xFFFFFFFF⟩,
  ⟨0x180C0, 1, 4, 1, 0x0, 0x0, 0x0, 0x0, false, 0x0, 0xFFFFFFFF, 0x0⟩,
  ⟨0x04000, 1, 4, 4, 0x200, 0x0, 0x0, 0x7000, false, 0x0, 0x7000, 0x7000⟩,
  ⟨0x04008, 1, 4, 4, 0x200, 0xFFFF011F, 0x0, 0x0, false, 0x0, 0xFFFF071F, 0xFFFF071F⟩,
  ⟨0x0400C, 1, 4, 4, 0x200, 0x0, 0x0, 0x0, false, 0x0, 0xFFFFFFFF, 0xFFFFFFFF⟩,
  ⟨0x04024, 1, 4, 4, 0x200, 0x7, 0x0, 0x0, false, 0x0, 0x7, 0x7⟩,
  ⟨0x04028, 1, 4, 4, 0x200, 0xFFFFFFFF, 0x0, 0x0, false, 0x0, 0xFFFFFFFF, 0xFFFFFFFF⟩,
  ⟨0x0402C, 1, 4, 4, 0x200, 0xFFFFFFFF, 0x0, 0x0, false, 0x0, 0xFFFFFFFF, 0xFFFFFFFF⟩,
  ⟨0x04030, 1, 4, 4, 0x200, 0xFFFFFFFF, 0x0, 0x0, false, 0x0, 0xFFFFFFFF, 0xFFFFFFFF⟩,
  ⟨0x04034, 1, 4, 4, 0x200, 0xFFFFFFFF, 0x0, 0x0, false, 0x0, 0xFFFFFFFF, 0xFFFFFFFF⟩,
  ⟨0x04040, 1, 4, 4, 0x200, 0x0, 0x0, 0x0, false, 0x0, 0x0, 0xFFFFFF⟩,
  ⟨0x04044, 1, 4, 4, 0x200, 0x0, 0x0, 0x0, false, 0x0, 0x0, 0xFFFFFFFF⟩,
  ⟨0x04048, 1, 4, 4, 0x200, 0x0, 0x0, 0x0, false, 0x0, 0x0, 0xFFFFFFFF⟩,
  ⟨0x0404C, 1, 4, 4, 0x200, 0x0, 0x0, 0x0, false, 0x0, 0x0, 0xFFFFFFFF⟩,
  ⟨0x04050, 1, 4, 4, 0x200, 0x0, 0x0, 0x0, false, 0x0, 0x0, 0xFFFFFFFF⟩,
  ⟨0x04080, 16, 4, 4, 0x200, 0xFFFFFFFF, 0x0, 0x0, false, 0x0, 0xFFFFFFFF, 0xFFFFFFFF⟩,
  ⟨0x040E0, 1, 4, 4, 0x200, 0x0, 0x0, 0x0, true, 0x0, 0xFFFFFFFF, 0xFFFFFFFF⟩,
  ⟨0x040E4, 1, 4, 4, 0x200, 0x0, 0x0, 0x0, true, 0x0, 0xFFFFFFFF, 0xFFFFFFFF⟩,
  ⟨0x040E8, 1, 4, 4, 0x200, 0x0, 0x0, 0x0, true, 0x0, 0xFFFFFFFF, 0xFFFFFFFF⟩,
  ⟨0x04800, 1, 4, 1, 0x0, 0x1, 0x0, 0x2, false, 0x0, 0x3, 0x3⟩,
  ⟨0x04804, 1, 4, 1, 0x0, 0xFFFFFFFF, 0x0, 0x0, false, 0x0, 0xFFFFFFFF, 0xFFFFFFFF⟩,
  ⟨0x04808, 1, 4, 1, 0x0, 0xFFFFFFFF, 0x0, 0x0, false, 0x0, 0xFFFFFFFF, 0xFFFFFFFF⟩,
  ⟨0x0480C, 1, 4, 1, 0x0, 0x0, 0x0, 0x0, false, 0x0, 0x0, 0x1F⟩,
  ⟨0x04810, 1, 4, 1, 0x0, 0x0, 0x0, 0x0, true, 0x0, 0xFFFFFFFF, 0xFFFFFFFF⟩,
  ⟨0x05000, 1, 4, 64, 0x20, 0x7, 0x0, 0x0, false, 0x0, 0x7, 0x7⟩,
  ⟨0x05004, 1, 4, 64, 0x20, 0xFFFFFFFF, 0x0, 0x0, false, 0x0, 0x0, 0xFFFFFFFF⟩,
  ⟨0x05008, 1, 4, 64, 0x20, 0xFFFFFFFF, 0x0, 0x0, false, 0x0, 0x0, 0xFFFFFFFF⟩,
  ⟨0x06208, 1, 4, 1, 0x0, 0x0, 0x0, 0x3, false, 0x0, 0x0, 0x3⟩,
  ⟨0x06210, 1, 4, 1, 0x0, 0x0, 0x0, 0xFFFFFFFF, false, 0x0, 0x0, 0xFFFFFFFF⟩,
  ⟨0x06214, 1, 4, 1, 0x0, 0x0, 0x0, 0xFFFFFFFF, false, 0x0, 0x0, 0xFFFFFFFF⟩,
  ⟨0x06218, 1, 4, 1, 0x0, 0x0, 0x0, 0xFFFFFFFF, false, 0x0, 0x0, 0xFFFFFFFF⟩,
  ⟨0x0621C, 1, 4, 1, 0x0, 0x0, 0x0, 0xFFFFFFFF, false, 0x0, 0x0, 0xFFFFFFFF⟩,
  ⟨0x06220, 1, 4, 1, 0x0, 0x0, 0x0, 0xFFFF, false, 0x0, 0x0, 0xFFFF⟩,
  ⟨0x06224, 1, 4, 1, 0x0, 0x0, 0x0, 0x0, true, 0x0, 0x0, 0xFFFFFFFF⟩,
  ⟨0x06240, 4, 4, 1, 0x0, 0xFFFFFFF, 0x0, 0x0, false, 0x0, 0xFFFFFFF, 0xFFFFFFF⟩]

/-- Rows of the register file. -/
def regRows2 : List RegRow := [
  ⟨0x06250, 1, 4, 1, 0x0, 0x0, 0x0, 0xF, false, 0x0, 0x0, 0xF⟩,
  ⟨0x06280, 1, 4, 1, 0x0, 0xFFFFFFFF, 0x0, 0x0, false, 0x0, 0xFFFFFFFF, 0xFFFFFFFF⟩,
  ⟨0x06290, 4, 4, 1, 0x0, 0x0, 0x0, 0x0, false, 0x0, 0x0, 0x0⟩,
  ⟨0x06400, 16, 16, 1, 0x0, 0xFFF01FF, 0x0, 0x0, false, 0x0, 0xFFF01FF, 0xFFF01FF⟩,
  ⟨0x40000, 1, 4, 1, 0x0, 0x7F0F, 0x0, 0x0, false, 0x0, 0x7F0F, 0x7F0F⟩,
  ⟨0x40004, 1, 4, 1, 0x0, 0x1, 0x0, 0x0, false, 0x0, 0x1, 0x1⟩,
  ⟨0x40008, 1, 4, 1, 0x0, 0xFFFFFFFF, 0x0, 0x0, false, 0x0, 0xFFFFFFFF, 0xFFFFFFFF⟩,
  ⟨0x40010, 1, 4, 1, 0x0, 0xFFF, 0x0, 0x0, false, 0x0, 0xFFF, 0xFFF⟩,
  ⟨0x40080, 32, 4, 1, 0x0, 0x0, 0x0, 0x0, false, 0x0, 0xFFFFFFFF, 0xFFFFFFFF⟩,
  ⟨0x40100, 1, 4, 1, 0x0, 0x0, 0x0, 0x0, true, 0x0, 0xFFFFFFFF, 0xFFFFFFFF⟩,
  ⟨0x40104, 1, 4, 1, 0x0, 0x0, 0x0, 0x0, true, 0x0, 0xFFFFFFFF, 0xFFFFFFFF⟩,
  ⟨0x40108, 1, 4, 1, 0x0, 0x0, 0x0, 0x0, true, 0x0, 0xFFFFFFFF, 0xFFFFFFFF⟩,
  ⟨0x4010C, 1, 4, 1, 0x0, 0x0, 0x0, 0x0, true, 0x0, 0xFFFFFFFF, 0xFFFFFFFF⟩,
  ⟨0x40110, 1, 4, 1, 0x0, 0x0, 0x0, 0x0, true, 0x0, 0xFFFFFFFF, 0xFFFFFFFF⟩,
  ⟨0x40114, 1, 4, 1, 0x0, 0x0, 0x0, 0x0, true, 0x0, 0xFFFFFFFF, 0xFFFFFFFF⟩,
  ⟨0x40118, 1, 4, 1, 0x0, 0x0, 0x0, 0x0, true, 0x0, 0xFFFFFFFF, 0xFFFFFFFF⟩,
  ⟨0x4011C, 1, 4, 1, 0x0, 0x0, 0x0, 0x0, true, 0x0, 0xFFFFFFFF, 0xFFFFFFFF⟩,
  ⟨0x40120, 1, 4, 1, 0x0, 0x0, 0x0, 0x0, true, 0x0, 0xFFFFFFFF, 0xFFFFFFFF⟩,
  ⟨0x40124, 1, 4, 1, 0x0, 0x0, 0x0, 0x0, true, 0x0, 0xFFFFFFFF, 0xFFFFFFFF⟩,
  ⟨0x40128, 1, 4, 1, 0x0, 0x0, 0x0, 0x0, true, 0x0, 0xFFFFFFFF, 0xFFFFFFFF⟩,
  ⟨0x4012C, 1, 4, 1, 0x0, 0x0, 0x0, 0x0, true, 0x0, 0xFFFFFFFF, 0xFFFFFFFF⟩,
  ⟨0x40140, 1, 4, 1, 0x0, 0x0, 0x0, 0x0, false, 0x0, 0xFFFFFFFF, 0xFFFFFFFF⟩,
  ⟨0x40144, 1, 4, 1, 0x0, 0x0, 0x0, 0x0, false, 0x0, 0xFFFFFFFF, 0xFFFFFFFF⟩,
  ⟨0x40148, 1, 4, 1, 0x0, 0x0, 0x0, 0x0, false, 0x0, 0xFFFFFFFF, 0xFFFFFFFF⟩,
  ⟨0x4014C, 1, 4, 1, 0x0, 0x0, 0x0, 0x0, false, 0x0, 0xFFFFFFFF, 0xFFFFFFFF⟩,
  ⟨0x50000, 1, 4, 1, 0x0, 0xFFF, 0x0, 0x0, false, 0x0, 0xFFF, 0xFFF⟩,
  ⟨0x50008, 1, 4, 1, 0x0, 0x0, 0x0, 0x0, false, 0x0, 0xFFF, 0xFFF⟩,
  ⟨0x5000C, 1, 4, 1, 0x0, 0xFFFFFFFF, 0x0, 0x0, false, 0x0, 0xFFFFFFFF, 0xFFFFFFFF⟩,
  ⟨0x50010, 1, 4, 1, 0x0, 0xFFFFFFFF, 0x0, 0x0, false, 0x0, 0xFFFFFFFF, 0xFFFFFFFF⟩,
  ⟨0x50020, 1, 4, 1, 0x0, 0xFFF, 0x0, 0x0, false, 0x0, 0xFFF, 0xFFF⟩,
  ⟨0x50040, 1, 4, 1, 0x0, 0x0, 0x0, 0x0, true, 0x0, 0xFFFFFFFF, 0xFFFFFFFF⟩,
  ⟨0x50044, 1, 4, 1, 0x0, 0x0, 0x0, 0x0, true, 0x0, 0xFFFFFFFF, 0xFFFFFFFF⟩,
  ⟨0x50048, 1, 4, 1, 0x0, 0x0, 0x0, 0x0, true, 0x0, 0xFFFFFFFF, 0xFFFFFFFF⟩,
  ⟨0x51000, 1, 4, 16, 0x100, 0xFFF003F, 0x0, 0x0, false, 0x0, 0xFFF003F, 0xFFF003F⟩,
  ⟨0x51024, 4, 16, 16, 0x100, 0x0, 0x0, 0x0, true, 0x0, 0xFFFFFFFF, 0xFFFFFFFF⟩,
  ⟨0x51028, 4, 16, 16, 0x100, 0x0, 0x0, 0x0, true, 0x0, 0xFFFFFFFF, 0xFFFFFFFF⟩,
  ⟨0x5102C, 4, 16, 16, 0x100, 0x0, 0x0, 0x0, false, 0x0, 0xFFFFFFFF, 0x0⟩,
  ⟨0x01000, 1, 4, 1, 0x0, 0x0, 0x0, 0x0, false, 0x3000, 0xFFFF, 0xFFFF⟩,
  ⟨0x01004, 1, 4, 1, 0x0, 0x0, 0x0, 0x0, false, 0x0, 0xFFFFFFFF, 0xFFFFFFFF⟩,
  ⟨0x01008, 1, 4, 1, 0x0, 0x0, 0x0, 0x0, false, 0x0, 0xFFFFFFFF, 0xFFFFFFFF⟩,
  ⟨0x0100C, 1, 4, 1, 0x0, 0x0, 0x0, 0x0, false, 0x0, 0xFFFFFFFF, 0xFFFFFFFF⟩,
  ⟨0x01010, 1, 4, 1, 0x0, 0x0, 0x0, 0x0, false, 0x0, 0xFFFFFFFF, 0xFFFFFFFF⟩,
  ⟨0x01014, 1, 4, 1, 0x0, 0x0, 0x0, 0x0, false, 0x0, 0x1F0F3F, 0x1F0F3F⟩,
  ⟨0x01020, 1, 4, 1, 0x0, 0x0, 0x17F7F7F, 0x0, false, 0x0, 0x17F7F7F, 0x17F7F7F⟩,
  ⟨0x01024, 1, 4, 1, 0x0, 0x0, 0xFFFFFFFF, 0x0, false, 0x0, 0xFFFFFFFF, 0xFFFFFFFF⟩]

/-- Rows of the register file. -/
def regRows3 : List RegRow := [
  ⟨0x01028, 1, 4, 1, 0x0, 0x0, 0xFFFFFFFF, 0x0, false, 0x0, 0xFFFFFFFF, 0xFFFFFFFF⟩,
  ⟨0x01030, 1, 4, 1, 0x0, 0x0, 0x0, 0x0, false, 0x0, 0x1FF, 0x1F0⟩,
  ⟨0x01034, 1, 4, 1, 0x0, 0x0, 0x0, 0x0, false, 0x0, 0xFFFFFFFF, 0xFFFFFFFF⟩,
  ⟨0x01800, 8, 4, 1, 0x0, 0x0, 0x0, 0x0, false, 0x0, 0x0, 0x0⟩,
  ⟨0x01820, 1, 4, 1, 0x0, 0xFFFFFFFF, 0x0, 0x0, false, 0x0, 0xFFFFFFFF, 0xFFFFFFFF⟩,
  ⟨0x01860, 1, 4, 1, 0x0, 0x0, 0x0, 0x0, false, 0x1E, 0x1E, 0x1E⟩,
  ⟨0x01864, 1, 4, 1, 0x0, 0x0, 0x0, 0x0, false, 0x0, 0x0, 0x0⟩,
  ⟨0x0186C, 1, 4, 1, 0x0, 0x0, 0x0, 0x0, false, 0xFFFFFFFF, 0xFFFFFFFF, 0xFFFFFFFF⟩,
  ⟨0x01870, 1, 4, 1, 0x0, 0x0, 0x0, 0x0, false, 0x0, 0x0, 0x0⟩,
  ⟨0x02000, 1, 4, 1, 0x0, 0x0, 0x0, 0xF, false, 0xD, 0xB, 0x7⟩,
  ⟨0x02004, 1, 4, 1, 0x0, 0x0, 0x0, 0x0, false, 0xFFFFFFFF, 0xFFFFFFFF, 0xFFFFFFFF⟩,
  ⟨0x02008, 1, 4, 1, 0x0, 0x0, 0x0, 0x0, false, 0xFFFFFFFF, 0xFFFFFFFF, 0xFFFFFFFF⟩,
  ⟨0x0200C, 1, 4, 1, 0x0, 0x0, 0x0, 0x0, false, 0x0, 0x0, 0x0⟩,
  ⟨0x02100, 1, 4, 1, 0x0, 0x0, 0x0, 0x208, false, 0x0, 0x3F8, 0x278⟩,
  ⟨0x02108, 1, 4, 1, 0x0, 0x0, 0x0, 0x0, false, 0x0, 0xFFFF, 0x0⟩,
  ⟨0x0210C, 1, 4, 1, 0x0, 0x0, 0x0, 0x0, false, 0x0, 0xFFFFFFFF, 0x0⟩,
  ⟨0x02110, 1, 4, 1, 0x0, 0x0, 0x0, 0x0, false, 0x0, 0xFFFFFFFF, 0x0⟩,
  ⟨0x02114, 1, 4, 1, 0x0, 0xFFFFFFFF, 0x0, 0x0, false, 0x0, 0xFFFFFFFF, 0xFFFFFFFF⟩,
  ⟨0x02118, 1, 4, 1, 0x0, 0x3FF, 0x0, 0x0, false, 0x0, 0x3FF, 0x0⟩,
  ⟨0x0211C, 1, 4, 1, 0x0, 0x0, 0x0, 0x0, false, 0x0, 0xFFFF, 0x0⟩,
  ⟨0x02120, 1, 4, 1, 0x0, 0x0, 0x0, 0x0, false, 0x0, 0xFFFF, 0xFFFF⟩,
  ⟨0x02124, 1, 4, 1, 0x0, 0x3F, 0x0, 0x0, false, 0x0, 0x3F, 0x3F⟩,
  ⟨0x02128, 1, 4, 1, 0x0, 0x0, 0x0, 0x0, true, 0x0, 0xFFFFFFFF, 0xFFFFFFFF⟩,
  ⟨0x0212C, 1, 4, 1, 0x0, 0x0, 0x0, 0x0, true, 0x0, 0xFFFFFFFF, 0xFFFFFFFF⟩,
  ⟨0x60000, 1, 4, 1, 0x0, 0x3F1E, 0x1, 0x0, false, 0x0, 0x3F1F, 0x3F1F⟩,
  ⟨0x60008, 1, 4, 1, 0x0, 0x0, 0x0, 0x2, false, 0xFFFF007B, 0xFFFF007B, 0x0⟩,
  ⟨0x6000C, 1, 4, 1, 0x0, 0x0, 0x0, 0x0, false, 0xFFFFFFFF, 0xFFFFFFFF, 0xFFFFFFFF⟩,
  ⟨0x60010, 1, 4, 1, 0x0, 0x0, 0x0, 0x0, true, 0xFFFFFFFF, 0xFFFFFFFF, 0xFFFFFFFF⟩,
  ⟨0x60020, 1, 4, 1, 0x0, 0x1F, 0x0, 0x0, false, 0x0, 0x1F, 0x1F⟩,
  ⟨0x60024, 1, 4, 1, 0x0, 0xFFFFFFFF, 0x0, 0x0, false, 0x0, 0xFFFFFFFF, 0xFFFFFFFF⟩,
  ⟨0x60028, 1, 4, 1, 0x0, 0xFFFFFFFF, 0x0, 0x0, false, 0x0, 0xFFFFFFFF, 0xFFFFFFFF⟩,
  ⟨0x6002C, 1, 4, 1, 0x0, 0xFFFFFFFF, 0x0, 0x0, false, 0x0, 0xFFFFFFFF, 0xFFFFFFFF⟩,
  ⟨0x60030, 1, 4, 1, 0x0, 0xFFFFFFFF, 0x0, 0x0, false, 0x0, 0xFFFFFFFF, 0xFFFFFFFF⟩,
  ⟨0x70000, 1, 4, 1, 0x0, 0x0, 0x0, 0x1, false, 0x1, 0x3, 0x3⟩,
  ⟨0x70004, 1, 4, 1, 0x0, 0x3F, 0x0, 0x0, false, 0x0, 0x3F, 0x3F⟩,
  ⟨0x70008, 1, 4, 1, 0x0, 0x0, 0x0, 0x0, false, 0xFFFFFFFF, 0xFFFFFFFF, 0xFFFFFFFF⟩,
  ⟨0x7000C, 1, 4, 1, 0x0, 0xFFFFFFFF, 0x0, 0x0, false, 0xFFFFFFFF, 0xFFFFFFFF, 0xFFFFFFFF⟩,
  ⟨0x70010, 1, 4, 1, 0x0, 0x0, 0x0, 0x0, true, 0xFFFFFFFF, 0xFFFFFFFF, 0xFFFFFFFF⟩,
  ⟨0x70040, 8, 4, 1, 0x0, 0x0, 0x0, 0x0, false, 0xFFFFFFFF, 0xFFFFFFFF, 0xFFFFFFFF⟩,
  ⟨0x70080, 6, 4, 1, 0x0, 0x0, 0x0, 0x0, true, 0xFFFFFFFF, 0xFFFFFFFF, 0xFFFFFFFF⟩,
  ⟨0x70100, 512, 4, 1, 0x0, 0x0, 0x0, 0x0, false, 0xFFFFFFFF, 0xFFFFFFFF, 0xFFFFFFFF⟩,
  ⟨0x0000C, 1, 4, 1, 0x0, 0x0, 0x0, 0x0, false, 0x0, 0x3, 0x2⟩,
  ⟨0x00020, 1, 4, 1, 0x0, 0x0, 0x0, 0x25F, false, 0x0, 0x3FF, 0x3FF⟩,
  ⟨0x00024, 1, 4, 1, 0x0, 0x3FF, 0x0, 0x0, false, 0x0, 0x3FF, 0x3FF⟩,
  ⟨0x00040, 1, 4, 1, 0x0, 0x0, 0x0, 0x0, true, 0x0, 0xFFFFFFFF, 0xFFFFFFFF⟩]

/-- Rows of the register file. -/
def regRows4 : List RegRow := [
  ⟨0x00044, 1, 4, 1, 0x0, 0x0, 0x0, 0x0, false, 0x0, 0x801FFFFF, 0x801FFFFF⟩]

/-- Every row of the register file. -/
def regRows : List RegRow := regRows0 ++ regRows1 ++ regRows2 ++ regRows3 ++ regRows4

/-- Whether a row holds offset `off`. -/
def RegRow.holds (r : RegRow) (off : Nat) : Bool :=
  let d := off - r.base
  let d1 := if r.stride2 = 0 then d else d % r.stride2
  decide (r.base ≤ off) && (r.stride2 == 0 || decide (d / r.stride2 < r.n2)) && d1 % r.stride == 0
    && decide (d1 / r.stride < r.n)

/-- The row that holds offset `off`. -/
def regRow? (off : Nat) : Option RegRow := regRows.find? (·.holds off)

/-- Reset values of the register file, 0 where not named; PWR_LIMIT follows the configuration. -/
def regResetFixed (off : Nat) : Word := match off with
  | 0x08000 => 0x00001201#32
  | 0x04804 => 0xE4E4E4E4#32
  | 0x04808 => 0xE4E4E4E4#32
  | 0x06280 => 0x10000000#32
  | 0x40000 => 0x00002803#32
  | 0x40008 => 0x00010000#32
  | 0x50000 => 0x00000100#32
  | 0x5000C => 0x00100000#32
  | 0x50010 => 0x00020000#32
  | 0x01000 => 0x00000006#32
  | 0x02000 => 0x00000001#32
  | 0x02114 => 0x00280000#32
  | 0x02118 => 0x000002EE#32
  | 0x02124 => 0x00000004#32
  | 0x60000 => 0x0000301C#32
  | 0x70004 => 0x0000003E#32
  | 0x00024 => 0x000003FF#32
  | _ => 0#32

end Sys2Proof.Machine
end

