-- ==== Sys2Proof/Config.lean ====
section
/-! DEFINITION. What a build fixes (R4, R6, R538) and the values the spec leaves open: opaque constants without a
body, so that no proof can rest on a value of theirs. -/

namespace Sys2Proof

/-- The three configurations of R4. -/
inductive Chip where
  | bv128 | bv256 | bv512
  deriving DecidableEq, Repr, Inhabited

/-- The build of a die (R538): configuration, memory tiers and optional units. -/
structure Build where
  chip    : Chip
  tiers   : Nat
  distCmp : Bool
  scan    : Bool
  mirror  : Bool
  /-- 0 none, 1 64 KiB, 2 256 KiB. -/
  repSize : Nat
  deriving DecidableEq, Repr, Inhabited

/-- Byte `a` of local memory after the `n`-th self-test left the contents undefined (R467). -/
opaque Config.freeByte (n a : Nat) : Byte

/-- Errors of stored word `w` after the `n`-th self-test (R467): (byte index, XOR) pairs. -/
opaque Config.freeFlaw (n w : Nat) : List (Nat × Byte)

/-- Whether a `blk_rst_n` pulse below 10 ticks is taken (R455), by the free counter. -/
opaque Config.shortResetTaken (n : Nat) : Bool

/-- Beats between the first and the last latch of a capture (R516), by the free counter. -/
opaque Config.skew (n : Nat) : BitVec 16

/-- Bits of a special function outside the exact cases of R114 and R115: opcode, operand code, result code. -/
opaque Config.sfu (op : Nat) (x : BitVec 32) : BitVec 32

/-- The bits a wrapper instruction presents (R467), by the free counter. -/
opaque Config.wrapperBits (n : Nat) : BitVec 64

/-- A retained sum outside the I32 range (R396): the I32 of the plane, the contribution. -/
opaque Config.retainSum : Int → Int → BitVec 32

/-- The engine whose failing check halts an optimizer call (R379). -/
opaque Config.optEngine : BitVec 8

/-- A bit the spec leaves to the part, by the free counter. -/
opaque Config.freeBit (n : Nat) : Bool

/-- A word the spec leaves to the part, by the free counter. -/
opaque Config.freeWord (n : Nat) : BitVec 64

end Sys2Proof
end

