-- ==== Sys2Proof/Machine/Num.lean ====
section
/-! DEFINITION. Number formats, conversions, rounding and the stochastic draw (01 R17 to R34), and the exact
arithmetic of binary32 outside sums (R51). A value is held exactly and rounded once. -/

namespace Sys2Proof.Machine

/-- The nine formats of R17. -/
inductive Fmt where
  | f4 | i4 | f8a | f8g | i8 | f16 | b32 | i32 | i64
  deriving DecidableEq, Repr, Inhabited

/-- Format of a 4-bit code; 0x9 to 0xF are reserved (R17). -/
def Fmt.ofCode : Nat → Option Fmt
  | 0 => some .f4 | 1 => some .i4 | 2 => some .f8a | 3 => some .f8g | 4 => some .i8
  | 5 => some .f16 | 6 => some .b32 | 7 => some .i32 | 8 => some .i64 | _ => none

/-- The 4-bit code of a format (R17). -/
def Fmt.code : Fmt → Nat
  | .f4 => 0 | .i4 => 1 | .f8a => 2 | .f8g => 3 | .i8 => 4 | .f16 => 5 | .b32 => 6 | .i32 => 7 | .i64 => 8

/-- Bits per element (R17). -/
def Fmt.bits : Fmt → Nat
  | .f4 => 4 | .i4 => 4 | .f8a => 8 | .f8g => 8 | .i8 => 8 | .f16 => 16 | .b32 => 32 | .i32 => 32 | .i64 => 64

/-- Formats that carry block scales (R21). -/
def Fmt.isBlock : Fmt → Bool | .f4 => true | .i4 => true | _ => false

/-- Formats whose tensors carry a scale exponent other than 0 (R27, R28). -/
def Fmt.isScaled : Fmt → Bool | .f4 | .i4 | .f8a | .f8g | .i8 => true | _ => false

/-- Integer formats without a block scale (R20). -/
def Fmt.isInt : Fmt → Bool | .i8 | .i32 | .i64 => true | _ => false

/-- The scale target cap of R28 (0 where the format is not scaled). -/
def Fmt.cap : Fmt → Int | .f4 => 2 | .i4 => 2 | .f8a => 8 | .f8g => 16 | .i8 => 6 | _ => 0

/-- The bound exponent b of R28, F16 apart (its bound comes with the data). -/
def Fmt.bound : Fmt → Int | .f4 => 3 | .i4 => 3 | .f8a => 9 | .f8g => 17 | .i8 => 7 | _ => 0

/-- Rounding modes (R17, R33); stochastic rounding carries its draw. -/
inductive Rnd where
  | rne | rtz | sr (draw : BitVec 32)
  deriving DecidableEq, Repr, Inhabited

/-- An exact value: NaN, an infinity, or (−1)^neg × m × 2^e. Zero keeps its sign (R19). -/
inductive Num where
  | nan | inf (neg : Bool) | fin (neg : Bool) (m : Nat) (e : Int)
  deriving DecidableEq, Repr, Inhabited

def Num.zero : Num := .fin false 0 0

def Num.ofInt (i : Int) : Num := .fin (decide (i < 0)) i.natAbs 0

def Num.isNan : Num → Bool | .nan => true | _ => false

def Num.isZero : Num → Bool | .fin _ 0 _ => true | _ => false

def Num.isNeg : Num → Bool | .fin n _ _ => n | .inf n => n | .nan => false

def Num.neg : Num → Num | .nan => .nan | .inf n => .inf (!n) | .fin n m e => .fin (!n) m e

def Num.abs : Num → Num | .nan => .nan | .inf _ => .inf false | .fin _ m e => .fin false m e

/-- x × 2^k. -/
def Num.scale2 (x : Num) (k : Int) : Num := match x with
  | .fin n m e => .fin n m (e + k)
  | y => y

/-- The integer (−1)^neg × m × 2^(e − q), for q ≤ e. -/
def alignInt (neg : Bool) (m : Nat) (e q : Int) : Int :=
  let v : Int := ((m <<< (e - q).toNat : Nat) : Int)
  if neg then -v else v

/-- Exact sum of two values (R51: opposite infinities give NaN; two zeros keep a common sign). -/
def Num.add (x y : Num) : Num := match x, y with
  | .nan, _ => .nan
  | _, .nan => .nan
  | .inf a, .inf b => if a = b then .inf a else .nan
  | .inf a, _ => .inf a
  | _, .inf b => .inf b
  | .fin a m e, .fin b m' e' =>
    if m = 0 ∧ m' = 0 then .fin (a && b) 0 0
    else
      let q := min e e'
      let s := alignInt a m e q + alignInt b m' e' q
      .fin (decide (s < 0)) s.natAbs q

def Num.sub (x y : Num) : Num := x.add y.neg

/-- Exact product; infinity times zero is NaN (R51). -/
def Num.mul (x y : Num) : Num := match x, y with
  | .nan, _ => .nan
  | _, .nan => .nan
  | .inf a, .inf b => .inf (a != b)
  | .inf a, .fin b m _ => if m = 0 then .nan else .inf (a != b)
  | .fin a m _, .inf b => if m = 0 then .nan else .inf (a != b)
  | .fin a m e, .fin b m' e' => .fin (a != b) (m * m') (e + e')

/-- Quotient to 400 bits and a sticky bit below them, so that one rounding of it is the rounding of the exact
quotient; zero over zero and infinity over infinity are NaN. -/
def Num.div (x y : Num) : Num := match x, y with
  | .nan, _ => .nan
  | _, .nan => .nan
  | .inf _, .inf _ => .nan
  | .inf a, .fin b _ _ => .inf (a != b)
  | .fin a _ _, .inf b => .fin (a != b) 0 0
  | .fin a m e, .fin b m' e' =>
    if m' = 0 then (if m = 0 then .nan else .inf (a != b))
    else
      let k := 400 + Nat.log2 m'
      let n := m <<< k
      let qn := n / m'
      let st := if n % m' = 0 then 0 else 1
      .fin (a != b) (2 * qn + st) (e - e' - (k : Int) - 1)

/-- Integer square root by bits from the top. -/
def isqrt (n : Nat) : Nat :=
  (List.range (Nat.log2 n / 2 + 1)).reverse.foldl
    (fun r i => let c := r + 2 ^ i; if c * c ≤ n then c else r) 0

/-- Square root with a sticky bit; negative values give NaN, −0 gives −0. -/
def Num.sqrt (x : Num) : Num := match x with
  | .nan => .nan
  | .inf n => if n then .nan else .inf false
  | .fin n m e =>
    if m = 0 then .fin n 0 0
    else if n then .nan
    else
      let e' := e - 300
      let (m1, e1) := if e' % 2 = 0 then (m <<< 300, e') else (m <<< 301, e' - 1)
      let r := isqrt m1
      let st := if r * r = m1 then 0 else 1
      .fin false (2 * r + st) (e1 / 2 - 1)

/-- Order of two magnitudes m × 2^e. -/
def magLt (m : Nat) (e : Int) (m' : Nat) (e' : Int) : Bool :=
  let q := min e e'
  decide (m <<< (e - q).toNat < m' <<< (e' - q).toNat)

/-- Numeric order; false where either value is NaN, and zeros are equal. -/
def Num.lt (x y : Num) : Bool := match x, y with
  | .nan, _ => false
  | _, .nan => false
  | .inf a, .inf b => a && !b
  | .inf a, .fin _ _ _ => a
  | .fin _ _ _, .inf b => !b
  | .fin a m e, .fin b m' e' =>
    let q := min e e'
    decide (alignInt a m e q < alignInt b m' e' q)

/-- Numeric equality; false where either value is NaN, and zeros are equal. -/
def Num.eq (x y : Num) : Bool := !x.isNan && !y.isNan && !(x.lt y) && !(y.lt x)

/-- |x| < |y|. -/
def Num.absLt (x y : Num) : Bool := x.abs.lt y.abs

/-- ceil_log2 of R39 of a positive finite magnitude; 128 for an infinity. -/
def Num.ceilLog2 : Num → Int
  | .fin _ m e =>
    let k := Nat.log2 m
    if m = 2 ^ k then (k : Int) + e else (k : Int) + e + 1
  | _ => 128

/-- Layout of a floating target: fraction bits, bias, largest finite magnitude, and whether it holds infinity (R18). -/
structure FloatSpec where
  M    : Nat
  bias : Int
  maxM : Nat
  maxE : Int
  hasInf : Bool
  deriving DecidableEq, Repr

def specF4 : FloatSpec := ⟨1, 1, 6, 0, false⟩
def specF8a : FloatSpec := ⟨3, 7, 448, 0, false⟩
def specF8g : FloatSpec := ⟨2, 15, 98304, 0, false⟩
def specF16 : FloatSpec := ⟨7, 127, 255, 120, true⟩
def specB32 : FloatSpec := ⟨23, 127, 16777215, 104, true⟩

/-- m × 2^e as an integer count of 2^q, rounded by the mode (R33): the magnitude's neighbours are n and n + 1. -/
def quantise (r : Rnd) (m : Nat) (e q : Int) : Nat :=
  if q ≤ e then m <<< (e - q).toNat
  else
    let k := (q - e).toNat
    let n := m >>> k
    let rem := m - (n <<< k)
    match r with
    | .rtz => n
    | .rne =>
      let half := 2 ^ (k - 1)
      if half < rem ∨ (rem = half ∧ n % 2 = 1) then n + 1 else n
    | .sr draw => if draw.toNat < (rem <<< 32) >>> k then n + 1 else n

/-- Code of an exactly representable magnitude n × 2^q. -/
def encodeMag (s : FloatSpec) (n : Nat) (q : Int) : Nat :=
  if n = 0 then 0
  else
    let l := (Nat.log2 n : Int) + q
    let u := if l < 1 - s.bias then 1 - s.bias - s.M else l - s.M
    let k := if u ≤ q then n <<< (q - u).toNat else n >>> (u - q).toNat
    if l < 1 - s.bias then k
    else ((l + s.bias).toNat <<< s.M) + (k - 2 ^ s.M)

/-- Rounding into a floating format (R29): code of the magnitude, sign apart. Infinity in a format with infinity
is the code after the largest finite one. SR takes the spacing of the top binade above the largest finite value
(DEDUCED, log entry 7). -/
def roundMag (s : FloatSpec) (r : Rnd) (m : Nat) (e : Int) : Nat :=
  let top := encodeMag s s.maxM s.maxE
  if m = 0 then 0
  else
    let l := (Nat.log2 m : Int) + e
    let q := max (1 - s.bias - s.M) (l - s.M)
    let n := quantise r m e q
    if magLt s.maxM s.maxE n q then
      (if s.hasInf then (match r with | .rtz => top | _ => top + 1) else top)
    else encodeMag s n q

/-- Total bits of a floating layout. -/
def signBit (w : Nat) (neg : Bool) : Nat := if neg then 2 ^ (w - 1) else 0

/-- Rounding into a floating code of `w` bits with NaN code `nanCode` (R29). -/
def roundFloat (s : FloatSpec) (w nanCode : Nat) (r : Rnd) (x : Num) : Nat := match x with
  | .nan => nanCode
  | .inf n => signBit w n + (encodeMag s s.maxM s.maxE + if s.hasInf then 1 else 0)
  | .fin n m e => signBit w n + roundMag s r m e

/-- Rounding to an integer of `w` bits with saturation; NaN gives 0 (R29). -/
def roundIntSat (w : Nat) (r : Rnd) (x : Num) : Int :=
  let hi : Int := 2 ^ (w - 1) - 1
  let lo : Int := -(2 ^ (w - 1))
  match x with
  | .nan => 0
  | .inf n => if n then lo else hi
  | .fin n m e =>
    let q : Int := (quantise r m e 0 : Nat)
    let v := if n then -q else q
    max lo (min hi v)

/-- Rounds `x`, already divided by 2^t of its target, to the target's element code (R29). A NaN element of F4 or I4
gives code 0: its block takes scale code 0xFF (R22). -/
def roundTo (f : Fmt) (r : Rnd) (x : Num) : Nat := match f with
  | .f4 => roundFloat specF4 4 0 r x
  | .i4 => (BitVec.ofInt 4 (roundIntSat 4 r x)).toNat
  | .f8a => roundFloat specF8a 8 0x7F r x
  | .f8g => roundFloat specF8g 8 0x7F r x
  | .i8 => (BitVec.ofInt 8 (roundIntSat 8 r x)).toNat
  | .f16 => roundFloat specF16 16 0x7FC0 r x
  | .b32 => roundFloat specB32 32 0x7FC00000 r x
  | .i32 => (BitVec.ofInt 32 (roundIntSat 32 r x)).toNat
  | .i64 => (BitVec.ofInt 64 (roundIntSat 64 r x)).toNat

/-- Decodes a floating code of `E` exponent bits with no infinity but the codes named NaN (R18, R24 to R26). -/
def decodeFloat (s : FloatSpec) (ebits : Nat) (c : Nat) : Num :=
  let neg := c.testBit (s.M + ebits)
  let e := (c >>> s.M) % 2 ^ ebits
  let m := c % 2 ^ s.M
  if s.hasInf && e == 2 ^ ebits - 1 then (if m = 0 then .inf neg else .nan)
  else if e = 0 then .fin neg m (1 - s.bias - s.M)
  else .fin neg (2 ^ s.M + m) ((e : Int) - s.bias - s.M)

/-- The exact value of an element code before any scale (R18 to R26). -/
def decodeElem (f : Fmt) (c : Nat) : Num := match f with
  | .f4 => decodeFloat specF4 2 c
  | .i4 => Num.ofInt (BitVec.ofNat 4 c).toInt
  | .f8a => if c % 128 = 127 then .nan else decodeFloat specF8a 4 c
  | .f8g => if c % 128 = 127 then .nan else decodeFloat specF8g 5 c
  | .i8 => Num.ofInt (BitVec.ofNat 8 c).toInt
  | .f16 => decodeFloat specF16 8 c
  | .b32 => decodeFloat specB32 8 c
  | .i32 => Num.ofInt (BitVec.ofNat 32 c).toInt
  | .i64 => Num.ofInt (BitVec.ofNat 64 c).toInt

/-- An F4 or I4 element under its block's scale code (R21, R22). -/
def decodeBlockElem (f : Fmt) (scale c : Nat) : Num :=
  if scale = 0xFF then .nan else (decodeElem f c).scale2 ((scale : Int) - 127)

/-- binary32 code of a value, rounded to nearest. -/
def Num.toB32 (x : Num) : BitVec 32 := BitVec.ofNat 32 (roundTo .b32 .rne x)

/-- The value of a binary32 code. -/
def ofB32 (c : BitVec 32) : Num := decodeElem .b32 c.toNat

/-- A magnitude as binary32 rounded upward (R38): past the largest finite value it is infinity. -/
def b32Up (x : Num) : BitVec 32 := match x with
  | .nan => 0x7FC00000#32
  | .inf _ => 0x7F800000#32
  | .fin _ m e =>
    let c := roundMag specB32 .rtz m e
    if (decodeElem .b32 c).absLt x then BitVec.ofNat 32 (c + 1) else BitVec.ofNat 32 c

/-- floor(|x| × 2^−q) with the sign of x: conversion by truncation toward zero to a multiple of 2^q (R43, R45). -/
def truncScaled (x : Num) (q : Int) : Int := match x with
  | .fin n m e => let v : Int := (quantise .rtz m e q : Nat); if n then -v else v
  | _ => 0

/-- The tracker code max(0, 127 + t) of R30. -/
def trackerCode (t : Int) : Nat := (max 0 (127 + t)).toNat

/-- Largest element magnitude of a block format: 6 for F4, 7 for I4 (R30). -/
def blockTop : Fmt → Nat | .f4 => 6 | _ => 7

/-- The smallest code k with top × 2^(k − 127) ≥ amax, before the clamps of R30. -/
def blockCodeFor (top m : Nat) (e : Int) : Int :=
  let k0 : Int := (Nat.log2 m : Int) + e - (Nat.log2 top : Int)
  if magLt top k0 m e then k0 + 1 + 127 else k0 + 127

/-- Scale code of one block under BLOCK policy (R30, R31); `floor` is TRK_CTRL.F4_FLOOR. -/
def blockScaleCode (f : Fmt) (t : Int) (floor : Nat) (xs : List Num) : Nat :=
  if xs.any Num.isNan then 0xFF
  else if xs.any (fun x => match x with | .inf _ => true | _ => false) then 254
  else
    let amax := xs.foldl (fun a x => if a.absLt x then x.abs else a) Num.zero
    match amax with
    | .fin _ m e =>
      if m = 0 then trackerCode t
      else
        let k := blockCodeFor (blockTop f) m e
        (min 254 (max 0 (max (127 + t - floor) k))).toNat
    | _ => 254

/-- mix of R34. -/
def mix64 (x : BitVec 64) : BitVec 64 :=
  let x := x ^^^ (x >>> 31)
  let x := x * 0xA7C139E54D286F1B#64
  let x := x ^^^ (x >>> 29)
  let x := x * 0x6B3F92D4E1850C57#64
  x ^^^ (x >>> 32)

/-- sr_draw of R34. -/
def srDraw (seed : BitVec 64) (handle index : Nat) (step : BitVec 32) : BitVec 32 :=
  let w0 : BitVec 64 := (BitVec.ofNat 64 handle <<< 40) ||| BitVec.ofNat 64 (index % 2 ^ 40)
  let h := mix64 (seed ^^^ w0)
  let h := mix64 (h ^^^ step.setWidth 64)
  (h >>> 32).setWidth 32

/-- Rounding mode of a 2-bit code; code 3 is reserved (R17). -/
def rndOf (code : Nat) (draw : BitVec 32) : Rnd := match code with
  | 0 => .rne
  | 1 => .rtz
  | _ => .sr draw

/-- pass_scale of R39 on a history of binary32 codes, newest first. -/
def passScale (hist : List (BitVec 32)) (margin : Nat) (cap tInit tNow : Int) : Int :=
  match hist with
  | [] => tInit
  | _ =>
    let m := hist.foldl (fun a c => if a.lt (ofB32 c) then ofB32 c else a) Num.zero
    if m.isZero then tNow else max (-128) (min 127 (m.ceilLog2 + margin - cap))

/-- m_exp of a history with a nonzero entry; −149 while every entry is zero; `tInit` while it is empty (R39). -/
def histBound (hist : List (BitVec 32)) (margin : Nat) (tInit : Int) : Int :=
  match hist with
  | [] => tInit
  | _ =>
    let m := hist.foldl (fun a c => if a.lt (ofB32 c) then ofB32 c else a) Num.zero
    if m.isZero then -149 else m.ceilLog2 + margin

/-- The accumulator of an order-free sum: its integer and the NaN and infinity flags beside it (R42, R51). -/
structure Acc where
  n    : Int
  nan  : Bool
  pinf : Bool
  ninf : Bool
  deriving DecidableEq, Repr, Inhabited

def Acc.zero : Acc := ⟨0, false, false, false⟩

/-- A term enters as an integer of 2^q, truncated toward zero, or as a flag (R43, R51). -/
def Acc.addTerm (a : Acc) (q : Int) (x : Num) : Acc := match x with
  | .nan => ⟨a.n, true, a.pinf, a.ninf⟩
  | .inf true => ⟨a.n, a.nan, a.pinf, true⟩
  | .inf false => ⟨a.n, a.nan, true, a.ninf⟩
  | .fin _ _ _ => ⟨a.n + truncScaled x q, a.nan, a.pinf, a.ninf⟩

/-- Two partials of one sum add exactly, flags joined (R42, R50, R51). -/
def Acc.add (a b : Acc) : Acc := ⟨a.n + b.n, a.nan || b.nan, a.pinf || b.pinf, a.ninf || b.ninf⟩

/-- 2^63 − 2: the saturation bound of a raw partial (R47, R50). -/
def rawTop : Int := 2 ^ 63 - 2

/-- Saturation to ±(2^63 − 2), and whether it happened (R47). -/
def Acc.sat (a : Acc) : Acc × Bool :=
  let v := max (-rawTop) (min rawTop a.n)
  (⟨v, a.nan, a.pinf, a.ninf⟩, v != a.n)

/-- The value of a total whose least significant bit is 2^q; the flags come first (R49, R51). -/
def Acc.value (a : Acc) (q : Int) : Num :=
  if a.nan || (a.pinf && a.ninf) then .nan
  else if a.pinf then .inf false
  else if a.ninf then .inf true
  else .fin (decide (a.n < 0)) a.n.natAbs q

/-- The raw I64 word of a partial with the three reserved codes of R50. -/
def Acc.toRaw (a : Acc) : BitVec 64 := match a.value 0 with
  | .nan => 0x8000000000000000#64
  | .inf false => 0x7FFFFFFFFFFFFFFF#64
  | .inf true => 0x8000000000000001#64
  | .fin _ _ _ => BitVec.ofInt 64 (max (-rawTop) (min rawTop a.n))

/-- A raw I64 word as a partial (R50). -/
def Acc.ofRaw (w : BitVec 64) : Acc :=
  if w = 0x8000000000000000#64 then ⟨0, true, false, false⟩
  else if w = 0x7FFFFFFFFFFFFFFF#64 then ⟨0, false, true, false⟩
  else if w = 0x8000000000000001#64 then ⟨0, false, false, true⟩
  else ⟨w.toInt, false, false, false⟩

end Sys2Proof.Machine
end

