-- ==== Sys2Proof/Machine/State.lean ====
section
/-! DEFINITION. The state of the core, as plain data: registers by offset, tables by key, queues as lists. INVENTORY.md
lists every piece with its rule and reset value. -/

namespace Sys2Proof.Machine

/-- A cue: 128 bytes (R272). -/
abbrev Cue := BitVec 1024

/-- Why a step stops with a fault. No rule of the spec stops the core: every cue fault halts a line (R318) and every
refused access answers an error (R461), so no command answers this. -/
inductive Fault where
  /-- Raised by nothing; safe. -/
  | unused
  deriving DecidableEq, Repr, Inhabited

/-- Why a step refuses. -/
inductive Refusal where
  /-- A command without a meaning; safe. -/
  | notModelled (mnemonic : String)
  deriving DecidableEq, Repr, Inhabited

/-- Where the core stands between power and dispatch (R453, R455, R465, R488, R489, R495). -/
inductive Phase where
  | off | powerOnReset | keyWait | bringUp | blockReset | up
  deriving DecidableEq, Repr, Inhabited

/-- One value per cue line (R271). -/
structure PerLine (α : Type) where
  f : α
  b : α
  u : α
  m : α
  deriving DecidableEq, Repr, Inhabited

/-- Boundary levels and the wrapper (R451, R452, R465, R467). -/
structure Pins where
  pwrOk    : Bool
  blkRstN  : Bool
  keyAck   : Bool
  irqN     : Bool
  tabOut   : Bool
  wsInstr  : BitVec 4
  wsReg    : BitVec 64
  deriving DecidableEq, Repr, Inhabited

/-- The key and the proof being written (R465, R466, R485). -/
structure Secret where
  key     : BitVec 256
  latched : Bool
  /-- `key_req` seen high before the key wait began, with its data. -/
  waiting : Option (BitVec 256)
  nonce   : BitVec 256
  nonceOk : Bool
  proof   : BitVec 256
  /-- the check in progress: the proof matches, and the host id it names (R485) -/
  good    : Bool
  checkId : BitVec 32
  deriving DecidableEq, Repr, Inhabited

/-- One open loop level (R297, R298): ring positions, or store units inside a routine. -/
structure LoopLevel where
  beginPos : BitVec 32
  endPos   : BitVec 32
  count    : BitVec 32
  idx      : BitVec 32
  deriving DecidableEq, Repr, Inhabited

/-- A routine in progress (R308): its first unit of the store, its length, the next cue, its arguments, the caller's
loop stack and the uid of the `CALL_ROUTINE`. -/
structure Routine where
  start : Nat
  cues  : Nat
  pos   : Nat
  args  : List (BitVec 32)
  saved : List LoopLevel
  savedSkip : Option (BitVec 32)
  uid   : Nat
  deriving DecidableEq, Repr, Inhabited

/-- A cue taken from a line (R292): as stepped, with number, epoch, step number and place. -/
structure QCue where
  uid   : Nat
  line  : Line
  cue   : Cue
  num   : BitVec 48
  epoch : BitVec 16
  step  : BitVec 32
  /-- 0 ring, 1 repertoire store, 2 split list (R318). -/
  src   : Nat
  addr  : BitVec 32
  /-- what its source handle gives an alignment, taken when it issues (R41): t, and t and F16 bound of a stream
  destination (R40) -/
  st    : Int
  ft    : Int
  fb    : Int
  deriving DecidableEq, Repr, Inhabited

/-- How far a dispatched cue has come. -/
inductive Stage where
  /-- waits in its queue or queues -/
  | queued
  /-- an engine has started it -/
  | started
  /-- its engine's completion rule holds; CUE_COMPLETE makes the posts -/
  | finished
  deriving DecidableEq, Repr, Inhabited

/-- A cue dispatched and not yet completed. -/
structure Flight where
  q       : QCue
  stage   : Stage
  /-- units of the cue's gang or mask that have still to finish -/
  units   : Nat
  /-- posts suppressed by a line reset (R325) or an engine halt (R319) -/
  silent  : Bool
  /-- the `CALL_ROUTINE` it runs under -/
  parent  : Option Nat
  /-- the split fetcher that dispatched it -/
  fetcher : Option Nat
  /-- a halt its line takes once the cue has completed: reason and engine (R250, R426, R427) -/
  after   : Option (BitVec 8 × BitVec 8)
  deriving DecidableEq, Repr, Inhabited

/-- A cue line's own state; its registers lie in the register file (R271, R280 to R284, R297, R308, R316 to R320). -/
structure LineSt where
  enabled   : Bool
  halted    : Bool
  resetting : Bool
  more      : Bool
  head      : BitVec 32
  tail      : BitVec 32
  asmData   : Cue
  asmMask   : BitVec 128
  held      : Option (Cue)
  loops     : List LoopLevel
  /-- the position where R299 expects the `LOOP_END` of a `LOOP_BEGIN` that opened no level -/
  skipEnd   : Option (BitVec 32)
  routine   : Option Routine
  count     : BitVec 48
  epoch     : BitVec 16
  /-- the head cue, once it has passed steps 1 to 9 of R287 -/
  taken     : Option (Cue)
  /-- the halt was in front of the head cue, which RESUME takes again (R319) -/
  atPrompter : Bool
  /-- the count break and the tag break that have halted the head cue do not fire on it again (R319) -/
  countSpent : Bool
  tagSpent   : Bool
  /-- a resume with SKIP: the head cue is discarded in the line's next turn (R291, R319) -/
  skip       : Bool
  /-- writes of LINE_RING that wait for the property cue in progress (R279) -/
  ringAt     : List Word
  deriving DecidableEq, Repr, Inhabited

/-- A split fetcher (R313); PTR, LIM and CTL lie in the register file. -/
structure Fetcher where
  loops     : List LoopLevel
  skipEnd   : Option (BitVec 32)
  count     : BitVec 48
  epoch     : BitVec 16
  step      : BitVec 32
  taken     : Option (Cue)
  atFetcher : Bool
  breakSpent : Bool
  deriving DecidableEq, Repr, Inhabited

/-- What a root's release carries (R348): masks and the listed values in index order. -/
structure Align where
  maskCall : BitVec 64
  maskCc   : BitVec 16
  values   : List (BitVec 32)
  deriving DecidableEq, Repr, Inhabited

/-- Tree state of one curtain counter (R343 to R347). -/
structure CcTree where
  seq     : BitVec 8
  pending : Bool
  cue     : Option Nat
  loc     : Bool
  sent    : Bool
  kids    : List (BitVec 12)
  early   : List (BitVec 12)
  align   : Option Align
  deriving DecidableEq, Repr, Inhabited

/-- Callboard memory (R328, R343). -/
structure Callboard where
  counts : NMap (BitVec 20)
  trees  : NMap CcTree
  deriving DecidableEq, Repr, Inhabited

/-- A scale tracker (R37 to R39, R52). -/
structure Tracker where
  t      : BitVec 8
  fmt    : BitVec 4
  hist   : List (BitVec 32)
  isOpen : Bool
  initT  : BitVec 8
  passes : BitVec 32
  runmax : BitVec 32
  bound  : Option Nat
  deriving DecidableEq, Repr, Inhabited

/-- A write acknowledged and not landed (before R334): bytes inside one 64-byte word. -/
structure PendWrite where
  uid    : Nat
  engine : Nat
  addr   : Nat
  bytes  : List Byte
  poison : Bool
  deriving DecidableEq, Repr, Inhabited

/-- Local memory (R227 to R237): bytes, errors of stored words, acknowledged writes, corrected words waiting for
write-back, watch list (oldest first), scrub rows and the scrub periods that have ended. -/
structure Mem where
  epoch  : Nat
  cells  : List Host.Cell
  flaws  : NMap (List (Nat × Byte))
  wq     : List PendWrite
  corr   : List (Nat × Bool)
  watch  : List (Nat × Nat)
  scrub  : NMap Nat
  period : Nat
  /-- RETIRED frames, which the start-up clear has skipped (R262) -/
  dark   : List Nat
  deriving DecidableEq, Repr, Inhabited

/-- A handle entry (R240). -/
structure Handle where
  owned   : Bool
  home    : Bool
  fixed   : Bool
  locked  : Bool
  fmt     : Nat
  staticT : BitVec 8
  trk     : Nat
  trkEn   : Bool
  mrole   : Nat
  placed  : Bool
  first   : Nat
  pages   : Nat
  elems   : Nat
  partner : Nat
  mrows   : Nat
  mcols   : Nat
  bsPage  : Nat
  deriving DecidableEq, Repr, Inhabited

/-- States of a page descriptor (R241). -/
inductive PageState where
  | free | owned | backstage | locked | retired
  deriving DecidableEq, Repr, Inhabited

/-- A page descriptor (R241). -/
structure Page where
  state    : PageState
  dirty    : Bool
  touched  : Bool
  fresh    : Bool
  retPend  : Bool
  poisoned : Bool
  moving   : Bool
  handle   : Nat
  frame    : Nat
  page     : Nat
  bsPage   : Nat
  deriving DecidableEq, Repr, Inhabited

/-- A page-in under way (R252): words that have still to come. -/
structure PageIn where
  desc  : Nat
  frame : Nat
  left  : Nat
  err   : Bool
  deriving DecidableEq, Repr, Inhabited

/-- A write-back under way (R254, R263): words that have still to be acknowledged. -/
structure WriteBack where
  desc    : Nat
  frame   : Nat
  left    : Nat
  err     : Bool
  pageOut : Bool
  deriving DecidableEq, Repr, Inhabited

/-- A retirement move under way (R261). -/
structure Move where
  desc : Nat
  src  : Nat
  dst  : Nat
  deriving DecidableEq, Repr, Inhabited

/-- The property table (R240 to R266). -/
structure PropTable where
  handles : NMap Handle
  pages   : NMap Page
  /-- frames marked for retirement (R261 step 1) -/
  marked  : List Nat
  /-- descriptors with a demand page-in not yet started, oldest first -/
  demand  : List Nat
  hints   : List Nat
  ins     : List PageIn
  outs    : List WriteBack
  moves   : List Move
  hand    : Nat
  starve  : Bool
  /-- pages of the cue in progress already handled -/
  cursor  : Nat
  busy    : Bool
  deriving DecidableEq, Repr, Inhabited

/-- What a backstage request serves. -/
inductive BsUse where
  | pageIn (desc word : Nat)
  | writeBack (desc word : Nat)
  /-- a read of a transfer: walk position, part (0 codes, 1 block scale), bytes of the word -/
  | flyRead (uid pos part off len : Nat)
  /-- a partial word of a transfer: the bytes to lay over what the word holds -/
  | flyMerge (uid : Nat) (bytes : List (Nat × Byte))
  | flyWrite (uid : Nat)
  deriving DecidableEq, Repr, Inhabited

/-- A backstage request (R463): channel address [7:6]. -/
structure BsReq where
  use  : BsUse
  we   : Bool
  addr : BitVec 48
  data : BitVec 512
  deriving DecidableEq, Repr, Inhabited

/-- The backstage port: requests not yet issued, and those outstanding with channel and tag. -/
structure Backstage where
  todo : List BsReq
  out  : List (Nat × Nat × BsReq)
  deriving DecidableEq, Repr, Inhabited

/-- The last capture and the TAB_ state that no register holds (R515 to R517). -/
structure Tableau where
  image : NMap Word
  deriving DecidableEq, Repr, Inhabited

/-- States of a link port (FAB_PORT_STATUS.STATE). -/
inductive PortState where
  | disabled | training | up | down | dupId | peerMismatch | resetting | peerHeld
  deriving DecidableEq, Repr, Inhabited

/-- States of a physical channel (FAB_CH_STATUS.STATE). -/
inductive ChanState where
  | live | retraining | retired | idle
  deriving DecidableEq, Repr, Inhabited

/-- A link port (R443, R444): state, peer id from HELLO, own verdict sent (true holds), verdict received, and whether
its bring-up failures have been recorded already (a DOWN port's retries leave no record). -/
structure PortSt where
  state  : PortState
  peer   : BitVec 12
  own    : Option Bool
  heard  : Option Bool
  retry  : Bool
  deriving DecidableEq, Repr, Inhabited

/-- A physical channel of a port (R428 to R434). -/
structure ChanSt where
  state   : ChanState
  req     : Bool
  ready   : Bool
  /-- LSEQ of the next flit sent, and of the last flit accepted -/
  tx      : BitVec 10
  rx      : BitVec 10
  /-- flits sent and not acknowledged, oldest first -/
  replay  : List (BitVec 512)
  /-- credits held, by lane × 2 + VC -/
  credits : List Nat
  /-- ticks of the replays counted in the window of R433, oldest first -/
  win     : List (BitVec 64)
  /-- the channel retired and its handover has not been answered: the classes it carried -/
  handing : List Nat
  deriving DecidableEq, Repr, Inhabited

/-- A packet that has reached the local port: operation code, class, source, payload bytes, and the channel that is owed
the credits of its flits (port × 4 + channel, lane × 2 + VC of each flit). -/
structure Packet where
  opc   : Nat
  ch    : Nat
  src   : BitVec 12
  data  : List Byte
  owed  : List (Nat × Nat)
  deriving DecidableEq, Repr, Inhabited

/-- A remote WRITE, READ or POST without its answer yet (R335, R426). -/
inductive RKind where
  | write
  /-- walk position, part (0 codes, 1 block scale) and bytes -/
  | read (pos part count : Nat)
  | post
  deriving DecidableEq, Repr, Inhabited

structure RemoteOp where
  tag    : Nat
  dst    : BitVec 12
  kind   : RKind
  ch     : Nat
  /-- the cue it belongs to -/
  q      : QCue
  /-- a POST that still waits for earlier operations (R425): counter and delta -/
  waits  : Option (Nat × BitVec 12)
  deriving DecidableEq, Repr, Inhabited

/-- Link ports, channels (port × 4 + channel), flits waiting for a channel (port × 4 + class), routes (R438), packets
being put together by (source × 16 + class × 4 + lane), packets at the local port, and remote operations. -/
structure Fab where
  ports   : NMap PortSt
  chans   : NMap ChanSt
  waitq   : NMap (List (BitVec 512))
  routes  : NMap (BitVec 10)
  partials : NMap Packet
  localIn : List Packet
  rops    : List RemoteOp
  deriving DecidableEq, Repr, Inhabited

/-- An activation row in a feed buffer (R40, R201): format, scale exponent, F16 bound, element codes, block-scale codes
and the positions of poisoned elements. -/
structure FeedRow where
  fmt    : Nat
  t      : Int
  b      : Int
  codes  : List Nat
  scales : List Nat
  poison : List Nat
  deriving DecidableEq, Repr, Inhabited

/-- A weight tile (R202): `rows` elements per column, codes in walk order. -/
structure WTile where
  fmt    : Nat
  t      : Int
  b      : Int
  rows   : Nat
  codes  : List Nat
  scales : List Nat
  poison : List Nat
  deriving DecidableEq, Repr, Inhabited

/-- A half of the weight buffer, or a quarter under HALVES (R60). -/
inductive WHalf where
  | empty | filling (uid : Nat) | ready (tile : WTile)
  deriving DecidableEq, Repr, Inhabited

/-- Working weights, with the fields of the fill that loaded them (R67) and their fill parity (R64). -/
structure Working where
  tile   : WTile
  fmtW   : Nat
  kUsed  : Nat
  nUsed  : Nat
  parity : Bool
  deriving DecidableEq, Repr, Inhabited

/-- A shadow register set (R64): a preloaded tile and the parity of the fill it is for. -/
structure Shadow where
  tile   : WTile
  parity : Bool
  deriving DecidableEq, Repr, Inhabited

/-- Hold slots of an array or bank (R73 to R75): raw partials, row-major. -/
structure Hold where
  line : Line
  m    : Nat
  n    : Nat
  e    : Int
  vals : List (BitVec 64)
  deriving DecidableEq, Repr, Inhabited

/-- A tile (R124): its fill by issue number, array or bank counted from the fill's first, rows of binary32 codes or raw
words, and the poisoned elements by row and column (R133); how many rows have been taken, and the run that has claimed
it. -/
structure TqTile where
  line   : Line
  tag    : Nat
  uid    : Nat
  fill   : Nat
  arr    : Nat
  first  : Nat
  n      : Nat
  raw    : Bool
  e      : Int
  rows   : List (List (BitVec 64))
  poison : List (Nat × Nat)
  taken  : Nat
  begun  : Option Nat
  deriving DecidableEq, Repr, Inhabited

/-- What a run needs to know of a fill with outputs (R126, R127): the issue moment is the count of dispatches so far. -/
structure FillInfo where
  line   : Line
  tag    : Nat
  m      : Nat
  n      : Nat
  raw    : Bool
  arrays : Nat
  issued : Nat
  owner  : Option Nat
  deriving DecidableEq, Repr, Inhabited

/-- A fill that has issued and not drained its last output: its cue, its queue, the flat banks it uses, the parity of
its activation slices (R64), and whether it drains into hold slots alone. -/
structure Fill where
  uid    : Nat
  seq    : Nat
  side   : Nat
  banks  : List Nat
  parity : List Bool
  holds  : Bool
  deriving DecidableEq, Repr, Inhabited

/-- The array complex (R58 to R98). Feeds and holds go by array or bank (holds by first bank), weight halves by
2 × queue + half under HALVES, working weights by bank in APART and by queue otherwise. -/
structure Arr where
  mode    : Nat
  split   : Bool
  lineA   : Nat
  lineB   : Nat
  feeds   : NMap (List FeedRow)
  halves  : NMap WHalf
  /-- the half that fills next and the half that is used next, by queue -/
  fillAt  : NMap Nat
  useAt   : NMap Nat
  shadow  : NMap (NMap Shadow)
  working : NMap Working
  holds   : NMap Hold
  lastM   : NMap Nat
  fillSeq : Nat
  inFlight : List Fill
  /-- tiles at the drain edges that have no slot yet, oldest first -/
  drain   : List (Nat × TqTile)
  /-- tiles in slots, oldest first -/
  tq      : List (Nat × TqTile)
  fills   : NMap FillInfo
  awake   : List Nat
  /-- the ramp limiter's allowance, banks asleep since its last rise, and banks a held issue would wake (R509) -/
  allow   : Nat
  slept   : Nat
  want    : Nat
  deriving DecidableEq, Repr, Inhabited

/-- An element in a chorus FIFO port (R118): format code, scale exponent, code, poison. -/
structure PElem where
  fmt    : Nat
  t      : Int
  code   : Nat
  poison : Bool
  deriving DecidableEq, Repr, Inhabited

/-- A chorus output on its way to a fly engine (R129, R134): 0 binary32, 1 F16, 2 raw I64 with its E; a masked element
keeps its place and is not written (R123). -/
structure ChoElem where
  kind   : Nat
  bits   : BitVec 64
  e      : Int
  poison : Bool
  masked : Bool
  deriving DecidableEq, Repr, Inhabited

/-- A run or kernel in progress in one unit: rows taken, place among the claimed fills, slot of the claimed tile, the
FIFO elements it keeps for every row (by stream), those of a row drawn so far (by stream + 8), and its column accumulators. -/
structure URun where
  uid  : Nat
  j    : Nat
  q    : Nat
  arr  : Nat
  m    : Nat
  slot : Option Nat
  kept : NMap (List PElem)
  cols : List Acc
  deriving DecidableEq, Repr, Inhabited

/-- A chorus unit (R100, R110, R143): programs by slot, stage buffer, ports as (base, size), FIFO contents by port. -/
structure ChoUnit where
  progs : NMap (List (BitVec 64))
  stage : NMap Byte
  /-- stage-buffer bytes of poisoned elements (R133) -/
  spoilt : List Nat
  /-- 0, or 1 more than the moment a program of several trips last kept its lane state in the buffer (R112) -/
  trips : Nat
  ports : NMap (Nat × Nat)
  fifo  : NMap (List PElem)
  run   : Option URun
  /-- the halves of the row store in use, with the row each holds (R159) -/
  store : NMap (List (BitVec 32))
  deriving DecidableEq, Repr, Inhabited

/-- What the units of a gang share: fills claimed, oldest first, and column accumulators added so far (R126, R161). -/
structure GangRun where
  fills : List Nat
  cols  : List Acc
  deriving DecidableEq, Repr, Inhabited

/-- A transfer (R181, R195): its own copy of the walk and of what the handles resolved to; a mirrored destination keeps
its partner and the pair's two extents. -/
structure Xfer where
  uid    : Nat
  rank   : Nat
  ext    : List Nat
  sstr   : List Int
  dstr   : List Int
  sfmt   : Nat
  dfmt   : Nat
  total  : Nat
  mirror : Option (Nat × Nat × Nat)
  ordered : Bool
  /-- scale of the source, scale and F16 bound of the destination, fixed when it becomes active -/
  st     : Int
  dt     : Int
  db     : Int
  /-- elements written; source elements requested; those that have come, by walk position -/
  n      : Nat
  asked  : Nat
  inbox  : NMap (Nat × Bool)
  /-- indices read ahead of the walk, by walk position (R212); the bank word read last, plus 1, by stream: 0 indices,
  1 source codes, 2 source block scales, 3 the destination under ACC (R213) -/
  ixs    : NMap (Option Int × Bool)
  seen   : NMap Nat
  /-- credits granted and destination bytes sent (R199) -/
  granted : Nat
  sent   : Nat
  /-- the row or tile being built for a FEED or WEIGHT destination -/
  codes  : List Nat
  scales : List Nat
  poison : List Nat
  /-- the backstage word or the remote packet being put together: its address and the bytes so far -/
  word   : Option (Nat × List (Nat × Byte))
  /-- stalled on a page (R221), and the pages it is at (R253) -/
  stall  : Bool
  pages  : List Nat
  deriving DecidableEq, Repr, Inhabited

/-- A fly engine's two slots (R193, R194), and the transfers that have issued their last read and have still to write,
oldest first. -/
structure FlyEng where
  active : Option Xfer
  armed  : Option Xfer
  drain  : List Xfer
  deriving DecidableEq, Repr, Inhabited

/-- A capture trigger of the command in progress (R513): source code, trigger id, origin core. -/
structure Trigger where
  src    : Nat
  id     : BitVec 16
  origin : BitVec 12
  /-- the triggering `TABLEAU` cue carries SPREAD (R518, R521) -/
  spread : Bool
  deriving DecidableEq, Repr, Inhabited

/-- What the core counts ticks of until it lapses (R11): a remote WRITE or READ by tag; an exchange operation; a NOTICE,
RESEND or UNABLE; a backstage request by channel and tag; a channel's oldest unacknowledged flit; a channel's training; a
flash operation by phase and number; a held commit of a line; the key wait; the entry to Drowse. -/
inductive Timer where
  | remote (tag : Nat)
  | exchange (dst : BitVec 12) (ch : Nat) (seq : BitVec 32)
  | sync (dst : BitVec 12) (kind bucket : Nat) (gen : BitVec 16) (arg : BitVec 8)
  | backstage (ch tag : Nat)
  | replay (p c : Nat) (last : BitVec 10)
  | train (p c : Nat)
  | flash (phase op : Nat)
  | hold (line : Line)
  | key
  | drowse
  deriving DecidableEq, Repr, Inhabited

/-- What leaves the block, in order (R451, R459, R423, R429). -/
inductive Output where
  | hostRsp (data : Word) (err : Bool)
  | bsRequest (ch tag : Nat) (we : Bool) (addr : BitVec 48) (data : BitVec 512)
  | wrapper (bits : BitVec 64)
  | keyAck
  | flit (port chan : Nat) (bits : BitVec 512)
  | trainReq (port chan : Nat) (level : Bool)
  deriving DecidableEq, Repr, Inhabited

/-- The fields of an `EXCH_SEND` that form its contributions (R390). -/
structure ExSend where
  handle : Nat
  base   : Nat
  off    : Nat
  count  : Nat
  shift  : Int
  /-- t of the source handle when the cue issued (R41) -/
  t      : Int
  deriving DecidableEq, Repr, Inhabited

/-- What an exchange operation that takes a SEQ carries (R394, R395): a re-sent ACCUMULATE is formed again from its
source, or from the retain planes of a served repair (R407). -/
inductive ExBody where
  | acc (group : Nat) (x : ExSend)
  | retained (group : Nat)
  | close (count : Nat) (max : BitVec 32) (sum fail : BitVec 64)
  | skip (group : Nat)
  deriving DecidableEq, Repr, Inhabited

/-- An operation sent and not answered (R395). -/
structure ExOp where
  dst    : BitVec 12
  ch     : Nat
  seq    : BitVec 32
  bucket : Nat
  gen    : BitVec 16
  body   : ExBody
  /-- the cue it belongs to; none for a served repair -/
  uid    : Option Nat
  tries  : Nat
  deriving DecidableEq, Repr, Inhabited

/-- A NOTICE (kind 3), RESEND (4) or UNABLE (5) without its ACK (R393): `arg` is the shift or the attempt. -/
structure SyncOp where
  dst    : BitVec 12
  kind   : Nat
  bucket : Nat
  gen    : BitVec 16
  arg    : BitVec 8
  uid    : Option Nat
  tries  : Nat
  deriving DecidableEq, Repr, Inhabited

/-- The exchange cue in progress: groups sent, its CLOSE sent, and waiting for a repair (R389, R397, R406, R408). -/
structure ExRun where
  uid    : Nat
  next   : Nat
  closed : Bool
  repair : Bool
  deriving DecidableEq, Repr, Inhabited

/-- A RESEND being served (R407): groups sent so far. -/
structure ExServe where
  bucket : Nat
  next   : Nat
  deriving DecidableEq, Repr, Inhabited

/-- The exchange engine (R382 to R408): bucket entries of 128 bytes, next SEQ by destination × 4 + channel, LAST of the
VALID replay entries by source × 4 + channel. -/
structure Exch where
  buckets : NMap (BitVec 1024)
  nextSeq : NMap (BitVec 32)
  replay  : NMap (Option (BitVec 32))
  ops     : List ExOp
  syncs   : List SyncOp
  run     : Option ExRun
  serves  : List ExServe
  /-- GEN + 1 of what the retain planes of a bucket hold (R407) -/
  retGen  : NMap Nat
  /-- RESENDs acted on, by bucket: source, generation and attempt (R393, R407) -/
  acted   : NMap (List (Nat × Nat × Nat))
  deriving DecidableEq, Repr, Inhabited

/-- The SPI flash (R468 to R472): what SFDP reports, the quad-enable bit, and the bytes, 0xFF where not listed. -/
structure Flash where
  answers   : Bool
  sizeLog   : Nat
  pageLog   : Nat
  eraseLog  : Nat
  quad      : Bool
  qer       : Nat
  only4     : Bool
  qe        : Bool
  /-- a write of its status register does not take -/
  stuck     : Bool
  cells     : List Host.Cell
  deriving DecidableEq, Repr, Inhabited

/-- The prompt-book writer (R480 to R482); BUSY, PHASE, ERR and TARGET lie in PBK_WR_STATUS. -/
structure Writer where
  mode    : Nat
  waits   : List Nat
  image   : List Byte
  base    : Nat
  gen     : BitVec 32
  /-- flash operations done in the phase -/
  ops     : Nat
  deriving DecidableEq, Repr, Inhabited

/-- The whole state. -/
structure State where
  build    : Build
  phase    : Phase
  pins     : Pins
  secret   : Secret
  /-- CTL_TICK (R12) -/
  tick     : BitVec 64
  /-- the register file: word registers by window offset (R532) -/
  regs     : NMap Word
  /-- LO/HI latches by LO offset (R534) -/
  latches  : NMap Word
  lines    : PerLine LineSt
  fetchers : NMap Fetcher
  flights  : List Flight
  /-- engine queues: uids, oldest first, by engine id (0x02 is the array queue of half 1) -/
  queues   : NMap (List Nat)
  board    : Callboard
  trackers : NMap Tracker
  mem      : Mem
  prop     : PropTable
  bs       : Backstage
  fab      : Fab
  arr      : Arr
  cho      : NMap ChoUnit
  gangs    : NMap GangRun
  /-- chorus outputs by engine × 16 + output × 8 + unit -/
  lanes    : NMap (List ChoElem)
  fly      : NMap FlyEng
  exch     : Exch
  flash    : Flash
  writer   : Writer
  tab      : Tableau
  /-- the repertoire store: words, and the words that cannot be corrected (R311) -/
  rep      : NMap Word
  repBad   : List Nat
  outs     : List Output
  /-- ticks that whatever may lapse has been outstanding (R11) -/
  timers   : List (Timer × Nat)
  /-- MODEL'S OWN: capture triggers raised by the command in progress; empty between commands -/
  trig     : List Trigger
  /-- MODEL'S OWN: feeds the opaque constants of Config (log entry 6) -/
  freeCtr  : Nat
  nextUid  : Nat
  nextTag  : Nat
  pending  : List Instr
  deriving DecidableEq, Repr

/-! Reset (R53, R97, R98, R326, R357, R415, R501): every register at the value its table gives, which is what an empty
register file reads as; log entries 2, 3 and 4 name the values that no table gives. -/

/-- A cue line after power-on reset: not enabled, position 0 (R279, R316). -/
def LineSt.reset : LineSt :=
  ⟨false, false, false, false, 0, 0, 0, 0, none, [], none, none, 0, 0, none, false, false, false, false, []⟩

/-- The build: BV-512, two tiers, every optional unit, 256 KiB (R539's example; log entry 2). -/
def buildChoice : Build := ⟨.bv512, 2, true, true, true, 2⟩

/-- The array complex after reset (R97). -/
def Arr.reset : Arr :=
  ⟨1, false, 0, 1, [], [], [], [], [], [], [], [], 0, [], [], [], [], [], 0, 0, 0⟩

/-- An erased 16 MiB flash (log entry 4). -/
def Flash.reset : Flash := ⟨true, 24, 8, 16, true, 4, false, false, false, []⟩

/-- The core in power-on reset, `pwr_ok` high. -/
def State.reset : State where
  build := buildChoice
  phase := .powerOnReset
  pins := ⟨true, true, false, true, false, 0, 0⟩
  secret := ⟨0, false, none, 0, false, 0, false, 0⟩
  tick := 0
  regs := []
  latches := []
  lines := ⟨LineSt.reset, LineSt.reset, LineSt.reset, LineSt.reset⟩
  fetchers := []
  flights := []
  queues := []
  board := ⟨[], []⟩
  trackers := []
  mem := ⟨0, [], [], [], [], [], [], 0, []⟩
  prop := ⟨[], [], [], [], [], [], [], [], 0, false, 0, false⟩
  bs := ⟨[], []⟩
  fab := ⟨[], [], [], [], [], [], []⟩
  arr := Arr.reset
  cho := []
  gangs := []
  lanes := []
  fly := []
  exch := ⟨[], [], [], [], [], none, [], [], []⟩
  flash := Flash.reset
  writer := ⟨0, [], [], 0, 0, 0⟩
  tab := ⟨[]⟩
  rep := []
  repBad := []
  outs := []
  timers := []
  trig := []
  freeCtr := 0
  nextUid := 0
  nextTag := 0
  pending := []

end Sys2Proof.Machine
end

