-- ==== Sys2Proof/Machine/Access.lean ====
section
/-! DEFINITION. Named access to the state: the register file, the lines, the figures of the build. -/

namespace Sys2Proof

/-! Figures of the configuration (R4, R227, R538). -/

/-- Chorus units. -/
def Build.units (b : Build) : Nat := match b.chip with | .bv128 => 2 | .bv256 => 4 | .bv512 => 8

/-- Fly engines. -/
def Build.flies (b : Build) : Nat := match b.chip with | .bv128 => 4 | .bv256 => 8 | .bv512 => 16

/-- Link ports. -/
def Build.ports (b : Build) : Nat := match b.chip with | .bv128 => 4 | .bv256 => 8 | .bv512 => 16

/-- Flat banks. -/
def Build.flatBanks (b : Build) : Nat := match b.chip with | .bv128 => 8 | .bv256 => 16 | .bv512 => 32

/-- Memory controllers. -/
def Build.mcs (b : Build) : Nat := match b.chip with | .bv128 => 8 | .bv256 => 16 | .bv512 => 32

/-- log2 of the bank count (R228). -/
def Build.bankLog (b : Build) : Nat := match b.chip with | .bv128 => 9 | .bv256 => 10 | .bv512 => 11

/-- Installed frames (R227). -/
def Build.frames (b : Build) : Nat := match b.chip with
  | .bv128 => 2048
  | .bv256 => if b.tiers = 0 then 4096 else 32768
  | .bv512 => if b.tiers = 0 then 8192 else if b.tiers = 1 then 36864 else 65536

/-- Bytes of the repertoire store (R305, R538). -/
def Build.repBytes (b : Build) : Nat := match b.repSize with | 1 => 65536 | 2 => 262144 | _ => 0

/-- CTL_IDENT.CONFIG (R537). -/
def Build.configCode (b : Build) : Nat := match b.chip with | .bv128 => 1 | .bv256 => 2 | .bv512 => 3

/-- Line numbers of R271. -/
def Line.idx : Line → Nat | .f => 0 | .b => 1 | .u => 2 | .m => 3

def Line.ofIdx : Nat → Line | 0 => .f | 1 => .b | 2 => .u | _ => .m

end Sys2Proof

namespace Sys2Proof.Machine


/-- Reset value of a word of the register file. -/
def regReset (b : Build) (off : Nat) : Word :=
  if off = R.pwrLimit then
    0x00280000#32 ||| (match b.chip with | .bv128 => 800#32 | .bv256 => 1560#32 | .bv512 => 3000#32)
  else regResetFixed off

/-- A word of the register file. -/
def State.reg (s : State) (off : Nat) : Word := NMap.get (regReset s.build off) s.regs off

/-- The register file with one word replaced. -/
def State.setReg (s : State) (off : Nat) (v : Word) : State :=
  { s with regs := NMap.set (regReset s.build off) s.regs off v }

/-- Field [lo + w − 1 : lo] of a register. -/
def State.regF (s : State) (off lo w : Nat) : Nat := fieldN (s.reg off) lo w

/-- One bit of a register. -/
def State.regB (s : State) (off i : Nat) : Bool := bit (s.reg off) i

/-- A field of a register replaced. -/
def State.setF (s : State) (off lo w v : Nat) : State :=
  let mask : Word := BitVec.ofNat 32 ((2 ^ w - 1) <<< lo)
  s.setReg off ((s.reg off &&& ~~~mask) ||| (BitVec.ofNat 32 ((v % 2 ^ w) <<< lo)))

/-- A bit of a register replaced. -/
def State.setB (s : State) (off i : Nat) (b : Bool) : State := s.setF off i 1 (if b then 1 else 0)

/-- A count that saturates at 0xFFFF_FFFF (RC registers). -/
def State.count (s : State) (off n : Nat) : State := s.setReg off (satAdd (s.reg off) n)

/-- A count modulo 2^32. -/
def State.countMod (s : State) (off n : Nat) : State := s.setReg off (s.reg off + BitVec.ofNat 32 n)

/-- A 64-bit count held as LO and HI words. -/
def State.count64 (s : State) (lo hi n : Nat) : State :=
  let v := (s.reg lo).toNat + 2 ^ 32 * (s.reg hi).toNat + n
  (s.setReg lo (BitVec.ofNat 32 v)).setReg hi (BitVec.ofNat 32 (v / 2 ^ 32))

/-- The four lines in order. -/
def allLines : List Line := [.f, .b, .u, .m]

def PerLine.get {α : Type} (p : PerLine α) : Line → α | .f => p.f | .b => p.b | .u => p.u | .m => p.m

def PerLine.set {α : Type} (p : PerLine α) (l : Line) (v : α) : PerLine α := match l with
  | .f => { p with f := v }
  | .b => { p with b := v }
  | .u => { p with u := v }
  | .m => { p with m := v }

/-- State of one line. -/
def State.line (s : State) (l : Line) : LineSt := s.lines.get l

def State.setLine (s : State) (l : Line) (v : LineSt) : State := { s with lines := s.lines.set l v }

/-- A fresh fetcher (R313). -/
def Fetcher.init : Fetcher := ⟨[], none, 0, 0, 0, none, false, false⟩

def State.fetcher (s : State) (e : Nat) : Fetcher := NMap.get Fetcher.init s.fetchers e

def State.setFetcher (s : State) (e : Nat) (v : Fetcher) : State :=
  { s with fetchers := NMap.set Fetcher.init s.fetchers e v }

/-- The queue of an engine id. -/
def State.queue (s : State) (e : Nat) : List Nat := NMap.get [] s.queues e

def State.setQueue (s : State) (e : Nat) (q : List Nat) : State := { s with queues := NMap.set [] s.queues e q }

/-- Uid and line of the cue a remote operation belongs to. -/
def RemoteOp.uid (r : RemoteOp) : Nat := r.q.uid

def RemoteOp.line (r : RemoteOp) : Line := r.q.line

/-- A cue in flight, by uid. -/
def State.flight (s : State) (uid : Nat) : Option Flight := s.flights.find? (·.q.uid == uid)

/-- Update of a cue in flight. -/
def State.updFlight (s : State) (uid : Nat) (f : Flight → Flight) : State :=
  { s with flights := s.flights.map fun x => if x.q.uid = uid then f x else x }

/-- Empty tree (R357). -/
def CcTree.init : CcTree := ⟨0, false, none, false, false, [], [], none⟩

def State.tree (s : State) (k : Nat) : CcTree := NMap.get CcTree.init s.board.trees k

def State.setTree (s : State) (k : Nat) (t : CcTree) : State :=
  { s with board := { s.board with trees := NMap.set CcTree.init s.board.trees k t } }

/-- Count of counter `i`: 0 to 63 call counters, 64 to 79 curtain counters (R328). -/
def State.cnt (s : State) (i : Nat) : BitVec 20 := NMap.get 0 s.board.counts i

def State.setCnt (s : State) (i : Nat) (v : BitVec 20) : State :=
  { s with board := { s.board with counts := NMap.set 0 s.board.counts i v } }

/-- A tracker after reset (R53). -/
def Tracker.init : Tracker := ⟨0, 0, [], false, 0, 0, 0, none⟩

def State.tracker (s : State) (i : Nat) : Tracker := NMap.get Tracker.init s.trackers i

def State.setTracker (s : State) (i : Nat) (t : Tracker) : State :=
  { s with trackers := NMap.set Tracker.init s.trackers i t }

/-- A handle that is not owned. -/
def Handle.none : Handle := ⟨false, false, false, false, 0, 0, 0, false, 0, false, 0, 0, 0, 0, 0, 0, 0⟩

def State.handle (s : State) (h : Nat) : Handle := NMap.get Handle.none s.prop.handles h

def State.setHandle (s : State) (h : Nat) (v : Handle) : State :=
  { s with prop := { s.prop with handles := NMap.set Handle.none s.prop.handles h v } }

/-- A FREE descriptor. -/
def Page.free : Page := ⟨.free, false, false, false, false, false, false, 0, 0, 0, 0⟩

def State.page (s : State) (d : Nat) : Page := NMap.get Page.free s.prop.pages d

def State.setPage (s : State) (d : Nat) (v : Page) : State :=
  { s with prop := { s.prop with pages := NMap.set Page.free s.prop.pages d v } }

def State.updPage (s : State) (d : Nat) (f : Page → Page) : State := s.setPage d (f (s.page d))

/-- An output appended. -/
def State.emit (s : State) (o : Output) : State := { s with outs := s.outs ++ [o] }

/-- The next value of the model's free counter. -/
def State.fresh (s : State) : Nat × State := (s.freeCtr, { s with freeCtr := s.freeCtr + 1 })

/-- A word of the repertoire store cannot be corrected (R311). -/
def State.repRotten (s : State) (off : Nat) : Bool := s.repBad.contains (off / 4)

/-- A word of the repertoire store; one that cannot be corrected reads as all ones (R311). -/
def State.repWord (s : State) (off : Nat) : Word :=
  if s.repRotten off then 0xFFFFFFFF#32 else NMap.get 0 s.rep (off / 4)

end Sys2Proof.Machine
end

