-- ==== Sys2Proof/Machine/Operands.lean ====
section
/-! DEFINITION. The fields of a cue (R272 to R274, R302, R322, R350 and the bodies of the engine chapters). -/

namespace Sys2Proof.Machine

/-- `w` bits of a cue from bit `bit` of byte `byte`. -/
def cueF (c : Cue) (byte bit w : Nat) : Nat := fieldN c (8 * byte + bit) w

/-- A flag of a cue. -/
def cueB (c : Cue) (byte bit : Nat) : Bool := c.getLsbD (8 * byte + bit)

/-- The header fields of R272 and the flags of R273. -/
def Cue.version (c : Cue) : Nat := cueF c 0 0 8
def Cue.fence (c : Cue) : Bool := cueB c 0 8
def Cue.layer (c : Cue) : Bool := cueB c 0 9
def Cue.tabFlag (c : Cue) : Bool := cueB c 0 10
def Cue.brkFlag (c : Cue) : Bool := cueB c 0 11
def Cue.engine (c : Cue) : Nat := cueF c 0 18 6
def Cue.opcode (c : Cue) : Nat := cueF c 0 24 8
def Cue.tag (c : Cue) : BitVec 32 := BitVec.ofNat 32 (cueF c 4 0 32)

/-- A wait or post word (R274). -/
def Cue.waitWord (c : Cue) (i : Nat) : BitVec 32 := BitVec.ofNat 32 (cueF c (8 + 4 * i) 0 32)
def Cue.postWord (c : Cue) (i : Nat) : BitVec 32 := BitVec.ofNat 32 (cueF c (24 + 4 * i) 0 32)

def wordValid (w : BitVec 32) : Bool := bit w 0
def wordIndex (w : BitVec 32) : Nat := fieldN w 1 7
def waitThreshold (w : BitVec 32) : Nat := fieldN w 8 20
def postDelta (w : BitVec 32) : BitVec 12 := field w 8 12
def postRemote (w : BitVec 32) : Bool := bit w 20

/-- The valid wait words and the valid post words of a cue. -/
def Cue.waits (c : Cue) : List (BitVec 32) := ((List.range 4).map c.waitWord).filter wordValid
def Cue.posts (c : Cue) : List (BitVec 32) := ((List.range 4).map c.postWord).filter wordValid

/-- A loop-step entry (R302). -/
def Cue.stepWord (c : Cue) (i : Nat) : BitVec 64 := BitVec.ofNat 64 (cueF c (96 + 8 * i) 0 64)

def stepStart (e : BitVec 64) : Nat := fieldN e 0 10
def stepWidth (e : BitVec 64) : Nat := fieldN e 10 6
def stepSel (e : BitVec 64) : Nat := fieldN e 16 4
def stepStride (e : BitVec 64) : Int := (field e 32 32 : BitVec 32).toInt

/-- A loop-step entry that halts with LOOP_STEP_INVALID (R304); one of WIDTH 0 is unused (R302) and never halts, whatever its
other fields hold (DEDUCED, log entry 33). -/
def stepBad (e : BitVec 64) : Bool :=
  let w := stepWidth e
  w != 0 && (decide (48 < w) || decide (stepStart e < 64) || decide (768 < stepStart e + w)
    || (decide (4 ≤ stepSel e) && decide (stepSel e ≤ 7)))

/-- A field of a cue replaced. -/
def Cue.setBits (c : Cue) (start w v : Nat) : Cue :=
  let mask : Cue := BitVec.ofNat 1024 ((2 ^ w - 1) <<< start)
  (c &&& ~~~mask) ||| BitVec.ofNat 1024 ((v % 2 ^ w) <<< start)

/-- One entry applied with index or argument `x` (R303). -/
def applyStep (c : Cue) (e : BitVec 64) (x : Nat) : Cue :=
  let w := stepWidth e
  if w = 0 then c
  else
    let v : Int := (fieldN c (stepStart e) w : Nat)
    let r := (v + (x : Int) * stepStride e) % ((2 ^ w : Nat) : Int)
    c.setBits (stepStart e) w r.toNat

/-- The four entries applied in order; `sel` gives the index or argument of a selector (R303). -/
def applySteps (c : Cue) (sel : Nat → Nat) : Cue :=
  (List.range 4).foldl (fun c' i => applyStep c' (c.stepWord i) (sel (stepSel (c.stepWord i)))) c

/-- Control cue bodies (R322). -/
def Cue.loopReg (c : Cue) : Nat := cueF c 40 0 4
def Cue.endOffset (c : Cue) : Nat := cueF c 40 8 24
def Cue.loopAdd (c : Cue) : Bool := cueB c 40 4
def Cue.loopValue (c : Cue) : BitVec 32 := BitVec.ofNat 32 (cueF c 44 0 32)
def Cue.routineId (c : Cue) : Nat := cueF c 40 0 8
def Cue.arg (c : Cue) (i : Nat) : BitVec 32 := BitVec.ofNat 32 (cueF c (44 + 4 * i) 0 32)

/-- A call of an optimizer routine (R373). -/
def Cue.isOpt (c : Cue) : Bool := c.routineId == 1 || c.routineId == 2

/-- `CURTAIN_CALL` body (R350). -/
def Cue.ccIndex (c : Cue) : Nat := cueF c 40 0 4
def Cue.ccRealign (c : Cue) : Bool := cueB c 40 8
def Cue.ccValues (c : Cue) : Nat := cueF c 44 0 32
def Cue.ccMaskCall (c : Cue) : BitVec 64 := BitVec.ofNat 64 (cueF c 48 0 64)
def Cue.ccMaskCc (c : Cue) : BitVec 16 := BitVec.ofNat 16 (cueF c 56 0 16)

/-- `TABLEAU` body (R518). -/
def Cue.tabId (c : Cue) : BitVec 16 := BitVec.ofNat 16 (cueF c 40 0 16)
def Cue.tabSpread (c : Cue) : Bool := cueB c 40 16

/-- Property cue bodies (R264, R265). -/
def Cue.propHandle (c : Cue) : Nat := cueF c 40 0 16
def Cue.paFmt (c : Cue) : Nat := cueF c 40 16 4
def Cue.paHome (c : Cue) : Bool := cueB c 40 20
def Cue.paZero (c : Cue) : Bool := cueB c 40 21
def Cue.paLock (c : Cue) : Bool := cueB c 40 22
def Cue.paPlaceAt (c : Cue) : Bool := cueB c 40 23
def Cue.paTrkEn (c : Cue) : Bool := cueB c 40 24
def Cue.paTrkKeep (c : Cue) : Bool := cueB c 40 25
def Cue.paElems (c : Cue) : Nat := cueF c 44 0 40
def Cue.paStaticT (c : Cue) : BitVec 8 := BitVec.ofNat 8 (cueF c 49 0 8)
def Cue.paTrk (c : Cue) : Nat := cueF c 50 0 10
def Cue.paAtFrame (c : Cue) : Nat := cueF c 52 0 16
def Cue.paBsBase (c : Cue) : Nat := cueF c 54 0 48
def Cue.propUnlock (c : Cue) : Bool := cueB c 40 16
def Cue.ppFirst (c : Cue) : Nat := cueF c 40 16 16
def Cue.ppCount (c : Cue) : Nat := cueF c 44 0 17
def Cue.pmW (c : Cue) : Nat := cueF c 40 0 16
def Cue.pmWt (c : Cue) : Nat := cueF c 40 16 16
def Cue.pmRows (c : Cue) : Nat := cueF c 44 0 32
def Cue.pmCols (c : Cue) : Nat := cueF c 48 0 32
def Cue.pmUnpair (c : Cue) : Bool := cueB c 52 0

/-- `ARR_FILL` body (R90). -/
def Cue.afFmtA (c : Cue) : Nat := cueF c 40 0 4
def Cue.afFmtW (c : Cue) : Nat := cueF c 40 4 4
def Cue.afOp (c : Cue) : Nat := cueF c 40 8 3
def Cue.afDrain (c : Cue) : Nat := cueF c 40 11 3
def Cue.afRmode (c : Cue) : Nat := cueF c 40 14 2
def Cue.afWsame (c : Cue) : Bool := cueB c 40 16
def Cue.afShift (c : Cue) : Bool := cueB c 40 17
def Cue.afPrefixZero (c : Cue) : Bool := cueB c 40 18
def Cue.afM (c : Cue) : Nat := cueF c 44 0 13
def Cue.afK (c : Cue) : Nat := cueF c 48 0 13
def Cue.afN (c : Cue) : Nat := cueF c 48 16 13
def Cue.afKT (c : Cue) : Nat := cueF c 52 0 32
def Cue.afShiftW (c : Cue) : Nat := cueF c 56 0 4
def Cue.afShiftC (c : Cue) : Nat := cueF c 56 8 13
def Cue.afBankFirst (c : Cue) : Nat := cueF c 60 0 5
def Cue.afBankCount (c : Cue) : Nat := cueF c 60 8 6
def Cue.afOutTag (c : Cue) : Nat := cueF c 64 0 16
def Cue.afDest (c : Cue) : Nat := cueF c 68 0 16
def Cue.afElemBase (c : Cue) : Nat := cueF c 72 0 40
def Cue.afRowPitch (c : Cue) : Nat := cueF c 80 0 32

/-- `ARR_DROP_HOLD` and `ARR_CONFIG` bodies (R93, R94). -/
def Cue.adMask (c : Cue) : Nat := cueF c 40 0 32
def Cue.acMode (c : Cue) : Nat := cueF c 40 0 2
def Cue.acSplit (c : Cue) : Bool := cueB c 40 2
def Cue.acLineA (c : Cue) : Nat := cueF c 40 4 2
def Cue.acLineB (c : Cue) : Nat := cueF c 40 6 2

/-- `CHO_RUN` body (R139 to R141); GANG, ROWS, COLS stand at the same places in the reduction, scan and kernel cues
(R173, R174). -/
def Cue.crProg (c : Cue) : Nat := cueF c 40 0 6
def Cue.gang (c : Cue) : Nat := 2 ^ cueF c 40 6 2
def Cue.crPacked (c : Cue) : Bool := cueB c 40 8
def Cue.crMaskEn (c : Cue) : Bool := cueB c 40 9
def Cue.crInTag (c : Cue) : Nat := cueF c 40 16 16
def Cue.rows (c : Cue) : Nat := cueF c 44 0 24
def Cue.cols (c : Cue) : Nat := cueF c 48 0 17
def Cue.crRowBase (c : Cue) : Nat := cueF c 52 0 32
def Cue.crColBase (c : Cue) : Nat := cueF c 56 0 32
/-- Operand descriptor at byte `b` (R140). -/
def Cue.operand (c : Cue) (b : Nat) : BitVec 64 := BitVec.ofNat 64 (cueF c b 0 64)
/-- Output descriptor at byte `b` (R141). -/
def Cue.output (c : Cue) (b : Nat) : BitVec 16 := BitVec.ofNat 16 (cueF c b 0 16)

/-- `CHO_PROG_LOAD`, `CHO_CONFIG`, `CHO_TQ_DROP` bodies (R142 to R144). -/
def Cue.cpAddr (c : Cue) : Nat := cueF c 40 0 32
def Cue.cpSlot (c : Cue) : Nat := cueF c 44 0 6
def Cue.cpWords (c : Cue) : Nat := cueF c 44 8 6
def Cue.cpMask (c : Cue) : Nat := cueF c 44 16 8
def Cue.ccfMask (c : Cue) : Nat := cueF c 40 0 8
def Cue.ccfBase (c : Cue) (i : Nat) : Nat := cueF c (44 + 4 * i) 0 9
def Cue.ccfSize (c : Cue) (i : Nat) : Nat := cueF c (44 + 4 * i) 16 9
def Cue.ctTag (c : Cue) : Nat := cueF c 40 0 16

/-- Reduction and scan bodies (R173). -/
def Cue.rdOpsel (c : Cue) : Nat := cueF c 40 0 4
def Cue.rdRmode (c : Cue) : Nat := cueF c 40 4 2
def Cue.rdReverse (c : Cue) : Bool := cueB c 40 8
def Cue.rdCarryZero (c : Cue) : Bool := cueB c 40 9
def Cue.rdRaw (c : Cue) : Bool := cueB c 40 10
def Cue.rdK (c : Cue) : Nat := cueF c 40 11 7
def Cue.rdECol (c : Cue) : Int := (BitVec.ofNat 16 (cueF c 52 0 16)).toInt
/-- O0 to O3 of a reduction or kernel cue (R173, R174). -/
def Cue.rdOut (c : Cue) (i : Nat) : BitVec 16 := c.output (56 + 2 * i)
def Cue.rdCarry (c : Cue) : BitVec 64 := c.operand 64

/-- Kernel bodies (R174). -/
def Cue.kCausal (c : Cue) : Bool := cueB c 40 8
def Cue.kHinZero (c : Cue) : Bool := cueB c 40 9
def Cue.kCinZero (c : Cue) : Bool := cueB c 40 10
def Cue.kRawCol (c : Cue) : Bool := cueB c 40 11
def Cue.kArg (c : Cue) : Int := (BitVec.ofNat 17 (cueF c 40 15 17)).toInt
def Cue.kParam (c : Cue) : BitVec 32 := BitVec.ofNat 32 (cueF c 52 0 32)
def Cue.kHin (c : Cue) : Nat := cueF c 52 0 9
def Cue.kCin (c : Cue) : Nat := cueF c 52 16 9
def Cue.kStream (c : Cue) (i : Nat) : BitVec 64 := c.operand (64 + 8 * i)
def Cue.kInTag (c : Cue) : Nat := cueF c 88 0 16

/-- `FLY_MOVE` body (R190). -/
def Cue.fSrcKind (c : Cue) : Nat := cueF c 40 0 4
def Cue.fDstKind (c : Cue) : Nat := cueF c 40 4 4
def Cue.fBufFmt (c : Cue) : Nat := cueF c 40 8 4
def Cue.fRmode (c : Cue) : Nat := cueF c 40 12 2
def Cue.fBlock (c : Cue) : Bool := cueB c 40 14
def Cue.fTrkClose (c : Cue) : Bool := cueB c 40 15
def Cue.fAcc (c : Cue) : Bool := cueB c 40 16
def Cue.fGather (c : Cue) : Nat := cueF c 40 17 2
def Cue.fGdim (c : Cue) : Nat := cueF c 40 19 3
def Cue.fSrcId (c : Cue) : Nat := cueF c 44 0 16
def Cue.fDstId (c : Cue) : Nat := cueF c 44 16 16
def Cue.fSrcBase (c : Cue) : Nat := cueF c 48 0 40
def Cue.fDstBase (c : Cue) : Nat := cueF c 53 0 40
def Cue.fWalk (c : Cue) : Nat := cueF c 60 0 32
def Cue.fFill (c : Cue) : BitVec 32 := BitVec.ofNat 32 (cueF c 64 0 32)
def Cue.fIndexHandle (c : Cue) : Nat := cueF c 68 0 16
def Cue.fRemote (c : Cue) : BitVec 12 := BitVec.ofNat 12 (cueF c 68 16 12)
def Cue.fIndexBase (c : Cue) : Nat := cueF c 72 0 32
def Cue.fGext (c : Cue) : Nat := cueF c 76 0 32
def Cue.fAddr (c : Cue) : Nat := cueF c 80 0 48
def Cue.fRefHandle (c : Cue) : Nat := cueF c 86 0 16
def Cue.fRefBase (c : Cue) : Nat := cueF c 88 0 40

/-- Exchange bodies (R410). -/
def Cue.xBucket (c : Cue) : Nat := cueF c 40 0 16
def Cue.xRecord (c : Cue) : Nat := cueF c 44 0 32
def Cue.xClose (c : Cue) : Bool := cueB c 40 16
def Cue.xRfirst (c : Cue) : Bool := cueB c 40 17
def Cue.xShiftOvr (c : Cue) : Bool := cueB c 40 18
def Cue.xShift (c : Cue) : Int := (BitVec.ofNat 8 (cueF c 40 24 8)).toInt
def Cue.xGen (c : Cue) : BitVec 16 := BitVec.ofNat 16 (cueF c 44 0 16)
def Cue.xSrc (c : Cue) : Nat := cueF c 44 16 16
def Cue.xSrcBase (c : Cue) : Nat := cueF c 48 0 40
def Cue.xDstOff (c : Cue) : Nat := cueF c 56 0 21
def Cue.xCount (c : Cue) : Nat := cueF c 60 0 22
def Cue.xCheckUnit (c : Cue) : Nat := cueF c 40 16 3
def Cue.xForce (c : Cue) : Bool := cueB c 40 19
def Cue.xPblk (c : Cue) : Nat := cueF c 44 0 32
def Cue.xGsBase (c : Cue) : BitVec 32 := BitVec.ofNat 32 (cueF c 48 0 32)
def Cue.xZeroAcc (c : Cue) : Bool := cueB c 40 16

end Sys2Proof.Machine
end

