-- ==== Sys2Proof/Machine/Words.lean ====
section
/-! DEFINITION. Stored words: the check code (06 R231 to R233) and what a read of a word delivers. -/

namespace Sys2Proof.Machine

/-! The check code. -/

/-- Product in GF(2^8) with field polynomial 0x11D (R231). -/
def gfMul (a b : Nat) : Nat :=
  let p := (List.range 8).foldl (fun (st : Nat × Nat) i =>
    let acc := if b.testBit i then st.1 ^^^ st.2 else st.1
    let a2 := st.2 * 2
    (acc, if a2 < 256 then a2 else a2 ^^^ 0x11D)) (0, a)
  p.1

/-- α^k. -/
def gfPow : Nat → Nat
  | 0 => 1
  | k + 1 => gfMul (gfPow k) 2

/-- Syndrome S_j of an error pattern: byte `i` is the coefficient of x^(66 − i) (R231, R232). -/
def syndrome (j : Nat) (fl : List (Nat × Byte)) : Nat :=
  fl.foldl (fun a (i, e) => a ^^^ gfMul e.toNat (gfPow (j * (66 - i)))) 0

/-- Error pattern of the poison marker (R233). -/
def poisonMark : List (Nat × Byte) := [(64, 0x5A#8), (66, 0x5A#8)]

/-- What the decoder finds (R232). -/
inductive Decoded where
  | clean
  | poison
  | fixed (byte : Nat) (err : Byte)
  | uncorrectable
  deriving DecidableEq, Repr

/-- The decoder of R232 on an error pattern: a codeword's syndromes are zero, so they depend on the errors alone. -/
def decodeFlaw (fl : List (Nat × Byte)) : Decoded :=
  match fl with
  | [] => .clean
  | _ =>
    if fl = poisonMark then .poison
    else
      let s0 := syndrome 0 fl
      let s1 := syndrome 1 fl
      let s2 := syndrome 2 fl
      if s0 = 0 ∧ s1 = 0 ∧ s2 = 0 then .clean
      else if s0 = 0 ∧ s1 = syndrome 1 poisonMark ∧ s2 = syndrome 2 poisonMark then .poison
      else if s0 = 0 then .uncorrectable
      else match (List.range 67).find? (fun p => gfMul s0 (gfPow p) == s1 && gfMul s1 (gfPow p) == s2) with
        | some p => .fixed (66 - p) (BitVec.ofNat 8 s0)
        | none => .uncorrectable

/-- An error added to a pattern; errors that cancel leave it. -/
def addFlaw (fl : List (Nat × Byte)) (i : Nat) (e : Byte) : List (Nat × Byte) :=
  NMap.set (0 : Byte) fl i (NMap.get 0 fl i ^^^ e)

/-! Bytes and stored words. -/

/-- What an unlisted byte reads as: 0, since start-up clears memory (R269), or an unknown byte after a self-test (R467). -/
def Mem.base (m : Mem) (a : Nat) : Byte :=
  if m.epoch = 0 ∧ m.dark.contains (a / 65536) = false then 0 else Config.freeByte m.epoch a

/-- Errors of a word that no access has touched since. -/
def Mem.baseFlaw (m : Mem) (w : Nat) : List (Nat × Byte) := if m.epoch = 0 then [] else Config.freeFlaw m.epoch w

/-- The byte stored at local address `a`, check code apart. -/
def Mem.byte (m : Mem) (a : Nat) : Byte := NMap.get (m.base a) m.cells a

/-- The byte at `a` replaced. -/
def Mem.setByte (m : Mem) (a : Nat) (v : Byte) : Mem := { m with cells := NMap.set (m.base a) m.cells a v }

/-- Consecutive bytes replaced. -/
def Mem.setBytes (m : Mem) (a : Nat) : List Byte → Mem
  | [] => m
  | v :: vs => (m.setByte a v).setBytes (a + 1) vs

/-- An acknowledged write lies inside one word. -/
def PendWrite.fits (w : PendWrite) : Bool := decide (w.addr % 64 + w.bytes.length ≤ 64)

/-- The canonical form of memory: of its bytes, of its errors and of the writes that have still to land. -/
def Mem.wf (m : Mem) : Bool := (NMap.wf m.base m.cells && NMap.wf m.baseFlaw m.flaws) && m.wq.all PendWrite.fits

/-- Errors of stored word `w` (the 64 bytes from 64 × w). -/
def Mem.flaw (m : Mem) (w : Nat) : List (Nat × Byte) := NMap.get (m.baseFlaw w) m.flaws w

def Mem.setFlaw (m : Mem) (w : Nat) (fl : List (Nat × Byte)) : Mem :=
  { m with flaws := NMap.set (m.baseFlaw w) m.flaws w fl }

/-- Data bytes of a stored word with `fl` XORed in. -/
def Mem.dataWith (m : Mem) (w : Nat) (fl : List (Nat × Byte)) : List Byte :=
  (List.range 64).map fun i => m.byte (64 * w + i) ^^^ NMap.get 0 fl i

/-- A read of a stored word without its side effects: data delivered, poisoned, outcome. -/
def Mem.readPure (m : Mem) (w : Nat) : List Byte × Bool × Decoded :=
  let fl := m.flaw w
  match decodeFlaw fl with
  | .clean => (m.dataWith w fl, false, .clean)
  | .poison => (m.dataWith w fl, true, .poison)
  | .fixed i e => (m.dataWith w (addFlaw fl i e), false, .fixed i e)
  | .uncorrectable => (m.dataWith w fl, true, .uncorrectable)

/-- The byte at local address `a` as a read delivers it. -/
def Mem.read (m : Mem) (a : Nat) : Byte := listGet 0 (m.readPure (a / 64)).1 (a % 64)

end Sys2Proof.Machine
end

