-- ==== Sys2Proof/Machine/Flags.lean ====
section
/-! DEFINITION. Fault records (R523 to R527), capture triggers (R513), latched interrupt sources (R540), halts of lines
(R318, R320) and the callboard's posts and bits (R330 to R332). -/

namespace Sys2Proof.Machine

/-- Reason and fault codes used by name (R529). -/
inductive Code where
  | unknownOpcode | engineMismatch | unitAbsent | badVersion
  | handleInvalid | shapeExceedsArray | formatUnsupported | rankOrStride | mirrorInvalid | arrField | arrHoldMismatch
  | arrOperandMismatch | choField | choProgram | choOperand | choTileMismatch | redField | redClaim | flyField | flyRange
  | loopNest | loopEnd | routineNotPrivileged | routineAbsent | haltCue | loopStep | routineNested
  | counterIndex | postRemote | curtainInvalid
  | watchdog | breakCount | breakTag | hostHalt | coreFatal
  | uncorrectableCue | pageLocked | exchField | exchBucket | exchBusy | exchGenStale | exchRepairFailed | exchPartFailed
  | exchCheckMismatch | exchStray | remoteUnreachable | remoteTimeout | fabChRetired | fabLinkDown | fabPeerInvalid
  | fabHopDrop
  | propField | propNoSpace | propHandleBusy | remoteRefused | localAddr
  | memCorrected | memUncorrectable | frameRetired | bufParity | bsReadError | bsWriteError | callSat | callUnder
  | tableCorrected | tableUncorrectable | tickLost | shadowInvalid
  deriving DecidableEq, Repr, Inhabited

/-- The numbers of R529. -/
def Code.num : Code → Nat
  | .unknownOpcode => 0x01 | .engineMismatch => 0x02 | .unitAbsent => 0x03 | .badVersion => 0x04
  | .handleInvalid => 0x10 | .shapeExceedsArray => 0x11 | .formatUnsupported => 0x12 | .rankOrStride => 0x13
  | .mirrorInvalid => 0x14 | .arrField => 0x15 | .arrHoldMismatch => 0x16 | .arrOperandMismatch => 0x17
  | .choField => 0x18 | .choProgram => 0x19 | .choOperand => 0x1A | .choTileMismatch => 0x1B | .redField => 0x1C
  | .redClaim => 0x1D | .flyField => 0x1E | .flyRange => 0x1F
  | .loopNest => 0x20 | .loopEnd => 0x21 | .routineNotPrivileged => 0x22 | .routineAbsent => 0x23 | .haltCue => 0x24
  | .loopStep => 0x25 | .routineNested => 0x26
  | .counterIndex => 0x30 | .postRemote => 0x31 | .curtainInvalid => 0x32
  | .watchdog => 0x40 | .breakCount => 0x41 | .breakTag => 0x42 | .hostHalt => 0x43 | .coreFatal => 0x44
  | .uncorrectableCue => 0x50 | .pageLocked => 0x51 | .exchField => 0x52 | .exchBucket => 0x53 | .exchBusy => 0x54
  | .exchGenStale => 0x55 | .exchRepairFailed => 0x56 | .exchPartFailed => 0x57 | .exchCheckMismatch => 0x58
  | .exchStray => 0x59 | .remoteUnreachable => 0x5A | .remoteTimeout => 0x5B | .fabChRetired => 0x5C
  | .fabLinkDown => 0x5D | .fabPeerInvalid => 0x5E | .fabHopDrop => 0x5F
  | .propField => 0x60 | .propNoSpace => 0x61 | .propHandleBusy => 0x62 | .remoteRefused => 0x63 | .localAddr => 0x64
  | .memCorrected => 0x80 | .memUncorrectable => 0x81 | .frameRetired => 0x82 | .bufParity => 0x83
  | .bsReadError => 0x84 | .bsWriteError => 0x85 | .callSat => 0x86 | .callUnder => 0x87 | .tableCorrected => 0x88
  | .tableUncorrectable => 0x89 | .tickLost => 0x8A | .shadowInvalid => 0x8B

/-- What a fault record says (R523). -/
structure FaultRec where
  cls   : Nat
  /-- 0 to 3 a line, 4 none -/
  line  : Nat
  unit  : Nat
  code  : Nat
  addr  : Nat
  kind  : Nat
  num   : BitVec 48
  epoch : BitVec 16
  deriving DecidableEq, Repr

/-- Unit numbers beside the engine ids (R523). -/
def unitMemory : Nat := 0x24
def unitCallboard : Nat := 0x25
def unitFabric : Nat := 0x26
def unitAon : Nat := 0x27
def unitHost : Nat := 0x28
def unitBackstage : Nat := 0x29

/-- A record of no line. -/
def FaultRec.plain (cls unit code addr kind : Nat) : FaultRec := ⟨cls, 4, unit, code, addr, kind, 0, 0⟩

/-- The eight words of a record with sequence number `seq` (R523). -/
def FaultRec.words (r : FaultRec) (seq : Word) (tick : Dword) : List Word :=
  [ at32 0 r.cls ||| at32 4 r.line ||| at32 8 r.unit ||| at32 16 r.code,
    BitVec.ofNat 32 r.addr,
    at32 0 (r.addr / 2 ^ 32 % 2 ^ 16) ||| at32 16 r.kind,
    seq,
    tick.setWidth 32, (tick >>> 32).setWidth 32,
    r.num.setWidth 32, at32 0 (r.num.toNat / 2 ^ 32) ||| at32 16 r.epoch.toNat ]

/-- Consecutive registers written. -/
def State.setRegs (s : State) (off : Nat) : List Word → State
  | [] => s
  | w :: ws => (s.setReg off w).setRegs (off + 4) ws

/-- A latched interrupt source sets its bit, enabled or not (R541). -/
def State.latchIrq (s : State) (i : Nat) : State := s.setB R.ctlIrqPend i true

/-- A capture trigger of this command (R513). -/
def State.trigger (s : State) (src : Nat) (id : BitVec 16) : State :=
  { s with trig := s.trig ++ [⟨src, id, (s.reg R.fabCoreId).setWidth 12, false⟩] }

/-- FLT_STATUS.FATAL (R525). -/
def State.fatal (s : State) : Bool := s.regB R.fltStatus 1

/-- Writing of a record into the log (R526): overwriting the oldest, the class count, NEW, the first core-fatal copy
and the class trigger. The halts of R525 are made by `coreFault`. -/
def State.logRecord (s : State) (r : FaultRec) : State :=
  let wr := s.reg R.fltWr
  let d := (wr - s.reg R.fltRd).toNat
  let s := if 64 ≤ d then (s.setReg R.fltRd (wr - 63)).count R.fltOverwritten 1 else s
  let ws := r.words wr s.tick
  let s := s.setRegs (R.fltRec (8 * (wr.toNat % 64))) ws
  let s := s.setReg R.fltWr (wr + 1)
  let s := s.count (R.fltClassCount r.cls) 1
  let s := if bit (s.reg R.fltCtrl) r.cls then s.setB R.fltStatus 0 true else s
  let s := if r.cls = 5 ∧ s.fatal = false then (s.setRegs (R.fltFatal 0) ws).setB R.fltStatus 1 true else s
  if bit (s.reg R.tabCtrl) (8 + r.cls) then s.trigger 4 (wr.setWidth 16) else s

/-- The cue a halt names (R318). -/
structure HaltCue where
  opcode : Nat
  src    : Nat
  addr   : BitVec 32
  num    : BitVec 48
  epoch  : BitVec 16
  tag    : BitVec 32
  deriving DecidableEq, Repr

/-- The class of a halt's record: 5 for an uncorrectable word of a fetched cue, 4 otherwise (R529). -/
def haltClass (reason : Nat) (fetch : Bool) : Nat := if reason = 0x50 ∧ fetch then 5 else 4

/-- The halt record of a line (R318), and its interrupt; its watchdog count clears (R353). -/
def State.haltRecord (s : State) (l : Line) (reason engine : Nat) (c : HaltCue) : State :=
  let i := l.idx
  let s := s.setReg (R.lineHaltReason i) (at32 0 reason ||| at32 8 (engine % 64) ||| at32 14 c.src ||| at32 16 c.opcode)
  let s := s.setReg (R.lineHaltAddr i) c.addr
  let s := s.setReg (R.lineHaltCountLo i) (c.num.setWidth 32)
  let s := s.setReg (R.lineHaltCountHi i) (at32 0 (c.num.toNat / 2 ^ 32) ||| at32 16 c.epoch.toNat)
  let s := (s.setReg (R.lineHaltTag i) c.tag).setReg (R.callWdogAge i) 0
  s.latchIrq (1 + i)

/-- A halt of a line without the consequences of class 5: the first record is kept, later ones set MORE (R318, R320,
R527). -/
def State.haltCore (s : State) (l : Line) (reason engine : Nat) (fetch : Bool) (c : HaltCue) : State :=
  let ln := s.line l
  let s :=
    if ln.halted then s.setLine l { ln with more := true }
    else (s.setLine l { ln with halted := true, more := false }).haltRecord l reason engine c
  s.logRecord ⟨haltClass reason fetch, l.idx, engine, reason, c.addr.toNat, if c.src = 1 then 5 else 1, c.num, c.epoch⟩

/-- Slots of a line's ring (R280). -/
def State.ringSlots (s : State) (l : Line) : Nat := 2 ^ (s.regF (R.lineRing l.idx) 0 5 - 7)

/-- Local address of ring position `p`, through the pages of the ring handle (R280). -/
def State.ringAddr (s : State) (l : Line) (p : BitVec 32) : Nat :=
  let b := p.toNat % s.ringSlots l * 128
  let h := s.handle (s.regF (R.lineRing l.idx) 16 16)
  (s.page (h.first + b / 65536)).frame * 65536 + b % 65536

/-- The place of a line's head cue: source, address and, inside a routine, the store offset. -/
def State.headPlace (s : State) (l : Line) : Nat × BitVec 32 := match (s.line l).routine with
  | some r => (1, BitVec.ofNat 32 ((r.start + r.pos) * 128))
  | none => (0, BitVec.ofNat 32 (s.ringAddr l (s.line l).head))

/-- A cue of the repertoire store, by 128-byte unit (R306, R308). -/
def State.storeCue (s : State) (unit : Nat) : Cue :=
  BitVec.ofNat 1024 ((List.range 32).foldl (fun a i => a + (s.repWord (128 * unit + 4 * i)).toNat <<< (32 * i)) 0)

/-- The head cue of a line: as stepped once it has been taken, as it stands in its ring or routine otherwise; 0 where the
ring has none. -/
def State.headOf (s : State) (l : Line) : Cue :=
  let ln := s.line l
  match ln.taken, ln.routine with
  | some c, _ => c
  | none, some r => s.storeCue (r.start + r.pos)
  | none, none =>
    if (ln.tail - ln.head).toInt ≤ 0 then 0
    else
      let w := s.ringAddr l ln.head / 64
      BitVec.ofNat 1024 (numOf ((s.mem.readPure w).1 ++ (s.mem.readPure (w + 1)).1))

/-- The halt record of a line stopped in front of its head cue `c` (R318): the number it would have taken. -/
def State.headCue (s : State) (l : Line) (c : Cue) : HaltCue :=
  let p := s.headPlace l
  ⟨c.opcode, p.1, p.2, (s.line l).count, (s.line l).epoch, c.tag⟩

/-- Every line but `skip` halts with CORE_FATAL in front of its head cue (R525). A line that is DISABLED or RESETTING
has no dispatch to stop. -/
def State.fatalHalts (s : State) (skip : Option Line) : State :=
  allLines.foldl (fun s l =>
    let ln := s.line l
    if skip = some l ∨ ln.enabled = false ∨ ln.resetting then s
    else
      let s := s.haltCore l Code.coreFatal.num 0 false (s.headCue l (s.headOf l))
      if ln.halted then s else s.setLine l { s.line l with atPrompter := true }) s

/-- A record of class core fatal, with the halts of R525. -/
def State.coreFault (s : State) (r : FaultRec) : State := (s.logRecord r).fatalHalts none

/-- What the code of a table entry finds when the entry is read (R242, R333): a corrected error, or one that is core
fatal. -/
def State.tableUpset (s : State) (u : Fin 3) (unit addr kind : Nat) : State :=
  if u.val = 1 then s.logRecord (FaultRec.plain 0 unit Code.tableCorrected.num addr kind)
  else if u.val = 2 then s.coreFault (FaultRec.plain 5 unit Code.tableUncorrectable.num addr kind)
  else s

/-- A halt of a line (R318) with the consequences of its record's class (R525). -/
def State.halt (s : State) (l : Line) (reason : Code) (engine : Nat) (fetch : Bool) (c : HaltCue) : State :=
  let s := s.haltCore l reason.num engine fetch c
  if haltClass reason.num fetch = 5 then s.fatalHalts (some l) else s

/-- The halt record of a cue in flight. -/
def QCue.haltCue (q : QCue) : HaltCue :=
  ⟨q.cue.opcode, q.src, q.addr, q.num, q.epoch, q.cue.tag⟩

/-- Sets a bit of a W1C mask register and leaves one record of class corrected on its change from 0 to 1 (R331). -/
def State.callBit (s : State) (off i : Nat) (code : Code) (index : Nat) : State :=
  if s.regB off i then s
  else (s.setB off i true).logRecord (FaultRec.plain 0 unitCallboard code.num index 3)

/-- A post of `delta` on call counter `i` (R330, R331). -/
def State.post (s : State) (i : Nat) (delta : Int) : State :=
  let v : Int := ((s.cnt i).toNat : Int) + delta
  if v > 0xFFFFF then
    (s.setCnt i 0xFFFFF#20).callBit (if i < 32 then R.callSatLo else R.callSatHi) (i % 32) .callSat i
  else if v < 0 then
    (s.setCnt i 0#20).callBit (if i < 32 then R.callUnderLo else R.callUnderHi) (i % 32) .callUnder i
  else s.setCnt i (BitVec.ofInt 20 v)

/-- A release's increment of curtain counter `k` (R331). -/
def State.ccIncrement (s : State) (k : Nat) : State :=
  let v := (s.cnt (64 + k)).toNat + 1
  if v > 0xFFFFF then s.callBit R.callCcSat k .callSat (64 + k)
  else s.setCnt (64 + k) (BitVec.ofNat 20 v)

/-- A wait is met while the count is at least the threshold (R329). -/
def State.waitMet (s : State) (w : BitVec 32) : Bool := decide (waitThreshold w ≤ (s.cnt (wordIndex w)).toNat)

/-- Watches set their HIT bits while the condition holds (R341). -/
def State.watches (s : State) : State :=
  (List.range 4).foldl (fun s i =>
    let w := s.reg (R.callWatch i)
    if bit w 0 ∧ fieldN w 1 7 < 80 ∧ fieldN w 8 20 ≤ (s.cnt (fieldN w 1 7)).toNat then
      s.setB R.callWatchStatus i true else s) s

/-- A stage-door session is open (R486). -/
def State.session (s : State) : Bool := s.regB R.sesStatus 0

/-- The core is frozen (R519). -/
def State.frozen (s : State) : Bool := s.regB R.tabStatus 2

/-- Ticks that something has been outstanding (R11). -/
def State.age (s : State) (t : Timer) : Nat := match s.timers.find? (·.1 == t) with
  | some x => x.2
  | none => 0

/-- A count begins anew. -/
def State.restart (s : State) (t : Timer) : State := { s with timers := s.timers.filter (·.1 != t) }

/-- PWR_STATUS.STATE (R495): 0 Run, 1 Idle, 2 Entering, 3 Drowse, 4 Waking. -/
def State.pstate (s : State) : Nat := s.regF R.pwrStatus 0 3

/-- A counted host error (R461, R540). -/
def State.hostError (s : State) (addr : Nat) (write : Bool) : State :=
  let s := s.count R.ctlHostErr 1
  let s := s.setReg R.ctlHostErrAddr (BitVec.ofNat 32 (addr % 2 ^ 21) ||| flag32 31 write)
  s.latchIrq 9

end Sys2Proof.Machine
end

