-- ==== Sys2Proof/Machine/Ops.lean ====
section
/-! DEFINITION. Operations over local memory, frames and trackers: the check code (R231 to R237), landing writes (R334),
frames and retirement (R227 to R230, R260, R261), local addresses (R248), write passes (R37 to R40). -/

namespace Sys2Proof.Machine

/-! Frames and descriptors. -/

/-- The descriptor whose page sits in frame `f`: OWNED or LOCKED. -/
def State.holder (s : State) (f : Nat) : Option (Nat × Page) :=
  s.prop.pages.find? fun (_, p) => p.frame == f && (p.state == .owned || p.state == .locked)

/-- A frame a RETIRED descriptor names. -/
def State.frameRetired (s : State) (f : Nat) : Bool :=
  s.prop.pages.any fun (_, p) => p.frame == f && p.state == .retired

/-- A frame that may be given to a page: installed, held by no page, not RETIRED, not marked, and no target of a
page-in or a move. -/
def State.frameFree (s : State) (f : Nat) : Bool :=
  decide (f < s.build.frames) && (s.holder f).isNone && !s.frameRetired f && !s.prop.marked.contains f
    && !(s.prop.ins.any (·.frame == f)) && !(s.prop.moves.any (fun m => m.dst == f || m.src == f))

/-- First number from `k` on that satisfies `p`, within `fuel` tries. -/
def firstFrom (p : Nat → Bool) : Nat → Nat → Option Nat
  | 0, _ => none
  | fuel + 1, k => if p k then some k else firstFrom p fuel (k + 1)

/-- The lowest-numbered free frame (R245, R252). -/
def State.lowestFree (s : State) : Option Nat := firstFrom s.frameFree s.build.frames 0

/-- Free frames. -/
def State.freeFrames (s : State) : Nat :=
  let used := (s.prop.pages.filter fun (_, p) => p.state == .owned || p.state == .locked || p.state == .retired).map
    (fun (_, p) => p.frame)
  let used := used ++ s.prop.marked ++ s.prop.ins.map (·.frame) ++ s.prop.moves.map (·.dst) ++ s.prop.moves.map (·.src)
  s.build.frames - (used.eraseDups.filter (fun f => decide (f < s.build.frames))).length

/-- A descriptor that no page uses. -/
def State.descFree (s : State) (d : Nat) : Bool := decide (d < 65536) && (s.page d).state == .free

/-- The highest-numbered FREE descriptor (R261). -/
def State.highestFreeDesc (s : State) : Option Nat :=
  (firstFrom (fun k => s.descFree (65535 - k)) 65536 0).map (65535 - ·)

/-- Step 2 of R261: the highest FREE descriptor becomes RETIRED with FRAME naming the frame. -/
def State.retireNow (s : State) (f : Nat) : State := match s.highestFreeDesc with
  | some d =>
    let s := s.setPage d { Page.free with state := .retired, frame := f }
    { s with prop := { s.prop with marked := s.prop.marked.filter (· != f) } }
  | none => s

/-- Retirement of a marked frame as far as it can go now (R261 steps 2 to 4). -/
def State.retireGo (s : State) (f : Nat) : State :=
  if s.prop.moves.any (·.src == f) then s
  else match s.holder f with
  | none => if s.prop.ins.any (·.frame == f) then s else s.retireNow f
  | some (d, p) =>
    let h := s.handle p.handle
    if p.state = .owned ∧ h.fixed = false ∧ p.moving = false ∧ s.highestFreeDesc.isSome then
      match s.lowestFree with
      | some g =>
        let s := s.setPage d { p with moving := true, retPend := false }
        { s with prop := { s.prop with moves := s.prop.moves ++ [⟨d, f, g⟩] } }
      | none => s.setPage d { p with retPend := true }
    else s.setPage d { p with retPend := true }

/-- A frame retires (R260, R261) because of the word at `addr`. -/
def State.retireFrame (s : State) (addr : Nat) : State :=
  let f := addr / 65536
  if s.prop.marked.contains f || s.frameRetired f then s
  else
    let s := s.logRecord (FaultRec.plain 2 unitMemory Code.frameRetired.num addr 1)
    let s := { s with prop := { s.prop with marked := s.prop.marked ++ [f] } }
    s.retireGo f

/-- Marked frames go on when frames or descriptors have become free (R261 step 4). -/
def State.retireProgress (s : State) : State :=
  if s.prop.marked.isEmpty then s else s.prop.marked.foldl (fun s f => s.retireGo f) s

/-- A corrected word enters the watch list (R237). -/
def State.watchWord (s : State) (w : Nat) : State :=
  let m := s.mem
  match m.watch.find? (·.1 == w) with
  | some (_, n) =>
    let s := { s with mem := { m with watch := m.watch.map fun e => if e.1 = w then (w, n + 1) else e } }
    if n + 1 = 3 then s.retireFrame (64 * w) else s
  | none =>
    let (l, ev) :=
      if m.watch.length < 1024 then (m.watch, false)
      else match findIdx? (fun e : Nat × Nat => e.2 == 1) m.watch with
        | some i => (listDrop1 m.watch i, true)
        | none => (m.watch.drop 1, true)
    let s := { s with mem := { m with watch := l ++ [(w, 1)] } }
    let s := if ev then s.count R.propWatchEvict 1 else s
    s.logRecord (FaultRec.plain 0 unitMemory Code.memCorrected.num (64 * w) 1)

/-- A word queued for write-back (R235); one that waits already goes back poisoned once a read has found it
uncorrectable. -/
def State.queueCorr (s : State) (w : Nat) (poison : Bool) : State :=
  if s.mem.corr.any (·.1 == w) then
    { s with mem := { s.mem with corr := s.mem.corr.map fun c => if c.1 = w then (w, c.2 || poison) else c } }
  else { s with mem := { s.mem with corr := s.mem.corr ++ [(w, poison)] } }

/-- A read of stored word `w` with its counts, records and write-backs (R232, R235, R237, R260). -/
def State.readWord (s : State) (w : Nat) : (List Byte × Bool) × State :=
  let r := s.mem.readPure w
  match r.2.2 with
  | .clean => ((r.1, false), s)
  | .poison => ((r.1, true), s.count R.propPoisonRead 1)
  | .fixed _ _ => ((r.1, false), (((s.count R.propCorr 1).queueCorr w false).watchWord w))
  | .uncorrectable =>
    let s := (s.count R.propUncorr 1).queueCorr w true
    let s := s.logRecord (FaultRec.plain 3 unitMemory Code.memUncorrectable.num (64 * w) 1)
    ((r.1, true), s.retireFrame (64 * w))

/-- Sets POISONED on the page that holds the word (R241). -/
def State.markPoisoned (s : State) (addr : Nat) : State := match s.holder (addr / 65536) with
  | some (d, p) => s.setPage d { p with poisoned := true }
  | none => s

/-- A write marks the page that holds the word DIRTY (R244), and POISONED where the word is poisoned (R241). -/
def State.markWritten (s : State) (addr : Nat) (bad : Bool) : State := match s.holder (addr / 65536) with
  | some (d, p) => s.setPage d { p with dirty := true, poisoned := p.poisoned || bad }
  | none => s

/-- Bytes land inside one stored word (R234, R334): a partial write is a read-modify-write, and a merged word is
poisoned when the write is poisoned or the old word was uncorrectable or poisoned. -/
def State.landWord (s : State) (addr : Nat) (bytes : List Byte) (poison : Bool) : State :=
  let w := addr / 64
  let full := decide (addr % 64 = 0) && decide (bytes.length = 64)
  let (old, s) := if full then (([], false), s) else s.readWord w
  let m := s.mem
  let m := if full then m else m.setBytes (64 * w) old.1
  let m := m.setBytes addr bytes
  let bad := poison || old.2
  let m := m.setFlaw w (if bad then poisonMark else [])
  let m := { m with corr := m.corr.filter (·.1 != w) }
  { s with mem := m }.markWritten addr bad

/-- Bytes landing at any address, word by word. -/
def State.land (s : State) (addr : Nat) (bytes : List Byte) (poison : Bool) : State :=
  let n := (addr % 64 + bytes.length + 63) / 64
  iter n (fun k s =>
    let lo := if k = 0 then addr else (addr / 64 + k) * 64
    let off := lo - addr
    let len := min (64 - lo % 64) (bytes.length - off)
    s.landWord lo ((bytes.drop off).take len) poison) s

/-- The page that holds an address is LOCKED: it takes writes from the intake windows alone (R244). -/
def State.lockedAt (s : State) (addr : Nat) : Bool := match s.holder (addr / 65536) with
  | some (_, p) => p.state == .locked
  | none => false

/-- Bytes written at any address, word by word, but not to LOCKED pages (R244). -/
def State.put (s : State) (addr : Nat) (bytes : List Byte) (poison : Bool) : State :=
  let n := (addr % 64 + bytes.length + 63) / 64
  iter n (fun k s =>
    let lo := if k = 0 then addr else (addr / 64 + k) * 64
    let off := lo - addr
    let len := min (64 - lo % 64) (bytes.length - off)
    if s.lockedAt lo then s else s.landWord lo ((bytes.drop off).take len) poison) s

/-- A write acknowledged for later landing, cut at word boundaries (before R334). -/
def State.queueWrite (s : State) (uid engine addr : Nat) (bytes : List Byte) (poison : Bool) : State :=
  let n := (addr % 64 + bytes.length + 63) / 64
  iter n (fun k s =>
    let lo := if k = 0 then addr else (addr / 64 + k) * 64
    let off := lo - addr
    let len := min (64 - lo % 64) (bytes.length - off)
    { s with mem := { s.mem with wq := s.mem.wq ++ [⟨uid, engine, lo, (bytes.drop off).take len, poison⟩] } }) s

/-- The acknowledged writes to a frame land, in order: the controller has them before it reads the frame for the backstage
memory or for another frame (R196, R254, R261). -/
def State.landFrame (s : State) (f : Nat) : State :=
  (s.mem.wq.filter fun w => w.addr / 65536 == f).foldl (fun s w => s.landWord w.addr w.bytes w.poison)
    { s with mem := { s.mem with wq := s.mem.wq.filter fun w => w.addr / 65536 != f } }

/-- Bytes of a pending write laid over a read (R196: one engine sees its own writes). -/
def overlay (addr : Nat) (data : List (Byte × Bool)) (p : PendWrite) : List (Byte × Bool) :=
  data.zipIdx.map fun (b, i) =>
    let a := addr + i
    if p.addr ≤ a ∧ a < p.addr + p.bytes.length then (listGet 0 p.bytes (a - p.addr), p.poison) else b

/-- A read by `engine` of `n` bytes from `addr`: each byte with its poison. -/
def State.readBytes (s : State) (engine addr n : Nat) : List (Byte × Bool) × State :=
  let k := (addr % 64 + n + 63) / 64
  let r := iter k (fun i (st : List (Byte × Bool) × State) =>
    let q := st.2.readWord (addr / 64 + i)
    (st.1 ++ q.1.1.map (fun b => (b, q.1.2)), q.2)) ([], s)
  let data := (r.1.drop (addr % 64)).take n
  ((r.2.mem.wq.filter (·.engine == engine)).foldl (overlay addr) data, r.2)

/-- Data of a read, and whether any word was poisoned. -/
def State.readPlain (s : State) (engine addr n : Nat) : (List Byte × Bool) × State :=
  let r := s.readBytes engine addr n
  ((r.1.map (·.1), r.1.any (·.2)), r.2)

/-- Where a write of the engine `uid` has still to land. -/
def State.unlanded (s : State) (uid : Nat) : Bool := s.mem.wq.any (·.uid == uid)

/-! Local addresses (R248, R249). -/

/-- R248: the frame's page is OWNED or LOCKED, not moving, and its handle is FIXED. -/
def State.localOk (s : State) (addr : Nat) : Bool := match s.holder (addr / 65536) with
  | some (_, p) => !p.moving && (s.handle p.handle).fixed
  | none => false

/-- Every byte of a range valid by R248. -/
def State.localRangeOk (s : State) (addr n : Nat) : Bool :=
  decide (addr + n ≤ 2 ^ 32) &&
    (List.range ((addr % 65536 + n + 65535) / 65536)).all fun k => s.localOk ((addr / 65536 + k) * 65536)

/-- R249: a fabric write or accumulate applies only to an OWNED page of a FIXED handle that is no mirror member. -/
def State.remoteWriteOk (s : State) (addr : Nat) : Bool := match s.holder (addr / 65536) with
  | some (_, p) => !p.moving && p.state == .owned && (s.handle p.handle).fixed && (s.handle p.handle).mrole == 0
  | none => false

/-! Handles. -/

/-- An owned handle of a legal number (R238). -/
def State.handleOk (s : State) (h : Nat) : Bool := decide (h < 16384) && (s.handle h).owned

/-- Byte size of a handle of `n` elements (R239). -/
def handleBytes (f : Fmt) (n : Nat) : Nat :=
  if f.isBlock then roundUp (n / 2) 64 + n / 32 else n * (f.bits / 8)

/-- Format of a handle. -/
def Handle.format (h : Handle) : Fmt := (Fmt.ofCode h.fmt).getD .i8

/-- The handle whose tracker and t serve `h`: Wᵀ takes W's (R258). -/
def State.scaleOwner (s : State) (h : Nat) : Nat := if (s.handle h).mrole = 2 then (s.handle h).partner else h

/-- TRK_CTRL.MARGIN. -/
def State.margin (s : State) : Nat := s.regF R.trkCtrl 0 4

/-- t of a handle (R27, R39): its tracker's, or the static exponent; 0 where the format is not scaled. -/
def State.handleT (s : State) (h : Nat) : Int :=
  let h := s.scaleOwner h
  let e := s.handle h
  if e.format.isScaled = false then 0
  else if e.trkEn then (s.tracker e.trk).t.toInt else e.staticT.toInt

/-- t of a conversion to `f` that writes no handle, from the history of the handle read (R40). -/
def State.feedT (s : State) (h : Nat) (f : Fmt) : Int :=
  let h := s.scaleOwner h
  let e := s.handle h
  if f.isScaled = false then 0
  else if e.trkEn then
    let t := s.tracker e.trk
    passScale t.hist s.margin f.cap t.initT.toInt t.t.toInt
  else e.staticT.toInt

/-- Bound b of an F16 conversion from the same history (R28, R39, R40). -/
def State.f16Bound (s : State) (h : Nat) : Int :=
  let h := s.scaleOwner h
  let e := s.handle h
  if e.trkEn then histBound (s.tracker e.trk).hist s.margin (s.tracker e.trk).initT.toInt else e.staticT.toInt

/-- What the handle that a cue reads gives an alignment as the cue issues (R40, R41): t, and t and F16 bound of a
conversion that writes no handle. -/
def State.issueScale (s : State) (c : Cue) : Int × Int × Int :=
  let h := if c.opcode = 0x51 then c.xSrc else if c.fSrcKind = 1 then c.fSrcId else c.fRefHandle
  if c.opcode = 0x40 ∨ c.opcode = 0x51 then (s.handleT h, s.feedT h ((Fmt.ofCode c.fBufFmt).getD .b32), s.f16Bound h)
  else (0, 0, 0)

/-! Write passes (R37 to R39). -/

/-- A write pass opens, if none is open, and fixes t. -/
def State.passOpen (s : State) (trk : Nat) (f : Fmt) : State :=
  let t := s.tracker trk
  if t.isOpen then s
  else
    let v : Int := if f.isScaled then passScale t.hist s.margin f.cap t.initT.toInt t.t.toInt else 0
    s.setTracker trk { t with isOpen := true, t := BitVec.ofInt 8 v, runmax := 0 }

/-- A written element enters the pass maximum; NaN and poisoned elements are counted apart (R37, R52). -/
def State.passNote (s : State) (trk : Nat) (x : Num) : State :=
  if x.isNan then s.count R.trkNanCount 1
  else
    let t := s.tracker trk
    let c := b32Up x
    if (ofB32 t.runmax).absLt (ofB32 c) then s.setTracker trk { t with runmax := c } else s

/-- A pass closes (R38): its maximum enters the history and TRK_PASS adds 1; nothing happens while none is open.
TRK_RUNMAX, which R38 gives for an open pass alone, keeps the closed pass's maximum until the next pass opens (DESIGN
CHOICE, log entry 37). -/
def State.passClose (s : State) (trk : Nat) : State :=
  let t := s.tracker trk
  if t.isOpen then
    s.setTracker trk { t with isOpen := false, hist := (t.runmax :: t.hist).take 16, passes := t.passes + 1 }
  else s

/-- The pass of a handle opens at its first write. -/
def State.handlePassOpen (s : State) (h : Nat) : State :=
  let e := s.handle h
  if e.trkEn then s.passOpen e.trk e.format else s

def State.handlePassNote (s : State) (h : Nat) (x : Num) : State :=
  let e := s.handle h
  if e.trkEn then s.passNote e.trk x else s

def State.handlePassClose (s : State) (h : Nat) : State :=
  let e := s.handle h
  if e.trkEn then s.passClose e.trk else s

/-- The seed of the stochastic generator (R34). -/
def State.seed (s : State) : BitVec 64 :=
  (s.reg R.trkSeedHi).setWidth 64 <<< 32 ||| (s.reg R.trkSeedLo).setWidth 64

/-- Step number of a line (R35). -/
def stepReg (l : Line) : Nat := R.trkStepF + 4 * l.idx

def State.stepNum (s : State) (l : Line) : BitVec 32 := s.reg (stepReg l)

/-! Stage-door sessions. -/

/-- The session closes (R487). -/
def State.closeSession (s : State) : State :=
  ((s.setB R.sesStatus 0 false).setReg R.sesOpenId 0).setReg R.sesIdleTicks 0

/-- What every reset does to the stage door: the session closes, and the nonce, the proof and a check in progress are lost
(R487; SES_NONCE and SES_STATUS.BUSY are kept by Idle alone). -/
def State.resetDoor (s : State) : State :=
  { (s.closeSession.setB R.sesStatus 5 false) with
    secret := { s.secret with nonceOk := false, proof := 0, good := false } }

end Sys2Proof.Machine
end

