-- ==== Sys2Proof/Machine/Fabric.lean ====
section
/-! DEFINITION. Flits, channels and the router (11 R417 to R442): how a packet leaves the core and how a flit crosses it. -/

namespace Sys2Proof.Machine

/-- CRC-32C (R421): reflected polynomial 0x82F63B78, initial value and final XOR of all ones. -/
def crc32c (l : List Byte) : BitVec 32 :=
  let step (c : BitVec 32) (b : Byte) : BitVec 32 :=
    (List.range 8).foldl (fun c _ => if c.getLsbD 0 then (c >>> 1) ^^^ 0x82F63B78#32 else c >>> 1)
      (c ^^^ b.setWidth 32)
  (l.foldl step 0xFFFFFFFF#32) ^^^ 0xFFFFFFFF#32

/-- A flit: 64 bytes. -/
abbrev Flit := BitVec 512

/-- Fields of the header (R421). -/
def Flit.opc (f : Flit) : Nat := fieldN f 0 4
def Flit.ch (f : Flit) : Nat := fieldN f 4 2
def Flit.vc (f : Flit) : Nat := fieldN f 6 1
def Flit.alt (f : Flit) : Bool := f.getLsbD 7
def Flit.dest (f : Flit) : BitVec 12 := field f 8 12
def Flit.src (f : Flit) : BitVec 12 := field f 20 12
def Flit.lseq (f : Flit) : BitVec 10 := field f 32 10
def Flit.sop (f : Flit) : Bool := f.getLsbD 42
def Flit.eop (f : Flit) : Bool := f.getLsbD 43
def Flit.len (f : Flit) : Nat := fieldN f 44 6
def Flit.hops (f : Flit) : Nat := fieldN f 52 12

/-- A header field replaced. -/
def Flit.setF (f : Flit) (lo w v : Nat) : Flit :=
  let mask : Flit := BitVec.ofNat 512 ((2 ^ w - 1) <<< lo)
  (f &&& ~~~mask) ||| BitVec.ofNat 512 ((v % 2 ^ w) <<< lo)

/-- CRC over bytes 0 to 59 (R421). -/
def Flit.crcOf (f : Flit) : BitVec 32 := crc32c (bytesOf 60 f.toNat)

def Flit.crcOk (f : Flit) : Bool := decide (f.crcOf.toNat = fieldN f 480 32)

def Flit.seal (f : Flit) : Flit := f.setF 480 32 f.crcOf.toNat

/-- Payload bytes of a flit. -/
def Flit.payload (f : Flit) : List Byte := (bytesOf 52 (f.toNat >>> 64)).take f.len

/-- A flit built from its fields, before LSEQ and CRC. -/
def mkFlit (opc ch : Nat) (dest src : BitVec 12) (sop eop : Bool) (bytes : List Byte) : Flit :=
  BitVec.ofNat 512 (opc + ch * 2 ^ 4 + dest.toNat * 2 ^ 8 + src.toNat * 2 ^ 20 + (if sop then 2 ^ 42 else 0)
    + (if eop then 2 ^ 43 else 0) + bytes.length * 2 ^ 44 + numOf bytes * 2 ^ 64)

/-- Lane of an operation code (R422): 0 request, 1 response, 2 sync. -/
def laneOf (opc : Nat) : Nat :=
  if opc = 0 ∨ opc = 1 ∨ opc = 2 then 0 else if 8 ≤ opc ∧ opc ≤ 11 then 1 else 2

/-- Reserved operation codes (R422). -/
def opcReserved (opc : Nat) : Bool := opc == 7 || opc == 12 || opc == 13 || opc == 14

/-- The flits of a packet: 52 payload bytes each, at least one flit. -/
def packetFlits (opc ch : Nat) (dest src : BitVec 12) (data : List Byte) : List Flit :=
  let n := max 1 ((data.length + 51) / 52)
  (List.range n).map fun i =>
    mkFlit opc ch dest src (i == 0) (i + 1 == n) ((data.drop (52 * i)).take 52)

/-! State of ports and channels. -/

def PortSt.init : PortSt := ⟨.disabled, 0, none, none, false⟩

/-- A channel after reset: nothing sent, nothing accepted (LSEQ starts from 0, R428), full credits (R431). -/
def ChanSt.init : ChanSt := ⟨.live, false, false, 0, 1023, [], [32, 32, 32, 32, 32, 32], [], []⟩

def State.port (s : State) (p : Nat) : PortSt := NMap.get PortSt.init s.fab.ports p

def State.setPort (s : State) (p : Nat) (v : PortSt) : State :=
  { s with fab := { s.fab with ports := NMap.set PortSt.init s.fab.ports p v } }

def State.chan (s : State) (p c : Nat) : ChanSt := NMap.get ChanSt.init s.fab.chans (4 * p + c)

def State.setChan (s : State) (p c : Nat) (v : ChanSt) : State :=
  { s with fab := { s.fab with chans := NMap.set ChanSt.init s.fab.chans (4 * p + c) v } }

def State.waiting (s : State) (p cls : Nat) : List Flit := NMap.get [] s.fab.waitq (4 * p + cls)

def State.setWaiting (s : State) (p cls : Nat) (l : List Flit) : State :=
  { s with fab := { s.fab with waitq := NMap.set [] s.fab.waitq (4 * p + cls) l } }

/-- Route-table entry of a destination (R438): PRIMARY, ALT, P_VALID, A_VALID. -/
def State.route (s : State) (d : BitVec 12) : BitVec 10 := NMap.get 0 s.fab.routes d.toNat

/-- This core's id. -/
def State.coreId (s : State) : BitVec 12 := (s.reg R.fabCoreId).setWidth 12

/-- A port's link is up. -/
def State.portUp (s : State) (p : Nat) : Bool := decide (p < s.build.ports) && (s.port p).state == .up

def State.portDim (s : State) (p : Nat) : Nat := s.regF (R.fabPortCfg p) 0 2
def State.portDir (s : State) (p : Nat) : Nat := s.regF (R.fabPortCfg p) 2 1
def State.portWrap (s : State) (p : Nat) : Bool := s.regB (R.fabPortCfg p) 3
def State.portEn (s : State) (p : Nat) : Bool := s.regB (R.fabPortCfg p) 4

/-- The channel that carries a class: the class's own, or the next one not retired (R419). -/
def State.carrier (s : State) (p cls : Nat) : Option Nat :=
  ([0, 1, 2, 3].map fun k => (cls + k) % 4).find? fun c => (s.chan p c).state == .live || (s.chan p c).state == .retraining

/-- A class waits for a handover that has not ended (R434). -/
def State.classHeld (s : State) (p cls : Nat) : Bool :=
  [0, 1, 2, 3].any fun c => (s.chan p c).handing.contains cls

/-- Index of a flit's lane and VC among the credits. -/
def Flit.lv (f : Flit) : Nat := 2 * laneOf f.opc + f.vc

/-- Sends one flit of a class on its channel, when the channel is live, no handover holds the class, the replay buffer
has room and a credit is held (R428, R431). -/
def State.txTry (s : State) (p cls : Nat) (f : Flit) : Option State :=
  match s.carrier p cls with
  | none => none
  | some c =>
    let ch := s.chan p c
    if ch.state ≠ .live ∨ s.classHeld p cls ∨ 256 ≤ ch.replay.length ∨ listGet 0 ch.credits f.lv = 0
        ∨ s.portUp p = false then none
    else
      let f := (f.setF 32 10 ch.tx.toNat).seal
      let s := s.setChan p c { ch with tx := ch.tx + 1, replay := ch.replay ++ [f],
                                       credits := listSet ch.credits f.lv (listGet 0 ch.credits f.lv - 1) }
      some ((s.countMod (R.fabChFlits p c) 1).emit (.flit p c f))

/-- Waiting flits of a class leave while they can, in order. -/
def State.pumpClass (s : State) (p cls : Nat) : State :=
  iterWhile (s.waiting p cls).length (fun s => match s.waiting p cls with
    | [] => none
    | f :: rest => (s.txTry p cls f).map fun s => s.setWaiting p cls rest) s

/-- All classes of a port. -/
def State.pump (s : State) (p : Nat) : State := iter 4 (fun c s => s.pumpClass p c) s

/-- A flit handed to a port: behind those of its class that wait. -/
def State.toPort (s : State) (p : Nat) (f : Flit) : State :=
  (s.setWaiting p f.ch (s.waiting p f.ch ++ [f])).pumpClass p f.ch

/-! The router. -/

/-- Where the router sends a flit (R438, R439): the local port, or an output port with the ALT bit it carries on. -/
inductive Hop where
  | loc | out (p : Nat) (alt : Bool) | drop
  deriving DecidableEq, Repr

/-- The port of the same DIM and the opposite DIR to input port `p` (R439). -/
def State.straight (s : State) (p : Nat) : Option Nat :=
  (List.range s.build.ports).find? fun q => q != p && s.portEn q && s.portDim q == s.portDim p && s.portDir q != s.portDir p

/-- Primary, else alternate (R438), for a flit not bound to go straight on. -/
def State.tableHop (s : State) (d : BitVec 12) : Hop :=
  let r := s.route d
  let pri := fieldN r 0 4
  let alt := fieldN r 4 4
  if bit r 8 ∧ s.portUp pri then .out pri false
  else if bit r 9 ∧ s.portUp alt then .out alt (s.portDim alt == s.portDim pri)
  else .drop

/-- R438 to R440 for a flit that came in by `inp` (none: injected here). -/
def State.hop (s : State) (inp : Option Nat) (f : Flit) : Hop :=
  if f.dest = s.coreId then .loc
  else match inp with
  | some p =>
    if f.alt ∧ s.portDim (fieldN (s.route f.dest) 0 4) = s.portDim p then
      match s.straight p with
      | some q => if s.portUp q then .out q true else .drop
      | none => .drop
    else s.tableHop f.dest
  | none => s.tableHop f.dest

/-- Key of a packet being put together. -/
def partKey (src : BitVec 12) (ch lane : Nat) : Nat := src.toNat * 16 + ch * 4 + lane

/-- A LINK flit on a channel (R429): not numbered, not replayed. -/
def State.sendLink (s : State) (p c : Nat) (bytes : List Byte) : State :=
  s.emit (.flit p c (mkFlit 0xF 0 0 s.coreId true true bytes).seal)

/-- Credits for flits that have left an input buffer go back with an ACK (R429, R431). -/
def State.sendAck (s : State) (p c : Nat) (credits : List Nat) : State :=
  s.sendLink p c ([1#8, 0#8] ++ bytesOf 2 (s.chan p c).rx.toNat
    ++ (List.range 6).map fun i => BitVec.ofNat 8 (listGet 0 credits i))

/-- A packet the local port takes: the credits of its flits return to the channels they came by. -/
def State.returnOwed (s : State) (pk : Packet) : State :=
  (pk.owed.map (·.1)).eraseDups.foldl (fun s k =>
    let cr := (List.range 6).map fun i => (pk.owed.filter fun e => e.1 == k && e.2 == i).length
    s.sendAck (k / 4) (k % 4) cr) s

/-- An exchange operation whose KIND is reserved (R394). -/
def Packet.exReserved (p : Packet) : Bool :=
  let k := numOf ((p.data.drop 11).take 1) / 16
  (p.opc == 2 || p.opc == 6 || p.opc == 0xA) && (k == 6 || k == 7 || decide (11 ≤ k))

/-- A flit at the local port: its packet grows, and at its last flit joins `localIn` (R422, R436), or is dropped with a
reserved KIND (R394). -/
def State.eject (s : State) (from_ : Option Nat) (f : Flit) : State :=
  let k := partKey f.src f.ch (laneOf f.opc)
  let old : Packet := if f.sop then ⟨f.opc, f.ch, f.src, [], []⟩ else NMap.get default s.fab.partials k
  let pk := { old with data := old.data ++ f.payload,
                       owed := old.owed ++ (match from_ with | some c => [(c, f.lv)] | none => []) }
  if f.eop then
    let s := { s with fab := { s.fab with partials := NMap.del s.fab.partials k } }
    if pk.exReserved then (s.count R.exchStray 1).returnOwed pk
    else { s with fab := { s.fab with localIn := s.fab.localIn ++ [pk] } }
  else { s with fab := { s.fab with partials := NMap.put s.fab.partials k pk } }

/-- The TAG or SEQ an UNREACHABLE names (R422): the TAG of a WRITE or READ at bytes 4–5, of a POST at bytes 0–1, the SEQ
of an exchange request at bytes 4–7. -/
def lostKey (f : Flit) : Nat :=
  let b := f.payload
  if f.opc ≤ 1 then numOf ((b.drop 4).take 2)
  else if f.opc = 2 then numOf ((b.drop 4).take 4)
  else if f.opc = 3 then numOf (b.take 2) else 0

/-- A flit leaves the router by a port, with `vc` unless the port closes its ring, and one more hop (R437, R438). -/
def State.routeOut (s : State) (p vc : Nat) (alt : Bool) (f : Flit) : State :=
  s.toPort p (((f.setF 6 1 (if s.portWrap p then 1 else vc)).setF 7 1 (if alt then 1 else 0)).setF 52 12 (f.hops + 1))

/-- One flit through the router, without the answer of R440: whether it was dropped. -/
def State.forward (s : State) (inp : Option (Nat × Nat)) (f : Flit) : Bool × State :=
  if opcReserved f.opc then (false, s.count R.fabStray 1)
  else match s.hop (inp.map (·.1)) f with
  | .loc => (false, s.eject (inp.map fun pc => 4 * pc.1 + pc.2) f)
  | .drop => (true, s.count R.fabNoroute 1)
  | .out p alt =>
    if f.hops = s.regF R.fabCtrl 0 12 then (true, s.count R.fabNoroute 1)
    else
      let vc := match inp with
        | some (q, _) => if s.portDim q = s.portDim p then f.vc else 0
        | none => 0
      (false, s.routeOut p vc alt f)

/-- One flit through the router with the answer of R440: an UNREACHABLE to the source of a dropped request or sync flit.
The first flit of a packet carries the TAG or SEQ, so it alone is answered (DEDUCED, log entry 8). -/
def State.routeFlit (s : State) (inp : Option (Nat × Nat)) (f : Flit) : State :=
  let r := s.forward inp f
  if r.1 ∧ laneOf f.opc ≠ 1 ∧ f.sop then
    let s := r.2.logRecord (FaultRec.plain 1 unitFabric Code.fabHopDrop.num f.dest.toNat 6)
    let ans := mkFlit 0xB f.ch f.src s.coreId true true (bytesOf 4 (lostKey f) ++ bytesOf 1 f.opc)
    (s.forward none ans).2
  else r.2

/-- A packet leaves the core. -/
def State.sendPacket (s : State) (dest : BitVec 12) (opc ch : Nat) (data : List Byte) : State :=
  (packetFlits opc ch dest s.coreId data).foldl (fun s f => s.routeFlit none f) s

/-- The local port takes the first waiting packet that equals a command's, if there is one; an operation commanded
without its packet stands for one whose flits were not given (log entry 9). -/
def State.takeLocal (s : State) (p : Packet → Bool) : State :=
  match findIdx? p s.fab.localIn with
  | none => s
  | some i =>
    let pk := listGet default s.fab.localIn i
    ({ s with fab := { s.fab with localIn := listDrop1 s.fab.localIn i } }).returnOwed pk

/-- The next remote tag. -/
def State.newTag (s : State) : Nat × State := (s.nextTag % 65536, { s with nextTag := s.nextTag + 1 })

/-- A POST packet (R422). -/
def State.sendPost (s : State) (dst : BitVec 12) (tag counter : Nat) (delta : BitVec 12) : State :=
  s.sendPacket dst 3 0 (bytesOf 2 tag ++ [BitVec.ofNat 8 counter, 0#8] ++ bytesOf 2 delta.toNat)

end Sys2Proof.Machine
end

