-- ==== Sys2Proof/Machine/Engine.lean ====
section
/-! DEFINITION. What every engine does with the cues of its queue (R292, R293, R296, R319): heads, halts by an engine, the
end of a unit's share of the work. -/

namespace Sys2Proof.Machine

/-- Engines move: start-up is over and the core is neither frozen (R519) nor past Entering (R495). -/
def State.enginesRun (s : State) : Bool := s.phase == .up && !s.frozen && decide (s.pstate ≤ 2)

/-- A soft reset runs (R493). -/
def State.softBusy (s : State) : Bool := s.regB R.rstStatus 0

/-- The cue at the head of an engine's queue. -/
def State.head (s : State) (e : Nat) : Option Flight := (s.queue e).head?.bind s.flight

/-- A queued cue may start: its line is neither HALTED (R296) nor RESETTING (R325), and no soft reset runs. -/
def State.mayStart (s : State) (f : Flight) : Bool :=
  s.enginesRun && !s.softBusy && !(s.line f.q.line).halted && !(s.line f.q.line).resetting

/-- The head of a queue that may start. -/
def State.startable (s : State) (e : Nat) : Option Flight := (s.head e).filter s.mayStart

/-- A uid leaves every queue. -/
def State.unqueue (s : State) (uid : Nat) : State :=
  { s with queues := (s.queues.map fun (k, l) => (k, l.filter (· != uid))).filter fun (_, l) => !l.isEmpty }

/-- A uid leaves one queue. -/
def State.unqueueAt (s : State) (e uid : Nat) : State := s.setQueue e ((s.queue e).filter (· != uid))

/-- A cue leaves the cues in flight; its line has made progress (R353). -/
def State.dropFlight (s : State) (uid : Nat) : State :=
  { s with flights := s.flights.filter (·.q.uid != uid) }

/-- A cue that its engine halts on has left its queues, is not run and makes no posts (R319, R547). -/
def State.engineHalt (s : State) (uid engine : Nat) (code : Code) : State := match s.flight uid with
  | none => s
  | some f => ((s.unqueue uid).dropFlight uid).halt f.q.line code engine false f.q.haltCue

/-- The least of the reasons found at one moment (R320). -/
def leastCode (l : List Code) : Option Code :=
  l.foldl (fun a c => match a with
    | none => some c
    | some b => if c.num < b.num then some c else some b) none

/-- A cue starts: it stays in its queue or leaves it as its engine keeps it. -/
def State.startFlight (s : State) (uid : Nat) : State := s.updFlight uid fun f => { f with stage := .started }

/-- One unit of a cue's gang has finished; the last one finishes the cue (R293). -/
def State.unitDone (s : State) (uid : Nat) : State :=
  s.updFlight uid fun f => if f.units ≤ 1 then { f with units := 0, stage := .finished } else { f with units := f.units - 1 }

/-- A cue has done all its work. -/
def State.finishFlight (s : State) (uid : Nat) : State :=
  s.updFlight uid fun f => { f with units := 0, stage := .finished }

/-- The engine of a cue as its halt record names it. -/
def Flight.opcode (f : Flight) : Nat := f.q.cue.opcode

end Sys2Proof.Machine
end

