-- ==== Sys2Proof/Machine/Lines.lean ====
section
/-! DEFINITION. The Prompter (07 R271 to R325) and the curtain calls (08 R343 to R351): what a turn does. -/

namespace Sys2Proof.Machine

/-! Opcodes and engines (R277, R278). -/

/-- Opcodes some chapter assigns (R277, R89, R138, R172, R222, R263, R410). -/
def opAssigned (op : Nat) : Bool :=
  decide (op ≤ 8) || (decide (0x10 ≤ op) && decide (op ≤ 0x12)) || (decide (0x20 ≤ op) && decide (op ≤ 0x23))
    || (decide (0x30 ≤ op) && decide (op ≤ 0x32)) || (decide (0x38 ≤ op) && decide (op ≤ 0x3D)) || op == 0x40
    || (decide (0x50 ≤ op) && decide (op ≤ 0x53)) || (decide (0x60 ≤ op) && decide (op ≤ 0x65)) || op == 0x70

/-- Whether ENGINE is one the table of R277 gives for the opcode. -/
def engineFits (op e : Nat) : Bool :=
  if op = 4 then e == 0x23
  else if op = 6 then e == 0x22
  else if op ≤ 8 ∨ op = 0x70 then e == 0
  else if op < 0x20 then e == 1
  else if op < 0x40 then decide (0x08 ≤ e) && decide (e ≤ 0x0F)
  else if op < 0x50 then decide (0x10 ≤ e) && decide (e ≤ 0x1F)
  else if op < 0x60 then e == 0x20
  else e == 0x21

/-- Cues that run on a gang of chorus units (R101, R173, R174). -/
def isGang (op : Nat) : Bool := op == 0x20 || (decide (0x30 ≤ op) && decide (op ≤ 0x3D))

/-- Lowest set bit of a unit mask. -/
def lowBit (m : Nat) : Option Nat := (List.range 8).find? fun i => m.testBit i

/-- ARR_PARTITION as two lines under HALVES: LINE_A and LINE_B (R84). -/
def State.halves (s : State) : Option (Nat × Nat) :=
  if s.arr.split then some (s.arr.lineA, s.arr.lineB) else none

/-- Array queue of a line: 0x01, or 0x02 for LINE_B under HALVES (R84, R85). -/
def State.arrQueue (s : State) (l : Line) : Nat := match s.halves with
  | some (_, b) => if l.idx = b then 2 else 1
  | none => 1

/-- Queues a cue enters (R278, R101, R142, R143, R404). -/
def State.cueQueues (s : State) (l : Line) (c : Cue) : List Nat :=
  let op := c.opcode
  if 0x10 ≤ op ∧ op ≤ 0x12 then [s.arrQueue l]
  else if isGang op then
    ((List.range c.gang).map (c.engine + ·)).filter fun q => decide (q < 8 + s.build.units)
  else if op = 0x21 then ((List.range 8).filter c.cpMask.testBit).map (8 + ·)
  else if op = 0x22 then
    let l := ((List.range 8).filter c.ccfMask.testBit).map (8 + ·)
    if l.isEmpty then [c.engine] else l
  else if op = 0x52 ∧ c.xCheckUnit < s.build.units then [0x20, 8 + c.xCheckUnit]
  else [c.engine]

/-- Step 5 of R287: the engine fits the opcode; HALVES admits only its two lines (R85); `CHO_PROG_LOAD` names its lowest
unit (R142). -/
def State.engineCheck (s : State) (l : Line) (c : Cue) : Bool :=
  let op := c.opcode
  engineFits op c.engine
    && (if 0x10 ≤ op ∧ op ≤ 0x12 then (match s.halves with
        | some (a, b) => l.idx == a || l.idx == b
        | none => true) else true)
    && (if op = 0x21 then lowBit c.cpMask == some (c.engine - 8) else true)

/-- Step 6 of R287: the engine and the optional units a cue names are present (R6, R99, R101, R142, R143, R180, R411,
R538). -/
def State.unitCheck (s : State) (c : Cue) : Bool :=
  let op := c.opcode
  let b := s.build
  let masked (m : Nat) : Bool := (List.range 8).all fun i => !m.testBit i || decide (i < b.units)
  if op = 0x10 then b.distCmp || c.afOp == 0
  else if isGang op then
    decide (c.engine - 8 + c.gang ≤ b.units) && (b.scan || !(op == 0x32 || op == 0x3C || op == 0x3D))
  else if op = 0x21 then decide (c.engine - 8 < b.units) && masked c.cpMask
  else if op = 0x22 then decide (c.engine - 8 < b.units) && masked c.ccfMask
  else if op = 0x23 then decide (c.engine - 8 < b.units)
  else if op = 0x40 then decide (c.engine - 16 < b.flies)
  else if op = 0x52 then decide (c.xCheckUnit < b.units)
  else if op = 0x64 then b.mirror
  else if op = 4 then decide (b.repBytes ≠ 0)
  else true

/-- Whether the body names a remote partner (R276). -/
def namesPartner (c : Cue) : Bool :=
  (c.opcode == 0x40 && (c.fSrcKind == 2 || c.fDstKind == 2)) || (decide (0x50 ≤ c.opcode) && decide (c.opcode ≤ 0x53))

/-- Step 8 of R287 (R275, R276). -/
def wordCheck (c : Cue) : Option Code :=
  if c.waits.any (fun w => decide (79 < wordIndex w)) ∨ c.posts.any (fun w => decide (63 < wordIndex w)) then
    some .counterIndex
  else if c.posts.any postRemote ∧ namesPartner c = false then some .postRemote
  else none

/-- A directory entry of the repertoire store (R306): START, CUES, U_OK, M_OK of the first VALID entry with the id,
none when it passes the end of the store. An entry with a word that cannot be corrected is not used (DESIGN CHOICE, log
entry 26). -/
def State.routineEntry (s : State) (id : Nat) : Option (Nat × Nat × Bool × Bool) :=
  match (List.range 64).find? (fun i =>
      let w := s.repWord (8 * i)
      !s.repRotten (8 * i) && !s.repRotten (8 * i + 4) && bit w 8 && fieldN w 0 8 == id) with
  | none => none
  | some i =>
    let w := s.repWord (8 * i)
    let v := s.repWord (8 * i + 4)
    let start := fieldN v 0 16
    let n := fieldN v 16 16
    if n = 0 ∨ s.build.repBytes < (start + n) * 128 then none else some (start, n, bit w 9, bit w 10)

/-- Where a head cue stands: position, loop stack, the place of a skipped loop's end, the routine, the fetcher. -/
structure Ctx where
  line    : Line
  pos     : BitVec 32
  loops   : List LoopLevel
  skipEnd : Option (BitVec 32)
  routine : Option Routine
  fetcher : Option Nat
  deriving DecidableEq, Repr

def State.lineCtx (s : State) (l : Line) : Ctx :=
  let ln := s.line l
  ⟨l, match ln.routine with | some r => BitVec.ofNat 32 r.pos | none => ln.head, ln.loops, ln.skipEnd, ln.routine, none⟩

/-- The place of a cue violates a row of R301: a `LOOP_END` that matches nothing, another cue where one must stand, or the
last cue of a routine with a level that stays open. -/
def Ctx.endBad (x : Ctx) (op : Nat) : Bool :=
  let last : Bool := match x.routine with | some r => r.pos + 1 == r.cues | none => false
  if op = 3 then
    match x.skipEnd, x.loops with
    | some p, ls => p != x.pos || (last && ls != [])
    | none, [] => true
    | none, lv :: rest => lv.endPos != x.pos || (last && rest != [])
  else x.skipEnd.isSome || (match x.loops with | lv :: _ => lv.endPos == x.pos | [] => false) || (last && x.loops != [])

/-- Step 9 of R287: loops (R299, R301) and routines (R305, R310); of several reasons the lowest (R320). -/
def State.controlCheck (s : State) (x : Ctx) (c : Cue) : Option Code :=
  let op := c.opcode
  let limit : Bool := match x.routine with
    | some r => decide (r.pos + c.endOffset < r.cues)
    | none => decide (c.endOffset < s.ringSlots x.line)
  let entry := s.routineEntry c.routineId
  let allowed : Bool := match entry with
    | some (_, _, u, m) => (x.line == .u && u) || (x.line == .m && m)
    | none => x.line == .u || x.line == .m
  leastCode ((if x.endBad op then [Code.loopEnd] else [])
    ++ (if op = 2 ∧ 4 ≤ x.loops.length then [.loopNest] else [])
    ++ (if op = 2 ∧ (c.endOffset = 0 ∨ limit = false) then [.loopEnd] else [])
    ++ (if op = 4 ∧ allowed = false then [.routineNotPrivileged] else [])
    ++ (if op = 4 ∧ entry.isNone then [.routineAbsent] else [])
    ++ (if op = 4 ∧ x.routine.isSome then [.routineNested] else []))

/-- Selector of a loop step (R302, R303). -/
def Ctx.sel (x : Ctx) (k : Nat) : Nat :=
  if k ≤ 3 then (match x.loops[k]? with | some lv => lv.idx.toNat | none => 0)
  else if 8 ≤ k then (match x.routine with | some r => (listGet 0 r.args (k - 8)).toNat | none => 0)
  else 0

/-- R314: what a split list of engine `e` may hold: a cue of its own engine, without a gang, that enters that engine's
queue alone (the array complex may keep two). -/
def splitFits (e : Nat) (c : Cue) (queues : List Nat) : Bool :=
  let op := c.opcode
  if op ≤ 3 ∨ op = 5 ∨ op = 7 ∨ op = 8 then true
  else c.engine == e && (e == 1 || queues == [e]) && !(isGang op && decide (1 < c.gang)) && op != 4 && op != 0x70

/-- Steps 3 to 9 of R287: the failing code, or the cue as stepped. -/
def State.checkCue (s : State) (x : Ctx) (c : Cue) : Code ⊕ Cue :=
  if c.version ≠ 1 then .inl .badVersion
  else if opAssigned c.opcode = false then .inl .unknownOpcode
  else if (!s.engineCheck x.line c || (match x.fetcher with
      | some e => !splitFits e c (s.cueQueues x.line c) | none => false)) then .inl .engineMismatch
  else if s.unitCheck c = false then .inl .unitAbsent
  else if (List.range 4).any (fun i => stepBad (c.stepWord i)) then .inl .loopStep
  else
    let c' := applySteps c x.sel
    match wordCheck c' with
    | some r => .inl r
    | none => match s.controlCheck x c' with
      | some r => .inl r
      | none => .inr c'

/-- Step 2 of R287 (R317): the break that fires on a cue; one that has halted the cue does not fire on it again (R319). -/
def State.breakHit (s : State) (l : Line) (split countSpent tagSpent : Bool) (num : BitVec 48) (epoch : BitVec 16) (c : Cue) :
    Option Code :=
  let i := l.idx
  let ctrl := s.reg (R.lineBrkCtrl i)
  let mask := s.reg (R.lineBrkMask i)
  if bit ctrl 0 ∧ split = false ∧ countSpent = false ∧ s.reg (R.lineBrkCountLo i) = num.setWidth 32
      ∧ s.reg (R.lineBrkCountHi i) = at32 0 (num.toNat / 2 ^ 32) ||| at32 16 epoch.toNat then some .breakCount
  else if bit ctrl 1 ∧ tagSpent = false ∧ (bit ctrl 2 = false ∨ c.brkFlag) ∧ c.tag &&& mask = s.reg (R.lineBrkTag i) &&& mask then
    some .breakTag
  else none

/-! Fetch. -/

/-- What stands at a line's head: nothing, a cue that cannot be fetched, or a cue (R286). -/
inductive Fetched where
  | nothing | bad (r : Code) | cue (c : Cue)
  deriving DecidableEq, Repr

/-- A cue of the ring: two bank words (R286), in a frame that R248 lets a local address name. -/
def State.ringCue (s : State) (l : Line) (p : BitVec 32) : Fetched × State :=
  let a := s.ringAddr l p
  if s.localOk a = false then (.bad .localAddr, s.count R.propLocalRefused 1)
  else
    let r1 := s.readWord (a / 64)
    let r2 := r1.2.readWord (a / 64 + 1)
    (if r1.1.2 || r2.1.2 then .bad .uncorrectableCue else .cue (BitVec.ofNat 1024 (numOf (r1.1.1 ++ r2.1.1))), r2.2)

/-- The head of a line; a loop may have moved HEAD past the cues committed so far, and the line then waits for them
(R299, DEDUCED, log entry 14). -/
def State.fetchHead (s : State) (l : Line) : Fetched × State :=
  let ln := s.line l
  match ln.routine with
  | some r =>
    (if (List.range 32).any fun i => s.repRotten (128 * (r.start + r.pos) + 4 * i) then .bad .uncorrectableCue
      else .cue (s.storeCue (r.start + r.pos)), s)
  | none => if (ln.tail - ln.head).toInt ≤ 0 then (.nothing, s) else s.ringCue l ln.head

/-! Waits and stalls. -/

/-- Step 10: every valid wait met (R275). -/
def State.waitsMet (s : State) (c : Cue) : Bool := c.waits.all s.waitMet

/-- Cues of the line, or of the split list, dispatched and not completed; the `CALL_ROUTINE` a routine's cue runs under
is not before it (DEDUCED, log entry 10). -/
def State.busyBefore (s : State) (x : Ctx) : Bool :=
  s.flights.any fun f => match x.fetcher with
    | some e => f.fetcher == some e
    | none => f.q.line == x.line && (match x.routine with | some r => f.q.uid != r.uid | none => true)

/-- Writes of the line, or of the split list's engine, that have not landed (R335). -/
def State.unlandedBefore (s : State) (x : Ctx) : Bool :=
  s.mem.wq.any fun w => match x.fetcher with
    | some e => w.engine == e
    | none => w.uid % 4 == x.line.idx

/-- Remote posts of the line, or of the split list's engine, without their answer (R335). -/
def State.postsBefore (s : State) (x : Ctx) : Bool :=
  s.fab.rops.any fun r => r.kind == .post && (match x.fetcher with
    | some e => r.q.cue.engine == e
    | none => r.line == x.line)

/-- R335: what a `FENCE` waits for. -/
def State.fenceOpen (s : State) (x : Ctx) : Bool := !s.busyBefore x && !s.unlandedBefore x && !s.postsBefore x

/-- Step 11 (R288): the stall that holds the head cue, by its LINE_STATUS.STALL code; 0 none. -/
def State.stallOf (s : State) (x : Ctx) (c : Cue) : Nat :=
  let op := c.opcode
  let qs := if op ≤ 5 ∨ op = 7 ∨ op = 8 ∨ op = 0x70 then [] else s.cueQueues x.line c
  if qs.any (fun q => decide (16 ≤ (s.queue q).length)) then 1
  else if (op = 1 ∨ op = 7 ∨ op = 0x70) ∧ s.fenceOpen x = false then 2
  else if op = 0x70 ∧ (s.tree c.ccIndex).pending then 2
  else if c.layer ∧ s.flights.any (fun f => f.q.cue.opcode == 0x40 && (match x.fetcher with
      | some e => f.fetcher == some e | none => f.q.line == x.line)) then 3
  else if s.flights.any (fun f => f.q.cue.opcode == 0x12 && f.q.line == x.line) then 4
  else 0

/-- What a line's turn would find. -/
inductive Turn where
  /-- no turn wanted -/
  | idle
  /-- a check fails: reason, engine recorded, whether the fetch failed, the cue -/
  | fail (r : Code) (fetch : Bool) (c : Cue)
  | waits (c : Cue)
  | stalls (n : Nat) (c : Cue)
  | go (c : Cue)
  /-- the head cue is discarded (R291, R319) -/
  | skip
  deriving DecidableEq, Repr

/-- Steps 10 and 11 on a cue that has passed steps 1 to 9. -/
def State.lateSteps (s : State) (x : Ctx) (c : Cue) : Turn :=
  if s.waitsMet c = false then .waits c
  else match s.stallOf x c with
    | 0 => .go c
    | n => .stalls n c

/-- Steps 1 to 11 of R287 for a line. -/
def State.turnOf (s : State) (l : Line) : Turn :=
  let ln := s.line l
  let x := s.lineCtx l
  if ln.enabled = false ∨ ln.halted ∨ ln.resetting then .idle
  else if ln.skip then .skip
  else match ln.taken with
  | some c => s.lateSteps x c
  | none => match (s.fetchHead l).1 with
    | .nothing => .idle
    | .bad r => .fail r true 0
    | .cue c => match s.breakHit l false ln.countSpent ln.tagSpent ln.count ln.epoch c with
      | some r => .fail r false c
      | none => match s.checkCue x c with
        | .inl r => .fail r false c
        | .inr c' => s.lateSteps x c'

/-- Steps 1 to 9 run once: a head cue that has passed them is kept as taken (R287). They are run for every line when the
Prompter has a turn (DEDUCED, log entry 33). -/
def State.takeHeads (s : State) : State :=
  allLines.foldl (fun s l =>
    if (s.line l).taken.isSome then s
    else match s.turnOf l with
      | .waits c | .stalls _ c | .go c =>
        let s := (s.fetchHead l).2
        s.setLine l { s.line l with taken := some c }
      | _ => s) s

/-- The line that slot `i` of the weave names (R289). -/
def State.weave (s : State) (i : Nat) : Line :=
  let w := if i < 16 then s.reg R.lineWeaveLo else s.reg R.lineWeaveHi
  Line.ofIdx (fieldN w (2 * (i % 16)) 2)

/-- A line that would use a turn: a ready cue, a check that fails (R289), or a cue to discard (R291). -/
def State.wantsTurn (s : State) (l : Line) : Bool := match s.turnOf l with
  | .fail _ _ _ => true
  | .go _ => true
  | .skip => true
  | _ => false

/-- choose of R289: the line and the new pointer. -/
def State.choose (s : State) : Option (Line × Nat) :=
  let ptr := s.regF R.lineWeavePtr 0 5
  match ((List.range 32).map fun k => (ptr + k) % 32).find? (fun i => s.wantsTurn (s.weave i)) with
  | some i => some (s.weave i, (i + 1) % 32)
  | none =>
    (allLines.find? fun l => !(List.range 32).any (fun i => s.weave i == l) && s.wantsTurn l).map (·, ptr)

/-! Dispatch. -/

/-- Local posts of a cue, in order, in one step (R332). -/
def State.localPosts (s : State) (c : Cue) : State :=
  c.posts.foldl (fun s w => if postRemote w then s else s.post (wordIndex w) (postDelta w).toInt) s

/-- Watchdog count of a line back to 0 (R353). -/
def State.progress (s : State) (l : Line) : State := s.setReg (R.callWdogAge l.idx) 0

/-- A line match (R514). -/
def State.lineMatch (s : State) (l : Line) (num : BitVec 48) (epoch : BitVec 16) (c : Cue) : Bool :=
  let ctrl := s.reg R.tabMatchCtrl
  let mask := s.reg R.tabMatchMask
  fieldN ctrl 2 2 == l.idx &&
    ((bit ctrl 0 && s.reg R.tabMatchCountLo == num.setWidth 32
        && s.reg R.tabMatchCountHi == (at32 0 (num.toNat / 2 ^ 32) ||| at32 16 epoch.toNat))
      || (bit ctrl 1 && (!bit ctrl 4 || c.brkFlag) && (c.tag &&& mask) == (s.reg R.tabMatchTag &&& mask)))

/-- The triggers of a dispatch (R513). -/
def State.dispatchTriggers (s : State) (q : QCue) : State :=
  let s := if q.cue.tabFlag ∧ s.regB R.tabCtrl 4 then s.trigger 1 (q.cue.tag.setWidth 16) else s
  if s.lineMatch q.line q.num q.epoch q.cue then s.trigger 3 (q.cue.tag.setWidth 16) else s

/-- A cue takes its line's next number (R316), step number (R35), place (R292) and scales (R41). -/
def State.number (s : State) (l : Line) (c : Cue) : QCue × State :=
  let ln := s.line l
  let p := s.headPlace l
  let k := s.issueScale c
  let q : QCue := ⟨4 * s.nextUid + l.idx, l, c, ln.count, ln.epoch, s.stepNum l, p.1, p.2, k.1, k.2.1, k.2.2⟩
  let cnt := ln.count + 1
  let ln := { ln with count := cnt, epoch := if cnt = 0 then ln.epoch + 1 else ln.epoch,
                      taken := none, countSpent := false, tagSpent := false }
  (q, ({ (s.setLine l ln) with nextUid := s.nextUid + 1 }).progress l)

/-- The end of a routine: the caller's loop stack comes back and the line goes on behind `CALL_ROUTINE` (R308). -/
def LineSt.endRoutine (ln : LineSt) : LineSt := match ln.routine with
  | some r => { ln with routine := none, loops := r.saved, skipEnd := r.savedSkip }
  | none => ln

/-- The line moves to its next position. -/
def LineSt.advance (ln : LineSt) : LineSt := match ln.routine with
  | some r => if r.pos + 1 < r.cues then { ln with routine := some { r with pos := r.pos + 1 } } else ln.endRoutine
  | none => { ln with head := ln.head + 1 }

/-- The line moves to position `p` of its ring, or of its routine; past the last cue the routine ends. -/
def LineSt.goto (ln : LineSt) (p : BitVec 32) : LineSt := match ln.routine with
  | some r => if p.toNat < r.cues then { ln with routine := some { r with pos := p.toNat } } else ln.endRoutine
  | none => { ln with head := p }

def State.updLine (s : State) (l : Line) (f : LineSt → LineSt) : State := s.setLine l (f (s.line l))

/-- The parent of a cue dispatched inside a routine. -/
def State.parentOf (s : State) (l : Line) : Option Nat := (s.line l).routine.map (·.uid)

/-- A cue joins the cues in flight and its queues (R292). -/
def State.enqueue (s : State) (q : QCue) (parent fetcher : Option Nat) (qs : List Nat) : State :=
  let s := { s with flights := s.flights ++ [⟨q, .queued, qs.length, false, parent, fetcher, none⟩] }
  qs.foldl (fun s e => s.setQueue e (s.queue e ++ [q.uid])) s

/-- `LOOP_BEGIN` (R297 to R299): the count is latched; with count 0 no level opens and the line goes to the
`LOOP_END`. -/
def loopBeginAct (s : State) (x : Ctx) (c : Cue) : List LoopLevel × Option (BitVec 32) × BitVec 32 :=
  let n := s.reg (R.lineLoop x.line.idx c.loopReg)
  let e := x.pos + BitVec.ofNat 32 c.endOffset
  if n = 0 then (x.loops, some e, e) else (⟨x.pos, e, n, 0⟩ :: x.loops, x.skipEnd, x.pos + 1)

/-- `LOOP_END` (R299, R300). -/
def loopEndAct (x : Ctx) : List LoopLevel × Option (BitVec 32) × BitVec 32 :=
  match x.skipEnd, x.loops with
  | some _, ls => (ls, none, x.pos + 1)
  | none, [] => ([], none, x.pos + 1)
  | none, lv :: rest =>
    let i := lv.idx + 1
    if i.toNat < lv.count.toNat then ({ lv with idx := i } :: rest, none, lv.beginPos + 1) else (rest, none, x.pos + 1)

/-- `SET_LOOP` (R322). -/
def State.setLoopAct (s : State) (l : Line) (c : Cue) : State :=
  let r := R.lineLoop l.idx c.loopReg
  s.setReg r (if c.loopAdd then s.reg r + c.loopValue else c.loopValue)

/-! Curtain calls. -/

/-- CALL_CC_CFG fields (R343). -/
def State.ccEn (s : State) (k : Nat) : Bool := s.regB (R.callCcCfg k) 0
def State.ccLine (s : State) (k : Nat) : Nat := s.regF (R.callCcCfg k) 1 2
def State.ccRoot (s : State) (k : Nat) : Bool := s.regB (R.callCcCfg k) 3
def State.ccKids (s : State) (k : Nat) : Nat := s.regF (R.callCcCfg k) 4 5
def State.ccParent (s : State) (k : Nat) : BitVec 12 := BitVec.ofNat 12 (s.regF (R.callCcCfg k) 16 12)

/-- Counters a realignment lists, in index order (R348, R422). -/
def Align.listed (a : Align) : List Nat :=
  ((List.range 64).filter fun i => a.maskCall.getLsbD i) ++ (((List.range 16).filter fun i => a.maskCc.getLsbD i).map (64 + ·))

/-- The realignment a release carries (R348). -/
def State.applyAlign (s : State) (a : Align) : State :=
  (a.listed.zip a.values).foldl (fun s (i, v) => s.setCnt i (v.setWidth 20)) s

/-- Payload of a CURTAIN message (R422). -/
def curtainBytes (k : Nat) (release : Bool) (seq : BitVec 8) (a : Option Align) : List Byte :=
  [BitVec.ofNat 8 (k + if release then 16 else 0), seq] ++ (match a with
    | some a => bytesOf 8 a.maskCall.toNat ++ bytesOf 2 a.maskCc.toNat ++ (a.values.map (fun v => bytesOf 4 v.toNat)).flatten
    | none => if release then bytesOf 10 0 else [])

/-- A cue completes at once and makes its local posts (R293, R347). -/
def State.completeLocal (s : State) (uid : Nat) : State := match s.flight uid with
  | none => s
  | some f =>
    let s := s.dropFlight uid
    let s := if f.silent then s else s.localPosts f.q.cue
    s.progress f.q.line

/-- The five actions of a release at a node (R347). -/
def State.ccReleaseNode (s : State) (k : Nat) (a : Option Align) : State :=
  let t := s.tree k
  let s := s.ccIncrement k
  let s := match a with | some a => s.applyAlign a | none => s
  let s := s.setTree k ⟨t.seq + 1, false, none, false, false, t.early, [], none⟩
  let s := t.kids.foldl (fun s c => s.sendPacket c 4 0 (curtainBytes k true t.seq a)) s
  match t.cue with
  | some uid => s.completeLocal uid
  | none => s

/-- A pending call whose own cue has dispatched and whose children have all arrived: the arrival goes to the parent, or
the root releases (R345, R347). -/
def State.ccArrive (s : State) (k : Nat) : State :=
  let t := s.tree k
  if t.pending ∧ t.loc ∧ t.sent = false ∧ t.kids.length = s.ccKids k then
    let s := s.setTree k { t with sent := true }
    if s.ccRoot k then s.ccReleaseNode k t.align
    else s.sendPacket (s.ccParent k) 4 0 (curtainBytes k false t.seq none)
  else s

/-- R351: why a `CURTAIN_CALL` halts at dispatch; the values a root reads (R348). -/
def State.curtainCheck (s : State) (l : Line) (c : Cue) : (Code ⊕ Option Align) × State :=
  let k := c.ccIndex
  if s.ccEn k = false ∨ s.ccLine k ≠ l.idx ∨ 16 < s.ccKids k then (.inl .curtainInvalid, s)
  else if s.ccRoot k ∧ c.ccRealign then
    if c.ccValues % 64 ≠ 0 ∨ s.localRangeOk c.ccValues 320 = false then
      (.inl .localAddr, s.count R.propLocalRefused 1)
    else
      let r := s.readPlain 0 c.ccValues 320
      if r.1.2 then (.inl .uncorrectableCue, r.2)
      else
        let w (i : Nat) : BitVec 32 := BitVec.ofNat 32 (numOf ((r.1.1.drop (4 * i)).take 4))
        let a : Align := ⟨c.ccMaskCall, c.ccMaskCc, []⟩
        (.inr (some { a with values := a.listed.map w }), r.2)
  else (.inr none, s)

/-! The acts of the control cues, on a cue that has passed steps 1 to 11. -/

/-- A cue that fails a check halts its line in front of it (R287, R318). -/
def State.haltHead (s : State) (l : Line) (r : Code) (fetch : Bool) (c : Cue) : State :=
  let s := s.halt l r 0 fetch (s.headCue l c)
  s.updLine l fun ln => { ln with atPrompter := true, taken := none, countSpent := ln.countSpent || r == .breakCount
                                  tagSpent := ln.tagSpent || r == .breakTag }

/-- The cue to discard goes: no number, no posts, no loop level changes (R319). -/
def State.skipHead (s : State) (l : Line) : State :=
  let ln := s.line l
  s.setLine l { ln.advance with
    skip := false, countSpent := false, tagSpent := false
    skipEnd := if ln.skipEnd = some (s.lineCtx l).pos then none else ln.advance.skipEnd }

/-- `NOP`, and the dispatch half of `FENCE`: the posts (R293, R294). -/
def State.dispatchPlain (s : State) (l : Line) (c : Cue) : State :=
  let (q, s) := s.number l c
  let s := s.dispatchTriggers q
  let s := s.updLine l LineSt.advance
  s.localPosts c

def State.dispatchLoopBegin (s : State) (l : Line) (c : Cue) : State :=
  let x := s.lineCtx l
  let (q, s) := s.number l c
  let s := s.dispatchTriggers q
  let r := loopBeginAct s x c
  let s := s.updLine l fun ln => ({ ln with loops := r.1, skipEnd := r.2.1 }).goto r.2.2
  s.localPosts c

def State.dispatchLoopEnd (s : State) (l : Line) (c : Cue) : State :=
  let x := s.lineCtx l
  let (q, s) := s.number l c
  let s := s.dispatchTriggers q
  let r := loopEndAct x
  let s := s.updLine l fun ln => ({ ln with loops := r.1, skipEnd := r.2.1 }).goto r.2.2
  s.localPosts c

def State.dispatchSetLoop (s : State) (l : Line) (c : Cue) : State :=
  (s.dispatchPlain l c).setLoopAct l c

def State.dispatchStep (s : State) (l : Line) (c : Cue) : State :=
  (s.dispatchPlain l c).countMod (stepReg l) 1

/-- `HALT` (R295): its posts, then HALT_CUE; a resume goes on with the cue after it. -/
def State.dispatchHalt (s : State) (l : Line) (c : Cue) : State :=
  let (q, s) := s.number l c
  let s := s.dispatchTriggers q
  let s := s.updLine l LineSt.advance
  let s := s.localPosts c
  let s := s.halt l .haltCue 0 false q.haltCue
  s.updLine l fun ln => { ln with atPrompter := false }

/-- `CALL_ROUTINE` (R308, R309). -/
def State.dispatchCall (s : State) (l : Line) (c : Cue) : State :=
  let (q, s) := s.number l c
  let s := s.dispatchTriggers q
  let fl : Flight := ⟨q, .started, 1, false, none, none, none⟩
  let s := { s with flights := s.flights ++ [fl] }
  s.updLine l fun ln =>
    let ln := ln.advance
    if c.isOpt then ln else match s.routineEntry c.routineId with
    | some (start, n, _, _) =>
      { ln with routine := some ⟨start, n, 0, (List.range 8).map c.arg, ln.loops, ln.skipEnd, q.uid⟩,
                loops := [], skipEnd := none }
    | none => ln

/-- `CURTAIN_CALL` (R344, R345, R348, R351). -/
def State.dispatchCurtain (s : State) (l : Line) (c : Cue) : State :=
  let r := s.curtainCheck l c
  match r.1 with
  | .inl e => r.2.haltHead l e false c
  | .inr a =>
    let (q, s) := r.2.number l c
    let s := s.dispatchTriggers q
    let par := s.parentOf l
    let s := s.updLine l LineSt.advance
    let fl : Flight := ⟨q, .started, 1, false, par, none, none⟩
    let s := { s with flights := s.flights ++ [fl] }
    let k := c.ccIndex
    let t := s.tree k
    let s := s.setTree k { t with pending := true, cue := some q.uid, loc := true, align := a }
    s.ccArrive k

/-- A `CHO_RUN` with an output to the reduction unit (R150). -/
def feedsRed (c : Cue) : Bool := c.opcode == 0x20 && (fieldN (c.output 92) 0 2 == 3 || fieldN (c.output 94) 0 2 == 3)

/-- `RED_ROW`, `RED_COL` and `SCAN`. -/
def isRed (op : Nat) : Bool := op == 0x30 || op == 0x31 || op == 0x32

/-- The cue of the same line that stands last in a unit's queue before `uid` (R150). -/
def State.lastOfLine (s : State) (e : Nat) (l : Line) (uid : Nat) : Option Flight :=
  ((s.queue e).filterMap s.flight).foldl (fun a f => if f.q.line = l ∧ f.q.uid ≠ uid then some f else a) none

/-- R150: a run for the reduction unit is claimed by the next cue of its line in its first unit's queue, and a claimant
follows such a run. -/
def State.claimOk (s : State) (q : QCue) (qs : List Nat) : Bool :=
  qs.all (fun e => match s.lastOfLine e q.line q.uid with
    | none => true
    | some f => !(feedsRed f.q.cue && f.q.cue.engine == e)
        || (isRed q.cue.opcode && q.cue.engine == e && q.cue.gang == f.q.cue.gang && q.cue.rows == f.q.cue.rows
            && q.cue.cols == f.q.cue.cols && !f.q.cue.crPacked))
  && (!isRed q.cue.opcode || (match s.lastOfLine q.cue.engine q.line q.uid with
    | some f => feedsRed f.q.cue && f.q.cue.engine == q.cue.engine
    | none => false))

/-- A cue enters its queues, or halts its line there with RED_CLAIM_MISMATCH (R150, R292). -/
def State.enqueueChecked (s : State) (q : QCue) (parent fetcher : Option Nat) (qs : List Nat) : State :=
  let ok := s.claimOk q (qs.filter fun e => decide (8 ≤ e) && decide (e < 16))
  let s := s.enqueue q parent fetcher qs
  if ok then s else s.engineHalt q.uid q.cue.engine .redClaim

/-- Every other cue enters its queues (R292). -/
def State.dispatchEngine (s : State) (l : Line) (c : Cue) : State :=
  let qs := s.cueQueues l c
  let par := s.parentOf l
  let (q, s) := s.number l c
  let s := s.dispatchTriggers q
  let s := s.updLine l LineSt.advance
  s.enqueueChecked q par none qs

/-- Step 12 of R287 by opcode. -/
def State.dispatch (s : State) (l : Line) (c : Cue) : State := match c.opcode with
  | 0 => s.dispatchPlain l c
  | 1 => s.dispatchPlain l c
  | 2 => s.dispatchLoopBegin l c
  | 3 => s.dispatchLoopEnd l c
  | 4 => s.dispatchCall l c
  | 5 => s.dispatchSetLoop l c
  | 7 => s.dispatchHalt l c
  | 8 => s.dispatchStep l c
  | 0x70 => s.dispatchCurtain l c
  | _ => s.dispatchEngine l c

/-- Dispatch is possible at all: start-up is over, the core is neither frozen (R519) nor in a soft reset (R493) nor in
Entering, Drowse or Waking, and the lines are not split (R312). -/
def State.mayDispatch (s : State) : Bool :=
  s.phase == .up && !s.frozen && !s.regB R.rstStatus 0 && decide (s.pstate ≤ 1) && !s.regB R.lineMode 0

/-- Idle ends at the next dispatch, commit, remote operation or scrub read (R495). -/
def State.leaveIdle (s : State) : State := if s.pstate = 1 then s.setF R.pwrStatus 0 3 0 else s

/-- A started `CALL_ROUTINE` whose routine has ended and whose cues have all completed is finished (R308). -/
def State.routineDone (s : State) : State :=
  { s with flights := s.flights.map fun f =>
      if f.q.cue.opcode = 4 ∧ f.stage = .started ∧ (s.parentOf f.q.line ≠ some f.q.uid)
          ∧ (s.flights.any (·.parent == some f.q.uid)) = false then { f with stage := .finished } else f }

/-- What the turn of a line does: a failing check halts it, a ready cue dispatches (R289), a cue to discard goes (R291); a
cue that goes has been fetched when it was taken. -/
def State.turnAct (s : State) (l : Line) : State := match s.turnOf l with
  | .fail r fetch c => ((s.fetchHead l).2).haltHead l r fetch c
  | .go c => s.dispatch l c
  | .skip => s.skipHead l
  | _ => s

/-- The turn of the chosen line. -/
def State.takeTurn (s : State) (l : Line) (ptr : Nat) : State :=
  ((s.turnAct l).setF R.lineWeavePtr 0 5 ptr).leaveIdle

end Sys2Proof.Machine
end

