-- ==== Sys2Proof/Machine/Array.lean ====
section
/-! DEFINITION. The array complex (02 R54 to R98) and the tile queue's slots (03 R124, R125). -/

namespace Sys2Proof.Machine

/-! Shapes (R54, R56, R57, R59, R60). -/

/-- Rank of a format as an array operand (R54). -/
def Fmt.rank : Fmt → Option Nat
  | .f4 | .i4 => some 1
  | .f8a | .f8g => some 2
  | .i8 | .f16 => some 3
  | _ => none

/-- Banks per array (R56). -/
def State.arrBanks (s : State) : Nat := match s.build.chip, s.arr.mode with
  | _, 2 => 1
  | .bv512, 0 => 16 | .bv512, _ => 8
  | .bv256, 0 => 8 | .bv256, _ => 4
  | .bv128, 0 => 4 | .bv128, _ => 2

/-- Arrays or banks of the mode (R56). -/
def State.arrCount (s : State) : Nat := match s.arr.mode with
  | 0 => 2 | 2 => s.build.flatBanks | _ => 4

/-- Cell rows and columns of one array (R56). -/
def State.arrCells (s : State) : Nat × Nat := match s.build.chip, s.arr.mode with
  | _, 2 => (256, 256)
  | .bv512, 0 => (1024, 1024) | .bv512, _ => (1024, 512)
  | .bv256, 0 => (1024, 512) | .bv256, _ => (512, 512)
  | .bv128, 0 => (512, 512) | .bv128, _ => (512, 256)

/-- K and N of the weight tile at a rank (R54, R57). -/
def State.tileK (s : State) (rank : Nat) : Nat := s.arrCells.1 * (match rank with | 1 => 4 | 2 => 2 | _ => 1)
def State.tileN (s : State) (rank : Nat) : Nat := s.arrCells.2 * (match rank with | 3 => 1 | _ => 2)

/-- Feed and drain buffer bytes of one array (R59). -/
def State.feedBytes (s : State) : Nat := s.arrBanks * 524288
def State.drainBytes (s : State) : Nat := s.arrBanks * 262144

/-- Code bytes of the weight buffer that one tile may take (R60): a half, or a quarter under HALVES. -/
def State.weightBytes (s : State) : Nat :=
  let h := match s.build.chip with | .bv512 => 4194304 | .bv256 => 2097152 | .bv128 => 1048576
  if s.arr.split then h / 2 else h

/-- Bytes of a row of `n` elements with its block scales (R61). -/
def rowBytes (f : Fmt) (n : Nat) : Nat := (n * f.bits + 7) / 8 + if f.isBlock then (n + 31) / 32 else 0

/-! Operands. -/

/-- The exact value of a stored element: a poisoned one is NaN (R51). -/
def elemVal (f : Fmt) (t : Int) (codes scales poison : List Nat) (i : Nat) : Num :=
  if poison.contains i then .nan
  else match codes[i]? with
    | none => .zero
    | some c => if f.isBlock then decodeBlockElem f (listGet 0 scales (i / 32)) c else (decodeElem f c).scale2 t

def FeedRow.val (r : FeedRow) (i : Nat) : Num := elemVal ((Fmt.ofCode r.fmt).getD .i8) r.t r.codes r.scales r.poison i

/-- Weight at tile row `k`, column `n` (R202). -/
def WTile.val (w : WTile) (k n : Nat) : Num :=
  if k < w.rows then elemVal ((Fmt.ofCode w.fmt).getD .i8) w.t w.codes w.scales w.poison (n * w.rows + k) else .zero

/-- b + t of an operand (R28, R44): b is the bound passed with F16 data. -/
def operandBound (fmt : Nat) (t b : Int) : Int := match Fmt.ofCode fmt with
  | some .f16 => b
  | some .f4 => Fmt.f4.bound + ((trackerCode t : Int) - 127)
  | some .i4 => Fmt.i4.bound + ((trackerCode t : Int) - 127)
  | some f => f.bound + t
  | none => 0

/-! Fields of an `ARR_FILL` in its mode. -/

/-- Arrays or banks a fill of queue `q` uses (R84, R90, R91). -/
def State.fillArrays (s : State) (q : Nat) (c : Cue) : List Nat :=
  if s.arr.mode = 2 then (List.range c.afBankCount).map (c.afBankFirst + ·)
  else if s.arr.split then [2 * q, 2 * q + 1]
  else List.range s.arrCount

/-- Flat banks of an array or bank. -/
def State.banksOf (s : State) (a : Nat) : List Nat := (List.range s.arrBanks).map (a * s.arrBanks + ·)

/-- Keys of the working weights a fill uses. -/
def State.workKeys (s : State) (q : Nat) (c : Cue) : List Nat :=
  if s.arr.mode = 2 then s.fillArrays q c else [q]

/-- Rows a fill takes from each feed (R82). -/
def fillRows (c : Cue) : Nat :=
  if c.afShift ∧ c.afPrefixZero = false then c.afM + (c.afShiftW - 1) else c.afM

/-- Elements of a feed row (R61, R81). -/
def fillCols (c : Cue) : Nat := if c.afShift then c.afShiftC else c.afK

/-- Rank of a fill's operand pair. -/
def fillRank (fa fw : Fmt) : Nat := max (fa.rank.getD 3) (fw.rank.getD 3)

/-- Hold state a drain mode needs at issue (R73). -/
def holdNeeded (d : Nat) : Bool := d == 3 || d == 4 || d == 5

/-- A drain mode that uses hold slots (R74). -/
def usesHold (d : Nat) : Bool := decide (2 ≤ d) && decide (d ≤ 5)

/-- A drain mode that emits (R73), as raw I64. -/
def emits (d : Nat) : Bool := d == 0 || d == 1 || d == 4 || d == 5
def emitsRaw (d : Nat) : Bool := d == 1 || d == 5

/-- Holds of a fill. -/
def State.holdOf (s : State) (a : Nat) : Option Hold := (s.arr.holds.find? (·.1 == a * s.arrBanks)).map (·.2)

/-- Checks that no format enters (R57, R78, R92): an OP that a loop step has given a build without the modes, an M, K_USED
or N_USED outside every tile, and the bank range, where BANK_COUNT = 0 names no bank and is taken as an invalid field
(DESIGN CHOICE, log entry 34). -/
def State.fillPlain (s : State) (c : Cue) : List Code :=
  (if c.afOp ≠ 0 ∧ s.build.distCmp = false then [Code.unitAbsent] else [])
  ++ (if 4096 < c.afM ∨ c.afK = 0 ∨ c.afN = 0 then [.shapeExceedsArray] else [])
  ++ (if s.arr.mode = 2 ∧ s.build.flatBanks < c.afBankFirst + c.afBankCount then [.shapeExceedsArray] else [])
  ++ (if s.arr.mode = 2 ∧ c.afBankCount = 0 then [.arrField] else [])

/-- Checks of an `ARR_FILL` at the head of its queue (R54, R61, R67, R73 to R75, R78 to R80, R83, R92). A format that has no
rank leaves the checks that need one unmade; a KT above 2^31, for which no rule gives an outcome, is taken (DESIGN CHOICE,
log entry 34). -/
def State.fillChecks (s : State) (q : Nat) (c : Cue) : List Code :=
  s.fillPlain c ++ match Fmt.ofCode c.afFmtA, Fmt.ofCode c.afFmtW with
  | some fa, some fw =>
    if fa.rank.isNone ∨ fw.rank.isNone then [.formatUnsupported]
    else
      let rank := fillRank fa fw
      let op := c.afOp
      let arrays := s.fillArrays q c
      let d := c.afDrain
      (if c.afRmode = 3 then [Code.formatUnsupported] else [])
      ++ (if 6 ≤ op then [.arrField] else [])
      ++ (if 1 ≤ op ∧ op ≤ 5 ∧ (fa ≠ fw ∨ (fa ≠ .f8a ∧ fa ≠ .i8)) then [.formatUnsupported] else [])
      ++ (if (op = 3 ∨ op = 4) ∧ d ≠ 0 then [.arrField] else [])
      ++ (if 6 ≤ d then [.arrField] else [])
      ++ (if c.afM = 0 then [.arrField] else [])
      ++ (if s.feedBytes < fillRows c * rowBytes fa (fillCols c) then [.shapeExceedsArray] else [])
      ++ (if s.tileK rank < c.afK ∨ s.tileN rank < c.afN then [.shapeExceedsArray] else [])
      ++ (if c.afKT < c.afK then [.arrField] else [])
      ++ (if c.afShift ∧ (op ≠ 0 ∨ c.afShiftW = 0 ∨ 8 < c.afShiftW ∨ c.afK ≠ c.afShiftC * c.afShiftW)
          then [.arrField] else [])
      ++ (if usesHold d ∧ s.drainBytes < c.afM * c.afN * 8 then [.shapeExceedsArray] else [])
      ++ (if c.afWsame ∧ (s.workKeys q c).any (fun k => match s.arr.working.find? (·.1 == k) with
            | none => true
            | some (_, w) => w.fmtW != c.afFmtW || w.kUsed != c.afK || w.nUsed != c.afN) then [.arrField] else [])
      ++ (if arrays.any (fun a => match s.holdOf a with
            | none => holdNeeded d
            | some h => !holdNeeded d || h.m != c.afM || h.n != c.afN) then [.arrHoldMismatch] else [])
  | _, _ => [.formatUnsupported]

/-! Issue. -/

/-- A feed's rows. -/
def State.feed (s : State) (a : Nat) : List FeedRow := NMap.get [] s.arr.feeds a

def State.setFeed (s : State) (a : Nat) (l : List FeedRow) : State :=
  { s with arr := { s.arr with feeds := NMap.set [] s.arr.feeds a l } }

def State.half (s : State) (h : Nat) : WHalf := NMap.get .empty s.arr.halves h

def State.setHalf (s : State) (h : Nat) (v : WHalf) : State :=
  { s with arr := { s.arr with halves := NMap.set .empty s.arr.halves h v } }

/-- Index of half `h` of queue `q`'s weight store: the two halves, or the two quarters of its half. -/
def halfIdx (q h : Nat) : Nat := 2 * q + h

/-- The oldest complete tile leaves its half. -/
def State.popHalf (s : State) (q : Nat) : Option (WTile × State) :=
  let use := NMap.get 0 s.arr.useAt q
  match s.half (halfIdx q use) with
  | .ready t => some (t, { (s.setHalf (halfIdx q use) .empty) with
      arr := { (s.setHalf (halfIdx q use) .empty).arr with useAt := NMap.set 0 s.arr.useAt q (1 - use) } })
  | _ => none

/-- Parity of the working weights of a key (R64). -/
def State.workParity (s : State) (k : Nat) : Bool := match s.arr.working.find? (·.1 == k) with
  | some (_, w) => w.parity
  | none => false

/-- Parity of the slices that a fill sends past a key's cells (R64): that of the working weights when they are kept, the
other one when the fill brings its own. -/
def State.sliceParity (s : State) (c : Cue) (k : Nat) : Bool := if c.afWsame then s.workParity k else !s.workParity k

/-- Shadow register sets of queue `q`, by key. -/
def State.shadows (s : State) (q : Nat) : NMap Shadow := NMap.get [] s.arr.shadow q

def State.setShadows (s : State) (q : Nat) (l : NMap Shadow) : State :=
  { s with arr := { s.arr with shadow := NMap.set [] s.arr.shadow q l } }

/-- A key's shadow set becomes its working set when its parity is that of the slices; where none matches, the cells wait
for the preload of the oldest complete tile (R64, R65). -/
def State.takeTile (s : State) (q : Nat) (c : Cue) (k : Nat) : Option (WTile × State) :=
  match (s.shadows q).find? (fun e => e.1 == k && e.2.parity == s.sliceParity c k) with
  | some (_, w) => some (w.tile, s.setShadows q (NMap.del (s.shadows q) k))
  | none => s.popHalf q

/-- Working weights of a key replaced, with the fields and the parity of the fill. -/
def State.loadWorking (s : State) (c : Cue) (k : Nat) (t : WTile) : State :=
  { s with arr := { s.arr with working := NMap.put s.arr.working k ⟨t, c.afFmtW, c.afK, c.afN, s.sliceParity c k⟩ } }

/-- The tiles a fill uses, one per working key, and the state with them in the working registers: kept under WSAME (R67),
else each key's shadow set or the oldest tile; none while a tile is missing (R68). -/
def State.fillTiles (s : State) (q : Nat) (c : Cue) : Option (List WTile × State) :=
  (s.workKeys q c).foldlM (fun (st : List WTile × State) k =>
    if c.afWsame then some (st.1 ++ [match s.arr.working.find? (·.1 == k) with | some (_, w) => w.tile | none => default], st.2)
    else (st.2.takeTile q c k).map fun r => (st.1 ++ [r.1], r.2.loadWorking c k r.1)) ([], s)

/-- R69: the formats the cue names, and one scale within each operand. -/
def operandsAgree (c : Cue) (rows : List FeedRow) (tiles : List WTile) : Bool :=
  rows.all (·.fmt == c.afFmtA) && tiles.all (·.fmt == c.afFmtW)
    && (match rows with | [] => true | r :: rest => rest.all fun x => x.t == r.t && x.b == r.b)
    && (match tiles with | [] => true | w :: rest => rest.all fun x => x.t == w.t && x.b == w.b)

/-- E of a fill (R44, R78). R78 gives operations 3 and 4 none; ARR_LAST_E and their tiles then show the E that a product
of the same operands would have (DESIGN CHOICE, log entry 34). -/
def fillE (c : Cue) (rows : List FeedRow) (tiles : List WTile) : Int :=
  let ba := match rows with | [] => 0 | r :: _ => operandBound r.fmt r.t r.b
  let bw := match tiles with | [] => 0 | w :: _ => operandBound w.fmt w.t w.b
  let l : Int := ceilLog2 c.afKT
  match c.afOp with
  | 1 => max ba bw + 1 + l
  | 2 => 2 * (max ba bw + 1) + l
  | 5 => 56
  | _ => ba + bw + l

/-- A term clamped to ±(2^63 − 2) LSBs (R55). -/
def termOf (e : Int) (x : Num) : Acc :=
  let a := Acc.zero.addTerm (e - 56) x
  { a with n := max (-rawTop) (min rawTop a.n) }

/-- The term or candidate of one position (R78): product, distance or comparison. -/
def opTerm (op : Nat) (a w : Num) : Num := match op with
  | 1 => (a.sub w).abs
  | 2 => (a.sub w).mul (a.sub w)
  | 3 => a.add w
  | 4 => a.add w
  | 5 => if a.isNan || w.isNan then .nan else if w.lt a then .fin false 1 0 else .zero
  | _ => a.mul w

/-- Sum over the positions of one output element (R42, R78). -/
def sumTerms (op : Nat) (e : Int) (l : List (Num × Num)) : Acc :=
  l.foldl (fun acc p => acc.add (termOf e (opTerm op p.1 p.2))) Acc.zero

/-- The exact extreme of operations 3 and 4 (R78, R80). Of candidates that compare equal, +0 and −0 among them, that of the
lowest k stays (DESIGN CHOICE, log entry 34). -/
def extreme (op : Nat) (l : List (Num × Num)) : Num :=
  let vs := l.map fun p => opTerm op p.1 p.2
  if vs.any Num.isNan then .nan
  else match vs with
    | [] => .zero
    | v :: rest => rest.foldl (fun a x => if op = 3 then (if x.lt a then x else a) else (if a.lt x then x else a)) v

/-- Operand pairs of output (m, n): row-stationary, or shifted by tap (R58, R81). -/
def operandPairs (c : Cue) (rows : List FeedRow) (w : WTile) (m n : Nat) : List (Num × Num) :=
  if c.afShift then
    let pre := if c.afPrefixZero then 0 else c.afShiftW - 1
    (List.range c.afK).map fun k =>
      let j := k % c.afShiftW
      let ch := k / c.afShiftW
      let x : Num := if m + pre < j then .zero else match rows[m + pre - j]? with
        | some r => r.val ch
        | none => .zero
      (x, w.val k n)
  else
    let r := listGet default rows m
    (List.range c.afK).map fun k => (r.val k, w.val k n)

/-- One output element: its raw partial after the hold is added, whether it saturated, and the binary32 code emitted
(R49, R73, R76, R91). -/
def drainElem (c : Cue) (e : Int) (draw : BitVec 32) (held : Option (BitVec 64)) (ps : List (Num × Num)) :
    BitVec 64 × Bool × BitVec 32 :=
  let r := rndOf c.afRmode draw
  if c.afOp = 3 ∨ c.afOp = 4 then (0, false, BitVec.ofNat 32 (roundTo .b32 r (extreme c.afOp ps)))
  else
    let a := sumTerms c.afOp e ps
    let a := match held with | some h => a.add (Acc.ofRaw h) | none => a
    let st := a.sat
    (st.1.toRaw, st.2, BitVec.ofNat 32 (roundTo .b32 r (st.1.value (e - 56))))

/-- All M × N_USED elements of array `i` of a fill (counted from its first), row-major. -/
def State.fillArray (s : State) (q : QCue) (e : Int) (i : Nat) (rows : List FeedRow) (w : WTile) (held : Option Hold) :
    List (List (BitVec 64 × Bool × BitVec 32)) :=
  let c := q.cue
  (List.range c.afM).map fun m => (List.range c.afN).map fun n =>
    let draw := srDraw s.seed c.afDest (c.afElemBase + (i * c.afM + m) * c.afRowPitch + n) q.step
    drainElem c e draw (held.map fun h => listGet 0 h.vals (m * c.afN + n)) (operandPairs c rows w m n)

/-- Rows of an array cut into tiles of 16 binary32 or 8 raw rows (R124). -/
def cutTiles (q : QCue) (fill i n : Nat) (raw : Bool) (e : Int) (rows : List (List (BitVec 64))) : List TqTile :=
  let step := if raw then 8 else 16
  (List.range ((rows.length + step - 1) / step)).map fun k =>
    ⟨q.line, q.cue.afOutTag, q.uid, fill, i, k * step, n, raw, e, (rows.drop (k * step)).take step, [], 0, none⟩

/-- Tiles of several arrays as their drains give them: the first tile of each array, then the second. -/
def weaveTiles (l : List (List TqTile)) : List TqTile :=
  let n := l.foldl (fun a x => max a x.length) 0
  ((List.range n).map fun k => l.filterMap (·[k]?)).flatten

/-- NaN raw word or NaN binary32 code. -/
def rawIsNan (w : BitVec 64) : Bool := w == 0x8000000000000000#64

/-- Banks that would have to wake (R72). -/
def State.toWake (s : State) (banks : List Nat) : List Nat := banks.filter fun b => !s.arr.awake.contains b

/-- The ramp limiter allows waking `n` banks (R509). -/
def State.rampOk (s : State) (n : Nat) : Bool :=
  decide (s.regF R.pwrRamp 0 6 = 0) || decide (n ≤ s.arr.allow)

/-- A fill issues and runs (R63 to R77): its weights work, operands leave their buffers, holds and tiles come about. -/
def State.issueFill (s : State) (q : Nat) (x : QCue) (rows : List (List FeedRow)) (tiles : List WTile) (e : Int) : State :=
  let c := x.cue
  let arrays := s.fillArrays q c
  let banks := (arrays.map s.banksOf).flatten
  let wake := s.toWake banks
  let seq := s.arr.fillSeq
  let d := c.afDrain
  let tileAt (i : Nat) : WTile := if s.arr.mode = 2 then listGet default tiles i else listGet default tiles 0
  let out := arrays.zipIdx.map fun (a, i) =>
    (a, i, s.fillArray x e i (listGet [] rows i) (tileAt i) (if holdNeeded d then s.holdOf a else none))
  -- operands
  let s := arrays.foldl (fun s a => s.setFeed a ((s.feed a).drop (fillRows c))) s
  -- counts
  let prev := NMap.get 0 s.arr.lastM q
  let s := if 0 < prev ∧ prev < 64 ∧ c.afWsame = false then s.count R.arrBubbleBeats (64 - prev) else s
  let s := s.setF R.arrLastE 0 16 (bvI 16 e).toNat
  let s := s.countMod R.arrFills 1
  let s := s.count R.arrSatCount ((out.map fun o => (o.2.2.map fun r => (r.filter (·.2.1)).length).sum).sum)
  let nan (v : BitVec 64 × Bool × BitVec 32) : Bool :=
    if emitsRaw d then rawIsNan v.1 else (ofB32 v.2.2).isNan
  let s := if emits d then
      s.count R.arrNanCount ((out.map fun o => (o.2.2.map fun r => (r.filter nan).length).sum).sum) else s
  -- holds
  let s := out.foldl (fun s o =>
    let k := o.1 * s.arrBanks
    let holds := if d = 2 ∨ d = 3 then
        NMap.put s.arr.holds k ⟨x.line, c.afM, c.afN, e, (o.2.2.flatten.map (·.1))⟩
      else NMap.del s.arr.holds k
    { s with arr := { s.arr with holds := holds } }) s
  -- tiles
  let a := s.arr
  let new := if emits d then
      weaveTiles (out.map fun o => cutTiles x seq o.2.1 c.afN (emitsRaw d) e
        (o.2.2.map fun r => r.map fun v => if emitsRaw d then v.1 else v.2.2.setWidth 64))
    else []
  let a := { a with
    fillSeq := seq + 1
    lastM := NMap.set 0 a.lastM q c.afM
    awake := a.awake ++ wake
    allow := if s.regF R.pwrRamp 0 6 = 0 then a.allow else a.allow - wake.length
    want := 0
    drain := a.drain ++ new.map (q, ·)
    fills := if emits d then NMap.put a.fills seq
        ⟨x.line, c.afOutTag, c.afM, c.afN, emitsRaw d, arrays.length, s.nextUid, none⟩ else a.fills
    inFlight := a.inFlight ++ [⟨x.uid, seq, q, banks, (s.workKeys q c).map s.workParity, !emits d⟩] }
  let s := { s with arr := a }
  let s := (s.unqueue x.uid).startFlight x.uid
  if emits d then s else s.finishFlight x.uid

/-- Elements of byte `byte` of `n` codes with their block scales behind them: those of a code byte, or the block of a scale
byte (R62). -/
def elemsOfByte (f : Fmt) (n byte : Nat) : List Nat :=
  let codes := (n * f.bits + 7) / 8
  (if byte < codes then (if f.bits < 8 then [2 * byte, 2 * byte + 1] else [8 * byte / f.bits])
    else if f.isBlock then (List.range 32).map (32 * (byte - codes) + ·) else []).filter fun i => decide (i < n)

/-- The record of a parity error in a buffer (R62). -/
def State.parityFault (s : State) (i : Nat) : State := s.logRecord (FaultRec.plain 3 1 Code.bufParity.num i 0)

/-- Feed-buffer bytes that fail parity poison their elements (R62). -/
def State.feedParity (s : State) (par : List (Nat × Nat × Nat)) : State :=
  par.foldl (fun s p =>
    let l := s.feed p.1
    match l[p.2.1]? with
    | none => s
    | some r =>
      let bad := elemsOfByte ((Fmt.ofCode r.fmt).getD .i8) r.codes.length p.2.2
      if bad.isEmpty then s
      else (s.setFeed p.1 (l.set p.2.1 { r with poison := r.poison ++ bad })).parityFault p.1) s

/-- Hold slots with a byte that fails parity hold NaN (R51, R62, R74). -/
def State.holdParity (s : State) (par : List (Nat × Nat)) : State :=
  par.foldl (fun s p =>
    let k := p.1 * s.arrBanks
    match s.arr.holds.find? (·.1 == k) with
    | none => s
    | some (_, h) =>
      if h.vals.length ≤ p.2 then s
      else (({ s with arr := { s.arr with
        holds := NMap.put s.arr.holds k { h with vals := h.vals.set p.2 0x8000000000000000#64 } } }).parityFault p.1)) s

/-- `ARR_FILL` at the head of queue `q` (R68, R69, R75). -/
def State.arrFill (s : State) (q : Nat) : State := match s.startable (q + 1) with
  | none => s
  | some f =>
    let c := f.q.cue
    if c.opcode ≠ 0x10 then s
    else match leastCode (s.fillChecks q c) with
    | some code => s.engineHalt f.q.uid 1 code
    | none =>
      let arrays := s.fillArrays q c
      let need := fillRows c
      if arrays.any (fun a => decide ((s.feed a).length < need)) then s
      else match s.fillTiles q c with
      | none => s
      | some (tiles, loaded) =>
        let rows := arrays.map fun a => (s.feed a).take need
        if operandsAgree c rows.flatten tiles = false then s.engineHalt f.q.uid 1 .arrOperandMismatch
        else
          let e := fillE c rows.flatten tiles
          if usesHold c.afDrain ∧ holdNeeded c.afDrain ∧ arrays.any (fun a => match s.holdOf a with
              | some h => h.e != e | none => true) then s.engineHalt f.q.uid 1 .arrHoldMismatch
          else
            let wake := (s.toWake (arrays.map s.banksOf).flatten).length
            let held := s.rampOk wake = false
            let holding (s : State) : State :=
              (if held then { s with arr := { s.arr with want := wake } } else s).setB R.pwrStatus 8 (decide held)
            if (holding s).regB R.pwrStatus 7 ∨ held then holding s else (holding loaded).issueFill q f.q rows tiles e

/-- The bank of the first demand that no shadow set stands ready for. -/
def nextBank : List Nat → List Nat → Option Nat
  | [], _ => none
  | b :: l, have_ => if have_.contains b then nextBank l (have_.erase b) else some b

/-- The key whose shadow set the next preload fills (R65): that of the queue, or in APART the bank that the fills queued
demand next. None while that set still holds a tile, since a preload path carries one tile at a time (DEDUCED, log entry
34). -/
def State.preloadKey (s : State) (q : Nat) : Option Nat :=
  let have_ := (s.shadows q).map (·.1)
  let fills := ((s.queue (q + 1)).filterMap s.flight).filter fun f => f.q.cue.opcode == 0x10 && !f.q.cue.afWsame
  let key := if s.arr.mode = 2 then nextBank (fills.map fun f => s.fillArrays q f.q.cue).flatten have_ else some q
  key.filter fun k => !have_.contains k

/-- The preload of the complete tile of half `h` (R65): a shadow register set takes it, with the parity of the fill it is
for (R64), and the half is free again. -/
def State.weightPreload (s : State) (h : Nat) (par : List Nat) : State :=
  let q := if s.arr.split then h else 0
  if s.enginesRun = false ∨ (s.arr.split = false ∧ NMap.get 0 s.arr.useAt q ≠ h) then s
  else match s.preloadKey q, s.popHalf q with
    | some k, some (t, s) =>
      let bad := (par.map (elemsOfByte ((Fmt.ofCode t.fmt).getD .i8) t.codes.length)).flatten
      let t := { t with poison := t.poison ++ bad }
      let s := s.setShadows q (NMap.put (s.shadows q) k ⟨t, !s.workParity k⟩)
      if bad.isEmpty then s else s.parityFault q
    | _, _ => s

/-- Fills whose last output has left finish (R293); one that drains into hold slots alone has finished at issue and is in
flight until its cue completes (DESIGN CHOICE, log entry 34). -/
def State.drained (s : State) : State :=
  let busy (f : Fill) : Bool := f.holds || s.arr.drain.any fun d => d.2.uid == f.uid
  let gone := s.arr.inFlight.filter fun f => !busy f
  let s := { s with arr := { s.arr with inFlight := s.arr.inFlight.filter busy } }
  gone.foldl (fun s f => s.finishFlight f.uid) s

/-- The fill of a cue that completes is no longer in flight. -/
def State.endFill (s : State) (uid : Nat) : State :=
  { s with arr := { s.arr with inFlight := s.arr.inFlight.filter (·.uid != uid) } }

/-- Slots of queue `q`'s pool (R125). -/
def State.poolSlots (s : State) (q : Nat) : List Nat :=
  if s.arr.split then (List.range 32).map (32 * q + ·) else List.range 64

/-- Free slots of a pool, lowest first. -/
def State.freeSlots (s : State) (q : Nat) : List Nat :=
  (s.poolSlots q).filter fun k => !s.arr.tq.any (·.1 == k)

/-- Elements of a drained tile in a byte that fails parity are poisoned, and NaN (R51, R62, R133). -/
def TqTile.spoil (t : TqTile) (par : List (Nat × Nat)) : TqTile :=
  { t with poison := par
           rows := t.rows.zipIdx.map fun (row, r) => row.zipIdx.map fun (v, c) =>
             if par.contains (r, c) then (if t.raw then 0x8000000000000000#64 else 0x7FC00000#64) else v }

/-- NaN elements of a tile. -/
def TqTile.nans (t : TqTile) : Nat :=
  (t.rows.map fun r => r.countP fun v => if t.raw then rawIsNan v else (ofB32 (v.setWidth 32)).isNan).sum

/-- A drain of queue `q` takes a slot for its next tile (R125); elements that parity makes NaN count with those drained as
NaN (R97). -/
def State.drainTile (s : State) (q : Nat) (par : List (Nat × Nat)) : State :=
  if s.enginesRun = false then s
  else match findIdx? (fun d : Nat × TqTile => d.1 == q) s.arr.drain, s.freeSlots q with
    | some i, slot :: _ =>
      let d := listGet default s.arr.drain i
      let t := d.2.spoil par
      let s := { s with arr := { s.arr with drain := listDrop1 s.arr.drain i, tq := s.arr.tq ++ [(slot, t)] } }
      let s := s.count R.arrNanCount (t.nans - d.2.nans)
      let s := if par.isEmpty then s else s.parityFault q
      s.drained
    | _, _ => s

/-- `ARR_DROP_HOLD` (R93). -/
def State.arrDropHold (s : State) (q : Nat) : State := match s.startable (q + 1) with
  | none => s
  | some f =>
    if f.opcode ≠ 0x11 then s
    else
      let mine (a : Nat) : Bool := !s.arr.split || a / 2 == q
      let drop := (List.range s.arrCount).filter fun a => f.q.cue.adMask.testBit a && mine a
      let holds := s.arr.holds.filter fun h => !(drop.any fun a => a * s.arrBanks == h.1)
      let s := { s with arr := { s.arr with holds := holds } }
      (s.unqueue f.q.uid).finishFlight f.q.uid

/-- R87. -/
def configBad (c : Cue) : Bool :=
  c.acMode == 3 || (c.acSplit && (c.acMode != 1 || c.acLineA == c.acLineB))

/-- No fill in flight, and every row, tile and hold consumed or released (R86). -/
def State.arrEmpty (s : State) : Bool :=
  s.arr.inFlight.isEmpty && s.arr.drain.isEmpty && s.arr.feeds.isEmpty && s.arr.halves.isEmpty && s.arr.shadow.isEmpty
    && s.arr.holds.isEmpty

/-- Array cues still queued go to the queues of the new partition, in dispatch order (R84, R85). A cue of a third line that
was dispatched before HALVES took effect stays in LINE_A's queue and runs there: R85 speaks of cues that come later (DESIGN
CHOICE, log entry 34). -/
def State.sortArrQueues (s : State) : State :=
  let l := s.flights.filter fun f => f.stage == .queued && decide (0x10 ≤ f.opcode) && decide (f.opcode ≤ 0x12)
  let pick (q : Nat) : List Nat := (l.filter fun f => s.arrQueue f.q.line == q).map (·.q.uid)
  (s.setQueue 1 (pick 1)).setQueue 2 (pick 2)

/-- `ARR_CONFIG` (R86, R87, R94). The fill before it is no previous fill of R66 for the one after it, since its weights are
invalid: no bubble follows (DESIGN CHOICE, log entry 34). -/
def State.arrConfig (s : State) (q : Nat) : State := match s.startable (q + 1) with
  | none => s
  | some f =>
    let c := f.q.cue
    if c.opcode ≠ 0x12 then s
    else if configBad c then s.engineHalt f.q.uid 1 .arrField
    else if s.arrEmpty = false then s
    else
      let s := (s.unqueue f.q.uid).finishFlight f.q.uid
      let s := { s with arr := { s.arr with
        mode := c.acMode, split := c.acSplit, lineA := c.acLineA, lineB := c.acLineB
        working := [], fillAt := [], useAt := [], lastM := [] } }
      s.sortArrQueues

/-- A bank falls asleep 256 ticks after its last fill (R72), held back by the ramp limiter (R509). -/
def State.bankSleep (s : State) (bank : Nat) : State :=
  let per := s.regF R.pwrRamp 0 6
  if s.arr.awake.contains bank = false ∨ s.arr.inFlight.any (·.banks.contains bank) ∨ (per ≠ 0 ∧ per ≤ s.arr.slept) then s
  else { s with arr := { s.arr with awake := s.arr.awake.filter (· != bank), slept := s.arr.slept + 1 } }

/-- An `ARR_CONFIG` is pending once it stands at the head of an array queue: feeds and weight buffer then grant no credits
(R86). From its dispatch on they could not, or the fills queued before it would never get their operands (DEDUCED, log entry
34). -/
def State.cfgPending (s : State) : Bool :=
  [1, 2].any fun e => match s.head e with | some f => f.opcode == 0x12 | none => false

end Sys2Proof.Machine
end

