-- ==== Sys2Proof/Machine/Sfu.lean ====
section
/-! DEFINITION. The special functions of the stage chain (03 R114 to R116). Each result is the exact one where R114 lists
it; elsewhere it is a free value within the bound of R114, from a free function that never falls, so that R115's order,
signs and equal bits for equal arguments hold. -/

namespace Sys2Proof.Machine

/-! Fixed-point numbers of 256 fraction bits. -/

/-- One. -/
def fxOne : Nat := 2 ^ 256

/-- The sum of z^(2k + 1) / (2k + 1) over `n` terms: atanh z, or atan z where the terms alternate. -/
def oddSeries (alternate : Bool) (n z : Nat) : Int :=
  let z2 := (z * z) >>> 256
  (iter n (fun k (st : Nat × Int) =>
    let term : Int := (st.1 / (2 * k + 1) : Nat)
    ((st.1 * z2) >>> 256, if alternate && k % 2 == 1 then st.2 - term else st.2 + term)) (z, 0)).2

/-- ln x for 1 ≤ x < 2. -/
def fxLn (x : Nat) : Int := 2 * oddSeries false 90 ((x - fxOne) * fxOne / (x + fxOne))

/-- ln 2. -/
def fxLn2 : Int := 2 * oddSeries false 90 (fxOne / 3)

/-- π, by Machin's formula. -/
def fxPi : Int := 16 * oddSeries true 60 (fxOne / 5) - 4 * oddSeries true 20 (fxOne / 239)

/-- e^t for 0 ≤ t < 1. -/
def fxExp (t : Nat) : Nat :=
  (iter 70 (fun n (st : Nat × Nat) => ((st.1 * t) >>> 256 / (n + 1), st.2 + st.1)) (fxOne, 0)).2

/-- 2^w. -/
def fxExp2 (w : Int) : Num :=
  let f := w % (fxOne : Int)
  .fin false (fxExp (f * fxLn2 / (fxOne : Int)).toNat) (w / (fxOne : Int) - 256)

/-- A value in fixed point, rounded downward. -/
def Num.fx : Num → Int
  | .fin n m e =>
    let v : Int := if n then -(m : Int) else m
    if 0 ≤ e + 256 then v * 2 ^ (e + 256).toNat else v / 2 ^ (-(e + 256)).toNat
  | _ => 0

/-- e^a. -/
def fxExpE (a : Int) : Num := fxExp2 (a * (fxOne : Int) / fxLn2)

/-- A fixed-point number as a value. -/
def ofFx (v : Int) : Num := .fin (decide (v < 0)) v.natAbs (-256)

/-! Keys: the binary32 codes that are no NaN, in numeric order, −0 below +0. -/

def keyOf (c : Nat) : Nat := if c < 2 ^ 31 then 2 ^ 31 + c else 2 ^ 32 - 1 - c

/-- The value of a key. -/
def ofKey (k : Nat) : Num := decodeElem .b32 (if 2 ^ 31 ≤ k then k - 2 ^ 31 else 2 ^ 32 - 1 - k)

/-- Key of the greatest binary32 value not above a value. -/
def keyDown : Num → Nat
  | .fin n m e =>
    let c := roundMag specB32 .rtz m e
    if n = false then 2 ^ 31 + c
    else if (decodeElem .b32 c).absLt (.fin n m e) then 2 ^ 31 - 2 - c else 2 ^ 31 - 1 - c
  | .inf n => keyOf (if n then 0xFF800000 else 0x7F800000)
  | .nan => 0

/-- A free function of a key that never falls, for the function and range `fam`: halving the keys 32 times, each midpoint
takes a free value between those of its neighbours. -/
def freeMono (fam x : Nat) : Nat :=
  let free (m : Nat) : Nat := (Config.sfu fam (BitVec.ofNat 32 m)).toNat
  (iter 32 (fun k (st : Nat × Nat × Nat) =>
    let m := st.1 + 2 ^ (31 - k)
    let v := max st.2.1 (min st.2.2 (free m))
    if x < m then (st.1, st.2.1, v) else (m, v, st.2.2)) (0, free 0, 2 ^ 32 - 1)).2.1

/-- The free result at `x` held between two keys. -/
def sfuPick (fam x lo hi : Nat) : Num := ofKey (max lo (min hi (freeMono fam x)))

/-- Within 1 ulp: one of the two neighbours of a value that is no binary32 value (DEDUCED, log entry 35). -/
def sfu1 (fam x : Nat) (y : Num) : Num := sfuPick fam x (keyDown y) (keyDown y + 1)

/-- Within 2 ulp, and between two keys: one step more to either side. -/
def sfu2 (fam x lo hi : Nat) (y : Num) : Num := sfuPick fam x (max lo (keyDown y - 1)) (min hi (keyDown y + 2))

def keyZero : Nat := 2 ^ 31
def keyOne : Nat := keyOf 0x3F800000
def keyHalf : Nat := keyOf 0x3F000000

/-! Exact values where no case of R114 gives the result. -/

def exactExp2 (a : Num) : Num := fxExp2 a.fx

/-- log2 of a positive value, in fixed point. -/
def exactLog2 : Num → Int
  | .fin _ m e =>
    let l := Nat.log2 m
    ((l : Int) + e) * (fxOne : Int) + fxLn (m * fxOne / 2 ^ l) * (fxOne : Int) / fxLn2
  | _ => 0

/-- tanh of a value of at least 2^−12. -/
def exactTanh (a : Num) : Num :=
  let u := (fxExpE (-2 * a.fx)).fx
  ofFx (((fxOne : Int) - u) * (fxOne : Int) / ((fxOne : Int) + u))

def exactSigmoid (a : Num) : Num :=
  let u := (fxExpE a.fx).fx
  ofFx (u * (fxOne : Int) / ((fxOne : Int) + u))

/-- erf of a positive value below 4: 2a / √π times the sum of (−a²)^n / (n! (2n + 1)). -/
def exactErf (a : Num) : Num :=
  let z := (a.mul a).fx.toNat
  let sum := (iter 130 (fun n (st : Nat × Int) =>
    let term : Int := (st.1 / (2 * n + 1) : Nat)
    ((st.1 * z) >>> 256 / (n + 1), if n % 2 = 1 then st.2 - term else st.2 + term)) (fxOne, 0)).2
  (a.scale2 1).mul (ofFx (sum * (fxOne : Int) / ((isqrt (fxPi.toNat * fxOne) : Nat) : Int)))

/-! The functions. -/

/-- A power of two 2^k, or none. -/
def pow2Of : Num → Option Int
  | .fin _ m e => if m = 0 then none else if m = 2 ^ Nat.log2 m then some ((Nat.log2 m : Int) + e) else none
  | _ => none

/-- An integral value, or none. -/
def intOf : Num → Option Int
  | .fin n m e =>
    let q := quantise .rtz m e 0
    if (Num.fin false q 0).eq (.fin false m e) then some (if n then -(q : Int) else q) else none
  | _ => none

/-- One, with a sign. -/
def oneSigned (n : Bool) : Num := .fin n 1 0

/-- A value with the sign of another. -/
def Num.signed (n : Bool) (x : Num) : Num := if n then x.neg else x

def sfuExp2 (x : Nat) (a : Num) : Num := match a with
  | .inf n => if n then .zero else .inf false
  | _ =>
    if a.lt (Num.ofInt 128) = false then .inf false
    else if (Num.ofInt (-150)).lt a = false then .zero
    else match intOf a with
      | some k => .fin false 1 k
      | none => sfu1 0x20 (keyOf x) (exactExp2 a)

/-- LOG2 within 2^−22 between 0.5 and 2, on the side of 0 where its argument is. -/
def log2Near (x : Nat) (a : Num) : Num :=
  let y := exactLog2 a
  let d : Int := 2 ^ 234
  let low := a.lt (Num.ofInt 1)
  let lo := max (if low then keyOf 0xBF800000 else keyZero) (keyDown (ofFx (y - d)) + 1)
  let hi := min (if low then keyZero else keyOne) (keyDown (ofFx (y + d)))
  sfuPick 0x21 (keyOf x) lo hi

def sfuLog2 (x : Nat) (a : Num) : Num := match a with
  | .inf n => if n then .nan else .inf false
  | _ =>
    if a.isZero then .inf true else if a.isNeg then .nan
    else match pow2Of a with
      | some k => Num.ofInt k
      | none =>
        if (Num.fin false 1 (-1)).lt a && a.lt (Num.ofInt 2) then log2Near x a
        else sfu1 0x21 (keyOf x) (ofFx (exactLog2 a))

/-- Key of a magnitude in falling order. -/
def keyFalling (x : Nat) : Nat := 2 ^ 31 - 1 - x % 2 ^ 31

def sfuRcp (x : Nat) (a : Num) : Num := match a with
  | .fin n _ _ =>
    let y := (oneSigned false).div a.abs
    if a.isZero then .inf n
    else match pow2Of a with
      | some k => .fin n 1 (-k)
      | none => (sfu1 (if n then 0x62 else 0x22) (keyFalling x) y).signed n
  | .inf n => .fin n 0 0
  | .nan => .nan

def sfuRsqrt (x : Nat) (a : Num) : Num := match a with
  | .inf n => if n then .nan else .zero
  | _ =>
    if a.isZero then .inf a.isNeg else if a.isNeg then .nan
    else match (pow2Of a).filter (· % 2 == 0) with
      | some k => .fin false 1 (-(k / 2))
      | none => sfu1 0x23 (keyFalling x) ((oneSigned false).div a.sqrt)

/-- A function of a magnitude, made odd (R115). -/
def sfuTanh (x : Nat) (a : Num) : Num := match a with
  | .inf n => oneSigned n
  | _ =>
    if a.absLt (.fin false 1 (-12)) then a
    else if (a.abs.mul (Num.ofInt 10)).lt (Num.ofInt 91) = false then oneSigned a.isNeg
    else (sfu2 0x24 (keyOf (x % 2 ^ 31)) (keyOf 0x397FFFFF) keyOne (exactTanh a.abs)).signed a.isNeg

def sfuSigmoid (x : Nat) (a : Num) : Num := match a with
  | .inf n => if n then .zero else oneSigned false
  | _ =>
    if a.isZero then .fin false 1 (-1)
    else if a.lt (Num.ofInt 18) = false then oneSigned false
    else if (Num.ofInt (-104)).lt a = false then .zero
    else if a.isNeg then sfu2 0x25 (keyOf x) keyZero keyHalf (exactSigmoid a)
    else sfu2 0x25 (keyOf x) keyHalf keyOne (exactSigmoid a)

def sfuErf (x : Nat) (a : Num) : Num := match a with
  | .inf n => oneSigned n
  | _ =>
    if a.isZero then a
    else if a.abs.lt (Num.ofInt 4) = false then oneSigned a.isNeg
    else (sfu2 0x26 (keyOf (x % 2 ^ 31)) keyZero keyOne (exactErf a.abs)).signed a.isNeg

/-- A special function of the binary32 value with bits `x` (R114): a NaN argument gives NaN (R115). -/
def sfu (op : Nat) (x : BitVec 32) : Num :=
  let a := ofB32 x
  let x := x.toNat
  if a.isNan then .nan
  else match op with
    | 0x20 => sfuExp2 x a
    | 0x21 => sfuLog2 x a
    | 0x22 => sfuRcp x a
    | 0x23 => sfuRsqrt x a
    | 0x24 => sfuTanh x a
    | 0x25 => sfuSigmoid x a
    | _ => sfuErf x a

end Sys2Proof.Machine
end

