-- ==== Sys2Proof/Machine/Lane.lean ====
section
/-! DEFINITION. One lane of the stage chain (03 R100 to R116, R132, R133): stage words and operations. -/

namespace Sys2Proof.Machine

/-- A lane value: its bits (32, or 16 in packed mode), the value an operation reads, and its poison bit. -/
structure Opd where
  bits   : BitVec 32
  num    : Num
  poison : Bool
  deriving DecidableEq, Repr, Inhabited

/-- Lane format (R105). -/
def laneFmt (packed : Bool) : Fmt := if packed then .f16 else .b32

/-- A value in lane bits. -/
def ofBits (packed : Bool) (b : BitVec 32) (poison : Bool) : Opd :=
  let b := if packed then b &&& 0xFFFF#32 else b
  ⟨b, decodeElem (laneFmt packed) b.toNat, poison⟩

/-- A value rounded once, RNE, to the lane format; every NaN is the canonical one (R103, R132). -/
def ofNum (packed : Bool) (x : Num) (poison : Bool) : Opd :=
  ofBits packed (BitVec.ofNat 32 (roundTo (laneFmt packed) .rne x)) poison

/-- A stage word's fields (R106). -/
def wOp (w : BitVec 64) : Nat := fieldN w 0 6
def wSel (w : BitVec 64) (i : Nat) : Nat := fieldN w (6 + 4 * i) 4
def wWp (w : BitVec 64) : Bool := bit w 18
def wTwe (w : BitVec 64) : Bool := bit w 19
def wTsel (w : BitVec 64) : Nat := fieldN w 20 2
def wCond (w : BitVec 64) : Nat := fieldN w 22 3
def wImm (w : BitVec 64) : BitVec 32 := field w 32 32

/-- R108: an assigned operation. -/
def opOk (op : Nat) : Bool := decide (op ≤ 0x16) || (decide (0x20 ≤ op) && decide (op ≤ 0x26))

/-- R108: a special function. -/
def isSfu (op : Nat) : Bool := decide (0x20 ≤ op) && decide (op ≤ 0x26)

/-- R110: word `i` of a program may be loaded. -/
def wordOk (i : Nat) (w : BitVec 64) : Bool :=
  opOk (wOp w) && decide (wSel w 0 < 14) && decide (wSel w 1 < 14) && decide (wSel w 2 < 14)
    && decide (fieldN w 25 7 = 0) && (!isSfu (wOp w) || i % 8 == 2 || i % 8 == 5)

/-! Stages. -/

/-- Lane state (R100): P, T0 to T3, Q, and whether the CMP that wrote Q read poison (R133). -/
structure Lane where
  p : Opd
  t : List Opd
  q : Bool
  qPoison : Bool
  deriving DecidableEq, Repr, Inhabited

/-- A lane at the start of an element. -/
def Lane.start : Lane :=
  let z : Opd := ⟨0, .zero, false⟩
  ⟨z, [z, z, z, z], false, false⟩

/-- A number as a ROW or COL operand (R107): binary32, RNE; its bits are F16 where a packed stage moves bits. -/
def posOpd (packed : Bool) (v : Nat) : Opd :=
  let b := BitVec.ofNat 32 (roundTo .b32 .rne (Num.ofInt v))
  ⟨if packed then BitVec.ofNat 32 (roundTo .f16 .rne (ofB32 b)) else b, ofB32 b, false⟩

/-- The immediate operand (R105, R106). -/
def immOpd (packed : Bool) (w : BitVec 64) : Opd :=
  if packed then ofNum true (ofB32 (wImm w)) false else ofBits false (wImm w) false

/-- What a stage reads beside its lane: the four streams and the element's position. -/
structure Feedin where
  s   : List Opd
  row : Nat
  col : Nat
  deriving Repr

/-- A selector's operand (R107). -/
def operandOf (packed : Bool) (w : BitVec 64) (x : Feedin) (l : Lane) (k : Nat) : Opd :=
  if k = 0 then l.p
  else if k ≤ 4 then listGet default x.s (k - 1)
  else if k ≤ 8 then listGet default l.t (k - 5)
  else if k = 9 then immOpd packed w
  else if k = 10 then posOpd packed x.row
  else if k = 11 then posOpd packed x.col
  else if k = 13 then ofNum packed (Num.ofInt 1) false
  else ⟨0, .zero, false⟩

/-- R109. -/
def compare (cond : Nat) (a b : Num) : Bool :=
  let un := a.isNan || b.isNan
  match cond with
  | 0 => a.eq b
  | 1 => !(a.eq b)
  | 2 => a.lt b
  | 3 => !un && !(b.lt a)
  | 4 => b.lt a
  | 5 => !un && !(a.lt b)
  | 6 => un
  | _ => !un

/-- IEEE 754-2019 minimum, −0 below +0, NaN from either side (R132). -/
def numMin (a b : Num) : Num :=
  if a.isNan || b.isNan then .nan
  else if a.lt b then a else if b.lt a then b else if a.isNeg then a else b

def numMax (a b : Num) : Num :=
  if a.isNan || b.isNan then .nan
  else if a.lt b then b else if b.lt a then a else if a.isNeg then b else a

/-- A value rounded to an integral value, RNE, its sign kept. -/
def numRint : Num → Num
  | .fin n m e => .fin n (quantise .rne m e 0) 0
  | x => x

/-- SCALB (R108). -/
def numScalb (a b : Num) : Num := match b with
  | .nan => .nan
  | .inf n => a.scale2 (if n then -300 else 300)
  | _ => match intOf (numRint b) with
    | some k => a.scale2 (max (-300) (min 300 k))
    | none => .nan

/-- Result of an operation that is neither NOP, CMP nor SEL, with the operands it reads (R108). -/
def stageResult (packed : Bool) (op : Nat) (a b c : Opd) : Opd :=
  let r2 (x : Num) := ofNum packed x (a.poison || b.poison)
  let r3 (x : Num) := ofNum packed x (a.poison || b.poison || c.poison)
  let l2 (x : BitVec 32) := ofBits packed x (a.poison || b.poison)
  let sign : BitVec 32 := if packed then 0x8000#32 else 0x80000000#32
  match op with
  | 0x01 => ofBits packed a.bits a.poison
  | 0x02 => r2 (a.num.add b.num)
  | 0x03 => r2 (a.num.sub b.num)
  | 0x04 => r2 (a.num.mul b.num)
  | 0x05 => r3 ((a.num.mul b.num).add c.num)
  | 0x06 => r3 ((a.num.mul b.num).sub c.num)
  | 0x07 => r3 (c.num.sub (a.num.mul b.num))
  | 0x08 => r2 (numMin a.num b.num)
  | 0x09 => r2 (numMax a.num b.num)
  | 0x0A => ofBits packed (a.bits &&& ~~~sign) a.poison
  | 0x0B => ofBits packed (a.bits ^^^ sign) a.poison
  | 0x0E => l2 (a.bits &&& b.bits)
  | 0x0F => l2 (a.bits ||| b.bits)
  | 0x10 => l2 (a.bits ^^^ b.bits)
  | 0x11 => l2 (a.bits &&& ~~~b.bits)
  | 0x12 => ofBits packed (BitVec.ofInt 32 (roundIntSat 32 .rne a.num)) a.poison
  | 0x13 => ofNum packed (Num.ofInt a.bits.toInt) a.poison
  | 0x14 => ofNum packed (numRint a.num) a.poison
  | 0x15 => l2 ((a.bits &&& ~~~sign) ||| (b.bits &&& sign))
  | 0x16 => r2 (if a.num.isNan then .nan else numScalb a.num b.num)
  | _ => ofNum packed (ofB32 (sfu op a.num.toB32).toB32) a.poison

/-- A stage's writes (R103). -/
def Lane.write (l : Lane) (w : BitVec 64) (r : Opd) : Lane :=
  let l := if wWp w then { l with p := r } else l
  if wTwe w then { l with t := listSet l.t (wTsel w) r } else l

/-- One stage (R103, R104, R133). -/
def stage (packed : Bool) (x : Feedin) (l : Lane) (w : BitVec 64) : Lane :=
  let o (i : Nat) := operandOf packed w x l (wSel w i)
  match wOp w with
  | 0x00 => l
  | 0x0C =>
    let a := o 0
    let b := o 1
    let bad := a.poison || b.poison
    let q := !bad && compare (wCond w) a.num b.num
    ({ l with q := q, qPoison := bad }).write w (ofNum packed (if q then .fin false 1 0 else .zero) bad)
  | 0x0D =>
    let r := if l.q then o 0 else o 1
    l.write w (ofBits packed r.bits (r.poison || l.qPoison))
  | op => l.write w (stageResult packed op (o 0) (o 1) (o 2))

/-- A program over one element, trips in order (R102, R111). -/
def runLane (packed : Bool) (prog : List (BitVec 64)) (x : Feedin) : Lane := prog.foldl (stage packed x) Lane.start

/-- P or a temporary (R141). -/
def Lane.pick (l : Lane) (sel : Nat) : Opd := if sel = 0 then l.p else listGet default l.t (sel - 1)

/-- An element of a stream as a lane value (R118, R132): unchanged in its own format, else rounded once. -/
def decodeLane (packed : Bool) (f : Fmt) (t : Int) (code : Nat) (poison : Bool) : Opd :=
  if f = laneFmt packed then ofBits packed (BitVec.ofNat 32 code) poison
  else ofNum packed ((decodeElem f code).scale2 (if f.isScaled then t else 0)) poison

end Sys2Proof.Machine
end

