-- ==== Sys2Proof/Machine/Chorus.lean ====
section
/-! DEFINITION. Chorus units (03 R99 to R148, R547): operand streams, tiles, outputs, and the chorus cues. -/

namespace Sys2Proof.Machine

/-! Units, stage buffers, ports. -/

def ChoUnit.init : ChoUnit := ⟨[], [], [], 0, [], [], none, []⟩

def State.unit (s : State) (u : Nat) : ChoUnit := NMap.get ChoUnit.init s.cho u

def State.setUnit (s : State) (u : Nat) (v : ChoUnit) : State := { s with cho := NMap.set ChoUnit.init s.cho u v }

def State.updUnit (s : State) (u : Nat) (f : ChoUnit → ChoUnit) : State := s.setUnit u (f (s.unit u))

/-- Bytes of a stage buffer (R119). -/
def stageSize : Nat := 2097152

/-- Port `p`: base and size in 4 KiB units (R143). -/
def ChoUnit.port (x : ChoUnit) (p : Nat) : Nat × Nat := NMap.get (0, 0) x.ports p

def ChoUnit.elems (x : ChoUnit) (p : Nat) : List PElem := NMap.get [] x.fifo p

/-- The area of programs of more than one trip (R112). -/
def tripLo : Nat := 0x140000

/-- What a byte reads as that nothing has written: 0, or a free value of the moment where a program of several trips has
left its lane state, whose layout R112 does not give (log entry 35). -/
def ChoUnit.base (x : ChoUnit) (a : Nat) : Byte :=
  if x.trips = 0 ∨ a < tripLo then 0 else (Config.freeWord (x.trips * stageSize + a)).setWidth 8

/-- How a port keeps its elements in its bytes is not given: a free value of what it holds (log entry 35). -/
def ChoUnit.portByte (x : ChoUnit) (p a : Nat) : Byte :=
  Config.freeByte ((x.elems p).foldl (fun n e => n * 2 ^ 33 + 2 * e.code + 1) 1) a

/-- A byte of a stage buffer: what was written there, or what a port that is on keeps there. -/
def ChoUnit.byte (x : ChoUnit) (a : Nat) : Byte :=
  match (List.range 4).find? fun p => decide ((x.port p).1 * 4096 ≤ a) && decide (a < ((x.port p).1 + (x.port p).2) * 4096) with
  | some p => x.portByte p a
  | none => NMap.get (x.base a) x.stage a

/-- Bytes written to a stage buffer, of a poisoned element or not; bytes at or above 2 MiB do not exist. -/
def ChoUnit.setBytes (x : ChoUnit) (a : Nat) (l : List Byte) (poison : Bool) : ChoUnit :=
  { x with
    stage := l.zipIdx.foldl (fun m (b, i) => if a + i < stageSize then NMap.set (x.base (a + i)) m (a + i) b else m) x.stage
    spoilt := (x.spoilt.filter fun b => !(decide (a ≤ b) && decide (b < a + l.length)))
      ++ if poison then (List.range l.length).map (a + ·) else [] }

/-- Little-endian number of `n` bytes of a stage buffer. -/
def ChoUnit.num (x : ChoUnit) (a n : Nat) : Nat := numOf ((List.range n).map fun i => x.byte (a + i))

/-- An element of `n` bytes is poisoned (R133). -/
def ChoUnit.bad (x : ChoUnit) (a n : Nat) : Bool := x.spoilt.any fun b => decide (a ≤ b) && decide (b < a + n)

/-- A program of several trips has kept its lane state at the top of the buffer (R112). -/
def ChoUnit.keepTrips (x : ChoUnit) (moment : Nat) : ChoUnit :=
  { x with trips := moment + 1, stage := x.stage.filter (·.1 < tripLo), spoilt := x.spoilt.filter (· < tripLo) }

def ChoUnit.setElems (x : ChoUnit) (p : Nat) (l : List PElem) : ChoUnit := { x with fifo := NMap.set [] x.fifo p l }

/-- Bytes of a port's elements. -/
def portBytes (l : List PElem) : Nat := (l.map fun e => (((Fmt.ofCode e.fmt).getD .i8).bits + 7) / 8).sum

/-- A byte range [lo, hi) meets a port that is on. -/
def ChoUnit.meetsPort (x : ChoUnit) (lo hi : Nat) : Bool :=
  x.ports.any fun (_, b, n) => decide (0 < n) && decide (lo < (b + n) * 4096) && decide (b * 4096 < hi)

/-! Fields of descriptors (R140, R141). -/

def dSrc (d : BitVec 64) : Nat := fieldN d 0 3
def dPort (d : BitVec 64) : Nat := fieldN d 3 2
def dFmt (d : BitVec 64) : Nat := fieldN d 7 4
def dOffset (d : BitVec 64) : Nat := fieldN d 11 21
def dRS (d : BitVec 64) : Int := (field d 32 16 : BitVec 16).toInt
def dCS (d : BitVec 64) : Int := (field d 48 16 : BitVec 16).toInt
def oDest (o : BitVec 16) : Nat := fieldN o 0 2
def oSel (o : BitVec 16) : Nat := fieldN o 2 3
def oTarget (o : BitVec 16) : Nat := fieldN o 5 9

/-- Bytes of an element of a stream's format. -/
def dBytes (d : BitVec 64) : Nat := ((Fmt.ofCode (dFmt d)).getD .b32).bits / 8

/-- Streams a kernel needs (R169). -/
def krnStreams (op : Nat) : Nat := match op with
  | 0x38 => 2 | 0x39 => 3 | 0x3A => 1 | 0x3B => 2 | 0x3C => 2 | _ => 4

/-- Streams of a run, or those R169 lists for a kernel (R139, R174). -/
def Cue.streams (c : Cue) : List (BitVec 64) :=
  if c.opcode = 0x20 then [c.operand 60, c.operand 68, c.operand 76, c.operand 84]
  else (List.range (krnStreams c.opcode)).map c.kStream

/-- IN_TAG of a run or kernel. -/
def Cue.inTag (c : Cue) : Nat := if c.opcode = 0x20 then c.crInTag else c.kInTag

/-- Outputs of a run, or of a reduction, scan or kernel cue. -/
def Cue.outputs (c : Cue) : List (BitVec 16) :=
  if c.opcode = 0x20 then [c.output 92, c.output 94] else (List.range 4).map c.rdOut

def Cue.packed (c : Cue) : Bool := c.opcode == 0x20 && c.crPacked

/-- The tile-queue stream of a cue. -/
def Cue.usesTiles (c : Cue) : Bool := c.streams.any fun d => dSrc d == 1

/-- First unit of a gang. -/
def Cue.firstUnit (c : Cue) : Nat := c.engine - 8

/-- Rows a unit of a gang takes without tiles: r mod G = i. -/
def unitRows (rows g i : Nat) : Nat := (rows + g - 1 - i) / g

/-! Checks at the head of the first unit's queue (R547). -/

/-- Byte of element (r, c) of a resident stream (R119). -/
def residentAt (d : BitVec 64) (r c : Nat) : Int := dOffset d + ((r : Int) * dRS d + (c : Int) * dCS d) * (dBytes d : Int)

/-- The corners of a resident stream (R119). -/
def residentCorners (d : BitVec 64) (rows cols : Nat) : List Int :=
  [residentAt d 0 0, residentAt d (rows - 1) 0, residentAt d 0 (cols - 1), residentAt d (rows - 1) (cols - 1)]

/-- A descriptor's field checks (R140). -/
def descField (d : BitVec 64) : List Code :=
  (if 4 ≤ dSrc d then [Code.choField] else [])
  ++ (if dSrc d = 3 ∧ dBytes d ≠ 0 ∧ dOffset d % dBytes d ≠ 0 then [.choField] else [])

/-- A descriptor's format (R117). R117 gives no code for a tile-queue descriptor of another format: it halts with
FORMAT_UNSUPPORTED as the others do (DESIGN CHOICE, log entry 35). -/
def descFmt (d : BitVec 64) : List Code := match dSrc d with
  | 1 => if dFmt d = 6 ∨ dFmt d = 8 then [] else [.formatUnsupported]
  | 2 | 3 => match Fmt.ofCode (dFmt d) with
    | some .f4 | some .i4 | some .i64 | none => [.formatUnsupported]
    | _ => []
  | _ => []

/-- A stream's place in a unit (R112, R119, R120): of a resident one the corners count. -/
def ChoUnit.descPlace (x : ChoUnit) (d : BitVec 64) (rows cols : Nat) (trips : Bool) : List Code := match dSrc d with
  | 2 =>
    let p := x.port (dPort d)
    let rs := dRS d
    let cs := dCS d
    let pairOk := (rs == 1 || rs == 0) && (cs == 1 || cs == 0)
    if pairOk = false ∨ p.2 = 0 ∨ (rs = 0 ∧ cs = 1 ∧ p.2 * 4096 < cols * dBytes d) then [.choOperand] else []
  | 3 =>
    if (residentCorners d rows cols).any (fun a => decide (a < 0) || decide ((stageSize : Int) ≤ a)
        || x.meetsPort a.toNat (a.toNat + dBytes d) || (trips && decide (tripLo < a.toNat + dBytes d)))
      then [.choOperand] else []
  | _ => []

/-- A port that is on in the area of a program of more than one trip (R112). -/
def ChoUnit.tripPort (x : ChoUnit) (trips : Bool) : List Code := if trips ∧ x.meetsPort tripLo stageSize then [.choOperand] else []

/-- Arrays or banks of the fills a run with a tile operand will claim: those of its oldest fill, or those of the mode while
no fill is there; APART leaves them to the fill. -/
def State.tileArrays (s : State) (l : Line) (c : Cue) : Option Nat :=
  match s.arr.fills.find? (fun f => f.2.line == l && f.2.tag == c.inTag && f.2.owner.isNone) with
  | some (_, x) => some x.arrays
  | none => if s.arr.mode = 2 then none else some (if s.arr.split then 2 else s.arrCount)

/-- Rows unit `i` of a gang takes (R101, R126); where the arrays are not known yet, an even share (DESIGN CHOICE, log entry
35). -/
def State.unitShare (s : State) (l : Line) (c : Cue) (i : Nat) : Nat :=
  match (if c.usesTiles then s.tileArrays l c else none) with
  | some a => c.rows / a * unitRows a c.gang i
  | none => unitRows c.rows c.gang i

/-- An output descriptor (R134, R135, R141): `bytes` is what each unit of the gang writes to its stage region. -/
def State.outChecks (s : State) (c : Cue) (o : BitVec 16) (bytes : Nat → Nat) (trips : Bool) : List Code :=
  (if 5 ≤ oSel o then [Code.choField] else [])
  ++ (if oDest o = 1 ∧ (oTarget o < 16 ∨ 16 + s.build.flies < oTarget o + c.gang) then [.choField] else [])
  ++ (if oDest o = 2 then
        let lo := oTarget o * 4096
        if (List.range c.gang).any (fun i => decide (0 < bytes i) && (decide (stageSize < lo + bytes i)
            || (trips && decide (tripLo < lo + bytes i)) || (s.unit (c.firstUnit + i)).meetsPort lo (lo + bytes i)))
          then [.choOperand] else []
      else [])

/-- Checks that a run and a kernel share: streams, GANG, ROWS and COLS (R101, R122, R139). -/
def State.streamChecks (s : State) (c : Cue) (trips : Bool) : List Code :=
  (if c.firstUnit % c.gang ≠ 0 then [Code.choField] else [])
  ++ (c.streams.map descField).flatten ++ (c.streams.map descFmt).flatten
  ++ ((List.range c.gang).map fun i =>
        (s.unit (c.firstUnit + i)).tripPort trips
          ++ (c.streams.map fun d => (s.unit (c.firstUnit + i)).descPlace d c.rows c.cols trips).flatten).flatten
  ++ (if 1 < (c.streams.filter fun d => dSrc d == 1).length then [.choOperand] else [])

/-- The program a run names, empty where the slot is invalid. -/
def State.program (s : State) (u slot : Nat) : List (BitVec 64) := NMap.get [] (s.unit u).progs slot

/-- The program only passes a raw tile on (R129). -/
def rawPass (c : Cue) (prog : List (BitVec 64)) : Bool := match prog with
  | [w] => wOp w == 1 && wWp w && (match c.streams[wSel w 0 - 1]? with | some d => dSrc d == 1 | none => false)
      && decide (1 ≤ wSel w 0) && oDest (c.output 92) == 1 && oSel (c.output 92) == 0 && oDest (c.output 94) == 0
  | _ => false

/-- R547 for a `CHO_RUN` of line `l`. -/
def State.runChecks (s : State) (l : Line) (c : Cue) : List Code :=
  let prog := s.program c.firstUnit c.crProg
  let trips := decide (8 < prog.length)
  let eb := if c.crPacked then 2 else 4
  (if prog.isEmpty then [Code.choField] else [])
  ++ (if c.rows = 0 ∨ c.cols = 0 ∨ 65536 < c.cols then [.choField] else [])
  ++ s.streamChecks c trips
  ++ (c.outputs.map fun o => s.outChecks c o (fun i => s.unitShare l c i * c.cols * eb) trips).flatten
  ++ (if c.crPacked ∧ prog.any (fun w => wOp w == 0x12 || wOp w == 0x13) then [.choProgram] else [])
  ++ (if prog.any (fun w => [0, 1, 2].any fun i =>
        let k := wSel w i
        decide (1 ≤ k) && decide (k ≤ 4) && dSrc (listGet 0 c.streams (k - 1)) == 0) then [.choOperand] else [])
  ++ (if c.streams.any (fun d => dSrc d == 1 && dFmt d == 8) ∧ rawPass c prog = false then [.choOperand] else [])

/-! Gangs and runs. -/

def State.gangRun (s : State) (uid : Nat) : Option GangRun := (s.gangs.find? (·.1 == uid)).map (·.2)

def State.setGang (s : State) (uid : Nat) (g : GangRun) : State := { s with gangs := NMap.put s.gangs uid g }

/-- The unit drops its run of cue `uid`. -/
def ChoUnit.dropRun (uid : Nat) (x : ChoUnit) : ChoUnit :=
  if x.run.any (fun r => r.uid == uid) then { x with run := none, store := [] } else x

/-- A tile its run gives back. -/
def TqTile.giveBack (uid : Nat) (t : TqTile) : TqTile := if t.begun = some uid then { t with begun := none } else t

/-- A fill its run gives back. -/
def FillInfo.giveBack (uid : Nat) (x : FillInfo) : FillInfo := if x.owner = some uid then { x with owner := none } else x

/-- Fills that no run holds and that have no tile left are forgotten. -/
def Arr.pruneFills (a : Arr) : Arr :=
  { a with fills := a.fills.filter fun x => x.2.owner.isSome || a.tq.any (fun t => t.2.fill == x.1)
      || a.drain.any (fun t => t.2.fill == x.1) }

/-- Every unit drops a cue's run; tiles of which no row has been taken stay in their slots (R127), and the fills they
belong to may be claimed again. -/
def State.dropRuns (s : State) (uid : Nat) : State :=
  let tq := s.arr.tq.filter fun t => t.2.begun != some uid || t.2.taken == 0
  { s with gangs := NMap.del s.gangs uid
           cho := NMap.mapVals (fun _ x => x.dropRun uid) s.cho
           arr := Arr.pruneFills { s.arr with
             tq := NMap.mapVals (fun _ t => t.giveBack uid) tq
             fills := NMap.mapVals (fun _ x => x.giveBack uid) s.arr.fills } }

/-- The claimant that has started with a run: the next cue in the queue of the run's first unit (R150, R151). -/
def State.startedClaimant (s : State) (uid : Nat) : Option Nat := match s.flight uid with
  | some f =>
    if feedsRed f.q.cue = false ∨ (s.gangRun uid).isNone then none
    else (List.range f.q.cue.gang).findSome? fun i =>
      match ((s.queue (8 + f.q.cue.firstUnit + i)).dropWhile (· != uid)).drop 1 with
      | k :: _ => (s.flight k).bind fun g => if isRed g.opcode && g.stage == .started then some k else none
      | [] => none
  | none => none

/-- A claimant that has started runs as one cue with its run (R151): it goes with it, without posts. -/
def State.dropClaimant (s : State) (k : Option Nat) : State := match k with
  | some k => (s.unqueue k).dropFlight k
  | none => s

/-- A cue whose engine halts on it in the middle of its run. -/
def State.killRun (s : State) (uid engine : Nat) (code : Code) : State :=
  ((s.dropRuns uid).dropClaimant (s.startedClaimant uid)).engineHalt uid engine code

/-- The cue at the head of a unit's queue, if it may go on: started cues run on when their line halts (R146). -/
def State.unitHead (s : State) (u : Nat) : Option Flight :=
  (s.head (8 + u)).filter fun f => s.mayStart f || (f.stage == .started && s.enginesRun)

/-- The run of a unit, opened when the cue has passed its checks. -/
def State.openRun (s : State) (u uid : Nat) : State := match (s.unit u).run with
  | some _ => s
  | none => s.updUnit u fun x => { x with run := some ⟨uid, 0, 0, 0, 0, none, [], []⟩ }

/-- A cue of chorus work starts: the first unit checks it, the others follow (R547). -/
def State.openGang (s : State) (u : Nat) (f : Flight) (checks : List Code) : Option State :=
  match s.gangRun f.q.uid with
  | some _ => some (s.openRun u f.q.uid)
  | none =>
    if u ≠ f.q.cue.firstUnit then none
    else match leastCode checks with
    | some code => some (s.engineHalt f.q.uid (8 + u) code)
    | none => some (((s.setGang f.q.uid ⟨[], []⟩).startFlight f.q.uid).openRun u f.q.uid)

/-- The run of unit `u` for cue `uid`. -/
def State.runOf (s : State) (u uid : Nat) : Option URun := ((s.unit u).run).filter (·.uid == uid)

def State.setRun (s : State) (u : Nat) (r : URun) : State := s.updUnit u fun x => { x with run := some r }

/-- The unit is done with the cue; the last unit of the gang finishes it. -/
def State.closeRun (s : State) (u uid : Nat) : State :=
  let s := s.updUnit u fun x => { x with run := none, store := [] }
  let s := (s.unqueueAt (8 + u) uid).unitDone uid
  match s.flight uid with
  | some f => if f.stage = .finished then
      let fills := match s.gangRun uid with | some g => g.fills | none => []
      { s with gangs := NMap.del s.gangs uid
               arr := { s.arr with fills := s.arr.fills.filter fun x => !fills.contains x.1 } }
    else s
  | none => s

/-! Tiles (R126 to R129). -/

/-- The tile of a slot changed. -/
def State.mapSlot (s : State) (slot : Nat) (f : TqTile → TqTile) : State :=
  { s with arr := { s.arr with tq := NMap.mapVals (fun k t => if k = slot then f t else t) s.arr.tq } }

/-- Oldest fill of the line and tag that no run has claimed. -/
def State.nextFill (s : State) (l : Line) (tag : Nat) : Option (Nat × FillInfo) :=
  s.arr.fills.find? fun (_, x) => x.line == l && x.tag == tag && x.owner.isNone

/-- R127 and R129 for a fill: COLS, ROWS, the shape of the fills claimed before, and raw tiles for an I64 operand. -/
def State.fillFits (s : State) (c : Cue) (g : GangRun) (x : FillInfo) : Bool :=
  let k := x.arrays * x.m
  let i64 := c.streams.any fun d => dSrc d == 1 && dFmt d == 8
  c.cols == x.n && decide (0 < k) && c.rows % k == 0 && (!i64 || x.raw)
    && (match g.fills with
      | [] => true
      | f :: _ => match s.arr.fills.find? (·.1 == f) with
        | some (_, y) => y.m == x.m && y.n == x.n && y.raw == x.raw && y.arrays == x.arrays
        | none => true)

/-- The run's `q`-th fill: one it has claimed, or the oldest that is free; and whether it is claimed. -/
def State.fillAt (s : State) (f : Flight) (g : GangRun) (q : Nat) : Option (Bool × Nat × FillInfo) :=
  match g.fills[q]? with
  | some seq => (s.arr.fills.find? (·.1 == seq)).map (true, ·)
  | none => (s.nextFill f.q.line f.q.cue.inTag).map (false, ·)

/-- A run claims a fill. -/
def State.claimFill (s : State) (uid : Nat) (g : GangRun) (seq : Nat) (x : FillInfo) : State :=
  let s := s.setGang uid { g with fills := g.fills ++ [seq] }
  { s with arr := { s.arr with fills := NMap.put s.arr.fills seq { x with owner := some uid } } }

/-- `TILE_CLAIM`: the next tile in the unit's order once it is in a slot (R126); a tile whose fill does not fit halts the
line and stays (R127). -/
def State.tileClaim (s : State) (u : Nat) : State := match s.unitHead u with
  | none => s
  | some f => match s.runOf u f.q.uid with
    | none => s
    | some r =>
      if f.q.cue.usesTiles = false ∨ r.slot.isSome then s
      else match s.gangRun f.q.uid with
      | none => s
      | some g => match s.fillAt f g r.q with
      | none => s
      | some (mine, seq, x) =>
        let i := u - f.q.cue.firstUnit
        let arr := if r.m = 0 ∧ r.arr = 0 then i else r.arr
        match s.arr.tq.find? (fun (_, t) => t.fill == seq && t.arr == arr && t.first == r.m) with
        | none => s
        | some (slot, _) =>
          if mine = false ∧ s.fillFits f.q.cue g x = false then s.killRun f.q.uid (8 + u) .choTileMismatch
          else
            let s := if mine then s else s.claimFill f.q.uid g seq x
            let s := s.mapSlot slot fun t => { t with begun := some f.q.uid }
            s.setRun u { r with slot := some slot, arr := arr }

/-- The unit has no tile of the run left to take: none of the fill's arrays is its own, or every fill is done. -/
def State.tilesDone (s : State) (u : Nat) (f : Flight) (r : URun) : Bool := match s.gangRun f.q.uid with
  | none => false
  | some g => match g.fills with
    | [] => false
    | seq :: _ => match s.arr.fills.find? (·.1 == seq) with
      | none => false
      | some (_, x) =>
        decide (x.arrays ≤ u - f.q.cue.firstUnit) || decide (f.q.cue.rows ≤ r.q * (x.arrays * x.m))

/-- One row of the claimed tile: the row's words, the tile, and the relative row of R128. -/
def State.tileRow (s : State) (r : URun) : Option (List (BitVec 64) × TqTile × Nat) := match r.slot with
  | none => none
  | some slot => match s.arr.tq.find? (·.1 == slot) with
    | none => none
    | some (_, t) => match s.arr.fills.find? (·.1 == t.fill) with
      | none => none
      | some (_, x) => (t.rows[t.taken]?).map fun w =>
          (w, t, r.q * x.arrays * x.m + r.arr * x.m + r.m + t.taken)

/-- The row is taken: the slot is freed behind its last row, and the place moves on (R126). -/
def State.takeTileRow (s : State) (u : Nat) (f : Flight) (r : URun) (t : TqTile) : State :=
  let slot := r.slot.getD 0
  if t.taken + 1 < t.rows.length then
    s.mapSlot slot fun x => { x with taken := x.taken + 1 }
  else
    let s := { s with arr := { s.arr with tq := s.arr.tq.filter (·.1 != slot) } }
    match s.arr.fills.find? (·.1 == t.fill) with
    | none => s.setRun u { r with slot := none }
    | some (_, x) =>
      let m := r.m + t.rows.length
      let i := u - f.q.cue.firstUnit
      if m < x.m then s.setRun u { r with slot := none, m := m }
      else if r.arr + f.q.cue.gang < x.arrays then s.setRun u { r with slot := none, m := 0, arr := r.arr + f.q.cue.gang }
      else s.setRun u { r with slot := none, m := 0, arr := i, q := r.q + 1 }

/-! Streams of a row. -/

/-- What a stream gives for one row: it waits, it meets a wrong format (R118), or elements by column. -/
inductive Gives where
  | waits | wrong | ok (elems : List Opd) (raw : List (BitVec 64))
  deriving Repr

/-- Elements of a FIFO stream for one row: those taken now, whether they are kept for every row, and whether the column
index selects among them (R120). -/
def fifoNeed (d : BitVec 64) (cols : Nat) : Nat := if dCS d = 0 then 1 else cols

/-- A stream's elements for row `r`, column by column. -/
def State.streamRow (s : State) (u : Nat) (run : URun) (packed : Bool) (cols : Nat) (r : Nat) (i : Nat) (d : BitVec 64)
    (tile : Option (List (BitVec 64) × TqTile × Nat)) : Gives :=
  let x := s.unit u
  match dSrc d with
  | 1 => match tile with
    | none => .waits
    | some (w, t, _) =>
      let bad (c : Nat) : Bool := t.poison.contains (t.taken, c)
      if t.raw ∧ dFmt d ≠ 8 then
        .ok (w.zipIdx.map fun (v, c) => ofNum packed (ofB32 ((Acc.ofRaw v).value (t.e - 56)).toB32) (bad c)) w
      else .ok (w.zipIdx.map fun (v, c) => decodeLane packed .b32 0 v.toNat (bad c)) w
  | 2 =>
    let n := fifoNeed d cols
    let kept := NMap.get [] run.kept i
    let l := if dRS d = 0 ∧ kept ≠ [] then kept else (NMap.get [] run.kept (8 + i) ++ x.elems (dPort d)).take n
    if l.any (fun e => e.fmt != dFmt d) then .wrong
    else if l.length < n then .waits
    else
      let v := l.map fun e => decodeLane packed ((Fmt.ofCode e.fmt).getD .b32) e.t e.code e.poison
      .ok (if dCS d = 0 then List.replicate cols (listGet default v 0) else v) []
  | 3 =>
    let f := (Fmt.ofCode (dFmt d)).getD .b32
    .ok ((List.range cols).map fun (c : Nat) =>
      let a := (residentAt d r c).toNat
      decodeLane packed f 0 (x.num a (dBytes d)) (x.bad a (dBytes d))) []
  | _ => .ok [] []

/-- The FIFO elements a row has used leave their port, or are kept for the later rows (R120). -/
def State.useStream (s : State) (u : Nat) (cols : Nat) (i : Nat) (d : BitVec 64) : State :=
  if dSrc d ≠ 2 then s
  else match (s.unit u).run with
  | none => s
  | some run =>
    let n := fifoNeed d cols
    let l := (s.unit u).elems (dPort d)
    if dRS d = 0 then
      if NMap.get [] run.kept i ≠ [] then s
      else s.updUnit u fun x => { (x.setElems (dPort d) (l.drop n)) with
        run := some { run with kept := NMap.put run.kept i (l.take n) } }
    else
      let drawn := NMap.get [] run.kept (8 + i)
      s.updUnit u fun x => { (x.setElems (dPort d) (l.drop (n - drawn.length))) with
        run := some { run with kept := NMap.del run.kept (8 + i) } }

/-- A full stream whose rows are larger than its port needs no whole row in it: the unit draws what is there (R120). -/
def State.drawRow (s : State) (u : Nat) (f : Flight) : State :=
  f.q.cue.streams.zipIdx.foldl (fun s (d, i) => match (s.unit u).run with
    | none => s
    | some run =>
      let p := dPort d
      if dSrc d ≠ 2 ∨ dRS d = 0 ∨ dCS d = 0 ∨ f.q.cue.cols * dBytes d ≤ ((s.unit u).port p).2 * 4096 then s
      else
        let drawn := NMap.get [] run.kept (8 + i)
        let l := (s.unit u).elems p
        let m := ((l.take (f.q.cue.cols - drawn.length)).takeWhile fun e => e.fmt == dFmt d)
        s.updUnit u fun x => { (x.setElems p (l.drop m.length)) with
          run := some { run with kept := NMap.put run.kept (8 + i) (drawn ++ m) } }) s

/-- The operands of one row of a cue: `none` waits. -/
structure RowIn where
  r     : Nat
  elems : List (List Opd)
  raw   : List (BitVec 64)
  e     : Int
  tile  : Option TqTile
  deriving Repr

/-- The next row of unit `u`: its relative row and operands. -/
def State.rowIn (s : State) (u : Nat) (f : Flight) (run : URun) : Option (RowIn ⊕ Unit) :=
  let c := f.q.cue
  let tile := if c.usesTiles then s.tileRow run else none
  if c.usesTiles ∧ tile.isNone then none
  else
    let r := match tile with | some (_, _, r) => r | none => run.j * c.gang + (u - c.firstUnit)
    let g := c.streams.zipIdx.map fun (d, i) => s.streamRow u run c.packed c.cols r i d tile
    if g.any (fun x => match x with | .wrong => true | _ => false) then some (.inr ())
    else if g.any (fun x => match x with | .waits => true | _ => false) then none
    else
      let el := g.map fun x => match x with | .ok l _ => l | _ => []
      some (.inl ⟨r, el, (tile.map (·.1)).getD [], match tile with | some (_, t, _) => t.e | none => 0,
        tile.map (·.2.1)⟩)

/-- The row's operands are used up. -/
def State.rowUsed (s : State) (u : Nat) (f : Flight) (x : RowIn) : State :=
  let c := f.q.cue
  let s := c.streams.zipIdx.foldl (fun s (d, i) => s.useStream u c.cols i d) s
  match x.tile, (s.unit u).run with
  | some t, some r => s.takeTileRow u f r t
  | _, _ => s

/-! Outputs (R123, R133 to R135). -/

/-- An output element: bits in the lane's width, or raw with its E. -/
structure OutElem where
  kind   : Nat
  bits   : BitVec 64
  e      : Int
  poison : Bool
  live   : Bool
  deriving DecidableEq, Repr, Inhabited

/-- Key of a lane to a fly engine: the engine, the output as a transfer names it, the unit (R182). O2 and O3 go by the bit of
O0 and O1 (DESIGN CHOICE, log entry 35). -/
def laneKey (engine output u : Nat) : Nat := engine * 16 + output % 2 * 8 + u

/-- Elements of one row go to a fly FIFO or a stage region; `j` is the row's number in the unit, `per` the elements of a
row. -/
def State.putRow (s : State) (c : Cue) (u k : Nat) (o : BitVec 16) (j per : Nat) (l : List OutElem) : State :=
  match oDest o with
  | 1 =>
    let key := laneKey (oTarget o + (u - c.firstUnit)) k u
    let old := NMap.get [] s.lanes key
    { s with lanes := NMap.set [] s.lanes key (old ++ l.map fun x => ⟨x.kind, x.bits, x.e, x.poison, !x.live⟩) }
  | 2 => s.updUnit u fun y => l.zipIdx.foldl (fun y (x, i) =>
      if x.live = false then y
      else
        let b := if x.kind = 1 then 2 else if x.kind = 2 then 8 else 4
        let v := if x.poison then (if x.kind = 1 then 0x7FC0 else 0x7FC00000) else x.bits.toNat
        y.setBytes (oTarget o * 4096 + (j * per + i) * b) (bytesOf b v) false) y
  | _ => s

/-- NaN and poison counts of an output row (R133). -/
def State.countNan (s : State) (l : List OutElem) : State :=
  let bad (x : OutElem) : Bool := x.live && (x.poison || (match x.kind with
    | 0 => (decodeElem .b32 x.bits.toNat).isNan
    | 1 => (decodeElem .f16 x.bits.toNat).isNan
    | _ => rawIsNan x.bits))
  (s.count R.choNanCount (l.filter bad).length).count R.choPoisonCount (l.filter fun x => x.live && x.poison).length

/-- One row through the chain: the lanes by column (R102, R107). -/
def chainRow (c : Cue) (prog : List (BitVec 64)) (x : RowIn) : List Lane :=
  (List.range c.cols).map fun col =>
    runLane c.packed prog ⟨x.elems.map fun l => listGet default l col, c.crRowBase + x.r, c.crColBase + col⟩

/-- The elements of an output of a run (R123, R129, R134). -/
def outRow (c : Cue) (x : RowIn) (lanes : List Lane) (o : BitVec 16) : List OutElem :=
  let i64 := c.streams.any fun d => dSrc d == 1 && dFmt d == 8
  if i64 then x.raw.zipIdx.map fun (w, i) =>
    let l := listGet Lane.start lanes i
    ⟨2, w, x.e, l.p.poison, !c.crMaskEn || l.q⟩
  else lanes.map fun l =>
    let v := l.pick (oSel o)
    ⟨if c.packed then 1 else 0, v.bits.setWidth 64, 0, v.poison, !c.crMaskEn || l.q⟩

/-- The unit has taken all its rows. -/
def State.rowsDone (s : State) (u : Nat) (f : Flight) (r : URun) : Bool :=
  let c := f.q.cue
  if c.usesTiles then s.tilesDone u f r else decide (unitRows c.rows c.gang (u - c.firstUnit) ≤ r.j)

/-- Row counters of a unit. -/
def State.rowCounted (s : State) (u cols : Nat) : State :=
  let s := s.count64 (R.choUElemsLo u) (R.choUElemsHi u) cols
  s.updUnit u fun x => { x with run := x.run.map fun r => { r with j := r.j + 1 } }

/-- A row of a program of several trips keeps its lane state in the stage buffer (R112). -/
def State.keepTrips (s : State) (u : Nat) (prog : List (BitVec 64)) : State :=
  if prog.length ≤ 8 then s else s.fresh.2.updUnit u fun x => x.keepTrips s.fresh.1

/-- The outputs of a run's row that leave the unit. -/
def State.putRun (s : State) (u : Nat) (c : Cue) (j : Nat) (x : RowIn) (lanes : List Lane) : State :=
  c.outputs.zipIdx.foldl (fun s (o, k) =>
    if oDest o = 0 then s
    else
      let l := outRow c x lanes o
      (s.countNan l).putRow c u k o j c.cols l) s

/-- One row of a `CHO_RUN`: `none` where the unit waits or has no row left. -/
def State.runRow (s : State) (u uid : Nat) : Option State := match s.flight uid, s.runOf u uid with
  | some f, some run =>
    if s.rowsDone u f run then none
    else match s.rowIn u f run with
    | none => none
    | some (.inr ()) => some (s.killRun uid (8 + u) .choOperand)
    | some (.inl x) =>
      let c := f.q.cue
      let lanes := chainRow c (s.program u c.crProg) x
      let s := (s.rowUsed u f x).keepTrips u (s.program u c.crProg)
      some ((s.putRun u c run.j x lanes).rowCounted u c.cols)
  | _, _ => none

/-- What a unit that waits within a row draws. -/
def State.drawRows (s : State) (u uid : Nat) : State := match s.flight uid, s.runOf u uid with
  | some f, some run => if s.rowsDone u f run then s else s.drawRow u f
  | _, _ => s

/-- The unit closes a cue whose rows it has all taken. -/
def State.closeIfDone (s : State) (u uid : Nat) : State := match s.flight uid, s.runOf u uid with
  | some f, some run => if s.rowsDone u f run then (s.countMod (R.choURuns u) 1).closeRun u uid else s
  | _, _ => s

/-- `CHO_RUN` in unit `u`: every row whose operands are there (R101, R547). -/
def State.choRun (s : State) (u : Nat) : State := match s.unitHead u with
  | none => s
  | some f =>
    if f.opcode ≠ 0x20 ∨ feedsRed f.q.cue then s
    else match s.openGang u f (s.runChecks f.q.line f.q.cue) with
    | none => s
    | some s =>
      let s := (iterWhile f.q.cue.rows (fun s => s.runRow u f.q.uid) s).drawRows u f.q.uid
      s.closeIfDone u f.q.uid

/-! The other chorus cues. -/

/-- Field and address checks of a `CHO_PROG_LOAD` (R142). -/
def State.progChecks (s : State) (c : Cue) : List Code :=
  (if c.cpAddr % 8 ≠ 0 ∨ c.cpWords = 0 ∨ 32 < c.cpWords then [Code.choField] else [])
  ++ (if s.localRangeOk c.cpAddr (8 * c.cpWords) = false then [.localAddr] else [])

def State.setProg (s : State) (u slot : Nat) (ws : List (BitVec 64)) : State :=
  s.updUnit u fun x => { x with progs := NMap.set [] x.progs slot ws }

/-- The target slot becomes invalid in every unit of the mask (R110, R142). -/
def State.emptyProgs (s : State) (c : Cue) : State :=
  ((List.range 8).filter c.cpMask.testBit).foldl (fun s u => s.setProg u c.cpSlot []) s

/-- `CHO_PROG_LOAD` in unit `u` (R110, R142, R547): the lowest unit of the mask checks it first, at the head of its own
queue; each unit of the mask loads the words at the head of its own. -/
def State.choProgLoad (s : State) (u : Nat) : State := match s.unitHead u with
  | none => s
  | some f =>
    let c := f.q.cue
    if f.opcode ≠ 0x21 ∨ (f.stage = .queued ∧ u ≠ c.firstUnit) then s
    else match (if f.stage = .queued then leastCode (s.progChecks c) else none) with
    | some code => (if code = .localAddr then s.count R.propLocalRefused 1 else s).engineHalt f.q.uid (8 + u) code
    | none =>
      let r := s.readPlain (8 + u) c.cpAddr (8 * c.cpWords)
      let s := r.2
      let ws := (List.range c.cpWords).map fun i => BitVec.ofNat 64 (numOf ((r.1.1.drop (8 * i)).take 8))
      if r.1.2 then (s.emptyProgs c).engineHalt f.q.uid c.engine .uncorrectableCue
      else if ws.zipIdx.any (fun (w, i) => !wordOk i w) then (s.emptyProgs c).engineHalt f.q.uid c.engine .choProgram
      else
        let s := (s.setProg u c.cpSlot ws).startFlight f.q.uid
        (s.unqueueAt (8 + u) f.q.uid).unitDone f.q.uid

/-- Ports of a `CHO_CONFIG` as (base, size) (R143). -/
def configPorts (c : Cue) : List (Nat × Nat) := (List.range 4).map fun i => (c.ccfBase i, c.ccfSize i)

/-- R143: ports overlap one another or pass 2 MiB. -/
def portsBad (l : List (Nat × Nat)) : Bool :=
  let on := l.zipIdx.filter fun x => decide (0 < x.1.2)
  on.any (fun x => decide (512 < x.1.1 + x.1.2)) ||
    on.any fun x => on.any fun y => x.2 != y.2 && decide (x.1.1 < y.1.1 + y.1.2) && decide (y.1.1 < x.1.1 + x.1.2)

/-- `CHO_CONFIG` in unit `u` (R143, R547): the lowest unit of the mask checks it first; the ports it changes are emptied. -/
def State.choConfig (s : State) (u : Nat) : State := match s.unitHead u with
  | none => s
  | some f =>
    let c := f.q.cue
    if f.opcode ≠ 0x22 ∨ (f.stage = .queued ∧ (lowBit c.ccfMask).getD u ≠ u) then s
    else if portsBad (configPorts c) then s.engineHalt f.q.uid (8 + u) .choField
    else
      let s := if c.ccfMask.testBit u then
          (configPorts c).zipIdx.foldl (fun s (p, i) =>
            if (s.unit u).port i = p then s
            else s.updUnit u fun x => { (x.setElems i []) with ports := NMap.set (0, 0) x.ports i p }) s
        else s
      let s := s.startFlight f.q.uid
      (s.unqueueAt (8 + u) f.q.uid).unitDone f.q.uid

/-- A unit whose claimed tile is gone has none. -/
def ChoUnit.loseSlot (gone : List Nat) (x : ChoUnit) : ChoUnit :=
  { x with run := x.run.map fun r => { r with slot := r.slot.filter fun k => !gone.contains k } }

/-- Tiles of line and tag `p` of which no run has begun to take rows leave their slots, and the rows that a fill issued by
the moment `by_` has still to give are dropped behind the drain (R131). -/
def State.dropTiles (s : State) (p : Line → Nat → Bool) (by_ : Nat) : State :=
  let a := s.arr
  let gone := (a.tq.filter fun t => t.2.taken == 0 && p t.2.line t.2.tag).map (·.1)
  let early (t : TqTile) : Bool := match a.fills.find? (·.1 == t.fill) with
    | some (_, x) => decide (x.issued ≤ by_)
    | none => true
  let s := { s with
    cho := NMap.mapVals (fun _ x => ChoUnit.loseSlot gone x) s.cho
    arr := Arr.pruneFills { a with
      tq := a.tq.filter fun t => !gone.contains t.1
      drain := a.drain.filter fun t => !(p t.2.line t.2.tag && early t.2) } }
  s.drained

/-- `CHO_TQ_DROP` (R131, R144). -/
def State.choTqDrop (s : State) (u : Nat) : State := match s.unitHead u with
  | none => s
  | some f =>
    if f.opcode ≠ 0x23 then s
    else
      let s := s.dropTiles (fun l tag => l == f.q.line && tag == f.q.cue.ctTag) (f.q.uid / 4)
      (s.unqueue f.q.uid).finishFlight f.q.uid

end Sys2Proof.Machine
end

