-- ==== Sys2Proof/Machine/Reduce.lean ====
section
/-! DEFINITION. Reduction and scan units and the fused kernels (04 R149 to R179). -/

namespace Sys2Proof.Machine

/-- An element as the reduction unit takes it: live, and its value, poison as NaN (R133, R153). -/
structure REl where
  live : Bool
  x    : Num
  deriving DecidableEq, Repr, Inhabited

def OutElem.toREl (o : OutElem) : REl :=
  ⟨o.live, if o.poison then .nan else decodeElem .b32 o.bits.toNat⟩

/-- A binary32 result as an output element. -/
def b32Elem (live : Bool) (x : Num) : OutElem := ⟨0, x.toB32.setWidth 64, 0, false, live⟩

/-- An I32 index as an output element. -/
def idxElem (i : Int) : OutElem := ⟨0, (BitVec.ofInt 32 i).setWidth 64, 0, false, true⟩

/-! Sums (R48, R154). -/

/-- Largest finite magnitude. -/
def maxMag (l : List Num) : Num :=
  l.foldl (fun a x => match x with | .fin _ _ _ => if a.absLt x then x.abs else a | _ => a) Num.zero

/-- E of R48 for `n` terms. -/
def sumE (n : Nat) (l : List Num) : Int :=
  let m := maxMag l
  if m.isZero then 0 else m.ceilLog2 + (ceilLog2 n : Int)

/-- ±(2^95 − 2) (R154). -/
def redTop : Int := 2 ^ 95 - 2

def Acc.sat96 (a : Acc) : Acc × Bool :=
  let v := max (-redTop) (min redTop a.n)
  ({ a with n := v }, v != a.n)

def rmodeOf (code : Nat) : Rnd := if code = 1 then .rtz else .rne

/-- SUM: the result, its E, and whether it saturated. -/
def osum (r : Rnd) (n : Nat) (l : List Num) : Num × Int × Bool :=
  let e := sumE n l
  let st := (l.foldl (fun a x => a.addTerm (e - 88) x) Acc.zero).sat96
  (ofB32 (BitVec.ofNat 32 (roundTo .b32 r (st.1.value (e - 88)))), e, st.2)

/-! Order (R155, R156). -/

/-- `x` beats `y` as a maximum: NaN over every number, −0 below +0. -/
def beats (x y : Num) : Bool :=
  if y.isNan then false else if x.isNan then true
  else y.lt x || (x.isZero && y.isZero && y.isNeg && !x.isNeg)

/-- `x` beats `y` as a minimum. -/
def beatsMin (x y : Num) : Bool :=
  if y.isNan then false else if x.isNan then true
  else x.lt y || (x.isZero && y.isZero && x.isNeg && !y.isNeg)

/-- The first winner among indexed values. -/
def winner (b : Num → Num → Bool) (l : List (Num × Nat)) : Option (Num × Nat) :=
  l.foldl (fun a p => match a with
    | none => some p
    | some w => if b p.1 w.1 then some p else some w) none

/-- Insertion behind everything that is not beaten. -/
def insertTop (p : Num × Nat) : List (Num × Nat) → List (Num × Nat)
  | [] => [p]
  | q :: rest => if beats p.1 q.1 then p :: q :: rest else q :: insertTop p rest

/-- The K largest, ties by rising index (R156). -/
def topK (k : Nat) (l : List (Num × Nat)) : List (Num × Nat) := (l.foldl (fun a p => insertTop p a) []).take k

/-! Row operations (R153 to R158). -/

/-- Outputs of a row operation: O0, O1, the E of a sum, saturations, and whether the row was empty. -/
structure RowOut where
  o0    : List OutElem
  o1    : List OutElem
  e     : Option Int
  sat   : Nat
  empty : Bool
  deriving Repr

/-- Prefix sums of a row: segments restart at flags (R157). -/
def psum (r : Rnd) (n : Nat) (l : List (REl × Bool)) : List OutElem × Int × Nat :=
  let e := sumE n ((l.filter (·.1.live)).map (·.1.x))
  let st := l.foldl (fun (st : List OutElem × Acc × Nat) p =>
    let acc := if p.2 then Acc.zero else st.2.1
    if p.1.live then
      let acc := acc.addTerm (e - 88) p.1.x
      let v := acc.sat96
      (st.1 ++ [b32Elem true (ofB32 (BitVec.ofNat 32 (roundTo .b32 r (v.1.value (e - 88)))))], acc,
        st.2.2 + if v.2 then 1 else 0)
    else (st.1 ++ [b32Elem false .zero], acc, st.2.2)) ([], Acc.zero, 0)
  (st.1, e, st.2.2)

/-- Prefix maxima of a row. -/
def pmax (l : List (REl × Bool)) : List OutElem :=
  (l.foldl (fun (st : List OutElem × Option Num) p =>
    let cur := if p.2 then none else st.2
    if p.1.live then
      let v := match cur with | none => p.1.x | some w => if beats p.1.x w then p.1.x else w
      (st.1 ++ [b32Elem true v], some v)
    else (st.1 ++ [b32Elem false .zero], cur)) ([], none)).1

/-- `RED_ROW` on one row; `flags` are the O1 elements of the run, `base` the run's COL_BASE. -/
def redRowOp (op k : Nat) (r : Rnd) (base : Nat) (l : List REl) (flags : List REl) : RowOut :=
  let n := l.length
  let live := (l.zipIdx.filter (·.1.live)).map fun (x, c) => (x.x, c)
  let none_ := live.isEmpty
  let idx (c : Nat) : OutElem := idxElem ((base + c : Nat) : Int)
  let seg := l.zipIdx.map fun (x, c) => (x, match flags[c]? with
    | some f => f.live && !f.x.isZero | none => false)
  let one (b : Num → Num → Bool) (e : Bool) (arg : Bool) : RowOut := match winner b live with
    | some (v, c) => ⟨[b32Elem true v], if arg then [idx c] else [], none, 0, false⟩
    | none => ⟨[b32Elem true (.inf e)], if arg then [idxElem (-1)] else [], none, 0, true⟩
  match op with
  | 0 => let s := osum r n (live.map (·.1))
         ⟨[b32Elem true s.1], [], some s.2.1, if s.2.2 then 1 else 0, none_⟩
  | 1 => one beats true false
  | 2 => one beatsMin false false
  | 3 => one beats true true
  | 4 => one beatsMin false true
  | 5 =>
    let t := topK k live
    let pad := k - t.length
    ⟨t.map (fun p => b32Elem true p.1) ++ List.replicate pad (b32Elem true (.inf true)),
     t.map (fun p => idx p.2) ++ List.replicate pad (idxElem (-1)), none, 0, none_⟩
  | 6 => let s := psum r n seg
         ⟨s.1, [], some s.2.1, s.2.2, none_⟩
  | _ => ⟨pmax seg, [], none, 0, none_⟩

/-! The scan (R162, R163). -/

def rmul (a b : Num) : Num := ofB32 (a.mul b).toB32
def radd (a b : Num) : Num := ofB32 (a.add b).toB32
def rsub (a b : Num) : Num := ofB32 (a.sub b).toB32
def rfma (a b c : Num) : Num := ofB32 ((a.mul b).add c).toB32

def oneN : Num := .fin false 1 0

/-- combine of R163. -/
def combine (p q : Num × Num) : Num × Num := (rmul q.1 p.1, rfma q.1 p.2 q.2)

/-- One level of the segment's network. -/
def scanLevel (d : Nat) (x : List (Num × Num)) : List (Num × Num) :=
  x.zipIdx.map fun (q, i) => if d ≤ i then combine (listGet default x (i - d)) q else q

/-- A row in walking order: h, P by position, and the carry-out pair (R163). -/
def scanRow (a b : List Num) (live : List Bool) (hIn : Num) : List Num × List Num × Num × Num :=
  let n := a.length
  iter ((n + 63) / 64) (fun sgm (st : List Num × List Num × Num × Num) =>
    let x := (List.range 64).map fun i =>
      let k := 64 * sgm + i
      if k < n ∧ listGet false live k then (listGet .zero a k, listGet .zero b k) else (oneN, Num.zero)
    let x := [1, 2, 4, 8, 16, 32].foldl (fun x d => scanLevel d x) x
    let here := x.take (n - 64 * sgm)
    let last := listGet (oneN, Num.zero) x 63
    (st.1 ++ here.map (fun p => rfma p.1 st.2.2.1 p.2), st.2.1 ++ here.map (fun p => rmul p.1 st.2.2.2),
      rfma last.1 st.2.2.1 last.2, rmul last.1 st.2.2.2)) ([], [], hIn, oneN)

/-! Kernels (R168 to R171). -/

def ksig (x : Num) : Num := ofB32 (sfu 0x25 x.toB32).toB32
def krsqrt (x : Num) : Num := ofB32 (sfu 0x23 x.toB32).toB32
def krcp (x : Num) : Num := ofB32 (sfu 0x22 x.toB32).toB32
def kexp2 (x : Num) : Num := ofB32 (sfu 0x20 x.toB32).toB32

/-- 1 / n rounded once (R171). -/
def invN (n : Nat) : Num := ofB32 ((oneN.div (Num.ofInt n)).toB32)

/-- log2(e) in binary32. -/
def l2e : Num := ofB32 0x3FB8AA3B#32

/-- Outputs of a kernel on one row: O0 to O3, column terms of O1, saturations, empty row. -/
structure KrnOut where
  o     : List (List OutElem)
  cols  : List Num
  e     : Option Int
  sat   : Nat
  empty : Bool
  deriving Repr

def mulAll (a b : List Num) : List Num := List.zipWith rmul a b

def normScale (x : List Num) (eps : Num) : Num × Int × Bool :=
  let n := x.length
  let s := osum .rne n (mulAll x x)
  (krsqrt (rfma s.1 (invN n) eps), s.2.1, s.2.2)

def normFwd (x g : List Num) (eps : Num) : KrnOut :=
  let r := normScale x eps
  ⟨[(List.zipWith (fun a b => rmul (rmul a r.1) b) x g).map (b32Elem true)], [], some r.2.1, if r.2.2 then 1 else 0, false⟩

def normBwd (x dy gam : List Num) (eps : Num) : KrnOut :=
  let n := x.length
  let r := normScale x eps
  let rr := r.1
  let g := mulAll dy gam
  let s := osum .rne n (mulAll g x)
  let k := rmul (rmul (rmul rr rr) rr) (rmul s.1 (invN n))
  let dx := List.zipWith (fun a b => ofB32 ((rmul rr b).sub (a.mul k)).toB32) x g
  let dg := List.zipWith (fun a b => rmul a (rmul b rr)) dy x
  ⟨[dx.map (b32Elem true)], dg, some s.2.1, (if r.2.2 then 1 else 0) + (if s.2.2 then 1 else 0), false⟩

/-- p of softmax over the live elements; zero elsewhere (R170, R171). -/
def softmax (l : List REl) (scale : Num) : List Num × Int × Bool × Bool :=
  match winner beats ((l.zipIdx.filter (·.1.live)).map fun (x, c) => (x.x, c)) with
  | none => (l.map fun _ => .zero, 0, false, true)
  | some (m, _) =>
    let e := l.map fun x => if x.live then kexp2 (rmul (rsub x.x m) (rmul scale l2e)) else .zero
    let s := osum .rne l.length (((l.zip e).filter (·.1.live)).map (·.2))
    let inv := krcp s.1
    ((l.zip e).map fun (x, v) => if x.live then rmul v inv else .zero, s.2.1, s.2.2, false)

def softmaxFwd (l : List REl) (scale : Num) : KrnOut :=
  let p := softmax l scale
  ⟨[p.1.map (b32Elem true)], [], some p.2.1, if p.2.2.1 then 1 else 0, p.2.2.2⟩

def softmaxBwd (l : List REl) (dy : List Num) (scale : Num) : KrnOut :=
  let p := softmax l scale
  let z := l.zip (dy.zip p.1)
  let t := osum .rne l.length ((z.filter (·.1.live)).map fun (_, d, q) => rmul d q)
  let dx := z.map fun (x, d, q) => if x.live then rmul (rmul q (rsub d t.1)) scale else .zero
  ⟨[dx.map (b32Elem true)], [], some t.2.1, (if p.2.2.1 then 1 else 0) + (if t.2.2 then 1 else 0), p.2.2.2⟩

def gscanFwd (f x : List Num) (hIn : Num) : KrnOut :=
  let a := f.map ksig
  let b := List.zipWith (fun a x => rmul (rsub oneN a) x) a x
  let s := scanRow a b (a.map fun _ => true) hIn
  ⟨[s.1.map (b32Elem true), s.2.1.map (b32Elem true), [b32Elem true s.2.2.1], [b32Elem true s.2.2.2]], [], none, 0, false⟩

def gscanBwd (f x o dy : List Num) (hIn cIn : Num) (carryOnly : Bool) : KrnOut :=
  let n := f.length
  let a := f.map ksig
  let b := List.zipWith (fun a x => rmul (rsub oneN a) x) a x
  let all := a.map fun _ => true
  let h := (scanRow a b all hIn).1
  let g := List.zipWith (fun d o => rmul d (ksig o)) dy o
  let ar := (List.range n).map fun c => if c + 1 < n then listGet .zero a (c + 1) else oneN
  let s := scanRow ar.reverse g.reverse all cIn
  let dh := s.1.reverse
  let a0 := listGet .zero a 0
  let o3 := [b32Elem true (rmul a0 (listGet .zero dh 0))]
  if carryOnly then ⟨[[], [], [b32Elem true (rmul a0 s.2.2.2)], o3], [], none, 0, false⟩
  else
    let at_ (l : List Num) (c : Nat) := listGet Num.zero l c
    let df := (List.range n).map fun c =>
      let hp := if c = 0 then hIn else at_ h (c - 1)
      rmul (rmul (at_ dh c) (rsub hp (at_ x c))) (rmul (at_ a c) (rsub oneN (at_ a c)))
    let dx := (List.range n).map fun c => rmul (at_ dh c) (rsub oneN (at_ a c))
    let dO := (List.range n).map fun c =>
      let so := ksig (at_ o c)
      rmul (rmul (at_ dy c) (at_ h c)) (rmul so (rsub oneN so))
    ⟨[df.map (b32Elem true), dx.map (b32Elem true), dO.map (b32Elem true), o3], [], none, 0, false⟩

/-! Column sums (R160, R161). -/

/-- Terms of a row added to the column accumulators. -/
def addCols (e : Int) (cols : List Acc) (l : List REl) : List Acc :=
  l.zipIdx.map fun (x, i) =>
    let a := listGet Acc.zero cols i
    if x.live then a.addTerm (e - 88) x.x else a

def addAccs (a b : List Acc) : List Acc :=
  if a.isEmpty then b else if b.isEmpty then a else List.zipWith Acc.add a b

/-- Results of the column sums: binary32, or raw I64 at LSB 2^(E − 56), with their saturations. -/
def colResults (raw : Bool) (r : Rnd) (e : Int) (cols : List Acc) : List OutElem × Nat :=
  let l := cols.map fun a =>
    let st := a.sat96
    if raw then
      let v : Int := truncScaled (.fin (decide (st.1.n < 0)) st.1.n.natAbs (e - 88)) (e - 56)
      let w : Acc := { st.1 with n := v }
      let ws := w.sat
      ((⟨2, ws.1.toRaw, e, false, true⟩ : OutElem), st.2 || ws.2)
    else (b32Elem true (ofB32 (BitVec.ofNat 32 (roundTo .b32 r (st.1.value (e - 88))))), st.2)
  (l.map (·.1), (l.filter (·.2)).length)

/-! Claimed pairs. -/

/-- Limit of COLS (R159, R160, R169). -/
def colLimit (op : Nat) : Nat := if op = 0x31 ∨ op = 0x39 ∨ op = 0x3D then 16384 else 65536

/-- Elements of a row of output `k` (R153, R161, R164, R169). -/
def perRow (c : Cue) (k : Nat) : Nat :=
  let op := c.opcode
  if op = 0x30 then (if c.rdOpsel = 5 then c.rdK else if c.rdOpsel = 6 ∨ c.rdOpsel = 7 then c.cols else 1)
  else if op = 0x32 ∨ op = 0x3C then (if k ≤ 1 then c.cols else 1)
  else if op = 0x3D then (if k ≤ 2 ∧ bit (BitVec.ofInt 17 c.kArg) 0 = false then c.cols else 1)
  else c.cols

/-- Bytes unit `i` of the gang writes to a stage region for output `k`, from the rows it takes. -/
def redBytes (c : Cue) (k : Nat) (share : Nat → Nat) (i : Nat) : Nat :=
  if c.opcode = 0x31 then (if i = 0 then c.cols * (if c.rdRaw then 8 else 4) else 0)
  else if c.opcode = 0x39 ∧ k = 1 then (if i = 0 then c.cols * (if c.kRawCol then 8 else 4) else 0)
  else share i * perRow c k * 4

/-- A rounding code that a sum does not take (R17, R175). -/
def rmodeCheck (code : Nat) : List Code :=
  if code = 3 then [.formatUnsupported] else if code = 2 then [.redField] else []

/-- The claimant's own fields (R151, R160, R175), `run` being the run of line `l` it claims. -/
def State.claimantChecks (s : State) (l : Line) (c run : Cue) : List Code :=
  let op := c.opcode
  let scan := op == 0x32
  let trips := decide (8 < (s.program run.firstUnit run.crProg).length)
  (if op = 0x30 ∧ (8 ≤ c.rdOpsel ∨ (c.rdOpsel = 5 ∧ (c.rdK = 0 ∨ 64 < c.rdK))) then [Code.redField] else [])
  ++ rmodeCheck c.rdRmode
  ++ (if c.rdRaw ∧ op ≠ 0x31 then [.redField] else [])
  ++ (if c.cols = 0 ∨ colLimit op < c.cols then [.redField] else [])
  ++ (if scan ∧ c.rdCarryZero = false ∧ (dSrc c.rdCarry ≠ 2 ∧ dSrc c.rdCarry ≠ 3) then [.redField] else [])
  ++ (if scan ∧ c.rdCarryZero = false ∧ (dSrc c.rdCarry = 2 ∨ dSrc c.rdCarry = 3) then
        descField c.rdCarry ++ (if dFmt c.rdCarry = 6 then [] else [.formatUnsupported])
        ++ ((List.range c.gang).map fun i => (s.unit (c.firstUnit + i)).descPlace c.rdCarry c.rows 1 trips).flatten
      else [])
  ++ (if c.firstUnit % c.gang ≠ 0 then [.choField] else [])
  ++ (if oDest (run.output 94) = 3 ∧ !(scan || (op == 0x30 && (c.rdOpsel == 6 || c.rdOpsel == 7))) then [.redClaim] else [])
  ++ (c.outputs.zipIdx.map fun (o, k) => s.outChecks c o (redBytes c k (s.unitShare l run)) trips).flatten

/-- The claimant stands next behind the run in every queue of the gang (R151). -/
def State.claimant (s : State) (f : Flight) : Option Flight :=
  let us := (List.range f.q.cue.gang).map (8 + f.q.cue.firstUnit + ·)
  match ((s.queue (8 + f.q.cue.firstUnit)).drop 1).head? with
  | none => none
  | some k =>
    if us.all (fun e => (s.queue e).take 2 == [f.q.uid, k]) then (s.flight k).filter fun x => isRed x.opcode && s.mayStart x
    else none

/-- The claimant of a run already begun, or one that may begin it now (R151). -/
def State.claimantNow (s : State) (u : Nat) (f : Flight) : Option Flight := match s.gangRun f.q.uid with
  | some _ => (((s.queue (8 + u)).drop 1).head?).bind s.flight
  | none => s.claimant f

/-- Outputs of a claimant's or kernel's row. -/
def State.putOuts (s : State) (c : Cue) (u j : Nat) (l : List (List OutElem)) : State :=
  c.outputs.zipIdx.foldl (fun s (o, k) => match l[k]? with
    | some row => s.putRow c u k o j (perRow c k) row
    | none => s) s

/-- CHO_RED_ counters of a row (R179). -/
def State.redCounts (s : State) (e : Option Int) (sat nan : Nat) (empty : Bool) : State :=
  let s := (s.count R.choRedSatCount sat).count R.choRedNanCount nan
  let s := if empty then s.count R.choRedEmptyCount 1 else s
  match e with | some e => s.setF R.choRedLastE 0 16 (bvI 16 e).toNat | none => s

def nanElems (l : List (List OutElem)) : Nat :=
  (l.map fun r => (r.filter fun x => x.live && (if x.kind = 2 then rawIsNan x.bits else (decodeElem .b32 x.bits.toNat).isNan)).length).sum

/-- A unit holds the row it works on in a half of its row store: row by row the other half (R159, R168). -/
def State.useStore (s : State) (u j : Nat) (row : List (List Num)) : State :=
  s.updUnit u fun x => { x with store := [(j % 2, row.flatten.map Num.toB32)] }

/-- The carry-in of row `j` of the unit (R164): none while a FIFO lacks it. -/
def State.carryIn (s : State) (u j : Nat) (run : URun) (c : Cue) : Gives :=
  if c.rdCarryZero then .ok [ofNum false .zero false] []
  else s.streamRow u run false 1 j 4 c.rdCarry none

/-- One row of a claimed pair: the run's row through the chain, then the claimant's operation. -/
def State.claimRow (s : State) (u uid cuid : Nat) : Option State := match s.flight uid, s.flight cuid, s.runOf u uid with
  | some f, some g, some run =>
    if s.rowsDone u f run then none
    else
      let c := f.q.cue
      let k := g.q.cue
      let carry : Gives := if g.opcode = 0x32 then s.carryIn u run.j run k else .ok [] []
      match carry, s.rowIn u f run with
      | .waits, _ => none
      | _, none => none
      | .wrong, _ => some (s.killRun uid (8 + u) .choOperand)
      | _, some (.inr ()) => some (s.killRun uid (8 + u) .choOperand)
      | .ok hin _, some (.inl x) =>
        let lanes := chainRow c (s.program u c.crProg) x
        let s := s.rowUsed u f x
        let s := if g.opcode = 0x32 ∧ k.rdCarryZero = false then s.useStream u 1 4 k.rdCarry else s
        let s := (s.keepTrips u (s.program u c.crProg)).putRun u c run.j x lanes
        let d0 := (outRow c x lanes (c.output 92)).map OutElem.toREl
        let d1 := (outRow c x lanes (c.output 94)).map OutElem.toREl
        let r := rmodeOf k.rdRmode
        let s := if g.opcode = 0x31 ∨ (g.opcode = 0x30 ∧ k.rdOpsel ≠ 0 ∧ k.rdOpsel ≠ 6) then s
          else s.useStore u run.j [d0.map (·.x), if oDest (c.output 94) = 3 then d1.map (·.x) else []]
        let s :=
          if g.opcode = 0x30 then
            let o := redRowOp k.rdOpsel k.rdK r c.crColBase d0 (if oDest (c.output 94) = 3 then d1 else [])
            (s.redCounts o.e o.sat (nanElems [o.o0]) o.empty).putOuts k u run.j [o.o0, o.o1]
          else if g.opcode = 0x32 then
            let rev {α : Type} (l : List α) : List α := if k.rdReverse then l.reverse else l
            let live := d0.map (·.live)
            let h := match hin with | v :: _ => (if v.poison then Num.nan else v.num) | [] => .zero
            let q := scanRow (rev (d0.map (·.x))) (rev (d1.map (·.x))) (rev live) h
            let mk (l : List Num) := List.zipWith (fun v x => b32Elem v x) live (rev l)
            let outs := [mk q.1, mk q.2.1, [b32Elem true q.2.2.1], [b32Elem true q.2.2.2]]
            (s.redCounts none 0 (nanElems outs) false).putOuts k u run.j outs
          else s.updUnit u fun y => { y with run := y.run.map fun r => { r with cols := addCols k.rdECol r.cols d0 } }
        let s := s.countMod (R.choRuRows u) 1
        some (s.rowCounted u c.cols)
  | _, _, _ => none

/-- The unit's column accumulators join the gang's (R161). -/
def State.mergeCols (s : State) (u uid : Nat) : State := match s.runOf u uid, s.gangRun uid with
  | some r, some g => (s.setGang uid { g with cols := addAccs g.cols r.cols }).setRun u { r with cols := [] }
  | _, _ => s

/-- Column results of the whole gang, written by unit first (R161). -/
def State.writeCols (s : State) (uid : Nat) (c : Cue) (u k : Nat) (raw : Bool) (rm : Nat) (e : Int) : State :=
  match s.gangRun uid with
  | none => s
  | some g =>
    let cols := if g.cols.isEmpty then List.replicate c.cols Acc.zero else g.cols
    let r := colResults raw (rmodeOf rm) e cols
    let s := s.redCounts (some e) r.2 (nanElems [r.1]) false
    s.putRow c u k (listGet 0 c.outputs k) 0 c.cols r.1

/-- Every other unit of the gang has finished its share. -/
def State.lastUnit (s : State) (uid : Nat) : Bool := match s.flight uid with
  | some f => decide (f.units ≤ 1)
  | none => false

/-- A claimed pair's unit closes both cues. -/
def State.closePair (s : State) (u uid cuid : Nat) : State :=
  let s := s.countMod (R.choURuns u) 1
  let s := s.closeRun u uid
  (s.unqueueAt (8 + u) cuid).unitDone cuid

/-- A reduction or scan cue of opcode `op` at unit `u`, with the run it claims (R150 to R166). -/
def State.redRun (s : State) (u op : Nat) : State := match s.unitHead u with
  | none => s
  | some f =>
    if f.opcode = op then s.engineHalt f.q.uid (8 + u) .redClaim
    else if feedsRed f.q.cue = false then s
    else match s.claimantNow u f with
    | none => s
    | some g =>
      if g.opcode ≠ op then s
      else
        let start := (s.gangRun f.q.uid).isNone && u == f.q.cue.firstUnit
        let bad := if start then leastCode (s.claimantChecks f.q.line g.q.cue f.q.cue) else none
        match leastCode (if start then s.runChecks f.q.line f.q.cue else []), bad with
        | some code, _ => s.engineHalt f.q.uid (8 + u) code
        | none, some code => s.engineHalt g.q.uid (8 + u) code
        | none, none => match s.openGang u f [] with
          | none => s
          | some s =>
            let s := s.startFlight g.q.uid
            let s := (iterWhile f.q.cue.rows (fun s => s.claimRow u f.q.uid g.q.uid) s).drawRows u f.q.uid
            match s.flight f.q.uid, s.runOf u f.q.uid with
            | some f, some run =>
              if s.rowsDone u f run = false then s
              else if op ≠ 0x31 then s.closePair u f.q.uid g.q.uid
              else
                let s := s.mergeCols u f.q.uid
                let c := g.q.cue
                if u ≠ c.firstUnit then s.closePair u f.q.uid g.q.uid
                else if s.lastUnit f.q.uid then
                  (s.writeCols f.q.uid c u 0 c.rdRaw c.rdRmode c.rdECol).closePair u f.q.uid g.q.uid
                else s
            | _, _ => s

/-! Kernels. -/

def isScanKrn (op : Nat) : Bool := op == 0x3C || op == 0x3D

/-- A region of R171 that passes 2 MiB or meets a port. -/
def State.carryRegionBad (s : State) (c : Cue) (base : Nat) : Bool :=
  let lo := base * 4096
  let hi := lo + 4 * unitRows c.rows c.gang 0
  decide (stageSize < hi) || (List.range c.gang).any fun i => (s.unit (c.firstUnit + i)).meetsPort lo hi

/-- R175 and R547 for a kernel of line `l`. -/
def State.krnChecks (s : State) (l : Line) (c : Cue) : List Code :=
  let op := c.opcode
  let scan := isScanKrn op
  rmodeCheck c.rdRmode
  ++ (if c.cols = 0 ∨ colLimit op < c.cols then [.redField] else [])
  ++ (if c.rows = 0 then [.choField] else [])
  ++ (if c.kCausal ∧ op ≠ 0x3A ∧ op ≠ 0x3B then [.redField] else [])
  ++ (if c.outputs.any (fun o => oDest o == 3) then [.redField] else [])
  ++ (if c.streams.any (fun d => dSrc d == 0) then [.choOperand] else [])
  ++ (if scan ∧ c.streams.any (fun d => dSrc d == 1) then [.choOperand] else [])
  ++ (if c.streams.any (fun d => dSrc d == 1 && dFmt d == 8) then [.choOperand] else [])
  ++ s.streamChecks c false
  ++ (if scan ∧ ((c.kHinZero = false ∧ s.carryRegionBad c c.kHin) ∨ (op = 0x3D ∧ c.kCinZero = false ∧ s.carryRegionBad c c.kCin))
      then [.choOperand] else [])
  ++ (c.outputs.zipIdx.map fun (o, k) => s.outChecks c o (redBytes c k (s.unitShare l c)) false).flatten

/-- A kernel's arithmetic on one row (R170, R171): `r` the relative row, `j` the unit's row. -/
def State.krnOut (s : State) (u : Nat) (c : Cue) (x : RowIn) (j : Nat) : KrnOut :=
  let v (i : Nat) : List Num := (listGet [] x.elems i).map fun o => if o.poison then .nan else o.num
  let par := ofB32 c.kParam
  let word (base : Nat) : Num := ofB32 (BitVec.ofNat 32 ((s.unit u).num (base * 4096 + 4 * j) 4))
  let hin := if c.kHinZero then .zero else word c.kHin
  let cin := if c.kCinZero then .zero else word c.kCin
  let live : List REl := (v 0).zipIdx.map fun (y, i) =>
    ⟨!c.kCausal || decide ((i : Int) ≤ (x.r : Int) + c.kArg), y⟩
  match c.opcode with
  | 0x38 => normFwd (v 0) (v 1) par
  | 0x39 => normBwd (v 0) (v 1) (v 2) par
  | 0x3A => softmaxFwd live par
  | 0x3B => softmaxBwd live (v 1) par
  | 0x3C => gscanFwd (v 0) (v 1) hin
  | _ => gscanBwd (v 0) (v 1) (v 2) (v 3) hin cin (bit (BitVec.ofInt 17 c.kArg) 0)

/-- One row of a kernel. -/
def State.krnRow (s : State) (u uid : Nat) : Option State := match s.flight uid, s.runOf u uid with
  | some f, some run =>
    if s.rowsDone u f run then none
    else match s.rowIn u f run with
    | none => none
    | some (.inr ()) => some (s.killRun uid (8 + u) .choOperand)
    | some (.inl x) =>
      let c := f.q.cue
      let o := s.krnOut u c x run.j
      let s := (s.rowUsed u f x).useStore u run.j (x.elems.map fun l => l.map (·.num))
      let s := (s.redCounts o.e o.sat (nanElems o.o) o.empty).putOuts c u run.j o.o
      let s := if c.opcode = 0x39 then
          s.updUnit u fun y => { y with run := y.run.map fun r =>
            { r with cols := addCols c.kArg r.cols (o.cols.map fun v => ⟨true, v⟩) } }
        else s
      let s := s.countMod (R.choRuRows u) 1
      some (s.updUnit u fun y => { y with run := y.run.map fun r => { r with j := r.j + 1 } })
  | _, _ => none

/-- A kernel cue of opcode `op` in unit `u` (R168 to R171). -/
def State.krnRun (s : State) (u op : Nat) : State := match s.unitHead u with
  | none => s
  | some f =>
    let c := f.q.cue
    if f.opcode ≠ op then s
    else match s.openGang u f (s.krnChecks f.q.line c) with
    | none => s
    | some s =>
      let s := (iterWhile c.rows (fun s => s.krnRow u f.q.uid) s).drawRows u f.q.uid
      match s.flight f.q.uid, s.runOf u f.q.uid with
      | some f, some run =>
        if s.rowsDone u f run = false then s
        else if op ≠ 0x39 then s.closeRun u f.q.uid
        else
          let s := s.mergeCols u f.q.uid
          if u ≠ c.firstUnit then s.closeRun u f.q.uid
          else if s.lastUnit f.q.uid then
            (s.writeCols f.q.uid c u 1 c.kRawCol c.rdRmode c.kArg).closeRun u f.q.uid
          else s
      | _, _ => s

end Sys2Proof.Machine
end

