-- ==== Sys2Proof/Machine/Prop.lean ====
section
/-! DEFINITION. Property cues, paging, scrubbing and retirement moves (06 R228 to R266), and the backstage port's requests
(12 R463). -/

namespace Sys2Proof.Machine

/-! The backstage port (R463). -/

/-- Channel of a backstage address. -/
def bsChan (a : BitVec 48) : Nat := fieldN a 6 2

/-- The lowest tag of a channel that no request uses. -/
def State.freeTag (s : State) (ch : Nat) : Option Nat :=
  let used := (s.bs.out.filter (·.1 == ch)).map (·.2.1)
  if 256 ≤ used.length then none else firstFrom (fun t => !used.contains t) 256 0

/-- One request issued, if its channel has a tag. -/
def State.bsIssue (s : State) (r : BsReq) : Option State := match s.freeTag (bsChan r.addr) with
  | none => none
  | some t =>
    some (({ s with bs := { s.bs with out := s.bs.out ++ [(bsChan r.addr, t, r)] } }).emit
      (.bsRequest (bsChan r.addr) t r.we r.addr r.data))

/-- Waiting requests go out while their channels have tags. -/
def State.pumpBs (s : State) : State :=
  let r := s.bs.todo.foldl (fun (st : State × List BsReq) q => match st.1.bsIssue q with
    | some s => (s, st.2)
    | none => (st.1, st.2 ++ [q])) (s, [])
  { r.1 with bs := { r.1.bs with todo := r.2 } }

/-- Requests handed to the port. -/
def State.bsSend (s : State) (l : List BsReq) : State :=
  ({ s with bs := { s.bs with todo := s.bs.todo ++ l } }).pumpBs

/-! Frames as bytes. -/

/-- Bytes from `lo` set to 0 with valid check bytes. -/
def Mem.zeroRange (m : Mem) (lo n : Nat) : Mem :=
  let inside (a : Nat) : Bool := decide (lo ≤ a) && decide (a < lo + n)
  let m := { m with corr := m.corr.filter fun c => !inside (64 * c.1) }
  if m.epoch = 0 then
    { m with cells := m.cells.filter fun c => !inside c.1
             flaws := m.flaws.filter fun c => !inside (64 * c.1) }
  else
    let m := m.setBytes lo (List.replicate n 0)
    (List.range (n / 64)).foldl (fun m i => m.setFlaw (lo / 64 + i) []) m

/-- A frame zeroed. -/
def State.zeroFrame (s : State) (f : Nat) : State := { s with mem := s.mem.zeroRange (f * 65536) 65536 }

/-- A stored word replaced, with its errors. -/
def State.memStore (s : State) (w : Nat) (bytes : List Byte) (fl : List (Nat × Byte)) : State :=
  let m := (s.mem.setBytes (w * 64) bytes).setFlaw w fl
  { s with mem := { m with corr := m.corr.filter (·.1 != w) } }

/-- The corrected words of a frame that still waited for their write-back are dropped. -/
def State.dropCorr (s : State) (f : Nat) : State :=
  { s with mem := { s.mem with corr := s.mem.corr.filter fun c => c.1 / 1024 != f } }

/-- Every word of a frame gets the poison marker. -/
def State.poisonFrame (s : State) (f : Nat) : State :=
  { s with mem := (List.range 1024).foldl (fun m k => m.setFlaw (f * 1024 + k) poisonMark) s.mem }.dropCorr f

/-- A frame copied word by word, each read with its counts (R232) and poison and corrections as R261 says; whether any word
went poisoned. The corrections that still waited for the frame left behind are dropped. -/
def State.copyFrame (s : State) (src dst : Nat) : Bool × State :=
  let r := iter 1024 (fun i (st : Bool × State) =>
    let r := st.2.readWord (src * 1024 + i)
    (st.1 || r.1.2, r.2.memStore (dst * 1024 + i) r.1.1 (if r.1.2 then poisonMark else []))) (false, s)
  (r.1, r.2.dropCorr src)

/-! Pages. -/

/-- Descriptor of handle-space byte `b` (R239). -/
def State.descOf (s : State) (h b : Nat) : Nat := (s.handle h).first + b / 65536

/-- Local address of handle-space byte `b`, where its page is resident and not moving. -/
def State.handleAddr (s : State) (h b : Nat) : Option Nat :=
  let p := s.page (s.descOf h b)
  if (p.state == .owned || p.state == .locked) && !p.moving then some (p.frame * 65536 + b % 65536) else none

/-- A fly access marks the page (R244). -/
def State.touch (s : State) (d : Nat) (write : Bool) : State :=
  s.updPage d fun p => { p with touched := true, dirty := p.dirty || write }

/-- The transfers of an engine that have become active and have still to read or write, oldest first (R194). -/
def FlyEng.moving (g : FlyEng) : List Xfer := g.drain ++ g.active.toList

/-- Pages of the clock: OWNED pages of HOME = 1 handles that may go (R253). -/
def State.victimOk (s : State) (d : Nat) (p : Page) : Bool :=
  p.state == .owned && (s.handle p.handle).home && !p.moving && !p.poisoned && !p.retPend
    && !(s.fly.any fun e => e.2.moving.any fun x => x.pages.contains d)

/-- One step of the clock at descriptor `d`: a touched page is passed over, an untouched one is the victim. -/
def State.clockStep (st : State × Option Nat) (d : Nat) : State × Option Nat := match st.2 with
  | some _ => st
  | none =>
    let p := st.1.page d
    if st.1.victimOk d p = false then st
    else if p.touched then (st.1.setPage d { p with touched := false }, none)
    else (st.1, some d)

/-- The victim of two sweeps from behind the previous one (R253). -/
def State.victim (s : State) : Option Nat × State :=
  let ds := s.prop.pages.map (·.1)
  let order := (ds.filter fun d => decide (s.prop.hand < d)) ++ (ds.filter fun d => decide (d ≤ s.prop.hand))
  let r := (order ++ order).foldl State.clockStep (s, none)
  match r.2 with
  | some d => (some d, { r.1 with prop := { r.1.prop with hand := d } })
  | none => (none, r.1)

/-- Address of word `i` of a page's backstage home. -/
def bsWord (p : Page) (i : Nat) : BitVec 48 := BitVec.ofNat 48 (p.bsPage * 65536 + 64 * i)

/-- A page's words read for a write-back: with a poisoned word the page is POISONED and stays (R254, R268). -/
def State.pageWords (s : State) (frame : Nat) : (List (BitVec 512) × Bool) × State :=
  iter 1024 (fun i (st : (List (BitVec 512) × Bool) × State) =>
    let r := st.2.readWord (frame * 1024 + i)
    ((st.1.1 ++ [BitVec.ofNat 512 (numOf r.1.1)], st.1.2 || r.1.2), r.2)) (([], false), s)

/-- A write-back starts (R254) once the acknowledged writes of the frame have landed: none where the page turns out
poisoned. -/
def State.startWriteBack (s : State) (d : Nat) (pageOut : Bool) : Bool × State :=
  let p := s.page d
  let r := (s.landFrame p.frame).pageWords p.frame
  if r.1.2 then (false, r.2.updPage d fun p => { p with poisoned := true })
  else
    let s := r.2.updPage d fun p => { p with moving := true }
    let wb : WriteBack := ⟨d, p.frame, 1024, false, pageOut⟩
    let s := { s with prop := { s.prop with outs := s.prop.outs ++ [wb] } }
    (true, s.bsSend (r.1.1.zipIdx.map fun (w, i) => ⟨.writeBack d i, true, bsWord p i, w⟩))

/-- A frame for a page-in: free, or freed at once by a clean victim; a dirty victim's write-back starts, one at a time
(R252 to R254). `n` bounds the victims that turn out poisoned. -/
def State.getFrame : Nat → State → Option Nat × State
  | 0, s => (none, s)
  | n + 1, s => match s.lowestFree with
    | some f => (some f, s)
    | none =>
      if s.prop.outs.any (fun w => !w.pageOut) then (none, s)
      else match s.victim with
        | (none, s) => (none, { s with prop := { s.prop with starve := true } })
        | (some d, s) =>
          let p := s.page d
          if p.dirty then
            let r := s.startWriteBack d false
            if r.1 then (none, r.2) else State.getFrame n r.2
          else (some p.frame, s.setPage d { p with state := .backstage, frame := 0, touched := false, retPend := false })

/-- A page-in of descriptor `d` begins with frame `f` (R252). -/
def State.beginPageIn (s : State) (d f : Nat) : State :=
  let p := s.page d
  let s := { s with prop := { s.prop with starve := false } }
  if p.fresh then
    (s.zeroFrame f).setPage d { p with state := .owned, frame := f, fresh := false, moving := false, touched := true,
                                       dirty := false, poisoned := false, retPend := false }
    |>.count R.propPageIns 1
  else
    let s := s.setPage d { p with moving := true }
    let pi : PageIn := ⟨d, f, 1024, false⟩
    let s := { s with prop := { s.prop with ins := s.prop.ins ++ [pi] } }
    s.bsSend ((List.range 1024).map fun i => ⟨.pageIn d i, false, bsWord p i, 0⟩)

/-- Demand page-ins that can start do, in order (R252): at most 8 in flight. -/
def State.pumpPagesN : Nat → State → State
  | 0, s => s
  | n + 1, s => match s.prop.demand with
    | [] => s
    | d :: rest =>
      if 8 ≤ s.prop.ins.length ∨ s.prop.outs.any (·.desc == d) then s
      else
        let skip := { s with prop := { s.prop with demand := rest } }
        if (s.page d).state ≠ .backstage then State.pumpPagesN n skip
        else match State.getFrame 64 s with
          | (some f, s) => State.pumpPagesN n (({ s with prop := { s.prop with demand := rest } }).beginPageIn d f)
          | (none, s) => s

def State.pumpPages (s : State) : State := State.pumpPagesN s.prop.demand.length s

/-- A HANDLE access reaches a page that is not resident: a demand page-in, once (R221, R252). -/
def State.demandPage (s : State) (d : Nat) : State :=
  let p := s.page d
  if p.state ≠ .backstage ∨ p.moving then s
  else
    let s := s.setPage d { p with moving := true }
    ({ s with prop := { s.prop with demand := s.prop.demand ++ [d] } }).pumpPages

/-- A hinted page-in starts: behind every demand page-in (R252, R255). -/
def State.hintStart (s : State) : State :=
  if s.enginesRun = false ∨ s.softBusy ∨ s.prop.demand ≠ [] ∨ 8 ≤ s.prop.ins.length then s
  else match s.prop.hints with
  | [] => s
  | d :: rest =>
    let p := s.page d
    if p.state ≠ .backstage ∨ p.moving then { s with prop := { s.prop with hints := rest } }
    else match State.getFrame 64 s with
      | (some f, s) => ({ s with prop := { s.prop with hints := rest } }).beginPageIn d f
      | (none, s) => s

/-- A word of a page-in has come (R252, R256). -/
def State.pageInWord (s : State) (d i : Nat) (err : Bool) (data : BitVec 512) : State :=
  match s.prop.ins.find? (·.desc == d) with
  | none => s
  | some x =>
    let s := s.memStore (x.frame * 1024 + i) (bytesOf 64 data.toNat) []
    let x := { x with left := x.left - 1, err := x.err || err }
    if 0 < x.left then
      { s with prop := { s.prop with ins := s.prop.ins.map fun y => if y.desc = d then x else y } }
    else
      let s := { s with prop := { s.prop with ins := s.prop.ins.filter (·.desc != d) } }
      let s := if x.err then s.poisonFrame x.frame else s
      let s := s.updPage d fun p => { p with state := .owned, frame := x.frame, moving := false, touched := true,
                                             dirty := false, poisoned := x.err, retPend := false }
      let s := s.count R.propPageIns 1
      let s := if x.err then
          s.logRecord (FaultRec.plain 3 unitBackstage Code.bsReadError.num ((s.page d).bsPage * 65536) 2) else s
      s.pumpPages

/-- A word of a write-back has been answered (R254, R464). -/
def State.writeBackWord (s : State) (d : Nat) (err : Bool) : State :=
  match s.prop.outs.find? (·.desc == d) with
  | none => s
  | some x =>
    let x := { x with left := x.left - 1, err := x.err || err }
    if 0 < x.left then
      { s with prop := { s.prop with outs := s.prop.outs.map fun y => if y.desc = d then x else y } }
    else
      let s := { s with prop := { s.prop with outs := s.prop.outs.filter (·.desc != d) } }
      if x.err then
        let s := s.updPage d fun p => { p with moving := false, dirty := true }
        (s.logRecord (FaultRec.plain 1 unitBackstage Code.bsWriteError.num ((s.page d).bsPage * 65536) 2)).pumpPages
      else
        let wanted := s.prop.demand.contains d
        let s := s.updPage d fun p => { p with state := .backstage, frame := 0, moving := wanted, dirty := false
                                               retPend := false }
        (s.count R.propWritebacks 1).pumpPages

/-! Retirement moves and scrubbing. -/

/-- `RETIREMENT_MOVE_COMPLETE`: the page of frame `src` has been copied (R261 step 3). -/
def State.moveComplete (s : State) (src : Nat) : State := match s.prop.moves.find? (·.src == src) with
  | none => s
  | some m =>
    let s := { s with prop := { s.prop with moves := s.prop.moves.filter (·.src != src) } }
    let r := (s.landFrame m.src).copyFrame m.src m.dst
    let s := r.2.updPage m.desc fun p => { p with frame := m.dst, moving := false, retPend := false,
                                                  poisoned := p.poisoned || r.1 }
    s.retireNow m.src

/-- Word of bank `bank` at row `row` (R228). -/
def State.wordAt (s : State) (bank row : Nat) : Nat :=
  let n := s.build.bankLog
  let low := (bank ^^^ row ^^^ (row >>> n)) % 2 ^ n
  row * 2 ^ n + low

/-- Bank of a word (R228). -/
def State.bankOf (s : State) (w : Nat) : Nat :=
  let n := s.build.bankLog
  let row := w >>> n
  (w ^^^ row ^^^ (row >>> n)) % 2 ^ n

/-- Rows of a bank that lie in installed frames (R227). -/
def State.bankRows (s : State) : Nat := s.build.frames * 1024 / 2 ^ s.build.bankLog

/-- `SCRUB_READ`: the bank's next word in increasing row order, in an installed frame not RETIRED (R236); `upset` are byte
errors that have arisen in the stored word. In Drowse no bank is scrubbed (R269). -/
def State.scrubRead (s : State) (bank : Nat) (upset : List (Nat × Byte)) : State :=
  if s.pstate = 3 then s else
  let at_ := NMap.get 0 s.mem.scrub bank
  match firstFrom (fun r => !s.frameRetired (s.wordAt bank r / 1024)) (s.bankRows - at_) at_ with
  | none => s
  | some row =>
    let w := s.wordAt bank row
    let fl := upset.foldl (fun fl e => addFlaw fl e.1 e.2) (s.mem.flaw w)
    let s := { s with mem := { (s.mem.setFlaw w fl) with scrub := NMap.set 0 s.mem.scrub bank (row + 1) } }
    (s.readWord w).2.leaveIdle

/-- The scrub period that CTL_TICK lies in (R236). -/
def State.scrubPeriod (s : State) : Nat := s.tick.toNat / 2 ^ 24

/-- `SCRUB_PERIOD_END`: once CTL_TICK has left a period, the watch list is cleared, every bank starts again and the period
counts as completed (R236, R237, R270). -/
def State.scrubEnd (s : State) : State :=
  if s.scrubPeriod = s.mem.period then s
  else ({ s with mem := { s.mem with watch := [], scrub := [], period := s.scrubPeriod } }).countMod R.propScrub 1

/-- `CORRECTED_WRITEBACK`: the oldest word of the bank that waits is written back, corrected or with the marker (R235). -/
def State.correctedBack (s : State) (bank : Nat) : State :=
  match s.mem.corr.find? (fun c => s.bankOf c.1 == bank) with
  | none => s
  | some (w, poison) =>
    let r := s.mem.readPure w
    let m := (s.mem.setBytes (64 * w) r.1).setFlaw w (if poison then poisonMark else [])
    let s := { s with mem := { m with corr := m.corr.filter (·.1 != w) } }
    if poison then s.markPoisoned (64 * w) else s

/-! Property cues. -/

/-- The property cue at the head of its queue, with opcode `op`. -/
def State.propHead (s : State) (op : Nat) : Option Flight := (s.startable 0x21).filter (·.opcode == op)

/-- A property cue has done its work. -/
def State.propDone (s : State) (uid : Nat) : State :=
  ({ (s.unqueue uid) with prop := { s.prop with cursor := 0, busy := false } }).finishFlight uid

/-- First of the lowest run of `n` FREE descriptors (R245). -/
def State.freeRun (s : State) (n : Nat) : Option Nat :=
  let r := s.prop.pages.foldl (fun (st : Nat × Bool) (d, _) =>
    if st.2 then st else if st.1 + n ≤ d then (st.1, true) else (d + 1, false)) (0, false)
  if r.1 + n ≤ 65536 then some r.1 else none

/-- The first `need` numbers from `k` that satisfy `p`. -/
def collect (p : Nat → Bool) : Nat → Nat → Nat → List Nat
  | 0, _, _ => []
  | fuel + 1, k, need => if need = 0 then [] else if p k then k :: collect p fuel (k + 1) (need - 1)
      else collect p fuel (k + 1) need

/-- What a `PROP_ALLOC` asks for. -/
structure AllocReq where
  h      : Nat
  fmt    : Nat
  home   : Bool
  zero   : Bool
  lock   : Bool
  at_    : Option Nat
  trk    : Option (Nat × Bool)
  elems  : Nat
  staticT : BitVec 8
  bsBase : Nat
  deriving DecidableEq, Repr

def Cue.allocReq (c : Cue) : AllocReq :=
  ⟨c.propHandle, c.paFmt, c.paHome, c.paZero, c.paLock, if c.paPlaceAt then some c.paAtFrame else none,
   if c.paTrkEn then some (c.paTrk, c.paTrkKeep) else none, c.paElems, c.paStaticT, c.paBsBase⟩

/-- Pages of a request (R239). -/
def AllocReq.pages (a : AllocReq) : Nat := match Fmt.ofCode a.fmt with
  | some f => (handleBytes f a.elems + 65535) / 65536
  | none => 0

/-- Frames a local request would get: none where one is missing (R245). -/
def State.allocFrames (s : State) (a : AllocReq) : Option (List Nat) :=
  if a.home then some []
  else match a.at_ with
  | some f =>
    let l := (List.range a.pages).map (f + ·)
    if l.all s.frameFree then some l else none
  | none =>
    let l := collect s.frameFree s.build.frames 0 a.pages
    if l.length = a.pages then some l else none

/-- R238, R266: why a `PROP_ALLOC` halts. -/
def State.allocChecks (s : State) (a : AllocReq) : List Code :=
  (if 16384 ≤ a.h then [Code.handleInvalid] else [])
  ++ (if (s.handle a.h).owned then [.propHandleBusy] else [])
  ++ (match Fmt.ofCode a.fmt with
      | none => [.formatUnsupported]
      | some f => if f.isBlock ∧ a.elems % 32 ≠ 0 then [.propField] else [])
  ++ (if a.elems = 0 then [.propField] else [])
  ++ (if a.home ∧ (a.lock ∨ a.at_.isSome ∨ a.bsBase % 65536 ≠ 0) then [.propField] else [])
  ++ (match a.trk with
      | some (t, _) => (match (s.tracker t).bound with
          | some h => if h ≠ a.h ∧ (s.handle h).owned then [.propField] else []
          | none => [])
      | none => [])
  ++ (if (s.freeRun a.pages).isNone ∨ (s.allocFrames a).isNone
        ∨ (a.home ∧ s.regF R.propBsSize 0 32 < a.bsBase / 65536 + a.pages) then [.propNoSpace] else [])

/-- The tracker a handle is bound to starts, or keeps its history (R246); with an empty history there is none to keep, and it
starts with TRK_INIT.INIT_T (R39, R53). -/
def State.bindTracker (s : State) (h fmt t : Nat) (keep : Bool) : State :=
  let k := s.tracker t
  if keep ∧ k.fmt.toNat = fmt ∧ k.hist ≠ [] then s.setTracker t { k with bound := some h }
  else s.setTracker t { k with t := k.initT, fmt := BitVec.ofNat 4 fmt, hist := [], isOpen := false, passes := 0,
                               runmax := 0, bound := some h }

/-- The entries and frames of an allocation that has passed its checks (R245). -/
def State.allocate (s : State) (a : AllocReq) : State := match s.freeRun a.pages, s.allocFrames a with
  | some d0, some frames =>
    let e : Handle := { Handle.none with
      owned := true, home := a.home, fixed := a.lock || a.at_.isSome, locked := a.lock, fmt := a.fmt
      staticT := a.staticT, trk := (a.trk.map (·.1)).getD 0, trkEn := a.trk.isSome, placed := a.at_.isSome
      first := d0, pages := a.pages, elems := a.elems, bsPage := if a.home then a.bsBase / 65536 else 0 }
    let s := s.setHandle a.h e
    let s := iter a.pages (fun i s =>
      if a.home then
        s.setPage (d0 + i) { Page.free with state := .backstage, handle := a.h, page := i, fresh := a.zero
                                            bsPage := a.bsBase / 65536 + i }
      else
        let f := listGet 0 frames i
        let s := s.setPage (d0 + i) { Page.free with
          state := if a.lock then .locked else .owned, handle := a.h, page := i, frame := f }
        if a.zero then s.zeroFrame f else s) s
    match a.trk with
    | some (t, keep) => s.bindTracker a.h a.fmt t keep
    | none => s
  | _, _ => s

/-- `PROP_ALLOC` (R245, R246, R263, R264, R266). -/
def State.propAlloc (s : State) : State := match s.propHead 0x60 with
  | none => s
  | some f =>
    let a := f.q.cue.allocReq
    match leastCode (s.allocChecks a) with
    | some code => s.engineHalt f.q.uid 0x21 code
    | none => ((s.allocate a).startFlight f.q.uid).propDone f.q.uid

/-- Descriptors of a handle. -/
def State.descs (s : State) (h : Nat) : List Nat := (List.range (s.handle h).pages).map ((s.handle h).first + ·)

/-! Endpoint kinds of a transfer (R182). -/

def kSrcOk (k : Nat) : Bool := k == 0 || k == 1 || k == 2 || k == 3 || k == 7 || k == 8
def kDstOk (k : Nat) : Bool := decide (1 ≤ k) && decide (k ≤ 7)
def kStream (k : Nat) : Bool := k == 0 || k == 4 || k == 5 || k == 6 || k == 8
def kFar (k : Nat) : Bool := k == 2 || k == 3

/-- REF_HANDLE gives the scale of a stream destination without a source handle, and the draws of a destination without a
handle (R204, R205). -/
def usesRef (c : Cue) : Bool :=
  let sk := c.fSrcKind
  let dk := c.fDstKind
  ((dk == 4 || dk == 5 || dk == 6) && sk != 1) || (!kFar sk && !kFar dk && c.fRmode == 2 && dk != 1)

/-- A transfer holds the handle (R247): as a side, for its indices, or for scales and draws. -/
def Cue.flyNames (c : Cue) (h : Nat) : Bool :=
  (c.fSrcKind == 1 && c.fSrcId == h) || (c.fDstKind == 1 && c.fDstId == h)
    || (c.fGather != 0 && c.fIndexHandle == h) || (usesRef c && c.fRefHandle == h)

/-- A handle is held while a transfer that names it is in a slot or has still to write (R247; DEDUCED, log entry 36). -/
def State.flyHolds (s : State) (h : Nat) : Bool :=
  s.fly.any fun (_, e) => (e.moving ++ e.armed.toList).any fun x => match s.flight x.uid with
    | some f => f.q.cue.flyNames h
    | none => false

/-- The pair of a handle is dissolved (R247, R257). -/
def State.unpair (s : State) (h : Nat) : State :=
  let e := s.handle h
  if e.mrole = 0 then s
  else
    let p := s.handle e.partner
    (s.setHandle e.partner { p with mrole := 0, partner := 0, mrows := 0, mcols := 0 }).setHandle h
      { e with mrole := 0, partner := 0, mrows := 0, mcols := 0 }

/-- A handle's pages, frames and entry are released (R247). -/
def State.freeHandle (s : State) (h : Nat) : State :=
  let s := s.handlePassClose h
  let s := s.unpair h
  let e := s.handle h
  let s := if e.trkEn then s.setTracker e.trk { s.tracker e.trk with bound := none } else s
  let s := (s.descs h).foldl (fun s d => s.setPage d Page.free) s
  let hints := s.prop.hints.filter fun d => (s.page d).state != PageState.free
  let s := { s with prop := { s.prop with
    hints := hints, starve := s.prop.starve && !(hints.isEmpty && s.prop.demand.isEmpty) } }
  s.setHandle h Handle.none

/-- `PROP_FREE` (R247, R266). -/
def State.propFree (s : State) : State := match s.propHead 0x61 with
  | none => s
  | some f =>
    let h := f.q.cue.propHandle
    if s.handleOk h = false then s.engineHalt f.q.uid 0x21 .handleInvalid
    else if (s.descs h).any (fun d => (s.page d).state == .locked) then s.engineHalt f.q.uid 0x21 .propHandleBusy
    else if s.flyHolds h ∨ (s.descs h).any (fun d => (s.page d).moving) then s
    else (((s.freeHandle h).startFlight f.q.uid).propDone f.q.uid).pumpPages

/-- R238, R266 for the page cues. -/
def State.rangeChecks (s : State) (c : Cue) : List Code :=
  let h := c.propHandle
  if s.handleOk h = false then [.handleInvalid]
  else if c.ppCount = 0 ∨ (s.handle h).pages < c.ppFirst + c.ppCount ∨ (s.handle h).home = false then [.propField]
  else []

/-- Descriptors of a page cue's range. -/
def State.rangeDescs (s : State) (c : Cue) : List Nat :=
  (List.range c.ppCount).map ((s.handle c.propHandle).first + c.ppFirst + ·)

/-- A property cue already begun goes on although its line has halted (R296). -/
def State.propHeadOn (s : State) (op : Nat) : Option Flight :=
  ((s.head 0x21).filter fun f => s.mayStart f || (f.stage == .started && s.enginesRun)).filter (·.opcode == op)

/-- `PROP_PAGE_IN` (R255): as many pages as the hint queue takes. -/
def State.propPageIn (s : State) : State := match s.propHeadOn 0x62 with
  | none => s
  | some f =>
    let c := f.q.cue
    match leastCode (if f.stage = .queued then s.rangeChecks c else []) with
    | some code => s.engineHalt f.q.uid 0x21 code
    | none =>
      let s := s.startFlight f.q.uid
      let l := (s.rangeDescs c).drop s.prop.cursor
      let s := iterWhile l.length (fun s => match ((s.rangeDescs c).drop s.prop.cursor) with
        | [] => none
        | d :: _ =>
          let p := s.page d
          if p.state ≠ .backstage ∨ p.moving then some { s with prop := { s.prop with cursor := s.prop.cursor + 1 } }
          else if 4096 ≤ s.prop.hints.length then none
          else some { s with prop := { s.prop with cursor := s.prop.cursor + 1, hints := s.prop.hints ++ [d] } }) s
      if c.ppCount ≤ s.prop.cursor then s.propDone f.q.uid
      else { s with prop := { s.prop with busy := true } }

/-- `PROP_PAGE_OUT` (R254, R263); a soft reset stops it (R546). -/
def State.propPageOut (s : State) : State := match (s.propHeadOn 0x63).filter fun _ => !s.softBusy with
  | none => s
  | some f =>
    let c := f.q.cue
    let first := decide (f.stage = .queued)
    match leastCode (if first then s.rangeChecks c else []) with
    | some code => s.engineHalt f.q.uid 0x21 code
    | none =>
      let ds := s.rangeDescs c
      let kept := (ds.filter fun d => (s.page d).state == .owned && (s.page d).poisoned).length
      let s := if first then s.count R.propPageKept kept else s
      let s := { (s.startFlight f.q.uid) with prop := { s.prop with busy := true } }
      let s := ds.foldl (fun s d =>
        let p := s.page d
        if p.state ≠ .owned ∨ p.poisoned ∨ p.moving then s
        else if p.dirty then
          let r := s.startWriteBack d true
          if r.1 then r.2 else r.2.count R.propPageKept 1
        else s.setPage d { p with state := .backstage, frame := 0, retPend := false }) s
      let s := s.pumpPages
      if ds.any (fun d => (s.page d).state == .owned && !(s.page d).poisoned) then s else s.propDone f.q.uid

/-- R257: why a pairing halts. -/
def State.mirrorChecks (s : State) (c : Cue) : List Code :=
  let w := s.handle c.pmW
  let t := s.handle c.pmWt
  if s.handleOk c.pmW = false ∨ s.handleOk c.pmWt = false then [.handleInvalid]
  else if c.pmUnpair then []
  else if c.pmW = c.pmWt ∨ w.fmt ≠ t.fmt ∨ w.format.isBlock ∨ w.elems ≠ c.pmRows * c.pmCols
      ∨ t.elems ≠ c.pmRows * c.pmCols ∨ w.mrole ≠ 0 ∨ t.mrole ≠ 0 ∨ t.trkEn then [.mirrorInvalid]
  else []

/-- `PROP_MIRROR` (R257). -/
def State.propMirror (s : State) : State := match s.propHead 0x64 with
  | none => s
  | some f =>
    let c := f.q.cue
    match leastCode (s.mirrorChecks c) with
    | some code => s.engineHalt f.q.uid 0x21 code
    | none =>
      let s := if c.pmUnpair then (if (s.handle c.pmW).mrole = 1 then s.unpair c.pmW else s)
        else
          let w := s.handle c.pmW
          let t := s.handle c.pmWt
          (s.setHandle c.pmW { w with mrole := 1, partner := c.pmWt, mrows := c.pmRows, mcols := c.pmCols }).setHandle c.pmWt
            { t with mrole := 2, partner := c.pmW, mrows := c.pmRows, mcols := c.pmCols }
      (s.startFlight f.q.uid).propDone f.q.uid

/-- `PROP_LOCK` (R263, R265): every page is locked in one step, once all are resident; a soft reset abandons it, while one
with UNLOCK completes (R546). -/
def State.propLock (s : State) : State := match s.propHeadOn 0x65 with
  | none => s
  | some f =>
    let c := f.q.cue
    let h := c.propHandle
    if s.softBusy ∧ c.propUnlock = false then s
    else if s.handleOk h = false then s.engineHalt f.q.uid 0x21 .handleInvalid
    else
      let e := s.handle h
      let ds := s.descs h
      let s := s.startFlight f.q.uid
      if c.propUnlock then
        let s := ds.foldl (fun s d => s.updPage d fun p => if p.state = .locked then { p with state := .owned } else p) s
        (s.setHandle h { e with locked := false, fixed := e.placed }).propDone f.q.uid
      else if ds.all (fun d => ((s.page d).state == .owned || (s.page d).state == .locked) && !(s.page d).moving) then
        let s := ds.foldl (fun s d => s.updPage d fun p => { p with state := .locked }) s
        (s.setHandle h { e with locked := true, fixed := true }).propDone f.q.uid
      else
        let s := { s with prop := { s.prop with busy := true } }
        ds.foldl (fun s d => s.demandPage d) s

end Sys2Proof.Machine
end

