-- ==== Sys2Proof/Machine/Fly.lean ====
section
/-! DEFINITION. Fly engines (05 R180 to R226): arming, activation, and the movement of elements. -/

namespace Sys2Proof.Machine

/-! Engines. -/

def FlyEng.init : FlyEng := ⟨none, none, []⟩

def State.flyEng (s : State) (e : Nat) : FlyEng := NMap.get FlyEng.init s.fly e

def State.setFly (s : State) (e : Nat) (v : FlyEng) : State := { s with fly := NMap.set FlyEng.init s.fly e v }

/-- The transfer whose elements move: the oldest that has still to write (R194). -/
def FlyEng.cur (g : FlyEng) : Option Xfer := g.moving.head?

/-- A transfer past its armed slot, by uid. -/
def FlyEng.find (g : FlyEng) (uid : Nat) : Option Xfer := g.moving.find? (·.uid == uid)

/-- A transfer past its armed slot replaced. -/
def FlyEng.put (g : FlyEng) (x : Xfer) : FlyEng :=
  let p (y : Xfer) : Xfer := if y.uid = x.uid then x else y
  { g with active := g.active.map p, drain := g.drain.map p }

def State.setXfer (s : State) (e : Nat) (x : Xfer) : State := s.setFly e ((s.flyEng e).put x)

/-- A transfer past its armed slot changed. -/
def State.updXfer (s : State) (e uid : Nat) (f : Xfer → Xfer) : State := match (s.flyEng e).find uid with
  | some x => s.setXfer e (f x)
  | none => s

/-- A transfer leaves its engine. -/
def FlyEng.drop (g : FlyEng) (uid : Nat) : FlyEng :=
  { g with active := g.active.filter (·.uid != uid), drain := g.drain.filter (·.uid != uid) }

/-- GATHER as it moves elements: a stream source has no offset to index, and its indices are not read (DEDUCED, log entry
36). -/
def Cue.gather (c : Cue) : Nat := if c.fGather = 1 ∧ Sys2Proof.Machine.kStream c.fSrcKind then 0 else c.fGather

/-- Format from its code; a cue that has armed names none that is reserved. -/
def fmtD (c : Nat) : Fmt := (Fmt.ofCode c).getD .b32

/-! The walk descriptor (R188, R189). -/

structure Walk where
  rank : Nat
  ext  : List Nat
  sstr : List Int
  dstr : List Int
  deriving DecidableEq, Repr

/-- A walk from its 64 bytes. -/
def parseWalk (b : List Byte) : Code ⊕ Walk :=
  let w (i : Nat) : Nat := numOf ((b.drop (4 * i)).take 4)
  let rank := w 0 / 256 % 8
  if w 0 % 256 ≠ 1 then .inl .badVersion
  else if rank = 0 ∨ 5 < rank then .inl .rankOrStride
  else
    let ext := (List.range 5).map fun d => if d < rank then w (1 + d) else 1
    let st (k : Nat) := (List.range 5).map fun d => if d < rank then (BitVec.ofNat 32 (w (k + d))).toInt else 0
    if 2 ^ 40 ≤ ext.foldl (· * ·) 1 then .inl .rankOrStride else .inr ⟨rank, ext, st 6, st 11⟩

/-- Product of the extents. -/
def Walk.total (w : Walk) : Nat := w.ext.foldl (· * ·) 1

/-- Smallest and largest offset over the corners, the indexed dimension over GEXT (R192). -/
def span (base : Nat) (str : List Int) (ext : List Nat) : Int × Int :=
  (str.zip ext).foldl (fun (lo, hi) (st, n) =>
    let a := ((n : Int) - 1) * st
    (lo + min 0 a, hi + max 0 a)) ((base : Int), (base : Int))

/-- Index at position `i` of a list replaced. -/
def setAt (l : List Nat) (i v : Nat) : List Nat := l.set i v

/-! Arming (R187, R192, R193). -/

/-- Format code of a side (R183). -/
def State.sideFmt (s : State) (c : Cue) (kind id : Nat) : Nat :=
  if kind = 1 then (s.handle id).fmt else if kind = 8 then 6 else c.fBufFmt

/-- R183: a kind's allowed formats. -/
def kindFmt (kind fmt : Nat) : Bool := match Fmt.ofCode fmt with
  | none => false
  | some f =>
    if kind = 4 ∨ kind = 5 then f.rank.isSome
    else if kind = 6 ∨ kind = 7 then f == .b32 || f == .f16 || f == .f8a || f == .f8g || f == .i8 || f == .i32
    else true

/-- The array or bank of a FEED destination, the queue of a WEIGHT one. -/
def State.feedId (s : State) (c : Cue) : Nat := if s.arr.mode = 2 then c.fDstId % 32 else c.fDstId % 4
def State.weightQ (s : State) (c : Cue) : Nat := if s.arr.split then c.fDstId % 2 else 0

/-- Checks of a transfer whose walk has been read (R180 to R193, R200 to R202, R244). R193 names a scatter onto a stream side
and ACC onto one; a gather from one passes, and ACC onto a far side, which no rule gives an addition, halts as onto a stream
(DEDUCED, log entry 36). A kind its side does not allow gives
the side neither a format nor an address, so it is the only check that fails (DEDUCED, log entry 20). -/
def State.armChecks (s : State) (c : Cue) (w : Walk) : List Code :=
  let sk := c.fSrcKind
  let dk := c.fDstKind
  let sf := s.sideFmt c sk c.fSrcId
  let df := s.sideFmt c dk c.fDstId
  let hs := (if sk = 1 then [c.fSrcId] else []) ++ (if dk = 1 then [c.fDstId] else [])
    ++ (if c.fGather = 1 ∨ c.fGather = 2 then [c.fIndexHandle] else []) ++ (if usesRef c then [c.fRefHandle] else [])
  let total := w.total
  let ext0 := listGet 1 w.ext 0
  let blockBad (kind fmt base : Nat) (str : List Int) (ix : Bool) : Bool := (fmtD fmt).isBlock &&
    (ext0 % 32 != 0 || base % 32 != 0 || (!kStream kind && listGet 0 str 0 != 1) || (ix && !kStream kind && c.fGdim == 0))
  let corners (str : List Int) (base : Nat) (ix : Bool) := span base str (if ix then setAt w.ext c.fGdim c.fGext else w.ext)
  let rangeBad (kind id fmt base : Nat) (str : List Int) (ix : Bool) : Bool :=
    if kStream kind ∨ total = 0 ∨ (ix ∧ c.fGext = 0) then false
    else
      let sp := corners str base ix
      let by_ : Int := (fmtD fmt).bits
      let bytes (o : Int) : Int := o * by_ / 8
      decide (sp.1 < 0) || (if kind = 1 then decide (((s.handle id).elems : Int) ≤ sp.2)
        else if kind = 7 then decide ((stageSize : Int) < (sp.2 + 1) * by_ / 8)
          || (s.unit (id % 8)).meetsPort (bytes sp.1).toNat (bytes (sp.2 + 1)).toNat
        else if kind = 2 then decide ((2 ^ 32 : Int) < (c.fAddr % 2 ^ 32 : Nat) + bytes (sp.2 + 1))
        else decide ((2 ^ 48 : Int) < (c.fAddr : Nat) + bytes (sp.2 + 1)))
  let nIdx := (w.ext.drop c.fGdim).foldl (· * ·) 1
  if kSrcOk sk = false ∨ kDstOk dk = false ∨ (kFar sk ∧ kFar dk) then [Code.flyField] else
  List.flatten [(if hs.any (fun h => !s.handleOk h) then [Code.handleInvalid] else []),
    (if c.fGather = 3 ∨ (c.fGather ≠ 0 ∧ w.rank ≤ c.fGdim) ∨ (c.fGather = 2 ∧ kStream dk)
      then [.flyField] else []),
    (if c.fAcc ∧ (kStream dk ∨ kFar dk) then [.flyField] else []),
    (if c.fRmode = 3 then [.formatUnsupported] else []),
    (if kindFmt sk sf = false ∨ kindFmt dk df = false then [.formatUnsupported] else []),
    (if (kFar sk ∨ kFar dk) ∧ (sf ≠ df ∨ sk = 8 ∨ sk = 0) then [.formatUnsupported] else []),
    (if (kFar sk ∨ kFar dk) ∧ c.fAddr % 64 ≠ 0 then [.flyField] else []),
    (if c.fAcc ∧ (fmtD df).isBlock then [.formatUnsupported] else []),
    (if (c.fGather = 1 ∨ c.fGather = 2) ∧ s.handleOk c.fIndexHandle ∧ (s.handle c.fIndexHandle).fmt ≠ 7
      then [.formatUnsupported] else []),
    (if dk = 1 ∧ (s.handle c.fDstId).mrole = 2 then [.mirrorInvalid] else []),
    (if dk = 1 ∧ (s.descs c.fDstId).any (fun d => (s.page d).state == .locked) then [.pageLocked] else []),
    (if blockBad sk sf c.fSrcBase w.sstr (c.fGather == 1) ∨ blockBad dk df c.fDstBase w.dstr (c.fGather == 2)
      then [.rankOrStride] else []),
    (if rangeBad sk c.fSrcId sf c.fSrcBase w.sstr (c.fGather == 1) ∨ rangeBad dk c.fDstId df c.fDstBase w.dstr (c.fGather == 2)
      then [.flyRange] else []),
    (if (c.fGather = 1 ∨ c.fGather = 2) ∧ 0 < total ∧ (s.handle c.fIndexHandle).elems < c.fIndexBase + nIdx
      then [.flyRange] else []),
    (if (sk = 7 ∨ sk = 8) ∧ s.build.units ≤ c.fSrcId % 8 then [.flyField] else []),
    (if (dk = 6 ∨ dk = 7) ∧ s.build.units ≤ c.fDstId % 8 then [.flyField] else []),
    (if dk = 6 ∧ ((s.unit (c.fDstId % 8)).port (c.fDstId / 8 % 4)).2 = 0 then [.flyField] else []),
    (if dk = 4 ∧ s.arrCount ≤ s.feedId c then [.flyField] else []),
    (if dk = 5 ∧ s.arr.split = false ∧ c.fDstId % 2 = 1 then [.flyField] else []),
    (if (dk = 4 ∨ dk = 5) ∧ s.tileK ((fmtD df).rank.getD 3) < ext0 then [.shapeExceedsArray] else []),
    (if dk = 5 ∧ 0 < total ∧ s.tileN ((fmtD df).rank.getD 3) < (total + ext0 - 1) / ext0 then [.shapeExceedsArray] else [])]

/-- Ordered mode (R216): one handle, one mirrored pair or one region on both sides, with meeting ranges. -/
def State.aliases (s : State) (c : Cue) (w : Walk) : Bool :=
  let same := (c.fSrcKind == 1 && c.fDstKind == 1 && (c.fSrcId == c.fDstId
      || ((s.handle c.fSrcId).mrole != 0 && (s.handle c.fSrcId).partner == c.fDstId)))
    || (c.fSrcKind == 7 && c.fDstKind == 7 && c.fSrcId % 8 == c.fDstId % 8)
  let a := span c.fSrcBase w.sstr (if c.fGather = 1 then setAt w.ext c.fGdim c.fGext else w.ext)
  let b := span c.fDstBase w.dstr (if c.fGather = 2 then setAt w.ext c.fGdim c.fGext else w.ext)
  same && decide (0 < w.total) && decide (a.1 ≤ b.2) && decide (b.1 ≤ a.2)

/-- What a mirrored destination resolves to (R195, R211): the partner and the pair's extents. -/
def State.mirrorOf (s : State) (c : Cue) : Option (Nat × Nat × Nat) :=
  let h := s.handle c.fDstId
  if c.fDstKind = 1 ∧ h.mrole = 1 ∧ h.mcols ≠ 0 ∧ kFar c.fSrcKind = false then some (h.partner, h.mrows, h.mcols) else none

/-- `TRANSFER_ARM` (R193, R195). -/
def State.transferArm (s : State) (e : Nat) : State := match (s.flyEng e).armed, s.startable (16 + e) with
  | none, some f =>
    let c := f.q.cue
    let id := 16 + e
    if c.fWalk % 64 ≠ 0 ∨ s.localRangeOk c.fWalk 64 = false then
      (s.count R.propLocalRefused 1).engineHalt f.q.uid id .localAddr
    else
      let r := s.readPlain id c.fWalk 64
      let s := r.2
      if r.1.2 then s.engineHalt f.q.uid id .uncorrectableCue
      else match parseWalk r.1.1 with
      | .inl code => s.engineHalt f.q.uid id code
      | .inr w => match leastCode (s.armChecks c w) with
        | some code => s.engineHalt f.q.uid id code
        | none =>
          let x : Xfer := { uid := f.q.uid, rank := w.rank, ext := w.ext, sstr := w.sstr, dstr := w.dstr
                            sfmt := s.sideFmt c c.fSrcKind c.fSrcId, dfmt := s.sideFmt c c.fDstKind c.fDstId
                            total := w.total, mirror := s.mirrorOf c, ordered := s.aliases c w, st := 0, dt := 0, db := 0
                            n := 0, asked := 0, inbox := [], ixs := [], seen := [], granted := 0, sent := 0, codes := [], scales := [], poison := [], word := none
                            stall := false, pages := [] }
          (s.unqueueAt id f.q.uid).setFly e { s.flyEng e with armed := some x }
  | _, _ => s

/-! Stream destinations and credits (R199, R200). -/

/-- A cue's stream destination, by kind and buffer. -/
def State.destKey (s : State) (c : Cue) : Option (Nat × Nat) := match c.fDstKind with
  | 4 => some (4, s.feedId c)
  | 5 => some (5, s.weightQ c)
  | 6 => some (6, c.fDstId % 32)
  | _ => none

/-- An earlier-dispatched transfer to the same stream destination has not completed (R200). -/
def State.destBusy (s : State) (f : Flight) : Bool := match s.destKey f.q.cue with
  | none => false
  | some k => s.flights.any fun g => g.opcode == 0x40 && decide (g.q.uid < f.q.uid) && s.destKey g.q.cue == some k
      && g.stage != .finished

/-- Destination bytes of `n` elements, block scales included. -/
def destBytes (f : Fmt) (n : Nat) : Nat := n * f.bits / 8 + if f.isBlock then n / 32 else 0

/-- Bytes a destination buffer holds in all, and bytes that stand in it. -/
def State.destRoom (s : State) (c : Cue) (x : Xfer) : Nat × Nat := match c.fDstKind with
  | 4 => (s.feedBytes, ((s.feed (s.feedId c)).map fun r => rowBytes (fmtD r.fmt) r.codes.length).sum
            + rowBytes (fmtD x.dfmt) x.codes.length)
  | 5 => (s.weightBytes + s.weightBytes / 16, rowBytes (fmtD x.dfmt) x.codes.length)
  | 6 =>
    let u := s.unit (c.fDstId % 8)
    ((u.port (c.fDstId / 8 % 4)).2 * 4096, portBytes (u.elems (c.fDstId / 8 % 4)))
  | _ => (0, 0)

/-- 4 KiB credits the destination can still give (R199). -/
def State.creditsLeft (s : State) (c : Cue) (x : Xfer) : Nat :=
  let r := s.destRoom c x
  if (c.fDstKind = 4 ∨ c.fDstKind = 5) ∧ s.cfgPending then 0
  else (r.1 - r.2 - (x.granted * 4096 - x.sent)) / 4096

/-- A WEIGHT transfer takes its half and the half's credits, all at once, when it is empty (R199, R202). -/
def State.takeHalf (s : State) (e : Nat) (c : Cue) (x : Xfer) : State :=
  let k := halfIdx (s.weightQ c) (NMap.get 0 s.arr.fillAt (s.weightQ c))
  if c.fDstKind = 5 ∧ x.granted = 0 ∧ s.half k = .empty ∧ s.cfgPending = false then
    (s.setHalf k (.filling x.uid)).setXfer e { x with granted := (s.destRoom c x).1 / 4096 }
  else s

/-- The credits held do not cover `n` elements more (R199). -/
def Xfer.noCredit (x : Xfer) (c : Cue) (n : Nat) : Bool :=
  kStream c.fDstKind && decide (x.granted * 4096 < x.sent + destBytes (fmtD x.dfmt) n)

/-- `CREDIT_RETURN` (R199): a WEIGHT half is given whole, and FEED and PORT credits as there is room. -/
def State.creditReturn (s : State) (e n : Nat) : State := match (s.flyEng e).active with
  | none => s
  | some x => match s.flight x.uid with
    | none => s
    | some f =>
      if f.q.cue.fDstKind = 5 then s.takeHalf e f.q.cue x
      else if kStream f.q.cue.fDstKind then
        s.setXfer e { x with granted := x.granted + min n (s.creditsLeft f.q.cue x) } else s

/-! Positions (R191). -/

/-- Walk indices of position `n`. -/
def walkIdx (ext : List Nat) (n : Nat) : List Nat :=
  (ext.foldl (fun (st : List Nat × Nat) e => (st.1 ++ [if e = 0 then 0 else st.2 % e], if e = 0 then 0 else st.2 / e))
    ([], n)).1

/-- Offset of a side, the indexed dimension at `k`. -/
def sideOffset (base : Nat) (str : List Int) (idx : List Nat) (at_ : Option (Nat × Int)) : Int :=
  (str.zip idx).zipIdx.foldl (fun o ((st, i), d) => match at_ with
    | some (g, k) => if d = g then o + k * st else o + (i : Int) * st
    | none => o + (i : Int) * st) (base : Int)

/-- index_at's place in the index tensor. -/
def indexPlace (ext idx : List Nat) (gdim : Nat) : Nat :=
  ((List.range 5).foldl (fun (st : Nat × Nat) d =>
    if d < gdim then st else (st.1 + listGet 0 idx d * st.2, st.2 * listGet 1 ext d)) (0, 1)).1

/-! Access to handles. -/

/-- Handle-space byte of element `o` and bytes read for it: one element, or the codes of a block. -/
def elemByte (f : Fmt) (o : Nat) : Nat := o * f.bits / 8

/-- Scale-plane byte of the block of element `o` (R186). -/
def scaleByte (elems o : Nat) : Nat := roundUp (elems / 2) 64 + o / 32

/-- Pages an access to element `o` of handle `h` needs. -/
def State.elemPages (s : State) (h o : Nat) : List Nat :=
  let f := (s.handle h).format
  s.descOf h (elemByte f o) :: (if f.isBlock then [s.descOf h (scaleByte (s.handle h).elems o)] else [])

/-- Pages that are not resident are asked for; true when all are there (R221). -/
def State.pagesReady (s : State) (l : List Nat) : Bool × State :=
  let missing := l.filter fun d => let p := s.page d
    !((p.state == .owned || p.state == .locked) && !p.moving)
  (missing.isEmpty, missing.foldl (fun s d => s.demandPage d) s)

/-- `n` bytes of handle space, as this engine reads them: data and poison. -/
def State.readHandle (s : State) (id h b n : Nat) : (List Byte × Bool) × State := match s.handleAddr h b with
  | none => ((List.replicate n 0, true), s)
  | some a =>
    let r := s.readPlain id a n
    (r.1, r.2.touch (s.descOf h b) false)

/-- A read that joins the one before it in walk order when it falls on the same bank word (R213): `k` is the stream of the
transfer's reads. Each stream merges by itself (DEDUCED, log entry 36). -/
def State.readMerged (s : State) (e uid k h b n : Nat) : (List Byte × Bool) × State :=
  match s.handleAddr h b, (s.flyEng e).find uid with
  | some a, some x =>
    if NMap.get 0 x.seen k = a / 64 + 1 then
      let r := s.mem.readPure (a / 64)
      let data := (((r.1.map fun v => (v, r.2.1)).drop (a % 64)).take n)
      let l := (s.mem.wq.filter (·.engine == 16 + e)).foldl (overlay a) data
      ((l.map (·.1), l.any (·.2)), s)
    else
      let r := s.readHandle (16 + e) h b n
      (r.1, r.2.setXfer e { x with seen := NMap.put x.seen k (a / 64 + 1) })
  | _, _ => s.readHandle (16 + e) h b n

/-- A write of handle-space bytes, acknowledged (R334); a LOCKED page takes none (R244). -/
def State.writeHandle (s : State) (uid id h b : Nat) (l : List Byte) : State := match s.handleAddr h b with
  | none => s
  | some a =>
    if (s.page (s.descOf h b)).state = .locked then s else (s.queueWrite uid id a l false).touch (s.descOf h b) true

/-! Elements. -/

/-- A source element: its code, block scale, poison, place kept by a masked lane, and E of a raw word. -/
structure SrcEl where
  code   : Nat
  scale  : Nat
  poison : Bool
  masked : Bool
  kind   : Nat
  e      : Int
  deriving DecidableEq, Repr, Inhabited

/-- FILL as a source code (R197). -/
def fillCode (f : Fmt) (c : Cue) : Nat :=
  if f.bits = 64 then (c.fFill.toInt % (2 ^ 64 : Int)).toNat else c.fFill.toNat % 2 ^ f.bits

def fillEl (f : Fmt) (c : Cue) (poison : Bool) : SrcEl := ⟨fillCode f c, fieldN c.fFill 8 8, poison, false, 0, 0⟩

/-- Codes of a block of 32 from its 16 bytes (R23, R185). -/
def blockCodes (b : List Byte) : List Nat := (List.range 32).map fun i =>
  let x := (listGet 0 b (i / 2)).toNat
  if i % 2 = 0 then x % 16 else x / 16

/-- Exact value of a source element under scale exponent `t` (R204, R206, R208). -/
def SrcEl.val (f : Fmt) (t : Int) (x : SrcEl) : Num :=
  if x.poison then .nan
  else if x.kind = 2 then (Acc.ofRaw (BitVec.ofNat 64 x.code)).value (x.e - 56)
  else if f.isBlock then decodeBlockElem f x.scale x.code
  else (decodeElem f x.code).scale2 (if f.isScaled then t else 0)

/-- The widening conversions of R29. -/
def widens (sf df : Fmt) : Bool := match sf, df with
  | .f4, .b32 | .i4, .b32 | .f8a, .b32 | .f8g, .b32 | .f16, .b32 | .f8a, .f16 | .f8g, .f16 => true
  | _, _ => false

/-- Past the finite range of the target a widening gives an infinity in every mode (R29). -/
def widenRnd (sf df : Fmt) (r : Rnd) : Rnd := if widens sf df then .rne else r

/-- A conversion that saturates (R29). -/
def saturates (f : Fmt) (r : Rnd) (x : Num) : Bool := match x with
  | .nan => false
  | .inf _ => !(f == .f16 || f == .b32)
  | .fin n m e =>
    let q : Int := (quantise r m e 0 : Nat)
    let past (w : Nat) : Bool := if n then decide ((2 ^ (w - 1) : Int) < q) else decide ((2 ^ (w - 1) : Int) ≤ q)
    let fl (sp : FloatSpec) : Bool :=
      if m = 0 then false
      else
        let q := max (1 - sp.bias - sp.M) ((Nat.log2 m : Int) + e - sp.M)
        magLt sp.maxM sp.maxE (quantise r m e q) q
    match f with
    | .f4 => fl specF4 | .f8a => fl specF8a | .f8g => fl specF8g
    | .i4 => past 4 | .i8 => past 8 | .i32 => past 32 | .i64 => past 64
    | _ => false

/-- Codes and block scale of a group that moves unchanged; poison becomes NaN, or 0 in an integer (R184, R208). -/
def movedCodes (df : Fmt) (els : List SrcEl) : List Nat × Nat :=
  if df.isBlock then
    if els.any (·.poison) then (els.map fun _ => 0, 0xFF) else (els.map (·.code), (els.head?.map (·.scale)).getD 0)
  else (els.map fun y => if y.poison then roundTo df .rne .nan else y.code, 0)

/-- What writing an element of a format without block scales gives: code and saturation (R29, R206). -/
def convertEl (df : Fmt) (t : Int) (r : Rnd) (sf : Fmt) (st : Int) (x : SrcEl) : Nat × Bool :=
  if x.kind = 2 ∧ df = .i64 ∧ x.poison = false then (x.code, false)
  else
    let v := (x.val sf st).scale2 (if df.isScaled then -t else 0)
    (roundTo df (widenRnd sf df r) v, saturates df r v)

/-- An element that adds into an I64 accumulator (R50, R215): raw words with their codes, any other rounded and held to
±(2^63 − 2). -/
def incoming (r : Rnd) (sf : Fmt) (st : Int) (x : SrcEl) : Acc × Bool :=
  if (x.kind = 2 ∨ sf = .i64) ∧ x.poison = false then (Acc.ofRaw (BitVec.ofNat 64 x.code), false)
  else (⟨roundIntSat 66 r (x.val sf st), false, false, false⟩ : Acc).sat

/-- A block's scale code and element codes (R22, R29 to R31). -/
def convertBlock (df : Fmt) (t : Int) (policy : Bool) (floor : Nat) (rs : List Rnd) (vs : List Num) :
    Nat × List Nat × Nat :=
  let sc := if vs.any Num.isNan then 0xFF else if policy then blockScaleCode df t floor vs else trackerCode t
  if sc = 0xFF then (sc, vs.map fun _ => 0, 0)
  else
    let l := (vs.zip rs).map fun (v, r) =>
      let y := v.scale2 (127 - (sc : Int))
      (roundTo df r y, saturates df r y)
    (sc, l.map (·.1), (l.filter (·.2)).length)

/-- An accumulated element (R215): the old code, the incoming element, and the result with its saturation. -/
def accumulate1 (df : Fmt) (t : Int) (r : Rnd) (old : Nat) (oldPoison : Bool) (sf : Fmt) (st : Int) (x : SrcEl) :
    Nat × Bool :=
  let exactInt (w : Nat) : Nat × Bool :=
    let inc := convertEl df t r sf st x
    let v := (BitVec.ofNat w old).toInt + (BitVec.ofNat w inc.1).toInt
    let hi : Int := 2 ^ (w - 1) - 1
    let lo : Int := -(2 ^ (w - 1))
    ((BitVec.ofInt w (max lo (min hi v))).toNat, inc.2 || decide (v < lo) || decide (hi < v))
  if df = .i64 then
    let inc := incoming r sf st x
    let a := (Acc.ofRaw (BitVec.ofNat 64 old)).add inc.1
    ((a.sat.1.toRaw).toNat, inc.2 || a.sat.2)
  else if df = .i32 then exactInt 32
  else if df = .i8 ∧ t = 0 then exactInt 8
  else
    let o := if oldPoison then Num.nan else (decodeElem df old).scale2 (if df.isScaled then t else 0)
    let v := (o.add (x.val sf st)).scale2 (if df.isScaled then -t else 0)
    (roundTo df r v, saturates df r v)

/-- The rounding mode of an element (R34, R205). -/
def State.flyRnd (s : State) (f : Flight) (n : Nat) (o : Int) : Rnd :=
  let c := f.q.cue
  let draw := if c.fDstKind = 1 then srDraw s.seed c.fDstId o.toNat f.q.step
    else srDraw s.seed c.fRefHandle (c.fRefBase + n) f.q.step
  rndOf c.fRmode draw

/-! Activation. -/

/-- Elements moved together: a block where either side has block scales. -/
def Xfer.group (x : Xfer) : Nat := if (fmtD x.sfmt).isBlock ∨ (fmtD x.dfmt).isBlock then 32 else 1

/-- A transfer has nothing outstanding and no slot: it is finished (R197). -/
def State.flySettle (s : State) (uid : Nat) : State :=
  let slot := s.fly.any fun e => (e.2.moving ++ e.2.armed.toList).any (·.uid == uid)
  let bs (r : BsReq) : Bool := match r.use with
    | .flyRead u _ _ _ _ => u == uid | .flyMerge u _ => u == uid | .flyWrite u => u == uid | _ => false
  let busy := (s.fab.rops.any fun r => r.uid == uid && r.kind != .post) || s.bs.todo.any bs || s.bs.out.any fun r => bs r.2.2
  match s.flight uid with
  | some f => if f.stage = .started ∧ f.opcode = 0x40 ∧ slot = false ∧ busy = false then
      (s.finishFlight uid).countMod (R.flyXfers (f.q.cue.engine - 16)) 1 else s
  | none => s

/-- A WEIGHT transfer leaves its half as a complete tile (R202), or empty where it has written nothing. -/
def State.giveHalf (s : State) (c : Cue) (x : Xfer) : State :=
  let q := s.weightQ c
  let h := NMap.get 0 s.arr.fillAt q
  if c.fDstKind ≠ 5 ∨ s.half (halfIdx q h) ≠ .filling x.uid then s
  else if x.n = 0 then s.setHalf (halfIdx q h) .empty
  else
    let s := s.setHalf (halfIdx q h) (.ready ⟨x.dfmt, x.dt, x.db, listGet 1 x.ext 0, x.codes, x.scales, x.poison⟩)
    { s with arr := { s.arr with fillAt := NMap.set 0 s.arr.fillAt q (1 - h) } }

/-- A transfer has issued its last read and written its last element: it leaves its engine (R194, R197). -/
def State.releaseActive (s : State) (e : Nat) (x : Xfer) : State :=
  let s := match s.flight x.uid with
    | none => s
    | some f => s.giveHalf f.q.cue x
  (s.setFly e ((s.flyEng e).drop x.uid)).flySettle x.uid

/-- Pages of the source element, and of the destination element with its mirror. -/
def State.srcPages (s : State) (c : Cue) (o : Int) : List Nat :=
  if c.fSrcKind = 1 then s.elemPages c.fSrcId o.toNat else []
def State.dstPages (s : State) (c : Cue) (x : Xfer) (o : Int) : List Nat :=
  if c.fDstKind = 1 then
    s.elemPages c.fDstId o.toNat ++ (match x.mirror with
      | some (p, rows, cols) => s.elemPages p (o.toNat % cols * rows + o.toNat / cols)
      | none => [])
  else []

/-- `TRANSFER_ACTIVATE` (R194, R198, R200): the scales are those in force when the cue issued (R40, R41), the destination
grants its first credits and a first page that is not resident is asked for. -/
def State.transferActivate (s : State) (e : Nat) : State := match (s.flyEng e).active, (s.flyEng e).armed with
  | none, some x => match s.flight x.uid with
    | none => s
    | some f =>
      let c := f.q.cue
      if s.mayStart f = false ∨ s.destBusy f then s
      else
        let feeds : Bool := c.fDstKind == 4 || c.fDstKind == 5 || c.fDstKind == 6
        let x := { x with st := if c.fSrcKind = 1 then f.q.st else 0, dt := if feeds then f.q.ft else 0
                          db := if feeds then f.q.fb else 0 }
        let s := s.startFlight x.uid
        let s := if x.ordered then s.count (R.flyAlias e) 1 else s
        let g := s.flyEng e
        if x.total = 0 then (s.setFly e { g with armed := none }).flySettle x.uid
        else
          let x := { x with granted := if kStream c.fDstKind ∧ c.fDstKind ≠ 5 then s.creditsLeft c x else 0 }
          let s := (s.setFly e { g with active := some x, armed := none }).takeHalf e c x
          let pages := if c.gather = 0 then s.srcPages c c.fSrcBase ++ s.dstPages c x c.fDstBase else []
          let r := s.pagesReady pages
          match r.1, (s.flyEng e).active with
          | false, some x => r.2.setXfer e { x with stall := true, pages := pages }
          | _, _ => s
  | _, _ => s

/-! Reads from afar (R418, R420, R422, R463). -/

/-- Byte address of element `o` of a far side, and of its block's scale byte (log entry 12). -/
def farAddr (c : Cue) (f : Fmt) (o : Nat) : Nat := c.fAddr + elemByte f o
def State.farScale (s : State) (c : Cue) (o : Nat) : Nat :=
  let h := if c.fSrcKind = 1 then c.fSrcId else if c.fDstKind = 1 then c.fDstId else c.fRefHandle
  c.fAddr + scaleByte (s.handle h).elems o

/-- Class of a packet to a local address of another core (R418). -/
def classOf (a : Nat) : Nat := a / 512 % 4

/-- A READ of `n` bytes. -/
def State.sendRead (s : State) (f : Flight) (pos part a n : Nat) : State :=
  let t := s.newTag
  let r : RemoteOp := ⟨t.1, f.q.cue.fRemote, .read pos part n, classOf a, f.q, none⟩
  let s := { t.2 with fab := { t.2.fab with rops := t.2.fab.rops ++ [r] } }
  s.sendPacket f.q.cue.fRemote 1 (classOf a) (bytesOf 4 a ++ bytesOf 2 t.1 ++ bytesOf 2 n)

/-- A WRITE of bytes. -/
def State.sendWrite (s : State) (f : Flight) (a : Nat) (l : List Byte) : State :=
  let t := s.newTag
  let r : RemoteOp := ⟨t.1, f.q.cue.fRemote, .write, classOf a, f.q, none⟩
  let s := { t.2 with fab := { t.2.fab with rops := t.2.fab.rops ++ [r] } }
  s.sendPacket f.q.cue.fRemote 0 (classOf a) (bytesOf 4 a ++ bytesOf 2 t.1 ++ bytesOf 2 l.length ++ l)

/-- Bytes of one far group: the codes of a block, or one element. -/
def groupBytes (f : Fmt) : Nat := if f.isBlock then 16 else f.bits / 8

/-- Bytes one request of a far side covers: an aligned 512-byte block of a core (R420), a backstage word (R463). -/
def farSpan (kind : Nat) : Nat := if kind = 2 then 512 else 64

/-- Consecutive groups of a walk whose bytes follow one another in one block: first position, first byte, groups. One
packet carries them (R420 and the worked example of chapter 11, DEDUCED, log entry 22). -/
structure FarRun where
  pos : Nat
  a   : Nat
  n   : Nat
  deriving Repr

/-- The run grown by the group at position `pos` and byte `a`. -/
def FarRun.join (r : FarRun) (kind eb g pos a : Nat) : Option FarRun :=
  if pos = r.pos + g * r.n ∧ a = r.a + eb * r.n ∧ (a + eb - 1) / farSpan kind = r.a / farSpan kind then
    some { r with n := r.n + 1 } else none

/-- A write of the backstage word at `a` is on its way, whole or laid over what the word holds (log entry 13). -/
def State.wordBusy (s : State) (a : Nat) : Bool :=
  let adr := BitVec.ofNat 48 (a / 64 * 64)
  let same (r : BsReq) : Bool := r.addr == adr && (match r.use with
    | .flyMerge _ _ => true | .flyWrite _ => true | _ => false)
  s.bs.todo.any same || s.bs.out.any fun r => same r.2.2

/-- The far read of a run. -/
def State.askFarRun (s : State) (f : Flight) (x : Xfer) (r : Option FarRun) : State := match r with
  | none => s
  | some r =>
    let n := r.n * groupBytes (fmtD x.sfmt)
    if f.q.cue.fSrcKind = 2 then s.sendRead f r.pos 0 r.a n
    else s.bsSend [⟨.flyRead x.uid r.pos 0 (r.a % 64) n, false, BitVec.ofNat 48 (r.a / 64 * 64), 0⟩]

/-- The far read of a block's scale code. -/
def State.askScale (s : State) (f : Flight) (x : Xfer) (pos : Nat) (o : Int) : State :=
  if (fmtD x.sfmt).isBlock = false then s
  else
    let a := s.farScale f.q.cue o.toNat
    if f.q.cue.fSrcKind = 2 then s.sendRead f pos 1 a 1
    else s.bsSend [⟨.flyRead x.uid pos 1 (a % 64) 1, false, BitVec.ofNat 48 (a / 64 * 64), 0⟩]

/-! One group of elements. -/

/-- What stands in the way of the next group, or the state behind it. -/
inductive Moved where
  | stuck (s : State)
  | on (s : State)

/-- Element of the index tensor at a walk position. -/
def indexElem (c : Cue) (x : Xfer) (pos : Nat) : Nat := c.fIndexBase + indexPlace x.ext (walkIdx x.ext pos) c.fGdim

/-- The index at a walk position: in bounds or not, and whether its word was poisoned (R212). -/
def State.readIndex (s : State) (e : Nat) (c : Cue) (x : Xfer) (pos : Nat) : (Option Int × Bool) × State :=
  let r := s.readMerged e x.uid 0 c.fIndexHandle (4 * indexElem c x pos) 4
  let k := (BitVec.ofNat 32 (numOf r.1.1)).toInt
  if r.1.2 then ((none, true), r.2)
  else if k < 0 ∨ (c.fGext : Int) ≤ k then ((none, false), r.2) else ((some k, false), r.2)

/-- Walk positions of the group at `pos` whose index has not been read. -/
def Xfer.unread (x : Xfer) (pos : Nat) : List Nat :=
  ((List.range x.group).map (pos + ·)).filter fun p => !(x.ixs.any (·.1 == p))

/-- Pages of the indices that the group at `pos` still has to read. -/
def State.indexPages (s : State) (c : Cue) (x : Xfer) (pos : Nat) : List Nat :=
  if c.gather = 0 then [] else ((x.unread pos).flatMap fun p => s.elemPages c.fIndexHandle (indexElem c x p)).eraseDups

/-- The indices of the group at `pos` are read, each once. -/
def State.readIndices (s : State) (e : Nat) (c : Cue) (x : Xfer) (pos : Nat) : State :=
  if c.gather = 0 then s
  else (x.unread pos).foldl (fun s p =>
    let r := s.readIndex e c x p
    r.2.updXfer e x.uid fun y => { y with ixs := NMap.put y.ixs p r.1 }) s

/-- The index of a position that has been read. -/
def State.indexOf (s : State) (e : Nat) (c : Cue) (uid pos : Nat) : Option Int × Bool :=
  if c.gather = 0 then (some 0, false)
  else match (s.flyEng e).find uid with
    | some y => NMap.get (none, false) y.ixs pos
    | none => (none, false)

/-- Elements of a group read from a handle or a region. -/
def State.readNear (s : State) (e : Nat) (c : Cue) (x : Xfer) (o : Nat) : List SrcEl × State :=
  let f := fmtD x.sfmt
  if c.fSrcKind = 1 then
    if f.isBlock then
      let r := s.readMerged e x.uid 1 c.fSrcId (elemByte f o) 16
      let q := r.2.readMerged e x.uid 2 c.fSrcId (scaleByte (s.handle c.fSrcId).elems o) 1
      let p := r.1.2 || q.1.2
      ((blockCodes r.1.1).map fun k => ⟨k, numOf q.1.1, p, false, 0, 0⟩, q.2)
    else
      let r := s.readMerged e x.uid 1 c.fSrcId (elemByte f o) (f.bits / 8)
      ([⟨numOf r.1.1, 0, r.1.2, false, 0, 0⟩], r.2)
  else
    let u := s.unit (c.fSrcId % 8)
    ([⟨u.num (elemByte f o) (f.bits / 8), 0, u.bad (elemByte f o) (f.bits / 8), false, 0, 0⟩], s)

/-- Source elements of the group at the transfer's position: none while they have still to come. An element whose index is
out of bounds is FILL, poisoned where the index was (R197, R212); a masked lane writes nothing and carries no poison (R208). -/
def State.sourceGroup (s : State) (e : Nat) (f : Flight) (x : Xfer) (g : Nat) (offs : List (Option Int)) (bad : List Bool) :
    Option (List SrcEl) × State :=
  let ixPoison := listGet false bad 0
  let c := f.q.cue
  let fm := fmtD x.sfmt
  match c.fSrcKind with
  | 0 => (some (List.replicate g (fillEl fm c false)), s)
  | 8 =>
    let key := laneKey (16 + e) (c.fSrcId / 8 % 2) (c.fSrcId % 8)
    let l := NMap.get [] s.lanes key
    if l.length < g then (none, s)
    else
      let s := { s with lanes := NMap.set [] s.lanes key (l.drop g) }
      (some ((l.take g).map fun y => ⟨y.bits.toNat, 0, y.poison && !y.masked, y.masked, y.kind, y.e⟩), s)
  | 2 | 3 =>
    let ok : Bool := offs.all fun o => match o with | none => true | some _ => true
    if offs.all Option.isNone then (some (List.replicate g (fillEl fm c ixPoison)), s)
    else match NMap.get (0, false) x.inbox (2 * x.n), x.inbox.any (·.1 == 2 * x.n),
        fm.isBlock && !(x.inbox.any (·.1 == 2 * x.n + 1)) with
      | v, true, false =>
        let sc := NMap.get (0, false) x.inbox (2 * x.n + 1)
        if fm.isBlock then
          (some ((blockCodes (bytesOf 16 v.1)).map fun k => ⟨k, sc.1, v.2 || sc.2, false, 0, 0⟩), s)
        else (if ok then some [⟨v.1, 0, v.2, false, 0, 0⟩] else none, s)
      | _, _, _ => (none, s)
  | _ =>
    if fm.isBlock then
      match offs.head? with
      | some (some o) => let r := s.readNear e c x o.toNat
                         (some r.1, r.2)
      | _ => (some (List.replicate g (fillEl fm c ixPoison)), s)
    else
      let r := offs.zipIdx.foldl (fun (st : List SrcEl × State) (o, i) => match o with
        | some o => let r := st.2.readNear e c x o.toNat
                    (st.1 ++ r.1, r.2)
        | none => (st.1 ++ [fillEl fm c (listGet false bad i)], st.2)) ([], s)
      (some r.1, r.2)

/-- A source side's format for decoding: that of the delivered element for CHORUS (R183). -/
def SrcEl.fmt (x : SrcEl) (f : Fmt) (chorus : Bool) : Fmt :=
  if chorus then (if x.kind = 1 then .f16 else if x.kind = 2 then .i64 else .b32) else f

/-- One element written to a handle: bytes, mirror and tracker (R207, R211). -/
def State.putHandle (s : State) (e : Nat) (f : Flight) (x : Xfer) (df : Fmt) (t : Int) (o code : Nat) (nan far : Bool) :
    State :=
  let c := f.q.cue
  let id := 16 + e
  let l := bytesOf (df.bits / 8) code
  let s := s.writeHandle f.q.uid id c.fDstId (elemByte df o) l
  if far then s
  else
    let s := match x.mirror with
      | some (p, rows, cols) => s.writeHandle f.q.uid id p (elemByte df (o % cols * rows + o / cols)) l
      | none => s
    let v := if nan then Num.nan else (decodeElem df code).scale2 (if df.isScaled then t else 0)
    s.handlePassNote c.fDstId v

/-- A packet's bytes go out as a WRITE. -/
def State.flushRemote (s : State) (e : Nat) (f : Flight) : State := match (s.flyEng e).find f.q.uid with
  | some x => match x.word with
    | some (a, bytes) => (s.setXfer e { x with word := none }).sendWrite f a (bytes.map (·.2))
    | none => s
  | none => s

/-- Bytes for a remote core join the packet being put together, or begin another (R420, log entry 22). -/
def State.putRemote (s : State) (e : Nat) (f : Flight) (a : Nat) (l : List Byte) : State :=
  let begin_ (s : State) : State :=
    s.updXfer e f.q.uid fun x => { x with word := some (a, l.zipIdx.map fun p => (p.2, p.1)) }
  match ((s.flyEng e).find f.q.uid).bind (·.word) with
  | some (w, bytes) =>
    if a = w + bytes.length ∧ (a + l.length - 1) / 512 = w / 512 then
      s.updXfer e f.q.uid fun x =>
        { x with word := some (w, bytes ++ l.zipIdx.map fun p => (bytes.length + p.2, p.1)) }
    else begin_ (s.flushRemote e f)
  | none => begin_ s

/-- A backstage word goes out: whole, or laid over what the word holds (log entry 13); none while the engine has a request
for that word outstanding. -/
def State.flushWord (s : State) (e : Nat) (x : Xfer) : Option State := match x.word with
  | none => some s
  | some (a, bytes) =>
    let adr := BitVec.ofNat 48 a
    if s.wordBusy a then none
    else
      let s := s.setXfer e { x with word := none }
      if bytes.length = 64 then
        some (s.bsSend [⟨.flyWrite x.uid, true, adr, BitVec.ofNat 512 (numOf ((List.range 64).map fun i => NMap.get 0 bytes i))⟩])
      else some (s.bsSend [⟨.flyMerge x.uid bytes, false, adr, 0⟩])

/-- Bytes for a backstage address join the word being put together. -/
def State.putBackstage (s : State) (e uid a : Nat) (l : List Byte) : Option State := match (s.flyEng e).find uid with
  | none => none
  | some x =>
    let base := a / 64 * 64
    let join (x : Xfer) (old : List (Nat × Byte)) : Xfer :=
      { x with word := some (base, l.zipIdx.foldl (fun m (b, i) => NMap.put m (a - base + i) b) old) }
    match x.word with
    | some (w, bytes) =>
      if w = base then some (s.setXfer e (join x bytes))
      else (s.flushWord e x).map fun s => s.updXfer e uid (join · [])
    | none => some (s.setXfer e (join x []))

/-- Counters of a group (R208, R226). -/
def State.flyCounts (s : State) (e : Nat) (df : Fmt) (sat nanInt poison oob bytes : Nat) : State :=
  let s := (s.count (R.flySat e) sat).count (R.flyPoison e) poison
  let s := if df.isInt ∨ df = .i4 then s.count (R.flyNanInt e) nanInt else s
  (s.count (R.flyOob e) oob).count64 (R.flyBytesLo e) (R.flyBytesHi e) bytes

/-- The elements that a stream destination or a region takes: codes, block scale, poison positions. -/
structure OutGroup where
  codes : List Nat
  scale : Nat
  sat   : Nat
  deriving Repr

/-- Conversion of a group to the destination format. -/
def State.convertGroup (s : State) (f : Flight) (x : Xfer) (t : Int) (els : List SrcEl) (doffs : List (Option Int))
    (old : List Nat) : OutGroup :=
  let c := f.q.cue
  let df := fmtD x.dfmt
  let sf (y : SrcEl) : Fmt := y.fmt (fmtD x.sfmt) (c.fSrcKind == 8)
  let rs := (List.range els.length).map fun i => s.flyRnd f (x.n + i) ((listGet none doffs i).getD 0)
  if kFar c.fSrcKind ∨ kFar c.fDstKind then ⟨(movedCodes df els).1, (movedCodes df els).2, 0⟩
  else if df.isBlock then
    let vs := els.map fun y => if y.masked then Num.zero else y.val (sf y) x.st
    let b := convertBlock df t c.fBlock (s.regF R.trkCtrl 8 5) rs vs
    ⟨(b.2.1.zip (els.zip (List.range els.length))).map fun (k, y, i) =>
      if y.masked ∧ b.1 ≠ 0xFF then listGet 0 old i else k, b.1, b.2.2⟩
  else
    let l := (els.zip rs).map fun (y, r) => if y.masked then (0, false) else convertEl df t r (sf y) x.st y
    ⟨l.map (·.1), 0, (l.filter (·.2)).length⟩

/-- Poison positions of a group, from position `at_` on. -/
def poisonAt (at_ : Nat) (els : List SrcEl) : List Nat := (els.zipIdx.filter fun y => y.1.poison).map fun y => at_ + y.2

/-- A FEED row is complete (R201). -/
def State.pushRow (s : State) (c : Cue) (x : Xfer) : Xfer × State :=
  if x.codes.length < listGet 1 x.ext 0 then (x, s)
  else
    let a := s.feedId c
    ({ x with codes := [], scales := [], poison := [] },
     s.setFeed a (s.feed a ++ [⟨x.dfmt, x.dt, x.db, x.codes, x.scales, x.poison⟩]))

/-- A group goes to a stream destination. -/
def State.putStream (s : State) (e : Nat) (c : Cue) (uid : Nat) (els : List SrcEl) (o : OutGroup) : State :=
  match (s.flyEng e).find uid with
  | none => s
  | some x =>
  let df := fmtD x.dfmt
  let x := { x with sent := x.sent + destBytes df els.length }
  match c.fDstKind with
  | 6 =>
    let new := (els.zip o.codes).map fun (y, k) => (⟨x.dfmt, x.dt, k, y.poison⟩ : PElem)
    (s.updUnit (c.fDstId % 8) fun u => u.setElems (c.fDstId / 8 % 4) (u.elems (c.fDstId / 8 % 4) ++ new)).setXfer e x
  | k =>
    let x := { x with codes := x.codes ++ o.codes, scales := if df.isBlock then x.scales ++ [o.scale] else x.scales
                      poison := x.poison ++ poisonAt x.codes.length els }
    if k = 4 then
      let r := s.pushRow c x
      r.2.setXfer e r.1
    else s.setXfer e x

/-- A group goes to a handle (R204, R207, R211, R214, R215). A pass opens with the first element that is written (R37,
R224). -/
def State.putHandleGroup (s : State) (e : Nat) (f : Flight) (x : Xfer) (els : List SrcEl) (doffs : List (Option Int)) :
    State :=
  let c := f.q.cue
  let df := fmtD x.dfmt
  let far := kFar c.fSrcKind
  let open_ (s : State) : State := if far then s else s.handlePassOpen c.fDstId
  let nanOf (y : SrcEl) : Bool := (y.val (y.fmt (fmtD x.sfmt) (c.fSrcKind == 8)) x.st).isNan
  if df.isBlock then
    match doffs.head? with
    | some (some o) => if els.all (·.masked) then s else
      let s := open_ s
      let o := o.toNat
      let cur := s.readHandle (16 + e) c.fDstId (elemByte df o) 16
      let g := s.convertGroup f x (s.handleT c.fDstId) els doffs (blockCodes cur.1.1)
      let bytes := (List.range 16).map fun i =>
        BitVec.ofNat 8 (listGet 0 g.codes (2 * i) + 16 * listGet 0 g.codes (2 * i + 1))
      let s := (s.writeHandle f.q.uid (16 + e) c.fDstId (elemByte df o) bytes).writeHandle f.q.uid (16 + e) c.fDstId
          (scaleByte (s.handle c.fDstId).elems o) [BitVec.ofNat 8 g.scale]
      let s := if far then s else (els.zip g.codes).foldl (fun s (y, k) =>
        if y.masked then s else s.handlePassNote c.fDstId (if nanOf y then .nan else decodeBlockElem df g.scale k)) s
      s.flyCounts e df g.sat (els.filter fun y => !y.masked && nanOf y).length 0 0 17
    | _ => s
  else
    (els.zip doffs).zipIdx.foldl (fun s ((y, o), i) => match o with
      | none => s
      | some o =>
        if y.masked then s
        else
          let s := open_ s
          let t := s.handleT c.fDstId
          let r := s.flyRnd f (x.n + i) o
          let sf := y.fmt (fmtD x.sfmt) (c.fSrcKind == 8)
          let cur := if c.fAcc then s.readMerged e x.uid 3 c.fDstId (elemByte df o.toNat) (df.bits / 8) else (([], false), s)
          let v := if far then (listGet 0 (movedCodes df [y]).1 0, false)
            else if c.fAcc then accumulate1 df t r (numOf cur.1.1) cur.1.2 sf x.st y
            else convertEl df t r sf x.st y
          let nan := if far then false else if df.isInt then nanOf y else (decodeElem df v.1).isNan
          (cur.2.putHandle e f x df t o.toNat v.1 nan far).flyCounts e df (if v.2 then 1 else 0) (if nanOf y then 1 else 0) 0 0
            (df.bits / 8)) s

/-- A group goes to a region, a remote core or the backstage memory. -/
def State.putOther (s : State) (e : Nat) (f : Flight) (x : Xfer) (els : List SrcEl) (doffs : List (Option Int)) : Option State :=
  let c := f.q.cue
  let df := fmtD x.dfmt
  match c.fDstKind with
  | 7 =>
    let sf (y : SrcEl) := y.fmt (fmtD x.sfmt) (c.fSrcKind == 8)
    some ((els.zip doffs).zipIdx.foldl (fun s ((y, o), i) => match o with
      | none => s
      | some o =>
        if y.masked then s
        else
          let r := s.flyRnd f (x.n + i) o
          let u := s.unit (c.fDstId % 8)
          let v := if kFar c.fSrcKind then (listGet 0 (movedCodes df [y]).1 0, false)
            else if c.fAcc then accumulate1 df 0 r (u.num (elemByte df o.toNat) (df.bits / 8))
              (u.bad (elemByte df o.toNat) (df.bits / 8)) (sf y) x.st y
            else convertEl df 0 r (sf y) x.st y
          let s := s.updUnit (c.fDstId % 8) fun u => u.setBytes (elemByte df o.toNat) (bytesOf (df.bits / 8) v.1) y.poison
          s.flyCounts e df (if v.2 then 1 else 0) (if (y.val (sf y) x.st).isNan then 1 else 0) 0 0 (df.bits / 8)) s)
  | k =>
    let m := movedCodes df els
    let bytes : List Byte := if df.isBlock then
        (List.range 16).map fun i => BitVec.ofNat 8 (listGet 0 m.1 (2 * i) + 16 * listGet 0 m.1 (2 * i + 1))
      else bytesOf (df.bits / 8) (listGet 0 m.1 0)
    match doffs.head? with
    | some (some o) =>
      let a := farAddr c df o.toNat
      let sc := s.farScale c o.toNat
      let s := s.flyCounts e df 0 (els.filter (·.poison)).length 0 0 (bytes.length + if df.isBlock then 1 else 0)
      if k = 2 then
        let s := s.putRemote e f a bytes
        some (if df.isBlock then s.sendWrite f sc [BitVec.ofNat 8 m.2] else s)
      else match s.putBackstage e x.uid a bytes with
        | none => none
        | some s => if df.isBlock then s.putBackstage e x.uid sc [BitVec.ofNat 8 m.2] else some s
    | _ => some s

/-- The next far group of the walk is asked for: it joins the run, or the run goes out and it begins another; with `only`
it must join. Credits bound how far the reads run ahead (R199). An index is read once every earlier transfer of the engine
has written and its page is there, and a backstage word once no write to it is on its way (R196). -/
def State.askGroup (e : Nat) (f : Flight) (only : Bool) (st : State × Option FarRun) : Option (State × Option FarRun) :=
  let s := st.1
  let c := f.q.cue
  match (s.flyEng e).active with
  | none => none
  | some x =>
    let g := x.group
    let fm := fmtD x.sfmt
    if x.total ≤ x.asked ∨ x.noCredit c (x.asked + g - x.n) ∨ (c.gather ≠ 0 ∧ (s.flyEng e).drain ≠ []) then none
    else if c.gather = 1 ∧ (s.pagesReady (s.indexPages c x x.asked)).1 = false then none
    else
      let s := if c.gather = 1 then s.readIndices e c x x.asked else s
      let ix := if c.gather = 1 then s.indexOf e c x.uid x.asked else (some 0, false)
      let s := s.updXfer e x.uid fun y => { y with asked := y.asked + g }
      match ix.1 with
      | none => if only then none else some (s, st.2)
      | some k =>
        let o := sideOffset c.fSrcBase x.sstr (walkIdx x.ext x.asked) (if c.gather = 1 then some (c.fGdim, k) else none)
        let a := farAddr c fm o.toNat
        if c.fSrcKind = 3 ∧ (s.wordBusy a ∨ (fm.isBlock ∧ s.wordBusy (s.farScale c o.toNat))) then none
        else match st.2.bind fun r => r.join c.fSrcKind (groupBytes fm) g x.asked a with
        | some r => some (s.askScale f x x.asked o, some r)
        | none => if only then none
          else some ((s.askFarRun f x st.2).askScale f x x.asked o, some ⟨x.asked, a, 1⟩)

/-- Far reads ahead of the walk: `n` groups, and those that complete the last packet. -/
def State.askAhead (s : State) (e : Nat) (f : Flight) (n : Nat) : State :=
  if kFar f.q.cue.fSrcKind = false then s
  else
    let step (only : Bool) (st : State × Option FarRun) := State.askGroup e f only st
    let st := iterWhile 512 (step true) (iterWhile n (step false) (s, none))
    match (st.1.flyEng e).active with
    | some x => st.1.askFarRun f x st.2
    | none => st.1

/-- A far transfer that has issued its last read gives its slot up and writes on from behind it (R194). -/
def State.toDrain (s : State) (e : Nat) : State :=
  let g := s.flyEng e
  match g.active with
  | none => s
  | some x => match s.flight x.uid with
    | none => s
    | some f => if kFar f.q.cue.fSrcKind = true ∧ x.total ≤ x.asked then
        s.setFly e { g with active := none, drain := g.drain ++ [x] } else s

/-- The active transfer's share of the beats before any element moves: its half, its far reads, and the slot given up. -/
def State.flyAsk (s : State) (e n : Nat) : State := match (s.flyEng e).active with
  | none => s
  | some x => match s.flight x.uid with
    | none => s
    | some f => ((s.takeHalf e f.q.cue x).askAhead e f n).toDrain e

/-- Far writes of a transfer that no answer has come for. -/
def State.farWrites (s : State) (uid : Nat) : Bool :=
  let bs (r : BsReq) : Bool := match r.use with
    | .flyMerge u _ => u == uid | .flyWrite u => u == uid | _ => false
  (s.fab.rops.any fun r => r.uid == uid && r.kind == .write) || s.bs.todo.any bs || s.bs.out.any fun r => bs r.2.2

/-- An earlier transfer of the engine has far writes that have not finished (R194). -/
def State.earlierFar (s : State) (e uid : Nat) : Bool := s.flights.any fun g =>
  g.opcode == 0x40 && g.q.cue.engine == 16 + e && decide (g.q.uid < uid) && s.farWrites g.q.uid

/-- An earlier transfer of the engine has writes that have not landed (R194). -/
def State.earlierNear (s : State) (e uid : Nat) : Bool := s.mem.wq.any fun w =>
  w.engine == 16 + e && decide (w.uid < uid)

/-- Offset of a side at each element of the group at the transfer's position; none where its index is out of bounds. -/
def Xfer.offsets (x : Xfer) (c : Cue) (ix : List (Option Int)) (src : Bool) : List (Option Int) :=
  let mine := c.gather = (if src then 1 else 2)
  let base := if src then c.fSrcBase else c.fDstBase
  let str := if src then x.sstr else x.dstr
  ix.zipIdx.map fun (k, i) =>
    let idx := walkIdx x.ext (x.n + i)
    if mine then k.map fun k => sideOffset base str idx (some (c.fGdim, k)) else some (sideOffset base str idx none)

/-- Pages that the elements of a group lie on, on both sides. -/
def State.groupPages (s : State) (c : Cue) (x : Xfer) (soffs doffs : List (Option Int)) : List Nat :=
  ((soffs.filterMap id).flatMap (s.srcPages c) ++ (doffs.filterMap id).flatMap (s.dstPages c x)).eraseDups

/-- The elements of a group, written where the transfer's destination lies. -/
def State.putGroup (s : State) (e : Nat) (f : Flight) (x : Xfer) (els : List SrcEl) (doffs : List (Option Int)) :
    Option State :=
  let c := f.q.cue
  let df := fmtD x.dfmt
  if kStream c.fDstKind then
    let o := s.convertGroup f x x.dt els doffs []
    let sf (y : SrcEl) := y.fmt (fmtD x.sfmt) (c.fSrcKind == 8)
    some ((s.putStream e c x.uid els o).flyCounts e df o.sat
      (els.filter fun y => !y.masked && (y.val (sf y) x.st).isNan).length 0 0 (destBytes df els.length))
  else if c.fDstKind = 1 then some (s.putHandleGroup e f x els doffs)
  else s.putOther e f x els doffs

/-- E of the latest raw word of a group (R206). -/
def State.noteE (s : State) (e : Nat) (c : Cue) (els : List SrcEl) : State :=
  match (els.filter fun y => y.kind == 2 && !y.masked && c.fSrcKind == 8).getLast? with
  | some y => s.setF (R.flyLastE e) 0 16 (bvI 16 y.e).toNat
  | none => s

/-- The group has been written: poison and indices out of bounds are counted, and the transfer goes to its next group. -/
def State.groupDone (s : State) (e : Nat) (c : Cue) (x : Xfer) (els : List SrcEl) (ix : List (Option Int)) : State :=
  let g := x.group
  let s := (s.flyCounts e (fmtD x.dfmt) 0 0 (els.filter (·.poison)).length (ix.filter (·.isNone)).length 0).noteE e c els
  s.updXfer e x.uid fun y =>
    { y with n := y.n + g
             inbox := NMap.del (NMap.del y.inbox (2 * x.n)) (2 * x.n + 1)
             ixs := y.ixs.filter fun k => decide (x.n + g ≤ k.1) }

/-- A group whose indices have been read: its pages are asked for, its source elements come and are written. A write that
lands where it is made waits for the writes of earlier transfers of the engine (R194). -/
def State.moveGroup (s : State) (e : Nat) (f : Flight) (x : Xfer) : Moved :=
  let c := f.q.cue
  let g := x.group
  let ixs := (List.range g).map fun i => s.indexOf e c x.uid (x.n + i)
  let soffs := x.offsets c (ixs.map (·.1)) true
  let doffs := x.offsets c (ixs.map (·.1)) false
  let pages := s.groupPages c x soffs doffs
  let rdy := s.pagesReady pages
  if rdy.1 = false then .stuck (rdy.2.updXfer e x.uid fun y => { y with stall := true, pages := pages })
  else
    let s := s.updXfer e x.uid fun y => { y with stall := false, pages := pages }
    if x.noCredit c g ∨ (c.fDstKind ≠ 1 ∧ (s.earlierNear e x.uid ∨ s.earlierFar e x.uid)) then .stuck s
    else match s.sourceGroup e f x g soffs (ixs.map (·.2)) with
      | (none, s) => .stuck s
      | (some els, s) => match s.putGroup e f x els doffs with
        | none => .stuck s
        | some s => .on (s.groupDone e c x els (ixs.map (·.1)))

/-- The next group of the transfer that moves on engine `e` (R191, R199, R212, R221). -/
def State.flyGroup (s : State) (e : Nat) : Moved := match (s.flyEng e).cur with
  | none => .stuck s
  | some x => match s.flight x.uid with
    | none => .stuck s
    | some f =>
      let c := f.q.cue
      let pages := s.indexPages c x x.n
      let rdy := s.pagesReady pages
      if rdy.1 = false then .stuck (rdy.2.updXfer e x.uid fun y => { y with stall := true, pages := pages })
      else (s.readIndices e c x x.n).moveGroup e f x

/-- The last element has been written: the transfer leaves, once the last backstage word is out. -/
def State.flyEnd (s : State) (e : Nat) : State := match (s.flyEng e).cur with
  | none => s
  | some x =>
    if x.n < x.total then s
    else match s.flight x.uid with
      | none => s
      | some f =>
        let t := if f.q.cue.fDstKind = 2 then some (s.flushRemote e f) else s.flushWord e x
        match t with
        | none => s
        | some s => match (s.flyEng e).find x.uid with
          | some x => s.releaseActive e x
          | none => s

/-- Groups of up to `n` elements. -/
def State.flyLoop : Nat → Nat → State → State
  | 0, _, s => s
  | n + 1, e, s => match (s.flyEng e).cur with
    | none => s
    | some x => if x.total ≤ x.n then s else match s.flyGroup e with
      | .stuck s => s
      | .on s => State.flyLoop n e s

/-- `FLY_MOVE` (R181, R191): the active transfer asks ahead, and the transfer at the head moves on by up to `n` groups; it
runs on when its line has halted (R198). -/
def State.flyMove (s : State) (e n : Nat) : State :=
  if s.enginesRun = false ∨ s.softBusy then s else (State.flyLoop n e (s.flyAsk e n)).flyEnd e

/-! Answers for transfers. -/

/-- The transfer `uid` past its armed slot, and its engine. -/
def State.moverOf (s : State) (uid : Nat) : Option (Nat × Xfer) :=
  match s.fly.find? (fun e => (e.2.find uid).isSome) with
  | some (e, v) => (v.find uid).map (e, ·)
  | none => none

/-- Data for a far read: its groups wait in the transfer's inbox. -/
def State.flyData (s : State) (uid pos part : Nat) (data : List Byte) (poison : Bool) : State := match s.moverOf uid with
  | none => s
  | some (e, x) =>
    let eb := if part = 1 then 1 else groupBytes (fmtD x.sfmt)
    let inbox := (List.range (data.length / eb)).foldl (fun m k =>
      NMap.put m (2 * (pos + k * x.group) + part) (numOf ((data.drop (k * eb)).take eb), poison)) x.inbox
    s.setXfer e { x with inbox := inbox }

/-- A halt that a transfer's line takes once the transfer has completed; the first one stands. -/
def State.flyFails (s : State) (uid : Nat) (code : Code) : State :=
  s.updFlight uid fun f => if f.after.isSome then f else
    { f with after := some (BitVec.ofNat 8 code.num, BitVec.ofNat 8 f.q.cue.engine) }

/-- A backstage answer for a transfer (R464). -/
def State.flyBs (s : State) (r : BsReq) (err : Bool) (data : BitVec 512) : State := match r.use with
  | .flyRead uid pos part off len =>
    let s := if err then s.logRecord (FaultRec.plain 3 unitBackstage Code.bsReadError.num r.addr.toNat 2) else s
    s.flyData uid pos part (((bytesOf 64 data.toNat).drop off).take len) err
  | .flyMerge uid bytes =>
    if err then (s.flyFails uid .remoteTimeout).flySettle uid
    else
      let l := (bytesOf 64 data.toNat).zipIdx.map fun (b, i) =>
        if bytes.any (·.1 == i) then NMap.get 0 bytes i else b
      s.bsSend [⟨.flyWrite uid, true, r.addr, BitVec.ofNat 512 (numOf l)⟩]
  | .flyWrite uid =>
    let s := if err then (s.flyFails uid .remoteTimeout).logRecord
        (FaultRec.plain 1 unitBackstage Code.bsWriteError.num r.addr.toNat 2) else s
    s.flySettle uid
  | _ => s

/-- `BACKSTAGE_RESPONSE` and `BACKSTAGE_TIMEOUT` (R464): a response whose tag no request holds is discarded. -/
def State.bsAnswer (s : State) (ch tag : Nat) (err : Bool) (data : BitVec 512) : State :=
  match s.bs.out.find? (fun r => r.1 == ch && r.2.1 == tag) with
  | none => s
  | some (_, _, r) =>
    let s := { s with bs := { s.bs with out := s.bs.out.filter fun q => !(q.1 == ch && q.2.1 == tag) } }
    let s := match r.use with
      | .pageIn d w => s.pageInWord d w err data
      | .writeBack d _ => s.writeBackWord d err
      | _ => s.flyBs r err data
    s.pumpBs

end Sys2Proof.Machine
end

