-- ==== Sys2Proof/Machine/Regs.lean ====
section
/-! DEFINITION. Reading a register (R52 R97 R148 R179 R226 R270 R326 R358 R416 R450 R491 R512 R531 R542): words that
other state composes, the register file, latched halves (R534), snapshots and the repertoire store (R311). -/

namespace Sys2Proof.Machine

/-! Field words. -/

/-- A value placed at bit `lo`, `w` bits wide. -/
def fld (lo w v : Nat) : Word := BitVec.ofNat 32 ((v % 2 ^ w) <<< lo)

def bfld (lo : Nat) (b : Bool) : Word := fld lo 1 (if b then 1 else 0)

/-- Word `i` of a wide value. -/
def wordOf {n : Nat} (x : BitVec n) (i : Nat) : Word := BitVec.ofNat 32 (x.toNat >>> (32 * i))

/-- Cues that wait in a queue and have not started. -/
def State.qdepth (s : State) (e : Nat) : Nat :=
  (s.queue e).length

/-! Lines (R288, R326). -/

/-- RETIRE (R281): counted back from TAIL, the farthest of HEAD, the open `LOOP_BEGIN`s of the line and of its split
fetchers, and the pointers of the fetchers bound to the line; a fetcher binds its line while it is enabled or holds a loop
open, and a position ahead of TAIL counts as a negative distance (DEDUCED, log entry 14). -/
def State.retirePos (s : State) (l : Line) : BitVec 32 :=
  let ln := s.line l
  let ringLoops := match ln.routine with | some r => r.saved | none => ln.loops
  let ptrs := ((List.range 0x21).map (· + 1)).map fun e =>
    let held := (s.fetcher e).loops
    if s.regF (R.lineSplitCtl e) 1 2 = l.idx ∧ (s.regB (R.lineSplitCtl e) 0 ∨ held ≠ []) then
      s.reg (R.lineSplitPtr e) :: held.map (·.beginPos) else []
  (ringLoops.map (·.beginPos) ++ ptrs.flatten).foldl (fun a p => if (ln.tail - a).toInt < (ln.tail - p).toInt then p else a) ln.head

/-- LINE_STATUS.STATE and STALL. -/
def State.lineState (s : State) (l : Line) : Nat × Nat :=
  let ln := s.line l
  if ln.resetting then (6, 0)
  else if ln.enabled = false then (0, 0)
  else if ln.halted then (5, 0)
  else match s.turnOf l with
  | .waits _ => (3, 0)
  | .stalls n _ => (4, n)
  | .fail _ _ _ => (2, 0)
  | .go _ => (2, 0)
  | .skip => (2, 0)
  | .idle => if ln.loops ≠ [] ∨ ln.skipEnd.isSome then (4, 5) else (1, 0)

def State.lineStatusWord (s : State) (l : Line) : Word :=
  let ln := s.line l
  let st := s.lineState l
  fld 0 3 st.1 ||| fld 3 4 st.2 ||| fld 7 3 ln.loops.length ||| bfld 10 ln.routine.isSome ||| bfld 11 ln.more
    ||| (s.reg (R.lineStatus l.idx) &&& 0x7000#32)

/-- The LINE_COUNT layout (R316). -/
def countHi (num : BitVec 48) (epoch : BitVec 16) : Word := at32 0 (num.toNat / 2 ^ 32) ||| at32 16 epoch.toNat

/-- One word of line block `i`. -/
def State.lineWord (s : State) (i o : Nat) : Word :=
  let l := Line.ofIdx i
  let ln := s.line l
  let lv (k : Nat) (f : LoopLevel → Word) : Word := match ln.loops[k]? with | some v => f v | none => 0
  if o = 0 then s.lineStatusWord l
  else if o = 0x10 then ln.head
  else if o = 0x14 then ln.tail
  else if o = 0x18 then s.retirePos l
  else if o = 0x1C then ln.count.setWidth 32
  else if o = 0x20 then countHi ln.count ln.epoch
  else if 0xC0 ≤ o ∧ o < 0xD0 then lv ((o - 0xC0) / 4) (·.idx)
  else if 0xD0 ≤ o ∧ o < 0xE0 then lv ((o - 0xD0) / 4) (·.count)
  else s.reg (0x04000 + 0x200 * i + o)

/-- One word of split fetcher block `e` (R313). -/
def State.splitWord (s : State) (e o : Nat) : Word :=
  let f := s.fetcher e
  if e = 0 ∨ 0x21 < e then 0
  else if o = 0 then (s.reg (R.lineSplitCtl e) &&& 7#32) ||| fld 3 3 f.loops.length
  else if o = 0x0C then f.count.setWidth 32
  else if o = 0x10 then countHi f.count f.epoch
  else s.reg (0x05000 + 0x20 * e + o)

/-! Callboard (R358). -/

def State.callWord (s : State) (off : Nat) : Word :=
  if off < 0x06140 then (s.cnt ((off - 0x06000) / 4)).setWidth 32
  else if 0x06400 ≤ off ∧ off < 0x06500 ∧ off % 16 = 4 then
    let t := s.tree ((off - 0x06400) / 16)
    fld 0 8 t.seq.toNat ||| bfld 8 t.pending ||| bfld 9 t.cue.isSome ||| bfld 10 t.loc ||| bfld 11 t.sent
      ||| fld 12 5 t.kids.length ||| fld 17 5 t.early.length
  else s.reg off

/-! Trackers (R52, R387). -/

/-- The bucket that tracker `i` serves on this core. -/
def State.trackerBucket (s : State) (i : Nat) : Option (BitVec 1024) :=
  (s.exch.buckets.find? fun b => b.2.getLsbD 0 && b.2.getLsbD 1 && fieldN b.2 160 10 == i).map (·.2)

def State.trkWord (s : State) (off : Nat) : Word :=
  let i := s.regF R.trkSel 0 10
  let t := s.tracker i
  if off = R.trkState then
    let tf : Nat × Nat := match t.bound, s.trackerBucket i with
      | none, some e => (fieldN e 320 8, 7)
      | _, _ => (t.t.toNat, t.fmt.toNat)
    fld 0 8 tf.1 ||| fld 8 4 tf.2 ||| fld 12 5 t.hist.length ||| bfld 17 t.isOpen ||| bfld 18 t.bound.isSome
  else if off = R.trkInit then t.initT.setWidth 32
  else if off = R.trkPass then t.passes
  else if off = R.trkRunmax then t.runmax
  else if off = R.trkBind then fld 0 16 (t.bound.getD 0)
  else if 0x08040 ≤ off ∧ off < 0x08080 then (t.hist[(off - 0x08040) / 4]?).getD 0
  else s.reg off

/-! Fly engines (R209, R226). -/

/-- Access class of one side: 0 contiguous, 1 swapped, 2 scattered (R209). -/
def sideClass (k : Nat) (str : List Int) : Nat :=
  if kStream k ∨ k = 8 ∨ k = 0 then 0
  else if listGet 0 str 0 = 0 ∨ (listGet 0 str 0).natAbs = 1 then 0
  else if (listGet 0 str 1).natAbs = 1 then 1 else 2

/-- CLASS of a transfer (R209, R210, R216). -/
def State.xferClass (s : State) (c : Cue) (x : Xfer) : Nat :=
  let a := sideClass c.fSrcKind x.sstr
  let b := sideClass c.fDstKind x.dstr
  let bytes := max 1 ((fmtD (if a = 1 then x.sfmt else x.dfmt)).bits / 8)
  let e0 := max 1 (listGet 1 x.ext 0)
  let j := min (listGet 1 x.ext 1) (131072 / (e0 * bytes))
  let base := if x.ordered ∨ (c.fGather ≠ 0 ∧ c.fGdim = 0) then 2
    else if a = 0 ∧ b = 0 then 0
    else if a + b = 1 ∧ 64 ≤ j * bytes then 1 else 2
  if c.fDstKind = 1 ∧ (s.handle c.fDstId).mrole = 1 then min 2 (base + 1) else base

/-- A transfer waits for credits (R199): for those its next far read needs, or its next group. -/
def Xfer.waitsCredit (x : Xfer) (c : Cue) : Bool :=
  if kFar c.fSrcKind then decide (x.asked < x.total) && x.noCredit c (x.asked + x.group - x.n)
  else decide (x.n < x.total) && x.noCredit c x.group

/-- 4 KiB credits a transfer holds. -/
def Xfer.held (x : Xfer) : Nat := x.granted - (x.sent + 4095) / 4096

def State.flyWord (s : State) (e o : Nat) : Word :=
  let g := s.flyEng e
  let tag (x : Option Xfer) : Word := match x with
    | some x => (match s.flight x.uid with | some f => f.q.cue.tag | none => 0)
    | none => 0
  if s.build.flies ≤ e then 0
  else if o = 0 then
    let act : Word := match g.active with
      | none => 0
      | some x => match s.flight x.uid with
        | none => 0
        | some f =>
          let c := f.q.cue
          let ws : Bool := c.fSrcKind == 8 && g.drain.isEmpty && decide (x.n < x.total) &&
            decide ((NMap.get [] s.lanes (laneKey (16 + e) (c.fSrcId / 8 % 2) (c.fSrcId % 8))).length < x.group)
          bfld 7 (x.waitsCredit c) ||| bfld 9 ws ||| bfld 11 x.ordered ||| fld 12 2 (s.xferClass c x)
            ||| fld 14 2 f.q.line.idx
    let wd : Bool := match g.active, g.armed with
      | none, some x => (match s.flight x.uid with | some f => s.destBusy f | none => false)
      | _, _ => false
    bfld 0 g.active.isSome ||| bfld 1 g.armed.isSome ||| fld 2 5 (s.qdepth (16 + e)) ||| bfld 8 wd ||| bfld 10 (g.moving.any (·.stall)) ||| act
  else if o = 0x04 then tag g.active
  else if o = 0x08 then tag g.armed
  else if o = 0x0C then (match g.active with | some x => BitVec.ofNat 32 (x.total - x.n) | none => 0)
  else if o = 0x10 then (match g.active with | some x => BitVec.ofNat 32 ((x.total - x.n) / 2 ^ 32) | none => 0)
  else if o = 0x14 then fld 0 16 (g.moving.map Xfer.held).sum
  else s.reg (0x10000 + 0x800 * e + o)

/-! Property table (R240, R241, R270). -/

def PageState.code : PageState → Nat | .free => 0 | .owned => 1 | .backstage => 2 | .locked => 3 | .retired => 4

/-- A descriptor as its four words (R241). -/
def Page.words (p : Page) : List Word :=
  [ fld 0 3 p.state.code ||| bfld 3 p.dirty ||| bfld 4 p.touched ||| bfld 5 p.fresh ||| bfld 6 p.retPend
      ||| bfld 7 p.poisoned ||| bfld 8 p.moving ||| fld 16 16 p.handle,
    fld 0 16 p.frame ||| fld 16 16 p.page, BitVec.ofNat 32 p.bsPage, 0 ]

/-- A handle entry as its eight words (R240). -/
def Handle.words (h : Handle) : List Word :=
  [ bfld 0 h.owned ||| bfld 1 h.home ||| bfld 2 h.fixed ||| bfld 3 h.locked ||| fld 4 4 h.fmt ||| fld 8 8 h.staticT.toNat
      ||| fld 16 10 h.trk ||| bfld 26 h.trkEn ||| fld 27 2 h.mrole ||| bfld 29 h.placed,
    fld 0 16 h.first, fld 0 17 h.pages, BitVec.ofNat 32 h.elems,
    fld 0 8 (h.elems / 2 ^ 32) ||| fld 16 16 h.partner, BitVec.ofNat 32 h.mrows, BitVec.ofNat 32 h.mcols,
    BitVec.ofNat 32 h.bsPage ]

def State.propWord (s : State) (off : Nat) : Word :=
  let p := s.prop
  if off = R.propStatus then
    bfld 0 p.busy ||| fld 1 4 p.ins.length ||| bfld 5 p.starve ||| bfld 6 (!p.moves.isEmpty) ||| fld 7 5 (s.qdepth 0x21)
      ||| fld 12 13 p.hints.length
  else if off = R.propFrames then fld 0 17 s.build.frames
  else if off = R.propFreeFrames then fld 0 17 s.freeFrames
  else if off = R.propFreeDesc then fld 0 17 (65536 - p.pages.countP fun d => d.2.state != .free)
  else if off = R.propRetired then fld 0 17 (p.pages.countP fun d => d.2.state == .retired)
  else s.reg off

/-! Array complex and chorus (R97, R148, R179). -/

def State.arrWord (s : State) (off : Nat) : Word :=
  let a := s.arr
  let ready (h : Nat) : Bool := match s.half h with | .ready _ => true | _ => false
  if off = R.arrMode then fld 0 2 a.mode
  else if off = R.arrPartition then bfld 0 a.split ||| fld 4 2 a.lineA ||| fld 6 2 a.lineB
  else if off = R.arrStatus then
    bfld 0 (!a.inFlight.isEmpty) ||| bfld 1 (a.split && a.inFlight.any (·.side == 0))
      ||| bfld 2 (a.split && a.inFlight.any (·.side == 1)) ||| bfld 3 s.cfgPending ||| bfld 4 (s.regB R.pwrStatus 7)
      ||| bfld 5 (s.regB R.pwrStatus 8)
      ||| bfld 6 (if a.split then ready 0 || ready 1 else ready 0) ||| bfld 7 (if a.split then ready 2 || ready 3 else ready 1)
  else if off = R.arrHold then orAll (a.holds.map fun h => flag32 h.1 true)
  else s.reg off

def State.choWord (s : State) (off : Nat) : Word :=
  let slot := s.program (s.regF R.choProgSel 0 3) (s.regF R.choProgSel 8 6)
  let w : BitVec 64 := listGet 0 slot (s.regF R.choProgSel 16 5)
  if off = R.choUnits then fld 0 4 s.build.units ||| fld 8 8 3
  else if off = R.choTqStatus then
    fld 0 7 (s.freeSlots 0).length ||| fld 8 7 (if s.arr.split then (s.freeSlots 1).length else 0)
      ||| fld 16 16 (match s.arr.tq with | t :: _ => t.2.tag | [] => 0)
  else if off = R.choProgLo then wordOf w 0
  else if off = R.choProgHi then wordOf w 1
  else if off = R.choProgLen then fld 0 6 slot.length ||| bfld 8 (!slot.isEmpty)
  else s.reg off

/-- The cue a unit runs. -/
def State.unitCue (s : State) (u : Nat) : Option Flight := ((s.unit u).run).bind fun r => s.flight r.uid

/-- The reduction, scan or kernel cue a unit works on: a kernel, or the claimant of its run (R151, R179). -/
def State.redCue (s : State) (u : Nat) : Option Flight := (s.unitCue u).bind fun f =>
  if 0x30 ≤ f.opcode then some f else (s.startedClaimant f.q.uid).bind s.flight

/-- What a unit waits for: tile rows, elements of a FIFO port, a carry (R148, R177). -/
def State.unitWaits (s : State) (u : Nat) : Bool × Bool × Bool := match (s.unit u).run, s.unitCue u with
  | some r, some f =>
    let tq : Bool := f.q.cue.usesTiles && (s.tileRow r).isNone && !s.tilesDone u f r
    let row : Bool := (s.rowIn u f r).isNone && !s.rowsDone u f r
    let carry : Bool := match s.redCue u with
      | some g => g.opcode == 0x32 && !s.rowsDone u f r && (match s.carryIn u r.j r g.q.cue with | .waits => true | _ => false)
      | none => false
    (tq, !tq && row, !tq && carry)
  | _, _ => (false, false, false)

/-- TRIP reads 0: a row runs through all its trips in one command (log entry 35). -/
def State.choUnitWord (s : State) (u o : Nat) : Word :=
  if s.build.units ≤ u then 0
  else
    let x := s.unit u
    if o = 0 then
      let waits := s.unitWaits u
      let prog := match s.unitCue u with
        | some f => if f.opcode = 0x20 then f.q.cue.crProg else 0
        | none => 0
      bfld 0 x.run.isSome ||| fld 1 5 (s.qdepth (8 + u)) ||| fld 8 6 prog ||| bfld 14 waits.1 ||| bfld 15 (waits.2.1 || waits.2.2)
    else if 0x20 ≤ o ∧ o < 0x30 then
      let p := x.port ((o - 0x20) / 4)
      fld 0 9 p.1 ||| fld 16 9 p.2
    else if o = 0x30 then
      orAll ((List.range 4).map fun i => fld (8 * i) 8 ((portBytes (x.elems i) + 4095) / 4096))
    else s.reg (0x31000 + 0x100 * u + o)

/-- PASS reads 0: a row runs through all the passes of its kernel in one command (log entry 35). -/
def State.choRuWord (s : State) (u o : Nat) : Word :=
  if s.build.units ≤ u then 0
  else if o = 0 then
    let op := match s.redCue u with | some f => f.opcode | none => 0
    let claim : Bool := match (s.queue (8 + u)).filterMap s.flight with
      | f :: rest => feedsRed f.q.cue && f.stage == .queued && !(rest.any fun g => isRed g.opcode)
      | [] => false
    bfld 0 (decide (0x30 ≤ op)) ||| bfld 1 claim ||| fld 2 2 (s.unit u).store.length ||| fld 4 4 op
  else s.reg (0x39000 + 0x100 * u + o)

/-! Exchange (R416). -/

/-- GEN of an entry and how far a cue's GEN is ahead of it (R389). -/
def genAhead (gen entry : BitVec 16) : Nat := (gen - entry).toNat

def State.bucket (s : State) (b : Nat) : BitVec 1024 := NMap.get 0 s.exch.buckets b

def State.exchWord (s : State) (off : Nat) : Word :=
  let x := s.exch
  if off = R.exchStatus then
    let waitGen : Bool := match x.run, s.head 0x20 with
      | none, some f => f.opcode == 0x51 && (let d := genAhead f.q.cue.xGen (BitVec.ofNat 16 (fieldN (s.bucket f.q.cue.xBucket) 336 16))
                                             decide (1 ≤ d ∧ d ≤ 0x7FFF))
      | _, _ => false
    let waitWin : Bool := decide (16384 ≤ x.ops.length) && (x.run.isSome || !x.serves.isEmpty)
    bfld 0 x.run.isSome ||| fld 1 5 (s.qdepth 0x20) ||| bfld 6 waitGen
      ||| bfld 7 (match x.run with | some r => r.repair | none => false) ||| bfld 8 waitWin ||| bfld 9 (!x.serves.isEmpty)
      ||| fld 10 15 x.ops.length
  else s.reg off

/-! Fabric (R450). -/

def PortState.code : PortState → Nat
  | .disabled => 0 | .training => 1 | .up => 2 | .down => 3 | .dupId => 4 | .peerMismatch => 5 | .resetting => 6 | .peerHeld => 7

def ChanState.code : ChanState → Nat | .live => 0 | .retraining => 1 | .retired => 2 | .idle => 3

def State.portWord (s : State) (p o : Nat) : Word :=
  if s.build.ports ≤ p then 0
  else if o = 4 then
    let x := s.port p
    fld 0 3 x.state.code ||| orAll ((List.range 4).map fun c =>
        bfld (4 + c) (x.state != .disabled && (s.chan p c).state == .live)) ||| fld 16 12 x.peer.toNat
  else if 0x20 ≤ o ∧ o < 0x60 ∧ o % 16 = 0 then
    let c := (o - 0x20) / 16
    let st := if (s.port p).state = .disabled then 3 else (s.chan p c).state.code
    fld 0 2 st ||| orAll ((List.range 4).map fun k => bfld (4 + k) ((s.port p).state != .disabled && s.carrier p k == some c))
      ||| fld 8 5 (s.chan p c).win.length
  else s.reg (0x51000 + 0x100 * p + o)

def State.fabWord (s : State) (off : Nat) : Word :=
  if off = R.fabLinksUp then orAll ((List.range s.build.ports).map fun p => bfld p (s.portUp p))
  else if off = R.fabRoute then (s.route (BitVec.ofNat 12 (s.regF R.fabRouteSel 0 12))).setWidth 32
  else s.reg off

/-! CTL_, SES_ (R491, R537, R538, R540, R542). -/

def State.ctlWord (s : State) (off : Nat) : Word :=
  let b := s.build
  if off = R.ctlIdent then fld 0 8 3 ||| fld 8 4 b.configCode ||| fld 12 8 0x0B ||| fld 20 12 0x5B1
  else if off = R.ctlFeat0 then
    fld 0 2 b.tiers ||| bfld 2 b.distCmp ||| bfld 3 b.scan ||| bfld 4 b.mirror ||| fld 5 2 b.repSize
  else if off = R.ctlFeat1 then
    fld 0 4 b.units ||| fld 4 5 b.flies ||| fld 9 5 b.ports ||| fld 14 6 b.mcs ||| fld 20 7 (b.frames / 1024)
  else if off = R.ctlStatus then
    (s.reg R.ctlStatus &&& 3#32) ||| bfld 2 s.fatal ||| bfld 3 (s.regB R.pbkStatus 2) ||| bfld 4 s.session ||| bfld 5 s.frozen
      ||| fld 6 3 s.pstate
  else if off = R.ctlTickLo then wordOf s.tick 0
  else if off = R.ctlTickHi then wordOf s.tick 1
  else if off = R.ctlIrqPend then
    (s.reg R.ctlIrqPend &&& 0x25F#32) ||| bfld 5 (s.reg R.callWatchStatus != 0) ||| bfld 7 (s.regB R.tabStatus 1)
      ||| bfld 8 (s.regB R.fltStatus 0)
  else s.reg off

/-- Nonce words (R484): 0 before the key has been latched, while the door is locked and while no nonce is current. -/
def State.sesWord (s : State) (off : Nat) : Word :=
  if 0x01800 ≤ off ∧ off < 0x01820 then
    if s.secret.latched ∧ s.secret.nonceOk ∧ s.regB R.sesStatus 1 = false then wordOf s.secret.nonce ((off - 0x01800) / 4) else 0
  else s.reg off

/-- Offsets that the register file itself answers. -/
def State.fileWord (s : State) (off : Nat) : Word := if (regRow? off).isSome then s.reg off else 0

/-- A word of the store, 0 beyond it (R311, R533). -/
def State.storeWord (s : State) (off : Nat) : Word := if off < s.build.repBytes then s.repWord off else 0

/-- The value a register holds, without the latches and snapshots of a read. An offset that holds no register reads 0
(R533). -/
def State.liveReg (s : State) (off : Nat) : Word :=
  if 0x80000 ≤ off then (if off < 0xC0000 then s.storeWord (off - 0x80000) else 0)
  else if off = R.ctlIdent ∨ off = R.ctlFeat0 ∨ off = R.ctlFeat1 ∨ off = R.ctlTickLo ∨ off = R.ctlTickHi then s.ctlWord off
  else if 0x10000 ≤ off ∧ off < 0x18000 then
    (if (off - 0x10000) % 0x800 ≤ 0x40 then s.flyWord ((off - 0x10000) / 0x800) (off % 0x800) else 0)
  else if 0x31000 ≤ off ∧ off < 0x31800 then
    (if off % 0x100 ≤ 0x10 ∨ (0x20 ≤ off % 0x100 ∧ off % 0x100 ≤ 0x30) then s.choUnitWord ((off - 0x31000) / 0x100) (off % 0x100) else 0)
  else if 0x39000 ≤ off ∧ off < 0x39800 then
    (if off % 0x100 ≤ 8 then s.choRuWord ((off - 0x39000) / 0x100) (off % 0x100) else 0)
  else if 0x51000 ≤ off ∧ off < 0x52000 then
    (if off % 0x100 = 0 ∨ off % 0x100 = 4 ∨ (0x20 ≤ off % 0x100 ∧ off % 0x100 < 0x60) then
      s.portWord ((off - 0x51000) / 0x100) (off % 0x100) else 0)
  else if 0x04000 ≤ off ∧ off < 0x04800 then
    (let o := off % 0x200
     if o = 0x04 ∨ (0x38 ≤ o ∧ o < 0x40) ∨ (0x54 ≤ o ∧ o < 0x80) ∨ 0xE8 < o then 0 else s.lineWord ((off - 0x04000) / 0x200) o)
  else if 0x05000 ≤ off ∧ off < 0x05800 then
    (if off % 0x20 ≤ 0x10 then s.splitWord ((off - 0x05000) / 0x20) (off % 0x20) else 0)
  else if (0x06000 ≤ off ∧ off < 0x06140) ∨ (0x06400 ≤ off ∧ off < 0x06500 ∧ off % 16 = 4) then s.callWord off
  else if 0x08024 ≤ off ∧ off < 0x08080 ∧ off ≠ 0x08038 ∧ off ≠ 0x0803C then s.trkWord off
  else if off = R.propStatus ∨ off = R.propFrames ∨ off = R.propFreeFrames ∨ off = R.propFreeDesc ∨ off = R.propRetired then
    s.propWord off
  else if 0x20000 ≤ off ∧ off < 0x20010 then s.arrWord off
  else if off = R.choUnits ∨ off = R.choTqStatus ∨ off = R.choProgLo ∨ off = R.choProgHi ∨ off = R.choProgLen then s.choWord off
  else if off = R.exchStatus then s.exchWord off
  else if off = R.fabLinksUp ∨ off = R.fabRoute then s.fabWord off
  else if 0x61000 ≤ off ∧ off < 0x63000 then NMap.get 0 s.tab.image ((off - 0x61000) / 4)
  else if off = R.ctlStatus ∨ off = R.ctlIrqPend then s.ctlWord off
  else if 0x01800 ≤ off ∧ off < 0x01820 then s.sesWord off
  else s.fileWord off

/-! The read of a register. -/

/-- The LO register whose read latches the HI register `off` (R534). -/
def latchLo (off : Nat) : Option Nat :=
  if off = R.ctlTickHi ∨ off = R.arrBusyTicksHi ∨ off = R.exchSentHi ∨ off = R.exchAppliedHi then some (off - 4)
  else if 0x04000 ≤ off ∧ off < 0x04800 ∧ off % 0x200 = 0x20 then some (off - 4)
  else if 0x05020 ≤ off ∧ off < 0x05440 ∧ off % 0x20 = 0x10 then some (off - 4)
  else if 0x10000 ≤ off ∧ off < 0x18000 ∧ (off % 0x800 = 0x10 ∨ off % 0x800 = 0x20) then some (off - 4)
  else if 0x31000 ≤ off ∧ off < 0x31800 ∧ off % 0x100 = 0x0C then some (off - 4)
  else none

/-- The value a read returns: a HI register gives its latch (R534). -/
def State.readReg (s : State) (off : Nat) : Word := match latchLo off with
  | some lo => NMap.get 0 s.latches lo
  | none => s.liveReg off

/-- A LO register of a pair. -/
def isLo (off : Nat) : Bool := latchLo (off + 4) == some off

/-- Reading LO latches HI. -/
def State.latchHi (s : State) (off : Nat) : State :=
  if isLo off then { s with latches := NMap.set 0 s.latches off (s.liveReg (off + 4)) } else s

/-- A read-to-clear register (R535). -/
def isRc (off : Nat) : Bool := match regRow? off with | some r => r.rc | none => false

/-- Reading an RC register clears it. -/
def State.clearRc (s : State) (off : Nat) : State := if isRc off then s.setReg off 0 else s

/-- Reading PROP_DESC0, PROP_HND0 or EXCH_BKT0 takes the snapshot its block shows. -/
def State.snapshot (s : State) (off : Nat) : State :=
  if off = R.propDesc 0 then s.setRegs off (s.page (s.regF R.propDescSel 0 16)).words
  else if off = R.propHnd 0 then s.setRegs off (s.handle (s.regF R.propHndSel 0 14)).words
  else if off = R.exchBkt 0 then
    s.setRegs off ((List.range 32).map fun i => wordOf (s.bucket (s.regF R.exchSel 0 12)) i)
  else s

end Sys2Proof.Machine
end

