-- ==== Sys2Proof/Machine/Optimizer.lean ====
section
/-! DEFINITION. The optimizer routines of the issued repertoire image (R373 to R379): `OPT_ADAMW` and `OPT_SGDM`. The spec
gives what they compute and not their cues, so a call of one runs as one piece of work of its line, when it completes (DESIGN
CHOICE, log entry 45). -/

namespace Sys2Proof.Machine

/-- The routine and its arguments (R373, R374). -/
structure OptCall where
  adam   : Bool
  acc    : Nat
  state  : Nat
  first  : Nat
  count  : Nat
  pblk   : Nat
  poison : Nat
  n      : Nat
  deriving DecidableEq, Repr

def Cue.optCall (c : Cue) : OptCall :=
  let a (i : Nat) : Word := c.arg i
  ⟨c.routineId == 1, fieldN (a 0) 0 16, fieldN (a 0) 16 16, (a 1).toNat, (a 2).toNat, (a 3).toNat, fieldN (a 4) 0 16, (a 5).toNat⟩

/-- Planes of STATE that the routine uses (R373). -/
def OptCall.planes (o : OptCall) : Nat := if o.adam then 3 else 2

/-- Canonical index of element `p` of plane `j` (before R373). -/
def OptCall.place (o : OptCall) (j p : Nat) : Nat := j * o.n + p

/-- The parameter block (R375). -/
structure OptBlk where
  lr     : Num
  beta1  : Num
  beta2  : Num
  eps    : Num
  wd     : Num
  bc1    : Num
  bc2    : Num
  gscale : Num
  /-- FLAGS: PROPAGATE, CLEAR_ACC -/
  propagate : Bool
  clear     : Bool

/-! What an element becomes (R376). -/

def rfnma (a b c : Num) : Num := ofB32 (c.sub (a.mul b)).toB32

/-- `adamw`: master weight, first and second moment from the gradient `g0` and what they were. -/
def adamw (g0 : Num) (old : List Num) (k : OptBlk) : List Num :=
  let w := listGet .zero old 0
  let g := rmul g0 k.gscale
  let m := rfma k.beta1 (listGet .zero old 1) (rmul (rsub oneN k.beta1) g)
  let v := rfma k.beta2 (listGet .zero old 2) (rmul (rsub oneN k.beta2) (rmul g g))
  let vh := rmul v k.bc2
  let root := rmul vh (krsqrt (numMax vh (ofB32 0x00800000#32)))
  let u := rmul (rmul m k.bc1) (krcp (radd root k.eps))
  [rfnma k.lr (rfma k.wd w u) w, m, v]

/-- `sgdm`: master weight and first moment. -/
def sgdm (g0 : Num) (old : List Num) (k : OptBlk) : List Num :=
  let w := listGet .zero old 0
  let m := rfma k.beta1 (listGet .zero old 1) (rmul g0 k.gscale)
  [rfnma k.lr (rfma k.wd w m) w, m]

/-- What an element's planes become: nothing changes for a poisoned element under HOLD, and it is NaN under PROPAGATE
(R377). It rests on the element's own accumulator, state and poison bit and on the block alone (R378). -/
def OptCall.update (o : OptCall) (k : OptBlk) (g0 : Num) (old : List Num) (bad : Bool) : List Num :=
  if bad then (if k.propagate then old.map fun _ => .nan else old)
  else if o.adam then adamw g0 old k else sgdm g0 old k

/-! Checks (R379). -/

/-- The engine that the record of a failing call names is not given. -/
def optEngine : Nat := Config.optEngine.toNat % 64

/-- R379; a state handle that is not binary32, or an accumulator that is not I64, is what a fly engine gives as an unsupported
format (DESIGN CHOICE, log entry 45). -/
def State.optChecks (s : State) (o : OptCall) : List Code :=
  let hi := o.first + o.count
  if [o.acc, o.state, o.poison].any (fun h => !s.handleOk h) then [.handleInvalid]
  else
    (if (s.handle o.acc).fmt ≠ 8 ∨ (s.handle o.state).fmt ≠ 6 then [Code.formatUnsupported] else [])
    ++ (if 0 < o.count ∧ (o.n < hi ∨ (s.handle o.acc).elems < hi ∨ (s.handle o.state).elems < o.place (o.planes - 1) hi
          ∨ (s.handle o.poison).elems * (s.handle o.poison).format.bits / 8 < (hi + 7) / 8) then [.flyRange] else [])
    ++ (if o.pblk % 64 ≠ 0 ∨ s.localRangeOk o.pblk 64 = false then [.localAddr] else [])

/-- Pages of bytes `lo` to `hi - 1` of a handle. -/
def State.bytePages (s : State) (h lo hi : Nat) : List Nat :=
  if hi ≤ lo then []
  else (List.range ((hi - 1) / 65536 - lo / 65536 + 1)).map fun i => s.descOf h ((lo / 65536 + i) * 65536)

/-- Every page the call reads or writes. -/
def State.optPages (s : State) (o : OptCall) : List Nat :=
  let hi := o.first + o.count
  s.bytePages o.acc (8 * o.first) (8 * hi) ++ s.bytePages o.poison (o.first / 8) ((hi + 7) / 8)
    ++ (List.range o.planes).flatMap fun j => s.bytePages o.state (4 * o.place j o.first) (4 * o.place j hi)

/-! The work. -/

/-- The block, read once; an uncorrectable word makes every field NaN (R379), and FLAGS is then a free value (log entry 45). -/
def State.optBlock (s : State) (a : Nat) : OptBlk × State :=
  let r := s.readPlain optEngine a 64
  let k := r.2.fresh
  let flags : Nat := if r.1.2 then (Config.freeWord k.1).toNat else numOf ((r.1.1.drop 32).take 4)
  let f (i : Nat) : Num := if r.1.2 then .nan else ofB32 (BitVec.ofNat 32 (numOf ((r.1.1.drop (4 * i)).take 4)))
  (⟨f 0, f 1, f 2, f 3, f 4, f 5, f 6, f 7, flags.testBit 0, flags.testBit 1⟩, if r.1.2 then k.2 else r.2)

/-- Bytes of a handle written in place, but on a LOCKED page (R244). -/
def State.putHandleBytes (s : State) (h b : Nat) (l : List Byte) : State := match s.handleAddr h b with
  | none => s
  | some a => if (s.page (s.descOf h b)).state = .locked then s else (s.landWord a l false).touch (s.descOf h b) true

/-- A binary32 element of STATE as a number, poisoned data as NaN. -/
def State.optRead (s : State) (h i : Nat) : Num × State :=
  let r := s.readHandle optEngine h (4 * i) 4
  (if r.1.2 then .nan else ofB32 (BitVec.ofNat 32 (numOf r.1.1)), r.2)

/-- The accumulator element converted once to binary32 (R376, R405). -/
def State.optGrad (s : State) (h p : Nat) : Num × State :=
  let r := s.readHandle optEngine h (8 * p) 8
  (if r.1.2 then .nan else ofB32 (decodeElem .i64 (numOf r.1.1)).toB32, r.2)

/-- The poison bit of an element (R374); one that cannot be read counts as set (DESIGN CHOICE, log entry 45). -/
def State.optPoison (s : State) (h p : Nat) : Bool × State :=
  let r := s.readHandle optEngine h (p / 8) 1
  (r.1.2 || (numOf r.1.1).testBit (p % 8), r.2)

/-- One element (R376, R377): planes written, the accumulator cleared, and the counts of R379 and R409. -/
def State.optElem (s : State) (o : OptCall) (k : OptBlk) (p : Nat) : State :=
  let g := s.optGrad o.acc p
  let b := g.2.optPoison o.poison p
  let old := (List.range o.planes).foldl (fun (st : List Num × State) j =>
    let r := st.2.optRead o.state (o.place j p)
    (st.1 ++ [r.1], r.2)) ([], b.2)
  let new := o.update k g.1 old.1 b.1
  let s := old.2.count R.exchPoisonElems (if b.1 then 1 else 0)
  let s := if b.1 ∧ k.propagate = false then s
    else (new.zipIdx.foldl (fun s (x, j) => s.putHandleBytes o.state (4 * o.place j p) (bytesOf 4 x.toB32.toNat)) s).count
      R.choNanCount (if new.any Num.isNan then 1 else 0)
  if k.clear then s.putHandleBytes o.acc (8 * p) (List.replicate 8 0) else s

/-- The place a failing call's record names: the routine in the store (R379, R318). -/
def State.optHaltCue (s : State) (q : QCue) : HaltCue :=
  let start := match s.routineEntry q.cue.routineId with | some (a, _, _, _) => a | none => 0
  { q.haltCue with src := 1, addr := BitVec.ofNat 32 (start * 128) }

/-- A call of an optimizer routine that is about to complete: it halts its line and makes no posts, waits for its pages, or
does its work; true when it is done. -/
def State.optGo (s : State) (f : Flight) : Bool × State :=
  let o := f.q.cue.optCall
  match leastCode (s.optChecks o) with
  | some code =>
    let s := if code = .localAddr then s.count R.propLocalRefused 1 else s
    (false, (s.dropFlight f.q.uid).halt f.q.line code optEngine false (s.optHaltCue f.q))
  | none =>
    let rdy := s.pagesReady (s.optPages o).eraseDups
    if rdy.1 = false then (false, rdy.2)
    else
      let k := s.optBlock o.pblk
      (true, iter o.count (fun i s => s.optElem o k.1 (o.first + i)) k.2)

end Sys2Proof.Machine
end

