-- ==== Sys2Proof/Machine/Settle.lean ====
section
/-! DEFINITION. What follows every command at once: halts by FATAL (R525), watches (R341), frames that can retire (R261),
routines that have ended (R308) and the capture of a trigger (R513 to R521). -/

namespace Sys2Proof.Machine

/-! The capture image (R517). -/

/-- `n` registers from an offset on. -/
def State.regRun (s : State) (off n : Nat) : List Word := (List.range n).map fun i => s.liveReg (off + 4 * i)

/-- Words 0 to 27 of a line's section. -/
def State.lineSection (s : State) (l : Line) : List Word :=
  let c := s.headOf l
  s.regRun (R.lineStatus l.idx) 22 ++ (List.range 4).map c.waitWord ++ [BitVec.ofNat 32 (cueF c 0 0 32), s.reg (R.callWdogAge l.idx)]

/-- The sections behind the header: byte offset and words. -/
def State.imageSections (s : State) : List (Nat × List Word) :=
  allLines.map (fun l => (0x40 + 0x80 * l.idx, s.lineSection l))
  ++ [(0x240, s.regRun 0x06000 64 ++ s.regRun 0x06100 16 ++ s.regRun R.callSatLo 4
        ++ (List.range 16).map (fun k => s.liveReg (R.callCcStatus k))),
      (0x400, s.regRun R.arrMode 11 ++ [fld 0 5 (s.qdepth 1) ||| fld 8 5 (s.qdepth 2)]),
      (0x440, s.liveReg R.exchStatus :: s.regRun R.exchSat 12),
      (0x480, s.regRun R.propStatus 6),
      (0x4C0, [R.rstStatus, R.pwrStatus, R.pwrEst, R.pwrEstParts0, R.pwrEstParts1, R.pwrPace, R.pwrTemp].map s.liveReg)]
  ++ (List.range s.build.units).map (fun u => (0x500 + 0x40 * u, s.regRun (R.choUStatus u) 13 ++ s.regRun (R.choRuStatus u) 3))
  ++ (List.range s.build.flies).map (fun e => (0x700 + 0x80 * e, s.regRun (R.flyStatus e) 17))
  ++ (List.range s.build.ports).map (fun p => (0xF00 + 0x20 * p,
        s.liveReg (R.fabPortStatus p) :: (List.range 4).map fun c => s.liveReg (R.fabChStatus p c)))

/-- The header (R517); FROZE and SPREAD_SENT say what the capture did. -/
def State.imageHeader (s : State) (t : Trigger) (froze spread : Bool) (skew : Nat) : List Word :=
  [ fld 0 4 t.src ||| bfld 4 froze ||| bfld 5 spread ||| fld 16 16 t.id.toNat,
    fld 0 12 t.origin.toNat ||| fld 16 16 skew, wordOf s.tick 0, wordOf s.tick 1, s.reg R.tabCount, s.reg R.fltWr - 1,
    s.liveReg R.ctlIdent ]

/-- Words laid into an image, which lists no zero word. -/
def layWords (m : NMap Word) (off : Nat) (l : List Word) : NMap Word :=
  l.zipIdx.foldl (fun m (w, i) => NMap.set 0 m (off / 4 + i) w) m

/-! Captures (R515, R516, R519, R521). -/

/-- One TABLEAU flit to the peer of every port that is up, with the hop and the ring bit of that port (R437, R438). -/
def State.spreadFlits (s : State) (t : Trigger) : State :=
  iter s.build.ports (fun p s =>
    if s.portUp p then
      s.routeOut p 0 false (mkFlit 5 0 (s.port p).peer s.coreId true true (bytesOf 2 t.id.toNat ++ bytesOf 2 t.origin.toNat))
    else s) s

/-- An armed capture: SKEW is a free value of at most 64 beats. -/
def State.capture (s : State) (t : Trigger) : State :=
  let froze := s.regB R.tabCtrl 0
  let spread := s.regB R.tabCtrl 1 || t.spread
  let k := s.fresh
  let s := k.2.countMod R.tabCount 1
  let img := layWords [] 0 (s.imageHeader t froze spread ((Config.skew k.1).toNat % 65))
  let img := s.imageSections.foldl (fun m x => layWords m x.1 x.2) img
  let s := { s with tab := ⟨img⟩, pins := { s.pins with tabOut := true } }
  let s := s.setReg R.tabStatus (fld 1 1 1 ||| bfld 2 (froze || s.frozen) ||| fld 3 4 t.src ||| fld 16 16 t.id.toNat)
  if spread then s.spreadFlits t else s

/-- The triggers of one moment: the lowest source code is taken while ARMED, the others count as missed (R515). -/
def State.takeTriggers (s : State) : State := match s.trig with
  | [] => s
  | t :: rest =>
    let best := rest.foldl (fun a b => if b.src < a.src then b else a) t
    let n := s.trig.length
    let s := { s with trig := [] }
    if s.regB R.tabStatus 0 then (s.count R.tabMissed (n - 1)).capture best else s.count R.tabMissed n

/-- While FATAL is set a line that is enabled and runs halts in front of its head cue (R525). -/
def State.fatalHold (s : State) : State :=
  if s.fatal then allLines.foldl (fun s l =>
    let ln := s.line l
    if ln.enabled = false ∨ ln.resetting ∨ ln.halted then s
    else
      let s := s.haltCore l Code.coreFatal.num 0 false (s.headCue l (s.headOf l))
      s.setLine l { s.line l with atPrompter := true }) s
  else s

/-- What follows every command. -/
def State.settle (s : State) : State := (((s.routineDone.retireProgress).watches).fatalHold).takeTriggers

end Sys2Proof.Machine
end

