-- ==== Sys2Proof/Machine/Complete.lean ====
section
/-! DEFINITION. Completion of cues and their posts (R276, R293, R332 to R337, R425, R426), and writes that land. -/

namespace Sys2Proof.Machine

/-- The answer of a meaning: the state once everything that follows at once has happened. -/
def State.done (s : State) : Host.Outcome State Fault Refusal := .next s.settle

/-- An operation of this core to core `dst` on class 0 without its answer: a WRITE or an exchange request (R425). -/
def State.classZeroOpen (s : State) (dst : BitVec 12) : Bool :=
  s.fab.rops.any (fun r => r.dst == dst && r.ch == 0 && r.kind == .write)
    || s.exch.ops.any (fun o => o.dst == dst && o.ch == 0)

/-- The post of a tag waits no more. -/
def RemoteOp.leaves (tag : Nat) (q : RemoteOp) : RemoteOp := if q.tag = tag then { q with waits := none } else q

/-- Remote posts that wait by R425 leave in order, as far as they can. -/
def State.pumpPosts (s : State) : State :=
  s.fab.rops.foldl (fun s r => match r.waits with
    | none => s
    | some (k, d) =>
      if s.classZeroOpen r.dst then s
      else
        let s := { s with fab := { s.fab with rops := s.fab.rops.map (RemoteOp.leaves r.tag) } }
        s.sendPost r.dst r.tag k d) s

/-- A remote post is made: it leaves at once or waits by R425. -/
def State.remotePost (s : State) (q : QCue) (dst : BitVec 12) (k : Nat) (d : BitVec 12) : State :=
  let t := s.newTag
  let r : RemoteOp := ⟨t.1, dst, .post, 0, q, some (k, d)⟩
  ({ t.2 with fab := { t.2.fab with rops := t.2.fab.rops ++ [r] } }).pumpPosts

/-- Where a cue's remote posts go (R276): the core its body names, or the owner of its bucket; none when the bucket's entry
is not VALID. -/
def State.postTarget (s : State) (c : Cue) : Option (BitVec 12) :=
  if c.opcode = 0x40 then some c.fRemote
  else
    let e := s.bucket c.xBucket
    if c.xBucket < 4096 ∧ e.getLsbD 0 then some (field e 16 12) else none

/-- One post of a completed cue: on the own callboard, or on the partner's. An exchange cue's post to its own core is
local (R276). -/
def State.onePost (s : State) (q : QCue) (w : BitVec 32) : State :=
  let k := wordIndex w
  let d := postDelta w
  if postRemote w = false then s.post k d.toInt
  else match s.postTarget q.cue with
    | none => s
    | some t => if q.cue.opcode ≠ 0x40 ∧ t = s.coreId then s.post k d.toInt else s.remotePost q t k d

/-- The posts of a completed cue, and the halt of R276 when a remote one has no target. -/
def State.makePosts (s : State) (q : QCue) : State :=
  let lost := q.cue.posts.any postRemote && (s.postTarget q.cue).isNone
  let s := q.cue.posts.foldl (fun s w => s.onePost q w) s
  if lost then s.halt q.line .postRemote q.cue.engine false q.haltCue else s

/-- A cue whose work is done may complete: with FENCE every write of it has landed (R334). -/
def State.mayComplete (s : State) (f : Flight) : Bool :=
  f.stage == .finished && !(f.q.cue.fence && s.unlanded f.q.uid)

/-- The pass that TRK_CLOSE closes (R38). -/
def State.closePass (s : State) (c : Cue) : State :=
  if c.opcode = 0x40 ∧ c.fTrkClose ∧ c.fDstKind = 1 then s.handlePassClose c.fDstId else s

/-- A cue completes (R293): its pass closes, its posts are made, and a line that its engine halts for it halts without
them (R319, R325). -/
def State.complete (s : State) (f : Flight) : State :=
  let s := ((s.dropFlight f.q.uid).endFill f.q.uid).closePass f.q.cue
  let s := if f.silent ∨ f.after.isSome then s else s.makePosts f.q
  let s := s.progress f.q.line
  match f.after with
  | some (code, engine) =>
    if f.silent then s
    else s.haltCore f.q.line code.toNat engine.toNat false f.q.haltCue
  | none => s

/-- `CUE_COMPLETE` of the `i`-th cue in flight; an optimizer call does its work first (R373). -/
def State.cueComplete (s : State) (i : Nat) : State := match s.flights[i]? with
  | none => s
  | some f =>
    if s.enginesRun = false ∨ s.mayComplete f = false then s
    else if f.opcode = 4 ∧ f.q.cue.isOpt then
      let r := s.optGo f
      if r.1 then r.2.complete f else r.2
    else s.complete f

/-- A write that an earlier one of its engine to the same word still precedes, or on a fly engine any write of an earlier
transfer (R194). -/
def State.writeBehind (s : State) (i : Nat) (w : PendWrite) : Bool :=
  let fly : Bool := decide (16 ≤ w.engine) && decide (w.engine < 32)
  ((s.mem.wq.take i).any fun v => v.engine == w.engine && (v.addr / 64 == w.addr / 64 || (fly && v.uid != w.uid)))
    || (fly && s.earlierFar (w.engine - 16) w.uid)

/-- `WRITE_LANDS` (before R334): the `i`-th acknowledged write. -/
def State.writeLands (s : State) (i : Nat) : State := match s.mem.wq[i]? with
  | none => s
  | some w =>
    if s.writeBehind i w then s
    else ({ s with mem := { s.mem with wq := listDrop1 s.mem.wq i } }).landWord w.addr w.bytes w.poison

def execCueComplete (i : Nat) (s : State) : Host.Outcome State Fault Refusal := (s.cueComplete i).done

def execWriteLands (i : Nat) (s : State) : Host.Outcome State Fault Refusal := (s.writeLands i).done

end Sys2Proof.Machine
end

