-- ==== Sys2Proof/Machine/Rings.lean ====
section
/-! DEFINITION. The rings of the lines (R279, R280): LINE_RING, and the queued work that goes with a line. -/

namespace Sys2Proof.Machine

/-- Queued cues and armed transfers of a line leave their queues (R198, R325). -/
def State.discardQueued (s : State) (l : Line) : State :=
  let armed := (s.fly.filterMap fun e => e.2.armed.map (·.uid))
  let gone := (s.flights.filter fun f => f.q.line == l && (f.stage == .queued || armed.contains f.q.uid)).map (·.q.uid)
  gone.foldl (fun s uid => (((s.unqueue uid).dropFlight uid).dropRuns uid)) { s with
    fly := NMap.mapVals (fun _ e => match e.armed with
      | some x => if gone.contains x.uid then { e with armed := none } else e
      | none => e) s.fly }

/-- The routine calls of a line end without completing: no posts are made. -/
def State.dropCalls (s : State) (l : Line) : State :=
  { s with flights := s.flights.filter fun f => !(f.q.line == l && f.opcode == 4) }

/-- ERR of a write that fails, by the rows of R279 in order. -/
def State.ringRefused (s : State) (l : Line) (size : Nat) (en : Bool) (h : Nat) : Option Nat :=
  let ln := s.line l
  let st := (s.lineState l).1
  let cur := s.reg (R.lineRing l.idx)
  if 16384 ≤ h ∨ size < 18 ∨ 24 < size then some 3
  else if en = false ∧ (st = 2 ∨ st = 3 ∨ st = 4 ∨ st = 6) then some 3
  else if ln.enabled ∧ en ∧ ¬(size = fieldN cur 0 5 ∧ h = fieldN cur 16 16) then some 3
  else if ln.enabled = false ∧ en ∧ ln.resetting then some 3
  else if ln.enabled = false ∧ en ∧ (s.handle h).owned then some 2
  else if ln.enabled = false ∧ en then
    (let a : AllocReq := ⟨h, 4, false, true, true, none, none, 2 ^ size, 0, 0⟩
     if (s.freeRun a.pages).isNone ∨ (s.allocFrames a).isNone then some 1 else none)
  else none

/-- The ring of a line is allocated and the line is EMPTY (R279). -/
def State.openRing (s : State) (l : Line) (size h : Nat) : State :=
  let s := s.allocate ⟨h, 4, false, true, true, none, none, 2 ^ size, 0, 0⟩
  let s := s.setReg (R.lineRing l.idx) (fld 0 5 size ||| bfld 8 true ||| fld 16 16 h)
  let s := s.setReg (R.lineRingBase l.idx) (fld 16 16 (s.page (s.handle h).first).frame)
  s.updLine l fun ln => { ln with enabled := true, halted := false, more := false, head := 0, tail := 0, asmData := 0
                                  asmMask := 0, loops := [], skipEnd := none, routine := none, taken := none
                                  countSpent := false, tagSpent := false, skip := false }

/-- The ring is freed, the queued cues go, a routine is left without an end, and the line is DISABLED (R279). -/
def State.closeRing (s : State) (l : Line) : State :=
  let h := s.regF (R.lineRing l.idx) 16 16
  let s := (((s.discardQueued l).dropCalls l).freeHandle h).setReg (R.lineRingBase l.idx) 0
  let s := s.setReg (R.callWdogAge l.idx) 0
  s.updLine l fun ln => { ln with enabled := false, halted := false, more := false, loops := [], skipEnd := none
                                  routine := none, taken := none, atPrompter := false
                                  countSpent := false, tagSpent := false, skip := false }

/-- A write of LINE_RING that acts (R279). -/
def State.ringAct (s : State) (l : Line) (v : Word) : State :=
  let size := fieldN v 0 5
  let en := bit v 8
  let h := fieldN v 16 16
  let ring := R.lineRing l.idx
  match s.ringRefused l size en h with
  | some e => s.setF ring 9 2 e
  | none =>
    if (s.line l).enabled then
      if en then s.setF ring 9 2 0
      else (s.closeRing l).setReg ring (fld 0 5 size ||| fld 16 16 h)
    else if en then s.openRing l size h
    else s.setReg ring (fld 0 5 size ||| fld 16 16 h)

/-- `LINE_RING_WRITE` (R279): an allocation falls between two property cues, so a write that allocates waits while one is in
progress, and later writes of the register wait behind it (DEDUCED, log entry 14). -/
def State.ringWrite (s : State) (l : Line) (v : Word) : State :=
  let ln := s.line l
  if ln.ringAt ≠ [] ∨ (s.prop.busy ∧ bit v 8 ∧ ln.enabled = false ∧ (s.ringRefused l (fieldN v 0 5) true (fieldN v 16 16)).isNone) then
    s.setLine l { ln with ringAt := ln.ringAt ++ [v] }
  else s.ringAct l v

/-- The property cue in progress has ended: the waiting writes act, line by line. -/
def State.ringsAct (s : State) : State :=
  if s.prop.busy then s
  else allLines.foldl (fun s l =>
    let ws := (s.line l).ringAt
    if ws = [] then s else ws.foldl (fun s v => s.ringAct l v) (s.updLine l fun ln => { ln with ringAt := [] })) s

end Sys2Proof.Machine
end

