-- ==== Sys2Proof/Machine/Engines.lean ====
section
/-! DEFINITION. The commands of the array complex, the chorus, the reduction units, the fly engines, the property table and
local memory: each is one operation of its unit. -/

namespace Sys2Proof.Machine

/-- R62, R68. -/
def execArrFill (q : Fin 2) (par : List (Nat × Nat × Nat)) (s : State) (hpar : List (Nat × Nat) := []) :
    Host.Outcome State Fault Refusal :=
  ((if s.enginesRun then (s.feedParity par).holdParity hpar else s).arrFill q.val).done

/-- R93. -/
def execArrDropHold (q : Fin 2) (s : State) : Host.Outcome State Fault Refusal := (s.arrDropHold q.val).done

/-- R86. -/
def execArrConfig (q : Fin 2) (s : State) : Host.Outcome State Fault Refusal := (s.arrConfig q.val).done

/-- R65. -/
def execWeightPreload (h : Fin 2) (par : List Nat) (s : State) : Host.Outcome State Fault Refusal := (s.weightPreload h.val par).done

/-- R125. -/
def execDrainTile (q : Fin 2) (par : List (Nat × Nat)) (s : State) : Host.Outcome State Fault Refusal := (s.drainTile q.val par).done

/-- R72. -/
def execBankSleep (bank : Nat) (s : State) : Host.Outcome State Fault Refusal := (s.bankSleep bank).done

/-- R101. -/
def execChoRun (u : Fin 8) (s : State) : Host.Outcome State Fault Refusal := (s.choRun u.val).done

/-- R126. -/
def execTileClaim (u : Fin 8) (s : State) : Host.Outcome State Fault Refusal := (s.tileClaim u.val).done

/-- R142. -/
def execChoProgLoad (u : Fin 8) (s : State) : Host.Outcome State Fault Refusal := (s.choProgLoad u.val).done

/-- R143. -/
def execChoConfig (u : Fin 8) (s : State) : Host.Outcome State Fault Refusal := (s.choConfig u.val).done

/-- R144. -/
def execChoTqDrop (u : Fin 8) (s : State) : Host.Outcome State Fault Refusal := (s.choTqDrop u.val).done

/-- R153. -/
def execRedRow (u : Fin 8) (s : State) : Host.Outcome State Fault Refusal := (s.redRun u.val 0x30).done

/-- R160. -/
def execRedCol (u : Fin 8) (s : State) : Host.Outcome State Fault Refusal := (s.redRun u.val 0x31).done

/-- R162. -/
def execScan (u : Fin 8) (s : State) : Host.Outcome State Fault Refusal := (s.redRun u.val 0x32).done

/-- R168. -/
def execKrnNormFwd (u : Fin 8) (s : State) : Host.Outcome State Fault Refusal := (s.krnRun u.val 0x38).done

/-- R168. -/
def execKrnNormBwd (u : Fin 8) (s : State) : Host.Outcome State Fault Refusal := (s.krnRun u.val 0x39).done

/-- R168. -/
def execKrnSoftmaxFwd (u : Fin 8) (s : State) : Host.Outcome State Fault Refusal := (s.krnRun u.val 0x3A).done

/-- R168. -/
def execKrnSoftmaxBwd (u : Fin 8) (s : State) : Host.Outcome State Fault Refusal := (s.krnRun u.val 0x3B).done

/-- R168. -/
def execKrnGscanFwd (u : Fin 8) (s : State) : Host.Outcome State Fault Refusal := (s.krnRun u.val 0x3C).done

/-- R168. -/
def execKrnGscanBwd (u : Fin 8) (s : State) : Host.Outcome State Fault Refusal := (s.krnRun u.val 0x3D).done

/-- R181. -/
def execFlyMove (e : Fin 16) (n : Nat) (s : State) : Host.Outcome State Fault Refusal := (s.flyMove e.val n).done

/-- R193, R242. -/
def execTransferArm (e : Fin 16) (upset : Fin 3) (s : State) : Host.Outcome State Fault Refusal := ((s.tableUpset upset unitMemory e.val 0).transferArm e.val).done

/-- R194. -/
def execTransferActivate (e : Fin 16) (s : State) : Host.Outcome State Fault Refusal := (s.transferActivate e.val).done

/-- R199. -/
def execCreditReturn (e : Fin 16) (n : Nat) (s : State) : Host.Outcome State Fault Refusal := (s.creditReturn e.val n).done

/-- R242, R245. -/
def execPropAlloc (upset : Fin 3) (s : State) : Host.Outcome State Fault Refusal := ((s.tableUpset upset unitMemory 0 0).propAlloc).done

/-- R247. -/
def execPropFree (s : State) : Host.Outcome State Fault Refusal := (s.propFree).done

/-- R255. -/
def execPropPageIn (s : State) : Host.Outcome State Fault Refusal := (s.propPageIn).ringsAct.done

/-- R254. -/
def execPropPageOut (s : State) : Host.Outcome State Fault Refusal := (s.propPageOut).ringsAct.done

/-- R257. -/
def execPropMirror (s : State) : Host.Outcome State Fault Refusal := (s.propMirror).done

/-- R265. -/
def execPropLock (s : State) : Host.Outcome State Fault Refusal := (s.propLock).ringsAct.done

/-- R255. -/
def execHintedPageInStart (s : State) : Host.Outcome State Fault Refusal := (s.hintStart).done

/-- R464. -/
def execBackstageResponse (ch : Fin 4) (tag : BitVec 8) (err : Bool) (data : BitVec 512) (s : State) : Host.Outcome State Fault Refusal := (s.bsAnswer ch.val tag.toNat err data).done

/-- R464, R519. -/
def execBackstageTimeout (ch : Fin 4) (tag : BitVec 8) (s : State) : Host.Outcome State Fault Refusal := 
  (if s.frozen ∨ s.age (.backstage ch.val tag.toNat) < 2 ^ 16 then s else s.bsAnswer ch.val tag.toNat true 0).done

/-- R236, R495. -/
def execScrubRead (bank : Nat) (upset : List (Nat × Byte)) (s : State) : Host.Outcome State Fault Refusal := (s.leaveIdle.scrubRead bank upset).done

/-- R237. -/
def execScrubPeriodEnd (s : State) : Host.Outcome State Fault Refusal := (s.scrubEnd).done

/-- R235. -/
def execCorrectedWriteback (bank : Nat) (s : State) : Host.Outcome State Fault Refusal := (s.correctedBack bank).done

/-- R261. -/
def execRetirementMoveComplete (frame : Nat) (s : State) : Host.Outcome State Fault Refusal := (s.moveComplete frame).done

end Sys2Proof.Machine
end

