-- ==== Sys2Proof/Machine/HostPort.lean ====
section
/-! DEFINITION. The host port (R459 to R462, R499): which accesses are served, and intake (R281 to R285). -/

namespace Sys2Proof.Machine

/-- What the port does with an access. -/
inductive Serve where
  /-- no acknowledge: the port is not up, or holds an earlier write (R459, R462) -/
  | wait
  /-- a counted error -/
  | refuse
  | ok
  deriving DecidableEq, Repr

/-- The port acknowledges requests: power-on reset has ended and no reset holds it. -/
def State.portAcks (s : State) : Bool := match s.phase with
  | .off => false
  | .powerOnReset => false
  | .blockReset => false
  | _ => true

/-- A commit that R284 holds blocks every access behind it. -/
def State.portHeld (s : State) : Bool := allLines.any fun l => (s.line l).held.isSome

/-- CTL_STATUS.READY (R488). -/
def State.ready (s : State) : Bool := s.regB R.ctlStatus 0

/-- Who serves register offset `off` (R462, R499; RST_ and PWR_ are served in every state, R512). A read of another
register before READY is treated as R499 treats one (DESIGN CHOICE, log entry 16). -/
def State.serve (s : State) (off : Nat) : Serve :=
  if s.portAcks = false ∨ s.portHeld then .wait
  else if 2 ≤ s.pstate then (if off < 0x01000 ∨ (0x02000 ≤ off ∧ off < 0x04000) then .ok else .refuse)
  else if s.phase = .up ∧ s.ready then .ok
  else if off < 0x04000 then .ok else .refuse

/-- Every access of the host port restarts the idle count of the session (R487). -/
def State.hostTouch (s : State) : State := s.setReg R.sesIdleTicks 0

/-- A write access to register `off` with effect `f`. -/
def State.hostWrite (s : State) (off : Nat) (f : State → State) : State := match s.serve off with
  | .wait => s
  | .refuse => s.hostTouch.hostError off true
  | .ok => f s.hostTouch

/-- A read access to register `off`: the value, and the state behind it. -/
def State.hostRead (s : State) (off : Nat) (f : State → State) : State := match s.serve off with
  | .wait => s
  | .refuse => s.hostTouch.emit (.hostRsp 0 true)
  | .ok => f (s.hostTouch.emit (.hostRsp (s.readReg off) false))

/-! Intake. -/

/-- Address of a line's intake window (R460). -/
def intakeAddr (l : Line) (off : Nat) : Nat := 0x100000 + 0x10000 * l.idx + off

/-- R285, R462: the line takes no cue from the host. -/
def State.intakeDenied (s : State) (l : Line) : Bool :=
  !(s.line l).enabled || !s.ready || (l == .m && !s.session) || (l != .m && s.regB R.pbkStatus 2)

/-- One dropped cue. -/
def State.intakeDrop (s : State) (l : Line) (bitNo : Option Nat) (covers : Bool) : State :=
  let s := match bitNo with | some b => s.setB (R.lineStatus l.idx) b true | none => s
  if covers then s.count (R.lineIntakeRefused l.idx) 1 else s

/-- A commit may land (R281, R284): the ring has room and the line is not RESETTING. -/
def State.mayCommit (s : State) (l : Line) : Bool :=
  let ln := s.line l
  ln.enabled && !ln.resetting && !s.softBusy && decide ((ln.tail - s.retirePos l).toInt < (s.ringSlots l : Int))

/-- The assembled cue lands at position TAIL (R282). -/
def State.commit (s : State) (l : Line) (c : Cue) : State :=
  let ln := s.line l
  let s := s.leaveIdle.land (s.ringAddr l ln.tail) (bytesOf 128 c.toNat) false
  s.updLine l fun ln => { ln with tail := ln.tail + 1 }

/-- Bytes enabled by `be` enter the assembly buffer at byte `base`. -/
def assemble (ln : LineSt) (base : Nat) (be : BitVec 64) (data : BitVec 512) : LineSt :=
  let sel := (List.range 64).filter be.getLsbD
  { ln with
    asmData := sel.foldl (fun c i => c.setBits (8 * (base + i)) 8 (fieldN data (8 * i) 8)) ln.asmData
    asmMask := sel.foldl (fun m i => m ||| (1 <<< (base + i))) ln.asmMask }

/-- `INTAKE_WRITE` (R282 to R285). Byte lane i is byte i of the 64 bytes that hold the address (R459, R461), so a write at
any offset that enables lane 60 of the upper half covers byte 124 (DEDUCED, log entry 14). -/
def State.intakeWrite (s : State) (l : Line) (off : Nat) (be : BitVec 64) (data : BitVec 512) : State :=
  if s.portAcks = false ∨ s.portHeld then s
  else if 2 ≤ s.pstate then s.hostTouch.hostError (intakeAddr l off) true
  else
    let s := s.hostTouch
    let base := off % 128 / 64 * 64
    let covers : Bool := decide (base = 64) && be.getLsbD 60
    if s.intakeDenied l then s.intakeDrop l (some 14) covers
    else if s.regB (R.lineStatus l.idx) 12 then s.intakeDrop l none covers
    else
      let ln := assemble (s.line l) base be data
      if covers = false then s.setLine l ln
      else
        let c := ln.asmData
        let whole := ln.asmMask == BitVec.allOnes 128
        let s := s.setLine l { ln with asmData := 0, asmMask := 0 }
        if whole = false then s.intakeDrop l (some 13) true
        else if s.mayCommit l then s.commit l c
        else (s.updLine l fun ln => { ln with held := some c }).restart (.hold l)

/-- `HELD_COMMIT_LANDS` (R284). -/
def State.heldLands (s : State) (l : Line) : State := match (s.line l).held with
  | none => s
  | some c => if s.mayCommit l then (s.updLine l fun ln => { ln with held := none }).commit l c else s

/-- `INTAKE_HOLD_EXPIRY` (R284): after 2^20 ticks. -/
def State.holdExpires (s : State) (l : Line) : State := match (s.line l).held with
  | none => s
  | some _ =>
    if s.age (.hold l) < 2 ^ 20 then s
    else (s.updLine l fun ln => { ln with held := none }).intakeDrop l (some 12) true

/-- R282. -/
def execIntakeWrite (l : Line) (off : BitVec 16) (be : BitVec 64) (data : BitVec 512) (s : State) :
    Host.Outcome State Fault Refusal := (s.intakeWrite l off.toNat be data).done

/-- R284. -/
def execHeldCommitLands (l : Line) (s : State) : Host.Outcome State Fault Refusal := (s.heldLands l).done

/-- R284. -/
def execIntakeHoldExpiry (l : Line) (s : State) : Host.Outcome State Fault Refusal := (s.holdExpires l).done

/-- R461, R462, R499: an access to an offset that no window serves, of a wrong shape, or a read of an intake window. -/
def execHostMisshapedAccess (addr : BitVec 21) (write : Bool) (s : State) : Host.Outcome State Fault Refusal :=
  (if s.portAcks = false ∨ s.portHeld then s
   else
     let a := addr.toNat
     let intakeRead : Bool := !write && decide (0x100000 ≤ a) && decide (a < 0x140000)
     let s := if intakeRead then s.hostTouch else s.hostTouch.hostError a write
     if write then s else s.emit (.hostRsp 0 true)).done

end Sys2Proof.Machine
end

