-- ==== Sys2Proof/Machine/Prompter.lean ====
section
/-! DEFINITION. Turns of the Prompter and of the split fetchers (R287, R289, R313 to R315), the `TABLEAU` cue (R518) and the
curtain watchdog (R353, R354). -/

namespace Sys2Proof.Machine

/-! Turns of the Prompter. -/

/-- One turn: the chosen line dispatches its head cue, or halts in front of it. -/
def State.prompterTurn (s : State) : State :=
  if s.mayDispatch = false then s
  else
    let s := s.takeHeads
    match s.choose with
    | some (l, ptr) => s.takeTurn l ptr
    | none => s

/-- The turn whose cue is a control cue with opcode `op` of line `l`; any other turn is not this command. -/
def State.controlTurn (s : State) (l : Line) (op : Nat) : State :=
  if s.mayDispatch = false then s
  else
    let t := s.takeHeads
    match t.choose with
    | some (k, ptr) =>
      if k = l then (match t.turnOf l with
        | .go c => if c.opcode = op then t.takeTurn l ptr else s
        | _ => s)
      else s
    | none => s

/-! Split fetchers. -/

/-- Where a fetcher's head cue stands. -/
def State.fetcherCtx (s : State) (e : Nat) : Ctx :=
  let f := s.fetcher e
  ⟨Line.ofIdx (s.regF (R.lineSplitCtl e) 1 2), s.reg (R.lineSplitPtr e), f.loops, f.skipEnd, none, some e⟩

/-- A fetcher that may fetch (R313): enabled, in split mode, its line in dispatch, LIM and TAIL ahead of PTR. -/
def State.fetcherOn (s : State) (e : Nat) : Bool :=
  let ln := s.line (s.fetcherCtx e).line
  let p := s.reg (R.lineSplitPtr e)
  s.phase == .up && !s.frozen && !s.softBusy && decide (s.pstate ≤ 1) && s.regB R.lineMode 0
    && decide (1 ≤ e) && decide (e ≤ 0x21) && s.regB (R.lineSplitCtl e) 0 && ln.enabled && !ln.halted && !ln.resetting
    && s.reg (R.lineSplitLim e) != p && ln.tail != p

/-- What a fetcher's turn finds; count breaks are not evaluated (R315). A cue that has passed steps 1 to 9 is kept (R287). -/
def State.fetcherFind (s : State) (e : Nat) : Turn × State :=
  let x := s.fetcherCtx e
  let f := s.fetcher e
  match f.taken with
  | some c => (s.lateSteps x c, s)
  | none =>
    let r := s.ringCue x.line x.pos
    match r.1 with
    | .nothing => (.idle, s)
    | .bad b => (.fail b true 0, r.2)
    | .cue c => match s.breakHit x.line true true f.breakSpent f.count f.epoch c with
      | some b => (.fail b false c, r.2)
      | none => match s.checkCue x c with
        | .inl b => (.fail b false c, r.2)
        | .inr c => (s.lateSteps x c, r.2)

/-- The halt record of a cue of a split list (R315). -/
def State.fetcherCue (s : State) (e : Nat) (c : Cue) : HaltCue :=
  let x := s.fetcherCtx e
  let f := s.fetcher e
  ⟨c.opcode, 2, BitVec.ofNat 32 (s.ringAddr x.line x.pos), f.count, f.epoch, c.tag⟩

/-- A cue of a split list takes its fetcher's number and step number. -/
def State.fetcherNumber (s : State) (e : Nat) (c : Cue) : QCue × State :=
  let x := s.fetcherCtx e
  let f := s.fetcher e
  let k := s.issueScale c
  let q : QCue := ⟨4 * s.nextUid + x.line.idx, x.line, c, f.count, f.epoch, f.step, 2,
    BitVec.ofNat 32 (s.ringAddr x.line x.pos), k.1, k.2.1, k.2.2⟩
  let n := f.count + 1
  let g : Fetcher := { f with count := n, epoch := if n = 0 then f.epoch + 1 else f.epoch, taken := none, breakSpent := false }
  (q, ({ s.setFetcher e g with nextUid := s.nextUid + 1 }).progress x.line)

/-- The loop state and the next position of a fetcher. -/
def State.fetcherGoto (s : State) (e : Nat) (r : List LoopLevel × Option (BitVec 32) × BitVec 32) : State :=
  (s.setFetcher e { s.fetcher e with loops := r.1, skipEnd := r.2.1 }).setReg (R.lineSplitPtr e) r.2.2

/-- A cue of a split list that has passed steps 1 to 11. -/
def State.fetcherDispatch (s : State) (e : Nat) (c : Cue) : State :=
  let x := s.fetcherCtx e
  let q := s.fetcherNumber e c
  let s := q.2.dispatchTriggers q.1
  let next : List LoopLevel × Option (BitVec 32) × BitVec 32 := (x.loops, x.skipEnd, x.pos + 1)
  match c.opcode with
  | 2 => (s.fetcherGoto e (loopBeginAct s x c)).localPosts c
  | 3 => (s.fetcherGoto e (loopEndAct x)).localPosts c
  | 5 => ((s.fetcherGoto e next).localPosts c).setLoopAct x.line c
  | 7 =>
    let s := ((s.fetcherGoto e next).localPosts c).halt x.line .haltCue e false q.1.haltCue
    s.setFetcher e { s.fetcher e with atFetcher := false }
  | 8 =>
    let s := (s.fetcherGoto e next).localPosts c
    s.setFetcher e { s.fetcher e with step := (s.fetcher e).step + 1 }
  | 0 => (s.fetcherGoto e next).localPosts c
  | 1 => (s.fetcherGoto e next).localPosts c
  | _ => (s.fetcherGoto e next).enqueueChecked q.1 none (some e) (s.cueQueues x.line c)

/-- `FETCHER_DISPATCH`: one turn of the fetcher of engine `e`. -/
def State.fetcherTurn (s : State) (e : Nat) : State :=
  if s.fetcherOn e = false then s
  else
    let l := (s.fetcherCtx e).line
    let r := s.fetcherFind e
    match r.1 with
    | .fail b fetch c =>
      let s := r.2.leaveIdle.halt l b e fetch (s.fetcherCue e c)
      s.setFetcher e { s.fetcher e with atFetcher := true, breakSpent := (s.fetcher e).breakSpent || b == .breakTag }
    | .go c => r.2.leaveIdle.fetcherDispatch e c
    | .waits c => r.2.setFetcher e { s.fetcher e with taken := some c }
    | .stalls _ c => r.2.setFetcher e { s.fetcher e with taken := some c }
    | .idle | .skip => s

/-! The tableau queue (R518). -/

/-- The cue at the head of the tableau queue: its capture is triggered and it is done, with ARMED = 0 at once. -/
def State.tableauCue (s : State) : State := match s.startable 0x22 with
  | none => s
  | some f =>
    let c := f.q.cue
    let t : Trigger := ⟨2, c.tabId, s.coreId, c.tabSpread⟩
    let s := if s.regB R.tabCtrl 4 then { s with trig := s.trig ++ [t] } else s
    (s.unqueue f.q.uid).finishFlight f.q.uid

/-! The curtain watchdog. -/

/-- The head cue of a fetcher of the line waits or stalls. -/
def State.fetcherWaits (s : State) (l : Line) : Bool := (List.range 0x22).any fun e =>
  s.fetcherOn e && (s.fetcherCtx e).line == l && (match (s.fetcherFind e).1 with
    | .waits _ => true
    | .stalls _ _ => true
    | _ => false)

/-- A line is outstanding (R353): it, or a split list of it, waits or stalls, or a cue of it has not completed. -/
def State.outstanding (s : State) (l : Line) : Bool :=
  let st := (s.lineState l).1
  st != 5 && st != 6 && st != 0 && (st == 3 || st == 4 || s.flights.any (·.q.line == l) || s.fetcherWaits l)

/-- The watchdog of a line fires once its count has reached CALL_CUE_WDOG (R354). -/
def State.watchdog (s : State) (l : Line) : State :=
  if s.reg R.callCueWdog = 0 ∨ s.reg (R.callWdogAge l.idx) < s.reg R.callCueWdog ∨ s.frozen ∨ s.enginesRun = false
      ∨ s.outstanding l = false then s
  else
    let rec_ := s.reg R.fltWr
    let old := s.flights.find? (·.q.line == l)
    let s := match old with
      | some f => s.halt l .watchdog f.q.cue.engine false f.q.haltCue
      | none => s.halt l .watchdog 0 false (s.headCue l (s.headOf l))
    let s := s.updLine l fun ln => { ln with atPrompter := old.isNone, taken := none }
    (s.progress l).trigger 5 (rec_.setWidth 16)

/-! The commands. -/

/-- Words of the repertoire store whose code has become uncorrectable (R311). -/
def State.repUpset (s : State) (l : List Nat) : State := { s with repBad := s.repBad ++ l.filter fun w => decide (4 * w < s.build.repBytes) }

/-- Counters whose codes the callboard has found in error since the last turn (R333), whatever access met them. -/
def State.boardUpset (s : State) (l : List (Fin 80 × Fin 3)) : State :=
  l.foldl (fun s x => s.tableUpset x.2 unitCallboard x.1.val 3) s

/-- R287. -/
def execPrompterDispatch (s : State) (upset : List Nat := []) (board : List (Fin 80 × Fin 3) := []) :
    Host.Outcome State Fault Refusal :=
  (((s.repUpset upset).boardUpset board).prompterTurn).done

/-- R313. -/
def execFetcherDispatch (engine : Nat) (s : State) : Host.Outcome State Fault Refusal := (s.fetcherTurn engine).done

/-- R293. -/
def execNop (l : Line) (s : State) : Host.Outcome State Fault Refusal := (s.controlTurn l 0).done

/-- R294. -/
def execFence (l : Line) (s : State) : Host.Outcome State Fault Refusal := (s.controlTurn l 1).done

/-- R297. -/
def execLoopBegin (l : Line) (s : State) : Host.Outcome State Fault Refusal := (s.controlTurn l 2).done

/-- R300. -/
def execLoopEnd (l : Line) (s : State) : Host.Outcome State Fault Refusal := (s.controlTurn l 3).done

/-- R308. -/
def execCallRoutine (l : Line) (s : State) : Host.Outcome State Fault Refusal := (s.controlTurn l 4).done

/-- R322. -/
def execSetLoop (l : Line) (s : State) : Host.Outcome State Fault Refusal := (s.controlTurn l 5).done

/-- R295. -/
def execHalt (l : Line) (s : State) : Host.Outcome State Fault Refusal := (s.controlTurn l 7).done

/-- R35. -/
def execStepAdvance (l : Line) (s : State) : Host.Outcome State Fault Refusal := (s.controlTurn l 8).done

/-- R344. -/
def execCurtainCall (l : Line) (s : State) : Host.Outcome State Fault Refusal := (s.controlTurn l 0x70).done

/-- R518. -/
def execTableau (s : State) : Host.Outcome State Fault Refusal := (s.tableauCue).done

/-- R354. -/
def execCurtainWatchdog (l : Line) (s : State) : Host.Outcome State Fault Refusal := (s.watchdog l).done

end Sys2Proof.Machine
end

