-- ==== Sys2Proof/Machine/LineCtl.lean ====
section
/-! DEFINITION. The line controls (R312, R319, R320, R325), the repertoire window (R311) and the reset of a line. -/

namespace Sys2Proof.Machine

/-! Discarding a line's work. -/

/-- A cue in flight other than `uid` that has still to act and that `p` takes. -/
def State.supplied (s : State) (uid : Nat) (p : Cue → Bool) : Bool :=
  s.flights.any fun g => g.q.uid != uid && g.stage != .finished && p g.q.cue

/-- A cue that puts elements into port `p` of unit `u`. -/
def Cue.fillsPort (u p : Nat) (c : Cue) : Bool :=
  c.opcode == 0x40 && c.fDstKind == 6 && c.fDstId % 8 == u && c.fDstId / 8 % 4 == p

/-- A cue whose chorus work takes elements from port `p` of unit `u`, or puts elements into a transfer. -/
def Cue.inUnit (u : Nat) (c : Cue) : Bool :=
  decide (0x20 ≤ c.opcode) && decide (c.opcode < 0x40) && decide (c.firstUnit ≤ u) && decide (u < c.firstUnit + c.gang)

/-- Ports that the next row of unit `u` lacks elements of, the carry's among them. -/
def State.lackPorts (s : State) (u : Nat) (f : Flight) (r : URun) : List Nat :=
  let c := f.q.cue
  let tile := if c.usesTiles then s.tileRow r else none
  let waits (g : Gives) : Bool := match g with | .waits => true | _ => false
  let own := (c.streams.zipIdx.filter fun (d, i) => dSrc d == 2 && waits (s.streamRow u r c.packed c.cols 0 i d tile)).map
    fun x => dPort x.1
  match s.redCue u with
  | some g => if g.opcode = 0x32 ∧ waits (s.carryIn u r.j r g.q.cue) then own ++ [dPort g.q.cue.rdCarry] else own
  | none => own

/-- A run that waits for what only discarded cues or tiles would supply: tiles, or elements of a port that no cue in flight
fills (R146, R325; log entry 33). -/
def State.starved (s : State) (u : Nat) (f : Flight) (r : URun) : Bool :=
  let w := s.unitWaits u
  w.1 || (s.lackPorts u f r).any fun p => !s.supplied f.q.uid (Cue.fillsPort u p)

/-- A run stops in unit `u` with what it has written, and its claimant with it (R146, R151, R177). -/
def State.stopUnit (s : State) (u : Nat) (f : Flight) : State :=
  let k := if feedsRed f.q.cue then (s.claimantNow u f).map (·.q.uid) else none
  let s := (s.countMod (R.choURuns u) 1).closeRun u f.q.uid
  let s := match k with
    | some k => (s.unqueueAt (8 + u) k).unitDone k
    | none => s
  match s.flight f.q.uid with
  | some g => if g.stage = .finished then
      { s with arr := { s.arr with tq := s.arr.tq.filter fun t => t.2.begun != some f.q.uid } } else s
  | none => s

/-- Something in flight will still free credits of a transfer's destination (R199): an array cue for FEED and WEIGHT, or a
preload that can go on, and a cue of the unit for PORT. -/
def State.creditsCome (s : State) (c : Cue) (uid : Nat) : Bool :=
  if c.fDstKind = 6 then s.supplied uid (Cue.inUnit (c.fDstId % 8))
  else
    let q := s.weightQ c
    let ready : Bool := match s.half (halfIdx q (NMap.get 0 s.arr.useAt q)) with | .ready _ => true | _ => false
    s.supplied uid (fun k => k.opcode == 0x10) || (c.fDstKind == 5 && ready && (s.preloadKey q).isSome)

/-- A transfer that waits for credits or CHORUS elements that nothing in flight supplies (R198). -/
def State.flyStarved (s : State) (e : Nat) (f : Flight) (x : Xfer) : Bool :=
  let c := f.q.cue
  let noSrc := c.fSrcKind == 8 &&
    decide ((NMap.get [] s.lanes (laneKey (16 + e) (c.fSrcId / 8 % 2) (c.fSrcId % 8))).length < x.group)
  (x.waitsCredit c && !s.creditsCome c x.uid) || (noSrc && !s.supplied x.uid (Cue.inUnit (c.fSrcId % 8)))

/-- A transfer ends at the elements it has asked for, or at those it has written (R198). -/
def State.stopXfer (s : State) (e : Nat) (f : Flight) (x : Xfer) : State :=
  let n := if kFar f.q.cue.fSrcKind then x.asked else x.n
  if n = x.n then s.releaseActive e { x with total := n } else s.setXfer e { x with total := n }

/-- Runs, transfers and exchange cues of the line that wait for what the reset has discarded stop and count as completed
(R325); each stops by itself. -/
def State.stopWaiting (s : State) (l : Line) : State :=
  let s := iter s.build.units (fun u s => match (s.unit u).run, s.unitCue u with
    | some r, some f =>
      if f.q.line = l ∧ s.rowsDone u f r = false ∧ s.starved u f r then s.stopUnit u f else s
    | _, _ => s) s
  let s := match s.exch.run with
    | some r => (match s.flight r.uid with
      | some f => if f.q.line = l ∧ f.opcode ≠ 0x51 then
          (({ s with exch := { s.exch with run := none } }).unqueue r.uid).finishFlight r.uid else s
      | none => s)
    | none => s
  iter s.build.flies (fun e s => match (s.flyEng e).active with
    | some x => (match s.flight x.uid with
      | some f => if f.q.line = l ∧ s.flyStarved e f x then s.stopXfer e f x else s
      | none => s)
    | none => s) s

/-- A pending curtain call of the line goes on without its cue (R356). -/
def State.abandonCurtains (s : State) (l : Line) : State :=
  let gone := (s.flights.filter fun f => f.q.line == l && f.opcode == 0x70).map (·.q.uid)
  let mine (t : CcTree) : Bool := match t.cue with | some u => gone.contains u | none => false
  let s := iter 16 (fun k s => if mine (s.tree k) then s.setTree k { s.tree k with cue := none } else s) s
  gone.foldl (fun s uid => s.dropFlight uid) s

/-- Tiles and hold slots of the line are given up (R96, R131). -/
def State.dropLineArrays (s : State) (l : Line) : State :=
  let s := s.dropTiles (fun k _ => k == l) s.nextUid
  { s with arr := { s.arr with holds := s.arr.holds.filter fun h => h.2.line != l } }

/-- A cue of the line makes no posts (R325). -/
def Flight.hush (l : Line) (f : Flight) : Flight := if f.q.line = l then { f with silent := true } else f

/-- The start of a line's reset (R325). -/
def State.beginReset (s : State) (l : Line) : State :=
  let s := s.updLine l fun ln => { ln with resetting := true, taken := none, atPrompter := false }
  if (s.line l).enabled = false then s
  else
    let s := ((s.discardQueued l).abandonCurtains l).dropLineArrays l
    let s := s.dropCalls l
    let s := { s with flights := s.flights.map (Flight.hush l) }
    (s.stopWaiting l).progress l

/-- The fetchers bound to a line forget their lists (R326: PTR and LIM are not kept by a line's reset). -/
def State.resetFetchers (s : State) (l : Line) : State :=
  iter 0x22 (fun e s =>
    if e ≠ 0 ∧ s.regF (R.lineSplitCtl e) 1 2 = l.idx then
      ((s.setFetcher e Fetcher.init).setReg (R.lineSplitPtr e) 0).setReg (R.lineSplitLim e) 0
    else s) s

/-- The end of a line's reset: positions, loops, routine, count, epoch and step number clear, and the line is EMPTY; a
held commit stays held (R324, R325). -/
def State.endReset (s : State) (l : Line) : State :=
  let i := l.idx
  let s := s.updLine l fun ln =>
    { ln with resetting := false, halted := false, more := false, head := 0, tail := 0, asmData := 0, asmMask := 0
              loops := [], skipEnd := none, routine := none, count := 0, epoch := 0, taken := none
              atPrompter := false, countSpent := false, tagSpent := false, skip := false }
  let s := (((s.setReg (stepReg l) 0).setReg (R.lineWaitTicks i) 0).setReg (R.lineStallTicks i) 0).setReg
    (R.lineIntakeRefused i) 0
  (s.resetFetchers l).progress l

/-- Cues of the line whose work is over complete without posts. -/
def State.dropFinished (s : State) (l : Line) : State :=
  (s.flights.filter fun f => f.q.line == l && f.stage == .finished && !(f.q.cue.fence && s.unlanded f.q.uid)).foldl
    (fun s f => s.complete f) s

/-- `LINE_RESET_DONE`: once no cue of the line remains in flight. -/
def State.lineResetDone (s : State) (l : Line) : State :=
  if (s.line l).resetting = false ∨ s.softBusy then s
  else
    let s := (s.stopWaiting l).dropFinished l
    if s.flights.any (·.q.line == l) then s else s.endReset l

/-! LINE_CTRL. -/

/-- A host halt in front of the head cue (R320); a line without dispatch has none to stop. -/
def State.hostHalt (s : State) (l : Line) : State :=
  let ln := s.line l
  if ln.enabled = false ∨ ln.resetting then s
  else
    let s := s.halt l .hostHalt 0 false (s.headCue l (s.headOf l))
    if ln.halted then s else s.updLine l fun ln => { ln with atPrompter := true, taken := none }

/-- A cue halted at the Prompter will be discarded in the line's next turn (R291); one halted at a fetcher is discarded
(R319). -/
def State.skipHalted (s : State) (l : Line) : State :=
  let ln := s.line l
  let s := if ln.atPrompter ∧ (s.fetchHead l).1 ≠ .nothing then s.setLine l { ln with skip := true } else s
  iter 0x22 (fun e s =>
    let f := s.fetcher e
    if f.atFetcher ∧ s.regF (R.lineSplitCtl e) 1 2 = l.idx then
      let p := s.reg (R.lineSplitPtr e)
      (s.setFetcher e { f with breakSpent := false, skipEnd := if f.skipEnd = some p then none else f.skipEnd }).setReg (R.lineSplitPtr e) (p + 1)
    else s) s

/-- RESUME (R319, R525): the line goes back to dispatch, and a break that halted a cue does not fire on it again. -/
def State.resume (s : State) (l : Line) (skip : Bool) : State :=
  let ln := s.line l
  if ln.halted = false ∨ ln.resetting ∨ s.fatal then s
  else
    let s := if skip then s.skipHalted l else s
    let s := s.updLine l fun k => { k with halted := false, atPrompter := false, taken := none }
    iter 0x22 (fun e s =>
      let f := s.fetcher e
      if f.atFetcher ∧ s.regF (R.lineSplitCtl e) 1 2 = l.idx then
        s.setFetcher e { f with atFetcher := false, taken := none }
      else s) s

/-- A write of LINE_CTRL acts by one field at most (R319). -/
def State.lineCtrlWrite (s : State) (l : Line) (v : Word) : State :=
  if bit v 3 then s.resetDoor.beginReset l
  else if bit v 0 then s.hostHalt l
  else if bit v 1 then s.resume l (bit v 2)
  else s

/-! LINE_MODE and the repertoire window. -/

/-- Split mode may change (R312). -/
def State.splitMayChange (s : State) : Bool :=
  s.flights.isEmpty && allLines.all fun l => let st := (s.lineState l).1; st == 0 || st == 1 || st == 5

/-- `SPLIT_MODE_WRITE` (R35, R312): bit 1 clears REFUSED, bit 0 is SPLIT; a write at a time when SPLIT may not change is
ignored and sets REFUSED, whatever it writes. -/
def State.splitWrite (s : State) (v : Word) : State :=
  if s.splitMayChange = false then s.setB R.lineMode 1 true
  else
    let old := s.regB R.lineMode 0
    let s := if bit v 1 then s.setB R.lineMode 1 false else s
    if bit v 0 = old then s else
    let s := s.setB R.lineMode 0 (bit v 0)
    if bit v 0 then iter 0x22 (fun e s =>
      if e = 0 then s else s.setFetcher e { s.fetcher e with step := s.stepNum (s.fetcherCtx e).line }) s
    else s

/-- `REP_WRITE` (R311): RWP, refused while a line is inside a routine. -/
def State.repWrite (s : State) (off : Nat) (v : Word) : State :=
  if s.session = false ∨ s.build.repBytes ≤ off then s
  else if allLines.any fun l => (s.line l).routine.isSome then s.count R.lineRepRefused 1
  else { s with rep := NMap.set 0 s.rep (off / 4) v, repBad := s.repBad.filter (· != off / 4) }

/-! The commands. -/

/-- R279. -/
def execLineRingWrite (l : Line) (data : Word) (s : State) : Host.Outcome State Fault Refusal :=
  (s.hostWrite (R.lineRing l.idx) fun s => s.ringWrite l data).done

/-- R320. -/
def execHostHalt (l : Line) (s : State) : Host.Outcome State Fault Refusal :=
  (s.hostWrite (R.lineCtrl l.idx) fun s => s.lineCtrlWrite l 1).done

/-- R319. -/
def execLineResume (l : Line) (s : State) : Host.Outcome State Fault Refusal :=
  (s.hostWrite (R.lineCtrl l.idx) fun s => s.lineCtrlWrite l 2).done

/-- R319. -/
def execLineResumeSkip (l : Line) (s : State) : Host.Outcome State Fault Refusal :=
  (s.hostWrite (R.lineCtrl l.idx) fun s => s.lineCtrlWrite l 6).done

/-- R325. -/
def execLineReset (l : Line) (s : State) : Host.Outcome State Fault Refusal :=
  (s.hostWrite (R.lineCtrl l.idx) fun s => s.lineCtrlWrite l 8).done

/-- R325. -/
def execLineResetDone (l : Line) (s : State) : Host.Outcome State Fault Refusal := (s.lineResetDone l).done

/-- R312. -/
def execSplitModeWrite (data : Word) (s : State) : Host.Outcome State Fault Refusal :=
  (s.hostWrite R.lineMode fun s => s.splitWrite data).done

/-- R311. -/
def execRepWrite (off : BitVec 18) (data : Word) (s : State) : Host.Outcome State Fault Refusal :=
  (s.hostWrite (0x80000 + off.toNat) fun s => s.repWrite off.toNat data).done

end Sys2Proof.Machine
end

