-- ==== Sys2Proof/Machine/Callboard.lean ====
section
/-! DEFINITION. The callboard's commands (R336 to R342, R345 to R348, R355) and the local port's service (R494, R519). -/

namespace Sys2Proof.Machine

/-- The local port takes operations (R338, R494, R498, R519). -/
def State.localServes (s : State) : Bool :=
  (s.phase == .up || s.phase == .bringUp) && !s.softBusy && !s.frozen && decide (s.pstate ≤ 2)

/-- A DONE to the source of an operation (R422). -/
def State.sendDone (s : State) (dst : BitVec 12) (ch : Nat) (tag : BitVec 16) (status : Nat) : State :=
  s.sendPacket dst 8 ch (bytesOf 2 tag.toNat ++ bytesOf 1 status)

/-- An operation the local port takes: its packet leaves the port and Idle ends (R495). -/
def State.serveOp (s : State) (p : Packet → Bool) (f : State → State) : State :=
  if s.localServes then f (s.leaveIdle.takeLocal p) else s

/-- A packet with an operation code, a source and payload bytes. -/
def isPacket (opc : Nat) (src : BitVec 12) (data : List Byte) (p : Packet) : Bool :=
  p.opc == opc && p.src == src && p.data == data

/-- R337: a write or an exchange operation of the same core and class that has come to the local port before the packet that
`p` takes has still to land. -/
def State.postHeld (s : State) (src : BitVec 12) (p : Packet → Bool) : Bool :=
  (s.fab.localIn.takeWhile fun q => !p q).any fun q => q.src == src && q.ch == 0 && (q.opc == 0 || q.opc == 2)

/-- A POST of another core (R336 to R338), refused while FATAL is set (R525). -/
def State.remoteIn (s : State) (src : BitVec 12) (tag : BitVec 16) (counter : BitVec 7) (delta : BitVec 12) (upset : Fin 3) :
    State :=
  let data := bytesOf 2 tag.toNat ++ [BitVec.ofNat 8 counter.toNat, 0#8] ++ bytesOf 2 delta.toNat
  if s.postHeld src (isPacket 3 src data) then s
  else s.serveOp (isPacket 3 src data) fun s =>
    let s := if s.fatal then s else s.tableUpset upset unitCallboard counter.toNat 3
    if s.fatal ∨ 64 ≤ counter.toNat then s.sendDone src 0 tag 1
    else (s.post counter.toNat delta.toInt).sendDone src 0 tag 0

/-- CALL_HOST_POST (R339). -/
def State.hostPost (s : State) (v : Word) : State :=
  let i := fieldN v 0 7
  if 64 ≤ i then s.setB R.callStatus 0 true else s.post i (field v 12 20 : BitVec 20).toInt

/-- CALL_SET (R342). -/
def State.callSet (s : State) (v : Word) : State :=
  let i := fieldN v 0 7
  if s.session = false ∨ 80 ≤ i then s.setB R.callStatus 1 true else s.setCnt i (field v 8 20)

/-- CALL_CC_CTRL (R355). -/
def State.ccClear (s : State) (k : Nat) (v : Word) : State :=
  if bit v 0 = false ∨ (s.tree k).cue.isSome then s
  else s.setTree k { CcTree.init with seq := field v 8 8 }

/-- A dropped arrival or release (R346, R347). -/
def State.ccStray (s : State) : State := s.count R.callCcStray 1

/-- An arrival of a child (R345, R346). -/
def State.arrival (s : State) (k : Nat) (seq : BitVec 8) (child : BitVec 12) : State :=
  let t := s.tree k
  if s.ccEn k = false then s.ccStray
  else if seq = t.seq then
    if t.kids.length < s.ccKids k then (s.setTree k { t with kids := t.kids ++ [child] }).ccArrive k else s.ccStray
  else if seq = t.seq + 1 then
    if t.early.length < s.ccKids k then s.setTree k { t with early := t.early ++ [child] } else s.ccStray
  else s.ccStray

/-- A release from the parent (R347). -/
def State.release (s : State) (k : Nat) (seq : BitVec 8) (a : Align) : State :=
  let t := s.tree k
  if s.ccEn k ∧ seq = t.seq ∧ t.sent then s.ccReleaseNode k (some a) else s.ccStray

/-! The commands. -/

/-- R336. -/
def execPost (src : BitVec 12) (tag : BitVec 16) (counter : BitVec 7) (delta : BitVec 12) (upset : Fin 3) (s : State) :
    Host.Outcome State Fault Refusal := (s.remoteIn src tag counter delta upset).done

/-- R339. -/
def execCallHostPost (data : Word) (s : State) : Host.Outcome State Fault Refusal :=
  (s.hostWrite R.callHostPost fun s => s.hostPost data).done

/-- R342. -/
def execCallSet (data : Word) (s : State) : Host.Outcome State Fault Refusal :=
  (s.hostWrite R.callSet fun s => s.callSet data).done

/-- R355. -/
def execCallCcClear (k : Fin 16) (data : Word) (s : State) : Host.Outcome State Fault Refusal :=
  (s.hostWrite (R.callCcCtrl k.val) fun s => s.ccClear k.val data).done

/-- R345. -/
def execCurtainArrival (k : Fin 16) (seq : BitVec 8) (child : BitVec 12) (s : State) : Host.Outcome State Fault Refusal :=
  (s.serveOp (isPacket 4 child (curtainBytes k.val false seq none)) fun s => s.arrival k.val seq child).done

/-- R347. -/
def execCurtainRelease (k : Fin 16) (seq : BitVec 8) (maskCall : BitVec 64) (maskCc : BitVec 16) (values : List (BitVec 32))
    (s : State) : Host.Outcome State Fault Refusal :=
  let a : Align := ⟨maskCall, maskCc, values⟩
  (s.serveOp (fun p => p.opc == 4 && p.data == curtainBytes k.val true seq (some a)) fun s => s.release k.val seq a).done

end Sys2Proof.Machine
end

