-- ==== Sys2Proof/Machine/Exchange.lean ====
section
/-! DEFINITION. The exchange engine (R382 to R416): buckets, sending with its sequence streams, the owner's replay table and
adders, settling, repair and the next generation. -/

namespace Sys2Proof.Machine

/-! Bucket entries (R383): fields as (lowest bit, width). -/

def Ex.owner : Nat × Nat := (16, 12)
def Ex.accBase : Nat × Nat := (32, 32)
def Ex.pmaskBase : Nat × Nat := (64, 32)
def Ex.elems : Nat × Nat := (96, 22)
def Ex.expect : Nat × Nat := (128, 20)
def Ex.headroom : Nat × Nat := (148, 5)
def Ex.trk : Nat × Nat := (160, 10)
def Ex.doneCtr : Nat × Nat := (176, 7)
def Ex.notifyFirst : Nat × Nat := (192, 12)
def Ex.notifyStride : Nat × Nat := (204, 12)
def Ex.notifyCount : Nat × Nat := (224, 13)
def Ex.retainBase : Nat × Nat := (256, 32)
def Ex.initS : Nat × Nat := (288, 8)
def Ex.gen0 : Nat × Nat := (304, 16)
def Ex.shift : Nat × Nat := (320, 8)
def Ex.gen : Nat × Nat := (336, 16)
def Ex.arrived : Nat × Nat := (352, 20)
def Ex.state : Nat × Nat := (376, 3)
def Ex.attempt : Nat × Nat := (380, 3)
def Ex.failMask : Nat × Nat := (384, 64)
def Ex.ownSum : Nat × Nat := (448, 64)
def Ex.ownMax : Nat × Nat := (512, 32)
def Ex.sendSum : Nat × Nat := (576, 64)
def Ex.sendMax : Nat × Nat := (640, 32)
def Ex.sendFail : Nat × Nat := (672, 64)
def Ex.closes : Nat × Nat := (736, 20)
def Ex.served : Nat × Nat := (764, 3)
def Ex.retSum : Nat × Nat := (768, 64)
def Ex.retMax : Nat × Nat := (832, 32)

/-- A field of an entry. -/
def entF (e : BitVec 1024) (k : Nat × Nat) : Nat := fieldN e k.1 k.2

def entSet (e : BitVec 1024) (k : Nat × Nat) (v : Nat) : BitVec 1024 := Cue.setBits e k.1 k.2 v

/-- A signed byte of an entry: SHIFT or INIT_S. -/
def entI8 (e : BitVec 1024) (k : Nat × Nat) : Int := (BitVec.ofNat 8 (entF e k)).toInt

def entValid (e : BitVec 1024) : Bool := e.getLsbD 0
def entOwned (e : BitVec 1024) : Bool := e.getLsbD 1
def entRetain (e : BitVec 1024) : Bool := e.getLsbD 2

/-- States of a bucket. -/
def exOpen : Nat := 0
def exComplete : Nat := 1
def exHeld : Nat := 2
def exRepairing : Nat := 3
def exSettled : Nat := 4
def exFailed : Nat := 5

def State.setBucket (s : State) (b : Nat) (e : BitVec 1024) : State :=
  { s with exch := { s.exch with buckets := NMap.set 0 s.exch.buckets b e } }

def State.bf (s : State) (b : Nat) (k : Nat × Nat) : Nat := entF (s.bucket b) k

def State.setBf (s : State) (b : Nat) (k : Nat × Nat) (v : Nat) : State := s.setBucket b (entSet (s.bucket b) k v)

/-- A bucket id of the table whose entry is VALID (R382). -/
def State.bucketOk (s : State) (b : Nat) : Bool := decide (b < 4096) && entValid (s.bucket b)

/-- Groups of a bucket, and groups of one part (R392). -/
def entGroups (e : BitVec 1024) : Nat := (entF e Ex.elems + 63) / 64
def entPart (e : BitVec 1024) (g : Nat) : Nat := min 63 (g / max 1 ((entGroups e + 63) / 64))

/-- The notify set (R383). -/
def entNotify (e : BitVec 1024) : List (BitVec 12) := (List.range (entF e Ex.notifyCount)).map fun i =>
  BitVec.ofNat 12 (entF e Ex.notifyFirst + i * entF e Ex.notifyStride)

/-- Bytes of the retain planes, and where the poison plane starts in them (R396). -/
def retainPoison (e : BitVec 1024) : Nat := entF e Ex.retainBase + roundUp (4 * entF e Ex.elems) 64
def retainBytes (e : BitVec 1024) : Nat := roundUp (4 * entF e Ex.elems) 64 + (entF e Ex.elems + 7) / 8

/-! Payloads (R394). The bytes that R394 leaves to a response or a sync operation carry KIND and CH where a request has
them (DESIGN CHOICE, log entry 17). -/

/-- Bytes 0 to 11 of a request or a response. -/
def exHead (bucket gen seq w : Nat) (kind ch : Nat) : List Byte :=
  bytesOf 2 bucket ++ bytesOf 2 gen ++ bytesOf 4 seq ++ bytesOf 3 w ++ bytesOf 1 (ch + 16 * kind)

def accBytes (bucket gen seq group count ch pmask : Nat) (data : List (BitVec 32)) : List Byte :=
  exHead bucket gen seq (group + 2 ^ 16 * count) 0 ch ++ bytesOf 4 0 ++ bytesOf 8 pmask
    ++ (data.map fun d => bytesOf 4 d.toNat).flatten

def closeBytes (bucket gen seq count ch : Nat) (max : BitVec 32) (sum fail : BitVec 64) : List Byte :=
  exHead bucket gen seq count 1 ch ++ bytesOf 4 max.toNat ++ bytesOf 8 sum.toNat ++ bytesOf 8 fail.toNat

def skipBytes (bucket gen seq group ch : Nat) : List Byte := exHead bucket gen seq group 2 ch

def syncBytes (kind bucket gen : Nat) (arg : BitVec 8) : List Byte :=
  bytesOf 2 bucket ++ bytesOf 2 gen ++ [BitVec.ofNat 8 arg.toNat] ++ bytesOf 6 0 ++ bytesOf 1 (16 * kind)

/-- A response of core `src` in the local port. -/
def isExRsp (kind : Nat) (src : BitVec 12) (ch seq : Nat) (p : Packet) : Bool :=
  p.opc == 0xA && p.src == src && decide (numOf ((p.data.drop 4).take 4) = seq)
    && decide (numOf (p.data.drop 11) = ch + 16 * kind)

/-! Contributions (R390, R391). -/

/-- A contribution with its poison bit. -/
structure Contrib where
  n      : Int
  poison : Bool
  sat    : Bool
  deriving DecidableEq, Repr, Inhabited

/-- What one source element contributes. -/
def contrib (f : Fmt) (t shift : Int) (x : Nat × Bool) : Contrib :=
  if x.2 then ⟨0, true, false⟩
  else if f = .i32 then ⟨(BitVec.ofNat 32 x.1).toInt, false, false⟩
  else
    let v := (decodeElem f x.1).scale2 ((if f.isScaled then t else 0) + shift)
    if v.isNan then ⟨0, true, false⟩
    else ⟨(BitVec.ofNat 32 (roundTo .i32 .rne v)).toInt, false, saturates .i32 .rne v⟩

/-- Poison bits of a group, bit i of element i. -/
def pmaskOf (l : List Contrib) : Nat := (l.zipIdx.map fun (c, i) => if c.poison then 2 ^ i else 0).sum

/-- The sixty-four I32 of a group: 0 at and beyond COUNT. -/
def groupWords (l : List Contrib) : List (BitVec 32) := (List.range 64).map fun i =>
  BitVec.ofInt 32 (match l[i]? with | some c => c.n | none => 0)

/-- Sum of contributions modulo 2^64. -/
def contribSum (l : List Contrib) : BitVec 64 := BitVec.ofInt 64 (l.map (·.n)).sum

/-- Larger of a binary32 maximum and the elements' |n| × 2^−S. -/
def contribMax (shift : Int) (m : BitVec 32) (l : List Contrib) : BitVec 32 :=
  l.foldl (fun m c =>
    if c.poison then m
    else
      let x := ((Num.ofInt (c.n.natAbs : Int)).scale2 (-shift)).toB32
      if (ofB32 m).lt (ofB32 x) then x else m) m

/-- Source formats of a send (R390). -/
def exFmtOk (f : Nat) : Bool := match Fmt.ofCode f with
  | some .f8a => true
  | some .f8g => true
  | some .f16 => true
  | some .b32 => true
  | some .i32 => true
  | _ => false

/-- Pages of elements `base` to `base + n − 1` of a handle. -/
def State.spanPages (s : State) (h base n : Nat) : List Nat :=
  if n = 0 then []
  else
    let f := (s.handle h).format
    let a := elemByte f base / 65536
    let b := (elemByte f (base + n) - 1) / 65536
    (List.range (b - a + 1)).map fun k => (s.handle h).first + a + k

/-- The bytes of one page of a span: `len` of them from byte `p` of the handle, with their poison. -/
def State.readPage (h p len : Nat) (st : List (Byte × Bool) × State) : List (Byte × Bool) × State :=
  match st.2.handleAddr h p with
  | none => (st.1 ++ List.replicate len (0, true), st.2)
  | some a =>
    let q := st.2.readBytes 0x20 a len
    (st.1 ++ q.1, q.2.touch (st.2.descOf h p) false)

/-- The bytes of a span that starts at byte `lo`, page by page. -/
def State.readPages (s : State) (h lo total : Nat) : List (Byte × Bool) × State :=
  iter ((lo % 65536 + total + 65535) / 65536) (fun k (st : List (Byte × Bool) × State) =>
    let p := if k = 0 then lo else (lo / 65536 + k) * 65536
    State.readPage h p (min (65536 - p % 65536) (lo + total - p)) st) ([], s)

/-- Codes of consecutive elements of a handle with their poison, as engine 0x20 reads them. -/
def State.readSpan (s : State) (h base n : Nat) : List (Nat × Bool) × State :=
  let w := (s.handle h).format.bits / 8
  let r := s.readPages h (base * w) (n * w)
  ((List.range n).map fun i =>
    let l := (r.1.drop (i * w)).take w
    (numOf (l.map (·.1)), l.any (·.2)), r.2)

/-- Elements of a send that fall in group `g`: the first of them and how many. -/
def ExSend.span (x : ExSend) (g : Nat) : Nat × Nat :=
  let k := g - x.off / 64
  (x.base + 64 * k, min 64 (x.count - 64 * k))

/-- A group formed from its source (R390). -/
def State.formGroup (s : State) (x : ExSend) (g : Nat) : List Contrib × State :=
  let sp := x.span g
  let f := (s.handle x.handle).format
  let r := s.readSpan x.handle sp.1 sp.2
  (r.1.map (contrib f x.t x.shift), r.2)

/-- A group formed from the retain planes (R407). -/
def State.formRetained (s : State) (b g : Nat) : List Contrib × State :=
  let e := s.bucket b
  let n := min 64 (entF e Ex.elems - 64 * g)
  let r := s.readBytes 0x20 (entF e Ex.retainBase + 256 * g) (4 * n)
  let q := r.2.readPlain 0x20 (retainPoison e + 8 * g) 8
  let bits := numOf q.1.1
  ((List.range n).map fun i =>
    let l := (r.1.drop (4 * i)).take 4
    if l.any (·.2) ∨ bits.testBit i then ⟨0, true, false⟩
    else ⟨(BitVec.ofNat 32 (numOf (l.map (·.1)))).toInt, false, false⟩, q.2)

/-! Sending (R392 to R398). -/

/-- Key of a sequence stream. -/
def exKey (core : BitVec 12) (ch : Nat) : Nat := 4 * core.toNat + ch

/-- Operations that a SKIP has not replaced: the ones that a CLOSE and a completion wait for (R397, R398). -/
def ExOp.open (o : ExOp) : Bool := match o.body with
  | .skip _ => false
  | _ => true

/-- The payload of an operation; an ACCUMULATE is formed from its source. -/
def State.opPayload (s : State) (o : ExOp) : List Byte × State :=
  let q := o.seq.toNat
  let g := o.gen.toNat
  let acc (group : Nat) (r : List Contrib × State) : List Byte × State :=
    (accBytes o.bucket g q group r.1.length o.ch (pmaskOf r.1) (groupWords r.1), r.2)
  match o.body with
  | .acc group x => acc group (s.formGroup x group)
  | .retained group => acc group (s.formRetained o.bucket group)
  | .close n m sum fail => (closeBytes o.bucket g q n o.ch m sum fail, s)
  | .skip group => (skipBytes o.bucket g q group o.ch, s)

/-- A new operation, with the next SEQ of its stream (R393). -/
def State.newOp (s : State) (dst : BitVec 12) (ch bucket : Nat) (gen : BitVec 16) (body : ExBody) (uid : Option Nat) :
    ExOp × State :=
  let k := exKey dst ch
  let seq := NMap.get 0 s.exch.nextSeq k
  let o : ExOp := ⟨dst, ch, seq, bucket, gen, body, uid, 0⟩
  (o, { s with exch := { s.exch with nextSeq := NMap.set 0 s.exch.nextSeq k (seq + 1), ops := s.exch.ops ++ [o] } })

/-- A group's contributions enter the entry's sender fields (R391, R396). -/
def State.noteSent (s : State) (b : Nat) (shift : Int) (l : List Contrib) : State :=
  let e := s.bucket b
  let add (e : BitVec 1024) (ks km : Nat × Nat) : BitVec 1024 :=
    entSet (entSet e ks (BitVec.ofNat 64 (entF e ks) + contribSum l).toNat) km
      (contribMax shift (BitVec.ofNat 32 (entF e km)) l).toNat
  let e := add e Ex.sendSum Ex.sendMax
  let e := if entRetain e then add e Ex.retSum Ex.retMax else e
  let s := s.setBucket b e
  (s.count R.exchSat (l.countP (·.sat))).count R.exchPoisonSent (l.countP (·.poison))

/-- One retained sum: the I32 of the plane plus the contribution; outside the I32 range it is a free value of the two. -/
def retainSum (old n : Int) : BitVec 32 :=
  if -(2 ^ 31) ≤ old + n ∧ old + n < 2 ^ 31 then BitVec.ofInt 32 (old + n) else Config.retainSum old n

/-- At most 16 contributions enter a word of the retain planes at `a`: added, or written when they are the first. -/
def State.retainWord (s : State) (a : Nat) (first : Bool) (l : List Contrib) : State :=
  let old := if first then ((List.replicate 64 (0 : Byte), false), s) else s.readPlain 0x20 a (4 * l.length)
  let sums := l.zipIdx.map fun (c, i) =>
    retainSum (BitVec.ofNat 32 (numOf ((old.1.1.drop (4 * i)).take 4))).toInt c.n
  old.2.put a (sums.map fun v => bytesOf 4 v.toNat).flatten old.1.2

/-- Contributions enter the retain planes (R396). -/
def State.retain (s : State) (b g : Nat) (first : Bool) (l : List Contrib) : State :=
  let e := s.bucket b
  let a := entF e Ex.retainBase + 256 * g
  let p := retainPoison e + 8 * g
  let s := iter ((l.length + 15) / 16) (fun k s => s.retainWord (a + 64 * k) first ((l.drop (16 * k)).take 16)) s
  let was := s.readPlain 0x20 p 8
  let keep := if first then numOf was.1.1 / 2 ^ l.length * 2 ^ l.length else numOf was.1.1
  was.2.put p (bytesOf 8 (keep ||| pmaskOf l)) was.1.2

/-- The fields of a send (R390); S is SHIFT or the cue's own. -/
def State.sendOf (s : State) (q : QCue) : ExSend :=
  let c := q.cue
  ⟨c.xSrc, c.xSrcBase, c.xDstOff, c.xCount, if c.xShiftOvr then c.xShift else entI8 (s.bucket c.xBucket) Ex.shift, q.st⟩

/-- The next group of the send in progress: it waits for the window (R395) and for its source's pages (R252). -/
def State.sendGroup (s : State) : Moved := match s.exch.run with
  | none => .stuck s
  | some r => match s.flight r.uid with
    | none => .stuck s
    | some f =>
      let c := f.q.cue
      if c.opcode ≠ 0x51 ∨ (c.xCount + 63) / 64 ≤ r.next ∨ 16384 ≤ s.exch.ops.length then .stuck s
      else
        let b := c.xBucket
        let g := c.xDstOff / 64 + r.next
        let x := s.sendOf f.q
        let sp := x.span g
        let rdy := s.pagesReady (s.spanPages x.handle sp.1 sp.2)
        if rdy.1 = false then .stuck rdy.2
        else
          let o := s.newOp (BitVec.ofNat 12 (s.bf b Ex.owner)) (g % 4) b c.xGen (.acc g x) (some r.uid)
          let l := o.2.formGroup x g
          let s := l.2.noteSent b x.shift l.1
          let s := if entRetain (s.bucket b) then s.retain b g c.xRfirst l.1 else s
          let s := { s with exch := { s.exch with run := some { r with next := r.next + 1 } } }
          let s := s.count64 R.exchSentLo R.exchSentHi 1
          .on (s.sendPacket o.1.dst 2 o.1.ch
            (accBytes b c.xGen.toNat o.1.seq.toNat g l.1.length o.1.ch (pmaskOf l.1) (groupWords l.1)))

def State.sendGroups : Nat → State → State
  | 0, s => s
  | k + 1, s => match s.sendGroup with
    | .stuck s => s
    | .on s => s.sendGroups k

/-- No operation of the bucket is open (R397). -/
def State.bucketClear (s : State) (b : Nat) : Bool := !(s.exch.ops.any fun o => o.bucket == b && o.open)

/-- Sends an operation. -/
def State.sendOp (s : State) (o : ExOp) : State :=
  let p := s.opPayload o
  p.2.sendPacket o.dst 2 o.ch p.1

/-- Sends a new operation. -/
def State.sendNew (r : ExOp × State) : State := r.2.sendOp r.1

/-- The CLOSE of the send in progress, once every earlier operation of its bucket has been answered or skipped. -/
def State.sendClose (s : State) : State := match s.exch.run with
  | none => s
  | some r => match s.flight r.uid with
    | none => s
    | some f =>
      let c := f.q.cue
      let b := c.xBucket
      if c.opcode ≠ 0x51 ∨ c.xClose = false ∨ r.closed ∨ r.next < (c.xCount + 63) / 64 ∨ s.bucketClear b = false
          ∨ 16384 ≤ s.exch.ops.length then s
      else
        let e := s.bucket b
        let body := ExBody.close 1 (BitVec.ofNat 32 (entF e Ex.sendMax)) (BitVec.ofNat 64 (entF e Ex.sendSum))
          (BitVec.ofNat 64 (entF e Ex.sendFail))
        let s := State.sendNew (s.newOp (BitVec.ofNat 12 (entF e Ex.owner)) (b % 4) b c.xGen body (some r.uid))
        let e := entSet (entSet (entSet e Ex.sendMax 0) Ex.sendSum 0) Ex.sendFail 0
        let s := s.setBucket b (entSet e Ex.closes (entF e Ex.closes + 1))
        { s with exch := { s.exch with run := some { r with closed := true } } }

/-- The exchange cue in progress has done its work. -/
def State.exchDone (s : State) (uid : Nat) : State :=
  ((({ s with exch := { s.exch with run := none } }).unqueue uid).finishFlight uid)

/-- A send whose operations are all acknowledged, skipped or refused completes (R398), and so does an open whose notices are
acknowledged (R408). -/
def State.exchFinish (s : State) : State := match s.exch.run with
  | none => s
  | some r => match s.flight r.uid with
    | none => s
    | some f =>
      let c := f.q.cue
      if c.opcode = 0x51 then
        if (c.xCount + 63) / 64 ≤ r.next ∧ (c.xClose = false ∨ r.closed)
            ∧ s.exch.ops.any (fun o => o.uid == some r.uid && o.open) = false then s.exchDone r.uid else s
      else if c.opcode = 0x53 ∧ s.exch.syncs.any (fun o => o.uid == some r.uid) = false then s.exchDone r.uid
      else s

/-- One group or the CLOSE of a repair being served (R407). -/
def State.serveGroup (s : State) : Moved := match s.exch.serves with
  | [] => .stuck s
  | v :: rest =>
    let b := v.bucket
    let e := s.bucket b
    let gen := BitVec.ofNat 16 (entF e Ex.gen)
    let dst := BitVec.ofNat 12 (entF e Ex.owner)
    if 16384 ≤ s.exch.ops.length then .stuck s
    else if v.next < entGroups e then
      let s := { s with exch := { s.exch with serves := ⟨b, v.next + 1⟩ :: rest } }
      .on ((State.sendNew (s.newOp dst (v.next % 4) b gen (.retained v.next) none)).count64 R.exchSentLo R.exchSentHi 1)
    else if s.bucketClear b = false then .stuck s
    else
      let s := { s with exch := { s.exch with serves := rest } }
      .on (State.sendNew (s.newOp dst (b % 4) b gen (.close (entF e Ex.closes) (BitVec.ofNat 32 (entF e Ex.retMax))
        (BitVec.ofNat 64 (entF e Ex.retSum)) 0) none))

def State.serveGroups : Nat → State → State
  | 0, s => s
  | k + 1, s => match s.serveGroup with
    | .stuck s => s
    | .on s => s.serveGroups k

/-- What the engine does by itself whenever it can: the send in progress, its CLOSE, repairs, completion. -/
def State.exchPump (s : State) : State :=
  let s := (s.sendGroups 32768).sendClose
  let s := s.serveGroups (32769 * s.exch.serves.length)
  s.exchFinish

end Sys2Proof.Machine
end

