-- ==== Sys2Proof/Machine/Bucket.lean ====
section
/-! DEFINITION. The exchange cues and the exchange operations that reach this core (R385 to R408, R414): the owner's side,
answers, timeouts, and the commands of the family. -/

namespace Sys2Proof.Machine

/-! EXCH_BUCKET_SET and EXCH_SEND. -/

/-- The head of the exchange queue with opcode `op`, when it may start or is the cue in progress. -/
def State.exchHead (s : State) (op : Nat) : Option Flight := match s.exch.run with
  | some r => if s.enginesRun then (s.flight r.uid).filter (·.opcode == op) else none
  | none => (s.startable 0x20).filter (·.opcode == op)

/-- A halt by the exchange engine (R411). -/
def State.exchHalt (s : State) (uid : Nat) (code : Code) : State :=
  let s := if code = .localAddr then s.count R.propLocalRefused 1 else s
  ({ s with exch := { s.exch with run := none } }).engineHalt uid 0x20 code

/-- Why a record is not loaded (R385). -/
def State.recordChecks (s : State) (b : Nat) (e : BitVec 1024) : List Code :=
  let old := s.bucket b
  let st := entF old Ex.state
  (if (entValid old ∧ st ≠ exOpen ∧ st ≠ exSettled) ∨ entF old Ex.arrived ≠ 0 ∨ s.exch.ops.any (·.bucket == b)
      ∨ s.exch.syncs.any (·.bucket == b)
    then [Code.exchBusy] else [])
  ++ (if (entOwned e ∧ (s.tracker (entF e Ex.trk)).bound.isSome) ∨ entF e Ex.elems = 0 ∨ entF e Ex.expect = 0
    then [.exchField] else [])

/-- `EXCH_BUCKET_SET` (R385): a record that reads poisoned is treated as a poisoned walk descriptor is. -/
def State.bucketSet (s : State) : State := match s.exchHead 0x50 with
  | none => s
  | some f =>
    let c := f.q.cue
    let b := c.xBucket
    if 4096 ≤ b then s.exchHalt f.q.uid .exchBucket
    else if c.xRecord % 64 ≠ 0 ∨ s.localRangeOk c.xRecord 64 = false then s.exchHalt f.q.uid .localAddr
    else
      let r := s.readPlain 0x20 c.xRecord 64
      let s := r.2
      let e : BitVec 1024 := BitVec.ofNat 1024 (numOf (r.1.1.take 40))
      if r.1.2 then s.exchHalt f.q.uid .uncorrectableCue
      else match leastCode (s.recordChecks b e) with
        | some code => s.exchHalt f.q.uid code
        | none =>
          let e := entSet (entSet e Ex.shift (entF e Ex.initS)) Ex.gen (entF e Ex.gen0)
          let s := s.setBucket b e
          let s := { s with exch := { s.exch with retGen := NMap.del s.exch.retGen b
                                                  acted := NMap.del s.exch.acted b } }
          s.exchDone f.q.uid

/-- Why a send halts (R382, R389, R390, R411). -/
def State.sendChecks (s : State) (c : Cue) : List Code :=
  let b := c.xBucket
  let e := s.bucket b
  let h := s.handle c.xSrc
  if s.bucketOk b = false then [.exchBucket]
  else
    (if c.xDstOff % 64 ≠ 0 ∨ entF e Ex.elems < c.xDstOff + c.xCount ∨ (c.xRfirst ∧ entRetain e = false)
      then [Code.exchField] else [])
    ++ (if s.handleOk c.xSrc = false then [.handleInvalid]
        else (if exFmtOk h.fmt then [] else [.formatUnsupported])
          ++ (if h.elems < c.xSrcBase + c.xCount then [.flyRange] else []))
    ++ (if 0x7FFF < genAhead c.xGen (BitVec.ofNat 16 (entF e Ex.gen)) then [.exchGenStale] else [])
    ++ (if entRetain e ∧ s.localRangeOk (entF e Ex.retainBase) (retainBytes e) = false then [.localAddr] else [])

/-- A send starts: RFIRST makes it the first of its retained generation (R396). -/
def State.sendStart (s : State) (f : Flight) : State :=
  let c := f.q.cue
  let b := c.xBucket
  let s := s.startFlight f.q.uid
  let s := if c.xRfirst then
      let s := ((s.setBf b Ex.retSum 0).setBf b Ex.retMax 0).setBf b Ex.closes 0
      { s with exch := { s.exch with retGen := NMap.set 0 s.exch.retGen b (c.xGen.toNat + 1) } }
    else s
  { s with exch := { s.exch with run := some ⟨f.q.uid, 0, false, false⟩ } }

/-- `EXCH_SEND` (R389, R390): it starts once its generation is the entry's, and goes on as far as it can. -/
def State.exchSend (s : State) : State := match s.exchHead 0x51 with
  | none => s
  | some f =>
    if s.exch.run.isSome then s.exchPump
    else match leastCode (s.sendChecks f.q.cue) with
      | some code => s.exchHalt f.q.uid code
      | none => if f.q.cue.xGen.toNat ≠ s.bf f.q.cue.xBucket Ex.gen then s else (s.sendStart f).exchPump

/-! Sync operations (R393). -/

/-- A NOTICE, RESEND or UNABLE leaves. -/
def State.sendSync (s : State) (dst : BitVec 12) (kind bucket : Nat) (gen : BitVec 16) (arg : BitVec 8) (uid : Option Nat) :
    State :=
  ({ s with exch := { s.exch with syncs := s.exch.syncs ++ [SyncOp.mk dst kind bucket gen arg uid 0] } }).sendPacket dst 6 0
    (syncBytes kind bucket gen.toNat arg)

/-! Memory of a bucket. -/

/-- Zeros written over whole words that lie in one page, which turns DIRTY; a LOCKED page takes none (R244). -/
def State.zeroWords (s : State) (a n : Nat) : State :=
  if s.lockedAt a then s else { s with mem := s.mem.zeroRange a n }.markWritten a false

/-- Zeros written at any address, page by page: whole words, and a last part of one. -/
def State.zeroBytes (s : State) (a n : Nat) : State :=
  let whole := n / 64 * 64
  let s := iter ((a % 65536 + whole + 65535) / 65536) (fun k s =>
    let lo := if k = 0 then a else (a / 65536 + k) * 65536
    s.zeroWords lo (min (65536 - lo % 65536) (a + whole - lo))) s
  if n % 64 = 0 then s else s.put (a + whole) (List.replicate (n % 64) 0) false

/-- The accumulator can be read on this core (R248). -/
def State.accOk (s : State) (e : BitVec 1024) : Bool := s.localRangeOk (entF e Ex.accBase) (8 * entF e Ex.elems)

/-- Zeros over a plane; a plane outside the frames of R248 takes none (DEDUCED, log entry 21). -/
def State.zeroPlane (s : State) (a n : Nat) : State := if s.localRangeOk a n then s.zeroBytes a n else s

def State.zeroPmask (s : State) (e : BitVec 1024) : State := s.zeroPlane (entF e Ex.pmaskBase) ((entF e Ex.elems + 7) / 8)

def State.zeroAcc (s : State) (e : BitVec 1024) : State := s.zeroPlane (entF e Ex.accBase) (8 * entF e Ex.elems)

/-! EXCH_SETTLE (R404 to R406). -/

/-- Why a settle or an open halts before it does anything (R382, R411). -/
def State.ownerChecks (s : State) (c : Cue) : List Code :=
  let b := c.xBucket
  if s.bucketOk b = false ∨ entOwned (s.bucket b) = false then [.exchBucket]
  else
    (if c.opcode = 0x52 ∧ s.build.units ≤ c.xCheckUnit then [Code.unitAbsent] else [])
    ++ (if c.opcode = 0x52 ∧ c.xPblk ≠ 0 ∧ s.localRangeOk c.xPblk 64 = false then [.localAddr] else [])

/-- The generation is sampled, forced or repaired (R404). -/
def State.mustCheck (s : State) (c : Cue) : Bool :=
  let b := c.xBucket
  decide ((b + s.bf b Ex.gen) % 2 ^ min 8 (s.regF R.exchCtrl 0 4) = 0) || c.xForce || decide (0 < s.bf b Ex.attempt)

/-- The sum of the accumulator modulo 2^64, and whether a word read uncorrectable or poisoned. -/
def State.accSum (s : State) (e : BitVec 1024) : (BitVec 64 × Bool) × State :=
  let n := entF e Ex.elems
  iter ((n + 7) / 8) (fun i (st : (BitVec 64 × Bool) × State) =>
    let k := min 8 (n - 8 * i)
    let r := st.2.readPlain 0x20 (entF e Ex.accBase + 64 * i) (8 * k)
    let sum := ((List.range k).map fun j => numOf ((r.1.1.drop (8 * j)).take 8)).sum
    ((st.1.1 + BitVec.ofNat 64 sum, st.1.2 || r.1.2), r.2)) ((0, false), s)

/-- A check (R404); it answers whether the bucket passed. -/
def State.exchCheck (s : State) (b : Nat) : Bool × State :=
  let e := s.bucket b
  let r := s.accSum e
  let s := r.2.count R.exchChecks 1
  if r.1.2 = false ∧ r.1.1.toNat = entF e Ex.ownSum then (true, s)
  else
    let s := (s.setBf b Ex.state exHeld).count R.exchMismatch 1
    (false, s.logRecord (FaultRec.plain 1 0x20 Code.exchCheckMismatch.num b 7))

/-- SETTLED, with GSCALE in the parameter block (R405). -/
def State.settled (s : State) (f : Flight) : State :=
  let c := f.q.cue
  let b := c.xBucket
  let s := s.setBf b Ex.state exSettled
  let g := ((ofB32 c.xGsBase).scale2 (-(entI8 (s.bucket b) Ex.shift))).toB32
  let s := if c.xPblk = 0 then s else s.put (c.xPblk + 28) (bytesOf 4 g.toNat) false
  s.exchDone f.q.uid

/-- A repair (R406 steps 1 to 4). -/
def State.repair (s : State) (f : Flight) : State :=
  let b := f.q.cue.xBucket
  let e := s.bucket b
  let att := entF e Ex.attempt + 1
  let s := (s.zeroAcc e).zeroPmask e
  let e := entSet (entSet e Ex.attempt att) Ex.state exRepairing
  let e := entSet (entSet (entSet (entSet e Ex.arrived 0) Ex.failMask 0) Ex.ownSum 0) Ex.ownMax 0
  let s := (s.setBucket b e).count R.exchRepairs 1
  let s := { s with exch := { s.exch with run := some ⟨f.q.uid, 0, false, true⟩ } }
  (entNotify e).foldl (fun s d =>
    s.sendSync d 4 b (BitVec.ofNat 16 (entF e Ex.gen)) (BitVec.ofNat 8 att) none) s

/-- A HELD bucket is repaired, or fails (R406). -/
def State.heldBucket (s : State) (f : Flight) : State :=
  let b := f.q.cue.xBucket
  if s.bf b Ex.attempt < s.regF R.exchCtrl 12 3 then s.repair f
  else (s.setBf b Ex.state exFailed).exchHalt f.q.uid .exchRepairFailed

/-- A settle goes on from what the bucket's state is; the check waits until the cue heads its chorus unit's queue. -/
def State.settleStep (s : State) (f : Flight) : State :=
  let c := f.q.cue
  let b := c.xBucket
  let st := s.bf b Ex.state
  if st = exFailed then s.exchHalt f.q.uid .exchRepairFailed
  else if st = exHeld then s.heldBucket f
  else if st ≠ exComplete then s
  else if s.mustCheck c = false then s.settled f
  else if (s.queue (8 + c.xCheckUnit)).head? ≠ some f.q.uid then s
  else if s.accOk (s.bucket b) = false then s.exchHalt f.q.uid .localAddr
  else
    let r := s.exchCheck b
    if r.1 then r.2.settled f else r.2.heldBucket f

/-- `EXCH_SETTLE`. -/
def State.exchSettle (s : State) : State := match s.exchHead 0x52 with
  | none => s
  | some f =>
    if s.exch.run.isSome then s.settleStep f
    else match leastCode (s.ownerChecks f.q.cue) with
      | some code => s.exchHalt f.q.uid code
      | none =>
        let s := s.startFlight f.q.uid
        ({ s with exch := { s.exch with run := some (ExRun.mk f.q.uid 0 false false) } }).settleStep f

/-! EXCH_OPEN (R386, R408). -/

/-- The shift of the next generation (R386). -/
def State.nextShift (s : State) (e : BitVec 1024) : Int :=
  let hist := (s.tracker (entF e Ex.trk)).hist
  if hist = [] then entI8 e Ex.initS
  else
    let m := hist.foldl (fun a c => if a.lt (ofB32 c) then ofB32 c else a) Num.zero
    if m.isZero then entI8 e Ex.shift
    else max (-126) (min 126 ((31 - (entF e Ex.headroom : Int)) - (m.ceilLog2 + s.margin)))

/-- `EXCH_OPEN`. -/
def State.exchOpen (s : State) : State := match s.exchHead 0x53 with
  | none => s
  | some f =>
    if s.exch.run.isSome then s.exchFinish
    else
      let c := f.q.cue
      let b := c.xBucket
      let e := s.bucket b
      let busy := if s.ownerChecks c ≠ [.exchBucket] ∧ entF e Ex.state ≠ exSettled then [Code.exchBusy] else []
      match leastCode (s.ownerChecks c ++ busy) with
      | some code => s.exchHalt f.q.uid code
      | none =>
        let sh := s.nextShift e
        let gen := BitVec.ofNat 16 (entF e Ex.gen + 1)
        let e := entSet (entSet (entSet e (352, 224) 0) Ex.gen gen.toNat) Ex.shift (bvI 8 sh).toNat
        let s := (s.startFlight f.q.uid).setBucket b e
        let s := s.zeroPmask e
        let s := if c.xZeroAcc then s.zeroAcc e else s
        let s := { s with exch := { s.exch with run := some ⟨f.q.uid, 0, false, false⟩ } }
        let s := ((entNotify e).filter (· != s.coreId)).foldl (fun s d =>
          s.sendSync d 3 b gen (bvI 8 sh) (some f.q.uid)) s
        s.exchFinish

/-! The owner's replay table (R399). -/

/-- An answer: ACK (8), NAK (9) or REFUSED (10). -/
def State.exchAnswer (s : State) (dst : BitVec 12) (kind ch bucket gen seq : Nat) : State :=
  s.sendPacket dst 0xA ch (exHead bucket gen seq 0 kind ch)

/-- A sequenced operation: applied in SEQ order, dropped as a duplicate, or answered with NAK. `f` applies it and says
whether it was not refused. -/
def State.sequenced (s : State) (src : BitVec 12) (ch : Nat) (seq : BitVec 32) (bucket gen : Nat) (f : State → Bool × State) :
    State :=
  let k := exKey src ch
  let go (s : State) : State :=
    let r := f s
    let s := { r.2 with exch := { r.2.exch with replay := NMap.set none r.2.exch.replay k (some seq) } }
    s.exchAnswer src (if r.1 then 8 else 10) ch bucket gen seq.toNat
  match NMap.get none s.exch.replay k with
  | none => go s
  | some last =>
    if seq = last + 1 then go s
    else if (last - seq).toNat < 2 ^ 31 then (s.count R.exchDup 1).exchAnswer src 8 ch bucket gen seq.toNat
    else (s.count R.exchNak 1).exchAnswer src 9 ch bucket gen last.toNat

/-- A bucket of this core that is OPEN or REPAIRING. -/
def State.bucketLive (s : State) (b : Nat) : Bool :=
  s.bucketOk b && entOwned (s.bucket b) && (s.bf b Ex.state == exOpen || s.bf b Ex.state == exRepairing)

/-- Sets the bit of a group's part in FAIL_MASK. -/
def State.failPart (s : State) (b g : Nat) : State :=
  let e := s.bucket b
  s.setBucket b (entSet e Ex.failMask (entF e Ex.failMask ||| 2 ^ entPart e g))

/-- A stray operation's record (R400, R402). -/
def State.exchStray (s : State) (b : Nat) : State :=
  (s.count R.exchStray 1).logRecord (FaultRec.plain 1 0x20 Code.exchStray.num b 7)

/-- A refused operation (R400). -/
def State.refuseOp (s : State) (b : Nat) (group : Option Nat) : Bool × State :=
  let s := match group with
    | some g => if s.bucketLive b then s.failPart b g else s
    | none => s
  (false, (s.count R.exchRefused 1).exchStray b)

/-- An operation whose GEN is the entry's, on a bucket that takes operations (R400). -/
def State.takesOp (s : State) (b : Nat) (gen : BitVec 16) : Bool := s.bucketLive b && s.bf b Ex.gen == gen.toNat

/-- Both ends of a range of at most a page may be written by the adders (R249). -/
def State.addersOk (s : State) (a n : Nat) : Bool := s.remoteWriteOk a && s.remoteWriteOk (a + n - 1)

/-- One accumulator word: the first `l.length` of its elements take contributions, saturated at ±(2^63 − 2); the word's
poison stays (R400). It answers whether the word was poisoned. -/
def State.addWord (s : State) (a : Nat) (l : List Int) : Bool × State :=
  let r := s.readWord (a / 64)
  let vals := (List.range 8).map fun i =>
    let v := (BitVec.ofNat 64 (numOf ((r.1.1.drop (8 * i)).take 8))).toInt
    match l[i]? with
    | some n => (max (-rawTop) (min rawTop (v + n)), decide (v + n < -rawTop ∨ rawTop < v + n))
    | none => (v, false)
  let s := r.2.count R.exchSat (vals.countP (·.2))
  (r.1.2, s.landWord a ((vals.map fun v => bytesOf 8 (BitVec.ofInt 64 v.1).toNat).flatten) r.1.2)

/-- An ACCUMULATE (R400). -/
def State.accumulateOp (s : State) (b : Nat) (gen : BitVec 16) (group count : Nat) (pmask : BitVec 64) (data : List (BitVec 32)) :
    Bool × State :=
  let e := s.bucket b
  let a := entF e Ex.accBase + 512 * group
  let p := entF e Ex.pmaskBase + 8 * group
  let pm := pmask.toNat % 2 ^ count
  if s.takesOp b gen = false then s.refuseOp b (some group)
  else if s.fatal ∨ s.addersOk a (8 * count) = false ∨ s.remoteWriteOk p = false then
    (s.count R.propRemoteRefused 1).refuseOp b (some group)
  else
    let l := (data.take count).map (·.toInt)
    let r := iter ((count + 7) / 8) (fun i (st : Nat × State) =>
      let q := st.2.addWord (a + 64 * i) ((l.drop (8 * i)).take 8)
      (if q.1 then st.1 ||| (0xFF <<< (8 * i)) else st.1, q.2)) (pm, s)
    let s := r.2
    let s := if r.1 = 0 then s
      else
        let old := s.readWord (p / 64)
        let was := numOf ((old.1.1.drop (p % 64)).take 8)
        old.2.landWord p (bytesOf 8 (was ||| r.1)) old.1.2
    (true, s.count64 R.exchAppliedLo R.exchAppliedHi 1)

/-- The generation completes (R403): only its first completion closes the tracker pass and posts. -/
def State.bucketCompletes (s : State) (b : Nat) : State :=
  let e := s.bucket b
  let first : Bool := entF e Ex.state == exOpen
  let s := s.setBf b Ex.state (if entF e Ex.failMask = 0 then exComplete else exHeld)
  if first = false then s
  else
    let s := s.passClose (entF e Ex.trk)
    if entF e Ex.doneCtr < 64 then s.post (entF e Ex.doneCtr) 1 else s

/-- A CLOSE that is applied (R402): on a bucket that takes operations, and also one that takes ARRIVED above EXPECT. -/
def State.takesClose (s : State) (b : Nat) (gen : BitVec 16) (count : Nat) : Bool :=
  s.takesOp b gen || (s.bucketOk b && entOwned (s.bucket b) && s.bf b Ex.gen == gen.toNat
    && decide (s.bf b Ex.expect < s.bf b Ex.arrived + count))

/-- A CLOSE (R402). -/
def State.closeOp (s : State) (b : Nat) (gen : BitVec 16) (count : Nat) (max : BitVec 32) (sum fail : BitVec 64) : Bool × State :=
  if s.takesClose b gen count = false then s.refuseOp b none
  else
    let e := s.bucket b
    let was := entF e Ex.arrived
    let now := was + count
    let s := if entF e Ex.state = exOpen then (s.passOpen (entF e Ex.trk) .i32).passNote (entF e Ex.trk) (ofB32 max) else s
    let e := entSet e Ex.arrived now
    let e := entSet e Ex.ownSum (BitVec.ofNat 64 (entF e Ex.ownSum) + sum).toNat
    let e := entSet e Ex.failMask (entF e Ex.failMask ||| fail.toNat)
    let e := if (ofB32 (BitVec.ofNat 32 (entF e Ex.ownMax))).lt (ofB32 max) then entSet e Ex.ownMax max.toNat else e
    let late : Bool := decide (entF e Ex.expect < now)
    let s := s.setBucket b (if late then entSet e Ex.failMask (2 ^ 64 - 1) else e)
    let s := if late then s.exchStray b else s
    (true, if was < entF e Ex.expect ∧ entF e Ex.expect ≤ now then s.bucketCompletes b else s)

/-- A SKIP (R401). -/
def State.skipOp (s : State) (b : Nat) (gen : BitVec 16) (group : Nat) : Bool × State :=
  if s.takesOp b gen then (true, s.failPart b group) else s.refuseOp b (some group)

/-! Sync operations that arrive. -/

/-- A NOTICE (R388). -/
def State.noticeIn (s : State) (b : Nat) (gen : BitVec 16) (shift : BitVec 8) : State :=
  let d := genAhead gen (BitVec.ofNat 16 (s.bf b Ex.gen))
  if s.bucketOk b ∧ 1 ≤ d ∧ d ≤ 0x7FFF then (s.setBf b Ex.gen gen.toNat).setBf b Ex.shift shift.toNat else s

/-- A RESEND (R407): its first copy alone is acted on (R393), from retain planes of its generation. -/
def State.resendIn (s : State) (src : BitVec 12) (b : Nat) (gen : BitVec 16) (att : BitVec 3) : State :=
  let e := s.bucket b
  let old := NMap.get [] s.exch.acted b
  let key := (src.toNat, gen.toNat, att.toNat)
  if old.contains key then s
  else
    let s := { s with exch := { s.exch with acted := NMap.put s.exch.acted b (key :: old) } }
    let s := if s.bucketOk b then s.setBf b Ex.served att.toNat else s
    if s.bucketOk b ∧ entRetain e ∧ NMap.get 0 s.exch.retGen b = gen.toNat + 1 ∧ s.localRangeOk (entF e Ex.retainBase) (retainBytes e) then
      ({ s with exch := { s.exch with serves := s.exch.serves ++ [ExServe.mk b 0] } }).exchPump
    else s.sendSync src 5 b gen (att.setWidth 8) none

/-- An UNABLE (R406): the repair it answers has failed. -/
def State.unableIn (s : State) (b : Nat) (gen : BitVec 16) (att : BitVec 3) : State :=
  let e := s.bucket b
  if s.bucketOk b = false ∨ entOwned e = false ∨ entF e Ex.state ≠ exRepairing ∨ entF e Ex.gen ≠ gen.toNat
      ∨ entF e Ex.attempt ≠ att.toNat then s
  else
    let s := s.setBf b Ex.state exFailed
    match s.exch.run with
    | none => s
    | some r => match s.flight r.uid with
      | some f => if f.opcode = 0x52 ∧ f.q.cue.xBucket = b then s.exchHalt r.uid .exchRepairFailed else s
      | none => s

/-! Answers and timeouts at the sender (R393, R395, R401). -/

/-- An operation of a stream with a SEQ. -/
def ExOp.is (o : ExOp) (dst : BitVec 12) (ch : Nat) (seq : BitVec 32) : Bool := o.dst == dst && o.ch == ch && o.seq == seq

/-- What follows an answer: the engine goes on, and posts that waited for it leave (R425). -/
def State.answered (s : State) : State := s.exchPump.pumpPosts

/-- An ACK: the operation with that SEQ, or the oldest sync operation where SEQ is 0 and none has it. -/
def State.exchAckIn (s : State) (src : BitVec 12) (ch : Nat) (seq : BitVec 32) : State :=
  if s.exch.ops.any (·.is src ch seq) then
    ({ s with exch := { s.exch with ops := s.exch.ops.filter fun o => !o.is src ch seq } }).answered
  else if ch = 0 ∧ seq = 0 then match findIdx? (fun o : SyncOp => o.dst == src) s.exch.syncs with
    | some i => ({ s with exch := { s.exch with syncs := listDrop1 s.exch.syncs i } }).answered
    | none => s
  else s

/-- An operation's part has failed for good (R401). -/
def State.partFailed (s : State) (o : ExOp) : State :=
  let e := s.bucket o.bucket
  let mark (g : Nat) (s : State) : State :=
    s.setBucket o.bucket (entSet e Ex.sendFail (entF e Ex.sendFail ||| 2 ^ entPart e g))
  let s := match o.body with
    | .acc g _ => mark g s
    | .retained g => mark g s
    | _ => s
  (s.count R.exchPartFailed 1).logRecord (FaultRec.plain 1 0x20 Code.exchPartFailed.num o.bucket 7)

/-- A REFUSED (R401). -/
def State.refusedIn (s : State) (src : BitVec 12) (ch : Nat) (seq : BitVec 32) : State :=
  match s.exch.ops.find? (·.is src ch seq) with
  | none => s
  | some o =>
    let s := if o.open then s.partFailed o else s
    ({ s with exch := { s.exch with ops := s.exch.ops.filter fun o => !o.is src ch seq } }).answered

/-- The group a SKIP names for the operation it replaces; a CLOSE has none and takes 0 (DESIGN CHOICE, log entry 18). -/
def ExBody.group : ExBody → Nat
  | .acc g _ => g
  | .retained g => g
  | .skip g => g
  | .close _ _ _ _ => 0

/-- One re-send (R395), with a new count of EXCH_ACK_TICKS; an operation whose source's pages are absent is left to the next
one. Past RETRY_LIMIT the part fails for good and a SKIP takes the SEQ (R401). -/
def State.resendOp (s : State) (o : ExOp) : State :=
  let put (s : State) (n : ExOp) : State :=
    { s with exch := { s.exch with ops := s.exch.ops.map fun x => if x.is o.dst o.ch o.seq then n else x } }
  if o.open ∧ s.regF R.exchCtrl 8 4 ≤ o.tries then
    let s := s.partFailed o
    let n : ExOp := { o with body := .skip o.body.group, tries := 0 }
    ((put s n).restart (.exchange o.dst o.ch o.seq)).sendOp n
  else
    let pages := match o.body with
      | .acc g x => s.spanPages x.handle (x.span g).1 (x.span g).2
      | _ => []
    let rdy := s.pagesReady pages
    let n : ExOp := { o with tries := o.tries + 1 }
    if rdy.1 then (((put rdy.2 n).count R.exchRetry 1).restart (.exchange o.dst o.ch o.seq)).sendOp n else rdy.2

/-- Re-sends the outstanding operations of a stream that `p` takes, in order. -/
def State.goBack (s : State) (dst : BitVec 12) (ch : Nat) (p : ExOp → Bool) : State :=
  ((s.exch.ops.filter fun o => o.dst == dst && o.ch == ch && p o).foldl (fun s o => s.resendOp o) s).answered

/-- A NAK (R395): every operation with a SEQ above LAST. -/
def State.nakIn (s : State) (src : BitVec 12) (ch : Nat) (last : BitVec 32) : State :=
  s.goBack src ch fun o => decide (1 ≤ (o.seq - last).toNat ∧ (o.seq - last).toNat < 2 ^ 31)

/-- An exchange operation or a sync operation has had no answer for EXCH_ACK_TICKS (R393, R395). -/
def State.lapsed (s : State) (t : Timer) : Bool := decide ((s.reg R.exchAckTicks).toNat ≤ s.age t)

def SyncOp.timer (o : SyncOp) : Timer := .sync o.dst o.kind o.bucket o.gen o.arg

/-- A sync operation without its ACK (R393): sent again up to RETRY_LIMIT times, then given up; whatever waits on it
waits. -/
def State.syncTimeout (s : State) (i : Nat) : State := match s.exch.syncs[i]? with
  | none => s
  | some o =>
    if s.regF R.exchCtrl 8 4 ≤ o.tries ∨ s.lapsed o.timer = false then s
    else
      let s := { s.restart o.timer with exch := { s.exch with syncs := listSet s.exch.syncs i { o with tries := o.tries + 1 } } }
      (s.count R.exchRetry 1).sendPacket o.dst 6 0 (syncBytes o.kind o.bucket o.gen.toNat o.arg)

/-- A write of EXCH_REPLAY_CLEAR (R414). -/
def State.replayWrite (s : State) (v : Word) : State :=
  let src := field v 0 12
  let r := if bit v 12 then [] else (List.range 4).foldl (fun m c => NMap.del m (exKey src c)) s.exch.replay
  { s with exch := { s.exch with replay := r } }

/-! The commands. -/

/-- R385. -/
def execExchBucketSet (s : State) : Host.Outcome State Fault Refusal := (s.bucketSet).done

/-- R390. -/
def execExchSend (s : State) : Host.Outcome State Fault Refusal := (s.exchSend).done

/-- R404. -/
def execExchSettle (s : State) : Host.Outcome State Fault Refusal := (s.exchSettle).done

/-- R408. -/
def execExchOpen (s : State) : Host.Outcome State Fault Refusal := (s.exchOpen).done

/-- R400. -/
def execAccumulate (src : BitVec 12) (bucket gen : BitVec 16) (seq : BitVec 32) (group : BitVec 16) (count : BitVec 7)
    (ch : BitVec 2) (pmask : BitVec 64) (data : List (BitVec 32)) (s : State) : Host.Outcome State Fault Refusal :=
  let b := bucket.toNat
  (s.serveOp (isPacket 2 src (accBytes b gen.toNat seq.toNat group.toNat count.toNat ch.toNat pmask.toNat data)) fun s =>
    s.sequenced src ch.toNat seq b gen.toNat fun s => s.accumulateOp b gen group.toNat count.toNat pmask data).done

/-- R402. -/
def execClose (src : BitVec 12) (bucket gen : BitVec 16) (seq : BitVec 32) (count : BitVec 20) (ch : BitVec 2)
    (max : BitVec 32) (sum fail : BitVec 64) (s : State) : Host.Outcome State Fault Refusal :=
  let b := bucket.toNat
  (s.serveOp (isPacket 2 src (closeBytes b gen.toNat seq.toNat count.toNat ch.toNat max sum fail)) fun s =>
    s.sequenced src ch.toNat seq b gen.toNat fun s => s.closeOp b gen count.toNat max sum fail).done

/-- R401. -/
def execSkip (src : BitVec 12) (bucket gen : BitVec 16) (seq : BitVec 32) (group : BitVec 16) (ch : BitVec 2) (s : State) :
    Host.Outcome State Fault Refusal :=
  let b := bucket.toNat
  (s.serveOp (isPacket 2 src (skipBytes b gen.toNat seq.toNat group.toNat ch.toNat)) fun s =>
    s.sequenced src ch.toNat seq b gen.toNat fun s => s.skipOp b gen group.toNat).done

/-- A sync operation: answered with an ACK whose SEQ is 0 (R393), then acted on. -/
def State.syncIn (s : State) (src : BitVec 12) (kind bucket : Nat) (gen : BitVec 16) (arg : BitVec 8) (f : State → State) :
    State :=
  s.serveOp (isPacket 6 src (syncBytes kind bucket gen.toNat arg)) fun s =>
    f (s.exchAnswer src 8 0 bucket gen.toNat 0)

/-- R388. -/
def execNotice (src : BitVec 12) (bucket gen : BitVec 16) (shift : BitVec 8) (s : State) : Host.Outcome State Fault Refusal :=
  (s.syncIn src 3 bucket.toNat gen shift fun s => s.noticeIn bucket.toNat gen shift).done

/-- R407. -/
def execResend (src : BitVec 12) (bucket gen : BitVec 16) (attempt : BitVec 3) (s : State) : Host.Outcome State Fault Refusal :=
  (s.syncIn src 4 bucket.toNat gen (attempt.setWidth 8) fun s => s.resendIn src bucket.toNat gen attempt).done

/-- R406. -/
def execUnable (src : BitVec 12) (bucket gen : BitVec 16) (attempt : BitVec 3) (s : State) : Host.Outcome State Fault Refusal :=
  (s.syncIn src 5 bucket.toNat gen (attempt.setWidth 8) fun s => s.unableIn bucket.toNat gen attempt).done

/-- R395. -/
def execExchAck (src : BitVec 12) (ch : BitVec 2) (seq : BitVec 32) (s : State) : Host.Outcome State Fault Refusal :=
  (s.serveOp (isExRsp 8 src ch.toNat seq.toNat) fun s => s.exchAckIn src ch.toNat seq).done

/-- R395. -/
def execExchNak (src : BitVec 12) (ch : BitVec 2) (last : BitVec 32) (s : State) : Host.Outcome State Fault Refusal :=
  (s.serveOp (isExRsp 9 src ch.toNat last.toNat) fun s => s.nakIn src ch.toNat last).done

/-- R401. -/
def execRefused (src : BitVec 12) (ch : BitVec 2) (seq : BitVec 32) (s : State) : Host.Outcome State Fault Refusal :=
  (s.serveOp (isExRsp 10 src ch.toNat seq.toNat) fun s => s.refusedIn src ch.toNat seq).done

/-- R395: the oldest operation of the stream has had no answer for EXCH_ACK_TICKS. -/
def execExchAckTimeout (dst : BitVec 12) (ch : BitVec 2) (s : State) : Host.Outcome State Fault Refusal :=
  (if s.localServes && s.exch.ops.any (fun o => o.dst == dst && o.ch == ch.toNat && s.lapsed (.exchange o.dst o.ch o.seq)) then
    s.goBack dst ch.toNat fun _ => true else s).done

/-- R393. -/
def execSyncOpTimeout (i : Nat) (s : State) : Host.Outcome State Fault Refusal :=
  (if s.localServes then s.syncTimeout i else s).done

/-- R414. -/
def execReplayClearSource (data : Word) (s : State) : Host.Outcome State Fault Refusal :=
  (s.hostWrite R.exchReplayClear fun s => s.replayWrite data).done

/-- R414. -/
def execReplayClearAll (s : State) : Host.Outcome State Fault Refusal :=
  (s.hostWrite R.exchReplayClear fun s => s.replayWrite 0x1000).done

end Sys2Proof.Machine
end

