-- ==== Sys2Proof/Machine/Sha.lean ====
section
/-! DEFINITION. SHA-256 and HMAC-SHA-256 over bytes, the functions R484 and R485 name (FIPS 180-4, RFC 2104). -/

namespace Sys2Proof.Machine

/-- Whether a number below 361 is prime: no smaller number below 19 divides it. -/
def primeBelow361 (n : Nat) : Bool := decide (2 ≤ n) && (List.range 19).all fun d => decide (d < 2) || decide (n ≤ d) || n % d != 0

/-- The integer part of the `e`-th root of a number below 2 ^ (36 e), bit by bit from the highest. -/
def rootFloor (e n : Nat) : Nat := iter 36 (fun i r => if (r + 2 ^ (35 - i)) ^ e ≤ n then r + 2 ^ (35 - i) else r) 0

/-- The first 32 bits of the fraction of the `e`-th root of each prime up to `top` (FIPS 180-4, 4.2.2 and 5.3.3). -/
def rootBits (e top : Nat) : List (BitVec 32) :=
  ((List.range (top + 1)).filter primeBelow361).map fun p => BitVec.ofNat 32 (rootFloor e (p * 2 ^ (32 * e)))

/-- The round constants: cube roots of the first 64 primes, of which 311 is the last. -/
def shaK : List (BitVec 32) := rootBits 3 311

/-- The initial hash value: square roots of the first eight primes. -/
def shaInit : List (BitVec 32) := rootBits 2 19

/-- One word of the message schedule from the sixteen before it, newest first. -/
def shaNext (w : List (BitVec 32)) : BitVec 32 :=
  let x (i : Nat) : BitVec 32 := listGet 0 w (i - 1)
  let s0 := (x 15).rotateRight 7 ^^^ (x 15).rotateRight 18 ^^^ (x 15 >>> 3)
  let s1 := (x 2).rotateRight 17 ^^^ (x 2).rotateRight 19 ^^^ (x 2 >>> 10)
  x 16 + s0 + x 7 + s1

/-- The schedule of a block of sixteen words. -/
def shaSchedule (m : List (BitVec 32)) : List (BitVec 32) :=
  (iter 48 (fun _ w => shaNext w :: w) m.reverse).reverse

/-- One round on the working variables a to h. -/
def shaRound (v : List (BitVec 32)) (kw : BitVec 32) : List (BitVec 32) := match v with
  | [a, b, c, d, e, f, g, h] =>
    let s1 := e.rotateRight 6 ^^^ e.rotateRight 11 ^^^ e.rotateRight 25
    let t1 := h + s1 + ((e &&& f) ^^^ (~~~e &&& g)) + kw
    let s0 := a.rotateRight 2 ^^^ a.rotateRight 13 ^^^ a.rotateRight 22
    let t2 := s0 + ((a &&& b) ^^^ (a &&& c) ^^^ (b &&& c))
    [t1 + t2, a, b, c, d + t1, e, f, g]
  | v => v

/-- The compression of one block. -/
def shaBlock (h m : List (BitVec 32)) : List (BitVec 32) :=
  let kw := List.zipWith (· + ·) shaK (shaSchedule m)
  List.zipWith (· + ·) h (kw.foldl shaRound h)

/-- A word from four bytes, most significant first. -/
def shaWord (l : List Byte) : BitVec 32 := BitVec.ofNat 32 (numOf l.reverse)

/-- The words of `n` groups of four bytes. -/
def shaWords (n : Nat) (l : List Byte) : List (BitVec 32) := (List.range n).map fun i => shaWord ((l.drop (4 * i)).take 4)

/-- The padded message: 0x80, zeros and the bit length. -/
def shaPad (l : List Byte) : List Byte :=
  l ++ [0x80#8] ++ List.replicate ((119 - l.length % 64) % 64) 0#8 ++ (bytesOf 8 (8 * l.length)).reverse

/-- SHA-256 of a list of bytes. -/
def sha256 (l : List Byte) : List Byte :=
  let p := shaPad l
  let h := iter (p.length / 64) (fun i h => shaBlock h (shaWords 16 ((p.drop (64 * i)).take 64))) shaInit
  (h.map fun (w : BitVec 32) => (bytesOf 4 w.toNat).reverse).flatten

/-- HMAC-SHA-256 under a key of at most 64 bytes. -/
def hmac (key msg : List Byte) : List Byte :=
  let k := key ++ List.replicate (64 - key.length) 0#8
  sha256 (k.map (· ^^^ 0x5C#8) ++ sha256 (k.map (· ^^^ 0x36#8) ++ msg))

end Sys2Proof.Machine
end

