-- ==== Sys2Proof/Machine/Links.lean ====
section
/-! DEFINITION. Link ports (R428 to R435, R443, R444, R448): flits on a channel, go-back, retirement, handover and bring-up. -/

namespace Sys2Proof.Machine

/-! Readiness (R488, R515). -/

/-- A port that bring-up waits for no longer: not in use, UP, DOWN or held (R444). -/
def State.portSettled (s : State) (p : Nat) : Bool :=
  let st := (s.port p).state
  !s.portEn p || (st != .training && st != .disabled && st != .resetting)

/-- READY rises (R488), and with it ARMED (R515) and the READY source (R540), when every port in use has settled. -/
def State.checkReady (s : State) : State :=
  if s.phase = .bringUp ∧ (List.range s.build.ports).all s.portSettled then
    ((({ s with phase := .up }).setB R.ctlStatus 0 true).setB R.tabStatus 0 true).latchIrq 0
  else s

/-! Channels. -/

/-- A channel's number in a fault record (R523). -/
def chanAddr (p c : Nat) : Nat := 256 * p + c

/-- The channels of a port that are live. -/
def State.liveChans (s : State) (p : Nat) : List Nat := [0, 1, 2, 3].filter fun c => (s.chan p c).state == .live

/-- A LINK flit on every trained channel. -/
def State.sendLinks (s : State) (p : Nat) (bytes : List Byte) : State :=
  (s.liveChans p).foldl (fun s c => s.sendLink p c bytes) s

/-- `fab_train_req` of a channel driven to a level. -/
def State.trainReq (s : State) (p c : Nat) (v : Bool) : State :=
  if (s.chan p c).req = v then s
  else (s.setChan p c { s.chan p c with req := v }).emit (.trainReq p c v)

/-- A channel that is to be trained from nothing: idle, its retirement cleared, training requested when the PHY is ready. -/
def State.freshChan (s : State) (p c : Nat) : State :=
  let ch := s.chan p c
  let s := s.setChan p c { ChanSt.init with state := .idle, ready := ch.ready, req := ch.req }
  if ch.ready then s.trainReq p c true else s

/-- Every channel of a port starts afresh. -/
def State.freshChans (s : State) (p : Nat) : State := iter 4 (fun c s => s.freshChan p c) s

/-- Bring-up of a port (R444 step 2). -/
def State.bringUp (s : State) (p : Nat) : State :=
  (s.setPort p ⟨.training, 0, none, none, false⟩).freshChans p

/-- Flits the router holds for a port take another way (R435, R438): the one that has counted this router already. -/
def State.reroute (s : State) (p : Nat) : State :=
  let l := ([0, 1, 2, 3].map fun k => s.waiting p k).flatten
  let s := iter 4 (fun k s => s.setWaiting p k []) s
  l.foldl (fun s f => s.routeFlit none (f.setF 52 12 (f.hops - 1))) s

/-- A port without a live channel: its flits are lost or go another way, and it keeps trying (R435, R444). -/
def State.enterDown (s : State) (p : Nat) : State :=
  ((s.setPort p { s.port p with state := .down, own := none, heard := none, retry := true }).freshChans p).reroute p

/-- A link goes down (R435). -/
def State.linkDown (s : State) (p : Nat) : State :=
  (s.logRecord (FaultRec.plain 2 unitFabric Code.fabLinkDown.num (chanAddr p 0) 4)).enterDown p

/-- HANDOVER of a retired channel on the lowest live one (R434): a request, or the reply to one. -/
def State.sendHandover (s : State) (p r : Nat) (reply : Bool) : State := match s.liveChans p with
  | [] => s
  | c :: _ => s.sendLink p c ([4#8, BitVec.ofNat 8 r] ++ bytesOf 2 (s.chan p r).rx.toNat ++ [if reply then 1#8 else 0#8])

/-- Handovers that wait for a live channel are asked for again when one has come back (R448). -/
def State.askHandovers (s : State) (p : Nat) : State :=
  iter 4 (fun r s => if (s.chan p r).handing = [] then s else s.sendHandover p r false) s

/-- A channel retires (R433): a record, unless a DOWN port retries (R444). -/
def State.retireChan (s : State) (p c : Nat) : State :=
  let carried := [0, 1, 2, 3].filter fun k => s.carrier p k == some c
  let up : Bool := (s.port p).state == .up
  let s := s.trainReq p c false
  let s := s.setChan p c { s.chan p c with state := .retired, handing := if up then carried else [], win := [] }
  if (s.port p).retry then s else s.logRecord (FaultRec.plain 2 unitFabric Code.fabChRetired.num (chanAddr p c) 4)

/-- What a retirement leads to on a link that was up (R434, R435): a HANDOVER, the reply where the partner asked first. -/
def State.afterRetire (s : State) (p c : Nat) (reply : Bool) : State :=
  if (s.port p).state ≠ .up then s
  else if [0, 1, 2, 3].all fun k => (s.chan p k).state == .retired then s.linkDown p
  else s.sendHandover p c reply

/-- Flits of a replay buffer above an LSEQ (R430). -/
def flitsAbove (last : BitVec 10) (l : List Flit) : List Flit :=
  l.filter fun f => decide (1 ≤ (f.lseq - last).toNat ∧ (f.lseq - last).toNat < 512)

/-- Flits of a class. -/
def flitsOf (k : Nat) (l : List Flit) : List Flit := l.filter fun f => f.ch == k

/-- The LSEQ before that of the oldest flit of a replay buffer, `d` where it is empty. -/
def beforeOldest (d : BitVec 10) : List Flit → BitVec 10
  | [] => d
  | f :: _ => f.lseq - 1

/-- A go-back (R430): the flits above `last` leave again, and the replay counts; the sixteenth in the window retires the
channel (R433). -/
def State.goBackChan (s : State) (p c : Nat) (last : BitVec 10) : State :=
  let ch := s.chan p c
  let rest := flitsAbove last ch.replay
  let win := (ch.win.filter fun t => decide ((s.tick - t).toNat ≤ 2 ^ 20)) ++ [s.tick]
  let s := (s.setChan p c { ch with replay := rest, win := win }).count (R.fabChReplay p c) 1
  if 16 ≤ win.length then (s.retireChan p c).afterRetire p c false
  else rest.foldl (fun s f => s.emit (.flit p c f)) s

/-! Flits received. -/

/-- The port hears the channel: it exists and the channel has not retired (R433). -/
def State.hears (s : State) (p c : Nat) : Bool :=
  decide (p < s.build.ports) && (s.phase == .up || s.phase == .bringUp) && s.pstate != 3
    && (s.port p).state != .disabled && (s.chan p c).state == .live

/-- `LINK_ACK` (R429, R431). -/
def State.linkAck (s : State) (p c : Nat) (payload : BitVec 416) : State :=
  if s.hears p c = false then s
  else
    let last : BitVec 10 := field payload 16 10
    let ch := s.chan p c
    let rest := flitsAbove last ch.replay
    let cr := (List.range 6).map fun i => min 32 (listGet 0 ch.credits i + fieldN payload (32 + 8 * i) 8)
    (s.setChan p c { ch with replay := rest, credits := cr }).pump p

/-- `LINK_NAK` (R430). -/
def State.linkNak (s : State) (p c : Nat) (last : BitVec 10) : State :=
  if s.hears p c then (s.goBackChan p c last).pump p else s

/-- `REPLAY_TIMEOUT` (R430): no ACK has advanced for 2^10 ticks. -/
def State.replayTimeout (s : State) (p c : Nat) : State :=
  let r := (s.chan p c).replay
  let t : Timer := .replay p c (beforeOldest 0 r)
  if s.hears p c = false ∨ r = [] ∨ s.age t < 2 ^ 10 then s
  else ((s.restart t).goBackChan p c (beforeOldest 0 r)).pump p

/-- `HANDOVER` (R434): the other side's report for channel `r`, in a request, which is answered, or in a reply. The flits above
it go ahead of newer ones of their classes. -/
def State.handover (s : State) (p r : Nat) (last : BitVec 10) (reply : Bool) : State :=
  if s.liveChans p = [] ∨ (s.port p).state ≠ .up then s
  else
    let s := if (s.chan p r).state ≠ .retired then (s.retireChan p r).afterRetire p r true
      else if reply then s else s.sendHandover p r true
    let ch := s.chan p r
    if ch.handing = [] then s
    else
      let rest := flitsAbove last ch.replay
      let s := s.setChan p r { ch with replay := [], handing := [] }
      let s := iter 4 (fun k s => s.setWaiting p k (flitsOf k rest ++ s.waiting p k)) s
      s.pump p

/-- A port goes UP once both sides accept and every channel has an outcome (R443, R444 steps 4 and 5). -/
def State.tryUp (s : State) (p : Nat) : State :=
  let x := s.port p
  if x.state = .training ∧ x.own = some false ∧ x.heard = some false
      ∧ [0, 1, 2, 3].all (fun c => (s.chan p c).state != .idle) then
    ((s.setPort p { x with state := .up, retry := false }).pump p).checkReady
  else s

/-- A held port (R443): its record names the peer. -/
def State.holdPort (s : State) (p : Nat) (st : PortState) : State :=
  let x := s.port p
  ((s.setPort p { x with state := st }).logRecord
    (FaultRec.plain 2 unitFabric Code.fabPeerInvalid.num x.peer.toNat 6)).checkReady

/-- The peer's verdict takes effect once the own checks accept. -/
def State.weighVerdict (s : State) (p : Nat) : State :=
  let x := s.port p
  if x.state ≠ .training ∨ x.own ≠ some false then s
  else match x.heard with
    | some true => s.holdPort p .peerHeld
    | some false => s.tryUp p
    | none => s

/-- `HELLO` (R443). -/
def State.hello (s : State) (p : Nat) (peer : BitVec 12) : State :=
  let x := s.port p
  if p < s.build.ports ∧ x.state = .training ∧ x.own = none ∧ s.liveChans p ≠ [] then
    let cfg := R.fabPortCfg p
    let bad : Option PortState :=
      if peer = s.coreId then some .dupId
      else if s.regB cfg 5 ∧ s.regF cfg 16 12 ≠ peer.toNat then some .peerMismatch else none
    let s := s.setPort p { x with peer := peer, own := some bad.isSome }
    let s := s.sendLinks p [5#8, if bad.isSome then 1#8 else 0#8]
    match bad with
    | some st => s.holdPort p st
    | none => s.weighVerdict p
  else s

/-- `VERDICT` (R443): true holds the port. -/
def State.verdict (s : State) (p : Nat) (v : Bool) : State :=
  let x := s.port p
  if p < s.build.ports ∧ x.state = .training ∧ x.heard = none ∧ s.liveChans p ≠ [] then
    (s.setPort p { x with heard := some v }).weighVerdict p
  else s

/-- A LINK flit that came as a flit. -/
def State.linkIn (s : State) (p c : Nat) (f : Flit) : State :=
  let w : BitVec 416 := field f 64 416
  let last : BitVec 10 := field w 16 10
  match fieldN w 0 8 with
  | 1 => s.linkAck p c w
  | 2 => s.linkNak p c last
  | 3 => s.hello p (field w 16 12)
  | 4 => s.handover p (fieldN w 8 2) last (fieldN w 32 8 != 0)
  | 5 => s.verdict p (fieldN w 8 8 != 0)
  | _ => s

/-- `FLIT_ACCEPT` (R428 to R431, R443): credits of a flit that goes on return at once, of one for this core when the local
port takes its packet. -/
def State.flitAccept (s : State) (p c : Nat) (f : Flit) : State :=
  if s.hears p c = false then s
  else if f.crcOk = false then
    let s := s.count (R.fabChCrc p c) 1
    if f.opc = 0xF ∨ (s.port p).state ≠ .up then s else s.sendLink p c ([2#8, 0#8] ++ bytesOf 2 (s.chan p c).rx.toNat)
  else if f.opc = 0xF then s.linkIn p c f
  else if (s.port p).state ≠ .up then s
  else if f.lseq ≠ (s.chan p c).rx + 1 then s.sendLink p c ([2#8, 0#8] ++ bytesOf 2 (s.chan p c).rx.toNat)
  else
    let s := s.setChan p c { s.chan p c with rx := f.lseq }
    let here : Bool := f.dest == s.coreId && !opcReserved f.opc
    (s.routeFlit (some (p, c)) f).sendAck p c
      ((List.range 6).map fun i => if here = false ∧ i = f.lv then 1 else 0)

/-! Training. -/

/-- What follows an outcome of a channel's training in bring-up. -/
def State.trainOutcome (s : State) (p : Nat) : State :=
  if (s.port p).state ≠ .training then s
  else if [0, 1, 2, 3].all fun c => (s.chan p c).state == .retired then (s.enterDown p).checkReady
  else s.tryUp p

/-- `FAB_PHY_READY` (R444 steps 1 and 2). -/
def State.phyReady (s : State) (p c : Nat) : State :=
  if s.build.ports ≤ p then s
  else
    let s := s.setChan p c { s.chan p c with ready := true }
    let st := (s.port p).state
    if (st = .training ∨ st = .down) ∧ (s.chan p c).state = .idle then s.trainReq p c true else s

/-- `FAB_TRAIN_DONE` (R432, R443, R444): LSEQ starts from 0 at the training of bring-up; a retrained channel goes back. -/
def State.trainDone (s : State) (p c : Nat) : State :=
  let ch := s.chan p c
  let x := s.port p
  if ch.req = false ∨ s.build.ports ≤ p then s
  else
    let s := s.trainReq p c false
    if ch.state = .retraining then
      let s := s.setChan p c { s.chan p c with state := .live }
      let s := s.sendAck p c []
      let last := beforeOldest (ch.tx - 1) ch.replay
      ((s.goBackChan p c last).askHandovers p).pump p
    else if ch.state = .idle ∧ (x.state = .training ∨ x.state = .down) then
      let s := s.setPort p { x with state := .training }
      let s := s.setChan p c { ChanSt.init with ready := ch.ready }
      let s := s.sendLink p c ([3#8, 0#8] ++ bytesOf 2 s.coreId.toNat ++ [BitVec.ofNat 8 p, BitVec.ofNat 8 (fieldN (s.ctlWord R.ctlIdent) 0 8)])
      let s := match x.own with
        | some v => s.sendLink p c [5#8, if v then 1#8 else 0#8]
        | none => s
      s.trainOutcome p
    else s

/-- A training that fails or lapses (R432, R444): a DOWN port lowers its request and tries again. -/
def State.trainFails (s : State) (p c : Nat) : State :=
  let ch := s.chan p c
  let st := (s.port p).state
  if s.build.ports ≤ p then s
  else if ch.state = .retraining then ((s.retireChan p c).afterRetire p c false).trainOutcome p
  else if ch.state ≠ .idle then s
  else if st = .down then s.trainReq p c false
  else if st = .training then (s.retireChan p c).trainOutcome p
  else s

/-- `FAB_PHY_ERR` (R432). -/
def State.phyErr (s : State) (p c : Nat) : State :=
  if s.build.ports ≤ p ∨ (s.port p).state = .disabled ∨ (s.chan p c).state ≠ .live then s
  else ((s.restart (.train p c)).setChan p c { s.chan p c with state := .retraining }).trainReq p c true

/-- `DOWN_PORT_RETRY` (R444): 16 ticks after a failure the request rises again. -/
def State.downRetry (s : State) (p : Nat) : State :=
  if s.build.ports ≤ p ∨ (s.port p).state ≠ .down then s
  else iter 4 (fun c s => if (s.chan p c).ready then s.trainReq p c true else s) s

/-- Counts of a port that its own reset clears (R450). -/
def State.clearPortCounts (s : State) (p : Nat) : State :=
  iter 4 (fun c s => ((s.setReg (R.fabChCrc p c) 0).setReg (R.fabChReplay p c) 0).setReg (R.fabChFlits p c) 0) s

/-- `FAB_PORT_RESET` (R448): a link down, then bring-up of the port if it is in use. -/
def State.portReset (s : State) (p : Nat) : State :=
  if s.build.ports ≤ p then s
  else
    let s := s.resetDoor
    let s := if (s.port p).state = .up then s.linkDown p else s
    let s := s.clearPortCounts p
    if s.portEn p then s.bringUp p else s

/-- A port that is not in use: its link ends and its channels are idle. -/
def State.disablePort (s : State) (p : Nat) : State :=
  let s := (s.setPort p PortSt.init).reroute p
  iter 4 (fun c s =>
    let s := s.trainReq p c false
    s.setChan p c { ChanSt.init with ready := (s.chan p c).ready }) s

/-- `FAB_PORT_CFG_WRITE` (R444). -/
def State.portCfgWrite (s : State) (p : Nat) (v : Word) : State :=
  if s.build.ports ≤ p then s
  else
    let was := s.portEn p
    let s := s.setReg (R.fabPortCfg p) (v &&& 0x0FFF003F#32)
    if s.portEn p = was then s
    else if was then s.disablePort p else s.bringUp p

/-! The commands. -/

/-- R428. -/
def execFlitAccept (p : Fin 16) (c : Fin 4) (flit : BitVec 512) (s : State) : Host.Outcome State Fault Refusal :=
  (s.flitAccept p.val c.val flit).done

/-- R429. -/
def execLinkAck (p : Fin 16) (c : Fin 4) (payload : BitVec 416) (s : State) : Host.Outcome State Fault Refusal :=
  (s.linkAck p.val c.val payload).done

/-- R430. -/
def execLinkNak (p : Fin 16) (c : Fin 4) (lseq : BitVec 12) (s : State) : Host.Outcome State Fault Refusal :=
  (s.linkNak p.val c.val (lseq.setWidth 10)).done

/-- R430. -/
def execReplayTimeout (p : Fin 16) (c : Fin 4) (s : State) : Host.Outcome State Fault Refusal :=
  (s.replayTimeout p.val c.val).done

/-- R434: the reply to this core's request for a channel it has retired, and otherwise the partner's request. -/
def execHandover (p : Fin 16) (c : Fin 4) (lseq : BitVec 12) (s : State) : Host.Outcome State Fault Refusal :=
  (s.handover p.val c.val (lseq.setWidth 10) ((s.chan p.val c.val).state == .retired)).done

/-- R443. -/
def execHello (p : Fin 16) (peer : BitVec 12) (s : State) : Host.Outcome State Fault Refusal := (s.hello p.val peer).done

/-- R443. -/
def execVerdict (p : Fin 16) (v : Bool) (s : State) : Host.Outcome State Fault Refusal := (s.verdict p.val v).done

/-- R444. -/
def execFabPhyReady (p : Fin 16) (c : Fin 4) (s : State) : Host.Outcome State Fault Refusal := (s.phyReady p.val c.val).done

/-- R432. -/
def execFabTrainDone (p : Fin 16) (c : Fin 4) (s : State) : Host.Outcome State Fault Refusal := (s.trainDone p.val c.val).done

/-- R432: an answer to a request of the core. -/
def execFabTrainFail (p : Fin 16) (c : Fin 4) (s : State) : Host.Outcome State Fault Refusal :=
  (if (s.chan p.val c.val).req then s.trainFails p.val c.val else s).done

/-- R432, R444: FAB_TRAIN_TICKS have passed without an outcome. -/
def execTrainTimeout (p : Fin 16) (c : Fin 4) (s : State) : Host.Outcome State Fault Refusal :=
  (if (s.reg R.fabTrainTicks).toNat ≤ s.age (.train p.val c.val) then (s.restart (.train p.val c.val)).trainFails p.val c.val
   else s).done

/-- R432. -/
def execFabPhyErr (p : Fin 16) (c : Fin 4) (s : State) : Host.Outcome State Fault Refusal := (s.phyErr p.val c.val).done

/-- R444. -/
def execDownPortRetry (p : Fin 16) (s : State) : Host.Outcome State Fault Refusal := (s.downRetry p.val).done

/-- R448. -/
def execFabPortReset (p : Fin 16) (s : State) : Host.Outcome State Fault Refusal :=
  (s.hostWrite (R.fabPortCtrl p.val) fun s => s.portReset p.val).done

/-- R444. -/
def execFabPortCfgWrite (p : Fin 16) (data : Word) (s : State) : Host.Outcome State Fault Refusal :=
  (s.hostWrite (R.fabPortCfg p.val) fun s => s.portCfgWrite p.val data).done

end Sys2Proof.Machine
end

