-- ==== Sys2Proof/Machine/Remote.lean ====
section
/-! DEFINITION. Remote operations at their target and their answers (R249, R250, R418, R422 to R427), and TABLEAU flits
(R521). -/

namespace Sys2Proof.Machine

/-! At the target. -/

/-- Payload of a WRITE and of a READ (R422). -/
def writeBytes (addr : BitVec 32) (tag : BitVec 16) (data : List Byte) : List Byte :=
  bytesOf 4 addr.toNat ++ bytesOf 2 tag.toNat ++ bytesOf 2 data.length ++ data

def readBytesOf (addr : BitVec 32) (tag count : BitVec 16) : List Byte :=
  bytesOf 4 addr.toNat ++ bytesOf 2 tag.toNat ++ bytesOf 2 count.toNat

/-- Every frame of a range may be written from the fabric (R249). -/
def State.remoteRangeOk (s : State) (a n : Nat) : Bool :=
  decide (a + n ≤ 2 ^ 32) && (List.range ((a % 65536 + n + 65535) / 65536)).all fun k => s.remoteWriteOk ((a / 65536 + k) * 65536)

/-- `WRITE` (R249, R334, R423): it lands in a remote slot and is answered, or is refused, always while FATAL is set (R525). -/
def State.writeIn (s : State) (src : BitVec 12) (addr : BitVec 32) (tag : BitVec 16) (data : List Byte) : State :=
  s.serveOp (isPacket 0 src (writeBytes addr tag data)) fun s =>
    let a := addr.toNat
    if s.fatal ∨ s.remoteRangeOk a data.length = false then
      (s.count R.propRemoteRefused 1).sendDone src (classOf a) tag 1
    else (s.land a data false).sendDone src (classOf a) tag 0

/-- READ_DATA (R422): status 1 marks data that is poisoned. -/
def State.sendReadData (s : State) (dst : BitVec 12) (ch : Nat) (tag : BitVec 16) (bad : Bool) (data : List Byte) : State :=
  s.sendPacket dst 9 ch (bytesOf 2 tag.toNat ++ [if bad then 1#8 else 0#8] ++ data)

/-- `READ` (R249, R423). -/
def State.readIn (s : State) (src : BitVec 12) (addr : BitVec 32) (tag count : BitVec 16) : State :=
  s.serveOp (isPacket 1 src (readBytesOf addr tag count)) fun s =>
    let a := addr.toNat
    if s.fatal ∨ s.localRangeOk a count.toNat = false then
      (s.count R.propRemoteRefused 1).sendReadData src (classOf a) tag true (List.replicate count.toNat 0)
    else
      let r := s.readPlain unitFabric a count.toNat
      r.2.sendReadData src (classOf a) tag r.1.2 r.1.1

/-! Answers at the source. -/

/-- The remote operation of this core to `dst` with a tag. -/
def State.ropOf (s : State) (p : RemoteOp → Bool) : Option RemoteOp := s.fab.rops.find? p

/-- A remote operation has its answer: posts that waited for it leave (R425). -/
def State.ropDone (s : State) (r : RemoteOp) : State :=
  ({ s with fab := { s.fab with rops := s.fab.rops.filter fun q => q.tag != r.tag } }).pumpPosts

/-- An answer that finds no operation (R426). -/
def State.ropStray (s : State) : State := s.count R.fabStray 1

/-- An operation that is lost or refused: a read's element is poisoned, a transfer's line halts once it has completed, and a
post's line halts, its cue having completed (R250, R423, R426, R427). -/
def State.ropFails (s : State) (r : RemoteOp) (code : Code) : State :=
  let s := s.ropDone r
  match r.kind with
  | .write => (s.flyFails r.uid code).flySettle r.uid
  | .read pos part n => ((s.flyData r.uid pos part (List.replicate n 0) true).flyFails r.uid code).flySettle r.uid
  | .post => if (s.line r.line).enabled then s.halt r.line code r.q.cue.engine false r.q.haltCue else s

/-- `READ_DATA` (R423). -/
def State.readDataIn (s : State) (src : BitVec 12) (tag : BitVec 16) (status : BitVec 8) (data : List Byte) : State :=
  s.serveOp (isPacket 9 src (bytesOf 2 tag.toNat ++ [status] ++ data)) fun s =>
    match s.ropOf fun r => r.tag == tag.toNat && r.dst == src with
    | none => s.ropStray
    | some r => match r.kind with
      | .read pos part n => ((s.ropDone r).flyData r.uid pos part ((List.range n).map fun i => listGet 0 data i) (status != 0)).flySettle r.uid
      | _ => s.ropStray

/-- `DONE` (R423). -/
def State.doneIn (s : State) (src : BitVec 12) (tag : BitVec 16) (status : BitVec 8) : State :=
  s.serveOp (isPacket 8 src (bytesOf 2 tag.toNat ++ [status])) fun s =>
    match s.ropOf fun r => r.tag == tag.toNat && r.dst == src && r.waits.isNone with
    | none => s.ropStray
    | some r => match r.kind with
      | .read _ _ _ => s.ropStray
      | _ => if status = 0 then (s.ropDone r).flySettle r.uid else s.ropFails r .remoteRefused

/-- The kind of operation an operation code names. -/
def RKind.isOpc (k : RKind) (opc : Nat) : Bool := match k with
  | .write => opc == 0
  | .read _ _ _ => opc == 1
  | .post => opc == 3

/-- `UNREACHABLE` (R427): exchange operations take it as no answer, and the rest is dropped. -/
def State.unreachableIn (s : State) (opc : Nat) (router : BitVec 12) (key : BitVec 32) : State :=
  s.serveOp (fun p => p.opc == 0xB && p.src == router && p.data == bytesOf 4 key.toNat ++ [BitVec.ofNat 8 opc]) fun s =>
    match s.ropOf fun r => r.kind.isOpc opc && r.waits.isNone && decide (r.tag = key.toNat) with
    | none => if opc = 0 ∨ opc = 1 ∨ opc = 3 then s.ropStray else s
    | some r => s.ropFails r .remoteUnreachable

/-- `REMOTE_OP_TIMEOUT` (R426): a WRITE or READ without an answer for FAB_OP_TICKS; it does not count while the core is frozen (R519). -/
def State.ropTimeout (s : State) (tag : Nat) : State :=
  if s.enginesRun = false then s
  else match s.ropOf fun r => r.kind != .post && r.tag == tag && decide ((s.reg R.fabOpTicks).toNat ≤ s.age (.remote tag)) with
    | none => s
    | some r => (s.count R.fabTimeouts 1).ropFails r .remoteTimeout

/-- `TABLEAU_FLIT` (R513 source 8, R521): taken also while the core is frozen, and with FAB_EN = 0 it triggers nothing. -/
def State.tableauIn (s : State) (id : BitVec 16) (origin : BitVec 12) : State :=
  if (s.phase ≠ .up ∧ s.phase ≠ .bringUp) ∨ 2 < s.pstate then s
  else
    let s := s.leaveIdle.takeLocal fun p => p.opc == 5 && p.data == bytesOf 2 id.toNat ++ bytesOf 2 origin.toNat
    if s.regB R.tabCtrl 2 then { s with trig := s.trig ++ [⟨8, id, origin, false⟩] } else s

/-! The commands. -/

/-- R249. -/
def execWrite (src : BitVec 12) (addr : BitVec 32) (tag : BitVec 16) (data : List Byte) (s : State) :
    Host.Outcome State Fault Refusal := (s.writeIn src addr tag data).done

/-- R249. -/
def execRead (src : BitVec 12) (addr : BitVec 32) (tag count : BitVec 16) (s : State) : Host.Outcome State Fault Refusal :=
  (s.readIn src addr tag count).done

/-- R423. -/
def execReadData (src : BitVec 12) (tag : BitVec 16) (status : BitVec 8) (data : List Byte) (s : State) :
    Host.Outcome State Fault Refusal := (s.readDataIn src tag status data).done

/-- R423. -/
def execDone (src : BitVec 12) (tag : BitVec 16) (status : BitVec 8) (s : State) : Host.Outcome State Fault Refusal :=
  (s.doneIn src tag status).done

/-- R427. -/
def execUnreachable (opc : BitVec 4) (router : BitVec 12) (key : BitVec 32) (s : State) : Host.Outcome State Fault Refusal :=
  (s.unreachableIn opc.toNat router key).done

/-- R426. -/
def execRemoteOpTimeout (tag : BitVec 16) (s : State) : Host.Outcome State Fault Refusal := (s.ropTimeout tag.toNat).done

/-- R521. -/
def execTableauFlit (id : BitVec 16) (origin : BitVec 12) (s : State) : Host.Outcome State Fault Refusal :=
  (s.tableauIn id origin).done

end Sys2Proof.Machine
end

