-- ==== Sys2Proof/Machine/Store.lean ====
section
/-! DEFINITION. Writes that store a register by its access codes (R15, R461, R535), and which registers a prompt book may
write (R478). -/

namespace Sys2Proof.Machine

/-- The register block that holds offset `off` belongs to a unit, engine or port of the build (R533). -/
def State.present (s : State) (off : Nat) : Bool :=
  if 0x10000 ≤ off ∧ off < 0x18000 then decide ((off - 0x10000) / 0x800 < s.build.flies)
  else if 0x31000 ≤ off ∧ off < 0x31800 then decide ((off - 0x31000) / 0x100 < s.build.units)
  else if 0x39000 ≤ off ∧ off < 0x39800 then decide ((off - 0x39000) / 0x100 < s.build.units)
  else if 0x51000 ≤ off ∧ off < 0x52000 then decide ((off - 0x51000) / 0x100 < s.build.ports)
  else if 0x05000 ≤ off ∧ off < 0x05800 then decide (0x05020 ≤ off ∧ off < 0x05440)
  else true

/-- A row's registers take a write: RW bits, RWP bits inside a session, W1C bits that are written 1. -/
def RegRow.written (r : RegRow) (sess : Bool) (old v : Word) : Word :=
  let m : Word := BitVec.ofNat 32 (if sess then r.rw ||| r.rwp else r.rw)
  ((old &&& ~~~m) ||| (v &&& m)) &&& ~~~(v &&& BitVec.ofNat 32 r.w1c)

/-- A write of a register that stores it. -/
def State.storeReg (s : State) (sess : Bool) (off : Nat) (v : Word) : State := match regRow? off with
  | some r => if s.present off then s.setReg off (r.written sess (s.reg off) v) else s
  | none => s

/-- The request to the regulator (R508): a value outside 620 to 880 is clamped, and a change raises the PWR source. -/
def State.setVreq (s : State) (mv : Nat) : State :=
  if s.regF R.pwrVreq 0 10 = mv then s else (s.setF R.pwrVreq 0 10 mv).latchIrq 6

def State.vreqWrite (s : State) (v : Word) : State :=
  let mv := fieldN v 0 10
  let s := if mv < 620 ∨ 880 < mv then s.setB R.pwrStatus 9 true else s
  s.setVreq (max 620 (min 880 mv))

/-- Registers held in tables of their own: the route entry and the tracker that are selected (R52, R450). -/
def State.routeWrite (s : State) (v : Word) : State :=
  { s with fab := { s.fab with routes := NMap.set 0 s.fab.routes (s.regF R.fabRouteSel 0 12) (v.setWidth 10) } }

def State.trkInitWrite (s : State) (v : Word) : State :=
  let i := s.regF R.trkSel 0 10
  s.setTracker i { s.tracker i with initT := v.setWidth 8 }

/-- A write of LINE_SPLIT_CTL or LINE_SPLIT_PTR: the fetcher takes its head cue anew. -/
def State.splitStore (s : State) (sess : Bool) (off : Nat) (v : Word) : State :=
  let e := (off - 0x05000) / 0x20
  (s.storeReg sess off v).setFetcher e { s.fetcher e with taken := none }

/-- A write that only stores configuration. -/
def State.configWrite (s : State) (sess : Bool) (off : Nat) (v : Word) : State :=
  if off = R.fabRoute then s.routeWrite v
  else if off = R.trkInit then s.trkInitWrite v
  else if off = R.pwrVreq then s.vreqWrite v
  else if 0x05020 ≤ off ∧ off < 0x05440 ∧ off % 0x20 = 4 ∧ s.regB (off - 4) 0 then s
  else if 0x05020 ≤ off ∧ off < 0x05440 ∧ off % 0x20 < 8 then s.splitStore sess off v
  else s.storeReg sess off v

/-- Read-only registers that other state composes. -/
def composedRo (off : Nat) : Bool :=
  decide (off = R.ctlIdent ∨ off = R.ctlFeat0 ∨ off = R.ctlFeat1 ∨ off = R.ctlTickLo ∨ off = R.ctlTickHi
    ∨ (0x10000 ≤ off ∧ off < 0x18000 ∧ off % 0x800 ≤ 0x14)
    ∨ (0x31000 ≤ off ∧ off < 0x31800 ∧ (off % 0x100 = 0 ∨ (0x20 ≤ off % 0x100 ∧ off % 0x100 ≤ 0x30)))
    ∨ (0x39000 ≤ off ∧ off < 0x39800 ∧ off % 0x100 = 0)
    ∨ (0x51000 ≤ off ∧ off < 0x52000 ∧ (off % 0x100 = 4 ∨ (0x20 ≤ off % 0x100 ∧ off % 0x100 < 0x60 ∧ off % 16 = 0)))
    ∨ (0x04000 ≤ off ∧ off < 0x04800 ∧ ((0x10 ≤ off % 0x200 ∧ off % 0x200 ≤ 0x20) ∨ (0xC0 ≤ off % 0x200 ∧ off % 0x200 < 0xE0)))
    ∨ (0x05020 ≤ off ∧ off < 0x05440 ∧ (off % 0x20 = 0x0C ∨ off % 0x20 = 0x10))
    ∨ (0x06000 ≤ off ∧ off < 0x06140) ∨ (0x06400 ≤ off ∧ off < 0x06500 ∧ off % 16 = 4)
    ∨ off = R.trkState ∨ off = R.trkPass ∨ off = R.trkRunmax ∨ off = R.trkBind ∨ (0x08040 ≤ off ∧ off < 0x08080)
    ∨ (0x18000 ≤ off ∧ off < 0x18014) ∨ (0x20000 ≤ off ∧ off < 0x20010)
    ∨ off = R.choUnits ∨ off = R.choTqStatus ∨ off = R.choProgLo ∨ off = R.choProgHi ∨ off = R.choProgLen
    ∨ off = R.exchStatus ∨ off = R.fabLinksUp ∨ (0x61000 ≤ off ∧ off < 0x63000))

/-- A register that a REGWRITES pair may name (R478): every field RW, RWP, RO or reserved, none of those it excludes. -/
def State.bookMayWrite (s : State) (off : Nat) : Bool :=
  let ring : Bool := 0x04000 ≤ off && off < 0x04800 && off % 0x200 == 8
  let excluded : Bool := ring || (R.pbkWrCfg ≤ off && off ≤ R.pbkWrCount) || (0x01800 ≤ off && off < 0x02000)
  off % 4 == 0 && !excluded && s.present off &&
    (off == R.fabRoute || off == R.trkInit || composedRo off
      || (match regRow? off with | some r => r.w1c == 0 && !r.rc | none => false))

end Sys2Proof.Machine
end

