-- ==== Sys2Proof/Machine/Session.lean ====
section
/-! DEFINITION. Stage-door sessions (R484 to R487), the key (R465, R466) and the test wrapper (R467). -/

namespace Sys2Proof.Machine

/-- The door is locked (R486). -/
def State.locked (s : State) : Bool := s.regB R.sesStatus 1

/-- A proof check is in progress (R485). -/
def State.proofBusy (s : State) : Bool := s.regB R.sesStatus 5

/-- The key is settled at a value, which shows as KEY_ZERO when it is zero (R465). -/
def State.setKey (s : State) (k : BitVec 256) : State :=
  let z : Bool := k == 0
  (({ s with secret := { s.secret with key := k } }).setB R.pbkStatus 13 z).setB R.sesStatus 4 z

/-- The latched key becomes zero until the next power-on reset, and any session closes (R467). -/
def State.zeroKey (s : State) : State := (s.setKey 0).closeSession

/-! Nonces. -/

/-- A fresh nonce from 512 raw bits (R484); none before the key is latched and while the door is locked. -/
def State.drawNonce (s : State) (noise : BitVec 512) : State :=
  if s.secret.latched ∧ s.locked = false then
    { s with secret := { s.secret with
        nonce := BitVec.ofNat 256 (numOf (sha256 (bytesOf 64 noise.toNat))), nonceOk := true } }
  else s

/-- A read of SES_NONCE0: the draw, then the word. -/
def State.nonceRead (s : State) (noise : BitVec 512) : State := match s.serve (R.sesNonce 0) with
  | .ok =>
    let s := s.hostTouch.drawNonce noise
    s.emit (.hostRsp (s.readReg (R.sesNonce 0)) false)
  | _ => s.hostRead (R.sesNonce 0) id

/-! Proofs. -/

/-- The proof that the current nonce and a host id call for (R485). -/
def State.expectedProof (s : State) (host : BitVec 32) : BitVec 256 :=
  BitVec.ofNat 256 (numOf (hmac (bytesOf 32 s.secret.key.toNat) (bytesOf 32 s.secret.nonce.toNat ++ bytesOf 4 host.toNat)))

/-- One word of SES_PROOF; writes during a check are ignored. -/
def State.proofWord (s : State) (i : Nat) (v : Word) : State :=
  if s.proofBusy then s
  else { s with secret := { s.secret with
    proof := (s.secret.proof &&& ~~~(BitVec.ofNat 256 (0xFFFFFFFF <<< (32 * i)))) ||| BitVec.ofNat 256 (v.toNat <<< (32 * i)) } }

/-- SES_STATUS.LAST. -/
def State.setLast (s : State) (n : Nat) : State := s.setF R.sesStatus 6 2 n

/-- The nonce is void. -/
def State.voidNonce (s : State) : State := { s with secret := { s.secret with nonceOk := false } }

/-- A write of SES_PROOF7 starts the check: what it will find is settled by the values of that moment. -/
def State.startProof (s : State) (v : Word) : State :=
  if s.proofBusy then s
  else
    let s := s.proofWord 7 v
    let host := s.reg R.sesHostId
    ({ s with secret := { s.secret with
        good := s.secret.nonceOk && s.secret.proof == s.expectedProof host, checkId := host } }).setB R.sesStatus 5 true

/-- A refused proof: no key, or a locked door (R486, R490). -/
def State.proofRefused (s : State) : Bool := s.secret.key == 0 || !s.secret.latched || s.locked

/-- A proof that matches (R486). -/
def State.proofAccepted (s : State) : State :=
  (((s.setB R.sesStatus 0 true).setReg R.sesOpenId s.secret.checkId).setF R.sesStatus 2 2 0).setLast 1

/-- A proof that does not match: the third failure locks the door for 2^30 ticks. -/
def State.proofRejected (s : State) : State :=
  let n := s.regF R.sesStatus 2 2 + 1
  let s := (s.setF R.sesStatus 2 2 n).setLast 2
  if 3 ≤ n then ((s.setB R.sesStatus 1 true).setReg R.sesLockTicks 0x40000000#32).closeSession else s

/-- The end of a check. -/
def State.proofDone (s : State) : State :=
  if s.proofBusy = false then s
  else
    let s := (s.setB R.sesStatus 5 false).voidNonce
    if s.proofRefused then s.setLast 3
    else if s.secret.good then s.proofAccepted else s.proofRejected

/-- The lock ends (R486) once SES_LOCK_TICKS has run out. -/
def State.unlockDoor (s : State) : State :=
  if s.locked ∧ s.reg R.sesLockTicks = 0 then ((s.setB R.sesStatus 1 false).setF R.sesStatus 2 2 0).setReg R.sesLockTicks 0 else s

/-- A write of SES_CLOSE (R487). -/
def State.closeWrite (s : State) (v : Word) : State := if bit v 0 then s.closeSession else s

/-! The wrapper. -/

/-- An instruction in the wrapper's register; unpowered it holds none. WS_BYPASS alone leaves the key (R467). -/
def State.wrapperLoad (s : State) (code : BitVec 4) (keeps : Bool) : State :=
  if s.phase = .off then s
  else
    let s := { s with pins := { s.pins with wsInstr := code } }
    if keeps then s else s.zeroKey

/-- What the wrapper presents is not given: a free value. -/
def State.wrapperShift (s : State) : State :=
  let k := s.fresh
  let w := Config.wrapperBits k.1
  ({ k.2 with pins := { k.2.pins with wsReg := w } }).emit (.wrapper w)

/-- The scan chains and the self-test act on a powered core. -/
def State.wrapperRun (s : State) (code : BitVec 4) : State :=
  if s.phase = .off then s else (s.wrapperLoad code false).wrapperShift

/-- A self-test of every bank leaves memory contents undefined. -/
def State.selfTest (s : State) : State :=
  if s.phase = .off then s
  else
    let k := (s.wrapperRun 5).fresh
    let s := k.2
    { s with mem := { s.mem with epoch := k.1 + 1, cells := [], flaws := [], wq := [], corr := [] } }

/-! The commands. -/

/-- R484. -/
def execNonceDraw (noise : BitVec 512) (s : State) : Host.Outcome State Fault Refusal := (s.nonceRead noise).done

/-- R485. -/
def execProofWrite (data : Word) (s : State) : Host.Outcome State Fault Refusal :=
  (s.hostWrite (R.sesProof 7) fun s => s.startProof data).done

/-- R485, R486. -/
def execProofCheckDone (s : State) : Host.Outcome State Fault Refusal := s.proofDone.done

/-- R486. -/
def execDoorLockEnd (s : State) : Host.Outcome State Fault Refusal := s.unlockDoor.done

/-- R487. -/
def execSesClose (data : Word) (s : State) : Host.Outcome State Fault Refusal :=
  (s.hostWrite R.sesClose fun s => s.closeWrite data).done

/-- A session closes after 2^32 ticks without a host-port access (R487): SES_IDLE_TICKS stands at its largest value, and one
tick more has come or comes with the command (DEDUCED, log entry 24). -/
def State.idleClose (s : State) : State := if s.session ∧ s.reg R.sesIdleTicks = 0xFFFFFFFF then s.closeSession else s

/-- R487. -/
def execSessionIdleTimeout (s : State) : Host.Outcome State Fault Refusal := s.idleClose.done

/-- R467: the codes without an instruction act as WS_BYPASS. -/
def execWsBypass (code : BitVec 4) (s : State) : Host.Outcome State Fault Refusal :=
  (if code ∈ [1#4, 2#4, 4#4, 5#4] then s else s.wrapperLoad code true).done

/-- R467. -/
def execWsExtest (s : State) : Host.Outcome State Fault Refusal := (s.wrapperRun 1).done

/-- R467. -/
def execWsIntest (s : State) : Host.Outcome State Fault Refusal := (s.wrapperRun 2).done

/-- R467: the scan chains move only while `blk_rst_n` is low; loading the instruction zeroes the key in any case. -/
def execWsScan (s : State) : Host.Outcome State Fault Refusal :=
  (if s.pins.blkRstN then s.wrapperLoad 4 false else s.wrapperRun 4).done

/-- R467. -/
def execWsMbist (s : State) : Host.Outcome State Fault Refusal := s.selfTest.done

end Sys2Proof.Machine
end

