-- ==== Sys2Proof/Machine/Book.lean ====
section
/-! DEFINITION. The SPI flash and the prompt book (R468 to R479): copies, records, selection, application and the house
defaults. -/

namespace Sys2Proof.Machine

/-! The flash. -/

/-- A byte of the flash; a part that does not answer reads as 0xFF (R490). -/
def Flash.byte (f : Flash) (a : Nat) : Byte := if f.answers then NMap.get 0xFF#8 f.cells a else 0xFF#8

def Flash.bytes (f : Flash) (a n : Nat) : List Byte := (List.range n).map fun i => f.byte (a + i)

/-- A little-endian number of `n` bytes. -/
def Flash.num (f : Flash) (a n : Nat) : Nat := numOf (f.bytes a n)

/-- Where copy B starts, and the most bytes of a copy (R471). -/
def Flash.copySize (f : Flash) : Nat := min (2 ^ f.sizeLog / 2) (2 ^ 23)

/-- Flash address of a copy: A at 0, B at P. -/
def Flash.base (f : Flash) (b : Bool) : Nat := if b then f.copySize else 0

/-- 1-4-4 reads are in use (R469 step 3). -/
def Flash.quadOk (f : Flash) : Bool := f.quad && (f.qer == 0 || f.qer == 1 || f.qer == 2 || f.qer == 4 || f.qer == 5)

/-- Discovery finds a usable flash (R469): it answers, holds 1 MiB, and the quad-enable bit takes where it must be written. -/
def Flash.found (f : Flash) : Bool := f.answers && decide (20 ≤ f.sizeLog) && !(f.quadOk && !f.qe && f.stuck)

/-! Headers and records (R472, R473). -/

def Flash.length (f : Flash) (b : Bool) : Nat := f.num (f.base b + 8) 4
def Flash.gen (f : Flash) (b : Bool) : BitVec 32 := BitVec.ofNat 32 (f.num (f.base b + 12) 4)
def Flash.genInv (f : Flash) (b : Bool) : BitVec 32 := BitVec.ofNat 32 (f.num (f.base b + 16) 4)

/-- What the header of a copy fails by, in the numbers of PBK_STATUS.A_ERR; 0 when it passes. -/
def Flash.headerErr (f : Flash) (b : Bool) : Nat :=
  let n := f.length b
  if f.num (f.base b) 4 ≠ 0x5B1B00C0 then 2
  else if f.num (f.base b + 4) 2 ≠ 1 then 3
  else if n % 4 ≠ 0 ∨ n < 40 ∨ f.copySize < n then 4
  else if f.genInv b ≠ ~~~(f.gen b) then 5
  else 0

/-- A record: its type, REQUIRED, the offset of its payload and its length in bytes. -/
structure BookRec where
  typ : Nat
  req : Bool
  off : Nat
  len : Nat
  deriving DecidableEq, Repr

/-- The records of an image up to END; none when one does not lie within the image or END is missing. -/
def bookRecs (img : List Byte) : Nat → Nat → Option (List BookRec)
  | 0, _ => none
  | fuel + 1, pos =>
    if img.length < pos + 8 then none
    else
      let h := numOf ((img.drop pos).take 8)
      let typ := h % 65536
      let len := h / 2 ^ 32
      if img.length < pos + 8 + roundUp len 4 then none
      else if typ = 0xFF then some []
      else (bookRecs img fuel (pos + 8 + roundUp len 4)).map (BookRec.mk typ (h.testBit 16) (pos + 8) len :: ·)

def imageRecs (img : List Byte) : Option (List BookRec) := bookRecs img (img.length / 8 + 1) 32

/-- Payload bytes of a record. -/
def BookRec.payload (r : BookRec) (img : List Byte) : List Byte := (img.drop r.off).take r.len

/-- The payload as numbers of `k` bytes; a rest shorter than `k` is left out. -/
def chunks (k : Nat) (l : List Byte) : List Nat := (List.range (l.length / k)).map fun i => numOf ((l.drop (k * i)).take k)

/-- RINGS entries: line, ENABLE, SIZE_LOG, HANDLE. -/
def ringEntries (l : List Byte) : List (Nat × Bool × Nat × Nat) :=
  (chunks 8 l).map fun v => (v % 4, v.testBit 8, v / 65536 % 32, v / 2 ^ 32 % 65536)

/-- REGWRITES pairs. -/
def regPairs (l : List Byte) : List (Nat × Word) := (chunks 8 l).map fun v => (v % 2 ^ 32, BitVec.ofNat 32 (v / 2 ^ 32))

/-- The conditions of R474 on the records of an image. -/
def State.recordsOk (s : State) (img : List Byte) (l : List BookRec) : Bool :=
  let once := (l.filter fun r => r.typ != 8).map (·.typ)
  decide once.Nodup && l.all fun r =>
    match r.typ with
    | 1 => true | 3 => true | 4 => true | 5 => true | 6 => true
    | 2 =>
      let es := ringEntries (r.payload img)
      es.all (fun e => decide (18 ≤ e.2.2.1 ∧ e.2.2.1 ≤ 24)) && decide (es.map (·.1)).Nodup
    | 7 => s.build.repBytes == 0 || decide (r.len ≤ s.build.repBytes)
    | 8 => (regPairs (r.payload img)).all fun p => s.bookMayWrite p.1
    | _ => !r.req

/-- The check word of an image (R472). -/
def imageCheck (img : List Byte) : BitVec 32 := crc32c (img.take 12 ++ img.drop 24)

/-- What a copy whose header passes fails by; 0 when it is valid. -/
def State.bodyErr (s : State) (img : List Byte) : Nat :=
  if (imageCheck img).toNat ≠ numOf ((img.drop 20).take 4) then 6
  else match imageRecs img with
    | none => 7
    | some l => if s.recordsOk img l then 0 else 7

/-- The bytes of a copy. -/
def Flash.image (f : Flash) (b : Bool) : List Byte := f.bytes (f.base b) (f.length b)

/-! Selection (R475). -/

/-- Copy B precedes copy A. -/
def Flash.bFirst (f : Flash) : Bool :=
  let d := (f.gen true - f.gen false).toNat
  decide (1 ≤ d ∧ d ≤ 2 ^ 31 - 1)

/-- The copies whose headers pass, in order of precedence. -/
def Flash.candidates (f : Flash) : List Bool :=
  (if f.bFirst then [true, false] else [false, true]).filter fun b => f.headerErr b == 0

/-- The winning copy, and what the copies read before it failed by. -/
def State.tryCopies (s : State) : List Bool → Option Bool × List (Bool × Nat)
  | [] => (none, [])
  | b :: rest =>
    let e := s.bodyErr (s.flash.image b)
    if e = 0 then (some b, [(b, 0)])
    else
      let r := s.tryCopies rest
      (r.1, (b, e) :: r.2)

/-- A_ERR or B_ERR of a copy: 8 where only its header was read. -/
def copyErr (f : Flash) (tried : List (Bool × Nat)) (b : Bool) : Nat :=
  if f.found = false then 1
  else match tried.find? (·.1 == b) with
    | some t => t.2
    | none => if f.headerErr b = 0 then 8 else f.headerErr b

/-- The result of start-up step 4 in the PBK_ registers; the ticks it took are a free value. -/
def State.noteBook (s : State) (win : Option Bool) (tried : List (Bool × Nat)) : State :=
  let f := s.flash
  let src := match win with | some b => if b then 1 else 0 | none => 2
  let k := s.fresh
  let s := k.2
  let s := s.setReg R.pbkStatus ((s.reg R.pbkStatus &&& 0x3000#32) ||| fld 0 2 src ||| bfld 2 win.isNone ||| bfld 3 (!f.found)
    ||| fld 4 4 (copyErr f tried false) ||| fld 8 4 (copyErr f tried true) ||| bfld 14 (f.found && f.only4)
    ||| bfld 15 (f.found && f.quadOk))
  let s := s.setReg R.pbkGen (match win with | some b => f.gen b | none => 0)
  let s := s.setReg R.pbkLoadTicks ((Config.freeWord k.1).setWidth 32)
  if f.found then
    ((s.setReg R.pbkAGen (f.gen false)).setReg R.pbkBGen (f.gen true)).setReg R.pbkFlash
      (fld 0 6 f.sizeLog ||| fld 8 4 f.pageLog ||| fld 16 5 f.eraseLog)
  else s

/-- Discovery sets the quad-enable bit where the reads will need it (R469 step 3). -/
def State.discover (s : State) : State :=
  if s.flash.found ∧ s.flash.quadOk then { s with flash := { s.flash with qe := true } } else s

/-! Application (R477). -/

/-- Words laid into the store from word `i`. -/
def layStore (m : NMap Word) (i : Nat) : List Nat → NMap Word
  | [] => m
  | w :: ws => layStore (NMap.set 0 m i (BitVec.ofNat 32 w)) (i + 1) ws

/-- Bytes filled up to whole words with zeros. -/
def padWords (l : List Byte) : List Byte := l ++ List.replicate (roundUp l.length 4 - l.length) 0#8

/-- Listed frames that are installed take RETIRED descriptors (R262). -/
def State.retireListed (s : State) (l : List Nat) : State :=
  l.foldl (fun s f => if f < s.build.frames ∧ s.frameRetired f = false then s.retireNow f else s) s

/-- A record but RINGS and REGWRITES takes effect. -/
def State.applyRecord (s : State) (por : Bool) (img : List Byte) (r : BookRec) : State :=
  let p := r.payload img
  match r.typ with
  | 1 =>
    let w := chunks 4 p
    let s := match w[0]? with | some v => s.setReg R.fabCoreId (fld 0 12 v) | none => s
    match w[1]? with | some v => s.setReg R.propBsSize (BitVec.ofNat 32 v) | none => s
  | 3 => (chunks 4 p).zipIdx.foldl (fun s (v, i) =>
      if i < s.build.ports then s.storeReg true (R.fabPortCfg i) (BitVec.ofNat 32 v) else s) s
  | 4 => { s with fab := { s.fab with routes := (chunks 2 p).zipIdx.foldl (fun m (v, i) =>
      if i < 4096 then NMap.set 0 m i (BitVec.ofNat 10 v) else m) s.fab.routes } }
  | 5 => (chunks 4 p).zipIdx.foldl (fun s (v, i) =>
      if i < 16 then s.storeReg true (R.callCcCfg i) (BitVec.ofNat 32 v) else s) s
  | 6 => if por then s.retireListed (((chunks 2 p).drop 2).take ((chunks 4 p).headD 0)) else s
  | 7 => if s.build.repBytes = 0 then s else { s with rep := layStore [] 0 (chunks 4 (padWords p)) }
  | _ => s

/-- The records of the winning copy in order, then REGWRITES. -/
def State.applyBook (s : State) (por : Bool) (img : List Byte) : State :=
  let l := (imageRecs img).getD []
  let s := l.foldl (fun s r => s.applyRecord por img r) s
  ((l.filter fun r => r.typ == 8).map fun r => regPairs (r.payload img)).flatten.foldl
    (fun s p => s.configWrite true p.1 p.2) s

/-- The rings of the winning copy: line and the LINE_RING word. -/
def bookRings (img : List Byte) : List (Line × Word) :=
  (((imageRecs img).getD []).filter fun r => r.typ == 2).flatMap fun r =>
    (ringEntries (r.payload img)).map fun e => (Line.ofIdx e.1, fld 0 5 e.2.2.1 ||| bfld 8 e.2.1 ||| fld 16 16 e.2.2.2)

/-! House defaults (R479, R483). -/

/-- A loop-step entry (R302). -/
def stepEntry (start w sel : Nat) : Nat := start + 2 ^ 10 * w + 2 ^ 16 * sel + 2 ^ 32

/-- The first cue of routines 0x50 and 0x51: a `NOP` that posts +1 with FENCE to counter ARG0. -/
def houseCue0 : Nat := 0x101 + 2 ^ 192 * (1 + 2 ^ 8) + 2 ^ 768 * stepEntry 193 7 8

/-- The second: a `NOP` that waits until counter ARG1 reaches ARG2. -/
def houseCue1 : Nat := 0x1 + 2 ^ 64 + 2 ^ 768 * stepEntry 65 7 9 + 2 ^ 832 * stepEntry 72 20 10

/-- The words of a cue. -/
def cueWords (c : Nat) : List Nat := (List.range 32).map fun i => c >>> (32 * i) % 2 ^ 32

/-- The store under house defaults: two routines behind the directory, both for the M line. -/
def houseStore : NMap Word :=
  layStore (layStore [] 0 [0x550, 0x20004, 0x551, 0x20006]) 128
    (cueWords houseCue0 ++ cueWords houseCue1 ++ cueWords houseCue0 ++ cueWords houseCue1)

/-- No copy is valid. -/
def State.houseDefaults (s : State) : State := if s.build.repBytes = 0 then s else { s with rep := houseStore }

/-- Start-up steps 4 and 5 (R488): the rings that step 6 allocates, and the state. -/
def State.loadBook (s : State) (por : Bool) : List (Line × Word) × State :=
  let s := s.discover
  let r := if s.flash.found then s.tryCopies s.flash.candidates else (none, [])
  let s := s.noteBook r.1 r.2
  match r.1 with
  | some b =>
    let img := s.flash.image b
    (bookRings img, s.applyBook por img)
  | none => ([], s.houseDefaults)

end Sys2Proof.Machine
end

