-- ==== Sys2Proof/Machine/Writer.lean ====
section
/-! DEFINITION. The prompt-book writer (R480 to R482). -/

namespace Sys2Proof.Machine

/-- The writer before any run. -/
def Writer.idle : Writer := ⟨0, [], [], 0, 0, 0⟩

/-- PBK_WR_STATUS.BUSY. -/
def State.writerBusy (s : State) : Bool := s.regB R.pbkWrStatus 0

def State.writerPhase (s : State) : Nat := s.regF R.pbkWrStatus 1 3

def State.setPhase (s : State) (n : Nat) : State := s.setF R.pbkWrStatus 1 3 n

/-- The copy that wins by R475. -/
def State.winner (s : State) : Option Bool :=
  if s.flash.found then (s.tryCopies s.flash.candidates).1 else none

/-! Images. -/

/-- Frames of the RETIRED descriptors in increasing order. -/
def State.retiredFrames (s : State) : List Nat :=
  (s.prop.pages.foldl (fun (m : NMap Unit) d => if d.2.state = .retired then NMap.put m d.2.frame () else m) []).map (·.1)

/-- A RETIRED record (R473). -/
def retiredRecord (frames : List Nat) : List Byte :=
  let p := bytesOf 4 frames.length ++ (frames.map (bytesOf 2)).flatten
  bytesOf 8 (6 + 2 ^ 32 * p.length) ++ padWords p

/-- Bytes of a record, header and padding included. -/
def BookRec.raw (r : BookRec) (img : List Byte) : List Byte := (img.drop (r.off - 8)).take (8 + roundUp r.len 4)

/-- Step 1 under RETIRED: the copy with its retired list made anew. -/
def State.retiredImage (s : State) (img : List Byte) : List Byte :=
  let l := ((imageRecs img).getD []).filter fun r => r.typ != 6
  let body := (l.map fun r => r.raw img).flatten ++ retiredRecord s.retiredFrames ++ bytesOf 8 0xFF
  img.take 8 ++ bytesOf 4 (32 + body.length) ++ (img.drop 12).take 20 ++ body

/-- Step 2: what an image fails by, in the numbers of PBK_WR_STATUS.ERR: 3 a LENGTH that does not fit, 2 anything else. -/
def State.imageErr (s : State) (img : List Byte) : Nat :=
  let n := numOf ((img.drop 8).take 4)
  if n ≠ img.length ∨ n % 4 ≠ 0 ∨ n < 40 ∨ s.flash.copySize < n then 3
  else if numOf (img.take 4) ≠ 0x5B1B00C0 ∨ numOf ((img.drop 4).take 2) ≠ 1 then 2
  else match imageRecs img with
    | none => 2
    | some l => if s.recordsOk img l then 0 else 2

/-- Step 5 programs the image with its own CHECK and leaves the generation pair erased. -/
def sealed (img : List Byte) : List Byte :=
  img.take 12 ++ List.replicate 8 0xFF#8 ++ bytesOf 4 (imageCheck img).toNat ++ img.drop 24

/-! Flash operations. -/

/-- Cells outside [a, a + n): an erase. -/
def Flash.erase (f : Flash) (a n : Nat) : Flash := { f with cells := f.cells.filter fun c => decide (c.1 < a) || decide (a + n ≤ c.1) }

/-- A program clears bits. -/
def Flash.program (f : Flash) (a : Nat) : List Byte → Flash
  | [] => f
  | b :: bs =>
    ({ f with cells := NMap.set 0xFF#8 f.cells a (NMap.get 0xFF#8 f.cells a &&& b) }).program (a + 1) bs

/-! Runs. -/

/-- A post of the writer to a call counter. -/
def State.writerPost (s : State) (i : Nat) (d : Int) : State := if i < 64 then s.post i d else s

/-- The end of a run: ERR, the DONE post, and the count of runs without error. -/
def State.endRun (s : State) (err : Nat) : State :=
  let s := s.setReg R.pbkWrStatus ((s.reg R.pbkWrStatus &&& 0x100#32) ||| fld 4 4 err)
  let s := if err = 0 then s.countMod R.pbkWrCount 1 else s
  ({ s with writer := { Writer.idle with waits := s.writer.waits } }).writerPost (s.regF R.pbkWrCfg 16 7) 1

/-- The image a run works on: from local memory under UPDATE (1), made from the winning copy and laid into the buffer under
RETIRED (2); or the error that ends the run. -/
def State.runImage (s : State) (mode : Nat) : (Nat ⊕ List Byte) × State :=
  let src := (s.reg R.pbkWrSrc).toNat
  let p := s.flash.copySize
  if s.localRangeOk src p = false then (.inl 1, s)
  else if s.flash.found = false then (.inl 6, s)
  else if mode = 1 then
    let n := (s.reg R.pbkWrLen).toNat
    if p < n ∨ n < 40 then (.inl 3, s)
    else
      let r := s.readPlain 0 src n
      (if r.1.2 then .inl 2 else .inr r.1.1, r.2)
  else match s.winner with
    | none => (.inl 2, s)
    | some b =>
      let img := s.retiredImage (s.flash.image b)
      if p < img.length then (.inl 3, s) else (.inr img, s.land src img false)

/-- Steps 1 to 3 of a run; step 4 begins with the first erase. -/
def State.startRun (s : State) (mode : Nat) : State :=
  let s := s.setReg R.pbkWrStatus ((s.reg R.pbkWrStatus &&& 0x100#32) ||| 1#32)
  let r := s.runImage mode
  let s := r.2
  match r.1 with
  | .inl e => s.endRun e
  | .inr img =>
    if s.imageErr img ≠ 0 then s.endRun (s.imageErr img)
    else
      let target : Bool := s.winner == some false
      let gen : BitVec 32 := match s.winner with | some b => s.flash.gen b + 1 | none => 1
      ({ s with writer := { s.writer with mode := mode, image := sealed img, base := s.flash.base target, gen := gen, ops := 0 } }).setReg
        R.pbkWrStatus (1#32 ||| fld 1 3 4 ||| bfld 8 target)

/-- Runs that wait start when the writer is free. -/
def State.startWaiting : Nat → State → State
  | 0, s => s
  | n + 1, s => match s.writerBusy, s.writer.waits with
    | false, m :: rest => State.startWaiting n (({ s with writer := { s.writer with waits := rest } }).startRun m)
    | _, _ => s

/-- A start asked for by the host. -/
def State.askRun (s : State) (mode : Nat) : State :=
  let s := { s with writer := { s.writer with waits := s.writer.waits ++ [mode] } }
  State.startWaiting s.writer.waits.length s

/-- The end of a run, and the next one that waits. -/
def State.finishRun (s : State) (err : Nat) : State :=
  let s := s.endRun err
  State.startWaiting s.writer.waits.length s

/-- A write of PBK_WR_CTRL (R480). -/
def State.writerCtrl (s : State) (v : Word) : State :=
  let m := fieldN v 1 2
  if s.session ∧ bit v 0 ∧ (m = 1 ∨ m = 2) then s.askRun m else s

/-- A counter that holds a count starts a run: UPDATE first (R480). -/
def State.counterStart (s : State) : State :=
  let cfg := R.pbkWrCfg
  let u := s.regF cfg 0 7
  let r := s.regF cfg 8 7
  if s.phase ≠ .up ∨ 2 ≤ s.pstate ∨ s.regB cfg 24 = false ∨ s.writerBusy then s
  else if u < 64 ∧ 1 ≤ (s.cnt u).toNat then (s.post u (-1)).askRun 1
  else if r < 64 ∧ 1 ≤ (s.cnt r).toNat then (s.post r (-1)).askRun 2
  else s

/-- Steps 4 to 7 as the flash reports each operation done. -/
def State.flashDone (s : State) : State :=
  let w := s.writer
  let f := s.flash
  let n := w.ops + 1
  if s.writerBusy = false then s
  else match s.writerPhase with
  | 4 =>
    let size := 2 ^ f.eraseLog
    let s := { s with flash := f.erase (w.base + w.ops * size) size, writer := { w with ops := n } }
    if f.copySize ≤ n * size then ({ s with writer := { w with ops := 0 } }).setPhase 5 else s
  | 5 =>
    let size := 2 ^ f.pageLog
    let s := { s with flash := f.program (w.base + w.ops * size) ((w.image.drop (w.ops * size)).take size), writer := { w with ops := n } }
    if w.image.length ≤ n * size then
      (if s.flash.bytes w.base w.image.length = w.image then ({ s with writer := { w with ops := 0 } }).setPhase 7
       else s.finishRun 4)
    else s
  | 7 =>
    let pair := bytesOf 4 w.gen.toNat ++ bytesOf 4 (~~~w.gen).toNat
    let s := { s with flash := f.program (w.base + 12) pair }
    s.finishRun (if s.flash.bytes (w.base + 12) 8 = pair then 0 else 4)
  | _ => s

/-- The count of the flash operation in progress (R482). -/
def State.flashTimer (s : State) : Timer := .flash s.writerPhase s.writer.ops

/-! The commands. -/

/-- R480. -/
def execPbkWriteUpdate (s : State) : Host.Outcome State Fault Refusal :=
  (s.hostWrite R.pbkWrCtrl fun s => s.writerCtrl 3).done

/-- R480. -/
def execPbkWriteRetired (s : State) : Host.Outcome State Fault Refusal :=
  (s.hostWrite R.pbkWrCtrl fun s => s.writerCtrl 5).done

/-- R480. -/
def execWriterCounterStart (s : State) : Host.Outcome State Fault Refusal := s.counterStart.done

/-- R482: 2^28 ticks without an end of the flash operation. -/
def execWriterTimeout (s : State) : Host.Outcome State Fault Refusal :=
  (if s.writerBusy ∧ 2 ^ 28 ≤ s.age s.flashTimer then (s.restart s.flashTimer).finishRun 5 else s).done

/-- R481. -/
def execFlashOpDone (s : State) : Host.Outcome State Fault Refusal := s.flashDone.done

end Sys2Proof.Machine
end

