-- ==== Sys2Proof/Machine/Startup.lean ====
section
/-! DEFINITION. Power, start-up and the block reset (R452, R453, R455, R465, R488 to R490, R500, R501). -/

namespace Sys2Proof.Machine

/-! Shared pieces of the resets. -/

/-- A register word after a reset that keeps the bits of `m`. -/
def keepBits (reset v : Word) (m : Nat) : Word :=
  let m : Word := BitVec.ofNat 32 m
  (reset &&& ~~~m) ||| (v &&& m)

/-- The register file after a reset that keeps what `sel` says of each row. -/
def State.keepRegs (s : State) (sel : RegRow → Nat) : State :=
  { s with regs := s.regs.foldl (fun m x =>
      let r := regReset s.build x.1
      let k := match regRow? x.1 with | some row => sel row | none => 0
      NMap.set r m x.1 (keepBits r x.2 k)) [] }

/-- Training requests fall with the adapter outputs (R452). -/
def State.dropTrainReqs (s : State) : State :=
  s.fab.chans.foldl (fun s x => if x.2.req then s.emit (.trainReq (x.1 / 4) (x.1 % 4) false) else s) s

/-- Channels as they are before bring-up; whether a PHY is ready is its own. -/
def idleChans (m : NMap ChanSt) : NMap ChanSt :=
  m.foldl (fun m x => NMap.set ChanSt.init m x.1 { ChanSt.init with ready := x.2.ready }) []

/-- The fabric before bring-up: everything in flight is lost (R449). -/
def Fab.cleared (f : Fab) : Fab := ⟨[], idleChans f.chans, [], [], [], [], []⟩

/-- An empty property table but for the RETIRED descriptors (R269). -/
def PropTable.cleared (p : PropTable) : PropTable :=
  ⟨[], p.pages.filter fun d => d.2.state == .retired, [], [], [], [], [], [], 0, false, 0, false⟩

/-- The sequence tables, buckets and operations after a power-on or block reset (R415). -/
def Exch.cleared : Exch := ⟨[], [], [], [], [], none, [], [], []⟩

/-! Power (R453, R500). -/

/-- Off keeps the prompt book; the build, the queue of commands, what has left the block and the model's own counter are no
state of the powered core. -/
def State.powerOff (s : State) : State :=
  { State.reset with
    build := s.build, phase := .off, flash := s.flash, pending := s.pending, outs := s.outs, freeCtr := s.freeCtr
    pins := { State.reset.pins with pwrOk := false, blkRstN := s.pins.blkRstN } }

/-- `PWR_OK_FALL`: Off at once. -/
def State.pwrFall (s : State) : State := s.dropTrainReqs.powerOff

/-- `PWR_OK_RISE`: power-on reset. -/
def State.pwrRise (s : State) : State :=
  if s.phase = .off then { s with phase := .powerOnReset, pins := { s.pins with pwrOk := true } } else s

/-! Start-up (R488, R489). -/

/-- Step 6 of a power-on start-up: every installed frame that is not RETIRED holds zeros with valid check bytes (R262). -/
def State.clearMemory (s : State) : State := { s with mem := ⟨0, [], [], [], [], [], [], 0, s.retiredFrames⟩ }

/-- Step 7: bring-up of every port in use, in parallel; READY follows once each has an outcome. -/
def State.bringUpAll (s : State) : State :=
  (iter s.build.ports (fun p (s : State) => if s.portEn p then s.bringUp p else s) { s with phase := .bringUp }).checkReady

/-- Steps 4 to 8. -/
def State.startUp (s : State) (por : Bool) : State :=
  let r := s.loadBook por
  let s := if por then r.2.clearMemory else r.2
  (r.1.foldl (fun s x => s.ringWrite x.1 x.2) s).bringUpAll

/-- Step 3: the key is latched and acknowledged (R465); a key zeroed before stays zero (R467). -/
def State.latchKey (s : State) (k : BitVec 256) : State :=
  let z := s.regB R.pbkStatus 13
  let s := s.setKey (if z then 0 else k)
  ({ s with secret := { s.secret with latched := true, waiting := none }, pins := { s.pins with keyAck := true } }).emit .keyAck

/-- `POWER_ON_RESET_END` (R453, R465). -/
def State.porEnd (s : State) : State :=
  if s.phase ≠ .powerOnReset then s
  else match s.secret.waiting with
    | some k => (s.latchKey k).startUp true
    | none => { s with phase := .keyWait }

/-- `KEY_REQ`: before the key wait it stays raised, in the wait it is latched, afterwards it is ignored. -/
def State.keyReq (s : State) (k : BitVec 256) : State := match s.phase with
  | .off => { s with secret := { s.secret with waiting := some k } }
  | .powerOnReset => { s with secret := { s.secret with waiting := some k } }
  | .keyWait => (s.latchKey k).startUp true
  | _ => s

/-- `KEY_WAIT_TIMEOUT`: 2^20 ticks without `key_req`, and the key is zero. -/
def State.keyTimeout (s : State) : State :=
  if s.phase = .keyWait ∧ 2 ^ 20 ≤ s.age .key then ((s.setKey 0).setB R.pbkStatus 12 true).startUp true else s

/-! The block reset (R455, R492, R501). -/

/-- Frames marked for retirement take their descriptors as the table clears (R269). -/
def State.retirePending (s : State) : State :=
  let marked := s.prop.marked
  marked.foldl (fun s f => if s.frameRetired f then s else s.retireNow f) { s with prop := s.prop.cleared }

/-- Everything but memory contents, RETIRED descriptors, the key and the survivors of R501. -/
def State.blockClear (s : State) : State :=
  let s := s.dropTrainReqs.retirePending
  let s := s.keepRegs (·.keepBlock)
  { s with
    secret := { s.secret with waiting := none, nonce := 0, nonceOk := false, proof := 0, good := false, checkId := 0 }
    pins := { s.pins with irqN := true, tabOut := false, keyAck := false }
    latches := [], lines := State.reset.lines, fetchers := [], flights := [], queues := [], board := ⟨[], []⟩, trackers := []
    mem := { s.mem with wq := [], corr := [], watch := [], scrub := [] }
    bs := ⟨[], []⟩, fab := s.fab.cleared, arr := Arr.reset, cho := [], gangs := [], lanes := [], fly := []
    exch := Exch.cleared, writer := Writer.idle, rep := [], repBad := [], trig := [], timers := [] }

/-- A block reset begins. -/
def State.blockBegin (s : State) : State :=
  let s := s.blockClear
  let s := (s.setB R.rstCause 1 true).countMod R.rstCountBlock 1
  { s with phase := .blockReset, pins := { s.pins with blkRstN := false } }

/-- `BLOCK_RESET`: a pulse below 10 ticks may be taken or not (R455). -/
def State.blockReset (s : State) (lowTicks : Nat) : State := match s.phase with
  | .off => s
  | .powerOnReset => s
  | .blockReset => s
  | _ =>
    if 10 ≤ lowTicks then s.blockBegin
    else
      let k := s.fresh
      if Config.shortResetTaken k.1 then k.2.blockBegin else k.2

/-- `BLOCK_RESET_END`: start-up with the key kept; a key still awaited is awaited again. -/
def State.blockEnd (s : State) : State :=
  if s.phase ≠ .blockReset then s
  else
    let s := { s with pins := { s.pins with blkRstN := true } }
    if s.secret.latched ∨ s.regB R.pbkStatus 12 then s.startUp false else { s with phase := .keyWait }

/-! The commands. -/

/-- R453. -/
def execPwrOkRise (s : State) : Host.Outcome State Fault Refusal := s.pwrRise.done

/-- R453, R500. -/
def execPwrOkFall (s : State) : Host.Outcome State Fault Refusal := s.pwrFall.done

/-- R488. -/
def execPowerOnResetEnd (s : State) : Host.Outcome State Fault Refusal := s.porEnd.done

/-- R465. -/
def execKeyReq (key : BitVec 256) (s : State) : Host.Outcome State Fault Refusal := (s.keyReq key).done

/-- R465. -/
def execKeyWaitTimeout (s : State) : Host.Outcome State Fault Refusal := s.keyTimeout.done

/-- R455. -/
def execBlockReset (lowTicks : Nat) (s : State) : Host.Outcome State Fault Refusal := (s.blockReset lowTicks).done

/-- R455, R489. -/
def execBlockResetEnd (s : State) : Host.Outcome State Fault Refusal := s.blockEnd.done

end Sys2Proof.Machine
end

