-- ==== Sys2Proof/Machine/Power.lean ====
section
/-! DEFINITION. The soft reset (R493, R494), power states (R495 to R499), the governor, the ramp limiter and the pace (R505
to R509), and the loss of `ref_tick` (R454). -/

namespace Sys2Proof.Machine

/-! The soft reset. -/

/-- A line stops dispatching, and its queued cues and armed transfers go; what is in flight will make no posts. -/
def State.softLine (s : State) (l : Line) : State :=
  let s := s.updLine l fun ln => { ln with resetting := true, taken := none, atPrompter := false }
  let s := s.discardQueued l
  { s with flights := s.flights.map (Flight.hush l) }

/-- `SOFT_RESET`: ignored without a session (R461) and while one runs (R493). It ends a freeze (R520). -/
def State.softReset (s : State) (v : Word) : State :=
  if s.session = false ∨ bit v 0 = false ∨ s.softBusy then s
  else allLines.foldl State.softLine ((s.setB R.rstStatus 0 true).setB R.tabStatus 2 false)

/-- An outstanding backstage request whose answer finds nobody. -/
def voidReq (uid : Nat) (x : Nat × Nat × BsReq) : Nat × Nat × BsReq := (x.1, x.2.1, { x.2.2 with use := .flyWrite uid })

/-- Paging in flight is undone (R269): a page-in leaves its page BACKSTAGE, a write-back leaves it OWNED and DIRTY; moves
begin anew. The hint queue empties (R546). -/
def State.undoPaging (s : State) : State :=
  let s := (s.prop.ins.map (·.desc) ++ s.prop.demand).foldl (fun s d => s.updPage d fun p => { p with moving := false }) s
  let s := s.prop.outs.foldl (fun s w => s.updPage w.desc fun p => { p with moving := false, dirty := true }) s
  { s with
    prop := { s.prop with ins := [], outs := [], demand := [], hints := [], starve := false, cursor := 0, busy := false }
    bs := ⟨[], s.bs.out.map (voidReq (4 * s.nextUid))⟩, nextUid := s.nextUid + 1 }

/-- Exchange state (R415): bytes 44 to 127 of every entry clear, with STATE OPEN; outstanding operations are lost. -/
def Exch.soft (x : Exch) : Exch :=
  { x with
    buckets := NMap.mapVals (fun _ e => entSet (e &&& BitVec.ofNat 1024 (2 ^ 352 - 1)) Ex.state exOpen) x.buckets
    ops := [], syncs := [], run := none, serves := [], retGen := [], acted := [] }

/-- Programs and port settings stay; stage buffer, FIFO ports and row stores empty (R147, R178). -/
def ChoUnit.soft (u : ChoUnit) : ChoUnit :=
  { u with stage := [], spoilt := [], trips := 0, fifo := [], run := none, store := [] }

/-- The array complex with MODE and PARTITION at their reset values; which banks are awake stays (R98). -/
def Arr.soft (a : Arr) : Arr := { Arr.reset with awake := a.awake, allow := a.allow, slept := a.slept }

/-- Line state after R325, with the counts that a soft reset keeps (R326). -/
def State.softEndLine (s : State) (l : Line) : State :=
  let i := l.idx
  let w := s.reg (R.lineWaitTicks i)
  let t := s.reg (R.lineStallTicks i)
  let n := s.reg (R.lineIntakeRefused i)
  (((s.endReset l).setReg (R.lineWaitTicks i) w).setReg (R.lineStallTicks i) t).setReg (R.lineIntakeRefused i) n

/-- Steps 2 to 6 of R493. -/
def State.softEnd (s : State) : State :=
  let s := s.undoPaging
  let s := { s with
    flights := [], queues := [], fly := [], lanes := [], gangs := [], arr := s.arr.soft
    cho := NMap.mapVals (fun _ u => u.soft) s.cho, exch := s.exch.soft, board := ⟨[], []⟩, fetchers := []
    mem := { s.mem with wq := [] }, fab := { s.fab with rops := [] } }
  let s := (allLines.foldl State.softEndLine s).resetDoor
  let s := s.keepRegs (·.keepSoft)
  (s.setB R.rstCause 2 true).countMod R.rstCountSoft 1

/-- `SOFT_RESET_DONE`: once no run or kernel can go on. -/
def State.softResetDone (s : State) : State :=
  if s.softBusy = false then s
  else
    let s := allLines.foldl (fun s l => (s.stopWaiting l).dropFinished l) s
    if (List.range s.build.units).any fun u => (s.unit u).run.isSome then s else s.softEnd

/-! Idle and Drowse. -/

/-- Something of an engine is still under way. -/
def State.engineWork (s : State) : Bool :=
  !(s.flights.isEmpty && s.prop.ins.isEmpty && s.prop.outs.isEmpty && s.prop.moves.isEmpty && s.prop.demand.isEmpty
    && s.exch.serves.isEmpty && s.arr.inFlight.isEmpty)

/-- `IDLE_ENTRY` (R495, R496). -/
def State.idleEntry (s : State) : State :=
  let busy := allLines.any fun l => let st := (s.lineState l).1; st == 2 || st == 4
  if s.phase ≠ .up ∨ s.pstate ≠ 0 ∨ busy ∨ s.engineWork then s else s.setF R.pwrStatus 0 3 1

/-- The first failing condition of R497, by its WHY number; 0 when none fails. -/
def State.drowseWhy (s : State) : Nat :=
  let quiet := allLines.all fun l => let st := (s.lineState l).1; st == 0 || st == 1 || st == 5
  if quiet = false ∨ s.flights ≠ [] then 1
  else if (List.range 16).any fun k => (s.tree k).pending || !(s.tree k).early.isEmpty then 2
  else if s.softBusy then 3
  else if s.writerBusy then 4
  else if s.frozen then 6
  else 0

/-- DROWSE_REFUSED with a reason. -/
def State.drowseRefused (s : State) (why : Nat) : State := (s.setB R.pwrStatus 3 true).setF R.pwrStatus 4 3 why

/-- `DROWSE_REQUEST` (R497, R498 step 1): outside Run and Idle it is ignored (R499). -/
def State.drowseRequest (s : State) : State :=
  if s.phase ≠ .up ∨ 2 ≤ s.pstate then s
  else if s.drowseWhy ≠ 0 then s.drowseRefused s.drowseWhy
  else ((s.setF R.pwrStatus 0 3 2).setB R.ctlStatus 0 false).closeSession

/-- Entering has drained (R497). -/
def State.entryDrained (s : State) : Bool :=
  s.prop.ins.isEmpty && s.prop.outs.isEmpty && s.prop.moves.isEmpty && s.prop.demand.isEmpty
    && s.exch.ops.isEmpty && s.exch.syncs.isEmpty

/-- The array complex in Drowse: MODE and PARTITION stay (R97). -/
def Arr.asleep (a : Arr) : Arr := { Arr.reset with mode := a.mode, split := a.split, lineA := a.lineA, lineB := a.lineB }

/-- Links in Drowse: retired channels stay so, everything in flight is lost (R449). -/
def Fab.asleep (f : Fab) : Fab :=
  { f with
    ports := NMap.mapVals (fun _ p => if p.state = .disabled then p else PortSt.mk .down 0 none none true) f.ports
    chans := f.chans.foldl (fun m x => NMap.set ChanSt.init m x.1
      { ChanSt.init with ready := x.2.ready, state := if x.2.state = .retired then .retired else .idle }) []
    waitq := [], partials := [], localIn := [], rops := [] }

/-- `DROWSE_ENTRY` (R498 steps 2 to 4, R501): writes that have not landed are lost (R225). -/
def State.drowseEntry (s : State) : State :=
  if s.pstate ≠ 2 ∨ s.entryDrained = false then s
  else
    let s := s.dropTrainReqs
    let mv := s.regF R.pwrVreq 0 10
    let s := s.keepRegs (·.keepDrowse)
    let s := { s with
      secret := { s.secret with nonceOk := false, proof := 0, good := false }
      arr := s.arr.asleep, cho := [], gangs := [], lanes := [], fly := [], tab := ⟨[]⟩, fab := s.fab.asleep
      mem := { s.mem with wq := [] }, prop := { s.prop with hints := [], starve := false } }
    (((s.setF R.pwrVreq 0 10 mv).setVreq 550).setF R.pwrStatus 0 3 3).latchIrq 6

/-- `DROWSE_ENTRY_TIMEOUT` (R497): after 2^20 ticks back to Run, which serves again. -/
def State.drowseTimeout (s : State) : State :=
  if s.pstate ≠ 2 ∨ s.age .drowse < 2 ^ 20 then s else ((s.drowseRefused 5).setF R.pwrStatus 0 3 0).setB R.ctlStatus 0 true

/-- Bring-up at the end of Drowse: retired channels stay retired (R449). -/
def State.wakePort (s : State) (p : Nat) : State :=
  if s.portEn p = false then s
  else
    let s := s.setPort p ⟨.training, 0, none, none, false⟩
    let s := iter 4 (fun c s => if (s.chan p c).state = .retired then s else s.freshChan p c) s
    if [0, 1, 2, 3].all fun c => (s.chan p c).state == .retired then s.enterDown p else s

/-- `WAKE` (R498 steps 7 to 9): ignored outside Drowse; a shadow that fails its check is core fatal (R525). -/
def State.wake (s : State) (shadowOk : Bool) : State :=
  if s.pstate ≠ 3 then s
  else
    let s := s.setF R.pwrStatus 0 3 4
    let s := { s with mem := { s.mem with watch := [] } }
    let s := iter s.build.ports (fun p s => s.wakePort p) s
    if shadowOk then s else s.coreFault (FaultRec.plain 5 unitAon Code.shadowInvalid.num 0 0)

/-- `WAKING_COMPLETE` (R498 step 10, R515, R540). -/
def State.wakingComplete (s : State) : State :=
  if s.pstate ≠ 4 ∨ (List.range s.build.ports).all s.portSettled = false then s
  else
    ((((s.setF R.pwrStatus 0 3 0).setB R.ctlStatus 0 true).setB R.tabStatus 0 true).setB R.rstCause 3 true).latchIrq 0

/-! The governor, the pace and the ramp limiter. -/

/-- The core is out of power-on and block reset. -/
def State.running (s : State) : Bool := match s.phase with
  | .off => false
  | .powerOnReset => false
  | .blockReset => false
  | _ => true

/-- An estimate meets PWR_LIMIT (R507). -/
def State.govern (s : State) (total : Nat) : State :=
  let lim : Int := (s.regF R.pwrLimit 0 16 : Nat)
  let hyst : Int := (s.regF R.pwrLimit 16 16 : Nat)
  if lim < (total : Int) then s.setB R.pwrStatus 7 true
  else if (total : Int) ≤ lim - hyst then s.setB R.pwrStatus 7 false
  else s

/-- `POWER_ESTIMATE` (R506). -/
def State.powerEstimate (s : State) (arr cho mem other temp : BitVec 16) : State :=
  if s.running = false then s
  else
    let total := min 0xFFFF (arr.toNat + cho.toNat + mem.toNat + other.toNat)
    let s := (s.setReg R.pwrEst (fld 0 16 total)).setReg R.pwrEstParts0 (fld 0 16 arr.toNat ||| fld 16 16 cho.toNat)
    let s := (s.setReg R.pwrEstParts1 (fld 0 16 mem.toNat ||| fld 16 16 other.toNat)).setReg R.pwrTemp (fld 0 16 temp.toNat)
    s.govern total

/-- `PACE_WINDOW` (R505): PACE_COUNT reads 0 in Drowse and until the first window after start-up or Waking. -/
def State.paceWindow (s : State) (count : BitVec 16) : State :=
  if s.phase ≠ .up ∨ 3 ≤ s.pstate then s else s.setReg R.pwrPace (fld 0 16 count.toNat)

/-- `RAMP_ALLOWANCE` (R509): every 100 ticks. -/
def State.rampAllowance (s : State) : State :=
  let n := s.regF R.pwrRamp 0 6
  { s with arr := { s.arr with allow := min (s.arr.allow + n) (max n s.arr.want), slept := 0 } }

/-! `ref_tick` (R454). -/

/-- CTL_STATUS.TICK_LOST. -/
def State.tickLost (s : State) : Bool := s.regB R.ctlStatus 1

/-- `REF_TICK_LOST`. -/
def State.loseTick (s : State) : State :=
  if s.running = false ∨ s.tickLost then s
  else (s.setB R.ctlStatus 1 true).coreFault (FaultRec.plain 5 unitAon Code.tickLost.num 0 0)

/-- `REF_TICK_RESTORED`: edges are there again. -/
def State.restoreTick (s : State) : State := s.setB R.ctlStatus 1 false

/-! The commands. -/

/-- R493. -/
def execSoftReset (data : Word) (s : State) : Host.Outcome State Fault Refusal :=
  (s.hostWrite R.ctlSoftReset fun s => s.softReset data).done

/-- R493. -/
def execSoftResetDone (s : State) : Host.Outcome State Fault Refusal := s.softResetDone.ringsAct.done

/-- R495. -/
def execIdleEntry (s : State) : Host.Outcome State Fault Refusal := s.idleEntry.done

/-- R497. -/
def execDrowseRequest (s : State) : Host.Outcome State Fault Refusal :=
  (s.hostWrite R.pwrCtrl fun s => s.drowseRequest).done

/-- R498. -/
def execDrowseEntry (s : State) : Host.Outcome State Fault Refusal := s.drowseEntry.done

/-- R497. -/
def execDrowseEntryTimeout (s : State) : Host.Outcome State Fault Refusal := s.drowseTimeout.done

/-- R498. -/
def execWake (shadowOk : Bool) (s : State) : Host.Outcome State Fault Refusal :=
  (s.hostWrite R.pwrCtrl fun s => s.wake shadowOk).done

/-- R498. -/
def execWakingComplete (s : State) : Host.Outcome State Fault Refusal := s.wakingComplete.done

/-- R508. -/
def execPwrVreqWrite (data : Word) (s : State) : Host.Outcome State Fault Refusal :=
  (s.hostWrite R.pwrVreq fun s => s.vreqWrite data).done

/-- R506, R507. -/
def execPowerEstimate (arr cho mem other temp : BitVec 16) (s : State) : Host.Outcome State Fault Refusal :=
  (s.powerEstimate arr cho mem other temp).done

/-- R505. -/
def execPaceWindow (count : BitVec 16) (s : State) : Host.Outcome State Fault Refusal := (s.paceWindow count).done

/-- R509. -/
def execRampAllowance (s : State) : Host.Outcome State Fault Refusal := s.rampAllowance.done

/-- R454. -/
def execRefTickLost (s : State) : Host.Outcome State Fault Refusal := s.loseTick.done

/-- R454. -/
def execRefTickRestored (s : State) : Host.Outcome State Fault Refusal := s.restoreTick.done

end Sys2Proof.Machine
end

