-- ==== Sys2Proof/Machine/HostRegs.lean ====
section
/-! DEFINITION. Well-shaped accesses of the register window (R459, R461, R533 to R536), tableau commands (R513, R515, R520)
and the sampled pins (R456, R457). -/

namespace Sys2Proof.Machine

/-! Tableau commands. -/

/-- A write of TAB_CMD: THAW, then ARM, then TRIGGER (DESIGN CHOICE, log entry 19). -/
def State.tabCmd (s : State) (v : Word) : State :=
  let s := if bit v 2 then s.setB R.tabStatus 2 false else s
  let s := if bit v 1 then s.setB R.tabStatus 0 true else s
  if bit v 0 then s.trigger 6 (field v 16 16) else s

/-! Writes. -/

/-- Registers outside the blocks whose write acts. -/
def State.writeAct (s : State) (off : Nat) (v : Word) : Option State :=
  if off = R.lineMode then some (s.splitWrite v)
  else if off = R.callHostPost then some (s.hostPost v)
  else if off = R.callSet then some (s.callSet v)
  else if off = R.exchReplayClear then some (s.replayWrite v)
  else if off = R.tabCmd then some (s.tabCmd v)
  else if off = R.pbkWrCtrl then some (s.writerCtrl v)
  else if off = R.sesClose then some (s.closeWrite v)
  else if off = R.ctlSoftReset then some (s.softReset v)
  else if off = R.pwrCtrl then
    some (if bit v 0 then s.drowseRequest else if bit v 1 then s.wake true else s)
  else none

/-- Registers of a block whose write acts: lines, curtain counters, ports, proof words and the store. -/
def State.blockAct (s : State) (off : Nat) (v : Word) : Option State :=
  let o := off % 0x200
  let l := Line.ofIdx ((off - 0x04000) / 0x200)
  let p := (off - 0x51000) / 0x100
  if 0x80000 ≤ off then some (if off < 0xC0000 then s.repWrite (off - 0x80000) v else s)
  else if 0x04000 ≤ off ∧ off < 0x04800 ∧ o = 4 then some (s.lineCtrlWrite l v)
  else if 0x04000 ≤ off ∧ off < 0x04800 ∧ o = 8 then some (s.ringWrite l v)
  else if 0x06400 ≤ off ∧ off < 0x06500 ∧ off % 16 = 8 then some (s.ccClear ((off - 0x06400) / 16) v)
  else if 0x51000 ≤ off ∧ off < 0x52000 ∧ off % 0x100 = 0 then some (s.portCfgWrite p v)
  else if 0x51000 ≤ off ∧ off < 0x52000 ∧ off % 0x100 = 8 then some (if bit v 0 then s.portReset p else s)
  else if 0x01840 ≤ off ∧ off < 0x0185C then some (s.proofWord ((off - 0x01840) / 4) v)
  else if off = R.sesProof 7 then some (s.startProof v)
  else none

/-- A write by a register's access code, and what the write starts. -/
def State.regWrite (s : State) (off : Nat) (v : Word) : State := match s.writeAct off v with
  | some s => s
  | none => match s.blockAct off v with
    | some s => s
    | none => s.configWrite s.session off v

/-- Well-shaped accesses have an address that is a multiple of 4 (R461). -/
def aligned4 (off : Nat) : Bool := off % 4 == 0

/-- `REGISTER_WRITE`. -/
def State.registerWrite (s : State) (off : Nat) (v : Word) : State :=
  s.hostWrite off fun s => if aligned4 off then s.regWrite off v else s.hostError off true

/-! Reads. -/

/-- What a read does before its value is taken: a snapshot, or a nonce drawn from the noise source, whose bits are free
values. -/
def State.beforeRead (s : State) (off : Nat) : State :=
  if off = R.sesNonce 0 then
    iter 8 (fun _ (st : BitVec 512 × State) =>
      let k := st.2.fresh
      ((st.1 <<< 64) ||| (Config.freeWord k.1).setWidth 512, k.2)) (0, s) |> fun r => r.2.drawNonce r.1
  else s.snapshot off

/-- A well-shaped read: the value, then what the read clears and latches (R534, R535). -/
def State.readServed (s : State) (off : Nat) : State :=
  let s := s.hostTouch.beforeRead off
  ((s.emit (.hostRsp (s.readReg off) false)).latchHi off).clearRc off

/-- A read of register `off`. -/
def State.registerRead (s : State) (off : Nat) : State := match s.serve off with
  | .ok => if aligned4 off then s.readServed off else (s.hostTouch.hostError off false).emit (.hostRsp 0 true)
  | _ => s.hostRead off id

/-! Pins. -/

/-- `IRQ_SAMPLE` (R456, R541). -/
def State.irqSample (s : State) : State :=
  if s.running then
    { s with pins := { s.pins with irqN := (s.ctlWord R.ctlIrqPend &&& s.reg R.ctlIrqEnable) == 0 } }
  else s

/-- `TAB_IN` (R457, R513). -/
def State.tabIn (s : State) (highTicks : Nat) : State :=
  if 2 ≤ highTicks ∧ s.ready ∧ s.regB R.tabCtrl 3 then s.trigger 7 ((s.reg R.tabCount).setWidth 16) else s

/-! The commands. -/

/-- R461. -/
def execRegisterWrite (off : BitVec 20) (data : Word) (s : State) : Host.Outcome State Fault Refusal :=
  (s.registerWrite off.toNat data).done

/-- R535. -/
def execRcRegisterRead (off : BitVec 20) (s : State) : Host.Outcome State Fault Refusal := (s.registerRead off.toNat).done

/-- R534. -/
def execLoRegisterRead (off : BitVec 20) (s : State) : Host.Outcome State Fault Refusal := (s.registerRead off.toNat).done

/-- R270, R416. -/
def execSnapshotRead (off : BitVec 20) (s : State) : Host.Outcome State Fault Refusal := (s.registerRead off.toNat).done

/-- R513. -/
def execTabTrigger (id : BitVec 16) (s : State) : Host.Outcome State Fault Refusal :=
  (s.hostWrite R.tabCmd fun s => s.tabCmd (1#32 ||| fld 16 16 id.toNat)).done

/-- R515. -/
def execTabArm (s : State) : Host.Outcome State Fault Refusal := (s.hostWrite R.tabCmd fun s => s.tabCmd 2).done

/-- R520. -/
def execThaw (s : State) : Host.Outcome State Fault Refusal := (s.hostWrite R.tabCmd fun s => s.tabCmd 4).done

/-- R456. -/
def execIrqSample (s : State) : Host.Outcome State Fault Refusal := s.irqSample.done

/-- R457. -/
def execTabIn (highTicks : Nat) (s : State) : Host.Outcome State Fault Refusal := (s.tabIn highTicks).done

/-- R457. -/
def execTabOutEnd (s : State) : Host.Outcome State Fault Refusal :=
  ({ s with pins := { s.pins with tabOut := false } }).done

end Sys2Proof.Machine
end

