-- ==== Sys2Proof/Machine/Dispatch.lean ====
section
/-! DEFINITION. One arm per command: each calls its meaning. -/

namespace Sys2Proof.Machine

def exec (i : Instr) (s : State) : Host.Outcome State Fault Refusal :=
  match i with
  | .pwrOkRise => Sys2Proof.Machine.execPwrOkRise s
  | .pwrOkFall => Sys2Proof.Machine.execPwrOkFall s
  | .powerOnResetEnd => Sys2Proof.Machine.execPowerOnResetEnd s
  | .keyReq key => Sys2Proof.Machine.execKeyReq key s
  | .keyWaitTimeout => Sys2Proof.Machine.execKeyWaitTimeout s
  | .blockReset lowTicks => Sys2Proof.Machine.execBlockReset lowTicks s
  | .blockResetEnd => Sys2Proof.Machine.execBlockResetEnd s
  | .refTickLost => Sys2Proof.Machine.execRefTickLost s
  | .refTickRestored => Sys2Proof.Machine.execRefTickRestored s
  | .tabIn highTicks => Sys2Proof.Machine.execTabIn highTicks s
  | .tabOutEnd => Sys2Proof.Machine.execTabOutEnd s
  | .irqSample => Sys2Proof.Machine.execIrqSample s
  | .wsBypass code => Sys2Proof.Machine.execWsBypass code s
  | .wsExtest => Sys2Proof.Machine.execWsExtest s
  | .wsIntest => Sys2Proof.Machine.execWsIntest s
  | .wsScan => Sys2Proof.Machine.execWsScan s
  | .wsMbist => Sys2Proof.Machine.execWsMbist s
  | .intakeWrite l off be data => Sys2Proof.Machine.execIntakeWrite l off be data s
  | .heldCommitLands l => Sys2Proof.Machine.execHeldCommitLands l s
  | .intakeHoldExpiry l => Sys2Proof.Machine.execIntakeHoldExpiry l s
  | .hostMisshapedAccess addr write => Sys2Proof.Machine.execHostMisshapedAccess addr write s
  | .registerWrite off data => Sys2Proof.Machine.execRegisterWrite off data s
  | .rcRegisterRead off => Sys2Proof.Machine.execRcRegisterRead off s
  | .loRegisterRead off => Sys2Proof.Machine.execLoRegisterRead off s
  | .snapshotRead off => Sys2Proof.Machine.execSnapshotRead off s
  | .lineRingWrite l data => Sys2Proof.Machine.execLineRingWrite l data s
  | .hostHalt l => Sys2Proof.Machine.execHostHalt l s
  | .lineResume l => Sys2Proof.Machine.execLineResume l s
  | .lineResumeSkip l => Sys2Proof.Machine.execLineResumeSkip l s
  | .lineReset l => Sys2Proof.Machine.execLineReset l s
  | .lineResetDone l => Sys2Proof.Machine.execLineResetDone l s
  | .splitModeWrite data => Sys2Proof.Machine.execSplitModeWrite data s
  | .repWrite off data => Sys2Proof.Machine.execRepWrite off data s
  | .prompterDispatch upset board => Sys2Proof.Machine.execPrompterDispatch s upset board
  | .fetcherDispatch engine => Sys2Proof.Machine.execFetcherDispatch engine s
  | .nop l => Sys2Proof.Machine.execNop l s
  | .fence l => Sys2Proof.Machine.execFence l s
  | .loopBegin l => Sys2Proof.Machine.execLoopBegin l s
  | .loopEnd l => Sys2Proof.Machine.execLoopEnd l s
  | .callRoutine l => Sys2Proof.Machine.execCallRoutine l s
  | .setLoop l => Sys2Proof.Machine.execSetLoop l s
  | .halt l => Sys2Proof.Machine.execHalt l s
  | .stepAdvance l => Sys2Proof.Machine.execStepAdvance l s
  | .curtainCall l => Sys2Proof.Machine.execCurtainCall l s
  | .tableau => Sys2Proof.Machine.execTableau s
  | .arrFill q par hpar => Sys2Proof.Machine.execArrFill q par s hpar
  | .arrDropHold q => Sys2Proof.Machine.execArrDropHold q s
  | .arrConfig q => Sys2Proof.Machine.execArrConfig q s
  | .weightPreload h par => Sys2Proof.Machine.execWeightPreload h par s
  | .drainTile q par => Sys2Proof.Machine.execDrainTile q par s
  | .bankSleep bank => Sys2Proof.Machine.execBankSleep bank s
  | .choRun u => Sys2Proof.Machine.execChoRun u s
  | .tileClaim u => Sys2Proof.Machine.execTileClaim u s
  | .choProgLoad u => Sys2Proof.Machine.execChoProgLoad u s
  | .choConfig u => Sys2Proof.Machine.execChoConfig u s
  | .choTqDrop u => Sys2Proof.Machine.execChoTqDrop u s
  | .redRow u => Sys2Proof.Machine.execRedRow u s
  | .redCol u => Sys2Proof.Machine.execRedCol u s
  | .scan u => Sys2Proof.Machine.execScan u s
  | .krnNormFwd u => Sys2Proof.Machine.execKrnNormFwd u s
  | .krnNormBwd u => Sys2Proof.Machine.execKrnNormBwd u s
  | .krnSoftmaxFwd u => Sys2Proof.Machine.execKrnSoftmaxFwd u s
  | .krnSoftmaxBwd u => Sys2Proof.Machine.execKrnSoftmaxBwd u s
  | .krnGscanFwd u => Sys2Proof.Machine.execKrnGscanFwd u s
  | .krnGscanBwd u => Sys2Proof.Machine.execKrnGscanBwd u s
  | .flyMove e n => Sys2Proof.Machine.execFlyMove e n s
  | .transferArm e upset => Sys2Proof.Machine.execTransferArm e upset s
  | .transferActivate e => Sys2Proof.Machine.execTransferActivate e s
  | .creditReturn e n => Sys2Proof.Machine.execCreditReturn e n s
  | .writeLands n => Sys2Proof.Machine.execWriteLands n s
  | .cueComplete n => Sys2Proof.Machine.execCueComplete n s
  | .propAlloc upset => Sys2Proof.Machine.execPropAlloc upset s
  | .propFree => Sys2Proof.Machine.execPropFree s
  | .propPageIn => Sys2Proof.Machine.execPropPageIn s
  | .propPageOut => Sys2Proof.Machine.execPropPageOut s
  | .propMirror => Sys2Proof.Machine.execPropMirror s
  | .propLock => Sys2Proof.Machine.execPropLock s
  | .hintedPageInStart => Sys2Proof.Machine.execHintedPageInStart s
  | .backstageResponse ch tag err data => Sys2Proof.Machine.execBackstageResponse ch tag err data s
  | .backstageTimeout ch tag => Sys2Proof.Machine.execBackstageTimeout ch tag s
  | .scrubRead bank upset => Sys2Proof.Machine.execScrubRead bank upset s
  | .scrubPeriodEnd => Sys2Proof.Machine.execScrubPeriodEnd s
  | .correctedWriteback bank => Sys2Proof.Machine.execCorrectedWriteback bank s
  | .retirementMoveComplete frame => Sys2Proof.Machine.execRetirementMoveComplete frame s
  | .post src tag counter delta upset => Sys2Proof.Machine.execPost src tag counter delta upset s
  | .callHostPost data => Sys2Proof.Machine.execCallHostPost data s
  | .callSet data => Sys2Proof.Machine.execCallSet data s
  | .callCcClear k data => Sys2Proof.Machine.execCallCcClear k data s
  | .curtainArrival k seq child => Sys2Proof.Machine.execCurtainArrival k seq child s
  | .curtainRelease k seq maskCall maskCc values => Sys2Proof.Machine.execCurtainRelease k seq maskCall maskCc values s
  | .curtainWatchdog l => Sys2Proof.Machine.execCurtainWatchdog l s
  | .exchBucketSet => Sys2Proof.Machine.execExchBucketSet s
  | .exchSend => Sys2Proof.Machine.execExchSend s
  | .exchSettle => Sys2Proof.Machine.execExchSettle s
  | .exchOpen => Sys2Proof.Machine.execExchOpen s
  | .accumulate src bucket gen seq group count ch pmask data => Sys2Proof.Machine.execAccumulate src bucket gen seq group count ch pmask data s
  | .close src bucket gen seq count ch max sum fail => Sys2Proof.Machine.execClose src bucket gen seq count ch max sum fail s
  | .skip src bucket gen seq group ch => Sys2Proof.Machine.execSkip src bucket gen seq group ch s
  | .notice src bucket gen shift => Sys2Proof.Machine.execNotice src bucket gen shift s
  | .resend src bucket gen attempt => Sys2Proof.Machine.execResend src bucket gen attempt s
  | .unable src bucket gen attempt => Sys2Proof.Machine.execUnable src bucket gen attempt s
  | .exchAck src ch seq => Sys2Proof.Machine.execExchAck src ch seq s
  | .exchNak src ch last => Sys2Proof.Machine.execExchNak src ch last s
  | .refused src ch seq => Sys2Proof.Machine.execRefused src ch seq s
  | .exchAckTimeout dst ch => Sys2Proof.Machine.execExchAckTimeout dst ch s
  | .syncOpTimeout n => Sys2Proof.Machine.execSyncOpTimeout n s
  | .replayClearSource data => Sys2Proof.Machine.execReplayClearSource data s
  | .replayClearAll => Sys2Proof.Machine.execReplayClearAll s
  | .flitAccept p c flit => Sys2Proof.Machine.execFlitAccept p c flit s
  | .linkAck p c payload => Sys2Proof.Machine.execLinkAck p c payload s
  | .linkNak p c lseq => Sys2Proof.Machine.execLinkNak p c lseq s
  | .replayTimeout p c => Sys2Proof.Machine.execReplayTimeout p c s
  | .handover p c lseq => Sys2Proof.Machine.execHandover p c lseq s
  | .hello p peer => Sys2Proof.Machine.execHello p peer s
  | .verdict p v => Sys2Proof.Machine.execVerdict p v s
  | .fabPhyReady p c => Sys2Proof.Machine.execFabPhyReady p c s
  | .fabTrainDone p c => Sys2Proof.Machine.execFabTrainDone p c s
  | .fabTrainFail p c => Sys2Proof.Machine.execFabTrainFail p c s
  | .trainTimeout p c => Sys2Proof.Machine.execTrainTimeout p c s
  | .fabPhyErr p c => Sys2Proof.Machine.execFabPhyErr p c s
  | .downPortRetry p => Sys2Proof.Machine.execDownPortRetry p s
  | .fabPortReset p => Sys2Proof.Machine.execFabPortReset p s
  | .fabPortCfgWrite p data => Sys2Proof.Machine.execFabPortCfgWrite p data s
  | .write src addr tag data => Sys2Proof.Machine.execWrite src addr tag data s
  | .read src addr tag count => Sys2Proof.Machine.execRead src addr tag count s
  | .readData src tag status data => Sys2Proof.Machine.execReadData src tag status data s
  | .done src tag status => Sys2Proof.Machine.execDone src tag status s
  | .unreachable opc router key => Sys2Proof.Machine.execUnreachable opc router key s
  | .remoteOpTimeout tag => Sys2Proof.Machine.execRemoteOpTimeout tag s
  | .tableauFlit id origin => Sys2Proof.Machine.execTableauFlit id origin s
  | .tabTrigger id => Sys2Proof.Machine.execTabTrigger id s
  | .tabArm => Sys2Proof.Machine.execTabArm s
  | .thaw => Sys2Proof.Machine.execThaw s
  | .pbkWriteUpdate => Sys2Proof.Machine.execPbkWriteUpdate s
  | .pbkWriteRetired => Sys2Proof.Machine.execPbkWriteRetired s
  | .writerCounterStart => Sys2Proof.Machine.execWriterCounterStart s
  | .writerTimeout => Sys2Proof.Machine.execWriterTimeout s
  | .flashOpDone => Sys2Proof.Machine.execFlashOpDone s
  | .nonceDraw noise => Sys2Proof.Machine.execNonceDraw noise s
  | .proofWrite data => Sys2Proof.Machine.execProofWrite data s
  | .proofCheckDone => Sys2Proof.Machine.execProofCheckDone s
  | .doorLockEnd => Sys2Proof.Machine.execDoorLockEnd s
  | .sesClose data => Sys2Proof.Machine.execSesClose data s
  | .sessionIdleTimeout => Sys2Proof.Machine.execSessionIdleTimeout s
  | .softReset data => Sys2Proof.Machine.execSoftReset data s
  | .softResetDone => Sys2Proof.Machine.execSoftResetDone s
  | .idleEntry => Sys2Proof.Machine.execIdleEntry s
  | .drowseRequest => Sys2Proof.Machine.execDrowseRequest s
  | .drowseEntry => Sys2Proof.Machine.execDrowseEntry s
  | .drowseEntryTimeout => Sys2Proof.Machine.execDrowseEntryTimeout s
  | .wake shadowOk => Sys2Proof.Machine.execWake shadowOk s
  | .wakingComplete => Sys2Proof.Machine.execWakingComplete s
  | .pwrVreqWrite data => Sys2Proof.Machine.execPwrVreqWrite data s
  | .powerEstimate arr cho mem other temp => Sys2Proof.Machine.execPowerEstimate arr cho mem other temp s
  | .paceWindow count => Sys2Proof.Machine.execPaceWindow count s
  | .rampAllowance => Sys2Proof.Machine.execRampAllowance s

end Sys2Proof.Machine
end

