-- ==== Sys2Proof/Machine/Tick.lean ====
section
/-! DEFINITION. One tick of `ref_tick` (R11, R12): what an empty queue's step does (log entry 1). Counts in ticks rise by
one, counts in beats by a free number of beats; a count that reaches its limit acts. -/

namespace Sys2Proof.Machine

/-- A count of beats rises by what one tick brings, which no rule fixes (R544). -/
def State.countBeats (s : State) (off : Nat) : State :=
  let k := s.fresh
  k.2.count off (Config.freeWord k.1).toNat

/-- What may lapse at this moment (R11): while the core is frozen four of the limits do not count (R519). -/
def State.timed (s : State) : List Timer :=
  let chans : List (Nat × Nat) := (List.range s.build.ports).flatMap fun p => (List.range 4).map fun c => (p, c)
  let trains (p c : Nat) : Bool := (s.chan p c).state == .retraining
    || ((s.chan p c).state == .idle && ((s.port p).state == .training || ((s.port p).state == .down && (s.chan p c).req)))
  ((s.fab.rops.filter fun r => r.kind != .post).map fun r => .remote r.tag)
  ++ (s.exch.ops.map fun o => .exchange o.dst o.ch o.seq) ++ s.exch.syncs.map SyncOp.timer
  ++ (s.bs.out.map fun r => .backstage r.1 r.2.1)
  ++ ((chans.filter fun x => s.hears x.1 x.2 && !(s.chan x.1 x.2).replay.isEmpty).map fun x =>
        .replay x.1 x.2 (beforeOldest 0 (s.chan x.1 x.2).replay))
  ++ ((chans.filter fun x => trains x.1 x.2).map fun x => .train x.1 x.2)
  ++ (if s.writerBusy then [s.flashTimer] else []) ++ (if s.phase = .keyWait then [.key] else [])
  ++ (if s.pstate = 2 then [.drowse] else [])
  ++ ((allLines.filter fun l => (s.line l).held.isSome).map .hold)

/-- A limit that a freeze stops (R519). -/
def Timer.freezes : Timer → Bool
  | .remote _ => true
  | .exchange _ _ _ => true
  | .sync _ _ _ _ _ => true
  | .backstage _ _ => true
  | _ => false

/-- One tick of all that may lapse; what is over is forgotten. -/
def State.tickTimers (s : State) : State :=
  { s with timers := s.timed.map fun t => (t, if s.frozen && t.freezes then s.age t else s.age t + 1) }

/-- The waiting and watchdog counts of a line (R326, R353, R354). -/
def State.tickLine (s : State) (l : Line) : State :=
  let st := (s.lineState l).1
  let s := if st = 3 then s.count (R.lineWaitTicks l.idx) 1 else if st = 4 then s.count (R.lineStallTicks l.idx) 1 else s
  if s.frozen then s
  else if s.outstanding l then (s.count (R.callWdogAge l.idx) 1).watchdog l
  else s.setReg (R.callWdogAge l.idx) 0

/-- The lock and the idle count of a session (R486, R487), which end both at the tick that completes them. -/
def State.tickSession (s : State) : State :=
  let s := if s.locked ∧ s.reg R.sesLockTicks ≠ 0 then s.setReg R.sesLockTicks (s.reg R.sesLockTicks - 1) else s
  let s := s.unlockDoor.idleClose
  if s.session then s.count R.sesIdleTicks 1 else s

/-- The waiting counts of a chorus unit and its reduction unit: operands for the one, elements or carries for the other
(R148, R177, R179). -/
def State.tickUnit (s : State) (u : Nat) : State :=
  let w := s.unitWaits u
  let red := (s.redCue u).isSome
  let s := if w.1 ∨ w.2.1 then s.countBeats (R.choUStallBeats u) else s
  if (w.1 ∨ w.2.1 ∨ w.2.2) ∧ red then s.countBeats (R.choRuStallBeats u) else s

/-- The waiting counts of a fly engine. -/
def State.tickFly (s : State) (e : Nat) : State :=
  let w := s.flyWord e 0
  let s := if bit w 7 then s.countBeats (R.flyStallCredit e) else s
  if bit w 10 then s.count (R.flyStallPage e) 1 else s

/-- The counts of a core in use. -/
def State.tickUp (s : State) : State :=
  let s := allLines.foldl State.tickLine s
  let s := if s.regB R.pwrStatus 7 then s.count R.pwrGovTicks 1 else s
  let s := if s.regB R.pwrStatus 8 then s.count R.pwrRampTicks 1 else s
  let s := if s.prop.starve then s.count R.propStarveTicks 1 else s
  let s := if s.arr.drain.any (fun d => (s.freeSlots d.1).isEmpty) then s.countBeats R.choTqWaitBeats else s
  let s := if s.arr.inFlight.isEmpty then s else s.count64 R.arrBusyTicksLo R.arrBusyTicksHi 1
  let s := iter s.build.units (fun u (s : State) => s.tickUnit u) s
  iter s.build.flies (fun e (s : State) => s.tickFly e) s

/-- One tick: none while the core is off or `ref_tick` is lost (R454). The key acknowledge falls (R465). -/
def State.tickOnce (s : State) : State :=
  if s.phase = .off ∨ s.tickLost then s
  else
    let s := { s with tick := s.tick + 1, pins := { s.pins with keyAck := false } }.tickTimers
    if s.running = false then s
    else
      let s := s.tickSession
      if s.phase = .up then s.tickUp.settle else s

end Sys2Proof.Machine
end

