-- ==== Sys2Proof/Safety.lean ====
section
/-! DEFINITION. What counts as a safe state, and the words in which statements are made: what a command leaves unchanged,
and what it ends in. -/

namespace Sys2Proof.Machine

/-- The canonical forms of memory and of the register file. -/
def State.safe (s : State) : Bool := s.mem.wf && NMap.wf (regReset s.build) s.regs

/-- The parts of the state that a statement can name: its fields, the register file cut into the blocks of R543. -/
inductive Field where
  | build | phase | pins | secret | tick | latches | lines | fetchers | flights | queues | board | trackers | mem | prop
  | bs | fab | arr | cho | gangs | lanes | fly | exch | flash | writer | tab | rep | repBad | outs | timers | trig | freeCtr
  | nextUid | nextTag | pending
  | ctlR | bookR | doorR | powerR | lineR | splitR | callR | trkR | flyR | propR | arrR | choR | exchR | fabR | tabR | fltR
  deriving DecidableEq, Repr

/-- The block that holds a register offset. -/
def Field.ofReg (o : Nat) : Field :=
  if o < 0x01000 then .ctlR else if o < 0x01800 then .bookR else if o < 0x02000 then .doorR
  else if o < 0x04000 then .powerR else if o < 0x05000 then .lineR else if o < 0x06000 then .splitR
  else if o < 0x08000 then .callR else if o < 0x10000 then .trkR else if o < 0x18000 then .flyR
  else if o < 0x20000 then .propR else if o < 0x30000 then .arrR else if o < 0x40000 then .choR
  else if o < 0x50000 then .exchR else if o < 0x60000 then .fabR else if o < 0x70000 then .tabR else .fltR

/-- Every block of the register file. -/
def Field.regs : List Field :=
  [.ctlR, .bookR, .doorR, .powerR, .lineR, .splitR, .callR, .trkR, .flyR, .propR, .arrR, .choR, .exchR, .fabR, .tabR, .fltR]

/-- A part of the state is the same in both states. -/
def Field.same (f : Field) (s t : State) : Prop := match f with
  | .build => t.build = s.build
  | .phase => t.phase = s.phase
  | .pins => t.pins = s.pins
  | .secret => t.secret = s.secret
  | .tick => t.tick = s.tick
  | .latches => t.latches = s.latches
  | .lines => t.lines = s.lines
  | .fetchers => t.fetchers = s.fetchers
  | .flights => t.flights = s.flights
  | .queues => t.queues = s.queues
  | .board => t.board = s.board
  | .trackers => t.trackers = s.trackers
  | .mem => t.mem = s.mem
  | .prop => t.prop = s.prop
  | .bs => t.bs = s.bs
  | .fab => t.fab = s.fab
  | .arr => t.arr = s.arr
  | .cho => t.cho = s.cho
  | .gangs => t.gangs = s.gangs
  | .lanes => t.lanes = s.lanes
  | .fly => t.fly = s.fly
  | .exch => t.exch = s.exch
  | .flash => t.flash = s.flash
  | .writer => t.writer = s.writer
  | .tab => t.tab = s.tab
  | .rep => t.rep = s.rep
  | .repBad => t.repBad = s.repBad
  | .outs => t.outs = s.outs
  | .timers => t.timers = s.timers
  | .trig => t.trig = s.trig
  | .freeCtr => t.freeCtr = s.freeCtr
  | .nextUid => t.nextUid = s.nextUid
  | .nextTag => t.nextTag = s.nextTag
  | .pending => t.pending = s.pending
  | r => ∀ o, Field.ofReg o = r → t.reg o = s.reg o

/-- Every part of the state but those listed is the same. -/
structure KeptBut (l : List Field) (s t : State) : Prop where
  same : ∀ f, f ∉ l → f.same s t

/-- Every register of the register file but those listed is the same. -/
def RegsBut (l : List Nat) (s t : State) : Prop := ∀ o, o ∉ l → t.reg o = s.reg o

/-- Nothing changes but the fields `fs` and the registers `rs`. -/
structure Only (fs : List Field) (rs : List Nat) (s t : State) : Prop where
  fields : KeptBut (fs ++ Field.regs) s t
  regs : RegsBut rs s t

/-- A command ends in a next state: what `P` says of the state behind its own effect, and what follows every command
(`State.settle`: SETTLE_FRAME and SETTLE_QUIET say what that is). -/
def Ends (c : Instr) (s : State) (P : State → Prop) : Prop := ∃ u, exec c s = .next u.settle ∧ P u

/-- The Prompter's next turn takes cue `c` from line `l`, all of whose steps 1 to 11 hold, and leaves the weave pointer at
`ptr` (R287, R289). -/
def State.turnIs (s : State) (l : Line) (ptr : Nat) (c : Cue) : Prop :=
  s.mayDispatch = true ∧ s.takeHeads.choose = some (l, ptr) ∧ s.takeHeads.turnOf l = .go c

/-- A line that has given a cue its number (R316): the count rises by one and carries into the epoch. -/
def LineSt.numbered (ln : LineSt) : LineSt :=
  { ln with count := ln.count + 1, epoch := if ln.count + 1 = 0 then ln.epoch + 1 else ln.epoch, taken := none,
            countSpent := false, tagSpent := false }

/-- What the reduction units' claims ask of the next cue of a line (R150). -/
def State.claimFits (s : State) (l : Line) (c : Cue) : Prop := ∀ q : QCue, q.uid = 4 * s.nextUid + l.idx → q.line = l →
  q.cue = c → s.claimOk q ((s.cueQueues l c).filter fun e => decide (8 ≤ e) && decide (e < 16)) = true

/-- `n` rows taken one after another lead from `s` to `t`. -/
def Rows (f : State → Option State) : Nat → State → State → Prop
  | 0, s, t => t = s
  | n + 1, s, t => ∃ u, f s = some u ∧ Rows f n u t

/-- An engine halts the line of cue `f` with a reason: the cue has left its queues, is not run and makes no posts (R319). -/
def State.haltsOn (s : State) (f : Flight) (engine : Nat) (code : Code) (u : State) : Prop :=
  (u.line f.q.line).halted = true ∧ (∀ y ∈ u.flights, y.q.uid ≠ f.q.uid) ∧ (∀ k, f.q.uid ∉ u.queue k) ∧ u.board = s.board ∧
    ((s.line f.q.line).halted = false → u.regF (R.lineHaltReason f.q.line.idx) 0 8 = code.num ∧
      u.regF (R.lineHaltReason f.q.line.idx) 8 6 = engine)

/-- Cue `f` has done its work and stands in no queue; CUE_COMPLETE makes its posts (R293). -/
def State.doneWith (u : State) (f : Flight) : Prop :=
  (∀ y, u.flight f.q.uid = some y → y.stage = .finished) ∧ ∀ k, f.q.uid ∉ u.queue k

/-- A record, and a line that halts with it (R318, R523). -/
def Field.halting : List Field := [.lines, .trig, .ctlR, .lineR, .callR, .fltR]

/-- A packet that leaves (R417). -/
def Field.sending : List Field := [.fab, .outs, .fabR]

/-- A read or a write of local memory (R230 to R237, R260). -/
def Field.touching : List Field := [.mem, .prop, .propR]

def Field.allBut (l : List Field) : List Field := (([.build, .phase, .pins, .secret, .tick, .latches, .lines, .fetchers,
  .flights, .queues, .board, .trackers, .mem, .prop, .bs, .fab, .arr, .cho, .gangs, .lanes, .fly, .exch, .flash, .writer, .tab,
  .rep, .repBad, .outs, .timers, .trig, .freeCtr, .nextUid, .nextTag, .pending] : List Field) ++ Field.regs).filter fun f => !l.contains f

end Sys2Proof.Machine

namespace Sys2Proof

open Machine

/-- The parts of the state that a command can change by its own effect: no command changes another. -/
def Instr.changes : Instr → List Field
  | .pwrOkRise => [.phase, .pins]
  | .pwrOkFall => Field.allBut [.build, .flash, .freeCtr, .pending]
  | .powerOnResetEnd | .keyReq _ =>
    Field.allBut [.build, .tick, .latches, .board, .bs, .lanes, .exch, .writer, .tab, .repBad, .timers, .trig,
      .nextUid, .nextTag, .pending]
  | .keyWaitTimeout =>
    Field.allBut [.build, .pins, .tick, .latches, .board, .bs, .lanes, .exch, .writer, .tab, .repBad, .timers, .trig,
      .nextUid, .nextTag, .pending]
  | .blockReset _ => Field.allBut [.build, .tick, .flash, .tab, .nextUid, .nextTag, .pending]
  | .blockResetEnd =>
    Field.allBut [.build, .secret, .tick, .latches, .board, .bs, .lanes, .exch, .writer, .tab, .repBad, .timers,
      .trig, .nextUid, .nextTag, .pending]
  | .refTickLost | .curtainWatchdog _ => Field.halting
  | .refTickRestored => [.ctlR]
  | .tabIn _ => [.trig]
  | .tabOutEnd | .irqSample => [.pins]
  | .wsBypass _ => [.pins, .secret, .bookR, .doorR]
  | .wsExtest | .wsIntest | .wsScan => [.pins, .secret, .outs, .freeCtr, .bookR, .doorR]
  | .wsMbist => [.pins, .secret, .mem, .outs, .freeCtr, .bookR, .doorR]
  | .intakeWrite _ _ _ _ => Field.touching ++ [.lines, .timers, .trig, .ctlR, .doorR, .powerR, .lineR, .fltR]
  | .heldCommitLands _ => Field.touching ++ [.lines, .trig, .powerR, .fltR]
  | .intakeHoldExpiry _ => [.lines, .lineR]
  | .hostMisshapedAccess _ _ => [.outs, .ctlR, .doorR]
  | .registerWrite _ _ =>
    Field.allBut [.build, .phase, .pins, .tick, .latches, .bs, .lanes, .flash, .tab, .timers, .freeCtr, .nextUid,
      .nextTag, .pending]
  | .rcRegisterRead _ | .loRegisterRead _ | .snapshotRead _ =>
    [.secret, .latches, .outs, .freeCtr, .ctlR, .bookR, .doorR, .powerR, .lineR, .splitR, .callR, .trkR, .flyR,
      .propR, .arrR, .choR, .exchR, .fabR, .tabR, .fltR]
  | .lineRingWrite _ _ =>
    [.lines, .flights, .queues, .trackers, .mem, .prop, .arr, .cho, .gangs, .fly, .ctlR, .doorR, .lineR, .callR]
  | .hostHalt _ | .lineResume _ | .lineResumeSkip _ | .lineReset _ =>
    Field.allBut [.build, .phase, .pins, .tick, .latches, .trackers, .bs, .fab, .lanes, .flash, .writer, .tab, .rep,
      .repBad, .outs, .timers, .freeCtr, .nextUid, .nextTag, .pending, .bookR, .powerR, .trkR, .arrR, .exchR, .fabR,
      .tabR]
  | .lineResetDone _ =>
    Field.allBut [.build, .phase, .pins, .secret, .tick, .latches, .mem, .prop, .bs, .lanes, .flash, .writer, .tab,
      .rep, .repBad, .timers, .freeCtr, .nextUid, .pending, .bookR, .doorR, .powerR, .propR, .arrR, .tabR]
  | .splitModeWrite _ => [.fetchers, .ctlR, .doorR, .lineR]
  | .repWrite _ _ => [.rep, .repBad, .ctlR, .doorR, .lineR]
  | .prompterDispatch _ _ =>
    Field.halting ++ Field.sending ++ Field.touching ++ [.flights, .queues, .board, .repBad, .nextUid, .powerR, .trkR,
      .exchR]
  | .fetcherDispatch _ =>
    Field.halting ++ Field.touching ++ [.fetchers, .flights, .queues, .board, .nextUid, .powerR, .splitR]
  | .nop _ | .fence _ | .loopBegin _ | .loopEnd _ | .callRoutine _ | .setLoop _ | .halt _ | .stepAdvance _
    | .curtainCall _ =>
    Field.halting ++ Field.sending ++ Field.touching ++ [.flights, .queues, .board, .nextUid, .powerR, .trkR, .exchR]
  | .tableau => [.flights, .queues, .trig]
  | .arrFill _ _ _ => Field.halting ++ [.flights, .queues, .arr, .powerR, .arrR]
  | .arrDropHold _ => [.flights, .queues, .arr]
  | .arrConfig _ => Field.halting ++ [.flights, .queues, .arr]
  | .weightPreload _ _ => [.arr, .trig, .fltR]
  | .drainTile _ _ => [.flights, .arr, .trig, .arrR, .fltR]
  | .bankSleep _ | .rampAllowance => [.arr]
  | .choRun _ | .redRow _ | .redCol _ | .scan _ =>
    Field.halting ++ [.flights, .queues, .arr, .cho, .gangs, .lanes, .freeCtr, .choR]
  | .tileClaim _ => Field.halting ++ [.flights, .queues, .arr, .cho, .gangs]
  | .choProgLoad _ => Field.halting ++ Field.touching ++ [.flights, .queues, .cho]
  | .choConfig _ => Field.halting ++ [.flights, .queues, .cho]
  | .choTqDrop _ => [.flights, .queues, .arr, .cho]
  | .krnNormFwd _ | .krnNormBwd _ | .krnSoftmaxFwd _ | .krnSoftmaxBwd _ | .krnGscanFwd _ | .krnGscanBwd _ =>
    Field.halting ++ [.flights, .queues, .arr, .cho, .gangs, .lanes, .choR]
  | .flyMove _ _ =>
    Field.sending ++ Field.touching ++ [.flights, .trackers, .bs, .arr, .cho, .lanes, .fly, .trig, .nextTag, .trkR,
      .flyR, .exchR, .fltR]
  | .transferArm _ _ => Field.halting ++ Field.touching ++ [.flights, .queues, .fly]
  | .transferActivate _ => Field.touching ++ [.flights, .bs, .arr, .fly, .outs, .trig, .flyR, .fltR]
  | .creditReturn _ _ => [.arr, .fly]
  | .writeLands _ | .retirementMoveComplete _ => Field.touching ++ [.trig, .fltR]
  | .cueComplete _ =>
    Field.halting ++ Field.sending ++ Field.touching ++ [.flights, .board, .trackers, .bs, .arr, .freeCtr, .nextTag,
      .choR, .exchR]
  | .propAlloc _ => Field.halting ++ [.flights, .queues, .trackers, .mem, .prop]
  | .propFree => Field.halting ++ Field.touching ++ [.flights, .queues, .trackers, .bs, .outs]
  | .propPageIn => Field.halting ++ [.flights, .queues, .trackers, .mem, .prop, .arr, .cho, .gangs, .fly]
  | .propPageOut | .propLock =>
    Field.halting ++ Field.touching ++ [.flights, .queues, .trackers, .bs, .arr, .cho, .gangs, .fly, .outs]
  | .propMirror => Field.halting ++ [.flights, .queues, .prop]
  | .hintedPageInStart => Field.touching ++ [.bs, .outs, .trig, .fltR]
  | .backstageResponse _ _ _ _ | .backstageTimeout _ _ =>
    Field.touching ++ [.flights, .bs, .fly, .outs, .trig, .flyR, .fltR]
  | .scrubRead _ _ => Field.touching ++ [.trig, .powerR, .fltR]
  | .scrubPeriodEnd => [.mem, .propR]
  | .correctedWriteback _ => [.mem, .prop]
  | .post _ _ _ _ _ => Field.halting ++ Field.sending ++ [.board, .powerR, .exchR]
  | .callHostPost _ => [.board, .trig, .ctlR, .doorR, .callR, .fltR]
  | .callSet _ => [.board, .ctlR, .doorR, .callR]
  | .callCcClear _ _ => [.board, .ctlR, .doorR]
  | .curtainArrival _ _ _ | .curtainRelease _ _ _ _ _ =>
    Field.sending ++ [.flights, .board, .trig, .powerR, .callR, .exchR, .fltR]
  | .exchBucketSet => Field.halting ++ Field.touching ++ [.flights, .queues, .exch]
  | .exchSend => Field.halting ++ Field.sending ++ Field.touching ++ [.flights, .queues, .bs, .exch, .exchR]
  | .exchSettle | .exchOpen => Field.halting ++ Field.sending ++ Field.touching ++ [.flights, .queues, .exch, .exchR]
  | .accumulate _ _ _ _ _ _ _ _ _ => Field.sending ++ Field.touching ++ [.exch, .trig, .powerR, .exchR, .fltR]
  | .close _ _ _ _ _ _ _ _ _ =>
    Field.sending ++ [.board, .trackers, .exch, .trig, .powerR, .callR, .trkR, .exchR, .fltR]
  | .skip _ _ _ _ _ _ | .notice _ _ _ _ => Field.sending ++ [.exch, .trig, .powerR, .exchR, .fltR]
  | .resend _ _ _ _ | .exchAck _ _ _ | .refused _ _ _ =>
    Field.sending ++ Field.touching ++ [.flights, .queues, .bs, .exch, .trig, .powerR, .exchR, .fltR]
  | .unable _ _ _ _ => Field.halting ++ Field.sending ++ [.flights, .queues, .exch, .powerR, .propR, .exchR]
  | .exchNak _ _ _ =>
    Field.sending ++ Field.touching ++ [.flights, .queues, .bs, .exch, .timers, .trig, .powerR, .exchR, .fltR]
  | .exchAckTimeout _ _ =>
    Field.sending ++ Field.touching ++ [.flights, .queues, .bs, .exch, .timers, .trig, .exchR, .fltR]
  | .syncOpTimeout _ => Field.sending ++ [.exch, .timers, .trig, .exchR, .fltR]
  | .replayClearSource _ | .replayClearAll => [.exch, .ctlR, .doorR]
  | .flitAccept _ _ _ | .fabTrainDone _ _ | .fabTrainFail _ _ =>
    Field.sending ++ [.phase, .trig, .ctlR, .exchR, .tabR, .fltR]
  | .linkAck _ _ _ => Field.sending
  | .linkNak _ _ _ | .handover _ _ _ => Field.sending ++ [.trig, .exchR, .fltR]
  | .replayTimeout _ _ => Field.sending ++ [.timers, .trig, .exchR, .fltR]
  | .hello _ _ | .verdict _ _ => Field.sending ++ [.phase, .trig, .ctlR, .tabR, .fltR]
  | .fabPhyReady _ _ | .downPortRetry _ => [.fab, .outs]
  | .trainTimeout _ _ => Field.sending ++ [.phase, .timers, .trig, .ctlR, .exchR, .tabR, .fltR]
  | .fabPhyErr _ _ => [.fab, .outs, .timers]
  | .fabPortReset _ => Field.sending ++ [.secret, .trig, .ctlR, .doorR, .exchR, .fltR]
  | .fabPortCfgWrite _ _ => Field.sending ++ [.trig, .ctlR, .doorR, .exchR, .fltR]
  | .write _ _ _ _ | .read _ _ _ _ => Field.sending ++ Field.touching ++ [.trig, .powerR, .exchR, .fltR]
  | .readData _ _ _ _ => Field.sending ++ [.flights, .fly, .trig, .powerR, .flyR, .exchR, .fltR]
  | .done _ _ _ | .unreachable _ _ _ => Field.halting ++ Field.sending ++ [.flights, .fly, .powerR, .flyR, .exchR]
  | .remoteOpTimeout _ => Field.halting ++ Field.sending ++ [.flights, .fly, .flyR, .exchR]
  | .tableauFlit _ _ => [.fab, .outs, .trig, .powerR]
  | .tabTrigger _ | .tabArm | .thaw => [.trig, .ctlR, .doorR, .tabR]
  | .pbkWriteUpdate | .pbkWriteRetired =>
    Field.touching ++ [.board, .writer, .trig, .ctlR, .bookR, .doorR, .callR, .fltR]
  | .writerCounterStart => Field.touching ++ [.board, .writer, .trig, .bookR, .callR, .fltR]
  | .writerTimeout => Field.touching ++ [.board, .writer, .timers, .trig, .bookR, .callR, .fltR]
  | .flashOpDone => Field.touching ++ [.board, .flash, .writer, .trig, .bookR, .callR, .fltR]
  | .nonceDraw _ => [.secret, .outs, .doorR]
  | .proofWrite _ => [.secret, .ctlR, .doorR]
  | .proofCheckDone => [.secret, .doorR]
  | .doorLockEnd | .sessionIdleTimeout => [.doorR]
  | .sesClose _ => [.ctlR, .doorR]
  | .softReset _ => [.lines, .flights, .queues, .arr, .cho, .gangs, .fly, .ctlR, .doorR, .powerR, .tabR]
  | .softResetDone =>
    Field.allBut [.build, .phase, .pins, .tick, .latches, .flash, .writer, .tab, .rep, .repBad, .timers, .freeCtr,
      .pending]
  | .idleEntry | .powerEstimate _ _ _ _ _ | .paceWindow _ => [.powerR]
  | .drowseRequest | .pwrVreqWrite _ => [.ctlR, .doorR, .powerR]
  | .drowseEntry =>
    Field.allBut [.build, .phase, .pins, .tick, .latches, .lines, .fetchers, .flights, .queues, .board, .trackers,
      .bs, .exch, .flash, .writer, .rep, .repBad, .timers, .trig, .freeCtr, .nextUid, .nextTag, .pending]
  | .drowseEntryTimeout => [.ctlR, .powerR]
  | .wake _ => Field.halting ++ Field.sending ++ [.mem, .doorR, .powerR, .exchR]
  | .wakingComplete => [.ctlR, .powerR, .tabR]

/-- The register a host write of this command addresses (R461). -/
def Instr.writesTo : Instr → Option Nat
  | .registerWrite off _ => some off.toNat
  | .lineRingWrite l _ => some (R.lineRing l.idx)
  | .hostHalt l | .lineResume l | .lineResumeSkip l | .lineReset l => some (R.lineCtrl l.idx)
  | .splitModeWrite _ => some R.lineMode
  | .repWrite off _ => some (0x80000 + off.toNat)
  | .callHostPost _ => some R.callHostPost
  | .callSet _ => some R.callSet
  | .callCcClear k _ => some (R.callCcCtrl k.val)
  | .replayClearSource _ | .replayClearAll => some R.exchReplayClear
  | .fabPortReset p => some (R.fabPortCtrl p.val)
  | .fabPortCfgWrite p _ => some (R.fabPortCfg p.val)
  | .tabTrigger _ | .tabArm | .thaw => some R.tabCmd
  | .pbkWriteUpdate | .pbkWriteRetired => some R.pbkWrCtrl
  | .proofWrite _ => some (R.sesProof 7)
  | .sesClose _ => some R.sesClose
  | .softReset _ => some R.ctlSoftReset
  | .drowseRequest | .wake _ => some R.pwrCtrl
  | .pwrVreqWrite _ => some R.pwrVreq
  | _ => none

/-- A register whose write does something besides storing (R279, R311, R319, R339, R340, R358, R415, R447, R450, R480, R485,
R487, R493, R497, R508, R513, R52). -/
def actsOnWrite (off : Nat) : Bool :=
  [R.lineMode, R.callHostPost, R.callSet, R.exchReplayClear, R.tabCmd, R.pbkWrCtrl, R.sesClose, R.ctlSoftReset, R.pwrCtrl,
    R.pwrVreq, R.fabRoute, R.trkInit].contains off ||
  decide (0x80000 ≤ off ∨ (0x04000 ≤ off ∧ off < 0x04800 ∧ (off % 0x200 = 4 ∨ off % 0x200 = 8)) ∨
    (0x06400 ≤ off ∧ off < 0x06500 ∧ off % 16 = 8) ∨ (0x51000 ≤ off ∧ off < 0x52000 ∧ (off % 0x100 = 0 ∨ off % 0x100 = 8)) ∨
    (0x01840 ≤ off ∧ off ≤ 0x0185C))

/-- The register a host read of this command addresses (R461). -/
def Instr.readsFrom : Instr → Option Nat
  | .rcRegisterRead off | .loRegisterRead off | .snapshotRead off => some off.toNat
  | .nonceDraw _ => some (R.sesNonce 0)
  | _ => none

end Sys2Proof
end

