-- ==== Sys2Proof/Certificates/Slice0/Obligations.lean ====
section
/-! DEFINITION. The statements for the provers, `Obligations.<Name>`; a statement of several parts is the conjunction of
claims of `Sys2Proof.Claims`, each of which stands above it. -/

open Sys2Proof Sys2Proof.Machine

/-- A step runs the command at the front of the queue, with the queue's rest. -/
def Obligations.StepRunsFront : Prop := ∀ (s : State) (c : Instr) (rest : List Instr),
  s.pending = c :: rest → step s = exec c { s with pending := rest }

/-- R11, R454: with no command waiting one tick passes (log entry 1); the 64-bit tick count rises by one while the core has
power and `ref_tick`, with the counts of ticks and what those that reach a limit bring about, and nothing changes otherwise.
Memory, queues, counters, the key and every register of the other blocks stay. -/
def Obligations.IdleTick : Prop := ∀ s : State, s.pending = [] →
  ∃ t, step s = .next t ∧ t.pending = [] ∧
    (s.phase = .off ∨ s.regB R.ctlStatus 1 = true → t = s) ∧
    (s.phase ≠ .off → s.regB R.ctlStatus 1 = false → t.tick = s.tick + 1 ∧
      KeptBut [.pins, .tick, .lines, .flights, .prop, .fab, .tab, .outs, .timers, .trig, .freeCtr, .ctlR, .doorR, .powerR,
        .lineR, .callR, .flyR, .propR, .arrR, .choR, .fabR, .tabR, .fltR] s t)

/-- Every command ends in a next state, and by its own effect changes no part of the state but those of
`Instr.changes`. -/
def Obligations.EveryCommandFrame : Prop := ∀ (c : Instr) (s : State), Ends c s (KeptBut c.changes s)

/-- What follows a command changes nothing else than what R308, R261, R341, R525 and R513 to R521 name. -/
def Sys2Proof.Claims.SettleFrame : Prop := ∀ s : State,
  KeptBut [.pins, .lines, .flights, .prop, .fab, .tab, .outs, .trig, .freeCtr, .ctlR, .lineR, .callR, .fabR, .tabR, .fltR]
    s s.settle

/-- Nothing follows a command while no trigger waits, no frame is marked for retirement, FATAL is clear and no CALL_ROUTINE
is in progress, but the watches of R341, which are the bits of CALL_WATCH_STATUS. -/
def Sys2Proof.Claims.SettleQuiet : Prop := ∀ s : State, s.trig = [] → s.prop.marked = [] → s.fatal = false →
  (∀ f ∈ s.flights, f.q.cue.opcode = 4 → f.stage ≠ .started) → Only [] [R.callWatchStatus] s s.settle

/-- What follows every command, and when nothing follows it. -/
def Obligations.AfterCommands : Prop :=
  Sys2Proof.Claims.SettleFrame ∧ Sys2Proof.Claims.SettleQuiet

/-- The queue is served first in, first out, and the build never changes. -/
def Sys2Proof.Claims.QueueInOrder : Prop := ∀ s t : State, step s = .next t → t.pending = s.pending.drop 1 ∧ t.build = s.build

/-- No trigger is left waiting behind a step: the tableau takes or counts all of them (R515). -/
def Sys2Proof.Claims.TriggersTaken : Prop := ∀ (c : Instr) (s t : State), exec c s = .next t → t.trig = []

/-- First in, first out; no trigger is left behind a step. -/
def Obligations.QueueOrder : Prop :=
  Sys2Proof.Claims.QueueInOrder ∧ Sys2Proof.Claims.TriggersTaken

/-- Every step keeps the canonical forms of memory and of the register file. -/
def Obligations.SafeKept : Prop := ∀ s t : State, s.safe = true → step s = .next t → t.safe = true

/-- The canonical forms hold after reset. -/
def Sys2Proof.Claims.ResetSafe : Prop := State.reset.safe = true

/-- R455, R542: what the machine holds in power-on reset: every register at the reset value of its
row, no memory contents listed, no line, queue, flight or post, and an empty queue of commands. Where the spec gives no
reset value the value is the model's (log entry 3). -/
def Sys2Proof.Claims.ResetValues : Prop :=
  (∀ o, State.reset.reg o = regReset State.reset.build o) ∧ State.reset.reg R.trkCtrl = 0x1201 ∧
  State.reset.reg R.lineWeaveLo = 0xE4E4E4E4 ∧ State.reset.phase = .powerOnReset ∧ State.reset.mem.cells = [] ∧
  State.reset.flights = [] ∧ State.reset.queues = [] ∧ State.reset.pending = [] ∧ State.reset.secret.latched = false ∧
  State.reset.tick = 0 ∧ (∀ l, (State.reset.line l).tail = 0 ∧ (State.reset.line l).count = 0 ∧
    (State.reset.line l).enabled = false) ∧ (∀ k, State.reset.cnt k = 0)

/-- The state after reset is safe and holds the reset values. -/
def Obligations.ResetState : Prop :=
  Sys2Proof.Claims.ResetSafe ∧ Sys2Proof.Claims.ResetValues

/-- R453, R500: a rise of `pwr_ok` in Off begins power-on reset; a fall takes the core to Off in any state, with every
register at its reset value, no memory contents and no key, and the flash as it was. -/
def Sys2Proof.Claims.PowerPins : Prop := ∀ s : State,
  (s.phase = .off → Ends .pwrOkRise s fun u =>
    u.phase = .powerOnReset ∧ u.pins = { s.pins with pwrOk := true } ∧ Only [.phase, .pins] [] s u) ∧
  (Ends .pwrOkFall s fun u =>
    u.phase = .off ∧ u.pins = { State.reset.pins with pwrOk := false, blkRstN := s.pins.blkRstN } ∧
      (∀ o, u.reg o = regReset s.build o) ∧ u.mem = State.reset.mem ∧ u.secret = State.reset.secret ∧
      u.lines = State.reset.lines ∧ u.flights = [] ∧ u.flash = s.flash ∧ u.build = s.build ∧ u.pending = s.pending)

/-- R465, R488: the end of power-on reset latches a key that is presented, and otherwise waits for one; a key that comes
while the core waits is latched and acknowledged, one that comes earlier stays presented, and later ones are ignored; with
no key for 2^20 ticks the key is zero and PBK_STATUS.KEY_ABSENT is set, and no sooner. A key zeroed by the wrapper stays zero
(log entry 23). -/
def Sys2Proof.Claims.KeyPort : Prop := ∀ (s : State) (k : BitVec 256),
  (s.phase = .powerOnReset → s.secret.waiting = none → Ends .powerOnResetEnd s fun u =>
    u.phase = .keyWait ∧ Only [.phase] [] s u) ∧
  (s.phase = .powerOnReset → s.secret.waiting = some k → Ends .powerOnResetEnd s fun u =>
    u.secret = { s.secret with key := if s.regB R.pbkStatus 13 then 0 else k, latched := true, waiting := none } ∧
      u.pins = { s.pins with keyAck := true }) ∧
  (s.phase = .keyWait → Ends (.keyReq k) s fun u =>
    u.secret = { s.secret with key := if s.regB R.pbkStatus 13 then 0 else k, latched := true, waiting := none } ∧
      u.pins = { s.pins with keyAck := true }) ∧
  (s.phase = .off ∨ s.phase = .powerOnReset → Ends (.keyReq k) s fun u =>
    u.secret = { s.secret with waiting := some k } ∧ Only [.secret] [] s u) ∧
  (s.phase = .bringUp ∨ s.phase = .blockReset ∨ s.phase = .up → Ends (.keyReq k) s fun u => u = s) ∧
  (s.phase ≠ .keyWait ∨ s.age .key < 2 ^ 20 → Ends .keyWaitTimeout s fun u => u = s) ∧
  (s.phase = .keyWait → 2 ^ 20 ≤ s.age .key → Ends .keyWaitTimeout s fun u =>
    u.secret = { s.secret with key := 0 } ∧ u.pins = s.pins ∧ u.regB R.pbkStatus 12 = true ∧ u.regB R.pbkStatus 13 = true)

/-- Power pins, the key port and the wait for a key. -/
def Obligations.PowerAndKey : Prop :=
  Sys2Proof.Claims.PowerPins ∧ Sys2Proof.Claims.KeyPort

/-- R455, R489: a block reset of 10 ticks or more keeps the key, the memory contents and the flash and empties the lines;
its end begins start-up again, or the wait for a key that never came. -/
def Obligations.BlockReset : Prop := ∀ (s : State) (n : Nat),
  (10 ≤ n → s.phase = .keyWait ∨ s.phase = .bringUp ∨ s.phase = .up → Ends (.blockReset n) s fun u =>
    u.phase = .blockReset ∧ u.pins.blkRstN = false ∧ u.pins.irqN = true ∧ u.secret.key = s.secret.key ∧
      u.secret.latched = s.secret.latched ∧ u.mem.cells = s.mem.cells ∧ u.mem.flaws = s.mem.flaws ∧ u.flash = s.flash ∧
      u.lines = State.reset.lines ∧ u.flights = [] ∧ u.queues = [] ∧ u.board = State.reset.board ∧ u.tick = s.tick) ∧
  (s.phase = .blockReset → s.secret.latched = false → s.regB R.pbkStatus 12 = false → Ends .blockResetEnd s fun u =>
    u.phase = .keyWait ∧ u.pins = { s.pins with blkRstN := true } ∧ Only [.phase, .pins] [] s u) ∧
  (s.phase = .blockReset → s.secret.latched = true ∨ s.regB R.pbkStatus 12 = true → Ends .blockResetEnd s fun u =>
    u.secret = s.secret ∧ u.pins = { s.pins with blkRstN := true } ∧ u.board = s.board ∧ u.tick = s.tick)

/-- R454, R457: loss and return of `ref_tick`; a rise of `tab_in` of two ticks or more triggers a capture where
TAB_CTRL.TABIN_EN allows it, and none before READY; `tab_out` falls after its pulse. -/
def Sys2Proof.Claims.TickAndTableauPins : Prop := ∀ (s : State) (n : Nat),
  (s.phase = .keyWait ∨ s.phase = .bringUp ∨ s.phase = .up → s.regB R.ctlStatus 1 = false → Ends .refTickLost s fun u =>
    u.regB R.ctlStatus 1 = true ∧ u.fatal = true ∧
      ∀ l, (s.line l).enabled = true → (s.line l).resetting = false → (u.line l).halted = true) ∧
  (Ends .refTickRestored s fun u => u.regB R.ctlStatus 1 = false ∧ Only [] [R.ctlStatus] s u) ∧
  (2 ≤ n → s.ready = true → s.regB R.tabCtrl 3 = true → Ends (.tabIn n) s fun u =>
    u.trig = s.trig ++ [⟨7, (s.reg R.tabCount).setWidth 16, (s.reg R.fabCoreId).setWidth 12, false⟩] ∧ Only [.trig] [] s u) ∧
  (n < 2 ∨ s.ready = false → Ends (.tabIn n) s fun u => u = s) ∧
  (Ends .tabOutEnd s fun u => u.pins = { s.pins with tabOut := false } ∧ Only [.pins] [] s u)

/-- R541: `irq_n` is low exactly while a bit is 1 in both CTL_IRQ_PEND and CTL_IRQ_ENABLE, as the always-on domain samples
it. -/
def Sys2Proof.Claims.InterruptPin : Prop := ∀ s : State, s.phase = .keyWait ∨ s.phase = .bringUp ∨ s.phase = .up →
  Ends .irqSample s fun u => Only [.pins] [] s u ∧ u.pins = { s.pins with irqN := u.pins.irqN } ∧
    (u.pins.irqN = false ↔ ∃ i, bit (s.liveReg R.ctlIrqPend) i = true ∧ bit (s.reg R.ctlIrqEnable) i = true)

/-- Tick loss, tableau pins and the interrupt pin. -/
def Obligations.BoundaryPins : Prop :=
  Sys2Proof.Claims.TickAndTableauPins ∧ Sys2Proof.Claims.InterruptPin

/-- R467: any instruction of the wrapper but WS_BYPASS sets the latched key to zero, closes the session and sets
PBK_STATUS.KEY_ZERO; a code without an instruction acts as WS_BYPASS; the self-test leaves memory contents undefined, as
free values. -/
def Obligations.Wrapper : Prop := ∀ s : State, s.phase ≠ .off →
  (∀ k : BitVec 4, k ≠ 1 → k ≠ 2 → k ≠ 4 → k ≠ 5 → Ends (.wsBypass k) s fun u =>
    u.pins = { s.pins with wsInstr := k } ∧ Only [.pins] [] s u) ∧
  (∀ c k, (c, k) ∈ [(Instr.wsExtest, 1#4), (.wsIntest, 2#4), (.wsScan, 4#4), (.wsMbist, 5#4)] → Ends c s fun u =>
    u.secret.key = 0 ∧ u.regB R.pbkStatus 13 = true ∧ u.regB R.sesStatus 0 = false ∧ u.pins.wsInstr = k ∧
      Only [.pins, .secret, .mem, .outs, .freeCtr] [R.pbkStatus, R.sesStatus, R.sesOpenId, R.sesIdleTicks] s u) ∧
  (∀ c, c ∈ [Instr.wsExtest, .wsIntest, .wsScan] → Ends c s fun u => u.mem = s.mem) ∧
  (Ends .wsMbist s fun u => u.mem.epoch ≠ 0 ∧ ∀ a, u.mem.byte a = Config.freeByte u.mem.epoch a)

/-- R461, R462, R499: a host access waits while the port is not up or holds a commit of R284; a write that is not served is
dropped and counted as a host error; a read that is not served answers 0 with `hst_rsp_err`. -/
def Sys2Proof.Claims.PortRefusals : Prop := ∀ (c : Instr) (s : State) (off : Nat),
  (c.writesTo = some off ∨ c.readsFrom = some off → s.serve off = .wait → Ends c s fun u => u = s) ∧
  (c.writesTo = some off → s.serve off = .refuse → Ends c s fun u =>
    u.reg R.ctlHostErr = satAdd (s.reg R.ctlHostErr) 1 ∧
      u.reg R.ctlHostErrAddr = BitVec.ofNat 32 (off % 2 ^ 21) ||| 0x80000000#32 ∧ u.regB R.ctlIrqPend 9 = true ∧
      Only [] [R.sesIdleTicks, R.ctlHostErr, R.ctlHostErrAddr, R.ctlIrqPend] s u) ∧
  (c.readsFrom = some off → s.serve off = .refuse → Ends c s fun u =>
    u.outs = s.outs ++ [.hostRsp 0 true] ∧ Only [.outs] [R.sesIdleTicks] s u)

/-- R461: a misshaped access is dropped, or answers 0 with an error, and counts as a host error; a read of an intake window
answers 0 with an error. -/
def Sys2Proof.Claims.Misshaped : Prop := ∀ (s : State) (a : BitVec 21) (w : Bool), s.portAcks = true → s.portHeld = false →
  ((w = true ∨ a.toNat < 0x100000 ∨ 0x140000 ≤ a.toNat) → Ends (.hostMisshapedAccess a w) s fun u =>
    u.reg R.ctlHostErr = satAdd (s.reg R.ctlHostErr) 1 ∧
      u.reg R.ctlHostErrAddr = BitVec.ofNat 32 a.toNat ||| (if w then 0x80000000#32 else 0) ∧ u.regB R.ctlIrqPend 9 = true ∧
      u.outs = s.outs ++ (if w then [] else [.hostRsp 0 true]) ∧
      Only [.outs] [R.sesIdleTicks, R.ctlHostErr, R.ctlHostErrAddr, R.ctlIrqPend] s u) ∧
  (w = false → 0x100000 ≤ a.toNat → a.toNat < 0x140000 → Ends (.hostMisshapedAccess a w) s fun u =>
    u.outs = s.outs ++ [.hostRsp 0 true] ∧ Only [.outs] [R.sesIdleTicks] s u)

/-- R533: a well-shaped access to an offset that holds no register reads 0 and writes nothing, and is no host error. -/
def Sys2Proof.Claims.NoRegister : Prop := ∀ (s : State) (v : Word),
  s.serve 0x00FFC = .ok →
  (Ends (.registerWrite 0x00FFC v) s fun u => Only [] [R.sesIdleTicks] s u) ∧
  (Ends (.rcRegisterRead 0x00FFC) s fun u => u.outs = s.outs ++ [.hostRsp 0 false] ∧ Only [.outs] [R.sesIdleTicks] s u)

/-- Accesses that wait, are refused, are misshaped or name no register. -/
def Obligations.PortRefusals : Prop :=
  Sys2Proof.Claims.PortRefusals ∧ Sys2Proof.Claims.Misshaped ∧ Sys2Proof.Claims.NoRegister

/-- R461, R543: a write of a register that only stores takes its RW bits, its RWP bits inside a session, and clears the W1C
bits written with 1; every other bit keeps its value. FETCHER_WRITES says the same of LINE_SPLIT_CTL and LINE_SPLIT_PTR. -/
def Sys2Proof.Claims.PlainWrite : Prop := ∀ (s : State) (off : BitVec 20) (v : Word) (r : RegRow),
  regRow? off.toNat = some r → off.toNat % 4 = 0 → s.serve off.toNat = .ok → s.present off.toNat = true →
  actsOnWrite off.toNat = false → ¬(0x05020 ≤ off.toNat ∧ off.toNat < 0x05440 ∧ off.toNat % 0x20 < 8) →
  off.toNat ≠ R.sesIdleTicks →
  Ends (.registerWrite off v) s fun u => Only [] [R.sesIdleTicks, off.toNat] s u ∧
    ∀ i, i < 32 → bit (u.reg off.toNat) i =
      if (BitVec.ofNat 32 r.w1c).getLsbD i ∧ v.getLsbD i then false
      else if (BitVec.ofNat 32 (if s.session then r.rw ||| r.rwp else r.rw)).getLsbD i then v.getLsbD i
      else bit (s.reg off.toNat) i

/-- R313, R543: a write of a fetcher's control register, or of its position while the fetcher is disabled, stores it and drops
the cue it had taken; a write of the position of an enabled fetcher changes nothing. -/
def Sys2Proof.Claims.FetcherWrites : Prop := ∀ (s : State) (e : Nat) (v : Word), 1 ≤ e → e ≤ 0x21 →
  (s.serve (R.lineSplitPtr e) = .ok → s.regB (R.lineSplitCtl e) 0 = false →
    Ends (.registerWrite (BitVec.ofNat 20 (R.lineSplitPtr e)) v) s fun u =>
      u.reg (R.lineSplitPtr e) = v ∧ (u.fetcher e).taken = none ∧
      Only [.fetchers] [R.sesIdleTicks, R.lineSplitPtr e] s u) ∧
  (s.serve (R.lineSplitPtr e) = .ok → s.regB (R.lineSplitCtl e) 0 = true →
    Ends (.registerWrite (BitVec.ofNat 20 (R.lineSplitPtr e)) v) s fun u => Only [] [R.sesIdleTicks] s u) ∧
  (s.serve (R.lineSplitCtl e) = .ok → Ends (.registerWrite (BitVec.ofNat 20 (R.lineSplitCtl e)) v) s fun u =>
    u.regB (R.lineSplitCtl e) 0 = v.getLsbD 0 ∧ u.regF (R.lineSplitCtl e) 1 2 = fieldN v 1 2 ∧
      Only [.fetchers] [R.sesIdleTicks, R.lineSplitCtl e] s u)

/-- Register writes by access kind, and those of the split lists. -/
def Obligations.RegisterWrites : Prop :=
  Sys2Proof.Claims.PlainWrite ∧ Sys2Proof.Claims.FetcherWrites

/-- R534: a read of the LO register of a pair copies the HI half into the pair's latch, and a read of the HI register returns
the latch. Here the tick counter and the line counts. -/
def Sys2Proof.Claims.LatchedReads : Prop := ∀ s : State,
  (s.serve R.ctlTickLo = .ok → Ends (.loRegisterRead 0x00010) s fun u =>
    u.outs = s.outs ++ [.hostRsp (s.tick.setWidth 32) false] ∧ u.readReg R.ctlTickHi = (s.tick >>> 32).setWidth 32 ∧
      Only [.outs, .latches] [R.sesIdleTicks] s u) ∧
  (∀ l : Line, s.serve (R.lineCountLo l.idx) = .ok →
    Ends (.loRegisterRead (BitVec.ofNat 20 (R.lineCountLo l.idx))) s fun u =>
      u.outs = s.outs ++ [.hostRsp ((s.line l).count.setWidth 32) false] ∧
      u.readReg (R.lineCountLo l.idx + 4) = countHi (s.line l).count (s.line l).epoch ∧
      Only [.outs, .latches] [R.sesIdleTicks] s u)

/-- R535: an RC register answers its value and is cleared, and nothing else changes; the access itself restarts the idle
count of the session (R487). -/
def Sys2Proof.Claims.ReadToClear : Prop := ∀ (s : State) (off : BitVec 20), isRc off.toNat = true → s.serve off.toNat = .ok →
  off.toNat % 4 = 0 → isLo off.toNat = false → latchLo off.toNat = none →
  Ends (.rcRegisterRead off) s fun u =>
    u.outs = s.outs ++ [.hostRsp (s.hostTouch.liveReg off.toNat) false] ∧ u.reg off.toNat = 0 ∧
      Only [.outs] [R.sesIdleTicks, off.toNat] s u

/-- R270, R416: a read of PROP_DESC0, PROP_HND0 or EXCH_BKT0 takes the snapshot of what its select register names, and
answers its first word. -/
def Sys2Proof.Claims.Snapshots : Prop := ∀ s : State,
  (s.serve (R.propDesc 0) = .ok → Ends (.snapshotRead (BitVec.ofNat 20 (R.propDesc 0))) s fun u =>
    (∀ i, i < 4 → u.reg (R.propDesc i) = listGet 0 (s.page (s.regF R.propDescSel 0 16)).words i) ∧
      u.outs = s.outs ++ [.hostRsp (u.reg (R.propDesc 0)) false] ∧ KeptBut [.outs, .doorR, .propR] s u) ∧
  (s.serve (R.propHnd 0) = .ok → Ends (.snapshotRead (BitVec.ofNat 20 (R.propHnd 0))) s fun u =>
    (∀ i, i < 8 → u.reg (R.propHnd i) = listGet 0 (s.handle (s.regF R.propHndSel 0 14)).words i) ∧
      u.outs = s.outs ++ [.hostRsp (u.reg (R.propHnd 0)) false] ∧ KeptBut [.outs, .doorR, .propR] s u) ∧
  (s.serve (R.exchBkt 0) = .ok → Ends (.snapshotRead (BitVec.ofNat 20 (R.exchBkt 0))) s fun u =>
    (∀ i, i < 32 → u.reg (R.exchBkt i) = wordOf (s.bucket (s.regF R.exchSel 0 12)) i) ∧
      u.outs = s.outs ++ [.hostRsp (u.reg (R.exchBkt 0)) false] ∧ KeptBut [.outs, .doorR, .exchR] s u)

/-- Latched, clearing and snapshot reads. -/
def Obligations.RegisterReads : Prop :=
  Sys2Proof.Claims.LatchedReads ∧ Sys2Proof.Claims.ReadToClear ∧ Sys2Proof.Claims.Snapshots

/-- R282, R459: intake bytes enter the line's assembly buffer in the half that the offset lies in, byte lane i at its byte i
(log entry 14), a later write replaces an earlier one, and every other byte of the buffer stays; here a write that does not
cover byte 124. -/
def Sys2Proof.Claims.IntakeBytes : Prop := ∀ (s : State) (l : Line) (off : BitVec 16) (be : BitVec 64) (data : BitVec 512),
  s.portAcks = true → s.portHeld = false → s.pstate < 2 → s.intakeDenied l = false →
  s.regB (R.lineStatus l.idx) 12 = false → (off.toNat % 128 < 64 ∨ be.getLsbD 60 = false) →
  let base := off.toNat % 128 / 64 * 64
  Ends (.intakeWrite l off be data) s fun u =>
    (u.line l) = { s.line l with asmData := (u.line l).asmData, asmMask := (u.line l).asmMask } ∧
    (∀ k, k ≠ l → u.line k = s.line k) ∧ Only [.lines] [R.sesIdleTicks] s u ∧
    ∀ j, j < 128 →
      let i := j - base
      let w := base ≤ j ∧ i < 64 ∧ be.getLsbD i = true
      fieldN (u.line l).asmData (8 * j) 8 = (if w then fieldN data (8 * i) 8 else fieldN (s.line l).asmData (8 * j) 8) ∧
      (u.line l).asmMask.getLsbD j = (if w then true else (s.line l).asmMask.getLsbD j)

/-- R281, R282, R283, R284: the write that covers byte 124 ends the assembly. An assembly that lacks a byte is torn and
counts as refused; a whole one is written to ring position TAIL, which rises by one, where the ring has room, and is held
where it has none. In each case the buffer empties. -/
def Sys2Proof.Claims.IntakeCommit : Prop := ∀ (s : State) (l : Line) (off : BitVec 16) (be : BitVec 64) (data : BitVec 512),
  64 ≤ off.toNat % 128 → be.getLsbD 60 = true → s.portAcks = true → s.portHeld = false → s.pstate < 2 →
  s.intakeDenied l = false → s.regB (R.lineStatus l.idx) 12 = false →
  let asm := assemble (s.line l) 64 be data
  (asm.asmMask ≠ BitVec.allOnes 128 → Ends (.intakeWrite l off be data) s fun u =>
    u.line l = { s.line l with asmData := 0, asmMask := 0 } ∧ u.regB (R.lineStatus l.idx) 13 = true ∧
      u.reg (R.lineIntakeRefused l.idx) = satAdd (s.reg (R.lineIntakeRefused l.idx)) 1 ∧
      Only [.lines] [R.sesIdleTicks, R.lineStatus l.idx, R.lineIntakeRefused l.idx] s u) ∧
  (asm.asmMask = BitVec.allOnes 128 → s.mayCommit l = true → Ends (.intakeWrite l off be data) s fun u =>
    u.line l = { s.line l with asmData := 0, asmMask := 0, tail := (s.line l).tail + 1 } ∧
      (∀ k, k ≠ l → u.line k = s.line k) ∧ Only [.lines, .mem, .prop] [R.sesIdleTicks, R.pwrStatus] s u ∧
      ∀ a, u.mem.read a =
        (let at_ := s.ringAddr l (s.line l).tail
         if at_ ≤ a ∧ a < at_ + 128 then BitVec.ofNat 8 (fieldN asm.asmData (8 * (a - at_)) 8) else s.mem.read a)) ∧
  (asm.asmMask = BitVec.allOnes 128 → s.mayCommit l = false → Ends (.intakeWrite l off be data) s fun u =>
    u.line l = { s.line l with asmData := 0, asmMask := 0, held := some asm.asmData } ∧
      Only [.lines, .timers] [R.sesIdleTicks] s u)

/-- R284, R285: a refused intake write enters nothing in the buffer; it sets INTAKE_DENIED where R285 refuses it, and counts
a cue when it covers byte 124. -/
def Sys2Proof.Claims.IntakeDenied : Prop := ∀ (s : State) (l : Line) (off : BitVec 16) (be : BitVec 64) (data : BitVec 512),
  s.portAcks = true → s.portHeld = false → s.pstate < 2 →
  let covers := 64 ≤ off.toNat % 128 ∧ be.getLsbD 60 = true
  let n := if covers then satAdd (s.reg (R.lineIntakeRefused l.idx)) 1 else s.reg (R.lineIntakeRefused l.idx)
  (s.intakeDenied l = true → Ends (.intakeWrite l off be data) s fun u =>
    u.regB (R.lineStatus l.idx) 14 = true ∧ u.reg (R.lineIntakeRefused l.idx) = n ∧
      Only [] [R.sesIdleTicks, R.lineStatus l.idx, R.lineIntakeRefused l.idx] s u) ∧
  (s.intakeDenied l = false → s.regB (R.lineStatus l.idx) 12 = true → Ends (.intakeWrite l off be data) s fun u =>
    u.reg (R.lineIntakeRefused l.idx) = n ∧ Only [] [R.sesIdleTicks, R.lineIntakeRefused l.idx] s u)

/-- R284: a held commit lands once it is allowed; after 2^20 ticks, and no sooner, it is dropped and counted, with
INTAKE_OVERRUN set. -/
def Sys2Proof.Claims.HeldCommit : Prop := ∀ (s : State) (l : Line) (c : Cue), (s.line l).held = some c →
  (s.mayCommit l = true → Ends (.heldCommitLands l) s fun u =>
    u.line l = { s.line l with held := none, tail := (s.line l).tail + 1 } ∧
      (∀ k, k ≠ l → u.line k = s.line k) ∧ Only [.lines, .mem, .prop] [R.pwrStatus] s u ∧ ∀ a, u.mem.read a =
        (let at_ := s.ringAddr l (s.line l).tail
         if at_ ≤ a ∧ a < at_ + 128 then BitVec.ofNat 8 (fieldN c (8 * (a - at_)) 8) else s.mem.read a)) ∧
  (s.mayCommit l = false → Ends (.heldCommitLands l) s fun u => u = s) ∧
  (s.age (.hold l) < 2 ^ 20 → Ends (.intakeHoldExpiry l) s fun u => u = s) ∧
  (2 ^ 20 ≤ s.age (.hold l) → Ends (.intakeHoldExpiry l) s fun u =>
    u.line l = { s.line l with held := none } ∧ u.regB (R.lineStatus l.idx) 12 = true ∧
      u.reg (R.lineIntakeRefused l.idx) = satAdd (s.reg (R.lineIntakeRefused l.idx)) 1 ∧
      Only [.lines] [R.lineStatus l.idx, R.lineIntakeRefused l.idx] s u)

/-- Intake bytes, commits, refusals and held commits. -/
def Obligations.Intake : Prop :=
  Sys2Proof.Claims.IntakeBytes ∧ Sys2Proof.Claims.IntakeCommit ∧ Sys2Proof.Claims.IntakeDenied ∧ Sys2Proof.Claims.HeldCommit

/-- R318, R320, R353: LINE_CTRL.HALT halts an enabled line in front of its head cue with HOST_HALT: the first halt writes the
halt record and the line's interrupt bit and clears its watchdog count, a further one sets MORE and keeps the record; each leaves a fault record. A line that
is DISABLED or RESETTING has no dispatch to stop. -/
def Sys2Proof.Claims.HostHalt : Prop := ∀ (s : State) (l : Line), s.serve (R.lineCtrl l.idx) = .ok →
  ((s.line l).enabled = true → (s.line l).resetting = false → Ends (.hostHalt l) s fun u =>
    (u.line l).halted = true ∧ (∀ k, k ≠ l → u.line k = s.line k) ∧ u.reg R.fltWr = s.reg R.fltWr + 1 ∧
    KeptBut [.lines, .trig, .ctlR, .doorR, .lineR, .callR, .fltR] s u ∧
    ((s.line l).halted = false →
      u.line l = { s.line l with halted := true, more := false, atPrompter := true, taken := none } ∧
      u.regF (R.lineHaltReason l.idx) 0 8 = 0x43 ∧ u.regB R.ctlIrqPend (1 + l.idx) = true ∧
      u.reg (R.callWdogAge l.idx) = 0 ∧ u.reg (R.lineHaltCountLo l.idx) = (s.line l).count.setWidth 32) ∧
    ((s.line l).halted = true → u.line l = { s.line l with more := true } ∧ KeptBut [.lines, .trig, .doorR, .fltR] s u)) ∧
  ((s.line l).enabled = false ∨ (s.line l).resetting = true → Ends (.hostHalt l) s fun u => Only [] [R.sesIdleTicks] s u)

/-- R291, R319: RESUME returns a HALTED line to dispatch, and the breaks that have halted its cue do not fire on it again; with
SKIP a cue halted at the Prompter is to be discarded, which its line's next turn does, without a number and with no loop level
changed. RESUME on a line that is not HALTED is ignored, as it is while FATAL is set (R525). -/
def Sys2Proof.Claims.LineResume : Prop := ∀ (s : State) (l : Line), s.serve (R.lineCtrl l.idx) = .ok →
  ((s.line l).halted = true → (s.line l).resetting = false → s.fatal = false →
    (Ends (.lineResume l) s fun u =>
      u.line l = { s.line l with halted := false, atPrompter := false, taken := none } ∧
        (∀ k, k ≠ l → u.line k = s.line k) ∧ Only [.lines, .fetchers] [R.sesIdleTicks] s u) ∧
    (Ends (.lineResumeSkip l) s fun u =>
      u.line l = { s.line l with halted := false, atPrompter := false, taken := none,
                                 skip := (s.line l).skip ||
                                   decide ((s.line l).atPrompter = true ∧ (s.hostTouch.fetchHead l).1 ≠ .nothing) } ∧
        (∀ k, k ≠ l → u.line k = s.line k) ∧ KeptBut [.lines, .fetchers, .doorR, .splitR] s u)) ∧
  (∀ (upset : List Nat) (board : List (Fin 80 × Fin 3)) (ptr : Nat),
    let r := (s.repUpset upset).boardUpset board
    r.mayDispatch = true → r.takeHeads.choose = some (l, ptr) → (r.line l).skip = true →
    Ends (.prompterDispatch upset board) s fun u =>
      (u.line l).skip = false ∧ (u.line l).count = (r.line l).count ∧ (u.line l).epoch = (r.line l).epoch ∧
      (∀ k, k ≠ l → u.line k = r.takeHeads.line k) ∧ u.board = r.board ∧ u.flights = r.flights ∧
      u.regF R.lineWeavePtr 0 5 = ptr ∧
      ((r.line l).routine = none → (u.line l).loops = (r.line l).loops ∧ (u.line l).head = (r.line l).head + 1)) ∧
  ((s.line l).halted = false ∨ (s.line l).resetting = true ∨ s.fatal = true → ∀ c, c = .lineResume l ∨ c = .lineResumeSkip l →
    Ends c s fun u => Only [] [R.sesIdleTicks] s u)

/-- Host halt, resume and resume with skip. -/
def Obligations.LineHaltResume : Prop :=
  Sys2Proof.Claims.HostHalt ∧ Sys2Proof.Claims.LineResume

/-- R325, R487: a line reset makes the line RESETTING and closes the stage door; from then on no cue of the line that is
in flight makes posts. On a DISABLED line it discards nothing. -/
def Sys2Proof.Claims.LineResetStart : Prop := ∀ (s : State) (l : Line), s.serve (R.lineCtrl l.idx) = .ok →
  Ends (.lineReset l) s fun u =>
    u.line l = { s.line l with resetting := true, taken := none, atPrompter := false } ∧ (∀ k, k ≠ l → u.line k = s.line k) ∧
    u.session = false ∧ u.secret = { s.secret with nonceOk := false, proof := 0, good := false } ∧
    KeptBut [.secret, .lines, .flights, .queues, .board, .arr, .cho, .gangs, .fly, .exch, .doorR, .callR, .flyR, .choR] s u ∧
    ((s.line l).enabled = true → ∀ f ∈ u.flights, f.q.line = l → f.silent = true) ∧
    ((s.line l).enabled = false → u.flights = s.flights)

/-- R324, R325: the reset ends once no cue of the line is in flight: positions, loops, routine, count, epoch, step number and
the assembly buffer clear and the line is EMPTY (DISABLED where it was); ring settings, the halt record and a held commit
stay. -/
def Sys2Proof.Claims.LineResetEnd : Prop := ∀ (s : State) (l : Line), (s.line l).resetting = true → s.softBusy = false →
  ((∀ f ∈ s.flights, f.q.line ≠ l) → Ends (.lineResetDone l) s fun u =>
    u.line l = { s.line l with resetting := false, halted := false, more := false, head := 0, tail := 0, asmData := 0,
                               asmMask := 0, loops := [], skipEnd := none, routine := none, count := 0, epoch := 0,
                               taken := none, atPrompter := false, countSpent := false, tagSpent := false,
                               skip := false } ∧
    (∀ k, k ≠ l → u.line k = s.line k) ∧ u.reg (stepReg l) = 0 ∧ u.reg (R.lineWaitTicks l.idx) = 0 ∧
    u.reg (R.lineStallTicks l.idx) = 0 ∧ u.reg (R.lineIntakeRefused l.idx) = 0 ∧
    u.reg (R.lineRing l.idx) = s.reg (R.lineRing l.idx) ∧
    (∀ o, 0x04040 + 0x200 * l.idx ≤ o → o < 0x040D0 + 0x200 * l.idx → u.reg o = s.reg o) ∧
    KeptBut [.lines, .fetchers, .lineR, .splitR, .callR, .trkR] s u)

/-- Line reset: start and end. -/
def Obligations.LineReset : Prop :=
  Sys2Proof.Claims.LineResetStart ∧ Sys2Proof.Claims.LineResetEnd

/-- R312: LINE_MODE.SPLIT may be written only when the rule allows it; a write at any other time changes nothing but REFUSED,
which it sets. A write of 1 to REFUSED that is taken clears it. -/
def Sys2Proof.Claims.SplitMode : Prop := ∀ (s : State) (v : Word), s.serve R.lineMode = .ok →
  (s.hostTouch.splitMayChange = false → Ends (.splitModeWrite v) s fun u =>
    u.regB R.lineMode 0 = s.regB R.lineMode 0 ∧ u.regB R.lineMode 1 = true ∧ Only [] [R.sesIdleTicks, R.lineMode] s u) ∧
  (s.hostTouch.splitMayChange = true → Ends (.splitModeWrite v) s fun u =>
    u.regB R.lineMode 0 = v.getLsbD 0 ∧ u.regB R.lineMode 1 = (!v.getLsbD 1 && s.regB R.lineMode 1) ∧
      Only [.fetchers] [R.sesIdleTicks, R.lineMode] s u ∧
      (v.getLsbD 0 = s.regB R.lineMode 0 → Only [] [R.sesIdleTicks, R.lineMode] s u)) ∧
  (s.flights ≠ [] → s.hostTouch.splitMayChange = false)

/-- R311: inside a session a word of the repertoire window takes its value; while any line is inside a routine the write is
ignored and counted; without a session, and beyond the store, nothing is written. -/
def Sys2Proof.Claims.RepertoireWrite : Prop := ∀ (s : State) (off : BitVec 18) (v : Word), s.serve (0x80000 + off.toNat) = .ok →
  (s.session = true → off.toNat < s.build.repBytes → (∀ l, (s.line l).routine = none) → Ends (.repWrite off v) s fun u =>
    (∀ o, u.repWord o = if o / 4 = off.toNat / 4 then v else s.repWord o) ∧ Only [.rep, .repBad] [R.sesIdleTicks] s u) ∧
  (s.session = true → off.toNat < s.build.repBytes → (∃ l, (s.line l).routine ≠ none) → Ends (.repWrite off v) s fun u =>
    u.reg R.lineRepRefused = satAdd (s.reg R.lineRepRefused) 1 ∧ Only [] [R.sesIdleTicks, R.lineRepRefused] s u) ∧
  (s.session = false ∨ s.build.repBytes ≤ off.toNat → Ends (.repWrite off v) s fun u => Only [] [R.sesIdleTicks] s u)

/-- Split mode and the repertoire store. -/
def Obligations.SplitAndRepertoire : Prop :=
  Sys2Proof.Claims.SplitMode ∧ Sys2Proof.Claims.RepertoireWrite

/-- R279: LINE_RING. A refused write sets ERR to the first row that applies and changes nothing else; ENABLE = 1 on a DISABLED
line allocates the ring handle, LOCKED, FIXED, I8 and of 2^SIZE_LOG bytes, and the line is EMPTY; ENABLE = 0 on an enabled
line frees the handle and makes the line DISABLED; on a DISABLED one it stores SIZE_LOG and HANDLE. A write that would allocate
while a property cue is in progress, and any write behind one that waits, waits (log entry 14). -/
def Obligations.LineRing : Prop := ∀ (s : State) (l : Line) (v : Word), s.serve (R.lineRing l.idx) = .ok →
  let size := fieldN v 0 5
  let en := bit v 8
  let h := fieldN v 16 16
  let waits := (s.line l).ringAt ≠ [] ∨
    (s.prop.busy = true ∧ en = true ∧ (s.line l).enabled = false ∧ s.hostTouch.ringRefused l size true h = none)
  (waits → Ends (.lineRingWrite l v) s fun u =>
    u.line l = { s.line l with ringAt := (s.line l).ringAt ++ [v] } ∧ (∀ k, k ≠ l → u.line k = s.line k) ∧
    Only [.lines] [R.sesIdleTicks] s u) ∧
  (16384 ≤ h ∨ size < 18 ∨ 24 < size → s.hostTouch.ringRefused l size en h = some 3) ∧
  (¬waits →
  (∀ e, s.hostTouch.ringRefused l size en h = some e → Ends (.lineRingWrite l v) s fun u =>
    u.regF (R.lineRing l.idx) 9 2 = e ∧ Only [] [R.sesIdleTicks, R.lineRing l.idx] s u) ∧
  (s.hostTouch.ringRefused l size en h = none →
    ((s.line l).enabled = false → en = true → Ends (.lineRingWrite l v) s fun u =>
      (u.line l).enabled = true ∧ (u.line l).head = 0 ∧ (u.line l).tail = 0 ∧ (u.line l).halted = false ∧
      (∀ k, k ≠ l → u.line k = s.line k) ∧
      (u.handle h).owned = true ∧ (u.handle h).locked = true ∧ (u.handle h).fixed = true ∧ (u.handle h).fmt = 4 ∧
      (u.handle h).elems = 2 ^ size ∧ (∀ k, k ≠ h → u.handle k = s.handle k) ∧
      u.regF (R.lineRing l.idx) 0 5 = size ∧ u.regB (R.lineRing l.idx) 8 = true ∧ u.regF (R.lineRing l.idx) 9 2 = 0 ∧
      u.regF (R.lineRing l.idx) 16 16 = h ∧
      Only [.lines, .mem, .prop] [R.sesIdleTicks, R.lineRing l.idx, R.lineRingBase l.idx] s u) ∧
    ((s.line l).enabled = true → en = true → Ends (.lineRingWrite l v) s fun u =>
      u.regF (R.lineRing l.idx) 9 2 = 0 ∧ Only [] [R.sesIdleTicks, R.lineRing l.idx] s u) ∧
    ((s.line l).enabled = true → en = false → Ends (.lineRingWrite l v) s fun u =>
      (u.line l).enabled = false ∧ (u.line l).halted = false ∧ u.handle (s.regF (R.lineRing l.idx) 16 16) = Handle.none ∧
      u.regB (R.lineRing l.idx) 8 = false ∧ u.regF (R.lineRing l.idx) 0 5 = size ∧ u.regF (R.lineRing l.idx) 16 16 = h ∧
      KeptBut [.lines, .flights, .queues, .trackers, .mem, .prop, .arr, .cho, .gangs, .fly, .doorR, .lineR, .callR] s u) ∧
    ((s.line l).enabled = false → en = false → Ends (.lineRingWrite l v) s fun u =>
      u.regF (R.lineRing l.idx) 0 5 = size ∧ u.regF (R.lineRing l.idx) 16 16 = h ∧ u.regB (R.lineRing l.idx) 8 = false ∧
      Only [] [R.sesIdleTicks, R.lineRing l.idx] s u)))

/-- R484: a read of SES_NONCE0 draws the SHA-256 of the 512 raw bits; before the key is latched and while the door is
locked no nonce is drawn and the word reads 0. -/
def Sys2Proof.Claims.Nonce : Prop := ∀ (s : State) (noise : BitVec 512), s.serve (R.sesNonce 0) = .ok →
  (s.secret.latched = true → s.locked = false → Ends (.nonceDraw noise) s fun u =>
    u.secret.nonce = BitVec.ofNat 256 (numOf (sha256 (bytesOf 64 noise.toNat))) ∧ u.secret.nonceOk = true ∧
      u.outs = s.outs ++ [.hostRsp (u.secret.nonce.setWidth 32) false] ∧ Only [.secret, .outs] [R.sesIdleTicks] s u) ∧
  (s.secret.latched = false ∨ s.locked = true → Ends (.nonceDraw noise) s fun u =>
    u.secret = s.secret ∧ u.outs = s.outs ++ [.hostRsp 0 false] ∧ Only [.outs] [R.sesIdleTicks] s u)

/-- R485: a write of SES_PROOF7 starts a check against the current nonce and SES_HOST_ID, with BUSY set; a write during a
check is ignored. -/
def Sys2Proof.Claims.ProofStart : Prop := ∀ (s : State) (v : Word), s.serve (R.sesProof 7) = .ok →
  (s.proofBusy = false → Ends (.proofWrite v) s fun u =>
    u.proofBusy = true ∧ u.secret.proof = v ++ s.secret.proof.setWidth 224 ∧ u.secret.checkId = s.reg R.sesHostId ∧
      (u.secret.good = true ↔ s.secret.nonceOk = true ∧ u.secret.proof = s.expectedProof (s.reg R.sesHostId)) ∧
      u.secret.key = s.secret.key ∧ u.secret.nonce = s.secret.nonce ∧ Only [.secret] [R.sesIdleTicks, R.sesStatus] s u) ∧
  (s.proofBusy = true → Ends (.proofWrite v) s fun u => Only [] [R.sesIdleTicks] s u)

/-- R486, R490: the outcomes of a check. No key or a locked door refuses; a match opens the session and clears FAILS; a
failure counts, and the third locks the door for 2^30 ticks and closes the session. The nonce is void after every check. -/
def Sys2Proof.Claims.ProofOutcome : Prop := ∀ s : State, s.proofBusy = true → Ends .proofCheckDone s fun u =>
  u.proofBusy = false ∧ u.secret = { s.secret with nonceOk := false } ∧
  Only [.secret] [R.sesStatus, R.sesOpenId, R.sesLockTicks, R.sesIdleTicks] s u ∧
  (s.secret.key = 0 ∨ s.secret.latched = false ∨ s.locked = true →
    u.session = s.session ∧ u.locked = s.locked ∧ u.regF R.sesStatus 2 2 = s.regF R.sesStatus 2 2 ∧
      u.regF R.sesStatus 6 2 = 3 ∧ u.reg R.sesOpenId = s.reg R.sesOpenId ∧ u.reg R.sesLockTicks = s.reg R.sesLockTicks) ∧
  (s.secret.key ≠ 0 → s.secret.latched = true → s.locked = false →
    (s.secret.good = true → u.session = true ∧ u.reg R.sesOpenId = s.secret.checkId ∧ u.regF R.sesStatus 2 2 = 0 ∧
      u.regF R.sesStatus 6 2 = 1) ∧
    (s.secret.good = false → s.regF R.sesStatus 2 2 < 2 → u.session = s.session ∧ u.locked = false ∧
      u.regF R.sesStatus 2 2 = s.regF R.sesStatus 2 2 + 1 ∧ u.regF R.sesStatus 6 2 = 2) ∧
    (s.secret.good = false → s.regF R.sesStatus 2 2 = 2 → u.session = false ∧ u.locked = true ∧
      u.reg R.sesLockTicks = 0x40000000#32 ∧ u.reg R.sesOpenId = 0 ∧ u.regF R.sesStatus 6 2 = 2))

/-- R486, R487: the lock ends once SES_LOCK_TICKS is 0, and clears FAILS; SES_CLOSE closes an open session, and so does a
silence of 2^32 ticks, which SES_IDLE_TICKS counts (log entry 24). -/
def Sys2Proof.Claims.SessionEnds : Prop := ∀ (s : State) (v : Word),
  (s.locked = false ∨ s.reg R.sesLockTicks ≠ 0 → Ends .doorLockEnd s fun u => u = s) ∧
  (s.locked = true → s.reg R.sesLockTicks = 0 → Ends .doorLockEnd s fun u => u.locked = false ∧ u.regF R.sesStatus 2 2 = 0 ∧ u.session = s.session ∧
    u.reg R.sesLockTicks = 0 ∧ Only [] [R.sesStatus, R.sesLockTicks] s u) ∧
  (s.serve R.sesClose = .ok → v.getLsbD 0 = true → Ends (.sesClose v) s fun u =>
    u.session = false ∧ u.reg R.sesOpenId = 0 ∧ u.locked = s.locked ∧
      Only [] [R.sesStatus, R.sesOpenId, R.sesIdleTicks] s u) ∧
  (s.serve R.sesClose = .ok → v.getLsbD 0 = false → Ends (.sesClose v) s fun u => Only [] [R.sesIdleTicks] s u) ∧
  (s.session = false ∨ s.reg R.sesIdleTicks ≠ 0xFFFFFFFF → Ends .sessionIdleTimeout s fun u => u = s) ∧
  (s.session = true → s.reg R.sesIdleTicks = 0xFFFFFFFF → Ends .sessionIdleTimeout s fun u => u.session = false ∧ u.reg R.sesOpenId = 0 ∧ u.locked = s.locked ∧
    Only [] [R.sesStatus, R.sesOpenId, R.sesIdleTicks] s u)

/-- Nonce, proof, lock and the ends of a session. -/
def Obligations.Sessions : Prop :=
  Sys2Proof.Claims.Nonce ∧ Sys2Proof.Claims.ProofStart ∧ Sys2Proof.Claims.ProofOutcome ∧ Sys2Proof.Claims.SessionEnds

/-- R513, R515, R520: the fields of TAB_CMD. TRIGGER waits as source 6 with the written id, ARM arms, THAW ends a freeze. -/
def Sys2Proof.Claims.TableauCommands : Prop := ∀ (s : State) (id : BitVec 16), s.serve R.tabCmd = .ok →
  (Ends (.tabTrigger id) s fun u =>
    u.trig = s.trig ++ [⟨6, id, (s.reg R.fabCoreId).setWidth 12, false⟩] ∧ Only [.trig] [R.sesIdleTicks] s u) ∧
  (Ends .tabArm s fun u => u.regB R.tabStatus 0 = true ∧ u.frozen = s.frozen ∧ Only [] [R.sesIdleTicks, R.tabStatus] s u) ∧
  (Ends .thaw s fun u => u.frozen = false ∧ u.regB R.tabStatus 0 = s.regB R.tabStatus 0 ∧
    Only [] [R.sesIdleTicks, R.tabStatus] s u)

/-- R515, R517: triggers of one moment while ARMED: one capture is taken, of the lowest source code; ARMED clears, TAKEN is
set, TAB_COUNT rises by one, `tab_out` rises, and the other triggers count as missed. While not ARMED all of them count as
missed and nothing else happens. -/
def Sys2Proof.Claims.CaptureRule : Prop := ∀ s : State, s.trig ≠ [] →
  (s.regB R.tabStatus 0 = true → s.takeTriggers.trig = [] ∧ s.takeTriggers.regB R.tabStatus 0 = false ∧
    s.takeTriggers.regB R.tabStatus 1 = true ∧ s.takeTriggers.reg R.tabCount = s.reg R.tabCount + 1 ∧
    s.takeTriggers.pins.tabOut = true ∧ s.takeTriggers.reg R.tabMissed = satAdd (s.reg R.tabMissed) (s.trig.length - 1) ∧
    ∃ t ∈ s.trig, (∀ x ∈ s.trig, t.src ≤ x.src) ∧ s.takeTriggers.regF R.tabStatus 3 4 = t.src % 16 ∧
      s.takeTriggers.regF R.tabStatus 16 16 = t.id.toNat) ∧
  (s.regB R.tabStatus 0 = false → s.takeTriggers.trig = [] ∧
    s.takeTriggers.reg R.tabMissed = satAdd (s.reg R.tabMissed) s.trig.length ∧
    Only [.trig] [R.tabMissed] s s.takeTriggers)

/-- R518: the cue at the head of the tableau queue triggers its capture where TAB_CTRL lets cues trigger, with its id and its
spread flag, and is done at once. -/
def Sys2Proof.Claims.TableauCue : Prop := ∀ s : State,
  (∀ f, s.startable 0x22 = some f → Ends .tableau s fun u =>
    u.trig = s.trig ++ (if s.regB R.tabCtrl 4 then [⟨2, f.q.cue.tabId, s.coreId, f.q.cue.tabSpread⟩] else []) ∧
    u.doneWith f ∧
    KeptBut [.flights, .queues, .trig] s u) ∧
  (s.startable 0x22 = none → Ends .tableau s fun u => u = s)

/-- R513, R521: a TABLEAU flit triggers a capture with its id and origin, also while the core is frozen, and nothing while
TAB_CTRL.FAB_EN is 0. In reset and in Drowse nothing happens. -/
def Sys2Proof.Claims.TableauFlit : Prop := ∀ (s : State) (id : BitVec 16) (origin : BitVec 12),
  let serves := (s.phase = .up ∨ s.phase = .bringUp) ∧ s.pstate ≤ 2
  (¬serves → Ends (.tableauFlit id origin) s fun u => u = s) ∧
  (serves → s.regB R.tabCtrl 2 = true → Ends (.tableauFlit id origin) s fun u =>
    u.trig = s.trig ++ [⟨8, id, origin, false⟩] ∧ KeptBut [.fab, .outs, .trig, .powerR] s u) ∧
  (serves → s.regB R.tabCtrl 2 = false → Ends (.tableauFlit id origin) s fun u => KeptBut [.fab, .outs, .powerR] s u)

/-- Tableau commands, the capture rule, the TABLEAU cue and the flit. -/
def Obligations.Tableau : Prop :=
  Sys2Proof.Claims.TableauCommands ∧ Sys2Proof.Claims.CaptureRule ∧ Sys2Proof.Claims.TableauCue ∧ Sys2Proof.Claims.TableauFlit

/-- R289: the Prompter takes the first slot of the weave, from the pointer on, whose line wants the turn, and the slot after
it becomes the pointer; only where no slot's line does, the lowest line that appears in no slot; and none only where no line
wants a turn. -/
def Sys2Proof.Claims.WeaveOrder : Prop := ∀ s : State,
  let slot (k : Nat) : Line := s.weave ((s.regF R.lineWeavePtr 0 5 + k) % 32)
  (s.choose = none ↔ ∀ l, s.wantsTurn l = false) ∧
  ∀ l p, s.choose = some (l, p) → s.wantsTurn l = true ∧
    ((∃ k, k < 32 ∧ slot k = l ∧ p = (s.regF R.lineWeavePtr 0 5 + k + 1) % 32 ∧
        ∀ j, j < k → s.wantsTurn (slot j) = false) ∨
      (p = s.regF R.lineWeavePtr 0 5 ∧ (∀ k, k < 32 → slot k ≠ l ∧ s.wantsTurn (slot k) = false) ∧
        ∀ j : Line, j.idx < l.idx → (∀ k, k < 32 → slot k ≠ j) → s.wantsTurn j = false))

/-- R287, R288, R294: a cue that may dispatch stands at the head of a line in dispatch, each of its waits is met, no
ARR_CONFIG of its line is in flight, and for FENCE, HALT and CURTAIN_CALL no cue that the line dispatched before is. -/
def Sys2Proof.Claims.ReadyCue : Prop := ∀ (s : State) (l : Line) (c : Cue), s.turnOf l = .go c →
  (s.line l).enabled = true ∧ (s.line l).halted = false ∧ (s.line l).resetting = false ∧
  (∀ w ∈ c.waits, waitThreshold w ≤ (s.cnt (wordIndex w)).toNat) ∧
  (∀ f ∈ s.flights, f.q.line = l → f.q.cue.opcode ≠ 0x12) ∧
  (c.opcode = 1 ∨ c.opcode = 7 ∨ c.opcode = 0x70 → (s.line l).routine = none → ∀ f ∈ s.flights, f.q.line ≠ l)

/-- R287, R318: where nothing may dispatch, or no line wants a turn, no cue moves; a cue that fails a check halts its line in
front of it, without a number and without posts, with the reason of the check. -/
def Sys2Proof.Claims.PrompterStops : Prop := ∀ (s : State) (l : Line) (ptr : Nat) (upset : List Nat)
    (board : List (Fin 80 × Fin 3)),
  let v := (s.repUpset upset).boardUpset board
  let turn := Instr.prompterDispatch upset board
  (v.mayDispatch = false → Ends turn s fun u => u = v) ∧
  (s.mayDispatch = false → ∀ c ∈ [Instr.nop l, .fence l, .loopBegin l, .loopEnd l, .callRoutine l,
    .setLoop l, .halt l, .stepAdvance l, .curtainCall l], Ends c s fun u => u = s) ∧
  (v.mayDispatch = true → v.takeHeads.choose = none → Ends turn s fun u => u = v.takeHeads) ∧
  (∀ r fetch c, v.mayDispatch = true → v.takeHeads.choose = some (l, ptr) → v.takeHeads.turnOf l = .fail r fetch c →
    Ends turn s fun u =>
      (u.line l).halted = true ∧ (u.line l).count = (v.line l).count ∧ (u.line l).epoch = (v.line l).epoch ∧
      u.regF (R.lineHaltReason l.idx) 0 8 = r.num ∧ u.regF (R.lineHaltReason l.idx) 16 8 = c.opcode ∧
      u.regB R.ctlIrqPend (1 + l.idx) = true ∧ u.board = v.board ∧ u.regF R.lineWeavePtr 0 5 = ptr ∧
      KeptBut [.lines, .mem, .prop, .trig, .ctlR, .powerR, .lineR, .callR, .propR, .fltR] v u)

/-- Which cue the Prompter dispatches, and what stops it. -/
def Obligations.PrompterOrder : Prop :=
  Sys2Proof.Claims.WeaveOrder ∧ Sys2Proof.Claims.ReadyCue ∧ Sys2Proof.Claims.PrompterStops

/-- R287, R293, R294, R316, R322, R35: NOP, FENCE, STEP_ADVANCE and SET_LOOP take the line's next number, make their posts
and complete; the line goes on behind them. STEP_ADVANCE adds 1 to the line's step number, SET_LOOP writes its loop
register, and no other step number or loop register changes. -/
def Obligations.PlainCues : Prop := ∀ (s : State) (l : Line) (ptr : Nat) (c : Cue), s.turnIs l ptr c →
  ∀ p ∈ [(0, Instr.nop l), (1, .fence l), (5, .setLoop l), (8, .stepAdvance l)], c.opcode = p.1 → Ends p.2 s fun u =>
    u.line l = (s.line l).numbered.advance ∧ (∀ k, k ≠ l → u.line k = s.takeHeads.line k) ∧
    u.board = (s.localPosts c).board ∧ u.regF R.lineWeavePtr 0 5 = ptr ∧
    (∀ k, u.reg (stepReg k) = if p.1 = 8 ∧ k = l then s.reg (stepReg k) + 1 else s.reg (stepReg k)) ∧
    (∀ (k : Line) (i : Nat), i < 16 → u.reg (R.lineLoop k.idx i) = if p.1 = 5 ∧ k = l ∧ i = c.loopReg
      then (if c.loopAdd then s.reg (R.lineLoop k.idx i) + c.loopValue else c.loopValue)
      else s.reg (R.lineLoop k.idx i)) ∧
    KeptBut [.lines, .board, .mem, .prop, .trig, .nextUid, .powerR, .lineR, .callR, .trkR, .propR, .fltR] s u

/-- R297 to R300: LOOP_BEGIN latches its count; with a count it opens a level, with 0 the line goes to the LOOP_END. LOOP_END
adds 1 to the index and goes back behind the LOOP_BEGIN while the index is below the count; then, or where no level was
opened, the line goes on behind it. -/
def Obligations.LoopCues : Prop := ∀ (s : State) (l : Line) (ptr : Nat) (c : Cue), s.turnIs l ptr c →
  let x := s.lineCtx l
  let n := s.reg (R.lineLoop l.idx c.loopReg)
  let e := x.pos + BitVec.ofNat 32 c.endOffset
  let after (loops : List LoopLevel) (skip : Option (BitVec 32)) (p : BitVec 32) (u : State) : Prop :=
    u.line l = ({ (s.line l).numbered with loops := loops, skipEnd := skip }).goto p ∧
    (∀ k, k ≠ l → u.line k = s.takeHeads.line k) ∧ u.board = (s.localPosts c).board ∧
    KeptBut [.lines, .board, .mem, .prop, .trig, .nextUid, .powerR, .lineR, .callR, .propR, .fltR] s u
  (c.opcode = 2 → n ≠ 0 → Ends (.loopBegin l) s (after (⟨x.pos, e, n, 0⟩ :: x.loops) x.skipEnd (x.pos + 1))) ∧
  (c.opcode = 2 → n = 0 → Ends (.loopBegin l) s (after x.loops (some e) e)) ∧
  (c.opcode = 3 → x.skipEnd ≠ none → Ends (.loopEnd l) s (after x.loops none (x.pos + 1))) ∧
  (∀ lv rest, c.opcode = 3 → x.skipEnd = none → x.loops = lv :: rest → Ends (.loopEnd l) s fun u =>
    if (lv.idx + 1).toNat < lv.count.toNat then after ({ lv with idx := lv.idx + 1 } :: rest) none (lv.beginPos + 1) u
    else after rest none (x.pos + 1) u)

/-- R295, R308, R373: HALT makes its posts and halts its line with HALT_CUE, behind the cue; CALL_ROUTINE stays in flight, keeps
the caller's loop stack and goes on at the routine's first cue with its arguments. A call of an optimizer routine stays in
flight and its line stands behind it (log entry 45). -/
def Obligations.HaltAndCall : Prop := ∀ (s : State) (l : Line) (ptr : Nat) (c : Cue), s.turnIs l ptr c →
  let n := (s.line l).numbered.advance
  (c.opcode = 7 → Ends (.halt l) s fun u =>
    u.line l = { n with halted := true, more := false, atPrompter := false } ∧
    u.regF (R.lineHaltReason l.idx) 0 8 = 0x24 ∧ u.reg (R.lineHaltCountLo l.idx) = (s.line l).count.setWidth 32 ∧
    u.regB R.ctlIrqPend (1 + l.idx) = true ∧ u.board = (s.localPosts c).board ∧
    KeptBut [.lines, .board, .mem, .prop, .trig, .nextUid, .ctlR, .powerR, .lineR, .callR, .propR, .fltR] s u) ∧
  (∀ start k uok mok, c.opcode = 4 → s.routineEntry c.routineId = some (start, k, uok, mok) → Ends (.callRoutine l) s fun u =>
    u.line l = (if c.isOpt = true then n
      else { n with routine := some ⟨start, k, 0, (List.range 8).map c.arg, n.loops, n.skipEnd, 4 * s.nextUid + l.idx⟩,
                    loops := [], skipEnd := none }) ∧
    u.nextUid = s.nextUid + 1 ∧ u.board = s.board ∧ (∃ f, u.flights = s.flights ++ [f] ∧ f.stage = .started ∧ f.q.line = l ∧
      f.q.cue = c ∧ f.q.uid = 4 * s.nextUid + l.idx ∧ f.q.num = (s.line l).count ∧ f.q.epoch = (s.line l).epoch) ∧
    KeptBut [.lines, .flights, .mem, .prop, .trig, .nextUid, .powerR, .lineR, .callR, .propR, .fltR] s u)

/-- R344, R345, R351: a CURTAIN_CALL that fails its checks halts its line in front of it. Any other makes its call pending
with the line's next number; it waits for the children that have not arrived; with all of them it sends its arrival to the
parent, or the root releases and the call is over. -/
def Obligations.CurtainCall : Prop := ∀ (s : State) (l : Line) (ptr : Nat) (c : Cue), s.turnIs l ptr c → c.opcode = 0x70 →
  let k := c.ccIndex
  let t := s.tree k
  let uid := 4 * s.nextUid + l.idx
  let called (a : Option Align) : CcTree := { t with pending := true, cue := some uid, loc := true, align := a }
  let inFlight (u : State) : Prop := ∃ f, u.flights = s.flights ++ [f] ∧ f.q.cue = c ∧ f.q.uid = uid ∧
    f.q.num = (s.line l).count ∧ f.stage = .started
  (∀ e, (s.takeHeads.curtainCheck l c).1 = .inl e → Ends (.curtainCall l) s fun u =>
    (u.line l).halted = true ∧ (u.line l).count = (s.line l).count ∧ u.regF (R.lineHaltReason l.idx) 0 8 = e.num ∧
    u.flights = s.flights ∧ u.board = s.board) ∧
  (∀ a, (s.takeHeads.curtainCheck l c).1 = .inr a → Ends (.curtainCall l) s fun u =>
    u.line l = (s.line l).numbered.advance ∧ u.nextUid = s.nextUid + 1 ∧ u.regF R.lineWeavePtr 0 5 = ptr ∧
    (∀ j, j ≠ k → u.tree j = s.tree j) ∧
    (t.sent = true ∨ t.kids.length ≠ s.ccKids k → u.tree k = called a ∧ inFlight u ∧ u.board.counts = s.board.counts) ∧
    (t.sent = false → t.kids.length = s.ccKids k → s.ccRoot k = false →
      u.tree k = { called a with sent := true } ∧ inFlight u ∧ u.board.counts = s.board.counts ∧
      ∃ v : State, u = ((v.sendPacket (s.ccParent k) 4 0 (curtainBytes k false t.seq none)).setF R.lineWeavePtr 0 5 ptr).leaveIdle) ∧
    (t.sent = false → t.kids.length = s.ccKids k → s.ccRoot k = true →
      u.tree k = ⟨t.seq + 1, false, none, false, false, t.early, [], none⟩ ∧ (∀ f ∈ u.flights, f.q.uid ≠ uid) ∧
      (a = none → c.posts = [] → (s.cnt (64 + k)).toNat < 0xFFFFF → (u.cnt (64 + k)).toNat = (s.cnt (64 + k)).toNat + 1))) ∧
  (s.ccEn k = false ∨ s.ccLine k ≠ l.idx ∨ 16 < s.ccKids k → (s.takeHeads.curtainCheck l c).1 = .inl .curtainInvalid)

/-- R292: a cue for an engine takes the line's next number and enters each of its queues at the end; the line goes on
behind it, and no post is made yet. A cue of the reduction units has the claim it needs (R150). `s` is the state with the errors
that tables and counters have met since the last turn (log entries 26 and 42). -/
def Obligations.EngineCue : Prop := ∀ (r : State) (l : Line) (ptr : Nat) (c : Cue) (upset : List Nat)
    (board : List (Fin 80 × Fin 3)),
  let s := (r.repUpset upset).boardUpset board
  s.turnIs l ptr c → c.opcode ∉ [0, 1, 2, 3, 4, 5, 7, 8, 0x70] → s.claimFits l c → Ends (.prompterDispatch upset board) r fun u =>
    u.line l = (s.line l).numbered.advance ∧ (∀ k, k ≠ l → u.line k = s.takeHeads.line k) ∧
    (∃ f, u.flights = s.flights ++ [f] ∧ f.stage = .queued ∧ f.q.line = l ∧ f.q.cue = c ∧
      f.q.uid = 4 * s.nextUid + l.idx ∧ f.q.num = (s.line l).count ∧ f.q.epoch = (s.line l).epoch ∧
      f.q.step = s.stepNum l ∧ f.units = (s.cueQueues l c).length ∧ f.silent = false) ∧
    (∀ e, u.queue e = s.queue e ++ ((s.cueQueues l c).filter (· == e)).map fun _ => 4 * s.nextUid + l.idx) ∧
    u.board = s.board ∧ u.nextUid = s.nextUid + 1

/-- R313 to R315: a fetcher that may fetch takes its list's next cue: it gives the fetcher's own number, moves
LINE_SPLIT_PTR on, and completes NOP and FENCE with their posts or puts an engine's cue into the queue; a cue that waits or
stalls stays taken; a failing check halts the fetcher's line with the engine named. A fetcher that may not fetch does
nothing. -/
def Obligations.FetcherTurn : Prop := ∀ (s : State) (e : Nat),
  let f := s.fetcher e
  let x := s.fetcherCtx e
  let g : Fetcher := { f with count := f.count + 1, epoch := if f.count + 1 = 0 then f.epoch + 1 else f.epoch,
                              taken := none, breakSpent := false }
  (s.fetcherOn e = false → Ends (.fetcherDispatch e) s fun u => u = s) ∧
  (∀ c, s.fetcherOn e = true → (s.fetcherFind e).1 = .go c →
    (c.opcode = 0 ∨ c.opcode = 1 → Ends (.fetcherDispatch e) s fun u =>
      u.fetcher e = g ∧ u.reg (R.lineSplitPtr e) = x.pos + 1 ∧ u.board = (s.localPosts c).board ∧
      u.flights = s.flights ∧ u.lines = s.lines) ∧
    (c.opcode = 8 → Ends (.fetcherDispatch e) s fun u => u.fetcher e = { g with step := f.step + 1 } ∧
      u.reg (R.lineSplitPtr e) = x.pos + 1 ∧ u.board = (s.localPosts c).board ∧
        u.reg (stepReg x.line) = s.reg (stepReg x.line)) ∧
    (c.opcode ∉ [0, 1, 2, 3, 5, 7, 8] → s.claimFits x.line c → Ends (.fetcherDispatch e) s fun u =>
      u.fetcher e = g ∧ u.reg (R.lineSplitPtr e) = x.pos + 1 ∧ u.board = s.board ∧
      (∃ y, u.flights = s.flights ++ [y] ∧ y.stage = .queued ∧ y.q.cue = c ∧ y.q.num = f.count ∧ y.q.epoch = f.epoch ∧
        y.q.step = f.step ∧ y.fetcher = some e))) ∧
  (∀ c n, s.fetcherOn e = true → (s.fetcherFind e).1 = .waits c ∨ (s.fetcherFind e).1 = .stalls n c →
    Ends (.fetcherDispatch e) s fun u => u.fetcher e = { f with taken := some c } ∧
      KeptBut [.fetchers, .mem, .prop, .trig, .propR, .fltR] s u) ∧
  (∀ r fetch c, s.fetcherOn e = true → (s.fetcherFind e).1 = .fail r fetch c → Ends (.fetcherDispatch e) s fun u =>
    (u.line x.line).halted = true ∧ (u.fetcher e).count = f.count ∧ u.regF (R.lineHaltReason x.line.idx) 0 8 = r.num ∧
    u.regF (R.lineHaltReason x.line.idx) 8 6 = e % 64 ∧ u.flights = s.flights ∧ u.board = s.board)

/-- R62, R63, R68, R69, R73 to R75: ARR_FILL at the head of its queue, behind the parity errors its buffers show (`s`). The
least of the failing checks halts its line; without its rows or its tiles it waits; operands of other formats or scales, and
hold slots of another E, halt the line. Otherwise, with no limit on waking its banks, it issues: its rows leave the feeds it
uses, its banks are awake, and the fill is counted. A fill that holds keeps M × N_USED raw partials in each array, a fill that
emits gives its tiles to its drain, and one that neither emits nor holds is done. -/
def Obligations.ArrayFill : Prop := ∀ (r : State) (q : Fin 2) (par : List (Nat × Nat × Nat)) (hpar : List (Nat × Nat)) (f : Flight),
  let s := (r.feedParity par).holdParity hpar
  r.enginesRun = true → s.startable (q.val + 1) = some f → f.q.cue.opcode = 0x10 →
  let fill := Instr.arrFill q par hpar
  let c := f.q.cue
  let arrays := s.fillArrays q.val c
  let rows := arrays.map fun a => (s.feed a).take (fillRows c)
  (∀ code, leastCode (s.fillChecks q.val c) = some code → Ends fill r fun u =>
    s.haltsOn f 1 code u ∧ KeptBut [.lines, .flights, .queues, .trig, .ctlR, .lineR, .callR, .fltR] s u) ∧
  (leastCode (s.fillChecks q.val c) = none → (∃ a ∈ arrays, (s.feed a).length < fillRows c) →
    Ends fill r fun u => u = s) ∧
  (leastCode (s.fillChecks q.val c) = none → (∀ a ∈ arrays, fillRows c ≤ (s.feed a).length) → s.fillTiles q.val c = none →
    Ends fill r fun u => u = s) ∧
  (∀ tiles loaded, leastCode (s.fillChecks q.val c) = none → (∀ a ∈ arrays, fillRows c ≤ (s.feed a).length) →
    s.fillTiles q.val c = some (tiles, loaded) →
    (operandsAgree c rows.flatten tiles = false → Ends fill r (s.haltsOn f 1 .arrOperandMismatch)) ∧
    (operandsAgree c rows.flatten tiles = true → holdNeeded c.afDrain = true →
      (∃ a ∈ arrays, ∀ h, s.holdOf a = some h → h.e ≠ fillE c rows.flatten tiles) →
      Ends fill r (s.haltsOn f 1 .arrHoldMismatch)) ∧
    (operandsAgree c rows.flatten tiles = true →
      (holdNeeded c.afDrain = true → ∀ a ∈ arrays, ∃ h, s.holdOf a = some h ∧ h.e = fillE c rows.flatten tiles) →
      s.rampOk (s.toWake (arrays.map s.banksOf).flatten).length = true → s.regB R.pwrStatus 7 = false →
      Ends fill r fun u =>
        (∀ a, u.feed a = if a ∈ arrays then (s.feed a).drop (fillRows c) else s.feed a) ∧
        (∀ k, f.q.uid ∉ u.queue k) ∧ u.arr.fillSeq = s.arr.fillSeq + 1 ∧
        u.reg R.arrFills = s.reg R.arrFills + 1 ∧ (∀ b ∈ (arrays.map s.banksOf).flatten, b ∈ u.arr.awake) ∧
        (∀ y, u.flight f.q.uid = some y → y.stage = if emits c.afDrain then .started else .finished) ∧
        (emits c.afDrain = true → ∃ new : List TqTile, u.arr.drain = s.arr.drain ++ new.map (fun t => (q.val, t)) ∧
          ∀ t ∈ new, t.uid = f.q.uid ∧ t.line = f.q.line ∧ t.tag = c.afOutTag ∧ t.n = c.afN ∧ t.begun = none) ∧
        (emits c.afDrain = false → u.arr.drain = s.arr.drain) ∧
        (c.afDrain = 2 ∨ c.afDrain = 3 → ∀ a ∈ arrays, ∃ h, u.holdOf a = some h ∧ h.line = f.q.line ∧ h.m = c.afM ∧
          h.n = c.afN ∧ h.e = fillE c rows.flatten tiles ∧ h.vals.length = c.afM * c.afN) ∧
        (c.afDrain ≠ 2 → c.afDrain ≠ 3 → ∀ a ∈ arrays, u.holdOf a = none) ∧
        KeptBut [.flights, .queues, .arr, .powerR, .arrR] s u))

/-- R86, R87, R93: ARR_DROP_HOLD releases the holds of the arrays its mask names, in the line's own half under HALVES, and is
done. ARR_CONFIG halts its line for a mode that R87 refuses, waits until the complex is empty, and then sets mode and
partition, with no working weights. -/
def Obligations.ArrayControl : Prop := ∀ (s : State) (q : Fin 2) (f : Flight), s.startable (q.val + 1) = some f →
  (f.q.cue.opcode = 0x11 → Ends (.arrDropHold q) s fun u =>
    (∀ a, a < s.arrCount → u.holdOf a =
      if f.q.cue.adMask.testBit a = true ∧ (s.arr.split = false ∨ a / 2 = q.val) then none else s.holdOf a) ∧
    u.doneWith f ∧
    KeptBut [.flights, .queues, .arr] s u) ∧
  (f.q.cue.opcode = 0x12 → configBad f.q.cue = true → Ends (.arrConfig q) s fun u =>
    s.haltsOn f 1 .arrField u ∧ u.arr = s.arr) ∧
  (f.q.cue.opcode = 0x12 → configBad f.q.cue = false → s.arrEmpty = false → Ends (.arrConfig q) s fun u => u = s) ∧
  (f.q.cue.opcode = 0x12 → configBad f.q.cue = false → s.arrEmpty = true → Ends (.arrConfig q) s fun u =>
    u.arr.mode = f.q.cue.acMode ∧ u.arr.split = f.q.cue.acSplit ∧ u.arr.lineA = f.q.cue.acLineA ∧
    u.arr.lineB = f.q.cue.acLineB ∧ u.arr.working = [] ∧ u.arr.awake = s.arr.awake ∧
    (∀ y, u.flight f.q.uid = some y → y.stage = .finished) ∧ KeptBut [.flights, .queues, .arr] s u)

/-- R62, R64, R65, R72, R125, R509: the preload moves the tile of the half in use to a shadow set, with the parity of the fill
it is for, and frees the half, and waits while no set can take it or no tile is complete; a drain takes the lowest free slot of
its pool for its oldest tile, and waits where none is free; a byte that fails parity poisons what it holds; a bank without a
fill falls asleep. -/
def Obligations.ArrayMoves : Prop := ∀ (s : State) (q : Fin 2), s.enginesRun = true →
  (∀ (par : List Nat), s.arr.split = true ∨ NMap.get 0 s.arr.useAt 0 = q.val →
    let k := if s.arr.split then q.val else 0
    let use := NMap.get 0 s.arr.useAt k
    (∀ key t, s.preloadKey k = some key → s.half (halfIdx k use) = .ready t → Ends (.weightPreload q par) s fun u =>
      (key, Shadow.mk { t with poison := t.poison ++
        (par.map (elemsOfByte ((Fmt.ofCode t.fmt).getD .i8) t.codes.length)).flatten } (!s.workParity key)) ∈ u.shadows k ∧
      u.half (halfIdx k use) = .empty ∧ NMap.get 0 u.arr.useAt k = 1 - use ∧ u.arr.working = s.arr.working ∧
      KeptBut [.arr, .trig, .fltR] s u ∧ (par = [] → KeptBut [.arr] s u)) ∧
    (s.preloadKey k = none ∨ (∀ t, s.half (halfIdx k use) ≠ .ready t) → Ends (.weightPreload q par) s fun u => u = s)) ∧
  (∀ (pre post : List (Nat × TqTile)) (t : TqTile) (slot : Nat) (more : List Nat) (par : List (Nat × Nat)),
    s.arr.drain = pre ++ (q.val, t) :: post →
    (∀ d ∈ pre, d.1 ≠ q.val) → s.freeSlots q.val = slot :: more → Ends (.drainTile q par) s fun u =>
      u.arr.tq = s.arr.tq ++ [(slot, t.spoil par)] ∧ u.arr.drain = pre ++ post ∧
      slot ∈ s.poolSlots q.val ∧ (∀ x ∈ s.arr.tq, x.1 ≠ slot) ∧
      ((∀ d ∈ pre ++ post, d.2.uid ≠ t.uid) → ∀ x ∈ u.arr.inFlight, x.uid = t.uid → x.holds = true) ∧
      KeptBut [.flights, .arr, .trig, .arrR, .fltR] s u ∧ (par = [] → KeptBut [.flights, .arr, .arrR] s u)) ∧
  ((∀ d ∈ s.arr.drain, d.1 ≠ q.val) ∨ s.freeSlots q.val = [] → ∀ par, Ends (.drainTile q par) s fun u => u = s) ∧
  (∀ bank, bank ∈ s.arr.awake → (∀ x ∈ s.arr.inFlight, bank ∉ x.banks) →
    s.regF R.pwrRamp 0 6 = 0 ∨ s.arr.slept < s.regF R.pwrRamp 0 6 → Ends (.bankSleep bank) s fun u =>
      (∀ b, b ∈ u.arr.awake ↔ b ∈ s.arr.awake ∧ b ≠ bank) ∧ u.arr.slept = s.arr.slept + 1 ∧ KeptBut [.arr] s u) ∧
  (∀ bank, bank ∉ s.arr.awake ∨ (∃ x ∈ s.arr.inFlight, bank ∈ x.banks) → Ends (.bankSleep bank) s fun u => u = s)

/-- R42, R43: an order-free sum depends only on the terms and not on the order in which they are added, for the sums of the
array, of the reduction unit's columns and of the accumulators that join. -/
def Obligations.OrderFree : Prop :=
  (∀ (op : Nat) (e : Int) (l m : List (Machine.Num × Machine.Num)), l.Perm m → sumTerms op e l = sumTerms op e m) ∧
  (∀ (a b c : Acc), a.add b = b.add a ∧ (a.add b).add c = a.add (b.add c)) ∧
  (∀ (e : Int) (a : Acc) (x y : Machine.Num), (a.addTerm e x).addTerm e y = (a.addTerm e y).addTerm e x)

/-- R101, R146, R293, R547: CHO_RUN. The first unit of the gang checks the cue, and the least failing code halts its line.
A unit then takes row after row while the operands are there, and until it has taken all of its rows the cue stays in its
queue. Where the operands of all its rows are there it takes them all, counts the run and gives up the cue, which is done with
the gang's last unit. -/
def Obligations.ChorusRun : Prop := ∀ (s : State) (u : Fin 8) (f : Flight), s.unitHead u.val = some f → f.opcode = 0x20 →
  feedsRed f.q.cue = false →
  let checks := s.runChecks f.q.line f.q.cue
  let ready := s.gangRun f.q.uid ≠ none ∨ (u.val = f.q.cue.firstUnit ∧ leastCode checks = none)
  (∀ code, s.gangRun f.q.uid = none → u.val = f.q.cue.firstUnit → leastCode checks = some code →
    Ends (.choRun u) s (s.haltsOn f (8 + u.val) code)) ∧
  (s.gangRun f.q.uid = none → u.val ≠ f.q.cue.firstUnit → Ends (.choRun u) s fun t => t = s) ∧
  (∀ s0, ready → s.openGang u.val f checks = some s0 → Ends (.choRun u) s fun t =>
      ∃ n s1, Rows (fun x => x.runRow u.val f.q.uid) n s0 s1 ∧ (n = f.q.cue.rows ∨ s1.runRow u.val f.q.uid = none) ∧
        t = (s1.drawRows u.val f.q.uid).closeIfDone u.val f.q.uid ∧
        (∀ y r, s1.flight f.q.uid = some y → s1.runOf u.val f.q.uid = some r → s1.rowsDone u.val y r = false →
          t.queues = s.queues)) ∧
  (∀ n s0 s1 y r, ready → s.openGang u.val f checks = some s0 → n ≤ f.q.cue.rows →
    Rows (fun x => x.runRow u.val f.q.uid) n s0 s1 → s1.flight f.q.uid = some y → s1.runOf u.val f.q.uid = some r →
    s1.rowsDone u.val y r = true → Ends (.choRun u) s fun t =>
      t.reg (R.choURuns u.val) = s1.reg (R.choURuns u.val) + 1 ∧ (t.unit u.val).run = none ∧
      f.q.uid ∉ t.queue (8 + u.val) ∧ (∀ e, e ≠ 8 + u.val → t.queue e = s1.queue e) ∧
      (y.units ≤ 1 → ∀ z, t.flight f.q.uid = some z → z.stage = .finished) ∧ t.lanes = s1.lanes ∧ t.mem = s.mem ∧
      t.board = s.board)

/-- R102, R112, R119 to R123, R133 to R135: one row of a run. It goes through the chain; an output to a fly engine appends its
elements to that engine's lane, an output to the stage buffer writes its live elements in their place and no other byte
changes, the ports and the lane state of a program of several trips apart; the row number rises by one. An element depends only on the operands of its own column. -/
def Sys2Proof.Claims.ChorusRow : Prop := ∀ (s : State) (u : Fin 8) (f : Flight) (run : URun) (x : RowIn),
  s.flight f.q.uid = some f → s.runOf u.val f.q.uid = some run → s.rowsDone u.val f run = false →
  s.rowIn u.val f run = some (.inl x) → f.q.cue.opcode = 0x20 → ∃ t, s.runRow u.val f.q.uid = some t ∧
    let c := f.q.cue
    let prog := s.program u.val c.crProg
    let lanes := chainRow c prog x
    let plain (a : Nat) : Prop := (prog.length ≤ 8 ∨ a < tripLo) ∧ ∀ p, p < 4 →
      let port := (s.unit u.val).port p
      a < port.1 * 4096 ∨ (port.1 + port.2) * 4096 ≤ a
    t.flights = s.flights ∧ t.queues = s.queues ∧ t.lines = s.lines ∧ t.mem = s.mem ∧
    (∀ r, (t.unit u.val).run = some r → r.j = run.j + 1 ∧ r.uid = f.q.uid) ∧
    (∀ k o, (o, k) ∈ c.outputs.zipIdx → oDest o = 1 →
      NMap.get [] t.lanes (laneKey (oTarget o + (u.val - c.firstUnit)) k u.val) =
        NMap.get [] s.lanes (laneKey (oTarget o + (u.val - c.firstUnit)) k u.val) ++
          (outRow c x lanes o).map fun y => ChoElem.mk y.kind y.bits y.e y.poison (!y.live)) ∧
    (oDest (c.output 94) ≠ 2 → oDest (c.output 92) ≠ 2 → ∀ a, plain a → (t.unit u.val).byte a = (s.unit u.val).byte a) ∧
    (oDest (c.output 94) ≠ 2 → oDest (c.output 92) = 2 → ∀ i y, (outRow c x lanes (c.output 92))[i]? = some y →
      y.live = true → y.kind = 0 → y.poison = false → ∀ z, z < 4 →
        let a := oTarget (c.output 92) * 4096 + (run.j * c.cols + i) * 4 + z
        a < stageSize → plain a → (t.unit u.val).byte a = BitVec.ofNat 8 (y.bits.toNat % 2 ^ 32 / 2 ^ (8 * z))) ∧
    (∀ x' : RowIn, x'.r = x.r → ∀ k, k < c.cols →
      (∀ i : Nat, (x.elems[i]?).map (fun l : List Opd => l[k]?) = (x'.elems[i]?).map fun l : List Opd => l[k]?) →
      (chainRow c prog x')[k]? = lanes[k]?)

/-- R153 to R157, R164, R168 to R171, R179: one row of a kernel, and one row of a run that a cue of the reduction unit has
claimed: the row count of the unit rises by one, the row number too, and what the operation gives for the row goes to the
outputs of the cue. Here its outputs to fly lanes, for a kernel and for RED_ROW. -/
def Sys2Proof.Claims.UnitRows : Prop := ∀ (s : State) (u : Fin 8) (f : Flight) (run : URun) (x : RowIn),
  s.flight f.q.uid = some f → s.runOf u.val f.q.uid = some run → s.rowsDone u.val f run = false →
  s.rowIn u.val f run = some (.inl x) →
  let c := f.q.cue
  let gives (k : Cue) (l : List (List OutElem)) (t : State) : Prop := ∀ i o row, (o, i) ∈ k.outputs.zipIdx → oDest o = 1 →
    l[i]? = some row → (∀ o' i', (o', i') ∈ k.outputs.zipIdx → i' ≠ i → oDest o' ≠ 1) →
    NMap.get [] t.lanes (laneKey (oTarget o + (u.val - k.firstUnit)) i u.val) =
      NMap.get [] s.lanes (laneKey (oTarget o + (u.val - k.firstUnit)) i u.val) ++
        row.map fun y => ChoElem.mk y.kind y.bits y.e y.poison (!y.live)
  (∃ t, s.krnRow u.val f.q.uid = some t ∧ t.reg (R.choRuRows u.val) = s.reg (R.choRuRows u.val) + 1 ∧
    t.flights = s.flights ∧ t.queues = s.queues ∧ (∀ r, (t.unit u.val).run = some r → r.j = run.j + 1) ∧
    gives c (s.krnOut u.val c x run.j).o t) ∧
  (∀ g, s.flight g.q.uid = some g → g.opcode = 0x30 → (∀ o ∈ c.outputs, oDest o ≠ 1) →
    ∃ t, s.claimRow u.val f.q.uid g.q.uid = some t ∧ t.reg (R.choRuRows u.val) = s.reg (R.choRuRows u.val) + 1 ∧
      t.flights = s.flights ∧ t.queues = s.queues ∧ (∀ r, (t.unit u.val).run = some r → r.j = run.j + 1) ∧
      let lanes := chainRow c (s.program u.val c.crProg) x
      let d (i : Nat) : List REl := (outRow c x lanes (c.output i)).map OutElem.toREl
      let o := redRowOp g.q.cue.rdOpsel g.q.cue.rdK (rmodeOf g.q.cue.rdRmode) c.crColBase (d 92)
        (if oDest (c.output 94) = 3 then d 94 else [])
      gives g.q.cue [o.o0, o.o1] t)

/-- What one row of a chorus unit or kernel produces. -/
def Obligations.RowResults : Prop :=
  Sys2Proof.Claims.ChorusRow ∧ Sys2Proof.Claims.UnitRows

/-- R126 to R129: TILE_CLAIM takes the run's next tile once it lies in a slot, and with the first tile of a fill the fill; a
fill that does not fit the run halts its line with CHO_TILE_MISMATCH. A tile already claimed, or none in a slot yet, changes
nothing. -/
def Sys2Proof.Claims.TileClaims : Prop := ∀ (s : State) (u : Fin 8) (f : Flight) (r : URun), s.unitHead u.val = some f →
  s.runOf u.val f.q.uid = some r → f.q.cue.usesTiles = true →
  (r.slot ≠ none → Ends (.tileClaim u) s fun t => t = s) ∧
  (∀ g mine seq x, r.slot = none → s.gangRun f.q.uid = some g → s.fillAt f g r.q = some (mine, seq, x) →
    let arr := if r.m = 0 ∧ r.arr = 0 then u.val - f.q.cue.firstUnit else r.arr
    let next := s.arr.tq.find? fun t => t.2.fill == seq && t.2.arr == arr && t.2.first == r.m
    (next = none → Ends (.tileClaim u) s fun t => t = s) ∧
    (∀ slot tile, next = some (slot, tile) →
      (mine = false → s.fillFits f.q.cue g x = false → Ends (.tileClaim u) s (s.haltsOn f (8 + u.val) .choTileMismatch)) ∧
      (mine = true ∨ s.fillFits f.q.cue g x = true → Ends (.tileClaim u) s fun t =>
        (t.unit u.val).run = some { r with slot := some slot, arr := arr } ∧
        (∀ y, (slot, y) ∈ t.arr.tq → y.begun = some f.q.uid) ∧
        (mine = false → (seq, { x with owner := some f.q.uid }) ∈ t.arr.fills) ∧
        t.flights = s.flights ∧ t.queues = s.queues ∧ KeptBut [.arr, .cho, .gangs] s t)))

/-- R110, R131, R142 to R144, R547: CHO_PROG_LOAD puts its words into the unit's slot, CHO_CONFIG sets the unit's ports and
empties those it changes, and each leaves the unit's queue; the lowest unit of the mask comes first. A word that may not be
loaded or cannot be corrected leaves the slot empty in every unit of the mask and halts the line. CHO_TQ_DROP takes the line's
tiles of its tag of which no row has been taken out of their slots. -/
def Sys2Proof.Claims.ChorusSetup : Prop := ∀ (s : State) (u : Fin 8) (f : Flight), s.unitHead u.val = some f →
  let c := f.q.cue
  let mem := s.readPlain (8 + u.val) c.cpAddr (8 * c.cpWords)
  let ws : List (BitVec 64) := (List.range c.cpWords).map fun i => BitVec.ofNat 64 (numOf ((mem.1.1.drop (8 * i)).take 8))
  let emptied (t : State) : Prop := ∀ v, v < 8 → c.cpMask.testBit v = true → t.program v c.cpSlot = []
  let loads := f.stage = .started ∨ (u.val = c.firstUnit ∧ leastCode (s.progChecks c) = none)
  let configs := f.stage = .started ∨ lowBit c.ccfMask = some u.val
  let drops (x : TqTile) : Prop := x.taken = 0 ∧ x.line = f.q.line ∧ x.tag = c.ctTag
  (f.opcode = 0x21 → f.stage = .queued → u.val ≠ c.firstUnit → Ends (.choProgLoad u) s fun t => t = s) ∧
  (f.opcode = 0x21 → loads → mem.1.2 = true → Ends (.choProgLoad u) s fun t =>
    emptied t ∧ s.haltsOn f (c.engine % 64) .uncorrectableCue t) ∧
  (f.opcode = 0x21 → loads → mem.1.2 = false →
    ((∀ i, i < c.cpWords → wordOk i (listGet 0 ws i) = true) → Ends (.choProgLoad u) s fun t =>
      t.program u.val c.cpSlot = ws ∧ f.q.uid ∉ t.queue (8 + u.val) ∧
      (∀ v : Fin 8, v ≠ u → t.unit v.val = s.unit v.val) ∧ t.lines = s.lines) ∧
    ((∃ i, i < c.cpWords ∧ wordOk i (listGet 0 ws i) = false) → Ends (.choProgLoad u) s fun t =>
      emptied t ∧ s.haltsOn f (c.engine % 64) .choProgram t)) ∧
  (f.opcode = 0x22 → f.stage = .queued → (∃ v, lowBit c.ccfMask = some v ∧ v ≠ u.val) → Ends (.choConfig u) s fun t => t = s) ∧
  (f.opcode = 0x22 → portsBad (configPorts c) = false → configs → c.ccfMask.testBit u.val = true → Ends (.choConfig u) s fun t =>
      (∀ i, i < 4 → (t.unit u.val).port i = (c.ccfBase i, c.ccfSize i)) ∧
      (∀ i, i < 4 → (t.unit u.val).elems i = if (s.unit u.val).port i = (c.ccfBase i, c.ccfSize i)
        then (s.unit u.val).elems i else []) ∧
      f.q.uid ∉ t.queue (8 + u.val) ∧ KeptBut [.flights, .queues, .cho] s t) ∧
  (f.opcode = 0x22 → portsBad (configPorts c) = true → configs → Ends (.choConfig u) s fun t =>
    s.haltsOn f (8 + u.val) .choField t ∧ t.cho = s.cho) ∧
  (f.opcode = 0x23 → Ends (.choTqDrop u) s fun t =>
    (∀ x ∈ t.arr.tq, x ∈ s.arr.tq ∧ ¬drops x.2) ∧
    (∀ x ∈ s.arr.tq, (∀ y ∈ s.arr.tq, y.1 = x.1 → ¬drops y.2) → x ∈ t.arr.tq) ∧
    t.doneWith f ∧ KeptBut [.flights, .queues, .arr, .cho] s t)

/-- Program load, configuration, tile drop and tile claims. -/
def Obligations.ChorusSetup : Prop :=
  Sys2Proof.Claims.TileClaims ∧ Sys2Proof.Claims.ChorusSetup

/-- R150 to R166: RED_ROW, RED_COL and SCAN run with the run they claim. A cue of theirs that stands at the head of the queue
itself claims no run and halts its line with RED_CLAIM_MISMATCH. Else the pair takes row after row; where the operands of all
the unit's rows are there it takes them all and gives up both cues, RED_COL in its first unit behind the gang's other units. -/
def Obligations.ReductionPairs : Prop := ∀ (s : State) (u : Fin 8) (f : Flight), s.unitHead u.val = some f →
  let ready (g : Flight) : Prop := s.gangRun f.q.uid ≠ none ∨ (u.val = f.q.cue.firstUnit ∧
    leastCode (s.runChecks f.q.line f.q.cue) = none ∧ leastCode (s.claimantChecks f.q.line g.q.cue f.q.cue) = none)
  ∀ p ∈ [(0x30, Instr.redRow u), (0x31, .redCol u), (0x32, .scan u)],
  (f.opcode = p.1 → Ends p.2 s (s.haltsOn f (8 + u.val) .redClaim)) ∧
  (f.opcode ≠ p.1 → feedsRed f.q.cue = false → Ends p.2 s fun t => t = s) ∧
  (∀ g s0, feedsRed f.q.cue = true → f.opcode ≠ p.1 → s.claimantNow u.val f = some g → g.opcode = p.1 →
    ready g → s.openGang u.val f [] = some s0 → Ends p.2 s fun t =>
      ∃ n s1, Rows (fun x => x.claimRow u.val f.q.uid g.q.uid) n (s0.startFlight g.q.uid) s1 ∧
        (n = f.q.cue.rows ∨ s1.claimRow u.val f.q.uid g.q.uid = none) ∧
        (p.1 ≠ 0x31 → ∀ y r, (s1.drawRows u.val f.q.uid).flight f.q.uid = some y →
          (s1.drawRows u.val f.q.uid).runOf u.val f.q.uid = some r →
          (s1.drawRows u.val f.q.uid).rowsDone u.val y r = true →
          t = (s1.drawRows u.val f.q.uid).closePair u.val f.q.uid g.q.uid ∧
          f.q.uid ∉ t.queue (8 + u.val) ∧ g.q.uid ∉ t.queue (8 + u.val) ∧ (t.unit u.val).run = none) ∧
        (p.1 = 0x31 → ∀ y r, (s1.drawRows u.val f.q.uid).flight f.q.uid = some y →
          (s1.drawRows u.val f.q.uid).runOf u.val f.q.uid = some r →
          (s1.drawRows u.val f.q.uid).rowsDone u.val y r = true → u.val ≠ g.q.cue.firstUnit →
          t = ((s1.drawRows u.val f.q.uid).mergeCols u.val f.q.uid).closePair u.val f.q.uid g.q.uid ∧
          f.q.uid ∉ t.queue (8 + u.val) ∧ g.q.uid ∉ t.queue (8 + u.val) ∧ (t.unit u.val).run = none) ∧
        (∀ y r, (s1.drawRows u.val f.q.uid).flight f.q.uid = some y → (s1.drawRows u.val f.q.uid).runOf u.val f.q.uid = some r →
          (s1.drawRows u.val f.q.uid).rowsDone u.val y r = false → t = s1.drawRows u.val f.q.uid)) ∧
  (∀ g n s0 s1 y r z, feedsRed f.q.cue = true → f.opcode ≠ p.1 → s.claimantNow u.val f = some g → g.opcode = p.1 → ready g →
    g.q.uid ≠ f.q.uid → s.openGang u.val f [] = some s0 → n ≤ f.q.cue.rows →
    Rows (fun x => x.claimRow u.val f.q.uid g.q.uid) n (s0.startFlight g.q.uid) s1 → s1.flight f.q.uid = some y →
    s1.flight g.q.uid = some z → s1.runOf u.val f.q.uid = some r → s1.rowsDone u.val y r = true →
    (p.1 = 0x31 → u.val = g.q.cue.firstUnit → y.units ≤ 1) → Ends p.2 s fun t =>
      f.q.uid ∉ t.queue (8 + u.val) ∧ g.q.uid ∉ t.queue (8 + u.val) ∧ (t.unit u.val).run = none ∧
      t.reg (R.choURuns u.val) = s1.reg (R.choURuns u.val) + 1 ∧
      (y.units ≤ 1 → ∀ x, t.flight f.q.uid = some x → x.stage = .finished) ∧
      (z.units ≤ 1 → ∀ x, t.flight g.q.uid = some x → x.stage = .finished))

/-- R168 to R171, R175: a kernel. The first unit checks it; a unit takes row after row while the operands are there; where those
of all its rows are it takes them all and gives up the cue, KRN_NORM_BWD in its first unit behind the gang's other units. -/
def Obligations.Kernels : Prop := ∀ (s : State) (u : Fin 8) (f : Flight), s.unitHead u.val = some f →
  let checks := s.krnChecks f.q.line f.q.cue
  let ready := s.gangRun f.q.uid ≠ none ∨ (u.val = f.q.cue.firstUnit ∧ leastCode checks = none)
  ∀ p ∈ [(0x38, Instr.krnNormFwd u), (0x39, .krnNormBwd u), (0x3A, .krnSoftmaxFwd u), (0x3B, .krnSoftmaxBwd u),
    (0x3C, .krnGscanFwd u), (0x3D, .krnGscanBwd u)],
  (f.opcode ≠ p.1 → Ends p.2 s fun t => t = s) ∧
  (∀ code, f.opcode = p.1 → s.gangRun f.q.uid = none → u.val = f.q.cue.firstUnit → leastCode checks = some code →
    Ends p.2 s (s.haltsOn f (8 + u.val) code)) ∧
  (∀ s0, f.opcode = p.1 → ready → s.openGang u.val f checks = some s0 → Ends p.2 s fun t =>
      ∃ n s1, Rows (fun x => x.krnRow u.val f.q.uid) n s0 s1 ∧ (n = f.q.cue.rows ∨ s1.krnRow u.val f.q.uid = none) ∧
        (p.1 ≠ 0x39 → ∀ y r, (s1.drawRows u.val f.q.uid).flight f.q.uid = some y →
          (s1.drawRows u.val f.q.uid).runOf u.val f.q.uid = some r → (s1.drawRows u.val f.q.uid).rowsDone u.val y r = true →
          t = (s1.drawRows u.val f.q.uid).closeRun u.val f.q.uid ∧ f.q.uid ∉ t.queue (8 + u.val) ∧
          (t.unit u.val).run = none) ∧
        (p.1 = 0x39 → ∀ y r, (s1.drawRows u.val f.q.uid).flight f.q.uid = some y →
          (s1.drawRows u.val f.q.uid).runOf u.val f.q.uid = some r →
          (s1.drawRows u.val f.q.uid).rowsDone u.val y r = true → u.val ≠ f.q.cue.firstUnit →
          t = ((s1.drawRows u.val f.q.uid).mergeCols u.val f.q.uid).closeRun u.val f.q.uid ∧
          f.q.uid ∉ t.queue (8 + u.val) ∧ (t.unit u.val).run = none) ∧
        (∀ y r, (s1.drawRows u.val f.q.uid).flight f.q.uid = some y → (s1.drawRows u.val f.q.uid).runOf u.val f.q.uid = some r →
          (s1.drawRows u.val f.q.uid).rowsDone u.val y r = false → t = s1.drawRows u.val f.q.uid)) ∧
  (∀ n s0 s1 y r, f.opcode = p.1 → ready → s.openGang u.val f checks = some s0 → n ≤ f.q.cue.rows →
    Rows (fun x => x.krnRow u.val f.q.uid) n s0 s1 → s1.flight f.q.uid = some y → s1.runOf u.val f.q.uid = some r →
    s1.rowsDone u.val y r = true → (p.1 = 0x39 → u.val = f.q.cue.firstUnit → y.units ≤ 1) → Ends p.2 s fun t =>
      f.q.uid ∉ t.queue (8 + u.val) ∧ (t.unit u.val).run = none ∧
      (y.units ≤ 1 → ∀ z, t.flight f.q.uid = some z → z.stage = .finished) ∧ t.mem = s.mem ∧ t.board = s.board)

/-- R187, R193, R195: TRANSFER_ARM takes the head cue of the engine's queue into an empty armed slot, with the walk its
descriptor gives and nothing read or moved yet. A descriptor that cannot be read, or a check that fails, halts the line, leaves
the slot empty and moves no data. `s` is the state behind the error that the handle's table entry has met. -/
def Sys2Proof.Claims.FlyArm : Prop := ∀ (s0 : State) (e : Fin 16) (f : Flight) (upset : Fin 3),
  let s := s0.tableUpset upset unitMemory e.val 0
  (s.flyEng e.val).armed = none → s.startable (16 + e.val) = some f →
  let arm := Instr.transferArm e upset
  let c := f.q.cue
  let r := s.readPlain (16 + e.val) c.fWalk 64
  let halts (code : Code) (u : State) : Prop := s.haltsOn f (16 + e.val) code u ∧ u.fly = s.fly
  (c.fWalk % 64 ≠ 0 ∨ s.localRangeOk c.fWalk 64 = false → Ends arm s0 fun u =>
    halts .localAddr u ∧ u.reg R.propLocalRefused = satAdd (s.reg R.propLocalRefused) 1) ∧
  (c.fWalk % 64 = 0 → s.localRangeOk c.fWalk 64 = true →
    (r.1.2 = true → Ends arm s0 (halts .uncorrectableCue)) ∧
    (∀ code, r.1.2 = false → parseWalk r.1.1 = .inl code → Ends arm s0 (halts code)) ∧
    (∀ w code, r.1.2 = false → parseWalk r.1.1 = .inr w → leastCode (r.2.armChecks c w) = some code →
      Ends arm s0 (halts code)) ∧
    (∀ w, r.1.2 = false → parseWalk r.1.1 = .inr w → leastCode (r.2.armChecks c w) = none → Ends arm s0 fun u =>
      (∃ x, (u.flyEng e.val).armed = some x ∧ x.uid = f.q.uid ∧ x.ext = w.ext ∧ x.sstr = w.sstr ∧ x.dstr = w.dstr ∧
        x.total = w.total ∧ x.n = 0 ∧ x.asked = 0 ∧ x.mirror = s.mirrorOf c) ∧
      (u.flyEng e.val).active = (s.flyEng e.val).active ∧ (u.flyEng e.val).drain = (s.flyEng e.val).drain ∧
      f.q.uid ∉ u.queue (16 + e.val) ∧ u.flights = s.flights ∧
      KeptBut [.queues, .mem, .prop, .trig, .fly, .propR, .fltR] s u))

/-- R194, R198 to R200, R41: an armed transfer becomes active when no transfer is, its line runs and no earlier transfer still
writes its stream destination; it has started, at its first element, with the scale in force when its cue issued, and a walk of
no elements leaves the slot free at once. CREDIT_RETURN adds what the destination can give, and no more than asked; a half of
the weight buffer is given whole. -/
def Sys2Proof.Claims.FlyActivate : Prop := ∀ (s : State) (e : Fin 16) (x : Xfer),
  (∀ f, (s.flyEng e.val).active = none → (s.flyEng e.val).armed = some x → s.flight x.uid = some f →
    (s.mayStart f = false ∨ s.destBusy f = true → Ends (.transferActivate e) s fun u => u = s) ∧
    (s.mayStart f = true → s.destBusy f = false → x.total ≠ 0 → Ends (.transferActivate e) s fun u =>
      (u.flyEng e.val).armed = none ∧ (∃ y, (u.flyEng e.val).active = some y ∧ y.uid = x.uid ∧ y.n = x.n ∧
        y.total = x.total ∧ y.ext = x.ext ∧ y.sstr = x.sstr ∧ y.dstr = x.dstr ∧
        y.st = if f.q.cue.fSrcKind = 1 then f.q.st else 0) ∧
      (∀ g, u.flight x.uid = some g → g.stage = .started)) ∧
    (s.mayStart f = true → s.destBusy f = false → x.total = 0 → Ends (.transferActivate e) s fun u =>
      u.flyEng e.val = { s.flyEng e.val with armed := none })) ∧
  ((s.flyEng e.val).active ≠ none ∨ (s.flyEng e.val).armed = none → Ends (.transferActivate e) s fun u => u = s) ∧
  (∀ f n, (s.flyEng e.val).active = some x → s.flight x.uid = some f →
    (f.q.cue.fDstKind = 4 ∨ f.q.cue.fDstKind = 6 → Ends (.creditReturn e n) s fun u =>
      (u.flyEng e.val).active = some { x with granted := x.granted + min n (s.creditsLeft f.q.cue x) } ∧
      (u.flyEng e.val).armed = (s.flyEng e.val).armed ∧ KeptBut [.fly] s u) ∧
    (f.q.cue.fDstKind = 5 →
      let k := halfIdx (s.weightQ f.q.cue) (NMap.get 0 s.arr.fillAt (s.weightQ f.q.cue))
      (x.granted = 0 → s.half k = .empty → s.cfgPending = false → Ends (.creditReturn e n) s fun u =>
        u.half k = .filling x.uid ∧
        (u.flyEng e.val).active = some { x with granted := (s.destRoom f.q.cue x).1 / 4096 } ∧ KeptBut [.arr, .fly] s u) ∧
      (x.granted ≠ 0 ∨ s.half k ≠ .empty ∨ s.cfgPending = true → Ends (.creditReturn e n) s fun u => u = s)) ∧
    (kStream f.q.cue.fDstKind = false → Ends (.creditReturn e n) s fun u => u = s)) ∧
  (∀ n, (s.flyEng e.val).active = none → Ends (.creditReturn e n) s fun u => u = s)

/-- A transfer is armed and activated; credits return. -/
def Obligations.FlyStart : Prop :=
  Sys2Proof.Claims.FlyArm ∧ Sys2Proof.Claims.FlyActivate

/-- R181, R191, R194, R197: FLY_MOVE takes the active transfer, with none before it that still writes, on by at most n groups,
in walk order; it leaves its engine only behind its last element. A CONST element for a region is the FILL pattern converted
once, at the place its walk gives, and no other byte of the buffer changes, the ports apart. -/
def Obligations.FlyMoves : Prop := ∀ (s : State) (e : Fin 16) (x : Xfer) (f : Flight) (n : Nat), s.enginesRun = true →
  s.softBusy = false → (s.flyEng e.val).active = some x → (s.flyEng e.val).drain = [] → s.flight x.uid = some f →
  (Ends (.flyMove e n) s fun u =>
    (∀ y, (u.flyEng e.val).find x.uid = some y → y.total = x.total ∧ ∃ k, k ≤ n ∧ y.n = x.n + k * x.group) ∧
    ((u.flyEng e.val).find x.uid = none → ∃ k, k ≤ n ∧ x.total ≤ x.n + k * x.group)) ∧
  (f.q.cue.fSrcKind = 0 → f.q.cue.fDstKind = 7 → f.q.cue.fGather = 0 → f.q.cue.fAcc = false → x.group = 1 → x.n < x.total →
    kindFmt 7 x.dfmt = true → s.earlierNear e.val x.uid = false → s.earlierFar e.val x.uid = false →
    Ends (.flyMove e 1) s fun u =>
      let c := f.q.cue
      let o := sideOffset c.fDstBase x.dstr (walkIdx x.ext x.n) none
      let at_ := elemByte (fmtD x.dfmt) o.toNat
      let code := (convertEl (fmtD x.dfmt) 0 (s.flyRnd f x.n o) (fmtD x.sfmt) x.st (fillEl (fmtD x.sfmt) c false)).1
      ∀ a, a < stageSize → (∀ p, p < 4 → let port := (s.unit (c.fDstId % 8)).port p
          a < port.1 * 4096 ∨ (port.1 + port.2) * 4096 ≤ a) →
        (u.unit (c.fDstId % 8)).byte a =
          if at_ ≤ a ∧ a < at_ + (fmtD x.dfmt).bits / 8 then BitVec.ofNat 8 (code / 2 ^ (8 * (a - at_)))
          else (s.unit (c.fDstId % 8)).byte a)

/-- R194, R196, R334: an acknowledged write lands once no earlier write of its engine to the same word is left and, on a fly
engine, none of an earlier transfer; every byte of memory reads as before but the bytes of the write. -/
def Sys2Proof.Claims.WritesLand : Prop := ∀ (s : State) (i : Nat) (w : PendWrite), s.safe = true → s.mem.wq[i]? = some w →
  (s.writeBehind i w = true → Ends (.writeLands i) s fun u => u = s) ∧
  (s.writeBehind i w = false → Ends (.writeLands i) s fun u =>
    (∀ a, u.mem.read a = if w.addr ≤ a ∧ a < w.addr + w.bytes.length then listGet 0 w.bytes (a - w.addr) else s.mem.read a) ∧
    u.mem.wq = listDrop1 s.mem.wq i ∧ KeptBut [.mem, .prop, .trig, .propR, .fltR] s u)

/-- R293, R319, R325, R334: a cue completes when its work is done, and with FENCE only when its writes have landed; it leaves
the cues in flight and makes its posts, in order. A cue silenced by a reset or a halt makes none, nor does one whose failure
halts its line. R373, R379: a call of an optimizer routine does its work as it completes (log entry 45): a failing check halts
its line and makes no posts, and while a page is not resident the call stays. -/
def Sys2Proof.Claims.CueCompletes : Prop := ∀ (s : State) (i : Nat) (f : Flight), s.flights[i]? = some f → s.enginesRun = true →
  let left (u : State) : Prop := u.flights = s.flights.filter (·.q.uid != f.q.uid)
  let opt := f.q.cue.opcode = 4 ∧ f.q.cue.isOpt = true
  let checks := s.optChecks f.q.cue.optCall
  let there := (s.pagesReady (s.optPages f.q.cue.optCall).eraseDups).1
  let works := ¬opt ∨ (leastCode checks = none ∧ there = true)
  (f.stage ≠ .finished ∨ (f.q.cue.fence = true ∧ s.unlanded f.q.uid = true) → Ends (.cueComplete i) s fun u => u = s) ∧
  (f.stage = .finished → f.q.cue.fence = false ∨ s.unlanded f.q.uid = false →
    (works → f.silent = false → f.after = none → (∀ w ∈ f.q.cue.posts, postRemote w = false) → Ends (.cueComplete i) s fun u =>
      left u ∧ u.board = (s.localPosts f.q.cue).board ∧ u.lines = s.lines ∧ u.fab = s.fab) ∧
    (works → f.silent = true → Ends (.cueComplete i) s fun u =>
      left u ∧ u.board = s.board ∧ u.lines = s.lines ∧ u.fab = s.fab) ∧
    (∀ code engine, works → f.silent = false → f.after = some (code, engine) → Ends (.cueComplete i) s fun u =>
      left u ∧ u.board = s.board ∧ u.fab = s.fab ∧ (u.line f.q.line).halted = true) ∧
    (∀ code, opt → leastCode checks = some code → Ends (.cueComplete i) s fun u =>
      left u ∧ u.board = s.board ∧ u.mem = s.mem ∧ (u.line f.q.line).halted = true ∧
      ((s.line f.q.line).halted = false → u.regF (R.lineHaltReason f.q.line.idx) 0 8 = code.num)) ∧
    (opt → leastCode checks = none → there = false → Ends (.cueComplete i) s fun u =>
      u.flights = s.flights ∧ u.board = s.board ∧ u.lines = s.lines ∧ u.fab = s.fab))

/-- Writes land in order; a finished cue completes. -/
def Obligations.Landing : Prop :=
  Sys2Proof.Claims.WritesLand ∧ Sys2Proof.Claims.CueCompletes

/-- R245, R264, R266: PROP_ALLOC halts its line with the least of the reasons that apply. Else it makes the handle with its
pages in the lowest run of FREE descriptors: BACKSTAGE pages of a backstage home, or pages in the frames it takes, which read
0 where ZERO asks for it; no other handle and no other descriptor changes. `s` is the state behind the error that the handle's
table entry has met. -/
def Obligations.PropAlloc : Prop := ∀ (s0 : State) (f : Flight) (upset : Fin 3),
  let s := s0.tableUpset upset unitMemory 0 0
  s.propHead 0x60 = some f →
  let a := f.q.cue.allocReq
  (∀ code, leastCode (s.allocChecks a) = some code → Ends (.propAlloc upset) s0 fun u =>
    s.haltsOn f 0x21 code u ∧ u.prop = s.prop ∧ u.mem = s.mem) ∧
  (∀ d0 frames, leastCode (s.allocChecks a) = none → s.freeRun a.pages = some d0 → s.allocFrames a = some frames →
    Ends (.propAlloc upset) s0 fun u =>
      (u.handle a.h).owned = true ∧ (u.handle a.h).fmt = a.fmt ∧ (u.handle a.h).elems = a.elems ∧
      (u.handle a.h).first = d0 ∧ (u.handle a.h).pages = a.pages ∧ (u.handle a.h).home = a.home ∧
      (u.handle a.h).locked = a.lock ∧ (∀ k, k ≠ a.h → u.handle k = s.handle k) ∧
      (∀ i, i < a.pages → u.page (d0 + i) = if a.home
        then { Page.free with state := .backstage, handle := a.h, page := i, fresh := a.zero,
                              bsPage := a.bsBase / 65536 + i }
        else { Page.free with state := if a.lock then .locked else .owned, handle := a.h, page := i,
                              frame := listGet 0 frames i }) ∧
      (∀ d, d < d0 ∨ d0 + a.pages ≤ d → u.page d = s.page d) ∧
      (a.home = false → a.zero = true → ∀ i b, i < a.pages → b < 65536 → u.mem.read (listGet 0 frames i * 65536 + b) = 0) ∧
      (a.zero = false → u.mem = s.mem) ∧ u.doneWith f)

/-- R247, R257, R265, R266: PROP_FREE, PROP_MIRROR and PROP_LOCK on a handle that is not there halt their line with
HANDLE_INVALID. PROP_FREE of a handle with a LOCKED page halts, waits while a transfer holds it or a page of it moves, and
then leaves no entry and FREE descriptors. PROP_MIRROR records the pair on both sides, or dissolves it. PROP_LOCK locks every
page once all are resident, and unlocks them. Here while no write of LINE_RING waits for a property cue. -/
def Obligations.PropCues : Prop := ∀ (s : State) (f : Flight), (∀ l, (s.line l).ringAt = []) →
  let c := f.q.cue
  let h := c.propHandle
  (s.propHead 0x61 = some f →
    (s.handleOk h = false → Ends .propFree s fun u => s.haltsOn f 0x21 .handleInvalid u ∧ u.prop = s.prop) ∧
    (s.handleOk h = true → (∃ d ∈ s.descs h, (s.page d).state = .locked) → Ends .propFree s fun u =>
      s.haltsOn f 0x21 .propHandleBusy u ∧ u.prop = s.prop) ∧
    (s.handleOk h = true → (∀ d ∈ s.descs h, (s.page d).state ≠ .locked) →
      (s.flyHolds h = true ∨ ∃ d ∈ s.descs h, (s.page d).moving = true) → Ends .propFree s fun u => u = s) ∧
    (s.handleOk h = true → (∀ d ∈ s.descs h, (s.page d).state ≠ .locked ∧ (s.page d).moving = false) → s.flyHolds h = false →
      s.prop.demand = [] → Ends .propFree s fun u => u.handle h = Handle.none ∧ (∀ d ∈ s.descs h, u.page d = Page.free) ∧ u.doneWith f)) ∧
  (s.propHead 0x64 = some f →
    (∀ code, leastCode (s.mirrorChecks c) = some code → Ends .propMirror s fun u =>
      s.haltsOn f 0x21 code u ∧ u.prop = s.prop) ∧
    (leastCode (s.mirrorChecks c) = none → c.pmUnpair = false → Ends .propMirror s fun u =>
      u.handle c.pmW = { s.handle c.pmW with mrole := 1, partner := c.pmWt, mrows := c.pmRows, mcols := c.pmCols } ∧
      u.handle c.pmWt = { s.handle c.pmWt with mrole := 2, partner := c.pmW, mrows := c.pmRows, mcols := c.pmCols } ∧
      (∀ k, k ≠ c.pmW → k ≠ c.pmWt → u.handle k = s.handle k) ∧ u.doneWith f ∧ KeptBut [.prop, .flights, .queues] s u) ∧
    (leastCode (s.mirrorChecks c) = none → c.pmUnpair = true → (s.handle c.pmW).mrole = 1 → Ends .propMirror s fun u =>
      (u.handle c.pmW).mrole = 0 ∧ (u.handle c.pmW).partner = 0 ∧ u.doneWith f ∧ KeptBut [.prop, .flights, .queues] s u)) ∧
  (s.propHeadOn 0x65 = some f → s.softBusy = false →
    (s.handleOk h = false → Ends .propLock s fun u => s.haltsOn f 0x21 .handleInvalid u ∧ u.prop = s.prop) ∧
    (s.handleOk h = true → c.propUnlock = false →
      (∀ d ∈ s.descs h, ((s.page d).state = .owned ∨ (s.page d).state = .locked) ∧ (s.page d).moving = false) →
      Ends .propLock s fun u => (∀ d ∈ s.descs h, (u.page d).state = .locked ∧ (u.page d).frame = (s.page d).frame) ∧
        u.handle h = { s.handle h with locked := true, fixed := true } ∧ u.doneWith f ∧
        KeptBut [.prop, .flights, .queues] s u) ∧
    (s.handleOk h = true → c.propUnlock = true → Ends .propLock s fun u =>
      (∀ d ∈ s.descs h, (u.page d).state = if (s.page d).state = .locked then .owned else (s.page d).state) ∧
      u.handle h = { s.handle h with locked := false, fixed := (s.handle h).placed } ∧ u.doneWith f ∧
      KeptBut [.prop, .flights, .queues] s u))

/-- R238, R254, R255, R266: PROP_PAGE_IN puts the BACKSTAGE pages of its range that do not move behind the hint queue, in
page order, and is done. PROP_PAGE_OUT gives up the frames of clean pages at once, keeps POISONED ones, and begins the
write-back of a dirty one. A range that R266 refuses halts the line. Here while no write of LINE_RING waits for a property
cue, and no soft reset runs. -/
def Sys2Proof.Claims.PageCues : Prop := ∀ (s : State) (f : Flight), (∀ l, (s.line l).ringAt = []) → s.softBusy = false →
  let c := f.q.cue
  (∀ code, leastCode (s.rangeChecks c) = some code → f.stage = .queued →
    (s.propHead 0x62 = some f → Ends .propPageIn s fun u => s.haltsOn f 0x21 code u ∧ u.prop = s.prop) ∧
    (s.propHeadOn 0x63 = some f → Ends .propPageOut s fun u =>
      s.haltsOn f 0x21 code u ∧ u.prop = s.prop)) ∧
  (s.propHead 0x62 = some f → leastCode (s.rangeChecks c) = none → s.prop.cursor = 0 → s.prop.hints.length + c.ppCount ≤ 4096 →
    Ends .propPageIn s fun u =>
      u.prop.hints = s.prop.hints ++ (s.rangeDescs c).filter (fun d => (s.page d).state == .backstage && !(s.page d).moving) ∧
      u.prop.pages = s.prop.pages ∧ u.prop.cursor = 0 ∧ u.doneWith f ∧ KeptBut [.prop, .flights, .queues] s u) ∧
  (s.propHeadOn 0x63 = some f → leastCode (s.rangeChecks c) = none → s.prop.demand = [] →
    (∀ d ∈ s.rangeDescs c, (s.page d).dirty = false) → Ends .propPageOut s fun u =>
      (∀ d ∈ s.rangeDescs c, u.page d = if (s.page d).state = .owned ∧ (s.page d).poisoned = false ∧ (s.page d).moving = false
        then { s.page d with state := .backstage, frame := 0, retPend := false } else s.page d) ∧
      ((∀ d ∈ s.rangeDescs c, (s.page d).state = .owned → (s.page d).poisoned = false → (s.page d).moving = false) →
        u.doneWith f)) ∧
  (∀ d, s.propHeadOn 0x63 = some f → leastCode (s.rangeChecks c) = none → s.prop.demand = [] → s.rangeDescs c = [d] →
    (s.page d).state = .owned → (s.page d).poisoned = false → (s.page d).moving = false → (s.page d).dirty = true →
    ((s.landFrame (s.page d).frame).pageWords (s.page d).frame).1.2 = false → Ends .propPageOut s fun u =>
      (u.page d).moving = true ∧ (u.page d).state = .owned ∧
      u.prop.outs = s.prop.outs ++ [⟨d, (s.page d).frame, 1024, false, true⟩])

/-- R221, R252, R255: a hinted page-in starts behind every demand page-in and while fewer than eight are in flight: it takes
the lowest free frame; a FRESH page is zeroed and OWNED at once, any other moves and its 1024 words are asked for. -/
def Sys2Proof.Claims.HintedPageIn : Prop := ∀ (s : State) (d : Nat) (rest : List Nat), s.enginesRun = true →
  s.softBusy = false →
  s.prop.hints = d :: rest →
  (s.prop.demand ≠ [] ∨ 8 ≤ s.prop.ins.length → Ends .hintedPageInStart s fun u => u = s) ∧
  (s.prop.demand = [] → s.prop.ins.length < 8 → (s.page d).state ≠ .backstage ∨ (s.page d).moving = true →
    Ends .hintedPageInStart s fun u => u = { s with prop := { s.prop with hints := rest } }) ∧
  (∀ fr, s.prop.demand = [] → s.prop.ins.length < 8 → (s.page d).state = .backstage → (s.page d).moving = false →
    s.lowestFree = some fr →
    ((s.page d).fresh = true → Ends .hintedPageInStart s fun u =>
      u.page d = { s.page d with state := .owned, frame := fr, fresh := false, touched := true, dirty := false,
                                 poisoned := false, retPend := false } ∧
      (∀ b, b < 65536 → u.mem.read (fr * 65536 + b) = 0) ∧ u.prop.hints = rest ∧
      u.reg R.propPageIns = satAdd (s.reg R.propPageIns) 1) ∧
    ((s.page d).fresh = false → Ends .hintedPageInStart s fun u =>
      u.page d = { s.page d with moving := true } ∧ u.prop.ins = s.prop.ins ++ [⟨d, fr, 1024, false⟩] ∧ u.prop.hints = rest ∧
      (u.bs.todo.length + u.bs.out.length = s.bs.todo.length + s.bs.out.length + 1024) ∧ u.mem = s.mem))

/-- R252, R463, R464: a backstage answer whose tag no request holds is discarded. A word of a page-in lands in the page's
frame; the last one makes the page OWNED, and an error leaves it poisoned with a record. A time-out counts as an error, and
none passes before 2^16 ticks or while the core is frozen (R519). -/
def Sys2Proof.Claims.BackstageAnswers : Prop := ∀ (s : State) (ch : Fin 4) (tag : BitVec 8) (err : Bool) (data : BitVec 512),
  ((∀ r ∈ s.bs.out, ¬(r.1 = ch.val ∧ r.2.1 = tag.toNat)) → Ends (.backstageResponse ch tag err data) s fun u => u = s) ∧
  (s.frozen = true ∨ s.age (.backstage ch.val tag.toNat) < 2 ^ 16 → Ends (.backstageTimeout ch tag) s fun u => u = s) ∧
  (∀ (r : BsReq) (d i : Nat) (x : PageIn),
    (s.bs.out.find? fun q => q.1 == ch.val && q.2.1 == tag.toNat) = some (ch.val, tag.toNat, r) → r.use = .pageIn d i →
    (s.prop.ins.find? fun y => y.desc == d) = some x → i < 1024 →
    (1 < x.left → ∀ c, (c = .backstageResponse ch tag err data ∨ (err = true ∧ data = 0 ∧ s.frozen = false ∧
        2 ^ 16 ≤ s.age (.backstage ch.val tag.toNat) ∧ c = .backstageTimeout ch tag)) → Ends c s fun u =>
      (∀ a, u.mem.read a = if x.frame * 65536 + 64 * i ≤ a ∧ a < x.frame * 65536 + 64 * i + 64
        then BitVec.ofNat 8 (fieldN data (8 * (a - (x.frame * 65536 + 64 * i))) 8) else s.mem.read a) ∧
      u.prop.pages = s.prop.pages ∧ (∀ y ∈ u.prop.ins, y.desc = d → y.left = x.left - 1 ∧ y.err = (x.err || err)) ∧
      (∀ q ∈ u.bs.out, q.1 = ch.val → q.2.1 = tag.toNat → ∃ r' ∈ s.bs.todo, q.2.2 = r')) ∧
    (x.left = 1 → x.err = false → s.prop.demand = [] → Ends (.backstageResponse ch tag false data) s fun u =>
      (u.page d).state = .owned ∧ (u.page d).frame = x.frame ∧ (u.page d).moving = false ∧ (u.page d).touched = true ∧
      (u.page d).dirty = false ∧ (u.page d).poisoned = false ∧ (∀ y ∈ u.prop.ins, y.desc ≠ d) ∧
      u.reg R.propPageIns = satAdd (s.reg R.propPageIns) 1) ∧
    (x.left = 1 → s.prop.demand = [] → Ends (.backstageResponse ch tag true data) s fun u =>
      (u.page d).state = .owned ∧ (u.page d).poisoned = true ∧ u.reg R.fltWr = s.reg R.fltWr + 1))

/-- Page-in, page-out and the backstage port's answers. -/
def Obligations.Paging : Prop :=
  Sys2Proof.Claims.PageCues ∧ Sys2Proof.Claims.HintedPageIn ∧ Sys2Proof.Claims.BackstageAnswers

/-- R232, R235 to R237: a scrub read takes the bank's next word of an installed frame that is not RETIRED and goes on behind
it; what has gone wrong in the word is found by the decoder: a corrected byte counts and queues the word, an uncorrectable
word counts and queues it for the marker; in Drowse no bank is scrubbed. Once CTL_TICK has left its period of 2^24 ticks, the
end of the period clears the watch list and starts every bank again. A write-back leaves every byte reading as before. -/
def Sys2Proof.Claims.Scrubbing : Prop := ∀ (s : State),
  (∀ bank upset, firstFrom (fun r => !s.frameRetired (s.wordAt bank r / 1024)) (s.bankRows - NMap.get 0 s.mem.scrub bank)
      (NMap.get 0 s.mem.scrub bank) = none → Ends (.scrubRead bank upset) s fun u => u = s.leaveIdle) ∧
  (∀ bank upset, s.pstate = 3 → Ends (.scrubRead bank upset) s fun u => u = s) ∧
  (∀ bank upset row, s.pstate ≠ 3 → firstFrom (fun r => !s.frameRetired (s.wordAt bank r / 1024))
      (s.bankRows - NMap.get 0 s.mem.scrub bank) (NMap.get 0 s.mem.scrub bank) = some row →
    let w := s.wordAt bank row
    let fl := upset.foldl (fun fl e => addFlaw fl e.1 e.2) (s.mem.flaw w)
    Ends (.scrubRead bank upset) s fun u => NMap.get 0 u.mem.scrub bank = row + 1 ∧ u.mem.flaw w = fl ∧
      u.mem.cells = s.mem.cells ∧ KeptBut [.mem, .prop, .trig, .powerR, .propR, .fltR] s u ∧
      (decodeFlaw fl = .clean → u.reg R.propCorr = s.reg R.propCorr ∧ u.reg R.propUncorr = s.reg R.propUncorr ∧
        u.mem.corr = s.mem.corr) ∧
      (∀ i b, decodeFlaw fl = .fixed i b → u.reg R.propCorr = satAdd (s.reg R.propCorr) 1 ∧
        ∃ p, (w, p) ∈ u.mem.corr) ∧
      (decodeFlaw fl = .uncorrectable → u.reg R.propUncorr = satAdd (s.reg R.propUncorr) 1 ∧ ∃ p, (w, p) ∈ u.mem.corr)) ∧
  (s.tick.toNat / 2 ^ 24 = s.mem.period → Ends .scrubPeriodEnd s fun u => u = s) ∧
  (s.tick.toNat / 2 ^ 24 ≠ s.mem.period → Ends .scrubPeriodEnd s fun u =>
    u.mem = { s.mem with watch := [], scrub := [], period := s.tick.toNat / 2 ^ 24 } ∧
    u.reg R.propScrub = s.reg R.propScrub + 1 ∧ Only [.mem] [R.propScrub] s u) ∧
  (∀ bank w poison, (s.mem.corr.find? fun c => s.bankOf c.1 == bank) = some (w, poison) → Ends (.correctedWriteback bank) s
    fun u => (∀ a, u.mem.read a = s.mem.read a) ∧ u.mem.flaw w = (if poison then poisonMark else []) ∧
      (∀ c ∈ u.mem.corr, c.1 ≠ w) ∧ KeptBut [.mem, .prop] s u)

/-- R261, R268: the end of a retirement move of a marked frame lands the writes that still wait for the old frame and copies the
page to its new frame, corrected, and the page says so; the old frame is RETIRED with the highest FREE descriptor. -/
def Sys2Proof.Claims.RetirementMove : Prop := ∀ (s : State) (m : Move), (s.prop.moves.find? fun x => x.src == m.src) = some m →
  m.src ≠ m.dst → s.prop.marked.contains m.src = true →
  let l := s.landFrame m.src
  ((∀ w ∈ s.mem.wq, w.addr / 65536 ≠ m.src) → ∀ a, l.mem.read a = s.mem.read a) ∧
  Ends (.retirementMoveComplete m.src) s fun u =>
    (∀ b, b < 65536 → u.mem.read (m.dst * 65536 + b) = l.mem.read (m.src * 65536 + b)) ∧
    (∀ a, a < m.dst * 65536 ∨ m.dst * 65536 + 65536 ≤ a → u.mem.read a = l.mem.read a) ∧
    (∀ w ∈ u.mem.wq, w.addr / 65536 ≠ m.src) ∧
    (∀ x ∈ u.prop.moves, x.src ≠ m.src) ∧
    (∀ d, (s.page m.desc).state ≠ .free → s.highestFreeDesc = some d → d ≠ m.desc →
      (u.page m.desc).frame = m.dst ∧ (u.page m.desc).moving = false ∧ (u.page m.desc).retPend = false ∧
      u.page d = { Page.free with state := .retired, frame := m.src } ∧ u.frameRetired m.src = true) ∧
    KeptBut [.mem, .prop, .trig, .propR, .fltR] s u

/-- Scrubbing, corrected write-back and frame retirement. -/
def Obligations.Scrubbing : Prop :=
  Sys2Proof.Claims.Scrubbing ∧ Sys2Proof.Claims.RetirementMove

/-- R339, with R330 and R331: a host write to CALL_HOST_POST applies its signed 20-bit DELTA to call counter INDEX; the count
stops at 0 and at 0xF_FFFF, where the counter's bit in CALL_UNDER or CALL_SAT is set, with one record when it was 0, and no
line halts. An INDEX of 64 or above changes nothing and sets CALL_STATUS.POST_DENIED. -/
def Obligations.HostPost : Prop := ∀ (s : State) (v : Word), s.serve R.callHostPost = .ok →
  let i := fieldN v 0 7
  let sum : Int := (s.cnt i).toNat + (field v 12 20 : BitVec 20).toInt
  let sat := if i < 32 then R.callSatLo else R.callSatHi
  let under := if i < 32 then R.callUnderLo else R.callUnderHi
  (64 ≤ i → Ends (.callHostPost v) s fun u => u.regB R.callStatus 0 = true ∧
    Only [] [R.sesIdleTicks, R.callStatus] s u) ∧
  (i < 64 → 0 ≤ sum → sum ≤ 0xFFFFF → Ends (.callHostPost v) s fun u =>
    (u.cnt i).toNat = sum ∧ (∀ k, k ≠ i → u.cnt k = s.cnt k) ∧ Only [.board] [R.sesIdleTicks] s u) ∧
  (i < 64 → 0xFFFFF < sum → Ends (.callHostPost v) s fun u =>
    u.cnt i = 0xFFFFF#20 ∧ (∀ k, k ≠ i → u.cnt k = s.cnt k) ∧ u.regB sat (i % 32) = true ∧ u.lines = s.lines ∧
    u.reg R.fltWr = (if s.regB sat (i % 32) then s.reg R.fltWr else s.reg R.fltWr + 1) ∧
    KeptBut [.board, .trig, .doorR, .callR, .fltR] s u) ∧
  (i < 64 → sum < 0 → Ends (.callHostPost v) s fun u =>
    u.cnt i = 0#20 ∧ (∀ k, k ≠ i → u.cnt k = s.cnt k) ∧ u.regB under (i % 32) = true ∧ u.lines = s.lines ∧
    u.reg R.fltWr = (if s.regB under (i % 32) then s.reg R.fltWr else s.reg R.fltWr + 1) ∧
    KeptBut [.board, .trig, .doorR, .callR, .fltR] s u)

/-- R342, R355: CALL_SET sets a counter inside a session and else sets SET_DENIED; CALL_CC_CTRL.CLEAR sets a curtain counter's
tree free with the SEQ written, while no cue is pending on it. -/
def Sys2Proof.Claims.CallboardControl : Prop := ∀ (s : State) (v : Word) (k : Fin 16),
  (s.serve R.callSet = .ok →
    (s.session = true → fieldN v 0 7 < 80 → Ends (.callSet v) s fun u =>
      u.cnt (fieldN v 0 7) = field v 8 20 ∧ (∀ j, j ≠ fieldN v 0 7 → u.cnt j = s.cnt j) ∧
      Only [.board] [R.sesIdleTicks] s u) ∧
    (s.session = false ∨ 80 ≤ fieldN v 0 7 → Ends (.callSet v) s fun u =>
      u.regB R.callStatus 1 = true ∧ Only [] [R.sesIdleTicks, R.callStatus] s u)) ∧
  (s.serve (R.callCcCtrl k.val) = .ok →
    (v.getLsbD 0 = true → (s.tree k.val).cue = none → Ends (.callCcClear k v) s fun u =>
      u.tree k.val = ⟨field v 8 8, false, none, false, false, [], [], none⟩ ∧
      (∀ j, j ≠ k.val → u.tree j = s.tree j) ∧ u.board.counts = s.board.counts ∧ Only [.board] [R.sesIdleTicks] s u) ∧
    (v.getLsbD 0 = false ∨ (s.tree k.val).cue ≠ none → Ends (.callCcClear k v) s fun u => Only [] [R.sesIdleTicks] s u))

/-- R353, R354: once the count of an outstanding line has reached CALL_CUE_WDOG its watchdog fires: the line halts with WATCHDOG, its record names the oldest cue
in flight with its engine, or else the head cue with engine 0, and a capture is triggered. It is off for CALL_CUE_WDOG = 0,
and does not fire for a line with nothing outstanding. -/
def Sys2Proof.Claims.CurtainWatchdog : Prop := ∀ (s : State) (l : Line),
  (s.reg R.callCueWdog = 0 ∨ s.reg (R.callWdogAge l.idx) < s.reg R.callCueWdog ∨ s.frozen = true ∨ s.outstanding l = false →
    Ends (.curtainWatchdog l) s fun u => u = s) ∧
  (s.reg R.callCueWdog ≠ 0 → s.reg R.callCueWdog ≤ s.reg (R.callWdogAge l.idx) → s.enginesRun = true →
    s.outstanding l = true → (s.line l).halted = false → Ends (.curtainWatchdog l) s fun u =>
      (u.line l).halted = true ∧ u.reg (R.callWdogAge l.idx) = 0 ∧ u.regF (R.lineHaltReason l.idx) 0 8 = 0x40 ∧
      u.regF (R.lineHaltReason l.idx) 8 6 = (match s.flights.find? (·.q.line == l) with
        | some f => f.q.cue.engine % 64
        | none => 0) ∧
      u.flights = s.flights ∧ u.reg R.fltWr = s.reg R.fltWr + 1 ∧
      ⟨5, (s.reg R.fltWr).setWidth 16, (s.reg R.fabCoreId).setWidth 12, false⟩ ∈ u.trig)

/-- CALL_SET and the clearing of a curtain call. -/
def Obligations.CallboardControl : Prop :=
  Sys2Proof.Claims.CallboardControl ∧ Sys2Proof.Claims.CurtainWatchdog

/-- R345, R346: an arrival with the call's SEQ records its child, up to KIDS of them; the last one of a pending call that has
arrived here sends the arrival to the parent, and at the root releases the call. One with SEQ + 1 is early. Any other, and one
for a counter that is not enabled, changes no tree and counts as stray. -/
def Sys2Proof.Claims.CurtainArrival : Prop := ∀ (s : State) (k : Fin 16) (seq : BitVec 8) (child : BitVec 12), s.localServes = true →
  let t := s.tree k.val
  let whole := t.pending = true ∧ t.loc = true ∧ t.sent = false ∧ t.kids.length + 1 = s.ccKids k.val
  let c := Instr.curtainArrival k seq child
  (s.ccEn k.val = false ∨ (seq ≠ t.seq ∧ seq ≠ t.seq + 1) ∨ (seq = t.seq ∧ s.ccKids k.val ≤ t.kids.length) ∨
      (seq = t.seq + 1 ∧ s.ccKids k.val ≤ t.early.length) → Ends c s fun u =>
    u.board = s.board ∧ u.reg R.callCcStray = satAdd (s.reg R.callCcStray) 1 ∧ u.flights = s.flights) ∧
  (s.ccEn k.val = true → seq = t.seq → t.kids.length < s.ccKids k.val → ¬whole → Ends c s fun u =>
    u.tree k.val = { t with kids := t.kids ++ [child] } ∧ (∀ j, j ≠ k.val → u.tree j = s.tree j) ∧
    u.board.counts = s.board.counts ∧ u.flights = s.flights) ∧
  (s.ccEn k.val = true → seq = t.seq → whole → s.ccRoot k.val = false → Ends c s fun u =>
    u.tree k.val = { t with kids := t.kids ++ [child], sent := true } ∧ u.board.counts = s.board.counts ∧
    (∃ v : State, u = v.sendPacket (s.ccParent k.val) 4 0 (curtainBytes k.val false t.seq none))) ∧
  (s.ccEn k.val = true → seq = t.seq → whole → s.ccRoot k.val = true → Ends c s fun u =>
    u.tree k.val = ⟨t.seq + 1, false, none, false, false, t.early, [], none⟩) ∧
  (s.ccEn k.val = true → seq = t.seq + 1 → t.early.length < s.ccKids k.val → Ends c s fun u =>
    u.tree k.val = { t with early := t.early ++ [child] } ∧ u.board.counts = s.board.counts ∧ u.flights = s.flights)

/-- R331, R347, R348: a release with the node's SEQ while its arrival is sent adds 1 to the curtain counter, sets the counters
that the realignment lists, counts the early arrivals toward the next call and completes the node's CURTAIN_CALL. Any other
release changes no tree and counts as stray. -/
def Sys2Proof.Claims.CurtainRelease : Prop := ∀ (s : State) (k : Fin 16) (seq : BitVec 8) (mc : BitVec 64) (mk : BitVec 16)
    (vals : List (BitVec 32)), s.localServes = true →
  let t := s.tree k.val
  let a : Align := ⟨mc, mk, vals⟩
  (s.ccEn k.val = true → seq = t.seq → t.sent = true → Ends (.curtainRelease k seq mc mk vals) s fun u =>
    u.tree k.val = ⟨t.seq + 1, false, none, false, false, t.early, [], none⟩ ∧ (∀ j, j ≠ k.val → u.tree j = s.tree j) ∧
    (t.cue = none → ∀ p ∈ a.listed.zip vals, u.cnt p.1 = p.2.setWidth 20) ∧
    (t.cue = none → 64 + k.val ∉ a.listed → (s.cnt (64 + k.val)).toNat < 0xFFFFF →
      (u.cnt (64 + k.val)).toNat = (s.cnt (64 + k.val)).toNat + 1) ∧
    (t.cue = none → 64 + k.val ∉ a.listed → s.cnt (64 + k.val) = 0xFFFFF#20 →
      u.cnt (64 + k.val) = 0xFFFFF#20 ∧ u.regB R.callCcSat k.val = true) ∧
    (∀ uid, t.cue = some uid → ∀ f ∈ u.flights, f.q.uid ≠ uid)) ∧
  (s.ccEn k.val = false ∨ seq ≠ t.seq ∨ t.sent = false → Ends (.curtainRelease k seq mc mk vals) s fun u =>
    u.board = s.board ∧ u.reg R.callCcStray = satAdd (s.reg R.callCcStray) 1 ∧ u.flights = s.flights)

/-- Curtain arrivals and releases. -/
def Obligations.CurtainTree : Prop :=
  Sys2Proof.Claims.CurtainArrival ∧ Sys2Proof.Claims.CurtainRelease

/-- R333, R336 to R338, R525: a post of another core is applied to its counter and acknowledged; a core-fatal target, and an
index that names no call counter, refuse it and apply nothing. `upset` is what the counter's code finds: an error that cannot be
corrected makes the core fatal and refuses the post. While the local port does not serve, and while a write or an exchange
operation of that core that came before it on class 0 has still to land, nothing happens. -/
def Sys2Proof.Claims.RemotePost : Prop := ∀ (s : State) (src : BitVec 12) (tag : BitVec 16) (counter : BitVec 7) (delta : BitVec 12)
    (upset : Fin 3),
  let c := Instr.post src tag counter delta upset
  let held := s.postHeld src (isPacket 3 src (bytesOf 2 tag.toNat ++ [BitVec.ofNat 8 counter.toNat, 0#8] ++ bytesOf 2 delta.toNat))
  (s.localServes = false ∨ held = true → Ends c s fun u => u = s) ∧
  (s.localServes = true → held = false →
    (s.fatal = false → upset ≠ 2 → counter.toNat < 64 → 0 ≤ ((s.cnt counter.toNat).toNat : Int) + delta.toInt →
      ((s.cnt counter.toNat).toNat : Int) + delta.toInt ≤ 0xFFFFF → Ends c s fun u =>
        ((u.cnt counter.toNat).toNat : Int) = (s.cnt counter.toNat).toNat + delta.toInt ∧
        (∀ k, k ≠ counter.toNat → u.cnt k = s.cnt k) ∧ u.lines = s.lines ∧ (∃ t : State, u = t.sendDone src 0 tag 0) ∧
        KeptBut [.board, .fab, .outs, .trig, .powerR, .fabR, .fltR] s u) ∧
    (s.fatal = true ∨ (64 ≤ counter.toNat ∧ upset ≠ 2) → Ends c s fun u =>
      u.board = s.board ∧ u.lines = s.lines ∧ (∃ t : State, u = t.sendDone src 0 tag 1) ∧
      KeptBut [.fab, .outs, .trig, .powerR, .fabR, .fltR] s u) ∧
    (s.fatal = false → upset = 2 → Ends c s fun u =>
      u.fatal = true ∧ u.board = s.board ∧ ∃ t : State, u = t.sendDone src 0 tag 1))

/-- R248, R249, R334, R423, R525: a WRITE of frames that the fabric may write lands, byte for byte, and is answered DONE 0; any
other, and every one while FATAL is set, is refused and counted, answered DONE 1, and changes no byte. A READ answers with the
bytes of its range, marked when poisoned; one refused answers marked zeros. While the local port does not serve, nothing
happens. -/
def Sys2Proof.Claims.RemoteAccess : Prop := ∀ (s : State) (src : BitVec 12) (addr : BitVec 32) (tag count : BitVec 16)
    (data : List Byte),
  let a := addr.toNat
  let w := Instr.write src addr tag data
  let r := Instr.read src addr tag count
  let got := (s.readPlain unitFabric a count.toNat).1
  (s.localServes = false → (Ends w s fun u => u = s) ∧ Ends r s fun u => u = s) ∧
  (s.localServes = true →
    (s.safe = true → s.fatal = false → s.remoteRangeOk a data.length = true → Ends w s fun u =>
      (∀ x, u.mem.read x = if a ≤ x ∧ x < a + data.length then listGet 0 data (x - a) else s.mem.read x) ∧
      u.board = s.board ∧ u.lines = s.lines ∧ ∃ t : State, u = t.sendDone src (classOf a) tag 0) ∧
    (s.fatal = true ∨ s.remoteRangeOk a data.length = false → Ends w s fun u =>
      u.mem = s.mem ∧ u.reg R.propRemoteRefused = satAdd (s.reg R.propRemoteRefused) 1 ∧
      u.lines = s.lines ∧ ∃ t : State, u = t.sendDone src (classOf a) tag 1) ∧
    (s.fatal = false → s.localRangeOk a count.toNat = true → Ends r s fun u =>
      u.board = s.board ∧ u.lines = s.lines ∧ ∃ t : State, u = t.sendReadData src (classOf a) tag got.2 got.1) ∧
    (s.fatal = true ∨ s.localRangeOk a count.toNat = false → Ends r s fun u =>
      u.mem = s.mem ∧ u.reg R.propRemoteRefused = satAdd (s.reg R.propRemoteRefused) 1 ∧
      ∃ t : State, u = t.sendReadData src (classOf a) tag true (List.replicate count.toNat 0)))

/-- R250, R423, R426, R427: an answer ends the operation with its tag and core. READ_DATA hands its bytes to the transfer that
asked. A refusal, an UNREACHABLE, and a time-out of FAB_OP_TICKS, which counts, leave a transfer to end in a halt of its line,
and a refusal and an UNREACHABLE halt the line of a POST at once. An answer that finds no operation counts as stray, and a
time-out without one, too early, or while the engines stand, changes nothing. -/
def Sys2Proof.Claims.RemoteAnswers : Prop := ∀ (s : State) (src : BitVec 12) (tag : BitVec 16) (status : BitVec 8) (data : List Byte)
    (r : RemoteOp) (f : Flight),
  let named (q : RemoteOp) : Prop := q.tag = tag.toNat ∧ q.dst = src
  let gone (u : State) : Prop := ∀ q ∈ u.fab.rops, q.tag ≠ tag.toNat
  let stray (u : State) : Prop := u.reg R.fabStray = satAdd (s.reg R.fabStray) 1 ∧ u.fab.rops = s.fab.rops ∧
    u.flights = s.flights ∧ u.fly = s.fly ∧ u.lines = s.lines
  let fails (code : Code) (u : State) : Prop :=
    (s.flight r.uid = some f → f.after = none → (u.flight r.uid).map (·.after) =
      some (some (BitVec.ofNat 8 code.num, BitVec.ofNat 8 f.q.cue.engine)))
  let halts (code : Code) (u : State) : Prop := (u.line r.line).halted = true ∧
    ((s.line r.line).halted = false → u.regF (R.lineHaltReason r.line.idx) 0 8 = code.num)
  (s.localServes = true →
    ((∀ q ∈ s.fab.rops, ¬named q) → (Ends (.readData src tag status data) s stray) ∧ Ends (.done src tag status) s stray) ∧
    (∀ pos part n e x, s.fab.rops.find? (fun q => q.tag == tag.toNat && q.dst == src) = some r → r.kind = .read pos part n →
      s.moverOf r.uid = some (e, x) → (s.flyEng e).find r.uid = some x → 0 < x.group → Ends (.readData src tag status data) s fun u => gone u ∧
        ∀ k, k < n / (if part = 1 then 1 else groupBytes (fmtD x.sfmt)) →
          let eb := if part = 1 then 1 else groupBytes (fmtD x.sfmt)
          (u.moverOf r.uid).map (fun y => NMap.get (0, false) y.2.inbox (2 * (pos + k * x.group) + part)) =
            some (numOf ((List.range eb).map fun i => listGet 0 data (k * eb + i)), status != 0)) ∧
    (s.fab.rops.find? (fun q => q.tag == tag.toNat && q.dst == src && q.waits.isNone) = some r →
      (r.kind = .write → status = 0 → Ends (.done src tag status) s fun u => gone u ∧ u.lines = s.lines) ∧
      (r.kind = .post → status = 0 → Ends (.done src tag status) s fun u => gone u ∧ u.lines = s.lines) ∧
      (r.kind = .write → status ≠ 0 → Ends (.done src tag status) s fun u =>
        gone u ∧ u.lines = s.lines ∧ fails .remoteRefused u) ∧
      (r.kind = .post → status ≠ 0 → (s.line r.line).enabled = true → Ends (.done src tag status) s fun u =>
        gone u ∧ halts .remoteRefused u)) ∧
    (∀ (opc : BitVec 4) (key : BitVec 32),
      s.fab.rops.find? (fun q => q.kind.isOpc opc.toNat && q.waits.isNone && decide (q.tag = key.toNat)) = some r →
      (r.kind = .write → Ends (.unreachable opc src key) s fun u => u.lines = s.lines ∧ fails .remoteUnreachable u) ∧
      (r.kind = .post → (s.line r.line).enabled = true → Ends (.unreachable opc src key) s fun u =>
        halts .remoteUnreachable u)) ∧
    (∀ key : BitVec 32, Ends (.unreachable 2 src key) s fun u => u.exch = s.exch ∧ u.fab.rops = s.fab.rops ∧
      u.flights = s.flights)) ∧
  (s.enginesRun = false ∨ s.age (.remote tag.toNat) < (s.reg R.fabOpTicks).toNat ∨
      (∀ q ∈ s.fab.rops, q.tag ≠ tag.toNat ∨ q.kind = .post) → Ends (.remoteOpTimeout tag) s fun u => u = s) ∧
  (s.enginesRun = true → (s.reg R.fabOpTicks).toNat ≤ s.age (.remote tag.toNat) → s.fab.rops.find? (fun q => q.kind != .post && q.tag == tag.toNat) = some r →
    Ends (.remoteOpTimeout tag) s fun u =>
      gone u ∧ u.reg R.fabTimeouts = satAdd (s.reg R.fabTimeouts) 1 ∧ fails .remoteTimeout u ∧ u.lines = s.lines)

/-- Remote posts, writes, reads and their answers. -/
def Obligations.RemoteOperations : Prop :=
  Sys2Proof.Claims.RemotePost ∧ Sys2Proof.Claims.RemoteAccess ∧ Sys2Proof.Claims.RemoteAnswers

/-- R382, R385, R410: EXCH_BUCKET_SET of a bucket id above 4095 halts with EXCH_BUCKET_INVALID and of a RECORD that R248 does
not admit with LOCAL_ADDR_INVALID. An OWNED record with a bound tracker, ELEMS 0 or EXPECT 0 halts with EXCH_FIELD_INVALID, and
else a bucket in use or with operations out with EXCH_BUCKET_BUSY. Any other record becomes bytes 0 to 39 of the entry, with
SHIFT = INIT_S, GEN = GEN0 and every later byte 0; no other entry changes, and a halt changes none. -/
def Obligations.BucketSet : Prop := ∀ (s : State) (f : Flight), s.exch.run = none → s.exchHead 0x50 = some f →
  let b := f.q.cue.xBucket
  let r := (s.readPlain 0x20 f.q.cue.xRecord 64).1
  let e : BitVec 1024 := BitVec.ofNat 1024 (numOf (r.1.take 40))
  let old := s.bucket b
  let fits := b < 4096 ∧ f.q.cue.xRecord % 64 = 0 ∧ s.localRangeOk f.q.cue.xRecord 64 = true ∧ r.2 = false
  let wrong := (entOwned e = true ∧ (s.tracker (entF e Ex.trk)).bound ≠ none) ∨ entF e Ex.elems = 0 ∨ entF e Ex.expect = 0
  let busy := (entValid old = true ∧ entF old Ex.state ≠ 0 ∧ entF old Ex.state ≠ 4) ∨ entF old Ex.arrived ≠ 0 ∨
    (∃ o ∈ s.exch.ops, o.bucket = b) ∨ ∃ o ∈ s.exch.syncs, o.bucket = b
  (4096 ≤ b → Ends .exchBucketSet s fun u => s.haltsOn f 0x20 .exchBucket u ∧ u.exch = s.exch) ∧
  (b < 4096 → f.q.cue.xRecord % 64 ≠ 0 ∨ s.localRangeOk f.q.cue.xRecord 64 = false → Ends .exchBucketSet s fun u =>
    s.haltsOn f 0x20 .localAddr u ∧ u.exch = s.exch) ∧
  (fits → wrong → Ends .exchBucketSet s fun u => s.haltsOn f 0x20 .exchField u ∧ u.exch = s.exch) ∧
  (fits → ¬wrong → busy → Ends .exchBucketSet s fun u => s.haltsOn f 0x20 .exchBusy u ∧ u.exch = s.exch) ∧
  (fits → ¬wrong → ¬busy → Ends .exchBucketSet s fun u =>
    (∀ i, i < 320 → (u.bucket b).getLsbD i = e.getLsbD i) ∧ u.bf b Ex.shift = entF e Ex.initS ∧
    u.bf b Ex.gen = entF e Ex.gen0 ∧ (∀ i, (328 ≤ i ∧ i < 336) ∨ 352 ≤ i → (u.bucket b).getLsbD i = false) ∧
    (∀ k, k ≠ b → u.bucket k = s.bucket k) ∧ u.doneWith f ∧
    KeptBut [.exch, .flights, .queues, .mem, .prop, .propR, .trig, .fltR] s u)

/-- R389, R390, R397, R411: an EXCH_SEND that may start halts its line with the lowest reason that applies and sends nothing,
or waits, with nothing changed, for the notice of its generation. A send of no elements without CLOSE is done at once; with
CLOSE it sends the CLOSE with the sums of the entry, once no operation of the bucket is open, and clears them. -/
def Sys2Proof.Claims.SendStarts : Prop := ∀ (s : State) (f : Flight), s.exch.run = none → s.exchHead 0x51 = some f →
  let c := f.q.cue
  let b := c.xBucket
  let e := s.bucket b
  let ahead := genAhead c.xGen (BitVec.ofNat 16 (entF e Ex.gen))
  let wrong : Option Code :=
    if s.bucketOk b = false then some .exchBucket
    else if s.handleOk c.xSrc = false then some .handleInvalid
    else if exFmtOk (s.handle c.xSrc).fmt = false then some .formatUnsupported
    else if (s.handle c.xSrc).elems < c.xSrcBase + c.xCount then some .flyRange
    else if c.xDstOff % 64 ≠ 0 ∨ entF e Ex.elems < c.xDstOff + c.xCount ∨ (c.xRfirst = true ∧ entRetain e = false)
      then some .exchField
    else if 0x7FFF < ahead then some .exchGenStale
    else if entRetain e = true ∧ s.localRangeOk (entF e Ex.retainBase) (retainBytes e) = false then some .localAddr
    else none
  let fits := wrong = none
  (∀ code, wrong = some code → Ends .exchSend s fun u => s.haltsOn f 0x20 code u ∧ u.exch = s.exch ∧ u.outs = s.outs) ∧
  (fits → ahead ≠ 0 → Ends .exchSend s fun u => u = s) ∧
  (fits → ahead = 0 → c.xCount = 0 → c.xClose = false → (∀ o ∈ s.exch.ops, o.uid ≠ some f.q.uid) →
    Ends .exchSend s fun u => u.doneWith f) ∧
  (fits → ahead = 0 → c.xCount = 0 → c.xClose = true → c.xRfirst = false → s.exch.serves = [] → s.bucketClear b = true →
    s.exch.ops.length < 16384 → Ends .exchSend s fun u =>
      let dst : BitVec 12 := BitVec.ofNat 12 (entF e Ex.owner)
      let o : ExOp := ⟨dst, b % 4, NMap.get 0 s.exch.nextSeq (exKey dst (b % 4)), b, c.xGen, .close 1 (BitVec.ofNat 32 (entF e Ex.sendMax)) (BitVec.ofNat 64 (entF e Ex.sendSum))
          (BitVec.ofNat 64 (entF e Ex.sendFail)), some f.q.uid, 0⟩
      u.exch.ops = s.exch.ops ++ [o] ∧ NMap.get 0 u.exch.nextSeq (exKey o.dst o.ch) = o.seq + 1 ∧
      u.bf b Ex.sendMax = 0 ∧ u.bf b Ex.sendSum = 0 ∧ u.bf b Ex.sendFail = 0 ∧
      u.bf b Ex.closes = (entF e Ex.closes + 1) % 2 ^ 20 ∧ (∀ k, k ≠ b → u.bucket k = s.bucket k) ∧
      (u.flight f.q.uid).map (·.stage) = some .started ∧ u.board = s.board ∧ u.mem = s.mem)

/-- R41, R390, R392, R393, R395: a send of the entry's generation, whose source pages are resident while no word of memory
needs a correction or is beyond one, sends its groups one by one in
order, as many as the limit of 16384 outstanding operations admits: group g on channel g mod 4 with the next SEQ of its
stream. -/
def Sys2Proof.Claims.SendGroups : Prop := ∀ (s : State) (f : Flight), s.exch.run = none → s.exchHead 0x51 = some f →
  let c := f.q.cue
  let b := c.xBucket
  let dst : BitVec 12 := BitVec.ofNat 12 (s.bf b Ex.owner)
  let groups := (c.xCount + 63) / 64
  let g0 := c.xDstOff / 64
  let sent := (List.range (min groups (16384 - s.exch.ops.length))).map fun k =>
    ExOp.mk dst ((g0 + k) % 4) (NMap.get 0 s.exch.nextSeq (exKey dst ((g0 + k) % 4)) + BitVec.ofNat 32 (k / 4)) b c.xGen
      (.acc (g0 + k) (s.sendOf f.q)) (some f.q.uid) 0
  leastCode (s.sendChecks c) = none → c.xGen.toNat = s.bf b Ex.gen → 0 < c.xCount →
  (∀ d ∈ s.spanPages c.xSrc c.xSrcBase c.xCount,
    ((s.page d).state = .owned ∨ (s.page d).state = .locked) ∧ (s.page d).moving = false) →
  (∀ w, (s.mem.readPure w).2.2 = .clean ∨ (s.mem.readPure w).2.2 = .poison) →
  Ends .exchSend s fun u => s.exch.ops ++ sent <+: u.exch.ops ∧ u.board = s.board ∧ u.lines = s.lines

/-- EXCH_SEND: checks, start and groups. -/
def Obligations.ExchangeSends : Prop :=
  Sys2Proof.Claims.SendStarts ∧ Sys2Proof.Claims.SendGroups

/-- R404, R405, R406: EXCH_SETTLE of a bucket that is not owned, or is FAILED, halts. A COMPLETE bucket that is not sampled, or
whose accumulator adds up to OWN_SUM while the cue heads its chorus unit's queue, is SETTLED, and GSCALE goes to the parameter
block, where that is not LOCKED. A mismatch counts and leaves the bucket HELD; a HELD bucket is repaired: ATTEMPT rises, the state is REPAIRING, the
owner's sums are cleared and a RESEND goes to each core of the notify set. At REPAIR_LIMIT it FAILS. Other buckets wait. -/
def Obligations.ExchSettle : Prop := ∀ (s : State) (f : Flight), s.exch.run = none → s.exchHead 0x52 = some f →
  let c := f.q.cue
  let b := c.xBucket
  let e := s.bucket b
  let st := entF e Ex.state
  let fits := s.bucketOk b = true ∧ entOwned e = true ∧ c.xCheckUnit < s.build.units ∧
    (c.xPblk = 0 ∨ s.localRangeOk c.xPblk 64 = true)
  let checked := s.mustCheck c = true ∧ (s.queue (8 + c.xCheckUnit)).head? = some f.q.uid ∧ s.accOk e = true
  let sum := (s.accSum e).1
  let good := sum.2 = false ∧ sum.1.toNat = entF e Ex.ownSum
  let gscale := ((ofB32 c.xGsBase).scale2 (-(entI8 e Ex.shift))).toB32
  (s.bucketOk b = false ∨ entOwned e = false → Ends .exchSettle s fun u =>
    s.haltsOn f 0x20 .exchBucket u ∧ u.exch = s.exch) ∧
  (fits → st = 5 → Ends .exchSettle s fun u => s.haltsOn f 0x20 .exchRepairFailed u ∧ u.exch.buckets = s.exch.buckets) ∧
  (fits → st = 0 ∨ st = 3 ∨ st = 4 ∨ (st = 1 ∧ s.mustCheck c = true ∧ (s.queue (8 + c.xCheckUnit)).head? ≠ some f.q.uid) →
    Ends .exchSettle s fun u =>
    u.exch.buckets = s.exch.buckets ∧ u.exch.run = some ⟨f.q.uid, 0, false, false⟩ ∧ KeptBut [.flights, .exch] s u) ∧
  (fits → st = 1 → s.mustCheck c = false ∨ (checked ∧ good) → Ends .exchSettle s fun u =>
    u.bf b Ex.state = 4 ∧ (∀ k, k ≠ b → u.bucket k = s.bucket k) ∧ u.doneWith f ∧ u.lines = s.lines ∧
    u.reg R.exchChecks = (if s.mustCheck c then satAdd (s.reg R.exchChecks) 1 else s.reg R.exchChecks) ∧
    (s.safe = true → c.xPblk ≠ 0 → (∀ j, j < 4 → s.lockedAt (c.xPblk + 28 + j) = false) → ∀ j, j < 4 → u.mem.read (c.xPblk + 28 + j) = (bytesOf 4 gscale.toNat).getD j 0)) ∧
  (fits → (st = 1 ∧ checked ∧ ¬good) ∨ st = 2 → Ends .exchSettle s fun u =>
    (st = 1 → u.reg R.exchMismatch = satAdd (s.reg R.exchMismatch) 1) ∧
    (entF e Ex.attempt < s.regF R.exchCtrl 12 3 →
      u.bf b Ex.state = 3 ∧ u.bf b Ex.attempt = entF e Ex.attempt + 1 ∧ u.bf b Ex.arrived = 0 ∧ u.bf b Ex.failMask = 0 ∧
      u.bf b Ex.ownSum = 0 ∧ u.bf b Ex.ownMax = 0 ∧ u.bf b Ex.gen = entF e Ex.gen ∧
      u.reg R.exchRepairs = satAdd (s.reg R.exchRepairs) 1 ∧ u.lines = s.lines ∧
      u.exch.syncs = s.exch.syncs ++ (entNotify e).map fun d =>
        SyncOp.mk d 4 b (BitVec.ofNat 16 (entF e Ex.gen)) (BitVec.ofNat 8 (entF e Ex.attempt + 1)) none 0) ∧
    (s.regF R.exchCtrl 12 3 ≤ entF e Ex.attempt → u.bf b Ex.state = 5 ∧ s.haltsOn f 0x20 .exchRepairFailed u))

/-- R386, R408: EXCH_OPEN of a bucket that is not owned halts with EXCH_BUCKET_INVALID, and of one that is not SETTLED with
EXCH_BUCKET_BUSY. Else GEN rises by one, SHIFT is the next shift, the state of the generation is cleared, the poison plane is
zero, and so is the accumulator for ZERO_ACC, LOCKED pages apart; each other core of the notify set gets a NOTICE. -/
def Obligations.ExchOpen : Prop := ∀ (s : State) (f : Flight), s.exch.run = none → s.exchHead 0x53 = some f →
  let c := f.q.cue
  let b := c.xBucket
  let e := s.bucket b
  let others := (entNotify e).filter (· != s.coreId)
  let gen := (entF e Ex.gen + 1) % 2 ^ 16
  (s.bucketOk b = false ∨ entOwned e = false → Ends .exchOpen s fun u =>
    s.haltsOn f 0x20 .exchBucket u ∧ u.exch = s.exch ∧ u.mem = s.mem) ∧
  (s.bucketOk b = true → entOwned e = true → entF e Ex.state ≠ 4 → Ends .exchOpen s fun u =>
    s.haltsOn f 0x20 .exchBusy u ∧ u.exch = s.exch ∧ u.mem = s.mem) ∧
  (s.bucketOk b = true → entOwned e = true → entF e Ex.state = 4 → Ends .exchOpen s fun u =>
    u.bf b Ex.gen = gen ∧ u.bf b Ex.shift = (bvI 8 (s.nextShift e)).toNat ∧ u.bf b Ex.state = 0 ∧ u.bf b Ex.arrived = 0 ∧
    u.bf b Ex.attempt = 0 ∧ u.bf b Ex.failMask = 0 ∧ u.bf b Ex.ownSum = 0 ∧ u.bf b Ex.ownMax = 0 ∧
    (∀ i, i < 320 → (u.bucket b).getLsbD i = e.getLsbD i) ∧ (∀ k, k ≠ b → u.bucket k = s.bucket k) ∧
    (s.safe = true → entF e Ex.pmaskBase % 64 = 0 → entF e Ex.accBase % 64 = 0 →
      s.localRangeOk (entF e Ex.pmaskBase) ((entF e Ex.elems + 7) / 8) = true →
      (∀ i, i < (entF e Ex.elems + 7) / 8 → s.lockedAt (entF e Ex.pmaskBase + i) = false) →
      ∀ i, i < (entF e Ex.elems + 7) / 8 → u.mem.read (entF e Ex.pmaskBase + i) = 0) ∧
    (s.safe = true → entF e Ex.pmaskBase % 64 = 0 → entF e Ex.accBase % 64 = 0 → c.xZeroAcc = true → s.accOk e = true →
      (∀ i, i < 8 * entF e Ex.elems → s.lockedAt (entF e Ex.accBase + i) = false) →
      ∀ i, i < 8 * entF e Ex.elems → u.mem.read (entF e Ex.accBase + i) = 0) ∧
    u.exch.syncs = s.exch.syncs ++ others.map (fun d =>
      SyncOp.mk d 3 b (BitVec.ofNat 16 gen) (bvI 8 (s.nextShift e)) (some f.q.uid) 0) ∧
    u.lines = s.lines ∧ u.board = s.board ∧ ((∀ o ∈ s.exch.syncs, o.uid ≠ some f.q.uid) → others = [] → u.doneWith f))

/-- R399, for ACCUMULATE, CLOSE and SKIP: an operation whose SEQ has been applied is dropped, answered ACK and counted in
EXCH_DUP; one past the next SEQ is dropped, answered NAK with LAST and counted in EXCH_NAK. Neither changes an entry, the
replay table or memory. While the local port does not serve, nothing happens. -/
def Sys2Proof.Claims.OwnerStream : Prop := ∀ (s : State) (src : BitVec 12) (bucket gen : BitVec 16) (seq : BitVec 32)
    (group : BitVec 16) (n : BitVec 7) (n20 : BitVec 20) (ch : BitVec 2) (pmask : BitVec 64) (data : List (BitVec 32))
    (mx : BitVec 32) (sum fail : BitVec 64) (c : Instr),
  c = .accumulate src bucket gen seq group n ch pmask data ∨ c = .close src bucket gen seq n20 ch mx sum fail ∨
    c = .skip src bucket gen seq group ch →
  let answer (kind q : Nat) (u : State) : Prop := ∃ t : State,
    u = t.sendPacket src 0xA ch.toNat (exHead bucket.toNat gen.toNat q 0 kind ch.toNat)
  (s.localServes = false → Ends c s fun u => u = s) ∧
  (∀ last, s.localServes = true → NMap.get none s.exch.replay (exKey src ch.toNat) = some last → (last - seq).toNat < 2 ^ 31 →
    Ends c s fun u => u.exch = s.exch ∧ u.mem = s.mem ∧ u.board = s.board ∧
      u.reg R.exchDup = satAdd (s.reg R.exchDup) 1 ∧ answer 8 seq.toNat u ∧
      KeptBut [.fab, .outs, .trig, .powerR, .fabR, .exchR, .fltR] s u) ∧
  (∀ last, s.localServes = true → NMap.get none s.exch.replay (exKey src ch.toNat) = some last → seq ≠ last + 1 →
    2 ^ 31 ≤ (last - seq).toNat →
    Ends c s fun u => u.exch = s.exch ∧ u.mem = s.mem ∧ u.board = s.board ∧
      u.reg R.exchNak = satAdd (s.reg R.exchNak) 1 ∧ answer 9 last.toNat u ∧
      KeptBut [.fab, .outs, .trig, .powerR, .fabR, .exchR, .fltR] s u)

/-- R399, R400, R401: the next operation of a stream becomes LAST. An ACCUMULATE of the entry's generation on a bucket that is
OPEN or REPAIRING adds its first COUNT elements to the accumulator, saturated, and touches no other element, while its target
and the poison plane are admitted by R249 and its words read clean; a SKIP marks the part in FAIL_MASK. Both answer ACK. An ACCUMULATE, CLOSE or SKIP
that the bucket does not take is answered REFUSED, counts, and marks its part where the bucket is OPEN or REPAIRING. -/
def Sys2Proof.Claims.OwnerApplies : Prop := ∀ (s : State) (src : BitVec 12) (bucket gen : BitVec 16) (seq : BitVec 32)
    (group : BitVec 16) (n : BitVec 7) (n20 : BitVec 20) (ch : BitVec 2) (pmask : BitVec 64) (data : List (BitVec 32))
    (mx : BitVec 32) (sum fail : BitVec 64),
  let b := bucket.toNat
  let e := s.bucket b
  let k := exKey src ch.toNat
  let base := entF e Ex.accBase + 512 * group.toNat
  let word (t : State) (i : Nat) : Int :=
    (BitVec.ofNat 64 (numOf ((List.range 8).map fun j => t.mem.read (base + 8 * i + j)))).toInt
  let answer (kind : Nat) (u : State) : Prop := ∃ t : State,
    u = t.sendPacket src 0xA ch.toNat (exHead b gen.toNat seq.toNat 0 kind ch.toNat)
  let failed := entSet e Ex.failMask (entF e Ex.failMask ||| 2 ^ entPart e group.toNat)
  s.localServes = true → (∀ last, NMap.get none s.exch.replay k = some last → seq = last + 1) →
  (s.safe = true → s.takesOp b gen = true → s.fatal = false → base % 64 = 0 → n.toNat ≤ 64 → n.toNat ≤ data.length → pmask = 0 →
    s.addersOk base (8 * n.toNat) = true → s.remoteWriteOk (entF e Ex.pmaskBase + 8 * group.toNat) = true →
    (∀ w, base / 64 ≤ w → w < base / 64 + 8 → s.mem.flaw w = []) →
    Ends (.accumulate src bucket gen seq group n ch pmask data) s fun u =>
      (∀ i, i < n.toNat → word u i = max (-rawTop) (min rawTop (word s i + ((data[i]?).getD 0).toInt))) ∧
      (∀ i, n.toNat ≤ i → i < 64 → word u i = word s i) ∧
      (∀ a, a < base ∨ base + 8 * n.toNat ≤ a → u.mem.read a = s.mem.read a) ∧
      NMap.get none u.exch.replay k = some seq ∧ u.exch.buckets = s.exch.buckets ∧ answer 8 u) ∧
  (s.takesOp b gen = true → Ends (.skip src bucket gen seq group ch) s fun u =>
    u.bucket b = failed ∧ (∀ j, j ≠ b → u.bucket j = s.bucket j) ∧ NMap.get none u.exch.replay k = some seq ∧ answer 8 u ∧
    u.mem = s.mem) ∧
  (s.takesOp b gen = false → ∀ c, c = .accumulate src bucket gen seq group n ch pmask data ∨
      (s.takesClose b gen n20.toNat = false ∧ c = .close src bucket gen seq n20 ch mx sum fail) ∨
      c = .skip src bucket gen seq group ch → Ends c s fun u =>
    u.mem = s.mem ∧ u.board = s.board ∧ NMap.get none u.exch.replay k = some seq ∧
    (∀ j, j ≠ b → u.bucket j = s.bucket j) ∧
    u.bucket b = (if s.bucketLive b = true ∧ c ≠ .close src bucket gen seq n20 ch mx sum fail then failed else e) ∧
    u.reg R.exchRefused = satAdd (s.reg R.exchRefused) 1 ∧ u.reg R.fltWr = s.reg R.fltWr + 1 ∧ answer 10 u)

/-- R399, R402, R403: the next operation of a stream, a CLOSE of the entry's generation on an OPEN or REPAIRING bucket, or one
that takes ARRIVED above EXPECT (log entry 39), adds
COUNT to ARRIVED and SUM to OWN_SUM and ORs FAIL into FAIL_MASK. ARRIVED above EXPECT sets every bit of FAIL_MASK. The close
with which ARRIVED first reaches EXPECT makes an OPEN bucket COMPLETE, or HELD while FAIL_MASK is not zero, closes the tracker
pass and posts +1 to call counter DONE_CTR. -/
def Sys2Proof.Claims.CloseApplies : Prop := ∀ (s : State) (src : BitVec 12) (bucket gen : BitVec 16) (seq : BitVec 32)
    (n : BitVec 20) (ch : BitVec 2) (mx : BitVec 32) (sum fail : BitVec 64),
  let b := bucket.toNat
  let e := s.bucket b
  let was := entF e Ex.arrived
  let due := was < entF e Ex.expect ∧ entF e Ex.expect ≤ was + n.toNat
  let mask := if entF e Ex.expect < was + n.toNat then 2 ^ 64 - 1 else entF e Ex.failMask ||| fail.toNat
  let d := entF e Ex.doneCtr
  s.localServes = true →
  (∀ last, NMap.get none s.exch.replay (exKey src ch.toNat) = some last → seq = last + 1) → s.takesClose b gen n.toNat = true →
  was + n.toNat < 2 ^ 20 → Ends (.close src bucket gen seq n ch mx sum fail) s fun u =>
    u.bf b Ex.arrived = was + n.toNat ∧ u.bf b Ex.ownSum = (entF e Ex.ownSum + sum.toNat) % 2 ^ 64 ∧
    u.bf b Ex.failMask = mask ∧ (∀ j, j ≠ b → u.bucket j = s.bucket j) ∧ u.bf b Ex.gen = entF e Ex.gen ∧
    u.bf b Ex.state = (if due then if mask = 0 then 1 else 2 else entF e Ex.state) ∧
    (due → entF e Ex.state = 0 → (u.tracker (entF e Ex.trk)).isOpen = false ∧
      (u.tracker (entF e Ex.trk)).passes = (s.tracker (entF e Ex.trk)).passes + 1) ∧
    (due → entF e Ex.state = 0 → d < 64 → (s.cnt d).toNat < 0xFFFFF → (u.cnt d).toNat = (s.cnt d).toNat + 1 ∧
      ∀ j, j ≠ d → u.cnt j = s.cnt j) ∧
    (¬due → u.board = s.board) ∧
    NMap.get none u.exch.replay (exKey src ch.toNat) = some seq ∧ u.mem = s.mem ∧ u.lines = s.lines ∧
    ∃ t : State, u = t.sendPacket src 0xA ch.toNat (exHead b gen.toNat seq.toNat 0 8 ch.toNat)

/-- The owner's sequence rule and what a packet adds. -/
def Obligations.OwnerStream : Prop :=
  Sys2Proof.Claims.OwnerStream ∧ Sys2Proof.Claims.OwnerApplies ∧ Sys2Proof.Claims.CloseApplies

/-- R388, R393, R406, R407: a NOTICE ahead of the entry's generation brings GEN and SHIFT, any other changes no entry. A RESEND
of which this core has had a copy before does nothing; one that it cannot serve is answered UNABLE, with the attempt in SERVED.
An UNABLE of the attempt under repair fails the bucket and any other does nothing. Each is acknowledged with SEQ 0, and while
the local port does not serve, nothing happens. -/
def Sys2Proof.Claims.SyncOperations : Prop := ∀ (s : State) (src : BitVec 12) (bucket gen : BitVec 16) (shift : BitVec 8)
    (att : BitVec 3),
  let b := bucket.toNat
  let e := s.bucket b
  let d := genAhead gen (BitVec.ofNat 16 (entF e Ex.gen))
  let ack (u : State) : Prop := ∃ t : State, u = t.sendPacket src 0xA 0 (exHead b gen.toNat 0 0 8 0)
  let ours := s.bucketOk b = true ∧ entOwned e = true ∧ entF e Ex.state = 3 ∧ entF e Ex.gen = gen.toNat ∧
    entF e Ex.attempt = att.toNat
  let key := (src.toNat, gen.toNat, att.toNat)
  let served := key ∈ NMap.get [] s.exch.acted b
  let kept := s.bucketOk b = true ∧ entRetain e = true ∧ NMap.get 0 s.exch.retGen b = gen.toNat + 1 ∧
    s.localRangeOk (entF e Ex.retainBase) (retainBytes e) = true
  (s.localServes = false → (∀ c, c = .notice src bucket gen shift ∨ c = .resend src bucket gen att ∨ c = .unable src bucket gen att →
    Ends c s fun u => u = s)) ∧
  (s.localServes = true →
    (s.bucketOk b = true → 1 ≤ d → d ≤ 0x7FFF → Ends (.notice src bucket gen shift) s fun u =>
      u.bf b Ex.gen = gen.toNat ∧ u.bf b Ex.shift = shift.toNat ∧ (∀ i, i < 320 → (u.bucket b).getLsbD i = e.getLsbD i) ∧
      (∀ i, 352 ≤ i → (u.bucket b).getLsbD i = e.getLsbD i) ∧ (∀ k, k ≠ b → u.bucket k = s.bucket k) ∧
      u.exch.ops = s.exch.ops ∧ u.mem = s.mem ∧ u.board = s.board) ∧
    (s.bucketOk b = false ∨ d = 0 ∨ 0x7FFF < d → Ends (.notice src bucket gen shift) s fun u =>
      u.exch = s.exch ∧ u.mem = s.mem ∧ u.board = s.board ∧ ack u) ∧
    (served → Ends (.resend src bucket gen att) s fun u => u.exch = s.exch ∧ u.mem = s.mem ∧ ack u) ∧
    (¬served → ¬kept → Ends (.resend src bucket gen att) s fun u =>
      u.bucket b = (if s.bucketOk b = true then entSet e Ex.served att.toNat else e) ∧ key ∈ NMap.get [] u.exch.acted b ∧
      (∀ k, k ≠ b → u.bucket k = s.bucket k) ∧
      u.exch.syncs = s.exch.syncs ++ [SyncOp.mk src 5 b gen (att.setWidth 8) none 0] ∧ u.exch.ops = s.exch.ops ∧
      u.mem = s.mem) ∧
    (ours → Ends (.unable src bucket gen att) s fun u =>
      u.bf b Ex.state = 5 ∧ (∀ k, k ≠ b → u.bucket k = s.bucket k) ∧
      (∀ f, s.exch.run = some ⟨f.q.uid, 0, false, true⟩ → s.flight f.q.uid = some f → f.q.cue.opcode = 0x52 →
        f.q.cue.xBucket = b →
        s.haltsOn f 0x20 .exchRepairFailed u)) ∧
    (¬ours → Ends (.unable src bucket gen att) s fun u => u.exch = s.exch ∧ u.mem = s.mem ∧ u.lines = s.lines ∧ ack u))

/-- R393, R395, R398, R401: while no exchange cue is in progress and no repair is served, an ACK ends the operation with its
SEQ, or, with SEQ 0 and none such, the oldest NOTICE, RESEND or UNABLE to that core; a REFUSED also marks the operation's
part failed for good, with a record; a NAK that no outstanding operation lies above changes nothing, and neither does an
answer to nothing outstanding. While the local port does not serve, nothing happens. -/
def Sys2Proof.Claims.ExchAnswers : Prop := ∀ (s : State) (src : BitVec 12) (ch : BitVec 2) (seq : BitVec 32),
  let has := ∃ o ∈ s.exch.ops, o.is src ch.toNat seq = true
  (s.localServes = false → ∀ c, c = .exchAck src ch seq ∨ c = .exchNak src ch seq ∨ c = .refused src ch seq →
    Ends c s fun u => u = s) ∧
  (s.localServes = true → s.exch.run = none → s.exch.serves = [] →
    (has → Ends (.exchAck src ch seq) s fun u => u.exch.ops = s.exch.ops.filter (fun o => !o.is src ch.toNat seq) ∧
      u.exch.syncs = s.exch.syncs ∧ u.exch.buckets = s.exch.buckets ∧ u.mem = s.mem ∧ u.flights = s.flights) ∧
    (¬has → ch = 0 → seq = 0 → ∀ i, findIdx? (fun o : SyncOp => o.dst == src) s.exch.syncs = some i →
      Ends (.exchAck src ch seq) s fun u => u.exch.syncs = listDrop1 s.exch.syncs i ∧ u.exch.ops = s.exch.ops ∧
        u.exch.buckets = s.exch.buckets ∧ u.mem = s.mem ∧ u.flights = s.flights) ∧
    (∀ o g x, s.exch.ops.find? (·.is src ch.toNat seq) = some o → o.body = .acc g x → Ends (.refused src ch seq) s fun u =>
      u.exch.ops = s.exch.ops.filter (fun o => !o.is src ch.toNat seq) ∧
      u.bucket o.bucket = entSet (s.bucket o.bucket) Ex.sendFail
        (s.bf o.bucket Ex.sendFail ||| 2 ^ entPart (s.bucket o.bucket) g) ∧
      (∀ k, k ≠ o.bucket → u.bucket k = s.bucket k) ∧
      u.reg R.exchPartFailed = satAdd (s.reg R.exchPartFailed) 1 ∧ (s.fab.rops = [] → u.reg R.fltWr = s.reg R.fltWr + 1) ∧
      u.mem = s.mem) ∧
    (¬has → Ends (.refused src ch seq) s fun u => u.exch = s.exch ∧ u.mem = s.mem ∧ u.board = s.board ∧ u.lines = s.lines) ∧
    ((∀ o ∈ s.exch.ops, o.dst = src → o.ch = ch.toNat → o.seq = seq ∨ 2 ^ 31 ≤ (o.seq - seq).toNat) →
      Ends (.exchNak src ch seq) s fun u => u.exch = s.exch ∧ u.mem = s.mem ∧ u.board = s.board ∧ u.lines = s.lines))

/-- R393, R395, R401: a stream with an operation that has had no answer for EXCH_ACK_TICKS re-sends: here for one outstanding
CLOSE or SKIP while no cue is in progress and no repair is served. Below RETRY_LIMIT it is sent again and counted; at the limit
the part has failed for good and a SKIP with the same SEQ takes its place. An unanswered NOTICE, RESEND or UNABLE is sent again
up to RETRY_LIMIT times and then no more. Before EXCH_ACK_TICKS nothing happens. -/
def Sys2Proof.Claims.ExchTimeouts : Prop := ∀ (s : State) (dst : BitVec 12) (ch : BitVec 2) (o : ExOp) (i : Nat) (y : SyncOp),
  let limit := s.regF R.exchCtrl 8 4
  let c := Instr.exchAckTimeout dst ch
  let due (x : ExOp) : Prop := x.dst = dst ∧ x.ch = ch.toNat ∧ s.lapsed (.exchange x.dst x.ch x.seq) = true
  (s.localServes = false → Ends c s (fun u => u = s) ∧ Ends (.syncOpTimeout i) s fun u => u = s) ∧
  (s.localServes = true →
    ((∀ x ∈ s.exch.ops, ¬due x) → Ends c s fun u => u = s) ∧
    (s.exch.run = none → s.exch.serves = [] → s.exch.ops = [o] → due o →
      (o.open = false ∨ o.tries < limit → (∃ n m x y, o.body = .close n m x y) ∨ (∃ g, o.body = .skip g) → Ends c s fun u =>
        u.exch = { s.exch with ops := [{ o with tries := o.tries + 1 }] } ∧
        u.reg R.exchRetry = satAdd (s.reg R.exchRetry) 1 ∧ u.reg R.exchPartFailed = s.reg R.exchPartFailed ∧ u.mem = s.mem) ∧
      (limit ≤ o.tries → o.open = true → Ends c s fun u =>
        u.exch.ops = [{ o with body := .skip o.body.group, tries := 0 }] ∧
        u.reg R.exchPartFailed = satAdd (s.reg R.exchPartFailed) 1 ∧
        (∀ g x, o.body = .acc g x → u.bf o.bucket Ex.sendFail =
          s.bf o.bucket Ex.sendFail ||| 2 ^ entPart (s.bucket o.bucket) g) ∧ u.mem = s.mem)) ∧
    (s.exch.syncs[i]? = some y →
      (y.tries < limit → s.lapsed y.timer = true → Ends (.syncOpTimeout i) s fun u =>
        u.exch = { s.exch with syncs := listSet s.exch.syncs i { y with tries := y.tries + 1 } } ∧
        ∃ t : State, u = t.sendPacket y.dst 6 0 (syncBytes y.kind y.bucket y.gen.toNat y.arg)) ∧
      (limit ≤ y.tries ∨ s.lapsed y.timer = false → Ends (.syncOpTimeout i) s fun u => u = s)))

/-- R414, R461: a host write of EXCH_REPLAY_CLEAR makes the replay entries of the source it names not VALID, or all of them. -/
def Sys2Proof.Claims.ReplayClear : Prop := ∀ (s : State) (v : Word), s.serve R.exchReplayClear = .ok →
  (v.getLsbD 12 = false → Ends (.replayClearSource v) s fun u =>
    (∀ c, c < 4 → NMap.get none u.exch.replay (exKey (field v 0 12) c) = none) ∧
    (∀ src c, c < 4 → src ≠ (field v 0 12 : BitVec 12) →
      NMap.get none u.exch.replay (exKey src c) = NMap.get none s.exch.replay (exKey src c)) ∧
    u.exch.buckets = s.exch.buckets ∧ u.exch.nextSeq = s.exch.nextSeq ∧ Only [.exch] [R.sesIdleTicks] s u) ∧
  (v.getLsbD 12 = true → Ends (.replayClearSource v) s fun u =>
    u.exch = { s.exch with replay := [] } ∧ Only [.exch] [R.sesIdleTicks] s u) ∧
  (Ends .replayClearAll s fun u => u.exch = { s.exch with replay := [] } ∧ Only [.exch] [R.sesIdleTicks] s u)

/-- Notices, repair, answers, time-outs and replay clears. -/
def Obligations.ExchangeReplies : Prop :=
  Sys2Proof.Claims.SyncOperations ∧ Sys2Proof.Claims.ExchAnswers ∧ Sys2Proof.Claims.ExchTimeouts ∧ Sys2Proof.Claims.ReplayClear

/-- R421, R428, R430: a flit that a live channel hears with a wrong CRC is dropped and counted, and answered with a NAK of the
last LSEQ accepted unless it is a LINK flit; so is, not counted, one out of order. A routed flit of a port that is not UP is
dropped. A flit of this core that is next in order and a whole packet reaches the local port, and an ACK carries its LSEQ; an
exchange operation with a reserved KIND is dropped there, and counts (R394). -/
def Sys2Proof.Claims.FlitIn : Prop := ∀ (s : State) (p : Fin 16) (c : Fin 4) (flit : BitVec 512),
  let f : Flit := flit
  let ch := s.chan p.val c.val
  let up := (s.port p.val).state = .up
  let link (bytes : List Byte) : Output := .flit p.val c.val (mkFlit 0xF 0 0 s.coreId true true bytes).seal
  let nak := link ([2#8, 0#8] ++ bytesOf 2 ch.rx.toNat)
  let cmd := Instr.flitAccept p c flit
  let dropped := (Packet.mk f.opc f.ch f.src f.payload []).exReserved
  (s.hears p.val c.val = false → Ends cmd s fun u => u = s) ∧
  (s.hears p.val c.val = true →
    (f.crcOk = false → Ends cmd s fun u =>
      u.reg (R.fabChCrc p.val c.val) = satAdd (s.reg (R.fabChCrc p.val c.val)) 1 ∧
      u.outs = (if f.opc ≠ 15 ∧ up then s.outs ++ [nak] else s.outs) ∧ Only [.outs] [R.fabChCrc p.val c.val] s u) ∧
    (f.crcOk = true → f.opc ≠ 15 →
      (¬up → Ends cmd s fun u => u = s) ∧
      (up → f.lseq ≠ ch.rx + 1 → Ends cmd s fun u => u = { s with outs := s.outs ++ [nak] }) ∧
      (up → f.lseq = ch.rx + 1 → f.dest = s.coreId → opcReserved f.opc = false → f.sop = true → f.eop = true →
        dropped = true → Ends cmd s fun u =>
          u.fab.localIn = s.fab.localIn ∧ u.reg R.exchStray = satAdd (s.reg R.exchStray) 1 ∧
          KeptBut [.fab, .outs, .exchR] s u) ∧
      (up → f.lseq = ch.rx + 1 → f.dest = s.coreId → opcReserved f.opc = false → f.sop = true → f.eop = true →
        dropped = false → Ends cmd s fun u =>
          u.fab.localIn = s.fab.localIn ++ [⟨f.opc, f.ch, f.src, f.payload, [(4 * p.val + c.val, f.lv)]⟩] ∧
          u.chan p.val c.val = { ch with rx := f.lseq } ∧
          (∀ q d, d < 4 → (q, d) ≠ (p.val, c.val) → u.chan q d = s.chan q d) ∧
          u.outs = s.outs ++ [link ([1#8, 0#8] ++ bytesOf 2 f.lseq.toNat ++ List.replicate 6 0)] ∧
          KeptBut [.fab, .outs] s u)))

/-- R429: a LINK flit with a good CRC does what its kind says: ACK, NAK, HELLO, HANDOVER, VERDICT; any other does nothing. A
HANDOVER's request for a channel that has retired here is answered with a reply first. -/
def Sys2Proof.Claims.LinkFlits : Prop := ∀ (s : State) (p : Fin 16) (c : Fin 4) (flit : BitVec 512) (r : Fin 4),
  let f : Flit := flit
  let w : BitVec 416 := field f 64 416
  let kind := fieldN w 0 8
  s.hears p.val c.val = true → f.crcOk = true → f.opc = 15 →
  (kind = 1 → exec (.flitAccept p c flit) s = exec (.linkAck p c w) s) ∧
  (kind = 2 → exec (.flitAccept p c flit) s = exec (.linkNak p c (field w 16 12)) s) ∧
  (kind = 3 → exec (.flitAccept p c flit) s = exec (.hello p (field w 16 12)) s) ∧
  (kind = 4 → fieldN w 8 2 = r.val → fieldN w 32 8 ≠ 0 ∨ (s.chan p.val r.val).state ≠ .retired →
    exec (.flitAccept p c flit) s = exec (.handover p r (field w 16 12)) s) ∧
  (kind = 4 → fieldN w 8 2 = r.val → fieldN w 32 8 = 0 → (s.chan p.val r.val).state = .retired → (s.port p.val).state = .up →
    exec (.flitAccept p c flit) s = exec (.handover p r (field w 16 12)) (s.sendLink p.val ((s.liveChans p.val).headD 0)
      ([4#8, BitVec.ofNat 8 r.val] ++ bytesOf 2 (s.chan p.val r.val).rx.toNat ++ [1#8]))) ∧
  (kind = 5 → exec (.flitAccept p c flit) s = exec (.verdict p (fieldN w 8 8 != 0)) s) ∧
  (kind = 0 ∨ 6 ≤ kind → exec (.flitAccept p c flit) s = .next s.settle)

/-- R422, R437, R438, R440: a flit of another core that is next in order goes on through the primary port of its route, while
that is UP and the flit is not on an alternate route: HOPS rises by one, VC follows the dateline rule, LSEQ and CRC are those
of the next channel. A response flit that no port takes is dropped and counted, and so is a flit with a reserved operation. -/
def Sys2Proof.Claims.Router : Prop := ∀ (s : State) (p : Fin 16) (c : Fin 4) (flit : BitVec 512),
  let f : Flit := flit
  let r := s.route f.dest
  let q := fieldN r 0 4
  let lowest := (s.carrier q f.ch).getD 4
  let onward := s.chan q lowest
  let out (i : Nat) : List Byte := (List.range 6).map fun j => if j = i then 1#8 else 0#8
  let ack : Output := .flit p.val c.val
    (mkFlit 0xF 0 0 s.coreId true true ([1#8, 0#8] ++ bytesOf 2 f.lseq.toNat ++ out f.lv)).seal
  s.hears p.val c.val = true → f.crcOk = true → f.opc ≠ 15 → (s.port p.val).state = .up →
    f.lseq = (s.chan p.val c.val).rx + 1 → f.lv < 6 →
  (opcReserved f.opc = true → Ends (.flitAccept p c flit) s fun u =>
    u.reg R.fabStray = satAdd (s.reg R.fabStray) 1 ∧ u.outs = s.outs ++ [ack] ∧ u.fab.localIn = s.fab.localIn) ∧
  (opcReserved f.opc = false → f.dest ≠ s.coreId → f.alt = false → r.getLsbD 8 = true → s.portUp q = true →
    f.hops ≠ s.regF R.fabCtrl 0 12 → s.waiting q f.ch = [] → lowest < 4 → onward.state = .live → s.classHeld q f.ch = false →
    onward.replay.length < 256 → (∀ i, i < 6 → listGet 0 onward.credits i ≠ 0) → Ends (.flitAccept p c flit) s fun u =>
      (∃ g : Flit, u.outs = s.outs ++ [.flit q lowest g, ack] ∧ g.opc = f.opc ∧ g.ch = f.ch ∧ g.dest = f.dest ∧
        g.src = f.src ∧ g.payload = f.payload ∧ g.sop = f.sop ∧ g.eop = f.eop ∧ g.hops = (f.hops + 1) % 4096 ∧
        g.lseq = onward.tx ∧ g.alt = false ∧ g.crcOk = true ∧
        g.vc = (if s.portWrap q then 1 else if s.portDim p.val = s.portDim q then f.vc else 0)) ∧
      u.fab.localIn = s.fab.localIn ∧ KeptBut [.fab, .outs, .fabR] s u) ∧
  (opcReserved f.opc = false → laneOf f.opc = 1 → f.dest ≠ s.coreId → f.alt = false → r.getLsbD 8 = false ∨ s.portUp q = false →
    r.getLsbD 9 = false ∨ s.portUp (fieldN r 4 4) = false → Ends (.flitAccept p c flit) s fun u =>
      u.reg R.fabNoroute = satAdd (s.reg R.fabNoroute) 1 ∧ u.outs = s.outs ++ [ack] ∧ u.fab.localIn = s.fab.localIn ∧
      KeptBut [.fab, .outs, .fabR] s u)

/-- A flit at a channel: checks, link flits and routing. -/
def Obligations.FlitTaking : Prop :=
  Sys2Proof.Claims.FlitIn ∧ Sys2Proof.Claims.LinkFlits ∧ Sys2Proof.Claims.Router

/-- R429, R430, R431: with no flit waiting, an ACK drops the flits it covers from the replay buffer and returns credits, up
to 32; a NAK, and 2^10 ticks without an ACK while flits are outstanding, send every flit above the LSEQ again, in order, and
count one replay. A channel that does not hear, and a time-out with nothing outstanding, change nothing. -/
def Sys2Proof.Claims.GoBack : Prop := ∀ (s : State) (p : Fin 16) (c : Fin 4) (w : BitVec 416) (last : BitVec 12),
  let ch := s.chan p.val c.val
  let recent := ch.win.filter fun t => decide ((s.tick - t).toNat ≤ 2 ^ 20)
  let above (l : BitVec 10) := ch.replay.filter fun f => decide (1 ≤ (Flit.lseq f - l).toNat ∧ (Flit.lseq f - l).toNat < 512)
  let late : Bool := decide (2 ^ 10 ≤ s.age (.replay p.val c.val (beforeOldest 0 ch.replay)))
  let back (l : BitVec 10) (u : State) : Prop :=
    u.chan p.val c.val = { ch with replay := above l, win := recent ++ [s.tick] } ∧
    u.outs = s.outs ++ (above l).map (fun f => .flit p.val c.val f) ∧
    u.reg (R.fabChReplay p.val c.val) = satAdd (s.reg (R.fabChReplay p.val c.val)) 1 ∧
    (∀ q d, d < 4 → (q, d) ≠ (p.val, c.val) → u.chan q d = s.chan q d) ∧
    Only [.fab, .outs, .timers] [R.fabChReplay p.val c.val] s u
  let held := (List.range 6).map fun i => min 32 (listGet 0 ch.credits i + fieldN w (32 + 8 * i) 8)
  (s.hears p.val c.val = false → ∀ i, i = Instr.linkAck p c w ∨ i = .linkNak p c last ∨ i = .replayTimeout p c →
    Ends i s fun u => u = s) ∧
  (ch.replay = [] ∨ late = false → Ends (.replayTimeout p c) s fun u => u = s) ∧
  (s.hears p.val c.val = true → (∀ k, k < 4 → s.waiting p.val k = []) →
    (Ends (.linkAck p c w) s fun u =>
      u.chan p.val c.val = { ch with replay := above (field w 16 10), credits := held } ∧
      (∀ q d, d < 4 → (q, d) ≠ (p.val, c.val) → u.chan q d = s.chan q d) ∧ Only [.fab] [] s u) ∧
    (recent.length < 15 → Ends (.linkNak p c last) s fun u => back (last.setWidth 10) u) ∧
    (∀ f rest, recent.length < 15 → ch.replay = f :: rest → late = true → Ends (.replayTimeout p c) s fun u => back (Flit.lseq f - 1) u))

/-- R432, R433: `fab_phy_err` on a live channel makes it retrain, its flits kept, and a request rises. A failed or late
training of it, and the sixteenth replay in the window, retire the channel with a record; it then holds the classes it carried
for a handover. A training is late after FAB_TRAIN_TICKS and not before. -/
def Sys2Proof.Claims.Retirement : Prop := ∀ (s : State) (p : Fin 16) (c : Fin 4) (last : BitVec 12),
  let ch := s.chan p.val c.val
  let recent := ch.win.filter fun t => decide ((s.tick - t).toNat ≤ 2 ^ 20)
  let others := ∃ k, k < 4 ∧ k ≠ c.val ∧ (s.chan p.val k).state = .live
  let gone (u : State) : Prop := (u.chan p.val c.val).state = .retired ∧ (u.chan p.val c.val).req = false ∧
    (u.chan p.val c.val).handing = ([0, 1, 2, 3] : List Nat).filter (fun k => s.carrier p.val k == some c.val) ∧
    (u.port p.val).state = .up ∧ u.reg R.fltWr = s.reg R.fltWr + 1 ∧
    KeptBut [.fab, .outs, .timers, .trig, .ctlR, .fabR, .fltR] s u
  let late : Bool := decide ((s.reg R.fabTrainTicks).toNat ≤ s.age (.train p.val c.val))
  (s.build.ports ≤ p.val ∨ (s.port p.val).state = .disabled ∨ ch.state ≠ .live → Ends (.fabPhyErr p c) s fun u => u = s) ∧
  (p.val < s.build.ports → (s.port p.val).state ≠ .disabled → ch.state = .live → Ends (.fabPhyErr p c) s fun u =>
    u.chan p.val c.val = { ch with state := .retraining, req := true } ∧
    (∀ q d, d < 4 → (q, d) ≠ (p.val, c.val) → u.chan q d = s.chan q d) ∧
    u.outs = (if ch.req then s.outs else s.outs ++ [.trainReq p.val c.val true]) ∧ KeptBut [.fab, .outs, .timers] s u) ∧
  (late = false → Ends (.trainTimeout p c) s fun u => u = s) ∧
  (p.val < s.build.ports → (s.port p.val).state = .up → (s.port p.val).retry = false → others →
    (ch.state = .retraining → late = true → Ends (.trainTimeout p c) s gone) ∧
    (ch.state = .retraining → ch.req = true → Ends (.fabTrainFail p c) s gone) ∧
    (ch.state = .live → s.hears p.val c.val = true → (∀ k, k < 4 → s.waiting p.val k = []) → 15 ≤ recent.length →
      Ends (.linkNak p c last) s gone)) ∧
  (ch.req = false → Ends (.fabTrainFail p c) s fun u => u = s)

/-- R434: a HANDOVER on a port that is not UP or has no live channel changes nothing. One for a retired channel empties its
replay buffer; the flits above the LSEQ it reports go ahead of those that wait, in order, and leave as they can. One with
nothing to hand over changes nothing. -/
def Sys2Proof.Claims.Handover : Prop := ∀ (s : State) (p : Fin 16) (r : Fin 4) (last : BitVec 12),
  let ch := s.chan p.val r.val
  let l : BitVec 10 := last.setWidth 10
  let rest := ch.replay.filter fun f => decide (1 ≤ (Flit.lseq f - l).toNat ∧ (Flit.lseq f - l).toNat < 512)
  (s.liveChans p.val = [] ∨ (s.port p.val).state ≠ .up → Ends (.handover p r last) s fun u => u = s) ∧
  (s.liveChans p.val ≠ [] → (s.port p.val).state = .up → ch.state = .retired →
    (ch.handing = [] → Ends (.handover p r last) s fun u => u = s) ∧
    (ch.handing ≠ [] → Ends (.handover p r last) s fun u =>
      u.chan p.val r.val = { ch with replay := [], handing := [] } ∧ (u.port p.val).state = .up ∧
      (∀ k, k < 4 → ∃ n, u.waiting p.val k = ((rest.filter fun f => Flit.ch f == k) ++ s.waiting p.val k).drop n) ∧
      (∀ q k, q ≠ p.val → k < 4 → u.waiting q k = s.waiting q k) ∧ KeptBut [.fab, .outs, .fabR] s u))

/-- Go-back, channel retirement and handover. -/
def Obligations.LinkReplay : Prop :=
  Sys2Proof.Claims.GoBack ∧ Sys2Proof.Claims.Retirement ∧ Sys2Proof.Claims.Handover

/-- R443: a port in training that has heard no HELLO checks the peer id: its own id, or another than PEER_ID while PEER_CHECK
is set, holds the port with a record; VERDICT goes out on every live channel. After both sides accept, and every channel has an
outcome, the port is UP; a peer that holds makes it PEER_HELD, with a record. Other HELLOs and VERDICTs change nothing. -/
def Sys2Proof.Claims.PeerChecks : Prop := ∀ (s : State) (p : Fin 16) (peer : BitVec 12) (v : Bool),
  let x := s.port p.val
  let cfg := R.fabPortCfg p.val
  let ready := p.val < s.build.ports ∧ x.state = .training ∧ s.liveChans p.val ≠ []
  let wrong := s.regB cfg 5 = true ∧ s.regF cfg 16 12 ≠ peer.toNat
  let verdicts (w : Byte) : List Output := (s.liveChans p.val).map fun c =>
    .flit p.val c (mkFlit 0xF 0 0 s.coreId true true [5#8, w]).seal
  let trained := ∀ c, c < 4 → (s.chan p.val c).state ≠ .idle
  let held (st : PortState) (u : State) : Prop := (u.port p.val).state = st ∧ (∀ q, q ≠ p.val → u.port q = s.port q) ∧
    u.reg R.fltWr = s.reg R.fltWr + 1 ∧ (s.phase = .up → u.phase = .up) ∧
    (s.phase = .bringUp → (∀ q, q < s.build.ports → q ≠ p.val → s.portSettled q = true) →
      u.phase = .up ∧ u.regB R.ctlStatus 0 = true)
  (¬ready ∨ x.own ≠ none → Ends (.hello p peer) s fun u => u = s) ∧
  (ready → x.own = none → peer = s.coreId → Ends (.hello p peer) s fun u =>
    held .dupId u ∧ (u.port p.val).peer = peer ∧ u.outs = s.outs ++ verdicts 1) ∧
  (ready → x.own = none → peer ≠ s.coreId → wrong → Ends (.hello p peer) s fun u =>
    held .peerMismatch u ∧ (u.port p.val).peer = peer ∧ u.outs = s.outs ++ verdicts 1) ∧
  (ready → x.own = none → peer ≠ s.coreId → ¬wrong →
    (x.heard = none → Ends (.hello p peer) s fun u => u.port p.val = { x with peer := peer, own := some false } ∧
      u.outs = s.outs ++ verdicts 0 ∧ KeptBut [.fab, .outs] s u) ∧
    (x.heard = some true → Ends (.hello p peer) s fun u => held .peerHeld u ∧ u.outs = s.outs ++ verdicts 0)) ∧
  (¬ready ∨ x.heard ≠ none → Ends (.verdict p v) s fun u => u = s) ∧
  (ready → x.heard = none →
    (x.own = none ∨ x.own = some true → Ends (.verdict p v) s fun u => u.port p.val = { x with heard := some v } ∧
      Only [.fab] [] s u) ∧
    (x.own = some false → v = true → Ends (.verdict p v) s fun u => held .peerHeld u) ∧
    (x.own = some false → v = false → trained → Ends (.verdict p v) s fun u =>
      (u.port p.val).state = .up ∧ (s.phase = .bringUp → (∀ q, q < s.build.ports → q ≠ p.val → s.portSettled q = true) →
        u.phase = .up ∧ u.regB R.ctlStatus 0 = true)) ∧
    (x.own = some false → v = false → ¬trained → Ends (.verdict p v) s fun u =>
      u.port p.val = { x with heard := some v } ∧ Only [.fab] [] s u))

/-- R432, R443, R444: a channel whose PHY is ready asks for training while its port trains or is DOWN; one that has trained in
bring-up is live with LSEQ from 0 and sends a HELLO. A failed or late training in bring-up retires the channel with a record;
when it is the last of the four, the port is DOWN with its channels idle, and their requests rise again at the retry. -/
def Sys2Proof.Claims.Training : Prop := ∀ (s : State) (p : Fin 16) (c : Fin 4) (cmd : Instr),
  let ch := s.chan p.val c.val
  let x := s.port p.val
  let there := p.val < s.build.ports
  let othersGone := ∀ k, k < 4 → k ≠ c.val → (s.chan p.val k).state = .retired
  (there → (x.state = .training ∨ x.state = .down) → ch.state = .idle → Ends (.fabPhyReady p c) s fun u =>
    u.chan p.val c.val = { ch with ready := true, req := true } ∧
    u.outs = (if ch.req then s.outs else s.outs ++ [.trainReq p.val c.val true]) ∧ KeptBut [.fab, .outs] s u) ∧
  (there → (x.state ≠ .training ∧ x.state ≠ .down) ∨ ch.state ≠ .idle → Ends (.fabPhyReady p c) s fun u =>
    u.chan p.val c.val = { ch with ready := true } ∧ Only [.fab] [] s u) ∧
  (ch.req = false ∨ ¬there → Ends (.fabTrainDone p c) s fun u => u = s) ∧
  (there → ch.req = true → ch.state = .idle → (x.state = .training ∨ x.state = .down) → x.own = none →
    Ends (.fabTrainDone p c) s fun u =>
      u.chan p.val c.val = { ChanSt.init with ready := ch.ready } ∧ u.port p.val = { x with state := .training } ∧
      (∃ w : Flit, u.outs = s.outs ++ [.trainReq p.val c.val false, .flit p.val c.val w] ∧ w.opc = 15 ∧ w.crcOk = true ∧
        fieldN w 64 8 = 3 ∧ field w 80 12 = s.coreId ∧ fieldN w 96 8 = p.val) ∧ KeptBut [.fab, .outs] s u) ∧
  (((cmd = .trainTimeout p c ∧ (s.reg R.fabTrainTicks).toNat ≤ s.age (.train p.val c.val)) ∨ (cmd = .fabTrainFail p c ∧ ch.req = true)) → there → ch.state = .idle →
    (x.state = .training → x.retry = false → ¬othersGone → Ends cmd s fun u =>
      (u.chan p.val c.val).state = .retired ∧ (u.chan p.val c.val).req = false ∧ u.reg R.fltWr = s.reg R.fltWr + 1) ∧
    (x.state = .training → othersGone → Ends cmd s fun u =>
      (u.port p.val).state = .down ∧ (u.port p.val).retry = true ∧
      (∀ k, k < 4 → (u.chan p.val k).state = .idle ∧ (u.chan p.val k).ready = (s.chan p.val k).ready)) ∧
    (x.state = .down → Ends cmd s fun u => u.chan p.val c.val = { ch with req := false } ∧ u.port p.val = x ∧
      KeptBut [.fab, .outs, .timers] s u)) ∧
  (there → x.state = .down → Ends (.downPortRetry p) s fun u =>
    (∀ k, k < 4 → u.chan p.val k = { s.chan p.val k with req := (s.chan p.val k).req || (s.chan p.val k).ready }) ∧
    u.fab.ports = s.fab.ports ∧ KeptBut [.fab, .outs] s u) ∧
  (¬there ∨ x.state ≠ .down → Ends (.downPortRetry p) s fun u => u = s)

/-- R432, R430: a channel that has retrained is live again: it sends an ACK of what it accepted and goes back, which counts as
a replay. -/
def Sys2Proof.Claims.Retrained : Prop := ∀ (s : State) (p : Fin 16) (c : Fin 4),
  let ch := s.chan p.val c.val
  let recent := ch.win.filter fun t => decide ((s.tick - t).toNat ≤ 2 ^ 20)
  p.val < s.build.ports → ch.req = true → ch.state = .retraining → recent.length < 15 →
    (∀ k, k < 4 → s.waiting p.val k = [] ∧ (s.chan p.val k).handing = []) →
    (∀ f rest, ch.replay = f :: rest → ∀ g ∈ rest, 1 ≤ (Flit.lseq g - Flit.lseq f).toNat ∧
      (Flit.lseq g - Flit.lseq f).toNat < 256) →
  Ends (.fabTrainDone p c) s fun u =>
    u.chan p.val c.val = { ch with state := .live, req := false, win := recent ++ [s.tick] } ∧
    (∃ w : Flit, u.outs = s.outs ++ [.trainReq p.val c.val false, .flit p.val c.val w] ++
        ch.replay.map (fun f => .flit p.val c.val f) ∧ w.opc = 15 ∧ w.crcOk = true ∧ fieldN w 64 8 = 1 ∧
        field w 80 10 = ch.rx) ∧
    u.reg (R.fabChReplay p.val c.val) = satAdd (s.reg (R.fabChReplay p.val c.val)) 1 ∧
    Only [.fab, .outs] [R.fabChReplay p.val c.val] s u

/-- R444, R448, R450, R487: a fabric port reset closes the session, clears the port's counts and begins its bring-up from
nothing. A write of FAB_PORT_CFG stores its fields; raising EN begins bring-up, lowering it leaves the port DISABLED with no
request. A port that the configuration lacks does not change. -/
def Sys2Proof.Claims.PortControl : Prop := ∀ (s : State) (p : Fin 16) (v : Word),
  let ctl := R.fabPortCtrl p.val
  let cfg := R.fabPortCfg p.val
  let fresh (u : State) : Prop := u.port p.val = ⟨.training, 0, none, none, false⟩ ∧
    ∀ k, k < 4 → u.chan p.val k = { ChanSt.init with state := .idle, ready := (s.chan p.val k).ready,
                                                     req := (s.chan p.val k).req || (s.chan p.val k).ready }
  (s.serve ctl = .ok →
    (s.build.ports ≤ p.val → Ends (.fabPortReset p) s fun u => Only [] [R.sesIdleTicks] s u) ∧
    (p.val < s.build.ports → s.portEn p.val = true → Ends (.fabPortReset p) s fun u =>
      fresh u ∧ u.session = false ∧ (∀ k, k < 4 → u.reg (R.fabChCrc p.val k) = 0 ∧ u.reg (R.fabChReplay p.val k) = 0) ∧
      (∀ q, q ≠ p.val → u.port q = s.port q) ∧ u.mem = s.mem ∧ u.board = s.board)) ∧
  (s.serve cfg = .ok →
    (s.build.ports ≤ p.val → Ends (.fabPortCfgWrite p v) s fun u => Only [] [R.sesIdleTicks] s u) ∧
    (p.val < s.build.ports → v.getLsbD 4 = s.portEn p.val → Ends (.fabPortCfgWrite p v) s fun u =>
      u.reg cfg = v &&& 0x0FFF003F#32 ∧ Only [] [R.sesIdleTicks, cfg] s u) ∧
    (p.val < s.build.ports → v.getLsbD 4 = true → s.portEn p.val = false → Ends (.fabPortCfgWrite p v) s fun u =>
      u.reg cfg = v &&& 0x0FFF003F#32 ∧ fresh u ∧ (∀ q, q ≠ p.val → u.port q = s.port q) ∧ u.mem = s.mem) ∧
    (p.val < s.build.ports → v.getLsbD 4 = false → s.portEn p.val = true → Ends (.fabPortCfgWrite p v) s fun u =>
      u.reg cfg = v &&& 0x0FFF003F#32 ∧ (u.port p.val).state = .disabled ∧
      (∀ k, k < 4 → (u.chan p.val k).req = false) ∧ u.mem = s.mem))

/-- Peer checks, training, retraining and port control. -/
def Obligations.PortBringUp : Prop :=
  Sys2Proof.Claims.PeerChecks ∧ Sys2Proof.Claims.Training ∧ Sys2Proof.Claims.Retrained ∧ Sys2Proof.Claims.PortControl

/-- R480, R481: a write of PBK_WR_CTRL.GO without a session starts nothing; one while the writer is busy waits. One in a session
with the writer free and nothing waiting starts a run: an image that does not lie in valid frames, or a flash that is not there,
ends it with ERR and the DONE post; a good image, from memory under UPDATE or made from the winning copy under RETIRED, is
taken for the copy that does not win, with the winner's GEN + 1, and the erases begin. With PBK_WR_CFG.EN a counter that holds
a count is taken down by one and starts a run, UPDATE first; without it, or while the writer is busy, nothing happens. -/
def Sys2Proof.Claims.WriterStarts : Prop := ∀ (s : State) (img : List Byte),
  let src := (s.reg R.pbkWrSrc).toNat
  let size := s.flash.copySize
  let done := s.regF R.pbkWrCfg 16 7
  let update := Instr.pbkWriteUpdate
  let retired := Instr.pbkWriteRetired
  let cu := s.regF R.pbkWrCfg 0 7
  let cr := s.regF R.pbkWrCfg 8 7
  let target : Bool := s.winner == some false
  let gen : BitVec 32 := match s.winner with | some b => s.flash.gen b + 1 | none => 1
  let len := (s.reg R.pbkWrLen).toNat
  let began (mode : Nat) (u : State) : Prop :=
    u.writer = ⟨mode, [], sealed img, s.flash.base target, gen, 0⟩ ∧ u.writerBusy = true ∧ u.writerPhase = 4 ∧
    u.regB R.pbkWrStatus 8 = target ∧ u.regF R.pbkWrStatus 4 4 = 0 ∧ u.flash = s.flash ∧ u.lines = s.lines
  let failed (err : Nat) (u : State) : Prop :=
    u.writerBusy = false ∧ u.regF R.pbkWrStatus 4 4 = err ∧ u.flash = s.flash ∧ u.lines = s.lines ∧
    (done < 64 → (s.cnt done).toNat < 0xFFFFF → (u.cnt done).toNat = (s.cnt done).toNat + 1)
  let fitsU := s.localRangeOk src size = true ∧ s.flash.found = true ∧ len ≤ size ∧ 40 ≤ len ∧
    (s.readPlain 0 src len).1 = (img, false) ∧ s.imageErr img = 0
  let fitsR := s.localRangeOk src size = true ∧ s.flash.found = true ∧
    (∃ b, s.winner = some b ∧ img = s.retiredImage (s.flash.image b)) ∧ img.length ≤ size ∧ s.imageErr img = 0
  (s.serve R.pbkWrCtrl = .ok → s.session = false → ∀ c, c = update ∨ c = retired → Ends c s fun u =>
    Only [] [R.sesIdleTicks] s u) ∧
  (s.serve R.pbkWrCtrl = .ok → s.session = true → s.writerBusy = true → ∀ c m, (c, m) = (update, 1) ∨ (c, m) = (retired, 2) →
    Ends c s fun u => u.writer = { s.writer with waits := s.writer.waits ++ [m] } ∧ Only [.writer] [R.sesIdleTicks] s u) ∧
  (s.serve R.pbkWrCtrl = .ok → s.session = true → s.writerBusy = false → s.writer.waits = [] →
    (s.localRangeOk src size = false → ∀ c, c = update ∨ c = retired → Ends c s (failed 1)) ∧
    (s.localRangeOk src size = true → s.flash.found = false → ∀ c, c = update ∨ c = retired → Ends c s (failed 6)) ∧
    (s.localRangeOk src size = true → s.flash.found = true → size < len ∨ len < 40 → Ends update s (failed 3)) ∧
    (fitsU → Ends update s (began 1)) ∧
    (s.safe = true → fitsR → Ends retired s fun u => began 2 u ∧
      ∀ i, i < img.length → u.mem.read (src + i) = listGet 0 img i)) ∧
  (s.phase ≠ .up ∨ 2 ≤ s.pstate ∨ s.regB R.pbkWrCfg 24 = false ∨ s.writerBusy = true → Ends .writerCounterStart s fun u =>
    u = s) ∧
  (s.phase = .up → s.pstate < 2 → s.regB R.pbkWrCfg 24 = true → s.writerBusy = false → s.writer.waits = [] →
    (cu < 64 → 1 ≤ (s.cnt cu).toNat → fitsU → Ends .writerCounterStart s fun u =>
      began 1 u ∧ (u.cnt cu).toNat + 1 = (s.cnt cu).toNat ∧ ∀ k, k ≠ cu → u.cnt k = s.cnt k) ∧
    (64 ≤ cu ∨ s.cnt cu = 0 → cr < 64 → 1 ≤ (s.cnt cr).toNat → fitsR → Ends .writerCounterStart s fun u =>
      began 2 u ∧ (u.cnt cr).toNat + 1 = (s.cnt cr).toNat ∧ ∀ k, k ≠ cr → u.cnt k = s.cnt k) ∧
    ((64 ≤ cu ∨ s.cnt cu = 0) → (64 ≤ cr ∨ s.cnt cr = 0) → Ends .writerCounterStart s fun u => u = s))

/-- R481, R482: each operation that the flash reports done takes the run on: an erase leaves its bytes 0xFF, a program clears
bits of the page of the image, the pair of GEN and its inverse comes last; the bytes of the other copy never change. The run
ends with no error, counted, when the pair reads back, with ERR 4 when the target does not, and with ERR 5 when an operation has not ended in 2^28 ticks, which
changes no byte of the flash; each end posts +1 to DONE. While the writer is free neither does anything. -/
def Sys2Proof.Claims.WriterSteps : Prop := ∀ s : State,
  let w := s.writer
  let f := s.flash
  let old (a : Nat) : Byte := NMap.get 0xFF#8 f.cells a
  let new (u : State) (a : Nat) : Byte := NMap.get 0xFF#8 u.flash.cells a
  let done := s.regF R.pbkWrCfg 16 7
  let erase := 2 ^ f.eraseLog
  let page := 2 ^ f.pageLog
  let pair := bytesOf 4 w.gen.toNat ++ bytesOf 4 (~~~w.gen).toNat
  let programmed (u : State) (at_ : Nat) (l : List Byte) : Prop :=
    ∀ a, new u a = if at_ ≤ a ∧ a < at_ + l.length then old a &&& listGet 0 l (a - at_) else old a
  let ended (err : Nat) (u : State) : Prop := u.writerBusy = false ∧ u.regF R.pbkWrStatus 4 4 = err ∧ u.lines = s.lines ∧
    (done < 64 → (s.cnt done).toNat < 0xFFFFF → (u.cnt done).toNat = (s.cnt done).toNat + 1)
  (s.writerBusy = false → (Ends .flashOpDone s fun u => u = s) ∧ Ends .writerTimeout s fun u => u = s) ∧
  (s.age s.flashTimer < 2 ^ 28 → Ends .writerTimeout s fun u => u = s) ∧
  (s.writerBusy = true → w.waits = [] →
    (2 ^ 28 ≤ s.age s.flashTimer → Ends .writerTimeout s fun u => ended 5 u ∧ u.flash = f ∧ u.writer = Writer.idle) ∧
    (s.writerPhase = 4 → Ends .flashOpDone s fun u =>
      (∀ a, new u a = if w.base + w.ops * erase ≤ a ∧ a < w.base + w.ops * erase + erase then 0xFF else old a) ∧
      u.writerBusy = true ∧ u.writerPhase = (if f.copySize ≤ (w.ops + 1) * erase then 5 else 4) ∧
      u.writer = { w with ops := if f.copySize ≤ (w.ops + 1) * erase then 0 else w.ops + 1 } ∧ u.board = s.board) ∧
    (s.writerPhase = 5 → Ends .flashOpDone s fun u =>
      let l := (w.image.drop (w.ops * page)).take page
      programmed u (w.base + w.ops * page) l ∧
      ((w.ops + 1) * page < w.image.length → u.writerBusy = true ∧ u.writerPhase = 5 ∧
        u.writer = { w with ops := w.ops + 1 } ∧ u.board = s.board) ∧
      (w.image.length ≤ (w.ops + 1) * page →
        (u.flash.bytes w.base w.image.length = w.image → u.writerBusy = true ∧ u.writerPhase = 7 ∧ u.board = s.board) ∧
        (u.flash.bytes w.base w.image.length ≠ w.image → ended 4 u))) ∧
    (s.writerPhase = 7 → Ends .flashOpDone s fun u =>
      programmed u (w.base + 12) pair ∧
      (u.flash.bytes (w.base + 12) 8 = pair → ended 0 u ∧ u.reg R.pbkWrCount = s.reg R.pbkWrCount + 1) ∧
      (u.flash.bytes (w.base + 12) 8 ≠ pair → ended 4 u ∧ u.reg R.pbkWrCount = s.reg R.pbkWrCount)))

/-- The prompt-book writer. -/
def Obligations.BookWriter : Prop :=
  Sys2Proof.Claims.WriterStarts ∧ Sys2Proof.Claims.WriterSteps

/-- R461, R493, R520: a soft reset asked for in a session while none runs sets SOFT_BUSY, ends a freeze and makes every
line RESETTING; what is queued goes and what has started will make no posts. Without a session, with a data bit 0 of 0, and while one runs, nothing
happens. -/
def Sys2Proof.Claims.SoftReset : Prop := ∀ (s : State) (v : Word), s.serve R.ctlSoftReset = .ok →
  (s.session = false ∨ v.getLsbD 0 = false ∨ s.softBusy = true → Ends (.softReset v) s fun u => Only [] [R.sesIdleTicks] s u) ∧
  (s.session = true → v.getLsbD 0 = true → s.softBusy = false → Ends (.softReset v) s fun u =>
    u.softBusy = true ∧ u.frozen = false ∧ (∀ l, (u.line l).resetting = true ∧ (u.line l).taken = none) ∧
    (∀ f ∈ u.flights, f.stage ≠ .queued ∧ f.silent = true) ∧ u.board = s.board ∧ u.mem = s.mem ∧ u.prop = s.prop ∧
    u.fab = s.fab ∧ u.exch = s.exch)

/-- R178, R269, R325, R415, R493, R501: a soft reset ends once no run or kernel is left, here with
none left, every cue silenced as R493 began, and no write of LINE_RING that waits: no cue, transfer, queue, count, tree or
line state stays; entries lose bytes 44 to 127; ARR_MODE and ARR_PARTITION, the session and the halt records are as after
reset, and the count of soft resets rises. Memory, handles, links, the fault log and the host's configuration stay. -/
def Sys2Proof.Claims.SoftResetEnds : Prop := ∀ s : State, (∀ l, (s.line l).ringAt = []) →
  (s.softBusy = false → Ends .softResetDone s fun u => u = s) ∧
  (s.softBusy = true → (∀ f ∈ s.flights, f.silent = true) → (∀ k, k < s.build.units → (s.unit k).run = none) →
    Ends .softResetDone s fun u =>
    u.softBusy = false ∧ u.flights = [] ∧ u.queues = [] ∧ u.fly = [] ∧ u.board = ⟨[], []⟩ ∧
    (∀ l, (u.line l).halted = false ∧ (u.line l).resetting = false ∧ (u.line l).loops = [] ∧ (u.line l).taken = none ∧
      u.reg (R.lineHaltReason l.idx) = 0) ∧
    (∀ b, (∀ i, i < 352 → (u.bucket b).getLsbD i = (s.bucket b).getLsbD i) ∧
      ∀ i, 352 ≤ i → (u.bucket b).getLsbD i = false) ∧
    u.exch.ops = [] ∧ u.exch.syncs = [] ∧ u.exch.run = none ∧ u.exch.replay = s.exch.replay ∧
    u.session = false ∧ u.arr.mode = Arr.reset.mode ∧ u.arr.split = Arr.reset.split ∧ u.mem.cells = s.mem.cells ∧
    u.prop.handles = s.prop.handles ∧ u.fab.ports = s.fab.ports ∧ u.fab.chans = s.fab.chans ∧
    u.rep = s.rep ∧ u.secret.key = s.secret.key ∧ u.reg R.fltWr = s.reg R.fltWr ∧ u.reg R.pwrLimit = s.reg R.pwrLimit ∧
    u.coreId = s.coreId ∧
    u.reg R.rstCountSoft = s.reg R.rstCountSoft + 1)

/-- Soft reset: start and end. -/
def Obligations.SoftReset : Prop :=
  Sys2Proof.Claims.SoftReset ∧ Sys2Proof.Claims.SoftResetEnds

/-- R495, R496: Run becomes Idle, and nothing else changes, while no line is RUNNING or STALLED and no engine has work; else
nothing happens. -/
def Sys2Proof.Claims.IdleEntry : Prop := ∀ s : State,
  let busy := (∃ l, (s.lineState l).1 = 2 ∨ (s.lineState l).1 = 4) ∨ s.engineWork = true
  (s.phase = .up → s.pstate = 0 → ¬busy → Ends .idleEntry s fun u => u.pstate = 1 ∧ Only [] [R.pwrStatus] s u) ∧
  (s.phase ≠ .up ∨ s.pstate ≠ 0 ∨ busy → Ends .idleEntry s fun u => u = s)

/-- R497, R498, R499: a Drowse request in Run or Idle is refused with the first failing condition as WHY, or else begins
Entering: READY falls and the session closes. Outside Run and Idle it is ignored. Entering that has drained ends in Drowse,
engines and links down, 550 mV asked for and the interrupt raised; writes that have not landed are lost (R225). One that has not
drained waits, and is abandoned after 2^20 ticks, with WHY 5 and READY back. -/
def Sys2Proof.Claims.DrowseEntry : Prop := ∀ s : State,
  let lineBusy : Bool := (allLines.any fun l => !([0, 1, 5] : List Nat).contains (s.lineState l).1) || !s.flights.isEmpty
  let curtain : Bool := (List.range 16).any fun k => (s.tree k).pending || !(s.tree k).early.isEmpty
  let why := if lineBusy then 1 else if curtain then 2 else if s.softBusy then 3 else if s.writerBusy then 4
    else if s.frozen then 6 else 0
  let drained := s.prop.ins = [] ∧ s.prop.outs = [] ∧ s.prop.moves = [] ∧ s.prop.demand = [] ∧ s.exch.ops = [] ∧
    s.exch.syncs = []
  (s.serve R.pwrCtrl = .ok →
    (s.phase ≠ .up ∨ 2 ≤ s.pstate → Ends .drowseRequest s fun u => Only [] [R.sesIdleTicks] s u) ∧
    (s.phase = .up → s.pstate < 2 → why ≠ 0 → Ends .drowseRequest s fun u =>
      u.regB R.pwrStatus 3 = true ∧ u.regF R.pwrStatus 4 3 = why ∧ u.pstate = s.pstate ∧
      Only [] [R.sesIdleTicks, R.pwrStatus] s u) ∧
    (s.phase = .up → s.pstate < 2 → why = 0 → Ends .drowseRequest s fun u =>
      u.pstate = 2 ∧ u.regB R.ctlStatus 0 = false ∧ u.session = false ∧ KeptBut [.ctlR, .doorR, .powerR] s u)) ∧
  (s.pstate ≠ 2 ∨ ¬drained → Ends .drowseEntry s fun u => u = s) ∧
  (s.pstate = 2 → drained → Ends .drowseEntry s fun u =>
    u.pstate = 3 ∧ u.regF R.pwrVreq 0 10 = 550 ∧ u.regB R.ctlIrqPend 6 = true ∧ u.mem = { s.mem with wq := [] } ∧ u.cho = [] ∧
    u.fly = [] ∧ u.arr.mode = s.arr.mode ∧ u.arr.split = s.arr.split ∧ u.prop.hints = [] ∧ u.prop.pages = s.prop.pages ∧ (∀ p, u.portUp p = false) ∧ u.prop.handles = s.prop.handles ∧ u.board = s.board ∧ u.lines = s.lines ∧
    u.exch = s.exch ∧ u.trackers = s.trackers ∧ u.secret.key = s.secret.key) ∧
  (s.pstate ≠ 2 ∨ s.age .drowse < 2 ^ 20 → Ends .drowseEntryTimeout s fun u => u = s) ∧
  (s.pstate = 2 → 2 ^ 20 ≤ s.age .drowse → Ends .drowseEntryTimeout s fun u =>
    u.pstate = 0 ∧ u.regB R.pwrStatus 3 = true ∧ u.regF R.pwrStatus 4 3 = 5 ∧ u.regB R.ctlStatus 0 = true ∧
    Only [] [R.pwrStatus, R.ctlStatus] s u)

/-- R444, R498, R499, R525: WAKE outside Drowse is ignored. In Drowse it begins Waking: the watch list is empty and every port in
use trains again, its retired channels apart; a shadow that fails its check is core fatal. Waking ends in Run once every port
in use has an outcome, with READY, ARMED and the interrupt. -/
def Sys2Proof.Claims.Waking : Prop := ∀ (s : State) (ok : Bool),
  let settled := ∀ p, p < s.build.ports → s.portSettled p = true
  (s.serve R.pwrCtrl = .ok →
    (s.pstate ≠ 3 → Ends (.wake ok) s fun u => Only [] [R.sesIdleTicks] s u) ∧
    (s.pstate = 3 → Ends (.wake ok) s fun u =>
      u.pstate = 4 ∧ u.mem = { s.mem with watch := [] } ∧ u.prop = s.prop ∧ u.board = s.board ∧
      (∀ p, p < s.build.ports → s.portEn p = true → (∃ c, c < 4 ∧ (s.chan p c).state ≠ .retired) →
        (u.port p).state = .training) ∧
      (ok = true → u.lines = s.lines ∧ u.fatal = s.fatal) ∧ (ok = false → u.fatal = true))) ∧
  (s.pstate ≠ 4 ∨ ¬settled → Ends .wakingComplete s fun u => u = s) ∧
  (s.pstate = 4 → settled → Ends .wakingComplete s fun u =>
    u.pstate = 0 ∧ u.regB R.ctlStatus 0 = true ∧ u.regB R.tabStatus 0 = true ∧ u.regB R.rstCause 3 = true ∧
    u.regB R.ctlIrqPend 0 = true ∧ Only [] [R.pwrStatus, R.ctlStatus, R.tabStatus, R.rstCause, R.ctlIrqPend] s u)

/-- R505 to R509: a write of PWR_VREQ stores the voltage, or the nearer of 620 and 880 with VREQ_CLAMP set, and a change
raises the interrupt. A power estimate enters PWR_EST and its parts; above LIMIT it sets GOV_HOLD, and at or below LIMIT less
HYST it ends it. A window of the replica enters PWR_PACE in Run, Idle and Entering. Every 100 ticks the ramp allowance rises by
BANKS_PER_US up to its cap, and no bank counts as fallen asleep. -/
def Sys2Proof.Claims.PowerMeters : Prop := ∀ (s : State) (v : Word) (a c m o t n : BitVec 16),
  let mv := fieldN v 0 10
  let stored := max 620 (min 880 mv)
  let total := min 0xFFFF (a.toNat + c.toNat + m.toNat + o.toNat)
  let running := s.phase = .keyWait ∨ s.phase = .bringUp ∨ s.phase = .up
  let limit := s.regF R.pwrLimit 0 16
  let hyst := s.regF R.pwrLimit 16 16
  let banks := s.regF R.pwrRamp 0 6
  (s.serve R.pwrVreq = .ok → Ends (.pwrVreqWrite v) s fun u =>
    u.regF R.pwrVreq 0 10 = stored ∧ u.regB R.pwrStatus 9 = (s.regB R.pwrStatus 9 || decide (mv < 620 ∨ 880 < mv)) ∧
    (s.regF R.pwrVreq 0 10 ≠ stored → u.regB R.ctlIrqPend 6 = true) ∧
    (s.regF R.pwrVreq 0 10 = stored → u.reg R.ctlIrqPend = s.reg R.ctlIrqPend) ∧
    Only [] [R.sesIdleTicks, R.pwrVreq, R.pwrStatus, R.ctlIrqPend] s u) ∧
  (¬running → Ends (.powerEstimate a c m o t) s fun u => u = s) ∧
  (running → Ends (.powerEstimate a c m o t) s fun u =>
    u.regF R.pwrEst 0 16 = total ∧ u.regF R.pwrEstParts0 0 16 = a.toNat ∧ u.regF R.pwrEstParts0 16 16 = c.toNat ∧
    u.regF R.pwrEstParts1 0 16 = m.toNat ∧ u.regF R.pwrEstParts1 16 16 = o.toNat ∧ u.regF R.pwrTemp 0 16 = t.toNat ∧
    u.regB R.pwrStatus 7 = (if limit < total then true else if total + hyst ≤ limit then false else s.regB R.pwrStatus 7) ∧
    Only [] [R.pwrEst, R.pwrEstParts0, R.pwrEstParts1, R.pwrTemp, R.pwrStatus] s u) ∧
  (s.phase = .up → s.pstate < 3 → Ends (.paceWindow n) s fun u =>
    u.regF R.pwrPace 0 16 = n.toNat ∧ Only [] [R.pwrPace] s u) ∧
  (s.phase ≠ .up ∨ 3 ≤ s.pstate → Ends (.paceWindow n) s fun u => u = s) ∧
  (Ends .rampAllowance s fun u => u.arr.allow = min (s.arr.allow + banks) (max banks s.arr.want) ∧ u.arr.slept = 0 ∧
    Only [.arr] [] s u)

/-- Idle, Drowse, waking and the power meters. -/
def Obligations.PowerStates : Prop :=
  Sys2Proof.Claims.IdleEntry ∧ Sys2Proof.Claims.DrowseEntry ∧ Sys2Proof.Claims.Waking ∧ Sys2Proof.Claims.PowerMeters
end

