-- ==== Sys2Proof/Laws/State.lean ====
section
/-! SUPPORT. Laws of the state's accessors: lookup after update in the keyed lists, registers after a register write, and one
lemma per field per update. -/

namespace Sys2Proof.Machine

/-! Keyed lists. -/

@[simp] theorem NMap.get_nil {α : Type} (d : α) (k : Nat) : NMap.get d [] k = d := rfl

theorem NMap.get_put {α : Type} (d : α) (m : NMap α) (k j : Nat) (v : α) :
    NMap.get d (NMap.put m k v) j = if j = k then v else NMap.get d m j := by
  induction m with
  | nil => rfl
  | cons x m ih =>
    obtain ⟨a, w⟩ := x
    unfold NMap.put
    split
    · rfl
    · split
      · subst a; simp only [NMap.get]; split <;> rfl
      · simp only [NMap.get, ih]; repeat' split
        all_goals first | rfl | omega

theorem NMap.get_del {α : Type} (d : α) (m : NMap α) (k j : Nat) :
    NMap.get d (NMap.del m k) j = if j = k then d else NMap.get d m j := by
  induction m with
  | nil => simp [NMap.del, NMap.get]
  | cons x m ih =>
    obtain ⟨a, w⟩ := x
    simp only [NMap.del, List.filter_cons, bne_iff_ne] at ih ⊢
    by_cases h : a = k
    · subst a; simp only [ne_eq, not_true_eq_false, if_false, ih, NMap.get]; split <;> rfl
    · rw [if_pos h]; simp only [NMap.get, ih]; repeat' split
      all_goals first | rfl | omega

/-- Lookup after an update. -/
theorem NMap.get_set {α : Type} [DecidableEq α] (d : α) (m : NMap α) (k j : Nat) (v : α) :
    NMap.get d (NMap.set d m k v) j = if j = k then v else NMap.get d m j := by
  unfold NMap.set
  split
  · subst v; exact NMap.get_del d m k j
  · exact NMap.get_put d m k j v

@[simp] theorem NMap.get_set_self {α : Type} [DecidableEq α] (d : α) (m : NMap α) (k : Nat) (v : α) :
    NMap.get d (NMap.set d m k v) k = v := by rw [NMap.get_set, if_pos rfl]

theorem NMap.get_set_ne {α : Type} [DecidableEq α] (d : α) (m : NMap α) {k j : Nat} (v : α) (h : j ≠ k) :
    NMap.get d (NMap.set d m k v) j = NMap.get d m j := by rw [NMap.get_set, if_neg h]

/-! The register file. -/

theorem State.reg_setReg (s : State) (o p : Nat) (v : Word) : (s.setReg o v).reg p = if p = o then v else s.reg p := by
  by_cases h : p = o
  · subst h
    rw [if_pos rfl]
    exact NMap.get_set_self _ _ _ _
  · rw [if_neg h]
    show NMap.get (regReset s.build p) (NMap.set (regReset s.build o) s.regs o v) p = _
    unfold NMap.set
    split
    · rw [NMap.get_del, if_neg h]; rfl
    · rw [NMap.get_put, if_neg h]; rfl

@[simp] theorem State.reg_setReg_self (s : State) (o : Nat) (v : Word) : (s.setReg o v).reg o = v := by
  rw [State.reg_setReg, if_pos rfl]

theorem State.reg_setReg_ne (s : State) {o p : Nat} (v : Word) (h : p ≠ o) : (s.setReg o v).reg p = s.reg p := by
  rw [State.reg_setReg, if_neg h]

/-- A register depends on the register file and the build only. -/
theorem State.reg_congr {s t : State} (h : t.regs = s.regs) (b : t.build = s.build) (o : Nat) : t.reg o = s.reg o := by
  unfold State.reg; rw [h, b]

/-! Bits and fields of a register. -/

theorem bit_setField (x : Word) (lo w v i : Nat) (h : i < 32) :
    bit ((x &&& ~~~(BitVec.ofNat 32 ((2 ^ w - 1) <<< lo))) ||| (BitVec.ofNat 32 ((v % 2 ^ w) <<< lo))) i =
      if lo ≤ i ∧ i < lo + w then v.testBit (i - lo) else bit x i := by
  unfold bit
  simp only [BitVec.getLsbD_or, BitVec.getLsbD_and, BitVec.getLsbD_not, BitVec.getLsbD_ofNat, h, decide_true, Bool.true_and,
    Nat.testBit_shiftLeft, Nat.testBit_two_pow_sub_one, Nat.testBit_mod_two_pow, ge_iff_le]
  by_cases a : lo ≤ i
  · by_cases b : i < lo + w
    · have : i - lo < w := by omega
      simp [a, b, this]
    · have : ¬ i - lo < w := by omega
      simp [a, b, this]
  · simp [a]

theorem State.reg_setF (s : State) (o lo w v p : Nat) : (s.setF o lo w v).reg p = if p = o then (s.setF o lo w v).reg o else s.reg p := by
  unfold State.setF
  rw [State.reg_setReg]
  split
  · rename_i h; rw [State.reg_setReg_self]
  · rfl

theorem State.reg_setF_ne (s : State) {o p : Nat} (lo w v : Nat) (h : p ≠ o) : (s.setF o lo w v).reg p = s.reg p :=
  State.reg_setReg_ne s _ h

theorem State.reg_setB_ne (s : State) {o p : Nat} (i : Nat) (b : Bool) (h : p ≠ o) : (s.setB o i b).reg p = s.reg p :=
  State.reg_setReg_ne s _ h

theorem State.reg_count_ne (s : State) {o p : Nat} (n : Nat) (h : p ≠ o) : (s.count o n).reg p = s.reg p :=
  State.reg_setReg_ne s _ h

theorem State.reg_countMod_ne (s : State) {o p : Nat} (n : Nat) (h : p ≠ o) : (s.countMod o n).reg p = s.reg p :=
  State.reg_setReg_ne s _ h

@[simp] theorem State.reg_count_self (s : State) (o n : Nat) : (s.count o n).reg o = satAdd (s.reg o) n :=
  State.reg_setReg_self _ _ _

@[simp] theorem State.reg_countMod_self (s : State) (o n : Nat) : (s.countMod o n).reg o = s.reg o + BitVec.ofNat 32 n :=
  State.reg_setReg_self _ _ _

/-- A bit of a register after a field of it was written. -/
theorem State.regB_setF (s : State) (o lo w v i : Nat) (h : i < 32) :
    (s.setF o lo w v).regB o i = if lo ≤ i ∧ i < lo + w then v.testBit (i - lo) else s.regB o i := by
  unfold State.regB State.setF
  rw [State.reg_setReg_self]
  exact bit_setField _ _ _ _ _ h

theorem State.regB_setB (s : State) (o i j : Nat) (b : Bool) (h : j < 32) :
    (s.setB o i b).regB o j = if j = i then b else s.regB o j := by
  unfold State.setB
  rw [State.regB_setF _ _ _ _ _ _ h]
  by_cases e : j = i
  · subst e; cases b <;> simp
  · rw [if_neg (by omega), if_neg e]

theorem fieldN_eq_of_bits {n : Nat} {x : BitVec n} {lo w v : Nat} (h : ∀ i, i < w → x.getLsbD (lo + i) = v.testBit i) :
    fieldN x lo w = v % 2 ^ w := by
  unfold fieldN
  apply Nat.eq_of_testBit_eq
  intro i
  simp only [Nat.testBit_mod_two_pow, Nat.testBit_shiftRight]
  by_cases a : i < w
  · have := h i a
    simpa [a, BitVec.getLsbD] using this
  · simp [a]

theorem State.regF_setF (s : State) (o lo w v : Nat) (h : lo + w ≤ 32) : (s.setF o lo w v).regF o lo w = v % 2 ^ w := by
  unfold State.regF
  refine fieldN_eq_of_bits fun i hi => ?_
  have := s.regB_setF o lo w v (lo + i) (by omega)
  rw [if_pos (by omega), Nat.add_sub_cancel_left] at this
  exact this

theorem fieldN_congr {x y : Word} {lo w : Nat} (h : ∀ i, lo ≤ i → i < lo + w → bit x i = bit y i) : fieldN x lo w = fieldN y lo w := by
  unfold fieldN
  apply Nat.eq_of_testBit_eq
  intro i
  simp only [Nat.testBit_mod_two_pow, Nat.testBit_shiftRight]
  by_cases a : i < w
  · have := h (lo + i) (by omega) (by omega)
    simpa [a, bit, BitVec.getLsbD] using this
  · simp [a]

/-- A field of a register after another field of it was written. -/
theorem State.regF_setF_ne (s : State) (o lo w v lo' w' : Nat) (d : lo' + w' ≤ lo ∨ lo + w ≤ lo') (h : lo' + w' ≤ 32) :
    (s.setF o lo w v).regF o lo' w' = s.regF o lo' w' := by
  unfold State.regF
  refine fieldN_congr fun i a b => ?_
  have := s.regB_setF o lo w v i (by omega)
  rw [if_neg (by omega)] at this
  exact this

/-! One lemma per field per update. -/

@[simp] theorem State.setReg_build (s : State) (o : Nat) (v : Word) : (s.setReg o v).build = s.build := rfl
@[simp] theorem State.setReg_phase (s : State) (o : Nat) (v : Word) : (s.setReg o v).phase = s.phase := rfl
@[simp] theorem State.setReg_pins (s : State) (o : Nat) (v : Word) : (s.setReg o v).pins = s.pins := rfl
@[simp] theorem State.setReg_secret (s : State) (o : Nat) (v : Word) : (s.setReg o v).secret = s.secret := rfl
@[simp] theorem State.setReg_tick (s : State) (o : Nat) (v : Word) : (s.setReg o v).tick = s.tick := rfl
@[simp] theorem State.setReg_latches (s : State) (o : Nat) (v : Word) : (s.setReg o v).latches = s.latches := rfl
@[simp] theorem State.setReg_lines (s : State) (o : Nat) (v : Word) : (s.setReg o v).lines = s.lines := rfl
@[simp] theorem State.setReg_fetchers (s : State) (o : Nat) (v : Word) : (s.setReg o v).fetchers = s.fetchers := rfl
@[simp] theorem State.setReg_flights (s : State) (o : Nat) (v : Word) : (s.setReg o v).flights = s.flights := rfl
@[simp] theorem State.setReg_queues (s : State) (o : Nat) (v : Word) : (s.setReg o v).queues = s.queues := rfl
@[simp] theorem State.setReg_board (s : State) (o : Nat) (v : Word) : (s.setReg o v).board = s.board := rfl
@[simp] theorem State.setReg_trackers (s : State) (o : Nat) (v : Word) : (s.setReg o v).trackers = s.trackers := rfl
@[simp] theorem State.setReg_mem (s : State) (o : Nat) (v : Word) : (s.setReg o v).mem = s.mem := rfl
@[simp] theorem State.setReg_prop (s : State) (o : Nat) (v : Word) : (s.setReg o v).prop = s.prop := rfl
@[simp] theorem State.setReg_bs (s : State) (o : Nat) (v : Word) : (s.setReg o v).bs = s.bs := rfl
@[simp] theorem State.setReg_fab (s : State) (o : Nat) (v : Word) : (s.setReg o v).fab = s.fab := rfl
@[simp] theorem State.setReg_arr (s : State) (o : Nat) (v : Word) : (s.setReg o v).arr = s.arr := rfl
@[simp] theorem State.setReg_cho (s : State) (o : Nat) (v : Word) : (s.setReg o v).cho = s.cho := rfl
@[simp] theorem State.setReg_gangs (s : State) (o : Nat) (v : Word) : (s.setReg o v).gangs = s.gangs := rfl
@[simp] theorem State.setReg_lanes (s : State) (o : Nat) (v : Word) : (s.setReg o v).lanes = s.lanes := rfl
@[simp] theorem State.setReg_fly (s : State) (o : Nat) (v : Word) : (s.setReg o v).fly = s.fly := rfl
@[simp] theorem State.setReg_exch (s : State) (o : Nat) (v : Word) : (s.setReg o v).exch = s.exch := rfl
@[simp] theorem State.setReg_flash (s : State) (o : Nat) (v : Word) : (s.setReg o v).flash = s.flash := rfl
@[simp] theorem State.setReg_writer (s : State) (o : Nat) (v : Word) : (s.setReg o v).writer = s.writer := rfl
@[simp] theorem State.setReg_tab (s : State) (o : Nat) (v : Word) : (s.setReg o v).tab = s.tab := rfl
@[simp] theorem State.setReg_rep (s : State) (o : Nat) (v : Word) : (s.setReg o v).rep = s.rep := rfl
@[simp] theorem State.setReg_repBad (s : State) (o : Nat) (v : Word) : (s.setReg o v).repBad = s.repBad := rfl
@[simp] theorem State.setReg_outs (s : State) (o : Nat) (v : Word) : (s.setReg o v).outs = s.outs := rfl
@[simp] theorem State.setReg_timers (s : State) (o : Nat) (v : Word) : (s.setReg o v).timers = s.timers := rfl
@[simp] theorem State.setReg_trig (s : State) (o : Nat) (v : Word) : (s.setReg o v).trig = s.trig := rfl
@[simp] theorem State.setReg_freeCtr (s : State) (o : Nat) (v : Word) : (s.setReg o v).freeCtr = s.freeCtr := rfl
@[simp] theorem State.setReg_nextUid (s : State) (o : Nat) (v : Word) : (s.setReg o v).nextUid = s.nextUid := rfl
@[simp] theorem State.setReg_nextTag (s : State) (o : Nat) (v : Word) : (s.setReg o v).nextTag = s.nextTag := rfl
@[simp] theorem State.setReg_pending (s : State) (o : Nat) (v : Word) : (s.setReg o v).pending = s.pending := rfl

@[simp] theorem State.setF_build (s : State) (o lo w v : Nat) : (s.setF o lo w v).build = s.build := rfl
@[simp] theorem State.setF_phase (s : State) (o lo w v : Nat) : (s.setF o lo w v).phase = s.phase := rfl
@[simp] theorem State.setF_pins (s : State) (o lo w v : Nat) : (s.setF o lo w v).pins = s.pins := rfl
@[simp] theorem State.setF_secret (s : State) (o lo w v : Nat) : (s.setF o lo w v).secret = s.secret := rfl
@[simp] theorem State.setF_tick (s : State) (o lo w v : Nat) : (s.setF o lo w v).tick = s.tick := rfl
@[simp] theorem State.setF_latches (s : State) (o lo w v : Nat) : (s.setF o lo w v).latches = s.latches := rfl
@[simp] theorem State.setF_lines (s : State) (o lo w v : Nat) : (s.setF o lo w v).lines = s.lines := rfl
@[simp] theorem State.setF_fetchers (s : State) (o lo w v : Nat) : (s.setF o lo w v).fetchers = s.fetchers := rfl
@[simp] theorem State.setF_flights (s : State) (o lo w v : Nat) : (s.setF o lo w v).flights = s.flights := rfl
@[simp] theorem State.setF_queues (s : State) (o lo w v : Nat) : (s.setF o lo w v).queues = s.queues := rfl
@[simp] theorem State.setF_board (s : State) (o lo w v : Nat) : (s.setF o lo w v).board = s.board := rfl
@[simp] theorem State.setF_trackers (s : State) (o lo w v : Nat) : (s.setF o lo w v).trackers = s.trackers := rfl
@[simp] theorem State.setF_mem (s : State) (o lo w v : Nat) : (s.setF o lo w v).mem = s.mem := rfl
@[simp] theorem State.setF_prop (s : State) (o lo w v : Nat) : (s.setF o lo w v).prop = s.prop := rfl
@[simp] theorem State.setF_bs (s : State) (o lo w v : Nat) : (s.setF o lo w v).bs = s.bs := rfl
@[simp] theorem State.setF_fab (s : State) (o lo w v : Nat) : (s.setF o lo w v).fab = s.fab := rfl
@[simp] theorem State.setF_arr (s : State) (o lo w v : Nat) : (s.setF o lo w v).arr = s.arr := rfl
@[simp] theorem State.setF_cho (s : State) (o lo w v : Nat) : (s.setF o lo w v).cho = s.cho := rfl
@[simp] theorem State.setF_gangs (s : State) (o lo w v : Nat) : (s.setF o lo w v).gangs = s.gangs := rfl
@[simp] theorem State.setF_lanes (s : State) (o lo w v : Nat) : (s.setF o lo w v).lanes = s.lanes := rfl
@[simp] theorem State.setF_fly (s : State) (o lo w v : Nat) : (s.setF o lo w v).fly = s.fly := rfl
@[simp] theorem State.setF_exch (s : State) (o lo w v : Nat) : (s.setF o lo w v).exch = s.exch := rfl
@[simp] theorem State.setF_flash (s : State) (o lo w v : Nat) : (s.setF o lo w v).flash = s.flash := rfl
@[simp] theorem State.setF_writer (s : State) (o lo w v : Nat) : (s.setF o lo w v).writer = s.writer := rfl
@[simp] theorem State.setF_tab (s : State) (o lo w v : Nat) : (s.setF o lo w v).tab = s.tab := rfl
@[simp] theorem State.setF_rep (s : State) (o lo w v : Nat) : (s.setF o lo w v).rep = s.rep := rfl
@[simp] theorem State.setF_repBad (s : State) (o lo w v : Nat) : (s.setF o lo w v).repBad = s.repBad := rfl
@[simp] theorem State.setF_outs (s : State) (o lo w v : Nat) : (s.setF o lo w v).outs = s.outs := rfl
@[simp] theorem State.setF_timers (s : State) (o lo w v : Nat) : (s.setF o lo w v).timers = s.timers := rfl
@[simp] theorem State.setF_trig (s : State) (o lo w v : Nat) : (s.setF o lo w v).trig = s.trig := rfl
@[simp] theorem State.setF_freeCtr (s : State) (o lo w v : Nat) : (s.setF o lo w v).freeCtr = s.freeCtr := rfl
@[simp] theorem State.setF_nextUid (s : State) (o lo w v : Nat) : (s.setF o lo w v).nextUid = s.nextUid := rfl
@[simp] theorem State.setF_nextTag (s : State) (o lo w v : Nat) : (s.setF o lo w v).nextTag = s.nextTag := rfl
@[simp] theorem State.setF_pending (s : State) (o lo w v : Nat) : (s.setF o lo w v).pending = s.pending := rfl

@[simp] theorem State.setB_build (s : State) (o i : Nat) (b : Bool) : (s.setB o i b).build = s.build := rfl
@[simp] theorem State.setB_phase (s : State) (o i : Nat) (b : Bool) : (s.setB o i b).phase = s.phase := rfl
@[simp] theorem State.setB_pins (s : State) (o i : Nat) (b : Bool) : (s.setB o i b).pins = s.pins := rfl
@[simp] theorem State.setB_secret (s : State) (o i : Nat) (b : Bool) : (s.setB o i b).secret = s.secret := rfl
@[simp] theorem State.setB_tick (s : State) (o i : Nat) (b : Bool) : (s.setB o i b).tick = s.tick := rfl
@[simp] theorem State.setB_latches (s : State) (o i : Nat) (b : Bool) : (s.setB o i b).latches = s.latches := rfl
@[simp] theorem State.setB_lines (s : State) (o i : Nat) (b : Bool) : (s.setB o i b).lines = s.lines := rfl
@[simp] theorem State.setB_fetchers (s : State) (o i : Nat) (b : Bool) : (s.setB o i b).fetchers = s.fetchers := rfl
@[simp] theorem State.setB_flights (s : State) (o i : Nat) (b : Bool) : (s.setB o i b).flights = s.flights := rfl
@[simp] theorem State.setB_queues (s : State) (o i : Nat) (b : Bool) : (s.setB o i b).queues = s.queues := rfl
@[simp] theorem State.setB_board (s : State) (o i : Nat) (b : Bool) : (s.setB o i b).board = s.board := rfl
@[simp] theorem State.setB_trackers (s : State) (o i : Nat) (b : Bool) : (s.setB o i b).trackers = s.trackers := rfl
@[simp] theorem State.setB_mem (s : State) (o i : Nat) (b : Bool) : (s.setB o i b).mem = s.mem := rfl
@[simp] theorem State.setB_prop (s : State) (o i : Nat) (b : Bool) : (s.setB o i b).prop = s.prop := rfl
@[simp] theorem State.setB_bs (s : State) (o i : Nat) (b : Bool) : (s.setB o i b).bs = s.bs := rfl
@[simp] theorem State.setB_fab (s : State) (o i : Nat) (b : Bool) : (s.setB o i b).fab = s.fab := rfl
@[simp] theorem State.setB_arr (s : State) (o i : Nat) (b : Bool) : (s.setB o i b).arr = s.arr := rfl
@[simp] theorem State.setB_cho (s : State) (o i : Nat) (b : Bool) : (s.setB o i b).cho = s.cho := rfl
@[simp] theorem State.setB_gangs (s : State) (o i : Nat) (b : Bool) : (s.setB o i b).gangs = s.gangs := rfl
@[simp] theorem State.setB_lanes (s : State) (o i : Nat) (b : Bool) : (s.setB o i b).lanes = s.lanes := rfl
@[simp] theorem State.setB_fly (s : State) (o i : Nat) (b : Bool) : (s.setB o i b).fly = s.fly := rfl
@[simp] theorem State.setB_exch (s : State) (o i : Nat) (b : Bool) : (s.setB o i b).exch = s.exch := rfl
@[simp] theorem State.setB_flash (s : State) (o i : Nat) (b : Bool) : (s.setB o i b).flash = s.flash := rfl
@[simp] theorem State.setB_writer (s : State) (o i : Nat) (b : Bool) : (s.setB o i b).writer = s.writer := rfl
@[simp] theorem State.setB_tab (s : State) (o i : Nat) (b : Bool) : (s.setB o i b).tab = s.tab := rfl
@[simp] theorem State.setB_rep (s : State) (o i : Nat) (b : Bool) : (s.setB o i b).rep = s.rep := rfl
@[simp] theorem State.setB_repBad (s : State) (o i : Nat) (b : Bool) : (s.setB o i b).repBad = s.repBad := rfl
@[simp] theorem State.setB_outs (s : State) (o i : Nat) (b : Bool) : (s.setB o i b).outs = s.outs := rfl
@[simp] theorem State.setB_timers (s : State) (o i : Nat) (b : Bool) : (s.setB o i b).timers = s.timers := rfl
@[simp] theorem State.setB_trig (s : State) (o i : Nat) (b : Bool) : (s.setB o i b).trig = s.trig := rfl
@[simp] theorem State.setB_freeCtr (s : State) (o i : Nat) (b : Bool) : (s.setB o i b).freeCtr = s.freeCtr := rfl
@[simp] theorem State.setB_nextUid (s : State) (o i : Nat) (b : Bool) : (s.setB o i b).nextUid = s.nextUid := rfl
@[simp] theorem State.setB_nextTag (s : State) (o i : Nat) (b : Bool) : (s.setB o i b).nextTag = s.nextTag := rfl
@[simp] theorem State.setB_pending (s : State) (o i : Nat) (b : Bool) : (s.setB o i b).pending = s.pending := rfl

@[simp] theorem State.count_build (s : State) (o n : Nat) : (s.count o n).build = s.build := rfl
@[simp] theorem State.count_phase (s : State) (o n : Nat) : (s.count o n).phase = s.phase := rfl
@[simp] theorem State.count_pins (s : State) (o n : Nat) : (s.count o n).pins = s.pins := rfl
@[simp] theorem State.count_secret (s : State) (o n : Nat) : (s.count o n).secret = s.secret := rfl
@[simp] theorem State.count_tick (s : State) (o n : Nat) : (s.count o n).tick = s.tick := rfl
@[simp] theorem State.count_latches (s : State) (o n : Nat) : (s.count o n).latches = s.latches := rfl
@[simp] theorem State.count_lines (s : State) (o n : Nat) : (s.count o n).lines = s.lines := rfl
@[simp] theorem State.count_fetchers (s : State) (o n : Nat) : (s.count o n).fetchers = s.fetchers := rfl
@[simp] theorem State.count_flights (s : State) (o n : Nat) : (s.count o n).flights = s.flights := rfl
@[simp] theorem State.count_queues (s : State) (o n : Nat) : (s.count o n).queues = s.queues := rfl
@[simp] theorem State.count_board (s : State) (o n : Nat) : (s.count o n).board = s.board := rfl
@[simp] theorem State.count_trackers (s : State) (o n : Nat) : (s.count o n).trackers = s.trackers := rfl
@[simp] theorem State.count_mem (s : State) (o n : Nat) : (s.count o n).mem = s.mem := rfl
@[simp] theorem State.count_prop (s : State) (o n : Nat) : (s.count o n).prop = s.prop := rfl
@[simp] theorem State.count_bs (s : State) (o n : Nat) : (s.count o n).bs = s.bs := rfl
@[simp] theorem State.count_fab (s : State) (o n : Nat) : (s.count o n).fab = s.fab := rfl
@[simp] theorem State.count_arr (s : State) (o n : Nat) : (s.count o n).arr = s.arr := rfl
@[simp] theorem State.count_cho (s : State) (o n : Nat) : (s.count o n).cho = s.cho := rfl
@[simp] theorem State.count_gangs (s : State) (o n : Nat) : (s.count o n).gangs = s.gangs := rfl
@[simp] theorem State.count_lanes (s : State) (o n : Nat) : (s.count o n).lanes = s.lanes := rfl
@[simp] theorem State.count_fly (s : State) (o n : Nat) : (s.count o n).fly = s.fly := rfl
@[simp] theorem State.count_exch (s : State) (o n : Nat) : (s.count o n).exch = s.exch := rfl
@[simp] theorem State.count_flash (s : State) (o n : Nat) : (s.count o n).flash = s.flash := rfl
@[simp] theorem State.count_writer (s : State) (o n : Nat) : (s.count o n).writer = s.writer := rfl
@[simp] theorem State.count_tab (s : State) (o n : Nat) : (s.count o n).tab = s.tab := rfl
@[simp] theorem State.count_rep (s : State) (o n : Nat) : (s.count o n).rep = s.rep := rfl
@[simp] theorem State.count_repBad (s : State) (o n : Nat) : (s.count o n).repBad = s.repBad := rfl
@[simp] theorem State.count_outs (s : State) (o n : Nat) : (s.count o n).outs = s.outs := rfl
@[simp] theorem State.count_timers (s : State) (o n : Nat) : (s.count o n).timers = s.timers := rfl
@[simp] theorem State.count_trig (s : State) (o n : Nat) : (s.count o n).trig = s.trig := rfl
@[simp] theorem State.count_freeCtr (s : State) (o n : Nat) : (s.count o n).freeCtr = s.freeCtr := rfl
@[simp] theorem State.count_nextUid (s : State) (o n : Nat) : (s.count o n).nextUid = s.nextUid := rfl
@[simp] theorem State.count_nextTag (s : State) (o n : Nat) : (s.count o n).nextTag = s.nextTag := rfl
@[simp] theorem State.count_pending (s : State) (o n : Nat) : (s.count o n).pending = s.pending := rfl

@[simp] theorem State.countMod_build (s : State) (o n : Nat) : (s.countMod o n).build = s.build := rfl
@[simp] theorem State.countMod_phase (s : State) (o n : Nat) : (s.countMod o n).phase = s.phase := rfl
@[simp] theorem State.countMod_pins (s : State) (o n : Nat) : (s.countMod o n).pins = s.pins := rfl
@[simp] theorem State.countMod_secret (s : State) (o n : Nat) : (s.countMod o n).secret = s.secret := rfl
@[simp] theorem State.countMod_tick (s : State) (o n : Nat) : (s.countMod o n).tick = s.tick := rfl
@[simp] theorem State.countMod_latches (s : State) (o n : Nat) : (s.countMod o n).latches = s.latches := rfl
@[simp] theorem State.countMod_lines (s : State) (o n : Nat) : (s.countMod o n).lines = s.lines := rfl
@[simp] theorem State.countMod_fetchers (s : State) (o n : Nat) : (s.countMod o n).fetchers = s.fetchers := rfl
@[simp] theorem State.countMod_flights (s : State) (o n : Nat) : (s.countMod o n).flights = s.flights := rfl
@[simp] theorem State.countMod_queues (s : State) (o n : Nat) : (s.countMod o n).queues = s.queues := rfl
@[simp] theorem State.countMod_board (s : State) (o n : Nat) : (s.countMod o n).board = s.board := rfl
@[simp] theorem State.countMod_trackers (s : State) (o n : Nat) : (s.countMod o n).trackers = s.trackers := rfl
@[simp] theorem State.countMod_mem (s : State) (o n : Nat) : (s.countMod o n).mem = s.mem := rfl
@[simp] theorem State.countMod_prop (s : State) (o n : Nat) : (s.countMod o n).prop = s.prop := rfl
@[simp] theorem State.countMod_bs (s : State) (o n : Nat) : (s.countMod o n).bs = s.bs := rfl
@[simp] theorem State.countMod_fab (s : State) (o n : Nat) : (s.countMod o n).fab = s.fab := rfl
@[simp] theorem State.countMod_arr (s : State) (o n : Nat) : (s.countMod o n).arr = s.arr := rfl
@[simp] theorem State.countMod_cho (s : State) (o n : Nat) : (s.countMod o n).cho = s.cho := rfl
@[simp] theorem State.countMod_gangs (s : State) (o n : Nat) : (s.countMod o n).gangs = s.gangs := rfl
@[simp] theorem State.countMod_lanes (s : State) (o n : Nat) : (s.countMod o n).lanes = s.lanes := rfl
@[simp] theorem State.countMod_fly (s : State) (o n : Nat) : (s.countMod o n).fly = s.fly := rfl
@[simp] theorem State.countMod_exch (s : State) (o n : Nat) : (s.countMod o n).exch = s.exch := rfl
@[simp] theorem State.countMod_flash (s : State) (o n : Nat) : (s.countMod o n).flash = s.flash := rfl
@[simp] theorem State.countMod_writer (s : State) (o n : Nat) : (s.countMod o n).writer = s.writer := rfl
@[simp] theorem State.countMod_tab (s : State) (o n : Nat) : (s.countMod o n).tab = s.tab := rfl
@[simp] theorem State.countMod_rep (s : State) (o n : Nat) : (s.countMod o n).rep = s.rep := rfl
@[simp] theorem State.countMod_repBad (s : State) (o n : Nat) : (s.countMod o n).repBad = s.repBad := rfl
@[simp] theorem State.countMod_outs (s : State) (o n : Nat) : (s.countMod o n).outs = s.outs := rfl
@[simp] theorem State.countMod_timers (s : State) (o n : Nat) : (s.countMod o n).timers = s.timers := rfl
@[simp] theorem State.countMod_trig (s : State) (o n : Nat) : (s.countMod o n).trig = s.trig := rfl
@[simp] theorem State.countMod_freeCtr (s : State) (o n : Nat) : (s.countMod o n).freeCtr = s.freeCtr := rfl
@[simp] theorem State.countMod_nextUid (s : State) (o n : Nat) : (s.countMod o n).nextUid = s.nextUid := rfl
@[simp] theorem State.countMod_nextTag (s : State) (o n : Nat) : (s.countMod o n).nextTag = s.nextTag := rfl
@[simp] theorem State.countMod_pending (s : State) (o n : Nat) : (s.countMod o n).pending = s.pending := rfl

@[simp] theorem State.setLine_build (s : State) (l : Line) (v : LineSt) : (s.setLine l v).build = s.build := rfl
@[simp] theorem State.setLine_phase (s : State) (l : Line) (v : LineSt) : (s.setLine l v).phase = s.phase := rfl
@[simp] theorem State.setLine_pins (s : State) (l : Line) (v : LineSt) : (s.setLine l v).pins = s.pins := rfl
@[simp] theorem State.setLine_secret (s : State) (l : Line) (v : LineSt) : (s.setLine l v).secret = s.secret := rfl
@[simp] theorem State.setLine_tick (s : State) (l : Line) (v : LineSt) : (s.setLine l v).tick = s.tick := rfl
@[simp] theorem State.setLine_regs (s : State) (l : Line) (v : LineSt) : (s.setLine l v).regs = s.regs := rfl
@[simp] theorem State.setLine_latches (s : State) (l : Line) (v : LineSt) : (s.setLine l v).latches = s.latches := rfl
@[simp] theorem State.setLine_fetchers (s : State) (l : Line) (v : LineSt) : (s.setLine l v).fetchers = s.fetchers := rfl
@[simp] theorem State.setLine_flights (s : State) (l : Line) (v : LineSt) : (s.setLine l v).flights = s.flights := rfl
@[simp] theorem State.setLine_queues (s : State) (l : Line) (v : LineSt) : (s.setLine l v).queues = s.queues := rfl
@[simp] theorem State.setLine_board (s : State) (l : Line) (v : LineSt) : (s.setLine l v).board = s.board := rfl
@[simp] theorem State.setLine_trackers (s : State) (l : Line) (v : LineSt) : (s.setLine l v).trackers = s.trackers := rfl
@[simp] theorem State.setLine_mem (s : State) (l : Line) (v : LineSt) : (s.setLine l v).mem = s.mem := rfl
@[simp] theorem State.setLine_prop (s : State) (l : Line) (v : LineSt) : (s.setLine l v).prop = s.prop := rfl
@[simp] theorem State.setLine_bs (s : State) (l : Line) (v : LineSt) : (s.setLine l v).bs = s.bs := rfl
@[simp] theorem State.setLine_fab (s : State) (l : Line) (v : LineSt) : (s.setLine l v).fab = s.fab := rfl
@[simp] theorem State.setLine_arr (s : State) (l : Line) (v : LineSt) : (s.setLine l v).arr = s.arr := rfl
@[simp] theorem State.setLine_cho (s : State) (l : Line) (v : LineSt) : (s.setLine l v).cho = s.cho := rfl
@[simp] theorem State.setLine_gangs (s : State) (l : Line) (v : LineSt) : (s.setLine l v).gangs = s.gangs := rfl
@[simp] theorem State.setLine_lanes (s : State) (l : Line) (v : LineSt) : (s.setLine l v).lanes = s.lanes := rfl
@[simp] theorem State.setLine_fly (s : State) (l : Line) (v : LineSt) : (s.setLine l v).fly = s.fly := rfl
@[simp] theorem State.setLine_exch (s : State) (l : Line) (v : LineSt) : (s.setLine l v).exch = s.exch := rfl
@[simp] theorem State.setLine_flash (s : State) (l : Line) (v : LineSt) : (s.setLine l v).flash = s.flash := rfl
@[simp] theorem State.setLine_writer (s : State) (l : Line) (v : LineSt) : (s.setLine l v).writer = s.writer := rfl
@[simp] theorem State.setLine_tab (s : State) (l : Line) (v : LineSt) : (s.setLine l v).tab = s.tab := rfl
@[simp] theorem State.setLine_rep (s : State) (l : Line) (v : LineSt) : (s.setLine l v).rep = s.rep := rfl
@[simp] theorem State.setLine_repBad (s : State) (l : Line) (v : LineSt) : (s.setLine l v).repBad = s.repBad := rfl
@[simp] theorem State.setLine_outs (s : State) (l : Line) (v : LineSt) : (s.setLine l v).outs = s.outs := rfl
@[simp] theorem State.setLine_timers (s : State) (l : Line) (v : LineSt) : (s.setLine l v).timers = s.timers := rfl
@[simp] theorem State.setLine_trig (s : State) (l : Line) (v : LineSt) : (s.setLine l v).trig = s.trig := rfl
@[simp] theorem State.setLine_freeCtr (s : State) (l : Line) (v : LineSt) : (s.setLine l v).freeCtr = s.freeCtr := rfl
@[simp] theorem State.setLine_nextUid (s : State) (l : Line) (v : LineSt) : (s.setLine l v).nextUid = s.nextUid := rfl
@[simp] theorem State.setLine_nextTag (s : State) (l : Line) (v : LineSt) : (s.setLine l v).nextTag = s.nextTag := rfl
@[simp] theorem State.setLine_pending (s : State) (l : Line) (v : LineSt) : (s.setLine l v).pending = s.pending := rfl
@[simp] theorem State.setLine_reg (s : State) (l : Line) (v : LineSt) (p : Nat) : (s.setLine l v).reg p = s.reg p := rfl

@[simp] theorem State.setFetcher_build (s : State) (e : Nat) (v : Fetcher) : (s.setFetcher e v).build = s.build := rfl
@[simp] theorem State.setFetcher_phase (s : State) (e : Nat) (v : Fetcher) : (s.setFetcher e v).phase = s.phase := rfl
@[simp] theorem State.setFetcher_pins (s : State) (e : Nat) (v : Fetcher) : (s.setFetcher e v).pins = s.pins := rfl
@[simp] theorem State.setFetcher_secret (s : State) (e : Nat) (v : Fetcher) : (s.setFetcher e v).secret = s.secret := rfl
@[simp] theorem State.setFetcher_tick (s : State) (e : Nat) (v : Fetcher) : (s.setFetcher e v).tick = s.tick := rfl
@[simp] theorem State.setFetcher_regs (s : State) (e : Nat) (v : Fetcher) : (s.setFetcher e v).regs = s.regs := rfl
@[simp] theorem State.setFetcher_latches (s : State) (e : Nat) (v : Fetcher) : (s.setFetcher e v).latches = s.latches := rfl
@[simp] theorem State.setFetcher_lines (s : State) (e : Nat) (v : Fetcher) : (s.setFetcher e v).lines = s.lines := rfl
@[simp] theorem State.setFetcher_flights (s : State) (e : Nat) (v : Fetcher) : (s.setFetcher e v).flights = s.flights := rfl
@[simp] theorem State.setFetcher_queues (s : State) (e : Nat) (v : Fetcher) : (s.setFetcher e v).queues = s.queues := rfl
@[simp] theorem State.setFetcher_board (s : State) (e : Nat) (v : Fetcher) : (s.setFetcher e v).board = s.board := rfl
@[simp] theorem State.setFetcher_trackers (s : State) (e : Nat) (v : Fetcher) : (s.setFetcher e v).trackers = s.trackers := rfl
@[simp] theorem State.setFetcher_mem (s : State) (e : Nat) (v : Fetcher) : (s.setFetcher e v).mem = s.mem := rfl
@[simp] theorem State.setFetcher_prop (s : State) (e : Nat) (v : Fetcher) : (s.setFetcher e v).prop = s.prop := rfl
@[simp] theorem State.setFetcher_bs (s : State) (e : Nat) (v : Fetcher) : (s.setFetcher e v).bs = s.bs := rfl
@[simp] theorem State.setFetcher_fab (s : State) (e : Nat) (v : Fetcher) : (s.setFetcher e v).fab = s.fab := rfl
@[simp] theorem State.setFetcher_arr (s : State) (e : Nat) (v : Fetcher) : (s.setFetcher e v).arr = s.arr := rfl
@[simp] theorem State.setFetcher_cho (s : State) (e : Nat) (v : Fetcher) : (s.setFetcher e v).cho = s.cho := rfl
@[simp] theorem State.setFetcher_gangs (s : State) (e : Nat) (v : Fetcher) : (s.setFetcher e v).gangs = s.gangs := rfl
@[simp] theorem State.setFetcher_lanes (s : State) (e : Nat) (v : Fetcher) : (s.setFetcher e v).lanes = s.lanes := rfl
@[simp] theorem State.setFetcher_fly (s : State) (e : Nat) (v : Fetcher) : (s.setFetcher e v).fly = s.fly := rfl
@[simp] theorem State.setFetcher_exch (s : State) (e : Nat) (v : Fetcher) : (s.setFetcher e v).exch = s.exch := rfl
@[simp] theorem State.setFetcher_flash (s : State) (e : Nat) (v : Fetcher) : (s.setFetcher e v).flash = s.flash := rfl
@[simp] theorem State.setFetcher_writer (s : State) (e : Nat) (v : Fetcher) : (s.setFetcher e v).writer = s.writer := rfl
@[simp] theorem State.setFetcher_tab (s : State) (e : Nat) (v : Fetcher) : (s.setFetcher e v).tab = s.tab := rfl
@[simp] theorem State.setFetcher_rep (s : State) (e : Nat) (v : Fetcher) : (s.setFetcher e v).rep = s.rep := rfl
@[simp] theorem State.setFetcher_repBad (s : State) (e : Nat) (v : Fetcher) : (s.setFetcher e v).repBad = s.repBad := rfl
@[simp] theorem State.setFetcher_outs (s : State) (e : Nat) (v : Fetcher) : (s.setFetcher e v).outs = s.outs := rfl
@[simp] theorem State.setFetcher_timers (s : State) (e : Nat) (v : Fetcher) : (s.setFetcher e v).timers = s.timers := rfl
@[simp] theorem State.setFetcher_trig (s : State) (e : Nat) (v : Fetcher) : (s.setFetcher e v).trig = s.trig := rfl
@[simp] theorem State.setFetcher_freeCtr (s : State) (e : Nat) (v : Fetcher) : (s.setFetcher e v).freeCtr = s.freeCtr := rfl
@[simp] theorem State.setFetcher_nextUid (s : State) (e : Nat) (v : Fetcher) : (s.setFetcher e v).nextUid = s.nextUid := rfl
@[simp] theorem State.setFetcher_nextTag (s : State) (e : Nat) (v : Fetcher) : (s.setFetcher e v).nextTag = s.nextTag := rfl
@[simp] theorem State.setFetcher_pending (s : State) (e : Nat) (v : Fetcher) : (s.setFetcher e v).pending = s.pending := rfl
@[simp] theorem State.setFetcher_reg (s : State) (e : Nat) (v : Fetcher) (p : Nat) : (s.setFetcher e v).reg p = s.reg p := rfl

@[simp] theorem State.setQueue_build (s : State) (e : Nat) (q : List Nat) : (s.setQueue e q).build = s.build := rfl
@[simp] theorem State.setQueue_phase (s : State) (e : Nat) (q : List Nat) : (s.setQueue e q).phase = s.phase := rfl
@[simp] theorem State.setQueue_pins (s : State) (e : Nat) (q : List Nat) : (s.setQueue e q).pins = s.pins := rfl
@[simp] theorem State.setQueue_secret (s : State) (e : Nat) (q : List Nat) : (s.setQueue e q).secret = s.secret := rfl
@[simp] theorem State.setQueue_tick (s : State) (e : Nat) (q : List Nat) : (s.setQueue e q).tick = s.tick := rfl
@[simp] theorem State.setQueue_regs (s : State) (e : Nat) (q : List Nat) : (s.setQueue e q).regs = s.regs := rfl
@[simp] theorem State.setQueue_latches (s : State) (e : Nat) (q : List Nat) : (s.setQueue e q).latches = s.latches := rfl
@[simp] theorem State.setQueue_lines (s : State) (e : Nat) (q : List Nat) : (s.setQueue e q).lines = s.lines := rfl
@[simp] theorem State.setQueue_fetchers (s : State) (e : Nat) (q : List Nat) : (s.setQueue e q).fetchers = s.fetchers := rfl
@[simp] theorem State.setQueue_flights (s : State) (e : Nat) (q : List Nat) : (s.setQueue e q).flights = s.flights := rfl
@[simp] theorem State.setQueue_board (s : State) (e : Nat) (q : List Nat) : (s.setQueue e q).board = s.board := rfl
@[simp] theorem State.setQueue_trackers (s : State) (e : Nat) (q : List Nat) : (s.setQueue e q).trackers = s.trackers := rfl
@[simp] theorem State.setQueue_mem (s : State) (e : Nat) (q : List Nat) : (s.setQueue e q).mem = s.mem := rfl
@[simp] theorem State.setQueue_prop (s : State) (e : Nat) (q : List Nat) : (s.setQueue e q).prop = s.prop := rfl
@[simp] theorem State.setQueue_bs (s : State) (e : Nat) (q : List Nat) : (s.setQueue e q).bs = s.bs := rfl
@[simp] theorem State.setQueue_fab (s : State) (e : Nat) (q : List Nat) : (s.setQueue e q).fab = s.fab := rfl
@[simp] theorem State.setQueue_arr (s : State) (e : Nat) (q : List Nat) : (s.setQueue e q).arr = s.arr := rfl
@[simp] theorem State.setQueue_cho (s : State) (e : Nat) (q : List Nat) : (s.setQueue e q).cho = s.cho := rfl
@[simp] theorem State.setQueue_gangs (s : State) (e : Nat) (q : List Nat) : (s.setQueue e q).gangs = s.gangs := rfl
@[simp] theorem State.setQueue_lanes (s : State) (e : Nat) (q : List Nat) : (s.setQueue e q).lanes = s.lanes := rfl
@[simp] theorem State.setQueue_fly (s : State) (e : Nat) (q : List Nat) : (s.setQueue e q).fly = s.fly := rfl
@[simp] theorem State.setQueue_exch (s : State) (e : Nat) (q : List Nat) : (s.setQueue e q).exch = s.exch := rfl
@[simp] theorem State.setQueue_flash (s : State) (e : Nat) (q : List Nat) : (s.setQueue e q).flash = s.flash := rfl
@[simp] theorem State.setQueue_writer (s : State) (e : Nat) (q : List Nat) : (s.setQueue e q).writer = s.writer := rfl
@[simp] theorem State.setQueue_tab (s : State) (e : Nat) (q : List Nat) : (s.setQueue e q).tab = s.tab := rfl
@[simp] theorem State.setQueue_rep (s : State) (e : Nat) (q : List Nat) : (s.setQueue e q).rep = s.rep := rfl
@[simp] theorem State.setQueue_repBad (s : State) (e : Nat) (q : List Nat) : (s.setQueue e q).repBad = s.repBad := rfl
@[simp] theorem State.setQueue_outs (s : State) (e : Nat) (q : List Nat) : (s.setQueue e q).outs = s.outs := rfl
@[simp] theorem State.setQueue_timers (s : State) (e : Nat) (q : List Nat) : (s.setQueue e q).timers = s.timers := rfl
@[simp] theorem State.setQueue_trig (s : State) (e : Nat) (q : List Nat) : (s.setQueue e q).trig = s.trig := rfl
@[simp] theorem State.setQueue_freeCtr (s : State) (e : Nat) (q : List Nat) : (s.setQueue e q).freeCtr = s.freeCtr := rfl
@[simp] theorem State.setQueue_nextUid (s : State) (e : Nat) (q : List Nat) : (s.setQueue e q).nextUid = s.nextUid := rfl
@[simp] theorem State.setQueue_nextTag (s : State) (e : Nat) (q : List Nat) : (s.setQueue e q).nextTag = s.nextTag := rfl
@[simp] theorem State.setQueue_pending (s : State) (e : Nat) (q : List Nat) : (s.setQueue e q).pending = s.pending := rfl
@[simp] theorem State.setQueue_reg (s : State) (e : Nat) (q : List Nat) (p : Nat) : (s.setQueue e q).reg p = s.reg p := rfl

@[simp] theorem State.setTree_build (s : State) (k : Nat) (v : CcTree) : (s.setTree k v).build = s.build := rfl
@[simp] theorem State.setTree_phase (s : State) (k : Nat) (v : CcTree) : (s.setTree k v).phase = s.phase := rfl
@[simp] theorem State.setTree_pins (s : State) (k : Nat) (v : CcTree) : (s.setTree k v).pins = s.pins := rfl
@[simp] theorem State.setTree_secret (s : State) (k : Nat) (v : CcTree) : (s.setTree k v).secret = s.secret := rfl
@[simp] theorem State.setTree_tick (s : State) (k : Nat) (v : CcTree) : (s.setTree k v).tick = s.tick := rfl
@[simp] theorem State.setTree_regs (s : State) (k : Nat) (v : CcTree) : (s.setTree k v).regs = s.regs := rfl
@[simp] theorem State.setTree_latches (s : State) (k : Nat) (v : CcTree) : (s.setTree k v).latches = s.latches := rfl
@[simp] theorem State.setTree_lines (s : State) (k : Nat) (v : CcTree) : (s.setTree k v).lines = s.lines := rfl
@[simp] theorem State.setTree_fetchers (s : State) (k : Nat) (v : CcTree) : (s.setTree k v).fetchers = s.fetchers := rfl
@[simp] theorem State.setTree_flights (s : State) (k : Nat) (v : CcTree) : (s.setTree k v).flights = s.flights := rfl
@[simp] theorem State.setTree_queues (s : State) (k : Nat) (v : CcTree) : (s.setTree k v).queues = s.queues := rfl
@[simp] theorem State.setTree_trackers (s : State) (k : Nat) (v : CcTree) : (s.setTree k v).trackers = s.trackers := rfl
@[simp] theorem State.setTree_mem (s : State) (k : Nat) (v : CcTree) : (s.setTree k v).mem = s.mem := rfl
@[simp] theorem State.setTree_prop (s : State) (k : Nat) (v : CcTree) : (s.setTree k v).prop = s.prop := rfl
@[simp] theorem State.setTree_bs (s : State) (k : Nat) (v : CcTree) : (s.setTree k v).bs = s.bs := rfl
@[simp] theorem State.setTree_fab (s : State) (k : Nat) (v : CcTree) : (s.setTree k v).fab = s.fab := rfl
@[simp] theorem State.setTree_arr (s : State) (k : Nat) (v : CcTree) : (s.setTree k v).arr = s.arr := rfl
@[simp] theorem State.setTree_cho (s : State) (k : Nat) (v : CcTree) : (s.setTree k v).cho = s.cho := rfl
@[simp] theorem State.setTree_gangs (s : State) (k : Nat) (v : CcTree) : (s.setTree k v).gangs = s.gangs := rfl
@[simp] theorem State.setTree_lanes (s : State) (k : Nat) (v : CcTree) : (s.setTree k v).lanes = s.lanes := rfl
@[simp] theorem State.setTree_fly (s : State) (k : Nat) (v : CcTree) : (s.setTree k v).fly = s.fly := rfl
@[simp] theorem State.setTree_exch (s : State) (k : Nat) (v : CcTree) : (s.setTree k v).exch = s.exch := rfl
@[simp] theorem State.setTree_flash (s : State) (k : Nat) (v : CcTree) : (s.setTree k v).flash = s.flash := rfl
@[simp] theorem State.setTree_writer (s : State) (k : Nat) (v : CcTree) : (s.setTree k v).writer = s.writer := rfl
@[simp] theorem State.setTree_tab (s : State) (k : Nat) (v : CcTree) : (s.setTree k v).tab = s.tab := rfl
@[simp] theorem State.setTree_rep (s : State) (k : Nat) (v : CcTree) : (s.setTree k v).rep = s.rep := rfl
@[simp] theorem State.setTree_repBad (s : State) (k : Nat) (v : CcTree) : (s.setTree k v).repBad = s.repBad := rfl
@[simp] theorem State.setTree_outs (s : State) (k : Nat) (v : CcTree) : (s.setTree k v).outs = s.outs := rfl
@[simp] theorem State.setTree_timers (s : State) (k : Nat) (v : CcTree) : (s.setTree k v).timers = s.timers := rfl
@[simp] theorem State.setTree_trig (s : State) (k : Nat) (v : CcTree) : (s.setTree k v).trig = s.trig := rfl
@[simp] theorem State.setTree_freeCtr (s : State) (k : Nat) (v : CcTree) : (s.setTree k v).freeCtr = s.freeCtr := rfl
@[simp] theorem State.setTree_nextUid (s : State) (k : Nat) (v : CcTree) : (s.setTree k v).nextUid = s.nextUid := rfl
@[simp] theorem State.setTree_nextTag (s : State) (k : Nat) (v : CcTree) : (s.setTree k v).nextTag = s.nextTag := rfl
@[simp] theorem State.setTree_pending (s : State) (k : Nat) (v : CcTree) : (s.setTree k v).pending = s.pending := rfl
@[simp] theorem State.setTree_reg (s : State) (k : Nat) (v : CcTree) (p : Nat) : (s.setTree k v).reg p = s.reg p := rfl

@[simp] theorem State.setCnt_build (s : State) (i : Nat) (v : BitVec 20) : (s.setCnt i v).build = s.build := rfl
@[simp] theorem State.setCnt_phase (s : State) (i : Nat) (v : BitVec 20) : (s.setCnt i v).phase = s.phase := rfl
@[simp] theorem State.setCnt_pins (s : State) (i : Nat) (v : BitVec 20) : (s.setCnt i v).pins = s.pins := rfl
@[simp] theorem State.setCnt_secret (s : State) (i : Nat) (v : BitVec 20) : (s.setCnt i v).secret = s.secret := rfl
@[simp] theorem State.setCnt_tick (s : State) (i : Nat) (v : BitVec 20) : (s.setCnt i v).tick = s.tick := rfl
@[simp] theorem State.setCnt_regs (s : State) (i : Nat) (v : BitVec 20) : (s.setCnt i v).regs = s.regs := rfl
@[simp] theorem State.setCnt_latches (s : State) (i : Nat) (v : BitVec 20) : (s.setCnt i v).latches = s.latches := rfl
@[simp] theorem State.setCnt_lines (s : State) (i : Nat) (v : BitVec 20) : (s.setCnt i v).lines = s.lines := rfl
@[simp] theorem State.setCnt_fetchers (s : State) (i : Nat) (v : BitVec 20) : (s.setCnt i v).fetchers = s.fetchers := rfl
@[simp] theorem State.setCnt_flights (s : State) (i : Nat) (v : BitVec 20) : (s.setCnt i v).flights = s.flights := rfl
@[simp] theorem State.setCnt_queues (s : State) (i : Nat) (v : BitVec 20) : (s.setCnt i v).queues = s.queues := rfl
@[simp] theorem State.setCnt_trackers (s : State) (i : Nat) (v : BitVec 20) : (s.setCnt i v).trackers = s.trackers := rfl
@[simp] theorem State.setCnt_mem (s : State) (i : Nat) (v : BitVec 20) : (s.setCnt i v).mem = s.mem := rfl
@[simp] theorem State.setCnt_prop (s : State) (i : Nat) (v : BitVec 20) : (s.setCnt i v).prop = s.prop := rfl
@[simp] theorem State.setCnt_bs (s : State) (i : Nat) (v : BitVec 20) : (s.setCnt i v).bs = s.bs := rfl
@[simp] theorem State.setCnt_fab (s : State) (i : Nat) (v : BitVec 20) : (s.setCnt i v).fab = s.fab := rfl
@[simp] theorem State.setCnt_arr (s : State) (i : Nat) (v : BitVec 20) : (s.setCnt i v).arr = s.arr := rfl
@[simp] theorem State.setCnt_cho (s : State) (i : Nat) (v : BitVec 20) : (s.setCnt i v).cho = s.cho := rfl
@[simp] theorem State.setCnt_gangs (s : State) (i : Nat) (v : BitVec 20) : (s.setCnt i v).gangs = s.gangs := rfl
@[simp] theorem State.setCnt_lanes (s : State) (i : Nat) (v : BitVec 20) : (s.setCnt i v).lanes = s.lanes := rfl
@[simp] theorem State.setCnt_fly (s : State) (i : Nat) (v : BitVec 20) : (s.setCnt i v).fly = s.fly := rfl
@[simp] theorem State.setCnt_exch (s : State) (i : Nat) (v : BitVec 20) : (s.setCnt i v).exch = s.exch := rfl
@[simp] theorem State.setCnt_flash (s : State) (i : Nat) (v : BitVec 20) : (s.setCnt i v).flash = s.flash := rfl
@[simp] theorem State.setCnt_writer (s : State) (i : Nat) (v : BitVec 20) : (s.setCnt i v).writer = s.writer := rfl
@[simp] theorem State.setCnt_tab (s : State) (i : Nat) (v : BitVec 20) : (s.setCnt i v).tab = s.tab := rfl
@[simp] theorem State.setCnt_rep (s : State) (i : Nat) (v : BitVec 20) : (s.setCnt i v).rep = s.rep := rfl
@[simp] theorem State.setCnt_repBad (s : State) (i : Nat) (v : BitVec 20) : (s.setCnt i v).repBad = s.repBad := rfl
@[simp] theorem State.setCnt_outs (s : State) (i : Nat) (v : BitVec 20) : (s.setCnt i v).outs = s.outs := rfl
@[simp] theorem State.setCnt_timers (s : State) (i : Nat) (v : BitVec 20) : (s.setCnt i v).timers = s.timers := rfl
@[simp] theorem State.setCnt_trig (s : State) (i : Nat) (v : BitVec 20) : (s.setCnt i v).trig = s.trig := rfl
@[simp] theorem State.setCnt_freeCtr (s : State) (i : Nat) (v : BitVec 20) : (s.setCnt i v).freeCtr = s.freeCtr := rfl
@[simp] theorem State.setCnt_nextUid (s : State) (i : Nat) (v : BitVec 20) : (s.setCnt i v).nextUid = s.nextUid := rfl
@[simp] theorem State.setCnt_nextTag (s : State) (i : Nat) (v : BitVec 20) : (s.setCnt i v).nextTag = s.nextTag := rfl
@[simp] theorem State.setCnt_pending (s : State) (i : Nat) (v : BitVec 20) : (s.setCnt i v).pending = s.pending := rfl
@[simp] theorem State.setCnt_reg (s : State) (i : Nat) (v : BitVec 20) (p : Nat) : (s.setCnt i v).reg p = s.reg p := rfl

@[simp] theorem State.setTracker_build (s : State) (i : Nat) (v : Tracker) : (s.setTracker i v).build = s.build := rfl
@[simp] theorem State.setTracker_phase (s : State) (i : Nat) (v : Tracker) : (s.setTracker i v).phase = s.phase := rfl
@[simp] theorem State.setTracker_pins (s : State) (i : Nat) (v : Tracker) : (s.setTracker i v).pins = s.pins := rfl
@[simp] theorem State.setTracker_secret (s : State) (i : Nat) (v : Tracker) : (s.setTracker i v).secret = s.secret := rfl
@[simp] theorem State.setTracker_tick (s : State) (i : Nat) (v : Tracker) : (s.setTracker i v).tick = s.tick := rfl
@[simp] theorem State.setTracker_regs (s : State) (i : Nat) (v : Tracker) : (s.setTracker i v).regs = s.regs := rfl
@[simp] theorem State.setTracker_latches (s : State) (i : Nat) (v : Tracker) : (s.setTracker i v).latches = s.latches := rfl
@[simp] theorem State.setTracker_lines (s : State) (i : Nat) (v : Tracker) : (s.setTracker i v).lines = s.lines := rfl
@[simp] theorem State.setTracker_fetchers (s : State) (i : Nat) (v : Tracker) : (s.setTracker i v).fetchers = s.fetchers := rfl
@[simp] theorem State.setTracker_flights (s : State) (i : Nat) (v : Tracker) : (s.setTracker i v).flights = s.flights := rfl
@[simp] theorem State.setTracker_queues (s : State) (i : Nat) (v : Tracker) : (s.setTracker i v).queues = s.queues := rfl
@[simp] theorem State.setTracker_board (s : State) (i : Nat) (v : Tracker) : (s.setTracker i v).board = s.board := rfl
@[simp] theorem State.setTracker_mem (s : State) (i : Nat) (v : Tracker) : (s.setTracker i v).mem = s.mem := rfl
@[simp] theorem State.setTracker_prop (s : State) (i : Nat) (v : Tracker) : (s.setTracker i v).prop = s.prop := rfl
@[simp] theorem State.setTracker_bs (s : State) (i : Nat) (v : Tracker) : (s.setTracker i v).bs = s.bs := rfl
@[simp] theorem State.setTracker_fab (s : State) (i : Nat) (v : Tracker) : (s.setTracker i v).fab = s.fab := rfl
@[simp] theorem State.setTracker_arr (s : State) (i : Nat) (v : Tracker) : (s.setTracker i v).arr = s.arr := rfl
@[simp] theorem State.setTracker_cho (s : State) (i : Nat) (v : Tracker) : (s.setTracker i v).cho = s.cho := rfl
@[simp] theorem State.setTracker_gangs (s : State) (i : Nat) (v : Tracker) : (s.setTracker i v).gangs = s.gangs := rfl
@[simp] theorem State.setTracker_lanes (s : State) (i : Nat) (v : Tracker) : (s.setTracker i v).lanes = s.lanes := rfl
@[simp] theorem State.setTracker_fly (s : State) (i : Nat) (v : Tracker) : (s.setTracker i v).fly = s.fly := rfl
@[simp] theorem State.setTracker_exch (s : State) (i : Nat) (v : Tracker) : (s.setTracker i v).exch = s.exch := rfl
@[simp] theorem State.setTracker_flash (s : State) (i : Nat) (v : Tracker) : (s.setTracker i v).flash = s.flash := rfl
@[simp] theorem State.setTracker_writer (s : State) (i : Nat) (v : Tracker) : (s.setTracker i v).writer = s.writer := rfl
@[simp] theorem State.setTracker_tab (s : State) (i : Nat) (v : Tracker) : (s.setTracker i v).tab = s.tab := rfl
@[simp] theorem State.setTracker_rep (s : State) (i : Nat) (v : Tracker) : (s.setTracker i v).rep = s.rep := rfl
@[simp] theorem State.setTracker_repBad (s : State) (i : Nat) (v : Tracker) : (s.setTracker i v).repBad = s.repBad := rfl
@[simp] theorem State.setTracker_outs (s : State) (i : Nat) (v : Tracker) : (s.setTracker i v).outs = s.outs := rfl
@[simp] theorem State.setTracker_timers (s : State) (i : Nat) (v : Tracker) : (s.setTracker i v).timers = s.timers := rfl
@[simp] theorem State.setTracker_trig (s : State) (i : Nat) (v : Tracker) : (s.setTracker i v).trig = s.trig := rfl
@[simp] theorem State.setTracker_freeCtr (s : State) (i : Nat) (v : Tracker) : (s.setTracker i v).freeCtr = s.freeCtr := rfl
@[simp] theorem State.setTracker_nextUid (s : State) (i : Nat) (v : Tracker) : (s.setTracker i v).nextUid = s.nextUid := rfl
@[simp] theorem State.setTracker_nextTag (s : State) (i : Nat) (v : Tracker) : (s.setTracker i v).nextTag = s.nextTag := rfl
@[simp] theorem State.setTracker_pending (s : State) (i : Nat) (v : Tracker) : (s.setTracker i v).pending = s.pending := rfl
@[simp] theorem State.setTracker_reg (s : State) (i : Nat) (v : Tracker) (p : Nat) : (s.setTracker i v).reg p = s.reg p := rfl

@[simp] theorem State.setHandle_build (s : State) (h : Nat) (v : Handle) : (s.setHandle h v).build = s.build := rfl
@[simp] theorem State.setHandle_phase (s : State) (h : Nat) (v : Handle) : (s.setHandle h v).phase = s.phase := rfl
@[simp] theorem State.setHandle_pins (s : State) (h : Nat) (v : Handle) : (s.setHandle h v).pins = s.pins := rfl
@[simp] theorem State.setHandle_secret (s : State) (h : Nat) (v : Handle) : (s.setHandle h v).secret = s.secret := rfl
@[simp] theorem State.setHandle_tick (s : State) (h : Nat) (v : Handle) : (s.setHandle h v).tick = s.tick := rfl
@[simp] theorem State.setHandle_regs (s : State) (h : Nat) (v : Handle) : (s.setHandle h v).regs = s.regs := rfl
@[simp] theorem State.setHandle_latches (s : State) (h : Nat) (v : Handle) : (s.setHandle h v).latches = s.latches := rfl
@[simp] theorem State.setHandle_lines (s : State) (h : Nat) (v : Handle) : (s.setHandle h v).lines = s.lines := rfl
@[simp] theorem State.setHandle_fetchers (s : State) (h : Nat) (v : Handle) : (s.setHandle h v).fetchers = s.fetchers := rfl
@[simp] theorem State.setHandle_flights (s : State) (h : Nat) (v : Handle) : (s.setHandle h v).flights = s.flights := rfl
@[simp] theorem State.setHandle_queues (s : State) (h : Nat) (v : Handle) : (s.setHandle h v).queues = s.queues := rfl
@[simp] theorem State.setHandle_board (s : State) (h : Nat) (v : Handle) : (s.setHandle h v).board = s.board := rfl
@[simp] theorem State.setHandle_trackers (s : State) (h : Nat) (v : Handle) : (s.setHandle h v).trackers = s.trackers := rfl
@[simp] theorem State.setHandle_mem (s : State) (h : Nat) (v : Handle) : (s.setHandle h v).mem = s.mem := rfl
@[simp] theorem State.setHandle_bs (s : State) (h : Nat) (v : Handle) : (s.setHandle h v).bs = s.bs := rfl
@[simp] theorem State.setHandle_fab (s : State) (h : Nat) (v : Handle) : (s.setHandle h v).fab = s.fab := rfl
@[simp] theorem State.setHandle_arr (s : State) (h : Nat) (v : Handle) : (s.setHandle h v).arr = s.arr := rfl
@[simp] theorem State.setHandle_cho (s : State) (h : Nat) (v : Handle) : (s.setHandle h v).cho = s.cho := rfl
@[simp] theorem State.setHandle_gangs (s : State) (h : Nat) (v : Handle) : (s.setHandle h v).gangs = s.gangs := rfl
@[simp] theorem State.setHandle_lanes (s : State) (h : Nat) (v : Handle) : (s.setHandle h v).lanes = s.lanes := rfl
@[simp] theorem State.setHandle_fly (s : State) (h : Nat) (v : Handle) : (s.setHandle h v).fly = s.fly := rfl
@[simp] theorem State.setHandle_exch (s : State) (h : Nat) (v : Handle) : (s.setHandle h v).exch = s.exch := rfl
@[simp] theorem State.setHandle_flash (s : State) (h : Nat) (v : Handle) : (s.setHandle h v).flash = s.flash := rfl
@[simp] theorem State.setHandle_writer (s : State) (h : Nat) (v : Handle) : (s.setHandle h v).writer = s.writer := rfl
@[simp] theorem State.setHandle_tab (s : State) (h : Nat) (v : Handle) : (s.setHandle h v).tab = s.tab := rfl
@[simp] theorem State.setHandle_rep (s : State) (h : Nat) (v : Handle) : (s.setHandle h v).rep = s.rep := rfl
@[simp] theorem State.setHandle_repBad (s : State) (h : Nat) (v : Handle) : (s.setHandle h v).repBad = s.repBad := rfl
@[simp] theorem State.setHandle_outs (s : State) (h : Nat) (v : Handle) : (s.setHandle h v).outs = s.outs := rfl
@[simp] theorem State.setHandle_timers (s : State) (h : Nat) (v : Handle) : (s.setHandle h v).timers = s.timers := rfl
@[simp] theorem State.setHandle_trig (s : State) (h : Nat) (v : Handle) : (s.setHandle h v).trig = s.trig := rfl
@[simp] theorem State.setHandle_freeCtr (s : State) (h : Nat) (v : Handle) : (s.setHandle h v).freeCtr = s.freeCtr := rfl
@[simp] theorem State.setHandle_nextUid (s : State) (h : Nat) (v : Handle) : (s.setHandle h v).nextUid = s.nextUid := rfl
@[simp] theorem State.setHandle_nextTag (s : State) (h : Nat) (v : Handle) : (s.setHandle h v).nextTag = s.nextTag := rfl
@[simp] theorem State.setHandle_pending (s : State) (h : Nat) (v : Handle) : (s.setHandle h v).pending = s.pending := rfl
@[simp] theorem State.setHandle_reg (s : State) (h : Nat) (v : Handle) (p : Nat) : (s.setHandle h v).reg p = s.reg p := rfl

@[simp] theorem State.setPage_build (s : State) (d : Nat) (v : Page) : (s.setPage d v).build = s.build := rfl
@[simp] theorem State.setPage_phase (s : State) (d : Nat) (v : Page) : (s.setPage d v).phase = s.phase := rfl
@[simp] theorem State.setPage_pins (s : State) (d : Nat) (v : Page) : (s.setPage d v).pins = s.pins := rfl
@[simp] theorem State.setPage_secret (s : State) (d : Nat) (v : Page) : (s.setPage d v).secret = s.secret := rfl
@[simp] theorem State.setPage_tick (s : State) (d : Nat) (v : Page) : (s.setPage d v).tick = s.tick := rfl
@[simp] theorem State.setPage_regs (s : State) (d : Nat) (v : Page) : (s.setPage d v).regs = s.regs := rfl
@[simp] theorem State.setPage_latches (s : State) (d : Nat) (v : Page) : (s.setPage d v).latches = s.latches := rfl
@[simp] theorem State.setPage_lines (s : State) (d : Nat) (v : Page) : (s.setPage d v).lines = s.lines := rfl
@[simp] theorem State.setPage_fetchers (s : State) (d : Nat) (v : Page) : (s.setPage d v).fetchers = s.fetchers := rfl
@[simp] theorem State.setPage_flights (s : State) (d : Nat) (v : Page) : (s.setPage d v).flights = s.flights := rfl
@[simp] theorem State.setPage_queues (s : State) (d : Nat) (v : Page) : (s.setPage d v).queues = s.queues := rfl
@[simp] theorem State.setPage_board (s : State) (d : Nat) (v : Page) : (s.setPage d v).board = s.board := rfl
@[simp] theorem State.setPage_trackers (s : State) (d : Nat) (v : Page) : (s.setPage d v).trackers = s.trackers := rfl
@[simp] theorem State.setPage_mem (s : State) (d : Nat) (v : Page) : (s.setPage d v).mem = s.mem := rfl
@[simp] theorem State.setPage_bs (s : State) (d : Nat) (v : Page) : (s.setPage d v).bs = s.bs := rfl
@[simp] theorem State.setPage_fab (s : State) (d : Nat) (v : Page) : (s.setPage d v).fab = s.fab := rfl
@[simp] theorem State.setPage_arr (s : State) (d : Nat) (v : Page) : (s.setPage d v).arr = s.arr := rfl
@[simp] theorem State.setPage_cho (s : State) (d : Nat) (v : Page) : (s.setPage d v).cho = s.cho := rfl
@[simp] theorem State.setPage_gangs (s : State) (d : Nat) (v : Page) : (s.setPage d v).gangs = s.gangs := rfl
@[simp] theorem State.setPage_lanes (s : State) (d : Nat) (v : Page) : (s.setPage d v).lanes = s.lanes := rfl
@[simp] theorem State.setPage_fly (s : State) (d : Nat) (v : Page) : (s.setPage d v).fly = s.fly := rfl
@[simp] theorem State.setPage_exch (s : State) (d : Nat) (v : Page) : (s.setPage d v).exch = s.exch := rfl
@[simp] theorem State.setPage_flash (s : State) (d : Nat) (v : Page) : (s.setPage d v).flash = s.flash := rfl
@[simp] theorem State.setPage_writer (s : State) (d : Nat) (v : Page) : (s.setPage d v).writer = s.writer := rfl
@[simp] theorem State.setPage_tab (s : State) (d : Nat) (v : Page) : (s.setPage d v).tab = s.tab := rfl
@[simp] theorem State.setPage_rep (s : State) (d : Nat) (v : Page) : (s.setPage d v).rep = s.rep := rfl
@[simp] theorem State.setPage_repBad (s : State) (d : Nat) (v : Page) : (s.setPage d v).repBad = s.repBad := rfl
@[simp] theorem State.setPage_outs (s : State) (d : Nat) (v : Page) : (s.setPage d v).outs = s.outs := rfl
@[simp] theorem State.setPage_timers (s : State) (d : Nat) (v : Page) : (s.setPage d v).timers = s.timers := rfl
@[simp] theorem State.setPage_trig (s : State) (d : Nat) (v : Page) : (s.setPage d v).trig = s.trig := rfl
@[simp] theorem State.setPage_freeCtr (s : State) (d : Nat) (v : Page) : (s.setPage d v).freeCtr = s.freeCtr := rfl
@[simp] theorem State.setPage_nextUid (s : State) (d : Nat) (v : Page) : (s.setPage d v).nextUid = s.nextUid := rfl
@[simp] theorem State.setPage_nextTag (s : State) (d : Nat) (v : Page) : (s.setPage d v).nextTag = s.nextTag := rfl
@[simp] theorem State.setPage_pending (s : State) (d : Nat) (v : Page) : (s.setPage d v).pending = s.pending := rfl
@[simp] theorem State.setPage_reg (s : State) (d : Nat) (v : Page) (p : Nat) : (s.setPage d v).reg p = s.reg p := rfl

@[simp] theorem State.updFlight_build (s : State) (uid : Nat) (f : Flight → Flight) : (s.updFlight uid f).build = s.build := rfl
@[simp] theorem State.updFlight_phase (s : State) (uid : Nat) (f : Flight → Flight) : (s.updFlight uid f).phase = s.phase := rfl
@[simp] theorem State.updFlight_pins (s : State) (uid : Nat) (f : Flight → Flight) : (s.updFlight uid f).pins = s.pins := rfl
@[simp] theorem State.updFlight_secret (s : State) (uid : Nat) (f : Flight → Flight) : (s.updFlight uid f).secret = s.secret := rfl
@[simp] theorem State.updFlight_tick (s : State) (uid : Nat) (f : Flight → Flight) : (s.updFlight uid f).tick = s.tick := rfl
@[simp] theorem State.updFlight_regs (s : State) (uid : Nat) (f : Flight → Flight) : (s.updFlight uid f).regs = s.regs := rfl
@[simp] theorem State.updFlight_latches (s : State) (uid : Nat) (f : Flight → Flight) : (s.updFlight uid f).latches = s.latches := rfl
@[simp] theorem State.updFlight_lines (s : State) (uid : Nat) (f : Flight → Flight) : (s.updFlight uid f).lines = s.lines := rfl
@[simp] theorem State.updFlight_fetchers (s : State) (uid : Nat) (f : Flight → Flight) : (s.updFlight uid f).fetchers = s.fetchers := rfl
@[simp] theorem State.updFlight_queues (s : State) (uid : Nat) (f : Flight → Flight) : (s.updFlight uid f).queues = s.queues := rfl
@[simp] theorem State.updFlight_board (s : State) (uid : Nat) (f : Flight → Flight) : (s.updFlight uid f).board = s.board := rfl
@[simp] theorem State.updFlight_trackers (s : State) (uid : Nat) (f : Flight → Flight) : (s.updFlight uid f).trackers = s.trackers := rfl
@[simp] theorem State.updFlight_mem (s : State) (uid : Nat) (f : Flight → Flight) : (s.updFlight uid f).mem = s.mem := rfl
@[simp] theorem State.updFlight_prop (s : State) (uid : Nat) (f : Flight → Flight) : (s.updFlight uid f).prop = s.prop := rfl
@[simp] theorem State.updFlight_bs (s : State) (uid : Nat) (f : Flight → Flight) : (s.updFlight uid f).bs = s.bs := rfl
@[simp] theorem State.updFlight_fab (s : State) (uid : Nat) (f : Flight → Flight) : (s.updFlight uid f).fab = s.fab := rfl
@[simp] theorem State.updFlight_arr (s : State) (uid : Nat) (f : Flight → Flight) : (s.updFlight uid f).arr = s.arr := rfl
@[simp] theorem State.updFlight_cho (s : State) (uid : Nat) (f : Flight → Flight) : (s.updFlight uid f).cho = s.cho := rfl
@[simp] theorem State.updFlight_gangs (s : State) (uid : Nat) (f : Flight → Flight) : (s.updFlight uid f).gangs = s.gangs := rfl
@[simp] theorem State.updFlight_lanes (s : State) (uid : Nat) (f : Flight → Flight) : (s.updFlight uid f).lanes = s.lanes := rfl
@[simp] theorem State.updFlight_fly (s : State) (uid : Nat) (f : Flight → Flight) : (s.updFlight uid f).fly = s.fly := rfl
@[simp] theorem State.updFlight_exch (s : State) (uid : Nat) (f : Flight → Flight) : (s.updFlight uid f).exch = s.exch := rfl
@[simp] theorem State.updFlight_flash (s : State) (uid : Nat) (f : Flight → Flight) : (s.updFlight uid f).flash = s.flash := rfl
@[simp] theorem State.updFlight_writer (s : State) (uid : Nat) (f : Flight → Flight) : (s.updFlight uid f).writer = s.writer := rfl
@[simp] theorem State.updFlight_tab (s : State) (uid : Nat) (f : Flight → Flight) : (s.updFlight uid f).tab = s.tab := rfl
@[simp] theorem State.updFlight_rep (s : State) (uid : Nat) (f : Flight → Flight) : (s.updFlight uid f).rep = s.rep := rfl
@[simp] theorem State.updFlight_repBad (s : State) (uid : Nat) (f : Flight → Flight) : (s.updFlight uid f).repBad = s.repBad := rfl
@[simp] theorem State.updFlight_outs (s : State) (uid : Nat) (f : Flight → Flight) : (s.updFlight uid f).outs = s.outs := rfl
@[simp] theorem State.updFlight_timers (s : State) (uid : Nat) (f : Flight → Flight) : (s.updFlight uid f).timers = s.timers := rfl
@[simp] theorem State.updFlight_trig (s : State) (uid : Nat) (f : Flight → Flight) : (s.updFlight uid f).trig = s.trig := rfl
@[simp] theorem State.updFlight_freeCtr (s : State) (uid : Nat) (f : Flight → Flight) : (s.updFlight uid f).freeCtr = s.freeCtr := rfl
@[simp] theorem State.updFlight_nextUid (s : State) (uid : Nat) (f : Flight → Flight) : (s.updFlight uid f).nextUid = s.nextUid := rfl
@[simp] theorem State.updFlight_nextTag (s : State) (uid : Nat) (f : Flight → Flight) : (s.updFlight uid f).nextTag = s.nextTag := rfl
@[simp] theorem State.updFlight_pending (s : State) (uid : Nat) (f : Flight → Flight) : (s.updFlight uid f).pending = s.pending := rfl
@[simp] theorem State.updFlight_reg (s : State) (uid : Nat) (f : Flight → Flight) (p : Nat) : (s.updFlight uid f).reg p = s.reg p := rfl

@[simp] theorem State.emit_build (s : State) (o : Output) : (s.emit o).build = s.build := rfl
@[simp] theorem State.emit_phase (s : State) (o : Output) : (s.emit o).phase = s.phase := rfl
@[simp] theorem State.emit_pins (s : State) (o : Output) : (s.emit o).pins = s.pins := rfl
@[simp] theorem State.emit_secret (s : State) (o : Output) : (s.emit o).secret = s.secret := rfl
@[simp] theorem State.emit_tick (s : State) (o : Output) : (s.emit o).tick = s.tick := rfl
@[simp] theorem State.emit_regs (s : State) (o : Output) : (s.emit o).regs = s.regs := rfl
@[simp] theorem State.emit_latches (s : State) (o : Output) : (s.emit o).latches = s.latches := rfl
@[simp] theorem State.emit_lines (s : State) (o : Output) : (s.emit o).lines = s.lines := rfl
@[simp] theorem State.emit_fetchers (s : State) (o : Output) : (s.emit o).fetchers = s.fetchers := rfl
@[simp] theorem State.emit_flights (s : State) (o : Output) : (s.emit o).flights = s.flights := rfl
@[simp] theorem State.emit_queues (s : State) (o : Output) : (s.emit o).queues = s.queues := rfl
@[simp] theorem State.emit_board (s : State) (o : Output) : (s.emit o).board = s.board := rfl
@[simp] theorem State.emit_trackers (s : State) (o : Output) : (s.emit o).trackers = s.trackers := rfl
@[simp] theorem State.emit_mem (s : State) (o : Output) : (s.emit o).mem = s.mem := rfl
@[simp] theorem State.emit_prop (s : State) (o : Output) : (s.emit o).prop = s.prop := rfl
@[simp] theorem State.emit_bs (s : State) (o : Output) : (s.emit o).bs = s.bs := rfl
@[simp] theorem State.emit_fab (s : State) (o : Output) : (s.emit o).fab = s.fab := rfl
@[simp] theorem State.emit_arr (s : State) (o : Output) : (s.emit o).arr = s.arr := rfl
@[simp] theorem State.emit_cho (s : State) (o : Output) : (s.emit o).cho = s.cho := rfl
@[simp] theorem State.emit_gangs (s : State) (o : Output) : (s.emit o).gangs = s.gangs := rfl
@[simp] theorem State.emit_lanes (s : State) (o : Output) : (s.emit o).lanes = s.lanes := rfl
@[simp] theorem State.emit_fly (s : State) (o : Output) : (s.emit o).fly = s.fly := rfl
@[simp] theorem State.emit_exch (s : State) (o : Output) : (s.emit o).exch = s.exch := rfl
@[simp] theorem State.emit_flash (s : State) (o : Output) : (s.emit o).flash = s.flash := rfl
@[simp] theorem State.emit_writer (s : State) (o : Output) : (s.emit o).writer = s.writer := rfl
@[simp] theorem State.emit_tab (s : State) (o : Output) : (s.emit o).tab = s.tab := rfl
@[simp] theorem State.emit_rep (s : State) (o : Output) : (s.emit o).rep = s.rep := rfl
@[simp] theorem State.emit_repBad (s : State) (o : Output) : (s.emit o).repBad = s.repBad := rfl
@[simp] theorem State.emit_timers (s : State) (o : Output) : (s.emit o).timers = s.timers := rfl
@[simp] theorem State.emit_trig (s : State) (o : Output) : (s.emit o).trig = s.trig := rfl
@[simp] theorem State.emit_freeCtr (s : State) (o : Output) : (s.emit o).freeCtr = s.freeCtr := rfl
@[simp] theorem State.emit_nextUid (s : State) (o : Output) : (s.emit o).nextUid = s.nextUid := rfl
@[simp] theorem State.emit_nextTag (s : State) (o : Output) : (s.emit o).nextTag = s.nextTag := rfl
@[simp] theorem State.emit_pending (s : State) (o : Output) : (s.emit o).pending = s.pending := rfl
@[simp] theorem State.emit_reg (s : State) (o : Output) (p : Nat) : (s.emit o).reg p = s.reg p := rfl

@[simp] theorem State.trigger_build (s : State) (k : Nat) (id : BitVec 16) : (s.trigger k id).build = s.build := rfl
@[simp] theorem State.trigger_phase (s : State) (k : Nat) (id : BitVec 16) : (s.trigger k id).phase = s.phase := rfl
@[simp] theorem State.trigger_pins (s : State) (k : Nat) (id : BitVec 16) : (s.trigger k id).pins = s.pins := rfl
@[simp] theorem State.trigger_secret (s : State) (k : Nat) (id : BitVec 16) : (s.trigger k id).secret = s.secret := rfl
@[simp] theorem State.trigger_tick (s : State) (k : Nat) (id : BitVec 16) : (s.trigger k id).tick = s.tick := rfl
@[simp] theorem State.trigger_regs (s : State) (k : Nat) (id : BitVec 16) : (s.trigger k id).regs = s.regs := rfl
@[simp] theorem State.trigger_latches (s : State) (k : Nat) (id : BitVec 16) : (s.trigger k id).latches = s.latches := rfl
@[simp] theorem State.trigger_lines (s : State) (k : Nat) (id : BitVec 16) : (s.trigger k id).lines = s.lines := rfl
@[simp] theorem State.trigger_fetchers (s : State) (k : Nat) (id : BitVec 16) : (s.trigger k id).fetchers = s.fetchers := rfl
@[simp] theorem State.trigger_flights (s : State) (k : Nat) (id : BitVec 16) : (s.trigger k id).flights = s.flights := rfl
@[simp] theorem State.trigger_queues (s : State) (k : Nat) (id : BitVec 16) : (s.trigger k id).queues = s.queues := rfl
@[simp] theorem State.trigger_board (s : State) (k : Nat) (id : BitVec 16) : (s.trigger k id).board = s.board := rfl
@[simp] theorem State.trigger_trackers (s : State) (k : Nat) (id : BitVec 16) : (s.trigger k id).trackers = s.trackers := rfl
@[simp] theorem State.trigger_mem (s : State) (k : Nat) (id : BitVec 16) : (s.trigger k id).mem = s.mem := rfl
@[simp] theorem State.trigger_prop (s : State) (k : Nat) (id : BitVec 16) : (s.trigger k id).prop = s.prop := rfl
@[simp] theorem State.trigger_bs (s : State) (k : Nat) (id : BitVec 16) : (s.trigger k id).bs = s.bs := rfl
@[simp] theorem State.trigger_fab (s : State) (k : Nat) (id : BitVec 16) : (s.trigger k id).fab = s.fab := rfl
@[simp] theorem State.trigger_arr (s : State) (k : Nat) (id : BitVec 16) : (s.trigger k id).arr = s.arr := rfl
@[simp] theorem State.trigger_cho (s : State) (k : Nat) (id : BitVec 16) : (s.trigger k id).cho = s.cho := rfl
@[simp] theorem State.trigger_gangs (s : State) (k : Nat) (id : BitVec 16) : (s.trigger k id).gangs = s.gangs := rfl
@[simp] theorem State.trigger_lanes (s : State) (k : Nat) (id : BitVec 16) : (s.trigger k id).lanes = s.lanes := rfl
@[simp] theorem State.trigger_fly (s : State) (k : Nat) (id : BitVec 16) : (s.trigger k id).fly = s.fly := rfl
@[simp] theorem State.trigger_exch (s : State) (k : Nat) (id : BitVec 16) : (s.trigger k id).exch = s.exch := rfl
@[simp] theorem State.trigger_flash (s : State) (k : Nat) (id : BitVec 16) : (s.trigger k id).flash = s.flash := rfl
@[simp] theorem State.trigger_writer (s : State) (k : Nat) (id : BitVec 16) : (s.trigger k id).writer = s.writer := rfl
@[simp] theorem State.trigger_tab (s : State) (k : Nat) (id : BitVec 16) : (s.trigger k id).tab = s.tab := rfl
@[simp] theorem State.trigger_rep (s : State) (k : Nat) (id : BitVec 16) : (s.trigger k id).rep = s.rep := rfl
@[simp] theorem State.trigger_repBad (s : State) (k : Nat) (id : BitVec 16) : (s.trigger k id).repBad = s.repBad := rfl
@[simp] theorem State.trigger_outs (s : State) (k : Nat) (id : BitVec 16) : (s.trigger k id).outs = s.outs := rfl
@[simp] theorem State.trigger_timers (s : State) (k : Nat) (id : BitVec 16) : (s.trigger k id).timers = s.timers := rfl
@[simp] theorem State.trigger_freeCtr (s : State) (k : Nat) (id : BitVec 16) : (s.trigger k id).freeCtr = s.freeCtr := rfl
@[simp] theorem State.trigger_nextUid (s : State) (k : Nat) (id : BitVec 16) : (s.trigger k id).nextUid = s.nextUid := rfl
@[simp] theorem State.trigger_nextTag (s : State) (k : Nat) (id : BitVec 16) : (s.trigger k id).nextTag = s.nextTag := rfl
@[simp] theorem State.trigger_pending (s : State) (k : Nat) (id : BitVec 16) : (s.trigger k id).pending = s.pending := rfl
@[simp] theorem State.trigger_reg (s : State) (k : Nat) (id : BitVec 16) (p : Nat) : (s.trigger k id).reg p = s.reg p := rfl

@[simp] theorem State.line_setLine_self (s : State) (l : Line) (v : LineSt) : (s.setLine l v).line l = v := by cases l <;> rfl

theorem State.line_setLine_ne (s : State) {l k : Line} (v : LineSt) (h : k ≠ l) : (s.setLine l v).line k = s.line k := by
  cases l <;> cases k <;> first | rfl | exact absurd rfl h

@[simp] theorem State.queue_setQueue (s : State) (e : Nat) (q : List Nat) (k : Nat) :
    (s.setQueue e q).queue k = if k = e then q else s.queue k := NMap.get_set _ _ _ _ _

@[simp] theorem State.fetcher_setFetcher (s : State) (e : Nat) (v : Fetcher) (k : Nat) :
    (s.setFetcher e v).fetcher k = if k = e then v else s.fetcher k := NMap.get_set _ _ _ _ _

@[simp] theorem State.tracker_setTracker (s : State) (i : Nat) (v : Tracker) (k : Nat) :
    (s.setTracker i v).tracker k = if k = i then v else s.tracker k := NMap.get_set _ _ _ _ _

@[simp] theorem State.handle_setHandle (s : State) (h : Nat) (v : Handle) (k : Nat) :
    (s.setHandle h v).handle k = if k = h then v else s.handle k := NMap.get_set _ _ _ _ _

@[simp] theorem State.page_setPage (s : State) (d : Nat) (v : Page) (k : Nat) :
    (s.setPage d v).page k = if k = d then v else s.page k := NMap.get_set _ _ _ _ _

@[simp] theorem State.cnt_setCnt (s : State) (i : Nat) (v : BitVec 20) (k : Nat) :
    (s.setCnt i v).cnt k = if k = i then v else s.cnt k := NMap.get_set _ _ _ _ _

@[simp] theorem State.tree_setTree (s : State) (i : Nat) (v : CcTree) (k : Nat) :
    (s.setTree i v).tree k = if k = i then v else s.tree k := NMap.get_set _ _ _ _ _

end Sys2Proof.Machine
end

