-- ==== Sys2Proof/Laws/Memory.lean ====
section
/-! SUPPORT. Laws of memory: every operation keeps the canonical form, a read after a write gives what was written, and a
write leaves every other byte alone. -/

namespace Sys2Proof.Machine

/-! The canonical form of keyed lists. -/

theorem NMap.wf_iff {α : Type} [DecidableEq α] (d : Nat → α) (m : NMap α) :
    NMap.wf d m = true ↔ m.Pairwise (fun x y => x.1 < y.1) ∧ ∀ e ∈ m, e.2 ≠ d e.1 := by
  induction m with
  | nil => simp [NMap.wf]
  | cons x m ih =>
    cases m with
    | nil => simp [NMap.wf]
    | cons y m =>
      simp only [NMap.wf, Bool.and_eq_true, decide_eq_true_eq, ih, List.pairwise_cons, List.mem_cons, forall_eq_or_imp]
      constructor
      · rintro ⟨⟨hx, hxy⟩, ⟨hy, hm⟩, hv, hw⟩
        exact ⟨⟨⟨hxy, fun a ha => hxy.trans (hy a ha)⟩, hy, hm⟩, hx, hv, hw⟩
      · rintro ⟨⟨⟨hxy, -⟩, hy, hm⟩, hx, hv, hw⟩
        exact ⟨⟨hx, hxy⟩, ⟨hy, hm⟩, hv, hw⟩

theorem NMap.wf_filter {α : Type} [DecidableEq α] {d : Nat → α} {m : NMap α} (p : Nat × α → Bool) (h : NMap.wf d m = true) :
    NMap.wf d (m.filter p) = true := by
  rw [NMap.wf_iff] at h ⊢
  exact ⟨h.1.sublist List.filter_sublist, fun e he => h.2 e (List.mem_of_mem_filter he)⟩

theorem NMap.mem_put {α : Type} {m : NMap α} {k : Nat} {v : α} {e : Nat × α} (h : e ∈ NMap.put m k v) : e = (k, v) ∨ e ∈ m := by
  induction m with
  | nil => simpa [NMap.put] using h
  | cons x m ih =>
    obtain ⟨a, w⟩ := x
    unfold NMap.put at h
    split at h
    · simpa using h
    · split at h
      · simp only [List.mem_cons] at h ⊢; tauto
      · simp only [List.mem_cons] at h ⊢
        rcases h with h | h
        · tauto
        · have := ih h; tauto

theorem NMap.wf_put {α : Type} [DecidableEq α] {d : Nat → α} {m : NMap α} {k : Nat} {v : α} (h : NMap.wf d m = true)
    (hv : v ≠ d k) : NMap.wf d (NMap.put m k v) = true := by
  rw [NMap.wf_iff] at h ⊢
  refine ⟨?_, fun e he => (NMap.mem_put he).elim (fun x => by subst x; exact hv) (h.2 e)⟩
  replace h := h.1
  induction m with
  | nil => simp [NMap.put]
  | cons x m ih =>
    obtain ⟨a, w⟩ := x
    rw [List.pairwise_cons] at h
    unfold NMap.put
    split
    · rename_i hk
      refine List.pairwise_cons.2 ⟨fun e he => ?_, List.pairwise_cons.2 h⟩
      rcases List.mem_cons.1 he with rfl | he
      · exact hk
      · exact hk.trans (h.1 e he)
    · split
      · subst a; exact List.pairwise_cons.2 h
      · refine List.pairwise_cons.2 ⟨fun e he => ?_, ih h.2⟩
        rcases NMap.mem_put he with rfl | he
        · show a < k; omega
        · exact h.1 e he

/-- An update keeps the canonical form. -/
theorem NMap.wf_set {α : Type} [DecidableEq α] {d : Nat → α} {m : NMap α} (k : Nat) (v : α) (h : NMap.wf d m = true) :
    NMap.wf d (NMap.set (d k) m k v) = true := by
  unfold NMap.set
  split
  · exact NMap.wf_filter _ h
  · exact NMap.wf_put h ‹_›

/-! Memory keeps its canonical form. -/

theorem Mem.wf_same {m n : Mem} (h : m.wf = true) (e : n.epoch = m.epoch) (k : n.dark = m.dark) (c : n.cells = m.cells) (f : n.flaws = m.flaws)
    (q : ∀ x ∈ n.wq, x ∈ m.wq) : n.wf = true := by
  have hb : n.base = m.base := by funext a; simp only [Mem.base, e, k]
  have hf : n.baseFlaw = m.baseFlaw := by funext a; simp only [Mem.baseFlaw, e]
  unfold Mem.wf at h ⊢
  rw [hb, hf, c, f]
  rw [Bool.and_eq_true] at h ⊢
  exact ⟨h.1, List.all_eq_true.mpr fun x hx => List.all_eq_true.mp h.2 x (q x hx)⟩

theorem Mem.wf_setByte {m : Mem} (a : Nat) (v : Byte) (h : m.wf = true) : (m.setByte a v).wf = true := by
  unfold Mem.wf at h ⊢
  rw [Bool.and_eq_true, Bool.and_eq_true] at h ⊢
  exact ⟨⟨NMap.wf_set (d := m.base) a v h.1.1, h.1.2⟩, h.2⟩

theorem Mem.wf_setBytes {m : Mem} (a : Nat) (l : List Byte) (h : m.wf = true) : (m.setBytes a l).wf = true := by
  induction l generalizing m a with
  | nil => exact h
  | cons v vs ih => exact ih _ (Mem.wf_setByte a v h)

theorem Mem.wf_setFlaw {m : Mem} (w : Nat) (fl : List (Nat × Byte)) (h : m.wf = true) : (m.setFlaw w fl).wf = true := by
  unfold Mem.wf at h ⊢
  rw [Bool.and_eq_true, Bool.and_eq_true] at h ⊢
  exact ⟨⟨h.1.1, NMap.wf_set (d := m.baseFlaw) w fl h.1.2⟩, h.2⟩

theorem Mem.wf_setFlaws {m : Mem} (at_ : Nat → Nat) (fl : List (Nat × Byte)) (l : List Nat) (h : m.wf = true) :
    (l.foldl (fun m i => m.setFlaw (at_ i) fl) m).wf = true := by
  induction l generalizing m with
  | nil => exact h
  | cons i l ih => exact ih (Mem.wf_setFlaw _ _ h)

theorem Mem.wf_zeroRange {m : Mem} (lo n : Nat) (h : m.wf = true) : (m.zeroRange lo n).wf = true := by
  unfold Mem.zeroRange
  dsimp only
  split
  · unfold Mem.wf at h ⊢
    rw [Bool.and_eq_true, Bool.and_eq_true] at h ⊢
    exact ⟨⟨NMap.wf_filter _ h.1.1, NMap.wf_filter _ h.1.2⟩, h.2⟩
  · exact Mem.wf_setFlaws (fun i => lo / 64 + i) _ _ (Mem.wf_setBytes _ _ (Mem.wf_same h rfl rfl rfl rfl fun _ x => x))

theorem mem_listDrop1 {α : Type} {l : List α} {i : Nat} {x : α} (h : x ∈ listDrop1 l i) : x ∈ l := by
  unfold listDrop1 at h
  rcases List.mem_append.mp h with h | h
  · exact List.mem_of_mem_take h
  · exact List.mem_of_mem_drop h

/-- A further write that lies inside one word. -/
theorem Mem.wf_push {m : Mem} (w : PendWrite) (f : w.fits = true) (h : m.wf = true) : Mem.wf { m with wq := m.wq ++ [w] } = true := by
  unfold Mem.wf at h ⊢
  rw [Bool.and_eq_true] at h ⊢
  refine ⟨h.1, ?_⟩
  rw [List.all_append, h.2]
  exact Bool.and_true _ ▸ f

/-! Read after write. -/

@[simp] theorem Mem.base_setByte (m : Mem) (a : Nat) (v : Byte) : (m.setByte a v).base = m.base := rfl

theorem Mem.byte_setByte (m : Mem) (a b : Nat) (v : Byte) : (m.setByte a v).byte b = if b = a then v else m.byte b := by
  unfold Mem.byte
  rw [Mem.base_setByte]
  show NMap.get (m.base b) (NMap.set (m.base a) m.cells a v) b = _
  by_cases h : b = a
  · subst h; rw [NMap.get_set, if_pos rfl]
  · rw [if_neg h]
    unfold NMap.set
    split
    · rw [NMap.get_del, if_neg h]
    · rw [NMap.get_put, if_neg h]

theorem Mem.byte_setBytes (m : Mem) (a : Nat) (l : List Byte) (b : Nat) :
    (m.setBytes a l).byte b = if a ≤ b ∧ b < a + l.length then listGet 0 l (b - a) else m.byte b := by
  induction l generalizing m a with
  | nil => simp only [Mem.setBytes, List.length_nil]; rw [if_neg (by omega)]
  | cons v vs ih =>
    simp only [Mem.setBytes, ih, Mem.byte_setByte, List.length_cons]
    by_cases h : b = a
    · subst h; rw [if_neg (by omega), if_pos rfl, if_pos (by omega)]; simp [listGet]
    · by_cases k : a + 1 ≤ b ∧ b < a + 1 + vs.length
      · rw [if_pos k, if_pos (by omega)]
        obtain ⟨i, rfl⟩ : ∃ i, b = a + 1 + i := ⟨b - (a + 1), by omega⟩
        rw [show a + 1 + i - (a + 1) = i by omega, show a + 1 + i - a = i + 1 by omega]; rfl
      · rw [if_neg k, if_neg h, if_neg (by omega)]

@[simp] theorem Mem.byte_setFlaw (m : Mem) (w : Nat) (fl : List (Nat × Byte)) (b : Nat) : (m.setFlaw w fl).byte b = m.byte b := rfl

@[simp] theorem Mem.flaw_setByte (m : Mem) (a : Nat) (v : Byte) (w : Nat) : (m.setByte a v).flaw w = m.flaw w := rfl

theorem Mem.epoch_setBytes (m : Mem) (a : Nat) (l : List Byte) : (m.setBytes a l).epoch = m.epoch := by
  induction l generalizing m a with
  | nil => rfl
  | cons v vs ih => exact ih _ _

theorem Mem.dark_setBytes (m : Mem) (a : Nat) (l : List Byte) : (m.setBytes a l).dark = m.dark := by
  induction l generalizing m a with
  | nil => rfl
  | cons v vs ih => exact ih _ _

theorem Mem.flaws_setBytes (m : Mem) (a : Nat) (l : List Byte) : (m.setBytes a l).flaws = m.flaws := by
  induction l generalizing m a with
  | nil => rfl
  | cons v vs ih => exact ih _ _

@[simp] theorem Mem.flaw_setBytes (m : Mem) (a : Nat) (l : List Byte) (w : Nat) : (m.setBytes a l).flaw w = m.flaw w := by
  unfold Mem.flaw Mem.baseFlaw; rw [Mem.epoch_setBytes, Mem.flaws_setBytes]

theorem Mem.flaw_setFlaw (m : Mem) (w x : Nat) (fl : List (Nat × Byte)) :
    (m.setFlaw w fl).flaw x = if x = w then fl else m.flaw x := by
  show NMap.get (m.baseFlaw x) (NMap.set (m.baseFlaw w) m.flaws w fl) x = _
  by_cases h : x = w
  · subst h; simp
  · rw [if_neg h]
    unfold NMap.set
    split
    · rw [NMap.get_del, if_neg h]; rfl
    · rw [NMap.get_put, if_neg h]; rfl

/-! Registers. -/

theorem State.wf_setReg (s : State) (o : Nat) (v : Word) (h : NMap.wf (regReset s.build) s.regs = true) :
    NMap.wf (regReset s.build) (s.setReg o v).regs = true := NMap.wf_set (d := regReset s.build) o v h

theorem State.wf_keepRegs (s : State) (sel : RegRow → Nat) :
    NMap.wf (regReset s.build) (s.keepRegs sel).regs = true := by
  unfold State.keepRegs
  dsimp only
  have : ∀ (l : NMap Word) (m : NMap Word), NMap.wf (regReset s.build) m = true →
      NMap.wf (regReset s.build) (l.foldl (fun m x =>
        let r := regReset s.build x.1
        let k := match regRow? x.1 with | some row => sel row | none => 0
        NMap.set r m x.1 (keepBits r x.2 k)) m) = true := by
    intro l
    induction l with
    | nil => exact fun m h => h
    | cons x l ih => exact fun m h => ih _ (NMap.wf_set (d := regReset s.build) _ _ h)
  exact this _ _ rfl

end Sys2Proof.Machine
end

