-- ==== Sys2Proof/Laws/Frame.lean ====
section
/-! SUPPORT. How frames compose: a function changes nothing but what its parts change, and keeps the canonical forms that
its parts keep. -/

namespace Sys2Proof.Machine

theorem Field.same_refl (f : Field) (s : State) : f.same s s := by cases f <;> simp [Field.same]

theorem Field.same_trans {f : Field} {s t u : State} (h : f.same s t) (k : f.same t u) : f.same s u := by
  cases f <;> first
    | exact Eq.trans k h
    | exact fun o ho => Eq.trans (k o ho) (h o ho)

theorem KeptBut.refl (l : List Field) (s : State) : KeptBut l s s := ⟨fun f _ => f.same_refl s⟩

theorem KeptBut.trans {l : List Field} {s t u : State} (h : KeptBut l s t) (k : KeptBut l t u) : KeptBut l s u :=
  ⟨fun f hf => Field.same_trans (h.same f hf) (k.same f hf)⟩

theorem KeptBut.mono {l m : List Field} {s t : State} (h : KeptBut l s t) (sub : (l.all fun f => m.contains f) = true) :
    KeptBut m s t := ⟨fun f hf => h.same f fun hl => hf (by simpa using List.all_eq_true.1 sub f hl)⟩

/-- A further step of a chain. -/
theorem KeptBut.step {l m : List Field} {s t u : State} (k : KeptBut l t u)
    (sub : (l.all fun f => m.contains f) = true) (h : KeptBut m s t) : KeptBut m s u := h.trans (k.mono sub)

theorem KeptBut.ite {m : List Field} {s t u : State} {c : Prop} [Decidable c] (h : KeptBut m s t) (k : KeptBut m s u) :
    KeptBut m s (if c then t else u) := by split <;> assumption

/-- A state built from another by new values of fields. -/
theorem KeptBut.upd {m : List Field} {s : State} {t : State}
    {vphase : Phase} {vpins : Pins} {vsecret : Secret} {vtick : BitVec 64} {vlatches : NMap Word}
    {vlines : PerLine LineSt} {vfetchers : NMap Fetcher} {vflights : List Flight} {vqueues : NMap (List Nat)}
    {vboard : Callboard} {vtrackers : NMap Tracker} {vmem : Mem} {vprop : PropTable} {vbs : Backstage} {vfab : Fab}
    {varr : Arr} {vcho : NMap ChoUnit} {vgangs : NMap GangRun} {vlanes : NMap (List ChoElem)} {vfly : NMap FlyEng}
    {vexch : Exch} {vflash : Flash} {vwriter : Writer} {vtab : Tableau} {vrep : NMap Word} {vrepBad : List Nat}
    {vouts : List Output} {vtimers : List (Timer × Nat)} {vtrig : List Trigger} {vfreeCtr : Nat} {vnextUid : Nat}
    {vnextTag : Nat} {vpending : List Instr}
    (h : KeptBut m s t)

    (hphase : Field.phase ∈ m ∨ vphase = t.phase := by first | exact .inr (by with_reducible rfl) | exact .inl (by decide))
    (hpins : Field.pins ∈ m ∨ vpins = t.pins := by first | exact .inr (by with_reducible rfl) | exact .inl (by decide))
    (hsecret : Field.secret ∈ m ∨ vsecret = t.secret := by first | exact .inr (by with_reducible rfl) | exact .inl (by decide))
    (htick : Field.tick ∈ m ∨ vtick = t.tick := by first | exact .inr (by with_reducible rfl) | exact .inl (by decide))
    (hlatches : Field.latches ∈ m ∨ vlatches = t.latches := by first | exact .inr (by with_reducible rfl) | exact .inl (by decide))
    (hlines : Field.lines ∈ m ∨ vlines = t.lines := by first | exact .inr (by with_reducible rfl) | exact .inl (by decide))
    (hfetchers : Field.fetchers ∈ m ∨ vfetchers = t.fetchers := by first | exact .inr (by with_reducible rfl) | exact .inl (by decide))
    (hflights : Field.flights ∈ m ∨ vflights = t.flights := by first | exact .inr (by with_reducible rfl) | exact .inl (by decide))
    (hqueues : Field.queues ∈ m ∨ vqueues = t.queues := by first | exact .inr (by with_reducible rfl) | exact .inl (by decide))
    (hboard : Field.board ∈ m ∨ vboard = t.board := by first | exact .inr (by with_reducible rfl) | exact .inl (by decide))
    (htrackers : Field.trackers ∈ m ∨ vtrackers = t.trackers := by first | exact .inr (by with_reducible rfl) | exact .inl (by decide))
    (hmem : Field.mem ∈ m ∨ vmem = t.mem := by first | exact .inr (by with_reducible rfl) | exact .inl (by decide))
    (hprop : Field.prop ∈ m ∨ vprop = t.prop := by first | exact .inr (by with_reducible rfl) | exact .inl (by decide))
    (hbs : Field.bs ∈ m ∨ vbs = t.bs := by first | exact .inr (by with_reducible rfl) | exact .inl (by decide))
    (hfab : Field.fab ∈ m ∨ vfab = t.fab := by first | exact .inr (by with_reducible rfl) | exact .inl (by decide))
    (harr : Field.arr ∈ m ∨ varr = t.arr := by first | exact .inr (by with_reducible rfl) | exact .inl (by decide))
    (hcho : Field.cho ∈ m ∨ vcho = t.cho := by first | exact .inr (by with_reducible rfl) | exact .inl (by decide))
    (hgangs : Field.gangs ∈ m ∨ vgangs = t.gangs := by first | exact .inr (by with_reducible rfl) | exact .inl (by decide))
    (hlanes : Field.lanes ∈ m ∨ vlanes = t.lanes := by first | exact .inr (by with_reducible rfl) | exact .inl (by decide))
    (hfly : Field.fly ∈ m ∨ vfly = t.fly := by first | exact .inr (by with_reducible rfl) | exact .inl (by decide))
    (hexch : Field.exch ∈ m ∨ vexch = t.exch := by first | exact .inr (by with_reducible rfl) | exact .inl (by decide))
    (hflash : Field.flash ∈ m ∨ vflash = t.flash := by first | exact .inr (by with_reducible rfl) | exact .inl (by decide))
    (hwriter : Field.writer ∈ m ∨ vwriter = t.writer := by first | exact .inr (by with_reducible rfl) | exact .inl (by decide))
    (htab : Field.tab ∈ m ∨ vtab = t.tab := by first | exact .inr (by with_reducible rfl) | exact .inl (by decide))
    (hrep : Field.rep ∈ m ∨ vrep = t.rep := by first | exact .inr (by with_reducible rfl) | exact .inl (by decide))
    (hrepBad : Field.repBad ∈ m ∨ vrepBad = t.repBad := by first | exact .inr (by with_reducible rfl) | exact .inl (by decide))
    (houts : Field.outs ∈ m ∨ vouts = t.outs := by first | exact .inr (by with_reducible rfl) | exact .inl (by decide))
    (htimers : Field.timers ∈ m ∨ vtimers = t.timers := by first | exact .inr (by with_reducible rfl) | exact .inl (by decide))
    (htrig : Field.trig ∈ m ∨ vtrig = t.trig := by first | exact .inr (by with_reducible rfl) | exact .inl (by decide))
    (hfreeCtr : Field.freeCtr ∈ m ∨ vfreeCtr = t.freeCtr := by first | exact .inr (by with_reducible rfl) | exact .inl (by decide))
    (hnextUid : Field.nextUid ∈ m ∨ vnextUid = t.nextUid := by first | exact .inr (by with_reducible rfl) | exact .inl (by decide))
    (hnextTag : Field.nextTag ∈ m ∨ vnextTag = t.nextTag := by first | exact .inr (by with_reducible rfl) | exact .inl (by decide))
    (hpending : Field.pending ∈ m ∨ vpending = t.pending := by first | exact .inr (by with_reducible rfl) | exact .inl (by decide)) :
    KeptBut m s (State.mk t.build vphase vpins vsecret vtick t.regs vlatches vlines vfetchers vflights vqueues vboard vtrackers vmem
      vprop vbs vfab varr vcho vgangs vlanes vfly vexch vflash vwriter vtab vrep vrepBad vouts vtimers vtrig
      vfreeCtr vnextUid vnextTag vpending) := by
  refine h.trans ⟨fun f hf => ?_⟩
  cases f <;> first
    | rfl
    | exact fun _ _ => rfl
    | (simp only [Field.same]; first
        | exact hphase.resolve_left hf
        | exact hpins.resolve_left hf
        | exact hsecret.resolve_left hf
        | exact htick.resolve_left hf
        | exact hlatches.resolve_left hf
        | exact hlines.resolve_left hf
        | exact hfetchers.resolve_left hf
        | exact hflights.resolve_left hf
        | exact hqueues.resolve_left hf
        | exact hboard.resolve_left hf
        | exact htrackers.resolve_left hf
        | exact hmem.resolve_left hf
        | exact hprop.resolve_left hf
        | exact hbs.resolve_left hf
        | exact hfab.resolve_left hf
        | exact harr.resolve_left hf
        | exact hcho.resolve_left hf
        | exact hgangs.resolve_left hf
        | exact hlanes.resolve_left hf
        | exact hfly.resolve_left hf
        | exact hexch.resolve_left hf
        | exact hflash.resolve_left hf
        | exact hwriter.resolve_left hf
        | exact htab.resolve_left hf
        | exact hrep.resolve_left hf
        | exact hrepBad.resolve_left hf
        | exact houts.resolve_left hf
        | exact htimers.resolve_left hf
        | exact htrig.resolve_left hf
        | exact hfreeCtr.resolve_left hf
        | exact hnextUid.resolve_left hf
        | exact hnextTag.resolve_left hf
        | exact hpending.resolve_left hf)

/-- What is said of every function of the machine: the parts of the state it can change, and that it keeps the canonical
forms. -/
structure Kept (l : List Field) (s t : State) : Prop where
  but : KeptBut l s t
  safe : s.safe = true → t.safe = true

theorem Kept.refl (l : List Field) (s : State) : Kept l s s := ⟨KeptBut.refl _ _, id⟩

theorem Kept.trans {l : List Field} {s t u : State} (h : Kept l s t) (k : Kept l t u) : Kept l s u :=
  ⟨h.but.trans k.but, fun x => k.safe (h.safe x)⟩

theorem Kept.mono {l m : List Field} {s t : State} (h : Kept l s t) (sub : (l.all fun f => m.contains f) = true) :
    Kept m s t := ⟨h.but.mono sub, h.safe⟩

/-- A further step of a chain. -/
theorem Kept.step {l m : List Field} {s t u : State} (k : Kept l t u)
    (sub : (l.all fun f => m.contains f) = true) (h : Kept m s t) : Kept m s u := h.trans (k.mono sub)

theorem Kept.ite {m : List Field} {s t u : State} {c : Prop} [Decidable c] (h : Kept m s t) (k : Kept m s u) :
    Kept m s (if c then t else u) := by split <;> assumption

theorem State.safe_of {s t : State} (b : t.build = s.build) (r : t.regs = s.regs) (m : s.mem.wf = true → t.mem.wf = true)
    (h : s.safe = true) : t.safe = true := by
  unfold State.safe at h ⊢
  rw [Bool.and_eq_true] at h ⊢
  exact ⟨m h.1, by rw [b, r]; exact h.2⟩

theorem Kept.upd {m : List Field} {s : State} {t : State}
    {vphase : Phase} {vpins : Pins} {vsecret : Secret} {vtick : BitVec 64} {vlatches : NMap Word}
    {vlines : PerLine LineSt} {vfetchers : NMap Fetcher} {vflights : List Flight} {vqueues : NMap (List Nat)}
    {vboard : Callboard} {vtrackers : NMap Tracker} {vmem : Mem} {vprop : PropTable} {vbs : Backstage} {vfab : Fab}
    {varr : Arr} {vcho : NMap ChoUnit} {vgangs : NMap GangRun} {vlanes : NMap (List ChoElem)} {vfly : NMap FlyEng}
    {vexch : Exch} {vflash : Flash} {vwriter : Writer} {vtab : Tableau} {vrep : NMap Word} {vrepBad : List Nat}
    {vouts : List Output} {vtimers : List (Timer × Nat)} {vtrig : List Trigger} {vfreeCtr : Nat} {vnextUid : Nat}
    {vnextTag : Nat} {vpending : List Instr}
    (h : Kept m s t)

    (hphase : Field.phase ∈ m ∨ vphase = t.phase := by first | exact .inr (by with_reducible rfl) | exact .inl (by decide))
    (hpins : Field.pins ∈ m ∨ vpins = t.pins := by first | exact .inr (by with_reducible rfl) | exact .inl (by decide))
    (hsecret : Field.secret ∈ m ∨ vsecret = t.secret := by first | exact .inr (by with_reducible rfl) | exact .inl (by decide))
    (htick : Field.tick ∈ m ∨ vtick = t.tick := by first | exact .inr (by with_reducible rfl) | exact .inl (by decide))
    (hlatches : Field.latches ∈ m ∨ vlatches = t.latches := by first | exact .inr (by with_reducible rfl) | exact .inl (by decide))
    (hlines : Field.lines ∈ m ∨ vlines = t.lines := by first | exact .inr (by with_reducible rfl) | exact .inl (by decide))
    (hfetchers : Field.fetchers ∈ m ∨ vfetchers = t.fetchers := by first | exact .inr (by with_reducible rfl) | exact .inl (by decide))
    (hflights : Field.flights ∈ m ∨ vflights = t.flights := by first | exact .inr (by with_reducible rfl) | exact .inl (by decide))
    (hqueues : Field.queues ∈ m ∨ vqueues = t.queues := by first | exact .inr (by with_reducible rfl) | exact .inl (by decide))
    (hboard : Field.board ∈ m ∨ vboard = t.board := by first | exact .inr (by with_reducible rfl) | exact .inl (by decide))
    (htrackers : Field.trackers ∈ m ∨ vtrackers = t.trackers := by first | exact .inr (by with_reducible rfl) | exact .inl (by decide))
    (hmem : Field.mem ∈ m ∨ vmem = t.mem := by first | exact .inr (by with_reducible rfl) | exact .inl (by decide))
    (hprop : Field.prop ∈ m ∨ vprop = t.prop := by first | exact .inr (by with_reducible rfl) | exact .inl (by decide))
    (hbs : Field.bs ∈ m ∨ vbs = t.bs := by first | exact .inr (by with_reducible rfl) | exact .inl (by decide))
    (hfab : Field.fab ∈ m ∨ vfab = t.fab := by first | exact .inr (by with_reducible rfl) | exact .inl (by decide))
    (harr : Field.arr ∈ m ∨ varr = t.arr := by first | exact .inr (by with_reducible rfl) | exact .inl (by decide))
    (hcho : Field.cho ∈ m ∨ vcho = t.cho := by first | exact .inr (by with_reducible rfl) | exact .inl (by decide))
    (hgangs : Field.gangs ∈ m ∨ vgangs = t.gangs := by first | exact .inr (by with_reducible rfl) | exact .inl (by decide))
    (hlanes : Field.lanes ∈ m ∨ vlanes = t.lanes := by first | exact .inr (by with_reducible rfl) | exact .inl (by decide))
    (hfly : Field.fly ∈ m ∨ vfly = t.fly := by first | exact .inr (by with_reducible rfl) | exact .inl (by decide))
    (hexch : Field.exch ∈ m ∨ vexch = t.exch := by first | exact .inr (by with_reducible rfl) | exact .inl (by decide))
    (hflash : Field.flash ∈ m ∨ vflash = t.flash := by first | exact .inr (by with_reducible rfl) | exact .inl (by decide))
    (hwriter : Field.writer ∈ m ∨ vwriter = t.writer := by first | exact .inr (by with_reducible rfl) | exact .inl (by decide))
    (htab : Field.tab ∈ m ∨ vtab = t.tab := by first | exact .inr (by with_reducible rfl) | exact .inl (by decide))
    (hrep : Field.rep ∈ m ∨ vrep = t.rep := by first | exact .inr (by with_reducible rfl) | exact .inl (by decide))
    (hrepBad : Field.repBad ∈ m ∨ vrepBad = t.repBad := by first | exact .inr (by with_reducible rfl) | exact .inl (by decide))
    (houts : Field.outs ∈ m ∨ vouts = t.outs := by first | exact .inr (by with_reducible rfl) | exact .inl (by decide))
    (htimers : Field.timers ∈ m ∨ vtimers = t.timers := by first | exact .inr (by with_reducible rfl) | exact .inl (by decide))
    (htrig : Field.trig ∈ m ∨ vtrig = t.trig := by first | exact .inr (by with_reducible rfl) | exact .inl (by decide))
    (hfreeCtr : Field.freeCtr ∈ m ∨ vfreeCtr = t.freeCtr := by first | exact .inr (by with_reducible rfl) | exact .inl (by decide))
    (hnextUid : Field.nextUid ∈ m ∨ vnextUid = t.nextUid := by first | exact .inr (by with_reducible rfl) | exact .inl (by decide))
    (hnextTag : Field.nextTag ∈ m ∨ vnextTag = t.nextTag := by first | exact .inr (by with_reducible rfl) | exact .inl (by decide))
    (hpending : Field.pending ∈ m ∨ vpending = t.pending := by first | exact .inr (by with_reducible rfl) | exact .inl (by decide))
    (wmem : t.mem.wf = true → vmem.wf = true := by first | exact id | exact fun h => Mem.wf_same h rfl rfl rfl rfl (fun _ x => x) | exact fun h => Mem.wf_same h rfl rfl rfl rfl (fun _ x => absurd x List.not_mem_nil) | exact fun h => Mem.wf_same h rfl rfl rfl rfl (fun _ x => mem_listDrop1 x) | exact fun h => Mem.wf_same h rfl rfl rfl rfl (fun _ x => List.mem_of_mem_filter x) | exact Mem.wf_zeroRange _ _ | exact fun h => Mem.wf_setFlaw _ _ (Mem.wf_setBytes _ _ h) | exact fun h => Mem.wf_same (Mem.wf_setFlaw _ _ h) rfl rfl rfl rfl (fun _ x => x) | exact fun h => Mem.wf_same (Mem.wf_setFlaw _ _ (Mem.wf_setBytes _ _ h)) rfl rfl rfl rfl (fun _ x => x) | exact fun _ => rfl) :
    Kept m s (State.mk t.build vphase vpins vsecret vtick t.regs vlatches vlines vfetchers vflights vqueues vboard vtrackers vmem
      vprop vbs vfab varr vcho vgangs vlanes vfly vexch vflash vwriter vtab vrep vrepBad vouts vtimers vtrig
      vfreeCtr vnextUid vnextTag vpending) :=
  ⟨KeptBut.upd h.but hphase hpins hsecret htick hlatches hlines hfetchers hflights hqueues hboard htrackers hmem hprop hbs hfab harr hcho hgangs hlanes hfly hexch hflash hwriter htab hrep hrepBad houts htimers htrig hfreeCtr hnextUid hnextTag hpending,
    fun x => State.safe_of (s := t) rfl rfl wmem (h.safe x)⟩

theorem Kept.fold {m : List Field} {α : Type} {f : State → α → State} (l : List α) {s t : State}
    (k : ∀ u x, Kept m u (f u x)) (h : Kept m s t) : Kept m s (l.foldl f t) := by
  induction l generalizing t with
  | nil => exact h
  | cons x xs ih => exact ih (h.trans (k t x))

theorem Kept.foldR {m : List Field} {α β : Type} {f : β × State → α → β × State} (l : List α) {s : State} {p : β × State}
    (k : ∀ u x, Kept m u.2 (f u x).2) (h : Kept m s p.2) : Kept m s (l.foldl f p).2 := by
  induction l generalizing p with
  | nil => exact h
  | cons x xs ih => exact ih (h.trans (k p x))

theorem Kept.foldL {m : List Field} {α β : Type} {f : State × β → α → State × β} (l : List α) {s : State} {p : State × β}
    (k : ∀ u x, Kept m u.1 (f u x).1) (h : Kept m s p.1) : Kept m s (l.foldl f p).1 := by
  induction l generalizing p with
  | nil => exact h
  | cons x xs ih => exact ih (h.trans (k p x))

theorem Kept.iter {m : List Field} {f : Nat → State → State} (n : Nat) {s t : State}
    (k : ∀ i u, Kept m u (f i u)) (h : Kept m s t) : Kept m s (iter n f t) :=
  Kept.fold _ (fun u i => k i u) h

theorem Kept.iterR {m : List Field} {β : Type} {f : Nat → β × State → β × State} (n : Nat) {s : State} {p : β × State}
    (k : ∀ i u, Kept m u.2 (f i u).2) (h : Kept m s p.2) : Kept m s (Sys2Proof.Machine.iter n f p).2 :=
  Kept.foldR _ (fun u i => k i u) h

/-- An answer that may be none. -/
structure KeptO (m : List Field) (s : State) (o : Option State) : Prop where
  out : ∀ t, o = some t → Kept m s t

structure KeptOR {β : Type} (m : List Field) (s : State) (o : Option (β × State)) : Prop where
  out : ∀ t, o = some t → Kept m s t.2

structure KeptOL {β : Type} (m : List Field) (s : State) (o : Option (State × β)) : Prop where
  out : ∀ t, o = some t → Kept m s t.1

def KeptM (m : List Field) (s : State) : Moved → Prop
  | .stuck t => Kept m s t
  | .on t => Kept m s t

theorem KeptO.none (m : List Field) (s : State) : KeptO m s none := ⟨fun _ h => nomatch h⟩

theorem KeptO.some {m : List Field} {s t : State} (h : Kept m s t) : KeptO m s (some t) := ⟨fun _ e => Option.some.inj e ▸ h⟩

theorem KeptO.ite {m : List Field} {s : State} {a b : Option State} {c : Prop} [Decidable c] (h : KeptO m s a) (k : KeptO m s b) :
    KeptO m s (if c then a else b) := by split <;> assumption

theorem KeptO.map {m : List Field} {s : State} {o : Option State} {f : State → State} (k : ∀ u, Kept m u (f u))
    (h : KeptO m s o) : KeptO m s (o.map f) := by
  refine ⟨fun t e => ?_⟩
  obtain ⟨u, hu, rfl⟩ := Option.map_eq_some_iff.1 e
  exact (h.out u hu).trans (k u)

theorem KeptOR.none {β : Type} (m : List Field) (s : State) : KeptOR (β := β) m s none := ⟨fun _ h => nomatch h⟩

theorem KeptOR.some {β : Type} {m : List Field} {s : State} {t : β × State} (h : Kept m s t.2) : KeptOR m s (some t) :=
  ⟨fun _ e => Option.some.inj e ▸ h⟩

theorem KeptOL.none {β : Type} (m : List Field) (s : State) : KeptOL (β := β) m s none := ⟨fun _ h => nomatch h⟩

theorem KeptOL.some {β : Type} {m : List Field} {s : State} {t : State × β} (h : Kept m s t.1) : KeptOL m s (some t) :=
  ⟨fun _ e => Option.some.inj e ▸ h⟩

theorem Kept.iterWhile {m : List Field} {f : State → Option State} (n : Nat) {s t : State} (k : ∀ u, KeptO m u (f u))
    (h : Kept m s t) : Kept m s (iterWhile n f t) := by
  induction n generalizing t with
  | zero => exact h
  | succ n ih =>
    unfold Sys2Proof.Machine.iterWhile
    split
    · exact h
    · exact ih (h.trans ((k _).out _ ‹_›))

theorem Kept.iterWhileL {m : List Field} {β : Type} {f : State × β → Option (State × β)} (n : Nat) {s : State} {p : State × β}
    (k : ∀ u, KeptOL m u.1 (f u)) (h : Kept m s p.1) : Kept m s (Sys2Proof.Machine.iterWhile n f p).1 := by
  induction n generalizing p with
  | zero => exact h
  | succ n ih =>
    unfold Sys2Proof.Machine.iterWhile
    split
    · exact h
    · exact ih (h.trans ((k _).out _ ‹_›))

/-! The blocks of the register file. -/

theorem Field.ofReg_ctlR {o : Nat} (_l : 0 ≤ o) (h : o < 0x01000) : Field.ofReg o = .ctlR := by
  simp only [Field.ofReg]; repeat (first | rw [if_neg (by omega)] | rw [if_pos (by omega)])

theorem Field.ofReg_bookR {o : Nat} (l : 0x01000 ≤ o) (h : o < 0x01800) : Field.ofReg o = .bookR := by
  simp only [Field.ofReg]; repeat (first | rw [if_neg (by omega)] | rw [if_pos (by omega)])

theorem Field.ofReg_doorR {o : Nat} (l : 0x01800 ≤ o) (h : o < 0x02000) : Field.ofReg o = .doorR := by
  simp only [Field.ofReg]; repeat (first | rw [if_neg (by omega)] | rw [if_pos (by omega)])

theorem Field.ofReg_powerR {o : Nat} (l : 0x02000 ≤ o) (h : o < 0x04000) : Field.ofReg o = .powerR := by
  simp only [Field.ofReg]; repeat (first | rw [if_neg (by omega)] | rw [if_pos (by omega)])

theorem Field.ofReg_lineR {o : Nat} (l : 0x04000 ≤ o) (h : o < 0x05000) : Field.ofReg o = .lineR := by
  simp only [Field.ofReg]; repeat (first | rw [if_neg (by omega)] | rw [if_pos (by omega)])

theorem Field.ofReg_splitR {o : Nat} (l : 0x05000 ≤ o) (h : o < 0x06000) : Field.ofReg o = .splitR := by
  simp only [Field.ofReg]; repeat (first | rw [if_neg (by omega)] | rw [if_pos (by omega)])

theorem Field.ofReg_callR {o : Nat} (l : 0x06000 ≤ o) (h : o < 0x08000) : Field.ofReg o = .callR := by
  simp only [Field.ofReg]; repeat (first | rw [if_neg (by omega)] | rw [if_pos (by omega)])

theorem Field.ofReg_trkR {o : Nat} (l : 0x08000 ≤ o) (h : o < 0x10000) : Field.ofReg o = .trkR := by
  simp only [Field.ofReg]; repeat (first | rw [if_neg (by omega)] | rw [if_pos (by omega)])

theorem Field.ofReg_flyR {o : Nat} (l : 0x10000 ≤ o) (h : o < 0x18000) : Field.ofReg o = .flyR := by
  simp only [Field.ofReg]; repeat (first | rw [if_neg (by omega)] | rw [if_pos (by omega)])

theorem Field.ofReg_propR {o : Nat} (l : 0x18000 ≤ o) (h : o < 0x20000) : Field.ofReg o = .propR := by
  simp only [Field.ofReg]; repeat (first | rw [if_neg (by omega)] | rw [if_pos (by omega)])

theorem Field.ofReg_arrR {o : Nat} (l : 0x20000 ≤ o) (h : o < 0x30000) : Field.ofReg o = .arrR := by
  simp only [Field.ofReg]; repeat (first | rw [if_neg (by omega)] | rw [if_pos (by omega)])

theorem Field.ofReg_choR {o : Nat} (l : 0x30000 ≤ o) (h : o < 0x40000) : Field.ofReg o = .choR := by
  simp only [Field.ofReg]; repeat (first | rw [if_neg (by omega)] | rw [if_pos (by omega)])

theorem Field.ofReg_exchR {o : Nat} (l : 0x40000 ≤ o) (h : o < 0x50000) : Field.ofReg o = .exchR := by
  simp only [Field.ofReg]; repeat (first | rw [if_neg (by omega)] | rw [if_pos (by omega)])

theorem Field.ofReg_fabR {o : Nat} (l : 0x50000 ≤ o) (h : o < 0x60000) : Field.ofReg o = .fabR := by
  simp only [Field.ofReg]; repeat (first | rw [if_neg (by omega)] | rw [if_pos (by omega)])

theorem Field.ofReg_tabR {o : Nat} (l : 0x60000 ≤ o) (h : o < 0x70000) : Field.ofReg o = .tabR := by
  simp only [Field.ofReg]; repeat (first | rw [if_neg (by omega)] | rw [if_pos (by omega)])

theorem Field.ofReg_fltR {o : Nat} (l : 0x70000 ≤ o) : Field.ofReg o = .fltR := by
  simp only [Field.ofReg]; repeat rw [if_neg (by omega)]

@[simp] theorem R.choURuns_ofReg (p : Nat) : Field.ofReg (R.choURuns p) = .choR := Field.ofReg_choR (by unfold R.choURuns; omega) (by unfold R.choURuns; omega)
@[simp] theorem R.choUElemsLo_ofReg (p : Nat) : Field.ofReg (R.choUElemsLo p) = .choR := Field.ofReg_choR (by unfold R.choUElemsLo; omega) (by unfold R.choUElemsLo; omega)
@[simp] theorem R.choUElemsHi_ofReg (p : Nat) : Field.ofReg (R.choUElemsHi p) = .choR := Field.ofReg_choR (by unfold R.choUElemsHi; omega) (by unfold R.choUElemsHi; omega)
@[simp] theorem R.choUStallBeats_ofReg (p : Nat) : Field.ofReg (R.choUStallBeats p) = .choR := Field.ofReg_choR (by unfold R.choUStallBeats; omega) (by unfold R.choUStallBeats; omega)
@[simp] theorem R.choRuRows_ofReg (p : Nat) : Field.ofReg (R.choRuRows p) = .choR := Field.ofReg_choR (by unfold R.choRuRows; omega) (by unfold R.choRuRows; omega)
@[simp] theorem R.choRuStallBeats_ofReg (p : Nat) : Field.ofReg (R.choRuStallBeats p) = .choR := Field.ofReg_choR (by unfold R.choRuStallBeats; omega) (by unfold R.choRuStallBeats; omega)
@[simp] theorem R.flyXfers_ofReg (p : Nat) : Field.ofReg (R.flyXfers p) = .flyR := Field.ofReg_flyR (by unfold R.flyXfers; omega) (by unfold R.flyXfers; omega)
@[simp] theorem R.flyBytesLo_ofReg (p : Nat) : Field.ofReg (R.flyBytesLo p) = .flyR := Field.ofReg_flyR (by unfold R.flyBytesLo; omega) (by unfold R.flyBytesLo; omega)
@[simp] theorem R.flyBytesHi_ofReg (p : Nat) : Field.ofReg (R.flyBytesHi p) = .flyR := Field.ofReg_flyR (by unfold R.flyBytesHi; omega) (by unfold R.flyBytesHi; omega)
@[simp] theorem R.flyOob_ofReg (p : Nat) : Field.ofReg (R.flyOob p) = .flyR := Field.ofReg_flyR (by unfold R.flyOob; omega) (by unfold R.flyOob; omega)
@[simp] theorem R.flySat_ofReg (p : Nat) : Field.ofReg (R.flySat p) = .flyR := Field.ofReg_flyR (by unfold R.flySat; omega) (by unfold R.flySat; omega)
@[simp] theorem R.flyNanInt_ofReg (p : Nat) : Field.ofReg (R.flyNanInt p) = .flyR := Field.ofReg_flyR (by unfold R.flyNanInt; omega) (by unfold R.flyNanInt; omega)
@[simp] theorem R.flyPoison_ofReg (p : Nat) : Field.ofReg (R.flyPoison p) = .flyR := Field.ofReg_flyR (by unfold R.flyPoison; omega) (by unfold R.flyPoison; omega)
@[simp] theorem R.flyAlias_ofReg (p : Nat) : Field.ofReg (R.flyAlias p) = .flyR := Field.ofReg_flyR (by unfold R.flyAlias; omega) (by unfold R.flyAlias; omega)
@[simp] theorem R.flyStallCredit_ofReg (p : Nat) : Field.ofReg (R.flyStallCredit p) = .flyR := Field.ofReg_flyR (by unfold R.flyStallCredit; omega) (by unfold R.flyStallCredit; omega)
@[simp] theorem R.flyStallPage_ofReg (p : Nat) : Field.ofReg (R.flyStallPage p) = .flyR := Field.ofReg_flyR (by unfold R.flyStallPage; omega) (by unfold R.flyStallPage; omega)
@[simp] theorem R.flyLastE_ofReg (p : Nat) : Field.ofReg (R.flyLastE p) = .flyR := Field.ofReg_flyR (by unfold R.flyLastE; omega) (by unfold R.flyLastE; omega)
@[simp] theorem R.lineStatus_ofReg (p : Nat) : Field.ofReg (R.lineStatus p) = .lineR := Field.ofReg_lineR (by unfold R.lineStatus; omega) (by unfold R.lineStatus; omega)
@[simp] theorem R.lineRing_ofReg (p : Nat) : Field.ofReg (R.lineRing p) = .lineR := Field.ofReg_lineR (by unfold R.lineRing; omega) (by unfold R.lineRing; omega)
@[simp] theorem R.lineRingBase_ofReg (p : Nat) : Field.ofReg (R.lineRingBase p) = .lineR := Field.ofReg_lineR (by unfold R.lineRingBase; omega) (by unfold R.lineRingBase; omega)
@[simp] theorem R.lineHaltReason_ofReg (p : Nat) : Field.ofReg (R.lineHaltReason p) = .lineR := Field.ofReg_lineR (by unfold R.lineHaltReason; omega) (by unfold R.lineHaltReason; omega)
@[simp] theorem R.lineHaltAddr_ofReg (p : Nat) : Field.ofReg (R.lineHaltAddr p) = .lineR := Field.ofReg_lineR (by unfold R.lineHaltAddr; omega) (by unfold R.lineHaltAddr; omega)
@[simp] theorem R.lineHaltCountLo_ofReg (p : Nat) : Field.ofReg (R.lineHaltCountLo p) = .lineR := Field.ofReg_lineR (by unfold R.lineHaltCountLo; omega) (by unfold R.lineHaltCountLo; omega)
@[simp] theorem R.lineHaltCountHi_ofReg (p : Nat) : Field.ofReg (R.lineHaltCountHi p) = .lineR := Field.ofReg_lineR (by unfold R.lineHaltCountHi; omega) (by unfold R.lineHaltCountHi; omega)
@[simp] theorem R.lineHaltTag_ofReg (p : Nat) : Field.ofReg (R.lineHaltTag p) = .lineR := Field.ofReg_lineR (by unfold R.lineHaltTag; omega) (by unfold R.lineHaltTag; omega)
@[simp] theorem R.lineWaitTicks_ofReg (p : Nat) : Field.ofReg (R.lineWaitTicks p) = .lineR := Field.ofReg_lineR (by unfold R.lineWaitTicks; omega) (by unfold R.lineWaitTicks; omega)
@[simp] theorem R.lineStallTicks_ofReg (p : Nat) : Field.ofReg (R.lineStallTicks p) = .lineR := Field.ofReg_lineR (by unfold R.lineStallTicks; omega) (by unfold R.lineStallTicks; omega)
@[simp] theorem R.lineIntakeRefused_ofReg (p : Nat) : Field.ofReg (R.lineIntakeRefused p) = .lineR := Field.ofReg_lineR (by unfold R.lineIntakeRefused; omega) (by unfold R.lineIntakeRefused; omega)
@[simp] theorem R.lineSplitPtr_ofReg (p : Nat) : Field.ofReg (R.lineSplitPtr p) = .splitR := Field.ofReg_splitR (by unfold R.lineSplitPtr; omega) (by unfold R.lineSplitPtr; omega)
@[simp] theorem R.lineSplitLim_ofReg (p : Nat) : Field.ofReg (R.lineSplitLim p) = .splitR := Field.ofReg_splitR (by unfold R.lineSplitLim; omega) (by unfold R.lineSplitLim; omega)
@[simp] theorem R.callWdogAge_ofReg (i : Nat) : Field.ofReg (R.callWdogAge i) = .callR := Field.ofReg_callR (by unfold R.callWdogAge; omega) (by unfold R.callWdogAge; omega)
@[simp] theorem R.fabPortCfg_ofReg (p : Nat) : Field.ofReg (R.fabPortCfg p) = .fabR := Field.ofReg_fabR (by unfold R.fabPortCfg; omega) (by unfold R.fabPortCfg; omega)
@[simp] theorem R.fabChCrc_ofReg (p i : Nat) : Field.ofReg (R.fabChCrc p i) = .fabR := Field.ofReg_fabR (by unfold R.fabChCrc; omega) (by unfold R.fabChCrc; omega)
@[simp] theorem R.fabChReplay_ofReg (p i : Nat) : Field.ofReg (R.fabChReplay p i) = .fabR := Field.ofReg_fabR (by unfold R.fabChReplay; omega) (by unfold R.fabChReplay; omega)
@[simp] theorem R.fabChFlits_ofReg (p i : Nat) : Field.ofReg (R.fabChFlits p i) = .fabR := Field.ofReg_fabR (by unfold R.fabChFlits; omega) (by unfold R.fabChFlits; omega)
@[simp] theorem R.fltFatal_ofReg (i : Nat) : Field.ofReg (R.fltFatal i) = .fltR := Field.ofReg_fltR (by unfold R.fltFatal; omega)
@[simp] theorem R.fltClassCount_ofReg (i : Nat) : Field.ofReg (R.fltClassCount i) = .fltR := Field.ofReg_fltR (by unfold R.fltClassCount; omega)
@[simp] theorem R.fltRec_ofReg (i : Nat) : Field.ofReg (R.fltRec i) = .fltR := Field.ofReg_fltR (by unfold R.fltRec; omega)
@[simp] theorem stepReg_ofReg (l : Line) : Field.ofReg (stepReg l) = .trkR := by cases l <;> rfl

/-! Further rules of composition. -/

/-- What a state named on the way keeps; `G` is any of the five ways of saying what is kept. -/
theorem Kept.cut {α : Type} {G : List Field → State → α → Prop} {m : List Field} {s x : State} {t : α} (h : Kept m s x)
    (k : Kept m s x → G m s t) : G m s t := k h

theorem Kept.cutR {α β : Type} {G : List Field → State → α → Prop} {m : List Field} {s : State} {x : β × State} {t : α}
    (h : Kept m s x.2) (k : Kept m s x.2 → G m s t) : G m s t := k h

theorem Kept.cutL {α β : Type} {G : List Field → State → α → Prop} {m : List Field} {s : State} {x : State × β} {t : α}
    (h : Kept m s x.1) (k : Kept m s x.1 → G m s t) : G m s t := k h

theorem KeptO.cut {α : Type} {G : List Field → State → α → Prop} {m : List Field} {s : State} {x : Option State} {t : α}
    (h : KeptO m s x) (k : KeptO m s x → G m s t) : G m s t := k h

theorem KeptOR.cut {α β : Type} {G : List Field → State → α → Prop} {m : List Field} {s : State} {x : Option (β × State)} {t : α}
    (h : KeptOR m s x) (k : KeptOR m s x → G m s t) : G m s t := k h

theorem KeptOL.cut {α β : Type} {G : List Field → State → α → Prop} {m : List Field} {s : State} {x : Option (State × β)} {t : α}
    (h : KeptOL m s x) (k : KeptOL m s x → G m s t) : G m s t := k h

theorem KeptM.cut {α : Type} {G : List Field → State → α → Prop} {m : List Field} {s : State} {x : Moved} {t : α}
    (h : KeptM m s x) (k : KeptM m s x → G m s t) : G m s t := k h

theorem Kept.iteR {β : Type} {m : List Field} {s : State} {p q : β × State} {c : Prop} [Decidable c] (h : Kept m s p.2)
    (k : Kept m s q.2) : Kept m s (if c then p else q).2 := by split <;> assumption

theorem Kept.iteL {β : Type} {m : List Field} {s : State} {p q : State × β} {c : Prop} [Decidable c] (h : Kept m s p.1)
    (k : Kept m s q.1) : Kept m s (if c then p else q).1 := by split <;> assumption

theorem Kept.ite' {m : List Field} {s t u : State} {c : Prop} [Decidable c] (h : c → Kept m s t) (k : ¬c → Kept m s u) :
    Kept m s (if c then t else u) := by
  split
  · exact h ‹_›
  · exact k ‹_›

theorem Kept.pairR {β : Type} {m : List Field} {s t : State} {b : β} (h : Kept m s t) : Kept m s (b, t).2 := h

theorem Kept.pairL {β : Type} {m : List Field} {s t : State} {b : β} (h : Kept m s t) : Kept m s (t, b).1 := h

/-- A state taken out of a pair, an option or a move. -/
theorem Kept.ofR {β : Type} {m : List Field} {s u : State} {b : β} {p : β × State} (e : p = (b, u))
    (h : Kept m s p.2) : Kept m s u := by subst e; exact h

theorem Kept.ofL {β : Type} {m : List Field} {s u : State} {b : β} {p : State × β} (e : p = (u, b))
    (h : Kept m s p.1) : Kept m s u := by subst e; exact h

theorem Kept.ofO {m : List Field} {s u : State} {p : Option State} (e : p = some u) (h : KeptO m s p) : Kept m s u := h.out u e

theorem Kept.ofOR {β : Type} {m : List Field} {s u : State} {b : β} {p : Option (β × State)} (e : p = some (b, u))
    (h : KeptOR m s p) : Kept m s u := h.out _ e

theorem Kept.ofOL {β : Type} {m : List Field} {s u : State} {b : β} {p : Option (State × β)} (e : p = some (u, b))
    (h : KeptOL m s p) : Kept m s u := h.out _ e

theorem Kept.ofOn {m : List Field} {s u : State} {p : Moved} (e : p = .on u) (h : KeptM m s p) : Kept m s u := by
  subst e; exact h

theorem Kept.ofStuck {m : List Field} {s u : State} {p : Moved} (e : p = .stuck u) (h : KeptM m s p) :
    Kept m s u := by subst e; exact h

theorem KeptO.step {l m : List Field} {s t : State} {o : Option State} (k : KeptO l t o)
    (sub : (l.all fun f => m.contains f) = true) (h : Kept m s t) : KeptO m s o :=
  ⟨fun u e => h.trans ((k.out u e).mono sub)⟩

theorem KeptOR.step {β : Type} {l m : List Field} {s t : State} {o : Option (β × State)} (k : KeptOR l t o)
    (sub : (l.all fun f => m.contains f) = true) (h : Kept m s t) : KeptOR m s o :=
  ⟨fun u e => h.trans ((k.out u e).mono sub)⟩

theorem KeptOL.step {β : Type} {l m : List Field} {s t : State} {o : Option (State × β)} (k : KeptOL l t o)
    (sub : (l.all fun f => m.contains f) = true) (h : Kept m s t) : KeptOL m s o :=
  ⟨fun u e => h.trans ((k.out u e).mono sub)⟩

theorem KeptOR.ite {β : Type} {m : List Field} {s : State} {a b : Option (β × State)} {c : Prop} [Decidable c]
    (h : KeptOR m s a) (k : KeptOR m s b) : KeptOR m s (if c then a else b) := by split <;> assumption

theorem KeptOL.ite {β : Type} {m : List Field} {s : State} {a b : Option (State × β)} {c : Prop} [Decidable c]
    (h : KeptOL m s a) (k : KeptOL m s b) : KeptOL m s (if c then a else b) := by split <;> assumption

theorem KeptM.step {l m : List Field} {s t : State} {x : Moved} (k : KeptM l t x)
    (sub : (l.all fun f => m.contains f) = true) (h : Kept m s t) : KeptM m s x := by
  cases x <;> exact h.trans (Kept.mono k sub)

theorem KeptM.ite {m : List Field} {s : State} {a b : Moved} {c : Prop} [Decidable c] (h : KeptM m s a)
    (k : KeptM m s b) : KeptM m s (if c then a else b) := by split <;> assumption

theorem KeptM.stuck {m : List Field} {s t : State} (h : Kept m s t) : KeptM m s (.stuck t) := h

theorem KeptM.on {m : List Field} {s t : State} (h : Kept m s t) : KeptM m s (.on t) := h

/-- A step whose own lemma already speaks of the frame at hand. -/
theorem Kept.next {m : List Field} {s t u : State} (k : Kept m t u) (h : Kept m s t) : Kept m s u := h.trans k

theorem Field.sub_trans {a b m : List Field} (h : (a.all fun f => b.contains f) = true)
    (k : (b.all fun f => m.contains f) = true) : (a.all fun f => m.contains f) = true := by
  simp only [List.all_eq_true, List.contains_iff_mem] at h k ⊢
  exact fun f hf => k f (h f hf)

/-! The operations on registers. -/

theorem keptBut_setReg (s : State) (o : Nat) (v : Word) : KeptBut [Field.ofReg o] s (s.setReg o v) := by
  refine ⟨fun f hf => ?_⟩
  have key : ∀ r, r ≠ Field.ofReg o → ∀ p, Field.ofReg p = r → (s.setReg o v).reg p = s.reg p :=
    fun r hr p hp => State.reg_setReg_ne s v fun e => hr (by rw [← hp, e])
  have hf : f ≠ Field.ofReg o := by simpa using hf
  cases f <;> first
    | rfl
    | exact key _ hf

theorem kept_setReg (s : State) (o : Nat) (v : Word) : Kept [Field.ofReg o] s (s.setReg o v) := by
  refine ⟨keptBut_setReg s o v, fun h => ?_⟩
  unfold State.safe at h ⊢
  rw [Bool.and_eq_true] at h ⊢
  exact ⟨h.1, State.wf_setReg s o v h.2⟩

theorem kept_setF (s : State) (o lo w v : Nat) : Kept [Field.ofReg o] s (s.setF o lo w v) := kept_setReg _ _ _

theorem kept_setB (s : State) (o i : Nat) (b : Bool) : Kept [Field.ofReg o] s (s.setB o i b) := kept_setReg _ _ _

theorem kept_count (s : State) (o n : Nat) : Kept [Field.ofReg o] s (s.count o n) := kept_setReg _ _ _

theorem kept_countMod (s : State) (o n : Nat) : Kept [Field.ofReg o] s (s.countMod o n) := kept_setReg _ _ _

theorem kept_count64 (s : State) (lo hi n : Nat) : Kept [Field.ofReg lo, Field.ofReg hi] s (s.count64 lo hi n) := by
  unfold State.count64
  refine Kept.next ((kept_setReg _ _ _).mono ?_) ((kept_setReg _ _ _).mono ?_) <;> simp

theorem kept_setRegs {m : List Field} (s : State) (o : Nat) (l : List Word)
    (h : ∀ i, i < l.length → Field.ofReg (o + 4 * i) ∈ m) : Kept m s (s.setRegs o l) := by
  induction l generalizing s o with
  | nil => exact Kept.refl _ _
  | cons w ws ih =>
    refine Kept.next (ih _ _ fun i hi => ?_) ((kept_setReg s o w).mono ?_)
    · have := h (i + 1) (by simpa using hi)
      rwa [Nat.mul_add, ← Nat.add_assoc, Nat.add_right_comm] at this
    · simpa using h 0 (by simp)

theorem Field.ite_mem {a b : Field} {l : List Field} {c : Prop} [Decidable c] (h : a ∈ l) (k : b ∈ l) : (if c then a else b) ∈ l := by
  split <;> assumption

theorem Field.ofReg_mem (o : Nat) : Field.ofReg o ∈ Field.regs := by
  unfold Field.ofReg Field.regs
  iterate 15 refine Field.ite_mem (by decide) ?_
  decide

theorem kept_setReg_any (s : State) (o : Nat) (v : Word) : Kept Field.regs s (s.setReg o v) :=
  (kept_setReg s o v).mono (by simpa using Field.ofReg_mem o)

/-! Frames that name registers one by one. -/

theorem Field.same_of_ofReg {m : List Field} {s t : State} (k : KeptBut m s t) (o : Nat) (h : Field.ofReg o ∉ m) : t.reg o = s.reg o := by
  have := k.same _ h
  have e : ∀ f, f = Field.ofReg o → f.same s t → t.reg o = s.reg o := by
    intro f hf hs
    have hm : f ∈ Field.regs := hf ▸ Field.ofReg_mem o
    cases f <;> first
      | exact hs o hf.symm
      | exact absurd hm (by decide)
  exact e _ rfl this

theorem Only.refl (fs : List Field) (rs : List Nat) (s : State) : Only fs rs s s := ⟨KeptBut.refl _ _, fun _ _ => rfl⟩

theorem Only.trans {fs : List Field} {rs : List Nat} {s t u : State} (h : Only fs rs s t) (k : Only fs rs t u) : Only fs rs s u :=
  ⟨h.fields.trans k.fields, fun o ho => (k.regs o ho).trans (h.regs o ho)⟩

theorem Only.setReg {fs : List Field} {rs : List Nat} {s t : State} {o : Nat} {v : Word} (h : Only fs rs s t) (m : o ∈ rs) :
    Only fs rs s (t.setReg o v) :=
  ⟨h.fields.trans ((keptBut_setReg t o v).mono (by simp [Field.ofReg_mem])),
    fun p hp => (State.reg_setReg_ne t v fun e : p = o => hp (by rw [e]; exact m)).trans (h.regs p hp)⟩

theorem Only.setF {fs : List Field} {rs : List Nat} {s t : State} {o lo w v : Nat} (h : Only fs rs s t) (m : o ∈ rs) :
    Only fs rs s (t.setF o lo w v) := h.setReg m

theorem Only.setB {fs : List Field} {rs : List Nat} {s t : State} {o i : Nat} {b : Bool} (h : Only fs rs s t) (m : o ∈ rs) :
    Only fs rs s (t.setB o i b) := h.setReg m

theorem Only.count {fs : List Field} {rs : List Nat} {s t : State} {o n : Nat} (h : Only fs rs s t) (m : o ∈ rs) :
    Only fs rs s (t.count o n) := h.setReg m

theorem Only.countMod {fs : List Field} {rs : List Nat} {s t : State} {o n : Nat} (h : Only fs rs s t) (m : o ∈ rs) :
    Only fs rs s (t.countMod o n) := h.setReg m

/-- A function that changes fields and no register. -/
theorem Only.kept {fs l : List Field} {rs : List Nat} {s t u : State} (h : Only fs rs s t) (k : KeptBut l t u)
    (sub : (l.all fun f => fs.contains f) = true) (no : (l.all fun f => !Field.regs.contains f) = true) : Only fs rs s u := by
  refine ⟨h.fields.trans (k.mono ?_), fun p hp => (Field.same_of_ofReg k p ?_).trans (h.regs p hp)⟩
  · refine Field.sub_trans sub ?_
    simp only [List.all_eq_true, List.contains_iff_mem, List.mem_append]
    exact fun f hf => Or.inl hf
  · intro hm
    have := List.all_eq_true.1 no _ hm
    simp [Field.ofReg_mem] at this

theorem Only.ofKept {fs l : List Field} {rs : List Nat} {s t : State} (k : KeptBut l s t)
    (sub : (l.all fun f => fs.contains f) = true) (no : (l.all fun f => !Field.regs.contains f) = true) : Only fs rs s t :=
  (Only.refl _ _ _).kept k sub no

/-- A command that ends in the state its meaning computes. -/
theorem Ends.of {c : Instr} {s f u : State} {P : State → Prop} (x : exec c s = f.done) (e : f = u) (p : P u) : Ends c s P :=
  ⟨u, by rw [x, e]; rfl, p⟩

theorem KeptOR.foldlM {α β : Type} {m : List Field} {s : State} {f : α × State → β → Option (α × State)}
    (k : ∀ st y, KeptOR m st.2 (f st y)) (l : List β) {st : α × State} (h : Kept m s st.2) : KeptOR m s (l.foldlM f st) := by
  induction l generalizing st with
  | nil => exact KeptOR.some h
  | cons y l ih =>
    refine ⟨fun t e => ?_⟩
    rw [List.foldlM_cons] at e
    obtain ⟨u, hu, e⟩ := Option.bind_eq_some_iff.1 e
    exact (ih (h.trans ((k st y).out u hu))).out t e

end Sys2Proof.Machine
end

