-- ==== Sys2Proof/Laws/KeptOps.lean ====
section
/-! SUPPORT. What the functions of registers, memory, the links and the lines leave unchanged: one lemma
per function, whose list is all it can change. -/

namespace Sys2Proof.Machine

set_option Elab.async false

theorem kept_dropFlight (s : State) (uid) :
    Kept [.flights] s (State.dropFlight s uid) := by
  unfold State.dropFlight
  refine Kept.upd ?_; exact Kept.refl _ _

theorem kept_setTree (s : State) (k) (t) :
    Kept [.board] s (State.setTree s k t) := by
  unfold State.setTree
  refine Kept.upd ?_; exact Kept.refl _ _

theorem kept_trigger (s : State) (src) (id) :
    Kept [.trig] s (State.trigger s src id) := by
  unfold State.trigger
  refine Kept.upd ?_; exact Kept.refl _ _

theorem kept_recs (s : State) (r : FaultRec) (n : Nat) (x y) :
    Kept [.fltR] s (s.setRegs (R.fltRec (8 * n)) (FaultRec.words r x y)) :=
  kept_setRegs _ _ _ fun i hi => by
    have : i < 8 := hi
    rw [Field.ofReg_fltR (by unfold R.fltRec; omega)]; decide

theorem kept_fatals (s : State) (r : FaultRec) (x y) :
    Kept [.fltR] s (s.setRegs (R.fltFatal 0) (FaultRec.words r x y)) :=
  kept_setRegs _ _ _ fun i hi => by
    have : i < 8 := hi
    rw [Field.ofReg_fltR (by unfold R.fltFatal; omega)]; decide

theorem kept_logRecord (s : State) (r) : Kept [.trig, .fltR] s (State.logRecord s r) := by
  unfold State.logRecord
  extract_lets wr d s1 ws s2 s3 s4 s5 s6
  have h1 : Kept [.trig, .fltR] s s1 := Kept.ite (Kept.step (kept_count ..) (by decide)
    (Kept.mono (kept_setReg ..) (by decide))) (Kept.refl _ _)
  have h2 : Kept [.trig, .fltR] s s2 := Kept.step (kept_recs ..) (by decide) h1
  have h4 : Kept [.trig, .fltR] s s4 := Kept.step (kept_count ..) (by simp only [R.fltClassCount_ofReg]; decide)
    (Kept.step (kept_setReg ..) (by decide) h2)
  have h5 : Kept [.trig, .fltR] s s5 := Kept.ite (Kept.step (kept_setB ..) (by decide) h4) h4
  have h6 : Kept [.trig, .fltR] s s6 := Kept.ite (Kept.step (kept_setB ..) (by decide)
    (Kept.step (kept_fatals ..) (by decide) h5)) h5
  exact Kept.ite (Kept.step (kept_trigger ..) (by decide) h6) h6

theorem kept_queueCorr (s : State) (w) (poison) :
    Kept [.mem] s (State.queueCorr s w poison) := by
  unfold State.queueCorr
  refine Kept.ite ?_ ?_; refine Kept.upd ?_; exact Kept.refl _ _; refine Kept.upd ?_; exact Kept.refl _ _

theorem kept_setPage (s : State) (d) (v) :
    Kept [.prop] s (State.setPage s d v) := by
  unfold State.setPage
  refine Kept.upd ?_; exact Kept.refl _ _

theorem kept_retireNow (s : State) (f) :
    Kept [.prop] s (State.retireNow s f) := by
  unfold State.retireNow
  split; extract_lets +onlyGivenNames x0; clear_value x0; extract_lets +onlyGivenNames x1
  refine Kept.cut (x := x1) ?_ ?_; unfold x1; refine Kept.step (kept_setPage ..) (by decide) ?_; exact Kept.refl _ _
  clear_value x1; intro h2; refine Kept.upd ?_; assumption; exact Kept.refl _ _

theorem kept_retireGo (s : State) (f) :
    Kept [.prop] s (State.retireGo s f) := by
  unfold State.retireGo
  refine Kept.ite ?_ ?_; exact Kept.refl _ _; split; refine Kept.ite ?_ ?_; exact Kept.refl _ _
  refine Kept.step (kept_retireNow ..) (by decide) ?_; exact Kept.refl _ _; extract_lets +onlyGivenNames x0
  clear_value x0; refine Kept.ite ?_ ?_; split; extract_lets +onlyGivenNames x1; refine Kept.cut (x := x1) ?_ ?_
  unfold x1; refine Kept.step (kept_setPage ..) (by decide) ?_; exact Kept.refl _ _; clear_value x1; intro h2
  refine Kept.upd ?_; assumption; refine Kept.step (kept_setPage ..) (by decide) ?_; exact Kept.refl _ _
  refine Kept.step (kept_setPage ..) (by decide) ?_; exact Kept.refl _ _

theorem kept_retireFrame (s : State) (addr) :
    Kept [.prop, .trig, .fltR] s (State.retireFrame s addr) := by
  unfold State.retireFrame
  extract_lets +onlyGivenNames x0; clear_value x0; refine Kept.ite ?_ ?_; exact Kept.refl _ _
  extract_lets +onlyGivenNames x1; refine Kept.cut (x := x1) ?_ ?_; unfold x1
  refine Kept.step (kept_logRecord ..) (by decide) ?_; exact Kept.refl _ _; clear_value x1; intro h2
  extract_lets +onlyGivenNames x3; clear_value x3; extract_lets +onlyGivenNames x4; refine Kept.cut (x := x4) ?_ ?_
  unfold x4; refine Kept.upd ?_; assumption; clear_value x4; intro h5
  refine Kept.step (kept_retireGo ..) (by decide) ?_; assumption

theorem kept_watchWord (s : State) (w) :
    Kept [.mem, .prop, .trig, .propR, .fltR] s (State.watchWord s w) := by
  unfold State.watchWord
  extract_lets +onlyGivenNames x0; split; extract_lets +onlyGivenNames x1; refine Kept.cut (x := x1) ?_ ?_; unfold x1
  refine Kept.upd ?_; exact Kept.refl _ _; clear_value x1; intro h2; refine Kept.ite ?_ ?_
  refine Kept.step (kept_retireFrame ..) (by decide) ?_; assumption; assumption; split
  extract_lets +onlyGivenNames x3; refine Kept.cut (x := x3) ?_ ?_; unfold x3; refine Kept.upd ?_; exact Kept.refl _ _
  clear_value x3; intro h4; extract_lets +onlyGivenNames x5; refine Kept.cut (x := x5) ?_ ?_; unfold x5
  refine Kept.ite ?_ ?_; refine Kept.step (kept_count ..) (by decide) ?_; assumption; assumption
  clear_value x5; intro h6; refine Kept.step (kept_logRecord ..) (by decide) ?_; assumption

theorem kept_readWord (s : State) (w) :
    Kept [.mem, .prop, .trig, .propR, .fltR] s (State.readWord s w).2 := by
  unfold State.readWord
  extract_lets +onlyGivenNames x0; clear_value x0; split; refine Kept.pairR ?_; exact Kept.refl _ _
  refine Kept.pairR ?_; refine Kept.step (kept_count ..) (by decide) ?_; exact Kept.refl _ _; refine Kept.pairR ?_
  refine Kept.step (kept_watchWord ..) (by decide) ?_; refine Kept.step (kept_queueCorr ..) (by decide) ?_
  refine Kept.step (kept_count ..) (by decide) ?_; exact Kept.refl _ _; extract_lets +onlyGivenNames x1
  refine Kept.cut (x := x1) ?_ ?_; unfold x1; refine Kept.step (kept_queueCorr ..) (by decide) ?_
  refine Kept.step (kept_count ..) (by decide) ?_; exact Kept.refl _ _; clear_value x1; intro h2
  extract_lets +onlyGivenNames x3; refine Kept.cut (x := x3) ?_ ?_; unfold x3
  refine Kept.step (kept_logRecord ..) (by decide) ?_; assumption; clear_value x3; intro h4; refine Kept.pairR ?_
  refine Kept.step (kept_retireFrame ..) (by decide) ?_; assumption

theorem kept_readBytes (s : State) (engine) (addr) (n) :
    Kept [.mem, .prop, .trig, .propR, .fltR] s (State.readBytes s engine addr n).2 := by
  unfold State.readBytes
  extract_lets +onlyGivenNames x0; clear_value x0; extract_lets +onlyGivenNames x1; refine Kept.cutR (x := x1) ?_ ?_
  unfold x1; refine Kept.iterR _ (fun u2 y3 => ?_) ?_; extract_lets +onlyGivenNames x4
  refine Kept.cutR (x := x4) ?_ ?_; unfold x4; refine Kept.step (kept_readWord ..) (by decide) ?_; exact Kept.refl _ _
  clear_value x4; intro h5; refine Kept.pairR ?_; assumption; refine Kept.pairR ?_; exact Kept.refl _ _
  clear_value x1; intro h6; extract_lets +onlyGivenNames x7; clear_value x7; refine Kept.pairR ?_; assumption

theorem kept_readPlain (s : State) (engine) (addr) (n) :
    Kept [.mem, .prop, .trig, .propR, .fltR] s (State.readPlain s engine addr n).2 := by
  unfold State.readPlain
  extract_lets +onlyGivenNames x0; refine Kept.cutR (x := x0) ?_ ?_; unfold x0
  refine Kept.step (kept_readBytes ..) (by decide) ?_; exact Kept.refl _ _; clear_value x0; intro h1
  refine Kept.pairR ?_; assumption

theorem kept_markWritten (s : State) (addr) (bad) :
    Kept [.prop] s (State.markWritten s addr bad) := by
  unfold State.markWritten
  split; refine Kept.step (kept_setPage ..) (by decide) ?_; exact Kept.refl _ _; exact Kept.refl _ _

theorem kept_landWord (s : State) (addr bytes poison) : Kept [.mem, .prop, .trig, .propR, .fltR] s (State.landWord s addr bytes poison) := by
  unfold State.landWord
  extract_lets w full
  have key (r : (List Byte × Bool) × State) (h : Kept [.mem, .prop, .trig, .propR, .fltR] s r.2) (m : Mem) (hm : r.2.mem.wf = true → m.wf = true) (bad : Bool) :
      Kept [.mem, .prop, .trig, .propR, .fltR] s (let m := (m.setBytes addr bytes).setFlaw w (if bad then poisonMark else [])
        let m := { m with corr := m.corr.filter (·.1 != w) }
        { r.2 with mem := m }.markWritten addr bad) := by
    have h1 : Kept [.mem, .prop, .trig, .propR, .fltR] s { r.2 with mem := { (m.setBytes addr bytes).setFlaw w (if bad then poisonMark else []) with
        corr := ((m.setBytes addr bytes).setFlaw w (if bad then poisonMark else [])).corr.filter (·.1 != w) } } :=
      Kept.upd h (wmem := fun x => Mem.wf_same (Mem.wf_setFlaw _ _ (Mem.wf_setBytes _ _ (hm x))) rfl rfl rfl rfl fun _ x => x)
    exact Kept.step (kept_markWritten ..) (by decide) h1
  by_cases hf : full = true
  · rw [if_pos hf]
    dsimp only
    rw [if_pos hf]
    exact key (([], false), s) (Kept.refl _ _) s.mem id _
  · rw [if_neg hf]
    dsimp only
    rw [if_neg hf]
    exact key (s.readWord w) (Kept.step (kept_readWord ..) (by decide) (Kept.refl _ _)) _
      (fun h => Mem.wf_setBytes _ _ h) _

theorem kept_setChan (s : State) (p) (c) (v) :
    Kept [.fab] s (State.setChan s p c v) := by
  unfold State.setChan
  refine Kept.upd ?_; exact Kept.refl _ _

theorem kept_emit (s : State) (o) :
    Kept [.outs] s (State.emit s o) := by
  unfold State.emit
  refine Kept.upd ?_; exact Kept.refl _ _

theorem kept_sendLink (s : State) (p) (c) (bytes) :
    Kept [.outs] s (State.sendLink s p c bytes) := by
  unfold State.sendLink
  refine Kept.step (kept_emit ..) (by decide) ?_; exact Kept.refl _ _

theorem kept_sendAck (s : State) (p) (c) (credits) :
    Kept [.outs] s (State.sendAck s p c credits) := by
  unfold State.sendAck
  refine Kept.step (kept_sendLink ..) (by decide) ?_; exact Kept.refl _ _

theorem kept_returnOwed (s : State) (pk) :
    Kept [.outs] s (State.returnOwed s pk) := by
  unfold State.returnOwed
  refine Kept.fold _ (fun u0 y1 => ?_) ?_; extract_lets +onlyGivenNames x2; clear_value x2
  refine Kept.step (kept_sendAck ..) (by decide) ?_; exact Kept.refl _ _; exact Kept.refl _ _

theorem kept_eject (s : State) (from_) (f) :
    Kept [.fab, .outs, .exchR] s (State.eject s from_ f) := by
  unfold State.eject
  extract_lets +onlyGivenNames x0; clear_value x0; extract_lets +onlyGivenNames x1; clear_value x1
  extract_lets +onlyGivenNames x2; clear_value x2; refine Kept.ite ?_ ?_; extract_lets +onlyGivenNames x3
  clear_value x3; extract_lets +onlyGivenNames x4; refine Kept.cut (x := x4) ?_ ?_; unfold x4; refine Kept.upd ?_
  exact Kept.refl _ _; clear_value x4; intro h5; refine Kept.ite ?_ ?_
  refine Kept.step (kept_returnOwed ..) (by decide) ?_; refine Kept.step (kept_count ..) (by decide) ?_; assumption
  refine Kept.upd ?_; assumption; refine Kept.upd ?_; exact Kept.refl _ _

theorem kept_setWaiting (s : State) (p) (cls) (l) :
    Kept [.fab] s (State.setWaiting s p cls l) := by
  unfold State.setWaiting
  refine Kept.upd ?_; exact Kept.refl _ _

theorem kept_txTry (s : State) (p) (cls) (f) :
    KeptO [.fab, .outs, .fabR] s (State.txTry s p cls f) := by
  unfold State.txTry
  split; exact KeptO.none _ _; extract_lets +onlyGivenNames x0; clear_value x0; refine KeptO.ite ?_ ?_
  exact KeptO.none _ _; extract_lets +onlyGivenNames x1; clear_value x1; extract_lets +onlyGivenNames x2
  refine Kept.cut (x := x2) ?_ ?_; unfold x2; refine Kept.step (kept_setChan ..) (by decide) ?_; exact Kept.refl _ _
  clear_value x2; intro h3; refine KeptO.some ?_; refine Kept.step (kept_emit ..) (by decide) ?_
  refine Kept.step (kept_countMod ..) (by simp) ?_; assumption

theorem kept_pumpClass (s : State) (p) (cls) :
    Kept [.fab, .outs, .fabR] s (State.pumpClass s p cls) := by
  unfold State.pumpClass
  refine Kept.iterWhile _ (fun u0 => ?_) ?_; split; exact KeptO.none _ _; refine KeptO.map (fun u1 => ?_) ?_
  refine Kept.step (kept_setWaiting ..) (by decide) ?_; exact Kept.refl _ _
  refine KeptO.step (kept_txTry ..) (by decide) ?_; exact Kept.refl _ _; exact Kept.refl _ _

theorem kept_toPort (s : State) (p) (f) :
    Kept [.fab, .outs, .fabR] s (State.toPort s p f) := by
  unfold State.toPort
  refine Kept.step (kept_pumpClass ..) (by decide) ?_; refine Kept.step (kept_setWaiting ..) (by decide) ?_
  exact Kept.refl _ _

theorem kept_routeOut (s : State) (p vc alt f) :
    Kept [.fab, .outs, .fabR] s (State.routeOut s p vc alt f) := by
  unfold State.routeOut
  refine Kept.step (kept_toPort ..) (by decide) ?_; exact Kept.refl _ _

theorem kept_forward (s : State) (inp) (f) :
    Kept [.fab, .outs, .exchR, .fabR] s (State.forward s inp f).2 := by
  unfold State.forward
  refine Kept.iteR ?_ ?_; refine Kept.pairR ?_; refine Kept.step (kept_count ..) (by decide) ?_; exact Kept.refl _ _
  split; refine Kept.pairR ?_; refine Kept.step (kept_eject ..) (by decide) ?_; exact Kept.refl _ _
  refine Kept.pairR ?_; refine Kept.step (kept_count ..) (by decide) ?_; exact Kept.refl _ _; refine Kept.iteR ?_ ?_
  refine Kept.pairR ?_; refine Kept.step (kept_count ..) (by decide) ?_; exact Kept.refl _ _
  extract_lets +onlyGivenNames x0; clear_value x0; refine Kept.pairR ?_
  refine Kept.step (kept_routeOut ..) (by decide) ?_; exact Kept.refl _ _

theorem kept_routeFlit (s : State) (inp) (f) :
    Kept [.fab, .outs, .trig, .exchR, .fabR, .fltR] s (State.routeFlit s inp f) := by
  unfold State.routeFlit
  extract_lets +onlyGivenNames x0; refine Kept.cutR (x := x0) ?_ ?_; unfold x0
  refine Kept.step (kept_forward ..) (by decide) ?_; exact Kept.refl _ _; clear_value x0; intro h1
  refine Kept.ite ?_ ?_; extract_lets +onlyGivenNames x2; refine Kept.cut (x := x2) ?_ ?_; unfold x2
  refine Kept.step (kept_logRecord ..) (by decide) ?_; assumption; clear_value x2; intro h3
  extract_lets +onlyGivenNames x4; clear_value x4; refine Kept.step (kept_forward ..) (by decide) ?_; assumption
  assumption

theorem kept_setPort (s : State) (p) (v) :
    Kept [.fab] s (State.setPort s p v) := by
  unfold State.setPort
  refine Kept.upd ?_; exact Kept.refl _ _

theorem kept_setTracker (s : State) (i) (t) :
    Kept [.trackers] s (State.setTracker s i t) := by
  unfold State.setTracker
  refine Kept.upd ?_; exact Kept.refl _ _

theorem kept_setHandle (s : State) (h) (v) :
    Kept [.prop] s (State.setHandle s h v) := by
  unfold State.setHandle
  refine Kept.upd ?_; exact Kept.refl _ _

theorem kept_updFlight (s : State) (uid) (f) :
    Kept [.flights] s (State.updFlight s uid f) := by
  unfold State.updFlight
  refine Kept.upd ?_; exact Kept.refl _ _

theorem kept_finishFlight (s : State) (uid) :
    Kept [.flights] s (State.finishFlight s uid) := by
  unfold State.finishFlight
  refine Kept.step (kept_updFlight ..) (by decide) ?_; exact Kept.refl _ _

theorem kept_unqueue (s : State) (uid) :
    Kept [.queues] s (State.unqueue s uid) := by
  unfold State.unqueue
  refine Kept.upd ?_; exact Kept.refl _ _

theorem kept_updPage (s : State) (d) (f) :
    Kept [.prop] s (State.updPage s d f) := by
  unfold State.updPage
  refine Kept.step (kept_setPage ..) (by decide) ?_; exact Kept.refl _ _

theorem kept_sendPacket (s : State) (dest) (opc) (ch) (data) :
    Kept [.fab, .outs, .trig, .exchR, .fabR, .fltR] s (State.sendPacket s dest opc ch data) := by
  unfold State.sendPacket
  refine Kept.fold _ (fun u0 y1 => ?_) ?_; refine Kept.step (kept_routeFlit ..) (by decide) ?_; exact Kept.refl _ _
  exact Kept.refl _ _

theorem kept_landFrame (s : State) (f) :
    Kept [.mem, .prop, .trig, .propR, .fltR] s (State.landFrame s f) := by
  unfold State.landFrame
  refine Kept.fold _ (fun u0 y1 => ?_) ?_; refine Kept.step (kept_landWord ..) (by decide) ?_; exact Kept.refl _ _
  refine Kept.upd ?_; exact Kept.refl _ _

theorem kept_put (s : State) (addr) (bytes) (poison) :
    Kept [.mem, .prop, .trig, .propR, .fltR] s (State.put s addr bytes poison) := by
  unfold State.put
  extract_lets +onlyGivenNames x0; clear_value x0; refine Kept.iter _ (fun u1 y2 => ?_) ?_
  extract_lets +onlyGivenNames x3; clear_value x3; extract_lets +onlyGivenNames x4; clear_value x4
  extract_lets +onlyGivenNames x5; clear_value x5; refine Kept.ite ?_ ?_; exact Kept.refl _ _
  refine Kept.step (kept_landWord ..) (by decide) ?_; exact Kept.refl _ _; exact Kept.refl _ _

theorem kept_sendPost (s : State) (dst) (tag) (counter) (delta) :
    Kept [.fab, .outs, .trig, .exchR, .fabR, .fltR] s (State.sendPost s dst tag counter delta) := by
  unfold State.sendPost
  refine Kept.step (kept_sendPacket ..) (by decide) ?_; exact Kept.refl _ _

theorem kept_setCnt (s : State) (i) (v) :
    Kept [.board] s (State.setCnt s i v) := by
  unfold State.setCnt
  refine Kept.upd ?_; exact Kept.refl _ _

theorem kept_applyAlign (s : State) (a) :
    Kept [.board] s (State.applyAlign s a) := by
  unfold State.applyAlign
  refine Kept.fold _ (fun u0 y1 => ?_) ?_; split; refine Kept.step (kept_setCnt ..) (by decide) ?_
  exact Kept.refl _ _; exact Kept.refl _ _

theorem kept_setFetcher (s : State) (e) (v) :
    Kept [.fetchers] s (State.setFetcher s e v) := by
  unfold State.setFetcher
  refine Kept.upd ?_; exact Kept.refl _ _

theorem kept_latchIrq (s : State) (i) :
    Kept [.ctlR] s (State.latchIrq s i) := by
  unfold State.latchIrq
  refine Kept.step (kept_setB ..) (by decide) ?_; exact Kept.refl _ _

theorem kept_haltRecord (s : State) (l) (reason) (engine) (c) :
    Kept [.ctlR, .lineR, .callR] s (State.haltRecord s l reason engine c) := by
  unfold State.haltRecord
  extract_lets +onlyGivenNames x0; clear_value x0; extract_lets +onlyGivenNames x1; refine Kept.cut (x := x1) ?_ ?_
  unfold x1; refine Kept.step (kept_setReg ..) (by simp) ?_; exact Kept.refl _ _; clear_value x1; intro h2
  extract_lets +onlyGivenNames x3; refine Kept.cut (x := x3) ?_ ?_; unfold x3
  refine Kept.step (kept_setReg ..) (by simp) ?_; assumption; clear_value x3; intro h4
  extract_lets +onlyGivenNames x5; refine Kept.cut (x := x5) ?_ ?_; unfold x5
  refine Kept.step (kept_setReg ..) (by simp) ?_; assumption; clear_value x5; intro h6
  extract_lets +onlyGivenNames x7; refine Kept.cut (x := x7) ?_ ?_; unfold x7
  refine Kept.step (kept_setReg ..) (by simp) ?_; assumption; clear_value x7; intro h8
  extract_lets +onlyGivenNames x9; refine Kept.cut (x := x9) ?_ ?_; unfold x9
  refine Kept.step (kept_setReg ..) (by simp) ?_; refine Kept.step (kept_setReg ..) (by simp) ?_; assumption
  clear_value x9; intro h10; refine Kept.step (kept_latchIrq ..) (by decide) ?_; assumption

theorem kept_setLine (s : State) (l) (v) :
    Kept [.lines] s (State.setLine s l v) := by
  unfold State.setLine
  refine Kept.upd ?_; exact Kept.refl _ _

theorem kept_haltCore (s : State) (l) (reason) (engine) (fetch) (c) :
    Kept [.lines, .trig, .ctlR, .lineR, .callR, .fltR] s (State.haltCore s l reason engine fetch c) := by
  unfold State.haltCore
  extract_lets +onlyGivenNames x0; clear_value x0; extract_lets +onlyGivenNames x1; refine Kept.cut (x := x1) ?_ ?_
  unfold x1; refine Kept.ite ?_ ?_; refine Kept.step (kept_setLine ..) (by decide) ?_; exact Kept.refl _ _
  refine Kept.step (kept_haltRecord ..) (by decide) ?_; refine Kept.step (kept_setLine ..) (by decide) ?_
  exact Kept.refl _ _; clear_value x1; intro h2; refine Kept.step (kept_logRecord ..) (by decide) ?_; assumption

theorem kept_fatalHalts (s : State) (skip) :
    Kept [.lines, .trig, .ctlR, .lineR, .callR, .fltR] s (State.fatalHalts s skip) := by
  unfold State.fatalHalts
  refine Kept.fold _ (fun u0 y1 => ?_) ?_; extract_lets +onlyGivenNames x2; clear_value x2; refine Kept.ite ?_ ?_
  exact Kept.refl _ _; extract_lets +onlyGivenNames x3; refine Kept.cut (x := x3) ?_ ?_; unfold x3
  refine Kept.step (kept_haltCore ..) (by decide) ?_; exact Kept.refl _ _; clear_value x3; intro h4
  refine Kept.ite ?_ ?_; assumption; refine Kept.step (kept_setLine ..) (by decide) ?_; assumption
  exact Kept.refl _ _

theorem kept_halt (s : State) (l) (reason) (engine) (fetch) (c) :
    Kept [.lines, .trig, .ctlR, .lineR, .callR, .fltR] s (State.halt s l reason engine fetch c) := by
  unfold State.halt
  extract_lets +onlyGivenNames x0; refine Kept.cut (x := x0) ?_ ?_; unfold x0
  refine Kept.step (kept_haltCore ..) (by decide) ?_; exact Kept.refl _ _; clear_value x0; intro h1
  refine Kept.ite ?_ ?_; refine Kept.step (kept_fatalHalts ..) (by decide) ?_; assumption; assumption

theorem kept_engineHalt (s : State) (uid) (engine) (code) :
    Kept [.lines, .flights, .queues, .trig, .ctlR, .lineR, .callR, .fltR] s (State.engineHalt s uid engine code) := by
  unfold State.engineHalt
  split; exact Kept.refl _ _; refine Kept.step (kept_halt ..) (by decide) ?_
  refine Kept.step (kept_dropFlight ..) (by decide) ?_; refine Kept.step (kept_unqueue ..) (by decide) ?_
  exact Kept.refl _ _

theorem kept_setQueue (s : State) (e) (q) :
    Kept [.queues] s (State.setQueue s e q) := by
  unfold State.setQueue
  refine Kept.upd ?_; exact Kept.refl _ _

theorem kept_startFlight (s : State) (uid) :
    Kept [.flights] s (State.startFlight s uid) := by
  unfold State.startFlight
  refine Kept.step (kept_updFlight ..) (by decide) ?_; exact Kept.refl _ _

theorem kept_callBit (s : State) (off i code index) :
    Kept (Field.ofReg off :: [.trig, .fltR]) s (State.callBit s off i code index) := by
  unfold State.callBit
  refine Kept.ite (Kept.refl _ _) (Kept.step (kept_logRecord ..) (by simp) (Kept.mono (kept_setB ..) (by simp)))

theorem kept_ccIncrement (s : State) (k) :
    Kept [.board, .trig, .callR, .fltR] s (State.ccIncrement s k) := by
  unfold State.ccIncrement
  extract_lets +onlyGivenNames x0; clear_value x0; refine Kept.ite ?_ ?_
  refine Kept.step (kept_callBit ..) (by decide) ?_; exact Kept.refl _ _
  refine Kept.step (kept_setCnt ..) (by decide) ?_; exact Kept.refl _ _

theorem kept_post (s : State) (i) (delta) :
    Kept [.board, .trig, .callR, .fltR] s (State.post s i delta) := by
  unfold State.post
  extract_lets +onlyGivenNames x0; clear_value x0; refine Kept.ite ?_ ?_
  refine Kept.step (kept_callBit ..) (by split <;> decide) ?_; refine Kept.step (kept_setCnt ..) (by decide) ?_
  exact Kept.refl _ _; refine Kept.ite ?_ ?_; refine Kept.step (kept_callBit ..) (by split <;> decide) ?_
  refine Kept.step (kept_setCnt ..) (by decide) ?_; exact Kept.refl _ _
  refine Kept.step (kept_setCnt ..) (by decide) ?_; exact Kept.refl _ _

theorem kept_localPosts (s : State) (c) :
    Kept [.board, .trig, .callR, .fltR] s (State.localPosts s c) := by
  unfold State.localPosts
  refine Kept.fold _ (fun u0 y1 => ?_) ?_; refine Kept.ite ?_ ?_; exact Kept.refl _ _
  refine Kept.step (kept_post ..) (by decide) ?_; exact Kept.refl _ _; exact Kept.refl _ _

theorem kept_progress (s : State) (l) :
    Kept [.callR] s (State.progress s l) := by
  unfold State.progress
  refine Kept.step (kept_setReg ..) (by simp) ?_; exact Kept.refl _ _

theorem kept_completeLocal (s : State) (uid) :
    Kept [.flights, .board, .trig, .callR, .fltR] s (State.completeLocal s uid) := by
  unfold State.completeLocal
  split; exact Kept.refl _ _; extract_lets +onlyGivenNames x0; refine Kept.cut (x := x0) ?_ ?_; unfold x0
  refine Kept.step (kept_dropFlight ..) (by decide) ?_; exact Kept.refl _ _; clear_value x0; intro h1
  extract_lets +onlyGivenNames x2; refine Kept.cut (x := x2) ?_ ?_; unfold x2; refine Kept.ite ?_ ?_; assumption
  refine Kept.step (kept_localPosts ..) (by decide) ?_; assumption; clear_value x2; intro h3
  refine Kept.step (kept_progress ..) (by decide) ?_; assumption

theorem kept_ccReleaseNode (s : State) (k) (a) :
    Kept [.flights, .board, .fab, .outs, .trig, .callR, .exchR, .fabR, .fltR] s (State.ccReleaseNode s k a) := by
  unfold State.ccReleaseNode
  extract_lets +onlyGivenNames x0; clear_value x0; extract_lets +onlyGivenNames x1; refine Kept.cut (x := x1) ?_ ?_
  unfold x1; refine Kept.step (kept_ccIncrement ..) (by decide) ?_; exact Kept.refl _ _; clear_value x1; intro h2
  extract_lets +onlyGivenNames x3; refine Kept.cut (x := x3) ?_ ?_; unfold x3; split
  refine Kept.step (kept_applyAlign ..) (by decide) ?_; assumption; assumption; clear_value x3; intro h4
  extract_lets +onlyGivenNames x5; refine Kept.cut (x := x5) ?_ ?_; unfold x5
  refine Kept.step (kept_setTree ..) (by decide) ?_; assumption; clear_value x5; intro h6
  extract_lets +onlyGivenNames x7; refine Kept.cut (x := x7) ?_ ?_; unfold x7; refine Kept.fold _ (fun u8 y9 => ?_) ?_
  refine Kept.step (kept_sendPacket ..) (by decide) ?_; exact Kept.refl _ _; assumption; clear_value x7; intro h10
  split; refine Kept.step (kept_completeLocal ..) (by decide) ?_; assumption; assumption

theorem kept_ccArrive (s : State) (k) :
    Kept [.flights, .board, .fab, .outs, .trig, .callR, .exchR, .fabR, .fltR] s (State.ccArrive s k) := by
  unfold State.ccArrive
  extract_lets +onlyGivenNames x0; clear_value x0; refine Kept.ite ?_ ?_; extract_lets +onlyGivenNames x1
  refine Kept.cut (x := x1) ?_ ?_; unfold x1; refine Kept.step (kept_setTree ..) (by decide) ?_; exact Kept.refl _ _
  clear_value x1; intro h2; refine Kept.ite ?_ ?_; refine Kept.step (kept_ccReleaseNode ..) (by decide) ?_; assumption
  refine Kept.step (kept_sendPacket ..) (by decide) ?_; assumption; exact Kept.refl _ _

theorem kept_newTag (s : State) :
    Kept [.nextTag] s (State.newTag s).2 := by
  unfold State.newTag
  refine Kept.pairR ?_; refine Kept.upd ?_; exact Kept.refl _ _

theorem kept_land (s : State) (addr) (bytes) (poison) :
    Kept [.mem, .prop, .trig, .propR, .fltR] s (State.land s addr bytes poison) := by
  unfold State.land
  extract_lets +onlyGivenNames x0; clear_value x0; refine Kept.iter _ (fun u1 y2 => ?_) ?_
  extract_lets +onlyGivenNames x3; clear_value x3; extract_lets +onlyGivenNames x4; clear_value x4
  extract_lets +onlyGivenNames x5; clear_value x5; refine Kept.step (kept_landWord ..) (by decide) ?_
  exact Kept.refl _ _; exact Kept.refl _ _

theorem kept_fresh (s : State) :
    Kept [.freeCtr] s (State.fresh s).2 := by
  unfold State.fresh
  refine Kept.pairR ?_; refine Kept.upd ?_; exact Kept.refl _ _

theorem kept_unitDone (s : State) (uid) :
    Kept [.flights] s (State.unitDone s uid) := by
  unfold State.unitDone
  refine Kept.step (kept_updFlight ..) (by decide) ?_; exact Kept.refl _ _

theorem kept_unqueueAt (s : State) (e) (uid) :
    Kept [.queues] s (State.unqueueAt s e uid) := by
  unfold State.unqueueAt
  refine Kept.step (kept_setQueue ..) (by decide) ?_; exact Kept.refl _ _

theorem kept_updLine (s : State) (l) (f) :
    Kept [.lines] s (State.updLine s l f) := by
  unfold State.updLine
  refine Kept.step (kept_setLine ..) (by decide) ?_; exact Kept.refl _ _

theorem kept_closeSession (s : State) :
    Kept [.doorR] s (State.closeSession s) := by
  unfold State.closeSession
  refine Kept.step (kept_setReg ..) (by decide) ?_; refine Kept.step (kept_setReg ..) (by decide) ?_
  refine Kept.step (kept_setB ..) (by decide) ?_; exact Kept.refl _ _

theorem kept_resetDoor (s : State) :
    Kept [.secret, .doorR] s (State.resetDoor s) := by
  unfold State.resetDoor
  extract_lets +onlyGivenNames x0; refine Kept.cut (x := x0) ?_ ?_; unfold x0
  refine Kept.step (kept_setB ..) (by decide) ?_; refine Kept.step (kept_closeSession ..) (by decide) ?_
  exact Kept.refl _ _; clear_value x0; intro h1; refine Kept.upd ?_; assumption

theorem kept_ringCue (s : State) (l) (p) :
    Kept [.mem, .prop, .trig, .propR, .fltR] s (State.ringCue s l p).2 := by
  unfold State.ringCue
  extract_lets +onlyGivenNames x0; clear_value x0; refine Kept.iteR ?_ ?_; refine Kept.pairR ?_
  refine Kept.step (kept_count ..) (by decide) ?_; exact Kept.refl _ _; extract_lets +onlyGivenNames x1
  refine Kept.cutR (x := x1) ?_ ?_; unfold x1; refine Kept.step (kept_readWord ..) (by decide) ?_; exact Kept.refl _ _
  clear_value x1; intro h2; extract_lets +onlyGivenNames x3; refine Kept.cutR (x := x3) ?_ ?_; unfold x3
  refine Kept.step (kept_readWord ..) (by decide) ?_; assumption; clear_value x3; intro h4; refine Kept.pairR ?_
  assumption

theorem kept_fetchHead (s : State) (l) :
    Kept [.mem, .prop, .trig, .propR, .fltR] s (State.fetchHead s l).2 := by
  unfold State.fetchHead
  extract_lets +onlyGivenNames x0; clear_value x0; split; refine Kept.pairR ?_; exact Kept.refl _ _
  refine Kept.iteR ?_ ?_; refine Kept.pairR ?_; exact Kept.refl _ _; refine Kept.step (kept_ringCue ..) (by decide) ?_
  exact Kept.refl _ _

theorem kept_passClose (s : State) (trk) :
    Kept [.trackers] s (State.passClose s trk) := by
  unfold State.passClose
  extract_lets +onlyGivenNames x0; clear_value x0; refine Kept.ite ?_ ?_
  refine Kept.step (kept_setTracker ..) (by decide) ?_; exact Kept.refl _ _; exact Kept.refl _ _

theorem kept_handlePassClose (s : State) (h) :
    Kept [.trackers] s (State.handlePassClose s h) := by
  unfold State.handlePassClose
  extract_lets +onlyGivenNames x0; clear_value x0; refine Kept.ite ?_ ?_
  refine Kept.step (kept_passClose ..) (by decide) ?_; exact Kept.refl _ _; exact Kept.refl _ _

theorem kept_coreFault (s : State) (r) :
    Kept [.lines, .trig, .ctlR, .lineR, .callR, .fltR] s (State.coreFault s r) := by
  unfold State.coreFault
  refine Kept.step (kept_fatalHalts ..) (by decide) ?_; refine Kept.step (kept_logRecord ..) (by decide) ?_
  exact Kept.refl _ _

theorem kept_tableUpset (s : State) (u) (unit) (addr) (kind) :
    Kept [.lines, .trig, .ctlR, .lineR, .callR, .fltR] s (State.tableUpset s u unit addr kind) := by
  unfold State.tableUpset
  refine Kept.ite ?_ ?_; refine Kept.step (kept_logRecord ..) (by decide) ?_; exact Kept.refl _ _
  refine Kept.ite ?_ ?_; refine Kept.step (kept_coreFault ..) (by decide) ?_; exact Kept.refl _ _; exact Kept.refl _ _

theorem kept_passNote (s : State) (trk) (x) :
    Kept [.trackers, .trkR] s (State.passNote s trk x) := by
  unfold State.passNote
  refine Kept.ite ?_ ?_; refine Kept.step (kept_count ..) (by decide) ?_; exact Kept.refl _ _
  extract_lets +onlyGivenNames x0; clear_value x0; extract_lets +onlyGivenNames x1; clear_value x1
  refine Kept.ite ?_ ?_; refine Kept.step (kept_setTracker ..) (by decide) ?_; exact Kept.refl _ _
  exact Kept.refl _ _

theorem kept_passOpen (s : State) (trk) (f) :
    Kept [.trackers] s (State.passOpen s trk f) := by
  unfold State.passOpen
  extract_lets +onlyGivenNames x0; clear_value x0; refine Kept.ite ?_ ?_; exact Kept.refl _ _
  extract_lets +onlyGivenNames x1; clear_value x1; refine Kept.step (kept_setTracker ..) (by decide) ?_
  exact Kept.refl _ _

theorem kept_leaveIdle (s : State) :
    Kept [.powerR] s (State.leaveIdle s) := by
  unfold State.leaveIdle
  refine Kept.ite ?_ ?_; refine Kept.step (kept_setF ..) (by decide) ?_; exact Kept.refl _ _; exact Kept.refl _ _

theorem kept_takeHeads (s : State) :
    Kept [.lines, .mem, .prop, .trig, .propR, .fltR] s (State.takeHeads s) := by
  unfold State.takeHeads
  refine Kept.fold _ (fun u0 y1 => ?_) ?_; refine Kept.ite ?_ ?_; exact Kept.refl _ _; split
  extract_lets +onlyGivenNames x2; refine Kept.cut (x := x2) ?_ ?_; unfold x2
  refine Kept.step (kept_fetchHead ..) (by decide) ?_; exact Kept.refl _ _; clear_value x2; intro h3
  refine Kept.step (kept_setLine ..) (by decide) ?_; assumption; extract_lets +onlyGivenNames x4
  refine Kept.cut (x := x4) ?_ ?_; unfold x4; refine Kept.step (kept_fetchHead ..) (by decide) ?_; exact Kept.refl _ _
  clear_value x4; intro h5; refine Kept.step (kept_setLine ..) (by decide) ?_; assumption
  extract_lets +onlyGivenNames x6; refine Kept.cut (x := x6) ?_ ?_; unfold x6
  refine Kept.step (kept_fetchHead ..) (by decide) ?_; exact Kept.refl _ _; clear_value x6; intro h7
  refine Kept.step (kept_setLine ..) (by decide) ?_; assumption; exact Kept.refl _ _; exact Kept.refl _ _

theorem kept_dispatchTriggers (s : State) (q) :
    Kept [.trig] s (State.dispatchTriggers s q) := by
  unfold State.dispatchTriggers
  extract_lets +onlyGivenNames x0; refine Kept.cut (x := x0) ?_ ?_; unfold x0; refine Kept.ite ?_ ?_
  refine Kept.step (kept_trigger ..) (by decide) ?_; exact Kept.refl _ _; exact Kept.refl _ _
  clear_value x0; intro h1; refine Kept.ite ?_ ?_; refine Kept.step (kept_trigger ..) (by decide) ?_; assumption
  assumption

theorem kept_number (s : State) (l) (c) :
    Kept [.lines, .nextUid, .callR] s (State.number s l c).2 := by
  unfold State.number
  extract_lets +onlyGivenNames x0; clear_value x0; extract_lets +onlyGivenNames x1; clear_value x1
  extract_lets +onlyGivenNames x2; clear_value x2; extract_lets +onlyGivenNames x3; clear_value x3
  extract_lets +onlyGivenNames x4; clear_value x4; extract_lets +onlyGivenNames x5; clear_value x5
  refine Kept.pairR ?_; refine Kept.step (kept_progress ..) (by decide) ?_; extract_lets +onlyGivenNames x6
  refine Kept.cut (x := x6) ?_ ?_; unfold x6; refine Kept.step (kept_setLine ..) (by decide) ?_; exact Kept.refl _ _
  clear_value x6; intro h7; refine Kept.upd ?_; assumption

theorem kept_dispatchCall (s : State) (l) (c) :
    Kept [.lines, .flights, .trig, .nextUid, .callR] s (State.dispatchCall s l c) := by
  unfold State.dispatchCall
  split; extract_lets +onlyGivenNames x0; refine Kept.cut (x := x0) ?_ ?_; unfold x0
  refine Kept.step (kept_dispatchTriggers ..) (by decide) ?_; refine Kept.ofR (by assumption) ?_
  refine Kept.step (kept_number ..) (by decide) ?_; exact Kept.refl _ _; clear_value x0; intro h1
  extract_lets +onlyGivenNames x2; clear_value x2; extract_lets +onlyGivenNames x3; refine Kept.cut (x := x3) ?_ ?_
  unfold x3; refine Kept.upd ?_; assumption; clear_value x3; intro h4
  refine Kept.step (kept_updLine ..) (by decide) ?_; assumption

theorem kept_curtainCheck (s : State) (l) (c) :
    Kept [.mem, .prop, .trig, .propR, .fltR] s (State.curtainCheck s l c).2 := by
  unfold State.curtainCheck
  extract_lets +onlyGivenNames x0; clear_value x0; refine Kept.iteR ?_ ?_; refine Kept.pairR ?_; exact Kept.refl _ _
  refine Kept.iteR ?_ ?_; refine Kept.iteR ?_ ?_; refine Kept.pairR ?_
  refine Kept.step (kept_count ..) (by decide) ?_; exact Kept.refl _ _; extract_lets +onlyGivenNames x1
  refine Kept.cutR (x := x1) ?_ ?_; unfold x1; refine Kept.step (kept_readPlain ..) (by decide) ?_
  exact Kept.refl _ _; clear_value x1; intro h2; refine Kept.iteR ?_ ?_; refine Kept.pairR ?_; assumption
  extract_lets +onlyGivenNames x3; clear_value x3; extract_lets +onlyGivenNames x4; clear_value x4
  refine Kept.pairR ?_; assumption; refine Kept.pairR ?_; exact Kept.refl _ _

theorem kept_haltHead (s : State) (l) (r) (fetch) (c) :
    Kept [.lines, .trig, .ctlR, .lineR, .callR, .fltR] s (State.haltHead s l r fetch c) := by
  unfold State.haltHead
  extract_lets +onlyGivenNames x0; refine Kept.cut (x := x0) ?_ ?_; unfold x0
  refine Kept.step (kept_halt ..) (by decide) ?_; exact Kept.refl _ _; clear_value x0; intro h1
  refine Kept.step (kept_updLine ..) (by decide) ?_; assumption

theorem kept_dispatchCurtain (s : State) (l) (c) :
    Kept [.lines, .flights, .board, .mem, .prop, .fab, .outs, .trig, .nextUid, .ctlR, .lineR, .callR, .propR, .exchR, .fabR, .fltR] s (State.dispatchCurtain s l c) := by
  unfold State.dispatchCurtain
  extract_lets +onlyGivenNames x0; refine Kept.cutR (x := x0) ?_ ?_; unfold x0
  refine Kept.step (kept_curtainCheck ..) (by decide) ?_; exact Kept.refl _ _; clear_value x0; intro h1; split
  refine Kept.step (kept_haltHead ..) (by decide) ?_; assumption; split; extract_lets +onlyGivenNames x2
  refine Kept.cut (x := x2) ?_ ?_; unfold x2; refine Kept.step (kept_dispatchTriggers ..) (by decide) ?_
  refine Kept.ofR (by assumption) ?_; refine Kept.step (kept_number ..) (by decide) ?_; assumption
  clear_value x2; intro h3; extract_lets +onlyGivenNames x4; clear_value x4; extract_lets +onlyGivenNames x5
  refine Kept.cut (x := x5) ?_ ?_; unfold x5; refine Kept.step (kept_updLine ..) (by decide) ?_; assumption
  clear_value x5; intro h6; extract_lets +onlyGivenNames x7; clear_value x7; extract_lets +onlyGivenNames x8
  refine Kept.cut (x := x8) ?_ ?_; unfold x8; refine Kept.upd ?_; assumption; clear_value x8; intro h9
  extract_lets +onlyGivenNames x10; clear_value x10; extract_lets +onlyGivenNames x11; clear_value x11
  extract_lets +onlyGivenNames x12; refine Kept.cut (x := x12) ?_ ?_; unfold x12
  refine Kept.step (kept_setTree ..) (by decide) ?_; assumption; clear_value x12; intro h13
  refine Kept.step (kept_ccArrive ..) (by decide) ?_; assumption

theorem kept_enqueue (s : State) (q) (parent) (fetcher) (qs) :
    Kept [.flights, .queues] s (State.enqueue s q parent fetcher qs) := by
  unfold State.enqueue
  extract_lets +onlyGivenNames x0; refine Kept.cut (x := x0) ?_ ?_; unfold x0; refine Kept.upd ?_; exact Kept.refl _ _
  clear_value x0; intro h1; refine Kept.fold _ (fun u2 y3 => ?_) ?_
  refine Kept.step (kept_setQueue ..) (by decide) ?_; exact Kept.refl _ _; assumption

theorem kept_enqueueChecked (s : State) (q) (parent) (fetcher) (qs) :
    Kept [.lines, .flights, .queues, .trig, .ctlR, .lineR, .callR, .fltR] s (State.enqueueChecked s q parent fetcher qs) := by
  unfold State.enqueueChecked
  extract_lets +onlyGivenNames x0; clear_value x0; extract_lets +onlyGivenNames x1; refine Kept.cut (x := x1) ?_ ?_
  unfold x1; refine Kept.step (kept_enqueue ..) (by decide) ?_; exact Kept.refl _ _; clear_value x1; intro h2
  refine Kept.ite ?_ ?_; assumption; refine Kept.step (kept_engineHalt ..) (by decide) ?_; assumption

theorem kept_dispatchEngine (s : State) (l) (c) :
    Kept [.lines, .flights, .queues, .trig, .nextUid, .ctlR, .lineR, .callR, .fltR] s (State.dispatchEngine s l c) := by
  unfold State.dispatchEngine
  extract_lets +onlyGivenNames x0; clear_value x0; extract_lets +onlyGivenNames x1; clear_value x1; split
  extract_lets +onlyGivenNames x2; refine Kept.cut (x := x2) ?_ ?_; unfold x2
  refine Kept.step (kept_dispatchTriggers ..) (by decide) ?_; refine Kept.ofR (by assumption) ?_
  refine Kept.step (kept_number ..) (by decide) ?_; exact Kept.refl _ _; clear_value x2; intro h3
  extract_lets +onlyGivenNames x4; refine Kept.cut (x := x4) ?_ ?_; unfold x4
  refine Kept.step (kept_updLine ..) (by decide) ?_; assumption; clear_value x4; intro h5
  refine Kept.step (kept_enqueueChecked ..) (by decide) ?_; assumption

theorem kept_dispatchHalt (s : State) (l) (c) :
    Kept [.lines, .board, .trig, .nextUid, .ctlR, .lineR, .callR, .fltR] s (State.dispatchHalt s l c) := by
  unfold State.dispatchHalt
  split; extract_lets +onlyGivenNames x0; refine Kept.cut (x := x0) ?_ ?_; unfold x0
  refine Kept.step (kept_dispatchTriggers ..) (by decide) ?_; refine Kept.ofR (by assumption) ?_
  refine Kept.step (kept_number ..) (by decide) ?_; exact Kept.refl _ _; clear_value x0; intro h1
  extract_lets +onlyGivenNames x2; refine Kept.cut (x := x2) ?_ ?_; unfold x2
  refine Kept.step (kept_updLine ..) (by decide) ?_; assumption; clear_value x2; intro h3
  extract_lets +onlyGivenNames x4; refine Kept.cut (x := x4) ?_ ?_; unfold x4
  refine Kept.step (kept_localPosts ..) (by decide) ?_; assumption; clear_value x4; intro h5
  extract_lets +onlyGivenNames x6; refine Kept.cut (x := x6) ?_ ?_; unfold x6
  refine Kept.step (kept_halt ..) (by decide) ?_; assumption; clear_value x6; intro h7
  refine Kept.step (kept_updLine ..) (by decide) ?_; assumption

theorem kept_dispatchLoopBegin (s : State) (l) (c) :
    Kept [.lines, .board, .trig, .nextUid, .callR, .fltR] s (State.dispatchLoopBegin s l c) := by
  unfold State.dispatchLoopBegin
  extract_lets +onlyGivenNames x0; clear_value x0; split; extract_lets +onlyGivenNames x1
  refine Kept.cut (x := x1) ?_ ?_; unfold x1; refine Kept.step (kept_dispatchTriggers ..) (by decide) ?_
  refine Kept.ofR (by assumption) ?_; refine Kept.step (kept_number ..) (by decide) ?_; exact Kept.refl _ _
  clear_value x1; intro h2; extract_lets +onlyGivenNames x3; clear_value x3; extract_lets +onlyGivenNames x4
  refine Kept.cut (x := x4) ?_ ?_; unfold x4; refine Kept.step (kept_updLine ..) (by decide) ?_; assumption
  clear_value x4; intro h5; refine Kept.step (kept_localPosts ..) (by decide) ?_; assumption

theorem kept_dispatchLoopEnd (s : State) (l) (c) :
    Kept [.lines, .board, .trig, .nextUid, .callR, .fltR] s (State.dispatchLoopEnd s l c) := by
  unfold State.dispatchLoopEnd
  extract_lets +onlyGivenNames x0; clear_value x0; split; extract_lets +onlyGivenNames x1
  refine Kept.cut (x := x1) ?_ ?_; unfold x1; refine Kept.step (kept_dispatchTriggers ..) (by decide) ?_
  refine Kept.ofR (by assumption) ?_; refine Kept.step (kept_number ..) (by decide) ?_; exact Kept.refl _ _
  clear_value x1; intro h2; extract_lets +onlyGivenNames x3; clear_value x3; extract_lets +onlyGivenNames x4
  refine Kept.cut (x := x4) ?_ ?_; unfold x4; refine Kept.step (kept_updLine ..) (by decide) ?_; assumption
  clear_value x4; intro h5; refine Kept.step (kept_localPosts ..) (by decide) ?_; assumption

theorem kept_dispatchPlain (s : State) (l) (c) :
    Kept [.lines, .board, .trig, .nextUid, .callR, .fltR] s (State.dispatchPlain s l c) := by
  unfold State.dispatchPlain
  split; extract_lets +onlyGivenNames x0; refine Kept.cut (x := x0) ?_ ?_; unfold x0
  refine Kept.step (kept_dispatchTriggers ..) (by decide) ?_; refine Kept.ofR (by assumption) ?_
  refine Kept.step (kept_number ..) (by decide) ?_; exact Kept.refl _ _; clear_value x0; intro h1
  extract_lets +onlyGivenNames x2; refine Kept.cut (x := x2) ?_ ?_; unfold x2
  refine Kept.step (kept_updLine ..) (by decide) ?_; assumption; clear_value x2; intro h3
  refine Kept.step (kept_localPosts ..) (by decide) ?_; assumption

theorem kept_setLoopAct (s : State) (l c) : Kept [.lineR] s (State.setLoopAct s l c) := by
  unfold State.setLoopAct
  exact Kept.mono (kept_setReg ..) (by rw [Field.ofReg_lineR (by unfold R.lineLoop; omega) (by unfold R.lineLoop; omega)]; decide)

theorem kept_dispatchSetLoop (s : State) (l) (c) :
    Kept [.lines, .board, .trig, .nextUid, .lineR, .callR, .fltR] s (State.dispatchSetLoop s l c) := by
  unfold State.dispatchSetLoop
  refine Kept.step (kept_setLoopAct ..) (by decide) ?_; refine Kept.step (kept_dispatchPlain ..) (by decide) ?_
  exact Kept.refl _ _

theorem kept_dispatchStep (s : State) (l) (c) :
    Kept [.lines, .board, .trig, .nextUid, .callR, .trkR, .fltR] s (State.dispatchStep s l c) := by
  unfold State.dispatchStep
  refine Kept.step (kept_countMod ..) (by simp) ?_; refine Kept.step (kept_dispatchPlain ..) (by decide) ?_
  exact Kept.refl _ _

theorem kept_dispatch (s : State) (l) (c) :
    Kept [.lines, .flights, .queues, .board, .mem, .prop, .fab, .outs, .trig, .nextUid, .ctlR, .lineR, .callR, .trkR, .propR, .exchR, .fabR, .fltR] s (State.dispatch s l c) := by
  unfold State.dispatch
  split; refine Kept.step (kept_dispatchPlain ..) (by decide) ?_; exact Kept.refl _ _
  refine Kept.step (kept_dispatchPlain ..) (by decide) ?_; exact Kept.refl _ _
  refine Kept.step (kept_dispatchLoopBegin ..) (by decide) ?_; exact Kept.refl _ _
  refine Kept.step (kept_dispatchLoopEnd ..) (by decide) ?_; exact Kept.refl _ _
  refine Kept.step (kept_dispatchCall ..) (by decide) ?_; exact Kept.refl _ _
  refine Kept.step (kept_dispatchSetLoop ..) (by decide) ?_; exact Kept.refl _ _
  refine Kept.step (kept_dispatchHalt ..) (by decide) ?_; exact Kept.refl _ _
  refine Kept.step (kept_dispatchStep ..) (by decide) ?_; exact Kept.refl _ _
  refine Kept.step (kept_dispatchCurtain ..) (by decide) ?_; exact Kept.refl _ _
  refine Kept.step (kept_dispatchEngine ..) (by decide) ?_; exact Kept.refl _ _

theorem kept_skipHead (s : State) (l) :
    Kept [.lines] s (State.skipHead s l) := by
  unfold State.skipHead
  extract_lets +onlyGivenNames x0; clear_value x0; refine Kept.step (kept_setLine ..) (by decide) ?_
  exact Kept.refl _ _

theorem kept_turnAct (s : State) (l) : Kept [.lines, .flights, .queues, .board, .mem, .prop, .fab, .outs, .trig, .nextUid, .ctlR, .lineR, .callR, .trkR, .propR, .exchR, .fabR, .fltR] s (State.turnAct s l) := by
  unfold State.turnAct
  generalize s.turnOf l = t
  cases t
  case fail r f c => exact Kept.step (kept_haltHead ..) (by decide) (Kept.mono (kept_fetchHead ..) (by decide))
  case go c => exact Kept.mono (kept_dispatch ..) (by decide)
  case skip => exact Kept.mono (kept_skipHead ..) (by decide)
  all_goals exact Kept.refl _ _

theorem kept_takeTurn (s : State) (l) (ptr) :
    Kept [.lines, .flights, .queues, .board, .mem, .prop, .fab, .outs, .trig, .nextUid, .ctlR, .powerR, .lineR, .callR, .trkR, .propR, .exchR, .fabR, .fltR] s (State.takeTurn s l ptr) := by
  unfold State.takeTurn
  refine Kept.step (kept_leaveIdle ..) (by decide) ?_; refine Kept.step (kept_setF ..) (by decide) ?_
  refine Kept.step (kept_turnAct ..) (by decide) ?_; exact Kept.refl _ _

theorem kept_markPoisoned (s : State) (addr) :
    Kept [.prop] s (State.markPoisoned s addr) := by
  unfold State.markPoisoned
  split; refine Kept.step (kept_setPage ..) (by decide) ?_; exact Kept.refl _ _; exact Kept.refl _ _

theorem kept_retireProgress (s : State) :
    Kept [.prop] s (State.retireProgress s) := by
  unfold State.retireProgress
  refine Kept.ite ?_ ?_; exact Kept.refl _ _; refine Kept.fold _ (fun u0 y1 => ?_) ?_
  refine Kept.step (kept_retireGo ..) (by decide) ?_; exact Kept.refl _ _; exact Kept.refl _ _

theorem kept_routineDone (s : State) :
    Kept [.flights] s (State.routineDone s) := by
  unfold State.routineDone
  refine Kept.upd ?_; exact Kept.refl _ _

theorem kept_watches (s : State) :
    Kept [.callR] s (State.watches s) := by
  unfold State.watches
  refine Kept.fold _ (fun u0 y1 => ?_) ?_; extract_lets +onlyGivenNames x2; clear_value x2; refine Kept.ite ?_ ?_
  refine Kept.step (kept_setB ..) (by decide) ?_; exact Kept.refl _ _; exact Kept.refl _ _; exact Kept.refl _ _

theorem kept_takeLocal (s : State) (p) :
    Kept [.fab, .outs] s (State.takeLocal s p) := by
  unfold State.takeLocal
  split; exact Kept.refl _ _; extract_lets +onlyGivenNames x0; clear_value x0
  refine Kept.step (kept_returnOwed ..) (by decide) ?_; refine Kept.upd ?_; exact Kept.refl _ _

theorem kept_pump (s : State) (p) :
    Kept [.fab, .outs, .fabR] s (State.pump s p) := by
  unfold State.pump
  refine Kept.iter _ (fun u0 y1 => ?_) ?_; refine Kept.step (kept_pumpClass ..) (by decide) ?_; exact Kept.refl _ _
  exact Kept.refl _ _

theorem kept_handlePassNote (s : State) (h) (x) :
    Kept [.trackers, .trkR] s (State.handlePassNote s h x) := by
  unfold State.handlePassNote
  extract_lets +onlyGivenNames x0; clear_value x0; refine Kept.ite ?_ ?_
  refine Kept.step (kept_passNote ..) (by decide) ?_; exact Kept.refl _ _; exact Kept.refl _ _

theorem kept_handlePassOpen (s : State) (h) :
    Kept [.trackers] s (State.handlePassOpen s h) := by
  unfold State.handlePassOpen
  extract_lets +onlyGivenNames x0; clear_value x0; refine Kept.ite ?_ ?_
  refine Kept.step (kept_passOpen ..) (by decide) ?_; exact Kept.refl _ _; exact Kept.refl _ _

theorem kept_queueWrite (s : State) (uid engine addr bytes poison) :
    Kept [.mem] s (State.queueWrite s uid engine addr bytes poison) := by
  unfold State.queueWrite iter
  refine Kept.fold _ (fun u k => ?_) (Kept.refl _ _)
  refine Kept.upd (Kept.refl _ _) (wmem := Mem.wf_push _ ?_)
  unfold PendWrite.fits
  rw [decide_eq_true_eq, List.length_take]
  dsimp only
  split <;> omega

theorem kept_restart (s : State) (t) :
    Kept [.timers] s (State.restart s t) := by
  unfold State.restart
  refine Kept.upd ?_; exact Kept.refl _ _

theorem kept_hostError (s : State) (addr) (write) :
    Kept [.ctlR] s (State.hostError s addr write) := by
  unfold State.hostError
  extract_lets +onlyGivenNames x0; refine Kept.cut (x := x0) ?_ ?_; unfold x0
  refine Kept.step (kept_count ..) (by decide) ?_; exact Kept.refl _ _; clear_value x0; intro h1
  extract_lets +onlyGivenNames x2; refine Kept.cut (x := x2) ?_ ?_; unfold x2
  refine Kept.step (kept_setReg ..) (by decide) ?_; assumption; clear_value x2; intro h3
  refine Kept.step (kept_latchIrq ..) (by decide) ?_; assumption

end Sys2Proof.Machine
end

