-- ==== Sys2Proof/Laws/KeptUnits.lean ====
section
/-! SUPPORT. What the functions of the arrays and the chorus leave unchanged: one lemma
per function, whose list is all it can change. -/

namespace Sys2Proof.Machine

set_option Elab.async false

theorem kept_sortArrQueues (s : State) :
    Kept [.queues] s (State.sortArrQueues s) := by
  unfold State.sortArrQueues
  extract_lets +onlyGivenNames x0; clear_value x0; extract_lets +onlyGivenNames x1; clear_value x1
  refine Kept.step (kept_setQueue ..) (by decide) ?_; refine Kept.step (kept_setQueue ..) (by decide) ?_
  exact Kept.refl _ _

theorem kept_arrConfig (s : State) (q) :
    Kept [.lines, .flights, .queues, .arr, .trig, .ctlR, .lineR, .callR, .fltR] s (State.arrConfig s q) := by
  unfold State.arrConfig
  split; exact Kept.refl _ _; extract_lets +onlyGivenNames x0; clear_value x0; refine Kept.ite ?_ ?_
  exact Kept.refl _ _; refine Kept.ite ?_ ?_; refine Kept.step (kept_engineHalt ..) (by decide) ?_
  exact Kept.refl _ _; refine Kept.ite ?_ ?_; exact Kept.refl _ _; extract_lets +onlyGivenNames x1
  refine Kept.cut (x := x1) ?_ ?_; unfold x1; refine Kept.step (kept_finishFlight ..) (by decide) ?_
  refine Kept.step (kept_unqueue ..) (by decide) ?_; exact Kept.refl _ _; clear_value x1; intro h2
  extract_lets +onlyGivenNames x3; clear_value x3; extract_lets +onlyGivenNames x4; refine Kept.cut (x := x4) ?_ ?_
  unfold x4; refine Kept.upd ?_; assumption; clear_value x4; intro h5
  refine Kept.step (kept_sortArrQueues ..) (by decide) ?_; assumption

theorem kept_arrDropHold (s : State) (q) :
    Kept [.flights, .queues, .arr] s (State.arrDropHold s q) := by
  unfold State.arrDropHold
  split; exact Kept.refl _ _; refine Kept.ite ?_ ?_; exact Kept.refl _ _; extract_lets +onlyGivenNames x0
  clear_value x0; extract_lets +onlyGivenNames x1; clear_value x1; extract_lets +onlyGivenNames x2; clear_value x2
  extract_lets +onlyGivenNames x3; clear_value x3; extract_lets +onlyGivenNames x4; refine Kept.cut (x := x4) ?_ ?_
  unfold x4; refine Kept.upd ?_; exact Kept.refl _ _; clear_value x4; intro h5
  refine Kept.step (kept_finishFlight ..) (by decide) ?_; refine Kept.step (kept_unqueue ..) (by decide) ?_
  assumption

theorem kept_loadWorking (s : State) (c) (k) (t) :
    Kept [.arr] s (State.loadWorking s c k t) := by
  unfold State.loadWorking
  refine Kept.upd ?_; exact Kept.refl _ _

theorem kept_setHalf (s : State) (h) (v) :
    Kept [.arr] s (State.setHalf s h v) := by
  unfold State.setHalf
  refine Kept.upd ?_; exact Kept.refl _ _

theorem kept_popHalf (s : State) (q) :
    KeptOR [.arr] s (State.popHalf s q) := by
  unfold State.popHalf
  extract_lets +onlyGivenNames x0; clear_value x0; split; refine KeptOR.some ?_; refine Kept.pairR ?_
  extract_lets +onlyGivenNames x1; refine Kept.cut (x := x1) ?_ ?_; unfold x1
  refine Kept.step (kept_setHalf ..) (by decide) ?_; exact Kept.refl _ _; clear_value x1; intro h2; refine Kept.upd ?_
  assumption; exact KeptOR.none _ _

theorem kept_setShadows (s : State) (q) (l) :
    Kept [.arr] s (State.setShadows s q l) := by
  unfold State.setShadows
  refine Kept.upd ?_; exact Kept.refl _ _

theorem kept_takeTile (s : State) (q) (c) (k) :
    KeptOR [.arr] s (State.takeTile s q c k) := by
  unfold State.takeTile
  split; refine KeptOR.some ?_; refine Kept.pairR ?_; refine Kept.step (kept_setShadows ..) (by decide) ?_
  exact Kept.refl _ _; refine KeptOR.step (kept_popHalf ..) (by decide) ?_; exact Kept.refl _ _

theorem kept_fillTiles (s : State) (q) (c) : KeptOR [.arr] s (State.fillTiles s q c) := by
  unfold State.fillTiles
  refine KeptOR.foldlM (fun st k => ?_) _ (Kept.refl _ _)
  split
  · exact KeptOR.some (Kept.refl _ _)
  · refine ⟨fun t e => ?_⟩
    obtain ⟨r, hr, e⟩ := Option.map_eq_some_iff.1 e
    subst e
    exact Kept.step (kept_loadWorking ..) (by decide) (Kept.mono ((kept_takeTile ..).out r hr) (by decide))

theorem kept_setFeed (s : State) (a) (l) :
    Kept [.arr] s (State.setFeed s a l) := by
  unfold State.setFeed
  refine Kept.upd ?_; exact Kept.refl _ _

theorem kept_issueFill (s : State) (q) (x) (rows) (tiles) (e) :
    Kept [.flights, .queues, .arr, .arrR] s (State.issueFill s q x rows tiles e) := by
  unfold State.issueFill
  extract_lets +onlyGivenNames x0; clear_value x0; extract_lets +onlyGivenNames x1; clear_value x1
  extract_lets +onlyGivenNames x2; clear_value x2; extract_lets +onlyGivenNames x3; clear_value x3
  extract_lets +onlyGivenNames x4; clear_value x4; extract_lets +onlyGivenNames x5; clear_value x5
  extract_lets +onlyGivenNames x6; clear_value x6; extract_lets +onlyGivenNames x7; clear_value x7
  extract_lets +onlyGivenNames x8; refine Kept.cut (x := x8) ?_ ?_; unfold x8
  refine Kept.fold _ (fun u9 y10 => ?_) ?_; refine Kept.step (kept_setFeed ..) (by decide) ?_; exact Kept.refl _ _
  exact Kept.refl _ _; clear_value x8; intro h11; extract_lets +onlyGivenNames x12; clear_value x12
  extract_lets +onlyGivenNames x13; refine Kept.cut (x := x13) ?_ ?_; unfold x13; refine Kept.ite ?_ ?_
  refine Kept.step (kept_count ..) (by decide) ?_; assumption; assumption; clear_value x13; intro h14
  extract_lets +onlyGivenNames x15; refine Kept.cut (x := x15) ?_ ?_; unfold x15
  refine Kept.step (kept_setF ..) (by decide) ?_; assumption; clear_value x15; intro h16
  extract_lets +onlyGivenNames x17; refine Kept.cut (x := x17) ?_ ?_; unfold x17
  refine Kept.step (kept_countMod ..) (by decide) ?_; assumption; clear_value x17; intro h18
  extract_lets +onlyGivenNames x19; refine Kept.cut (x := x19) ?_ ?_; unfold x19
  refine Kept.step (kept_count ..) (by decide) ?_; assumption; clear_value x19; intro h20
  extract_lets +onlyGivenNames x21; clear_value x21; extract_lets +onlyGivenNames x22
  refine Kept.cut (x := x22) ?_ ?_; unfold x22; refine Kept.ite ?_ ?_; refine Kept.step (kept_count ..) (by decide) ?_
  assumption; assumption; clear_value x22; intro h23; extract_lets +onlyGivenNames x24
  refine Kept.cut (x := x24) ?_ ?_; unfold x24; refine Kept.fold _ (fun u25 y26 => ?_) ?_
  extract_lets +onlyGivenNames x27; clear_value x27; extract_lets +onlyGivenNames x28; clear_value x28
  refine Kept.upd ?_; exact Kept.refl _ _; assumption; clear_value x24; intro h29; extract_lets +onlyGivenNames x30
  clear_value x30; extract_lets +onlyGivenNames x31; clear_value x31; extract_lets +onlyGivenNames x32
  clear_value x32; extract_lets +onlyGivenNames x33; refine Kept.cut (x := x33) ?_ ?_; unfold x33; refine Kept.upd ?_
  assumption; clear_value x33; intro h34; extract_lets +onlyGivenNames x35; refine Kept.cut (x := x35) ?_ ?_
  unfold x35; refine Kept.step (kept_startFlight ..) (by decide) ?_; refine Kept.step (kept_unqueue ..) (by decide) ?_
  assumption; clear_value x35; intro h36; refine Kept.ite ?_ ?_; assumption
  refine Kept.step (kept_finishFlight ..) (by decide) ?_; assumption

theorem kept_arrFill (s : State) (q) :
    Kept [.lines, .flights, .queues, .arr, .trig, .ctlR, .powerR, .lineR, .callR, .arrR, .fltR] s (State.arrFill s q) := by
  unfold State.arrFill
  split; exact Kept.refl _ _; extract_lets +onlyGivenNames x0; clear_value x0; refine Kept.ite ?_ ?_
  exact Kept.refl _ _; split; refine Kept.step (kept_engineHalt ..) (by decide) ?_; exact Kept.refl _ _
  extract_lets +onlyGivenNames x1; clear_value x1; extract_lets +onlyGivenNames x2; clear_value x2
  refine Kept.ite ?_ ?_; exact Kept.refl _ _; split; exact Kept.refl _ _; extract_lets +onlyGivenNames x3
  clear_value x3; refine Kept.ite ?_ ?_; refine Kept.step (kept_engineHalt ..) (by decide) ?_; exact Kept.refl _ _
  extract_lets +onlyGivenNames x4; clear_value x4; refine Kept.ite ?_ ?_
  refine Kept.step (kept_engineHalt ..) (by decide) ?_; exact Kept.refl _ _; extract_lets +onlyGivenNames x5
  clear_value x5; extract_lets +onlyGivenNames x6; extract_lets +onlyGivenNames x7; refine Kept.ite ?_ ?_; unfold x7
  refine Kept.step (kept_setB ..) (by decide) ?_; refine Kept.ite ?_ ?_; refine Kept.upd ?_; exact Kept.refl _ _
  exact Kept.refl _ _; refine Kept.step (kept_issueFill ..) (by decide) ?_; unfold x7
  refine Kept.step (kept_setB ..) (by decide) ?_; refine Kept.ite ?_ ?_; refine Kept.upd ?_
  refine Kept.ofOR (by assumption) ?_; refine KeptOR.step (kept_fillTiles ..) (by decide) ?_; exact Kept.refl _ _
  refine Kept.ofOR (by assumption) ?_; refine KeptOR.step (kept_fillTiles ..) (by decide) ?_; exact Kept.refl _ _

theorem kept_bankSleep (s : State) (bank) :
    Kept [.arr] s (State.bankSleep s bank) := by
  unfold State.bankSleep
  extract_lets +onlyGivenNames x0; clear_value x0; refine Kept.ite ?_ ?_; exact Kept.refl _ _; refine Kept.upd ?_
  exact Kept.refl _ _

theorem kept_dropRuns (s : State) (uid) :
    Kept [.arr, .cho, .gangs] s (State.dropRuns s uid) := by
  unfold State.dropRuns
  extract_lets +onlyGivenNames x0; clear_value x0; refine Kept.upd ?_; exact Kept.refl _ _

theorem kept_drained (s : State) :
    Kept [.flights, .arr] s (State.drained s) := by
  unfold State.drained
  extract_lets +onlyGivenNames x0; clear_value x0; extract_lets +onlyGivenNames x1; clear_value x1
  extract_lets +onlyGivenNames x2; clear_value x2; extract_lets +onlyGivenNames x3; refine Kept.cut (x := x3) ?_ ?_
  unfold x3; refine Kept.upd ?_; exact Kept.refl _ _; clear_value x3; intro h4
  refine Kept.fold _ (fun u5 y6 => ?_) ?_; refine Kept.step (kept_finishFlight ..) (by decide) ?_; exact Kept.refl _ _
  assumption

theorem kept_dropTiles (s : State) (p) (by_) :
    Kept [.flights, .arr, .cho] s (State.dropTiles s p by_) := by
  unfold State.dropTiles
  extract_lets +onlyGivenNames x0; clear_value x0; extract_lets +onlyGivenNames x1; clear_value x1
  extract_lets +onlyGivenNames x2; clear_value x2; extract_lets +onlyGivenNames x3; refine Kept.cut (x := x3) ?_ ?_
  unfold x3; refine Kept.upd ?_; exact Kept.refl _ _; clear_value x3; intro h4
  refine Kept.step (kept_drained ..) (by decide) ?_; assumption

theorem kept_setUnit (s : State) (u) (v) :
    Kept [.cho] s (State.setUnit s u v) := by
  unfold State.setUnit
  refine Kept.upd ?_; exact Kept.refl _ _

theorem kept_updUnit (s : State) (u) (f) :
    Kept [.cho] s (State.updUnit s u f) := by
  unfold State.updUnit
  refine Kept.step (kept_setUnit ..) (by decide) ?_; exact Kept.refl _ _

theorem kept_closeRun (s : State) (u) (uid) :
    Kept [.flights, .queues, .arr, .cho, .gangs] s (State.closeRun s u uid) := by
  unfold State.closeRun
  extract_lets +onlyGivenNames x0; refine Kept.cut (x := x0) ?_ ?_; unfold x0
  refine Kept.step (kept_updUnit ..) (by decide) ?_; exact Kept.refl _ _; clear_value x0; intro h1
  extract_lets +onlyGivenNames x2; refine Kept.cut (x := x2) ?_ ?_; unfold x2
  refine Kept.step (kept_unitDone ..) (by decide) ?_; refine Kept.step (kept_unqueueAt ..) (by decide) ?_; assumption
  clear_value x2; intro h3; split; refine Kept.ite ?_ ?_; extract_lets +onlyGivenNames x4; clear_value x4
  refine Kept.upd ?_; assumption; assumption; assumption

theorem kept_choConfig (s : State) (u) :
    Kept [.lines, .flights, .queues, .cho, .trig, .ctlR, .lineR, .callR, .fltR] s (State.choConfig s u) := by
  unfold State.choConfig
  split; exact Kept.refl _ _; extract_lets +onlyGivenNames x0; clear_value x0; refine Kept.ite ?_ ?_
  exact Kept.refl _ _; refine Kept.ite ?_ ?_; refine Kept.step (kept_engineHalt ..) (by decide) ?_
  exact Kept.refl _ _; extract_lets +onlyGivenNames x1; refine Kept.cut (x := x1) ?_ ?_; unfold x1
  refine Kept.ite ?_ ?_; refine Kept.fold _ (fun u2 y3 => ?_) ?_; split; refine Kept.ite ?_ ?_; exact Kept.refl _ _
  refine Kept.step (kept_updUnit ..) (by decide) ?_; exact Kept.refl _ _; exact Kept.refl _ _; exact Kept.refl _ _
  clear_value x1; intro h4; extract_lets +onlyGivenNames x5; refine Kept.cut (x := x5) ?_ ?_; unfold x5
  refine Kept.step (kept_startFlight ..) (by decide) ?_; assumption; clear_value x5; intro h6
  refine Kept.step (kept_unitDone ..) (by decide) ?_; refine Kept.step (kept_unqueueAt ..) (by decide) ?_; assumption

theorem kept_setProg (s : State) (u) (slot) (ws) :
    Kept [.cho] s (State.setProg s u slot ws) := by
  unfold State.setProg
  refine Kept.step (kept_updUnit ..) (by decide) ?_; exact Kept.refl _ _

theorem kept_emptyProgs (s : State) (c) :
    Kept [.cho] s (State.emptyProgs s c) := by
  unfold State.emptyProgs
  refine Kept.fold _ (fun u0 y1 => ?_) ?_; refine Kept.step (kept_setProg ..) (by decide) ?_; exact Kept.refl _ _
  exact Kept.refl _ _

theorem kept_choProgLoad (s : State) (u) :
    Kept [.lines, .flights, .queues, .mem, .prop, .cho, .trig, .ctlR, .lineR, .callR, .propR, .fltR] s (State.choProgLoad s u) := by
  unfold State.choProgLoad
  split; exact Kept.refl _ _; extract_lets +onlyGivenNames x0; clear_value x0; refine Kept.ite ?_ ?_
  exact Kept.refl _ _; split; refine Kept.step (kept_engineHalt ..) (by decide) ?_; refine Kept.ite ?_ ?_
  refine Kept.step (kept_count ..) (by decide) ?_; exact Kept.refl _ _; exact Kept.refl _ _
  extract_lets +onlyGivenNames x1; refine Kept.cutR (x := x1) ?_ ?_; unfold x1
  refine Kept.step (kept_readPlain ..) (by decide) ?_; exact Kept.refl _ _; clear_value x1; intro h2
  extract_lets +onlyGivenNames x3; refine Kept.cut (x := x3) ?_ ?_; unfold x3; assumption; clear_value x3; intro h4
  extract_lets +onlyGivenNames x5; clear_value x5; refine Kept.ite ?_ ?_
  refine Kept.step (kept_engineHalt ..) (by decide) ?_; refine Kept.step (kept_emptyProgs ..) (by decide) ?_
  assumption; refine Kept.ite ?_ ?_; refine Kept.step (kept_engineHalt ..) (by decide) ?_
  refine Kept.step (kept_emptyProgs ..) (by decide) ?_; assumption; extract_lets +onlyGivenNames x6
  refine Kept.cut (x := x6) ?_ ?_; unfold x6; refine Kept.step (kept_startFlight ..) (by decide) ?_
  refine Kept.step (kept_setProg ..) (by decide) ?_; assumption; clear_value x6; intro h7
  refine Kept.step (kept_unitDone ..) (by decide) ?_; refine Kept.step (kept_unqueueAt ..) (by decide) ?_; assumption

theorem kept_closeIfDone (s : State) (u) (uid) :
    Kept [.flights, .queues, .arr, .cho, .gangs, .choR] s (State.closeIfDone s u uid) := by
  unfold State.closeIfDone
  split; refine Kept.ite ?_ ?_; refine Kept.step (kept_closeRun ..) (by decide) ?_
  refine Kept.step (kept_countMod ..) (by simp) ?_; exact Kept.refl _ _; exact Kept.refl _ _; exact Kept.refl _ _

theorem kept_drawRow (s : State) (u) (f) :
    Kept [.cho] s (State.drawRow s u f) := by
  unfold State.drawRow
  refine Kept.fold _ (fun u0 y1 => ?_) ?_; split; split; exact Kept.refl _ _; extract_lets +onlyGivenNames x2
  clear_value x2; refine Kept.ite ?_ ?_; exact Kept.refl _ _; extract_lets +onlyGivenNames x3; clear_value x3
  extract_lets +onlyGivenNames x4; clear_value x4; extract_lets +onlyGivenNames x5; clear_value x5
  refine Kept.step (kept_updUnit ..) (by decide) ?_; exact Kept.refl _ _; exact Kept.refl _ _

theorem kept_drawRows (s : State) (u) (uid) :
    Kept [.cho] s (State.drawRows s u uid) := by
  unfold State.drawRows
  split; refine Kept.ite ?_ ?_; exact Kept.refl _ _; refine Kept.step (kept_drawRow ..) (by decide) ?_
  exact Kept.refl _ _; exact Kept.refl _ _

theorem kept_openRun (s : State) (u) (uid) :
    Kept [.cho] s (State.openRun s u uid) := by
  unfold State.openRun
  split; exact Kept.refl _ _; refine Kept.step (kept_updUnit ..) (by decide) ?_; exact Kept.refl _ _

theorem kept_setGang (s : State) (uid) (g) :
    Kept [.gangs] s (State.setGang s uid g) := by
  unfold State.setGang
  refine Kept.upd ?_; exact Kept.refl _ _

theorem kept_openGang (s : State) (u) (f) (checks) :
    KeptO [.lines, .flights, .queues, .cho, .gangs, .trig, .ctlR, .lineR, .callR, .fltR] s (State.openGang s u f checks) := by
  unfold State.openGang
  split; refine KeptO.some ?_; refine Kept.step (kept_openRun ..) (by decide) ?_; exact Kept.refl _ _
  refine KeptO.ite ?_ ?_; exact KeptO.none _ _; split; refine KeptO.some ?_
  refine Kept.step (kept_engineHalt ..) (by decide) ?_; exact Kept.refl _ _; refine KeptO.some ?_
  refine Kept.step (kept_openRun ..) (by decide) ?_; refine Kept.step (kept_startFlight ..) (by decide) ?_
  refine Kept.step (kept_setGang ..) (by decide) ?_; exact Kept.refl _ _

theorem kept_keepTrips (s : State) (u) (prog) :
    Kept [.cho, .freeCtr] s (State.keepTrips s u prog) := by
  unfold State.keepTrips
  refine Kept.ite ?_ ?_; exact Kept.refl _ _; refine Kept.step (kept_updUnit ..) (by decide) ?_
  refine Kept.step (kept_fresh ..) (by decide) ?_; exact Kept.refl _ _

theorem kept_dropClaimant (s : State) (k) :
    Kept [.flights, .queues] s (State.dropClaimant s k) := by
  unfold State.dropClaimant
  split; refine Kept.step (kept_dropFlight ..) (by decide) ?_; refine Kept.step (kept_unqueue ..) (by decide) ?_
  exact Kept.refl _ _; exact Kept.refl _ _

theorem kept_killRun (s : State) (uid) (engine) (code) :
    Kept [.lines, .flights, .queues, .arr, .cho, .gangs, .trig, .ctlR, .lineR, .callR, .fltR] s (State.killRun s uid engine code) := by
  unfold State.killRun
  refine Kept.step (kept_engineHalt ..) (by decide) ?_; refine Kept.step (kept_dropClaimant ..) (by decide) ?_
  refine Kept.step (kept_dropRuns ..) (by decide) ?_; exact Kept.refl _ _

theorem kept_countNan (s : State) (l) :
    Kept [.choR] s (State.countNan s l) := by
  unfold State.countNan
  extract_lets +onlyGivenNames x0; clear_value x0; refine Kept.step (kept_count ..) (by decide) ?_
  refine Kept.step (kept_count ..) (by decide) ?_; exact Kept.refl _ _

theorem kept_putRow (s : State) (c) (u) (k) (o) (j) (per) (l) :
    Kept [.cho, .lanes] s (State.putRow s c u k o j per l) := by
  unfold State.putRow
  split; extract_lets +onlyGivenNames x0; clear_value x0; extract_lets +onlyGivenNames x1; clear_value x1
  refine Kept.upd ?_; exact Kept.refl _ _; refine Kept.step (kept_updUnit ..) (by decide) ?_; exact Kept.refl _ _
  exact Kept.refl _ _

theorem kept_putRun (s : State) (u) (c) (j) (x) (lanes) :
    Kept [.cho, .lanes, .choR] s (State.putRun s u c j x lanes) := by
  unfold State.putRun
  refine Kept.fold _ (fun u0 y1 => ?_) ?_; split; refine Kept.ite ?_ ?_; exact Kept.refl _ _
  extract_lets +onlyGivenNames x2; clear_value x2; refine Kept.step (kept_putRow ..) (by decide) ?_
  refine Kept.step (kept_countNan ..) (by decide) ?_; exact Kept.refl _ _; exact Kept.refl _ _

theorem kept_rowCounted (s : State) (u) (cols) :
    Kept [.cho, .choR] s (State.rowCounted s u cols) := by
  unfold State.rowCounted
  extract_lets +onlyGivenNames x0; refine Kept.cut (x := x0) ?_ ?_; unfold x0
  refine Kept.step (kept_count64 ..) (by simp) ?_; exact Kept.refl _ _; clear_value x0; intro h1
  refine Kept.step (kept_updUnit ..) (by decide) ?_; assumption

theorem kept_mapSlot (s : State) (slot) (f) :
    Kept [.arr] s (State.mapSlot s slot f) := by
  unfold State.mapSlot
  refine Kept.upd ?_; exact Kept.refl _ _

theorem kept_setRun (s : State) (u) (r) :
    Kept [.cho] s (State.setRun s u r) := by
  unfold State.setRun
  refine Kept.step (kept_updUnit ..) (by decide) ?_; exact Kept.refl _ _

theorem kept_takeTileRow (s : State) (u) (f) (r) (t) :
    Kept [.arr, .cho] s (State.takeTileRow s u f r t) := by
  unfold State.takeTileRow
  extract_lets +onlyGivenNames x0; clear_value x0; refine Kept.ite ?_ ?_
  refine Kept.step (kept_mapSlot ..) (by decide) ?_; exact Kept.refl _ _; extract_lets +onlyGivenNames x1
  clear_value x1; extract_lets +onlyGivenNames x2; refine Kept.cut (x := x2) ?_ ?_; unfold x2; refine Kept.upd ?_
  exact Kept.refl _ _; clear_value x2; intro h3; split; refine Kept.step (kept_setRun ..) (by decide) ?_; assumption
  extract_lets +onlyGivenNames x4; clear_value x4; extract_lets +onlyGivenNames x5; clear_value x5
  refine Kept.ite ?_ ?_; refine Kept.step (kept_setRun ..) (by decide) ?_; assumption; refine Kept.ite ?_ ?_
  refine Kept.step (kept_setRun ..) (by decide) ?_; assumption; refine Kept.step (kept_setRun ..) (by decide) ?_
  assumption

theorem kept_useStream (s : State) (u) (cols) (i) (d) :
    Kept [.cho] s (State.useStream s u cols i d) := by
  unfold State.useStream
  refine Kept.ite ?_ ?_; exact Kept.refl _ _; split; exact Kept.refl _ _; extract_lets +onlyGivenNames x0
  clear_value x0; extract_lets +onlyGivenNames x1; clear_value x1; refine Kept.ite ?_ ?_; refine Kept.ite ?_ ?_
  exact Kept.refl _ _; refine Kept.step (kept_updUnit ..) (by decide) ?_; exact Kept.refl _ _
  extract_lets +onlyGivenNames x2; clear_value x2; refine Kept.step (kept_updUnit ..) (by decide) ?_
  exact Kept.refl _ _

theorem kept_rowUsed (s : State) (u) (f) (x) :
    Kept [.arr, .cho] s (State.rowUsed s u f x) := by
  unfold State.rowUsed
  extract_lets +onlyGivenNames x0; clear_value x0; extract_lets +onlyGivenNames x1; refine Kept.cut (x := x1) ?_ ?_
  unfold x1; refine Kept.fold _ (fun u2 y3 => ?_) ?_; split; refine Kept.step (kept_useStream ..) (by decide) ?_
  exact Kept.refl _ _; exact Kept.refl _ _; clear_value x1; intro h4; split
  refine Kept.step (kept_takeTileRow ..) (by decide) ?_; assumption; assumption

theorem kept_runRow (s : State) (u) (uid) :
    KeptO [.lines, .flights, .queues, .arr, .cho, .gangs, .lanes, .trig, .freeCtr, .ctlR, .lineR, .callR, .choR, .fltR] s (State.runRow s u uid) := by
  unfold State.runRow
  split; refine KeptO.ite ?_ ?_; exact KeptO.none _ _; split; exact KeptO.none _ _; refine KeptO.some ?_
  refine Kept.step (kept_killRun ..) (by decide) ?_; exact Kept.refl _ _; extract_lets +onlyGivenNames x0
  clear_value x0; extract_lets +onlyGivenNames x1; clear_value x1; extract_lets +onlyGivenNames x2
  refine Kept.cut (x := x2) ?_ ?_; unfold x2; refine Kept.step (kept_keepTrips ..) (by decide) ?_
  refine Kept.step (kept_rowUsed ..) (by decide) ?_; exact Kept.refl _ _; clear_value x2; intro h3
  refine KeptO.some ?_; refine Kept.step (kept_rowCounted ..) (by decide) ?_
  refine Kept.step (kept_putRun ..) (by decide) ?_; assumption; exact KeptO.none _ _

theorem kept_choRun (s : State) (u) :
    Kept [.lines, .flights, .queues, .arr, .cho, .gangs, .lanes, .trig, .freeCtr, .ctlR, .lineR, .callR, .choR, .fltR] s (State.choRun s u) := by
  unfold State.choRun
  split; exact Kept.refl _ _; refine Kept.ite ?_ ?_; exact Kept.refl _ _; split; exact Kept.refl _ _
  extract_lets +onlyGivenNames x0; refine Kept.cut (x := x0) ?_ ?_; unfold x0
  refine Kept.step (kept_drawRows ..) (by decide) ?_; refine Kept.iterWhile _ (fun u1 => ?_) ?_
  refine KeptO.step (kept_runRow ..) (by decide) ?_; exact Kept.refl _ _; refine Kept.ofO (by assumption) ?_
  refine KeptO.step (kept_openGang ..) (by decide) ?_; exact Kept.refl _ _; clear_value x0; intro h2
  refine Kept.step (kept_closeIfDone ..) (by decide) ?_; assumption

theorem kept_choTqDrop (s : State) (u) :
    Kept [.flights, .queues, .arr, .cho] s (State.choTqDrop s u) := by
  unfold State.choTqDrop
  split; exact Kept.refl _ _; refine Kept.ite ?_ ?_; exact Kept.refl _ _; extract_lets +onlyGivenNames x0
  refine Kept.cut (x := x0) ?_ ?_; unfold x0; refine Kept.step (kept_dropTiles ..) (by decide) ?_; exact Kept.refl _ _
  clear_value x0; intro h1; refine Kept.step (kept_finishFlight ..) (by decide) ?_
  refine Kept.step (kept_unqueue ..) (by decide) ?_; assumption

theorem kept_claimFill (s : State) (uid) (g) (seq) (x) :
    Kept [.arr, .gangs] s (State.claimFill s uid g seq x) := by
  unfold State.claimFill
  extract_lets +onlyGivenNames x0; refine Kept.cut (x := x0) ?_ ?_; unfold x0
  refine Kept.step (kept_setGang ..) (by decide) ?_; exact Kept.refl _ _; clear_value x0; intro h1; refine Kept.upd ?_
  assumption

theorem kept_putOuts (s : State) (c) (u) (j) (l) :
    Kept [.cho, .lanes] s (State.putOuts s c u j l) := by
  unfold State.putOuts
  refine Kept.fold _ (fun u0 y1 => ?_) ?_; split; split; refine Kept.step (kept_putRow ..) (by decide) ?_
  exact Kept.refl _ _; exact Kept.refl _ _; exact Kept.refl _ _

theorem kept_redCounts (s : State) (e) (sat) (nan) (empty) :
    Kept [.choR] s (State.redCounts s e sat nan empty) := by
  unfold State.redCounts
  extract_lets +onlyGivenNames x0; refine Kept.cut (x := x0) ?_ ?_; unfold x0
  refine Kept.step (kept_count ..) (by decide) ?_; refine Kept.step (kept_count ..) (by decide) ?_
  exact Kept.refl _ _; clear_value x0; intro h1; extract_lets +onlyGivenNames x2; refine Kept.cut (x := x2) ?_ ?_
  unfold x2; refine Kept.ite ?_ ?_; refine Kept.step (kept_count ..) (by decide) ?_; assumption; assumption
  clear_value x2; intro h3; split; refine Kept.step (kept_setF ..) (by decide) ?_; assumption; assumption

theorem kept_useStore (s : State) (u) (j) (row) :
    Kept [.cho] s (State.useStore s u j row) := by
  unfold State.useStore
  refine Kept.step (kept_updUnit ..) (by decide) ?_; exact Kept.refl _ _

theorem kept_claimRow (s : State) (u) (uid) (cuid) :
    KeptO [.lines, .flights, .queues, .arr, .cho, .gangs, .lanes, .trig, .freeCtr, .ctlR, .lineR, .callR, .choR, .fltR] s (State.claimRow s u uid cuid) := by
  unfold State.claimRow
  split; refine KeptO.ite ?_ ?_; exact KeptO.none _ _; extract_lets +onlyGivenNames x0; clear_value x0
  extract_lets +onlyGivenNames x1; clear_value x1; extract_lets +onlyGivenNames x2; clear_value x2; split
  exact KeptO.none _ _; exact KeptO.none _ _; refine KeptO.some ?_; refine Kept.step (kept_killRun ..) (by decide) ?_
  exact Kept.refl _ _; refine KeptO.some ?_; refine Kept.step (kept_killRun ..) (by decide) ?_; exact Kept.refl _ _
  extract_lets +onlyGivenNames x3; clear_value x3; extract_lets +onlyGivenNames x4; refine Kept.cut (x := x4) ?_ ?_
  unfold x4; refine Kept.step (kept_rowUsed ..) (by decide) ?_; exact Kept.refl _ _; clear_value x4; intro h5
  extract_lets +onlyGivenNames x6; refine Kept.cut (x := x6) ?_ ?_; unfold x6; refine Kept.ite ?_ ?_
  refine Kept.step (kept_useStream ..) (by decide) ?_; assumption; assumption; clear_value x6; intro h7
  extract_lets +onlyGivenNames x8; refine Kept.cut (x := x8) ?_ ?_; unfold x8
  refine Kept.step (kept_putRun ..) (by decide) ?_; refine Kept.step (kept_keepTrips ..) (by decide) ?_; assumption
  clear_value x8; intro h9; extract_lets +onlyGivenNames x10; clear_value x10; extract_lets +onlyGivenNames x11
  clear_value x11; extract_lets +onlyGivenNames x12; clear_value x12; extract_lets +onlyGivenNames x13
  refine Kept.cut (x := x13) ?_ ?_; unfold x13; refine Kept.ite ?_ ?_; assumption
  refine Kept.step (kept_useStore ..) (by decide) ?_; assumption; clear_value x13; intro h14
  extract_lets +onlyGivenNames x15; clear_value x15; extract_lets +onlyGivenNames x16; clear_value x16
  extract_lets +onlyGivenNames x17; clear_value x17; extract_lets +onlyGivenNames x18; clear_value x18
  extract_lets +onlyGivenNames x19; clear_value x19; extract_lets +onlyGivenNames x20; clear_value x20
  extract_lets +onlyGivenNames x21; clear_value x21; extract_lets +onlyGivenNames x22
  refine Kept.cut (x := x22) ?_ ?_; unfold x22; refine Kept.ite ?_ ?_
  refine Kept.step (kept_putOuts ..) (by decide) ?_; refine Kept.step (kept_redCounts ..) (by decide) ?_; assumption
  refine Kept.ite ?_ ?_; refine Kept.step (kept_putOuts ..) (by decide) ?_
  refine Kept.step (kept_redCounts ..) (by decide) ?_; assumption; refine Kept.step (kept_updUnit ..) (by decide) ?_
  assumption; clear_value x22; intro h23; extract_lets +onlyGivenNames x24; refine Kept.cut (x := x24) ?_ ?_
  unfold x24; refine Kept.step (kept_countMod ..) (by simp) ?_; assumption; clear_value x24; intro h25
  refine KeptO.some ?_; refine Kept.step (kept_rowCounted ..) (by decide) ?_; assumption; exact KeptO.none _ _

theorem kept_closePair (s : State) (u) (uid) (cuid) :
    Kept [.flights, .queues, .arr, .cho, .gangs, .choR] s (State.closePair s u uid cuid) := by
  unfold State.closePair
  extract_lets +onlyGivenNames x0; refine Kept.cut (x := x0) ?_ ?_; unfold x0
  refine Kept.step (kept_countMod ..) (by simp) ?_; exact Kept.refl _ _; clear_value x0; intro h1
  extract_lets +onlyGivenNames x2; refine Kept.cut (x := x2) ?_ ?_; unfold x2
  refine Kept.step (kept_closeRun ..) (by decide) ?_; assumption; clear_value x2; intro h3
  refine Kept.step (kept_unitDone ..) (by decide) ?_; refine Kept.step (kept_unqueueAt ..) (by decide) ?_; assumption

theorem kept_endFill (s : State) (uid) :
    Kept [.arr] s (State.endFill s uid) := by
  unfold State.endFill
  refine Kept.upd ?_; exact Kept.refl _ _

theorem kept_parityFault (s : State) (i) :
    Kept [.trig, .fltR] s (State.parityFault s i) := by
  unfold State.parityFault
  refine Kept.step (kept_logRecord ..) (by decide) ?_; exact Kept.refl _ _

theorem kept_drainTile (s : State) (q) (par) :
    Kept [.flights, .arr, .trig, .arrR, .fltR] s (State.drainTile s q par) := by
  unfold State.drainTile
  refine Kept.ite ?_ ?_; exact Kept.refl _ _; split; extract_lets +onlyGivenNames x0; clear_value x0
  extract_lets +onlyGivenNames x1; clear_value x1; extract_lets +onlyGivenNames x2; clear_value x2
  extract_lets +onlyGivenNames x3; refine Kept.cut (x := x3) ?_ ?_; unfold x3; refine Kept.upd ?_; exact Kept.refl _ _
  clear_value x3; intro h4; extract_lets +onlyGivenNames x5; refine Kept.cut (x := x5) ?_ ?_; unfold x5
  refine Kept.step (kept_count ..) (by decide) ?_; assumption; clear_value x5; intro h6
  extract_lets +onlyGivenNames x7; refine Kept.cut (x := x7) ?_ ?_; unfold x7; refine Kept.ite ?_ ?_; assumption
  refine Kept.step (kept_parityFault ..) (by decide) ?_; assumption; clear_value x7; intro h8
  refine Kept.step (kept_drained ..) (by decide) ?_; assumption; exact Kept.refl _ _

theorem kept_feedParity (s : State) (par) :
    Kept [.arr, .trig, .fltR] s (State.feedParity s par) := by
  unfold State.feedParity
  refine Kept.fold _ (fun u0 y1 => ?_) ?_; extract_lets +onlyGivenNames x2; clear_value x2; split; exact Kept.refl _ _
  extract_lets +onlyGivenNames x3; clear_value x3; refine Kept.ite ?_ ?_; exact Kept.refl _ _
  refine Kept.step (kept_parityFault ..) (by decide) ?_; refine Kept.step (kept_setFeed ..) (by decide) ?_
  exact Kept.refl _ _; exact Kept.refl _ _

theorem kept_holdParity (s : State) (par) :
    Kept [.arr, .trig, .fltR] s (State.holdParity s par) := by
  unfold State.holdParity
  refine Kept.fold _ (fun u0 y1 => ?_) ?_; extract_lets +onlyGivenNames x2; clear_value x2; split; exact Kept.refl _ _
  refine Kept.ite ?_ ?_; exact Kept.refl _ _; refine Kept.step (kept_parityFault ..) (by decide) ?_
  refine Kept.upd ?_; exact Kept.refl _ _; exact Kept.refl _ _

theorem kept_krnRow (s : State) (u) (uid) :
    KeptO [.lines, .flights, .queues, .arr, .cho, .gangs, .lanes, .trig, .ctlR, .lineR, .callR, .choR, .fltR] s (State.krnRow s u uid) := by
  unfold State.krnRow
  split; refine KeptO.ite ?_ ?_; exact KeptO.none _ _; split; exact KeptO.none _ _; refine KeptO.some ?_
  refine Kept.step (kept_killRun ..) (by decide) ?_; exact Kept.refl _ _; extract_lets +onlyGivenNames x0
  clear_value x0; extract_lets +onlyGivenNames x1; clear_value x1; extract_lets +onlyGivenNames x2
  refine Kept.cut (x := x2) ?_ ?_; unfold x2; refine Kept.step (kept_useStore ..) (by decide) ?_
  refine Kept.step (kept_rowUsed ..) (by decide) ?_; exact Kept.refl _ _; clear_value x2; intro h3
  extract_lets +onlyGivenNames x4; refine Kept.cut (x := x4) ?_ ?_; unfold x4
  refine Kept.step (kept_putOuts ..) (by decide) ?_; refine Kept.step (kept_redCounts ..) (by decide) ?_; assumption
  clear_value x4; intro h5; extract_lets +onlyGivenNames x6; refine Kept.cut (x := x6) ?_ ?_; unfold x6
  refine Kept.ite ?_ ?_; refine Kept.step (kept_updUnit ..) (by decide) ?_; assumption; assumption
  clear_value x6; intro h7; extract_lets +onlyGivenNames x8; refine Kept.cut (x := x8) ?_ ?_; unfold x8
  refine Kept.step (kept_countMod ..) (by simp) ?_; assumption; clear_value x8; intro h9; refine KeptO.some ?_
  refine Kept.step (kept_updUnit ..) (by decide) ?_; assumption; exact KeptO.none _ _

theorem kept_mergeCols (s : State) (u) (uid) :
    Kept [.cho, .gangs] s (State.mergeCols s u uid) := by
  unfold State.mergeCols
  split; refine Kept.step (kept_setRun ..) (by decide) ?_; refine Kept.step (kept_setGang ..) (by decide) ?_
  exact Kept.refl _ _; exact Kept.refl _ _

theorem kept_writeCols (s : State) (uid) (c) (u) (k) (raw) (rm) (e) :
    Kept [.cho, .lanes, .choR] s (State.writeCols s uid c u k raw rm e) := by
  unfold State.writeCols
  split; exact Kept.refl _ _; extract_lets +onlyGivenNames x0; clear_value x0; extract_lets +onlyGivenNames x1
  clear_value x1; extract_lets +onlyGivenNames x2; refine Kept.cut (x := x2) ?_ ?_; unfold x2
  refine Kept.step (kept_redCounts ..) (by decide) ?_; exact Kept.refl _ _; clear_value x2; intro h3
  refine Kept.step (kept_putRow ..) (by decide) ?_; assumption

theorem kept_krnRun (s : State) (u) (op) :
    Kept [.lines, .flights, .queues, .arr, .cho, .gangs, .lanes, .trig, .ctlR, .lineR, .callR, .choR, .fltR] s (State.krnRun s u op) := by
  unfold State.krnRun
  split; exact Kept.refl _ _; extract_lets +onlyGivenNames x0; clear_value x0; refine Kept.ite ?_ ?_
  exact Kept.refl _ _; split; exact Kept.refl _ _; extract_lets +onlyGivenNames x1; refine Kept.cut (x := x1) ?_ ?_
  unfold x1; refine Kept.step (kept_drawRows ..) (by decide) ?_; refine Kept.iterWhile _ (fun u2 => ?_) ?_
  refine KeptO.step (kept_krnRow ..) (by decide) ?_; exact Kept.refl _ _; refine Kept.ofO (by assumption) ?_
  refine KeptO.step (kept_openGang ..) (by decide) ?_; exact Kept.refl _ _; clear_value x1; intro h3; split
  refine Kept.ite ?_ ?_; assumption; refine Kept.ite ?_ ?_; refine Kept.step (kept_closeRun ..) (by decide) ?_
  assumption; extract_lets +onlyGivenNames x4; refine Kept.cut (x := x4) ?_ ?_; unfold x4
  refine Kept.step (kept_mergeCols ..) (by decide) ?_; assumption; clear_value x4; intro h5; refine Kept.ite ?_ ?_
  refine Kept.step (kept_closeRun ..) (by decide) ?_; assumption; refine Kept.ite ?_ ?_
  refine Kept.step (kept_closeRun ..) (by decide) ?_; refine Kept.step (kept_writeCols ..) (by decide) ?_; assumption
  assumption; assumption

theorem kept_redRun (s : State) (u) (op) :
    Kept [.lines, .flights, .queues, .arr, .cho, .gangs, .lanes, .trig, .freeCtr, .ctlR, .lineR, .callR, .choR, .fltR] s (State.redRun s u op) := by
  unfold State.redRun
  split; exact Kept.refl _ _; refine Kept.ite ?_ ?_; refine Kept.step (kept_engineHalt ..) (by decide) ?_
  exact Kept.refl _ _; refine Kept.ite ?_ ?_; exact Kept.refl _ _; split; exact Kept.refl _ _; refine Kept.ite ?_ ?_
  exact Kept.refl _ _; extract_lets +onlyGivenNames x0; clear_value x0; extract_lets +onlyGivenNames x1
  clear_value x1; split; refine Kept.step (kept_engineHalt ..) (by decide) ?_; exact Kept.refl _ _
  refine Kept.step (kept_engineHalt ..) (by decide) ?_; exact Kept.refl _ _; split; exact Kept.refl _ _
  extract_lets +onlyGivenNames x2; refine Kept.cut (x := x2) ?_ ?_; unfold x2
  refine Kept.step (kept_startFlight ..) (by decide) ?_; refine Kept.ofO (by assumption) ?_
  refine KeptO.step (kept_openGang ..) (by decide) ?_; exact Kept.refl _ _; clear_value x2; intro h3
  extract_lets +onlyGivenNames x4; refine Kept.cut (x := x4) ?_ ?_; unfold x4
  refine Kept.step (kept_drawRows ..) (by decide) ?_; refine Kept.iterWhile _ (fun u5 => ?_) ?_
  refine KeptO.step (kept_claimRow ..) (by decide) ?_; exact Kept.refl _ _; assumption; clear_value x4; intro h6
  split; refine Kept.ite ?_ ?_; assumption; refine Kept.ite ?_ ?_; refine Kept.step (kept_closePair ..) (by decide) ?_
  assumption; extract_lets +onlyGivenNames x7; refine Kept.cut (x := x7) ?_ ?_; unfold x7
  refine Kept.step (kept_mergeCols ..) (by decide) ?_; assumption; clear_value x7; intro h8
  extract_lets +onlyGivenNames x9; clear_value x9; refine Kept.ite ?_ ?_
  refine Kept.step (kept_closePair ..) (by decide) ?_; assumption; refine Kept.ite ?_ ?_
  refine Kept.step (kept_closePair ..) (by decide) ?_; refine Kept.step (kept_writeCols ..) (by decide) ?_; assumption
  assumption; assumption

theorem kept_tileClaim (s : State) (u) :
    Kept [.lines, .flights, .queues, .arr, .cho, .gangs, .trig, .ctlR, .lineR, .callR, .fltR] s (State.tileClaim s u) := by
  unfold State.tileClaim
  split; exact Kept.refl _ _; split; exact Kept.refl _ _; refine Kept.ite ?_ ?_; exact Kept.refl _ _; split
  exact Kept.refl _ _; split; exact Kept.refl _ _; extract_lets +onlyGivenNames x0; clear_value x0
  extract_lets +onlyGivenNames x1; clear_value x1; split; exact Kept.refl _ _; refine Kept.ite ?_ ?_
  refine Kept.step (kept_killRun ..) (by decide) ?_; exact Kept.refl _ _; extract_lets +onlyGivenNames x2
  refine Kept.cut (x := x2) ?_ ?_; unfold x2; refine Kept.ite ?_ ?_; exact Kept.refl _ _
  refine Kept.step (kept_claimFill ..) (by decide) ?_; exact Kept.refl _ _; clear_value x2; intro h3
  extract_lets +onlyGivenNames x4; refine Kept.cut (x := x4) ?_ ?_; unfold x4
  refine Kept.step (kept_mapSlot ..) (by decide) ?_; assumption; clear_value x4; intro h5
  refine Kept.step (kept_setRun ..) (by decide) ?_; assumption

theorem kept_weightPreload (s : State) (h) (par) :
    Kept [.arr, .trig, .fltR] s (State.weightPreload s h par) := by
  unfold State.weightPreload
  extract_lets +onlyGivenNames x0; clear_value x0; refine Kept.ite ?_ ?_; exact Kept.refl _ _; split
  extract_lets +onlyGivenNames x1; clear_value x1; extract_lets +onlyGivenNames x2; clear_value x2
  extract_lets +onlyGivenNames x3; refine Kept.cut (x := x3) ?_ ?_; unfold x3
  refine Kept.step (kept_setShadows ..) (by decide) ?_; refine Kept.ofOR (by assumption) ?_
  refine KeptOR.step (kept_popHalf ..) (by decide) ?_; exact Kept.refl _ _; clear_value x3; intro h4
  refine Kept.ite ?_ ?_; assumption; refine Kept.step (kept_parityFault ..) (by decide) ?_; assumption
  exact Kept.refl _ _

end Sys2Proof.Machine
end

