-- ==== Sys2Proof/Laws/KeptFly.lean ====
section
/-! SUPPORT. What the functions of pages and transfers leave unchanged: one lemma
per function, whose list is all it can change. -/

namespace Sys2Proof.Machine

set_option Elab.async false

theorem kept_bindTracker (s : State) (h) (fmt) (t) (keep) :
    Kept [.trackers] s (State.bindTracker s h fmt t keep) := by
  unfold State.bindTracker
  extract_lets +onlyGivenNames x0; clear_value x0; refine Kept.ite ?_ ?_
  refine Kept.step (kept_setTracker ..) (by decide) ?_; exact Kept.refl _ _
  refine Kept.step (kept_setTracker ..) (by decide) ?_; exact Kept.refl _ _

theorem kept_zeroFrame (s : State) (f) :
    Kept [.mem] s (State.zeroFrame s f) := by
  unfold State.zeroFrame
  refine Kept.upd ?_; exact Kept.refl _ _

theorem kept_allocate (s : State) (a) :
    Kept [.trackers, .mem, .prop] s (State.allocate s a) := by
  unfold State.allocate
  split; extract_lets +onlyGivenNames x0; clear_value x0; extract_lets +onlyGivenNames x1; clear_value x1
  extract_lets +onlyGivenNames x2; refine Kept.cut (x := x2) ?_ ?_; unfold x2
  refine Kept.step (kept_setHandle ..) (by decide) ?_; exact Kept.refl _ _; clear_value x2; intro h3
  extract_lets +onlyGivenNames x4; clear_value x4; extract_lets +onlyGivenNames x5; refine Kept.cut (x := x5) ?_ ?_
  unfold x5; refine Kept.iter _ (fun u6 y7 => ?_) ?_; refine Kept.ite ?_ ?_
  refine Kept.step (kept_setPage ..) (by decide) ?_; exact Kept.refl _ _; extract_lets +onlyGivenNames x8
  clear_value x8; extract_lets +onlyGivenNames x9; refine Kept.cut (x := x9) ?_ ?_; unfold x9
  refine Kept.step (kept_setPage ..) (by decide) ?_; exact Kept.refl _ _; clear_value x9; intro h10
  refine Kept.ite ?_ ?_; refine Kept.step (kept_zeroFrame ..) (by decide) ?_; assumption; assumption; assumption
  clear_value x5; intro h11; split; refine Kept.step (kept_bindTracker ..) (by decide) ?_; assumption; assumption
  exact Kept.refl _ _

theorem kept_touch (s : State) (d) (write) :
    Kept [.prop] s (State.touch s d write) := by
  unfold State.touch
  refine Kept.step (kept_updPage ..) (by decide) ?_; exact Kept.refl _ _

theorem kept_bsIssue (s : State) (r) :
    KeptO [.bs, .outs] s (State.bsIssue s r) := by
  unfold State.bsIssue
  split; exact KeptO.none _ _; refine KeptO.some ?_; refine Kept.step (kept_emit ..) (by decide) ?_
  refine Kept.upd ?_; exact Kept.refl _ _

theorem kept_pumpBs (s : State) :
    Kept [.bs, .outs] s (State.pumpBs s) := by
  unfold State.pumpBs
  extract_lets +onlyGivenNames x0; refine Kept.cutL (x := x0) ?_ ?_; unfold x0
  refine Kept.foldL _ (fun u1 y2 => ?_) ?_; split; refine Kept.pairL ?_; refine Kept.ofO (by assumption) ?_
  refine KeptO.step (kept_bsIssue ..) (by decide) ?_; exact Kept.refl _ _; refine Kept.pairL ?_; exact Kept.refl _ _
  refine Kept.pairL ?_; exact Kept.refl _ _; clear_value x0; intro h3; extract_lets +onlyGivenNames x4
  refine Kept.cut (x := x4) ?_ ?_; unfold x4; assumption; clear_value x4; intro h5; refine Kept.upd ?_; assumption

theorem kept_bsSend (s : State) (l) :
    Kept [.bs, .outs] s (State.bsSend s l) := by
  unfold State.bsSend
  refine Kept.step (kept_pumpBs ..) (by decide) ?_; refine Kept.upd ?_; exact Kept.refl _ _

theorem kept_beginPageIn (s : State) (d) (f) :
    Kept [.mem, .prop, .bs, .outs, .propR] s (State.beginPageIn s d f) := by
  unfold State.beginPageIn
  extract_lets +onlyGivenNames x0; clear_value x0; extract_lets +onlyGivenNames x1; clear_value x1
  extract_lets +onlyGivenNames x2; refine Kept.cut (x := x2) ?_ ?_; unfold x2; refine Kept.upd ?_; exact Kept.refl _ _
  clear_value x2; intro h3; refine Kept.ite ?_ ?_; refine Kept.step (kept_count ..) (by decide) ?_
  refine Kept.step (kept_setPage ..) (by decide) ?_; refine Kept.step (kept_zeroFrame ..) (by decide) ?_; assumption
  extract_lets +onlyGivenNames x4; refine Kept.cut (x := x4) ?_ ?_; unfold x4
  refine Kept.step (kept_setPage ..) (by decide) ?_; assumption; clear_value x4; intro h5
  extract_lets +onlyGivenNames x6; clear_value x6; extract_lets +onlyGivenNames x7; clear_value x7
  extract_lets +onlyGivenNames x8; refine Kept.cut (x := x8) ?_ ?_; unfold x8; refine Kept.upd ?_; assumption
  clear_value x8; intro h9; refine Kept.step (kept_bsSend ..) (by decide) ?_; assumption

theorem kept_pageWords (s : State) (frame) :
    Kept [.mem, .prop, .trig, .propR, .fltR] s (State.pageWords s frame).2 := by
  unfold State.pageWords
  refine Kept.iterR _ (fun u0 y1 => ?_) ?_; extract_lets +onlyGivenNames x2; refine Kept.cutR (x := x2) ?_ ?_
  unfold x2; refine Kept.step (kept_readWord ..) (by decide) ?_; exact Kept.refl _ _; clear_value x2; intro h3
  refine Kept.pairR ?_; assumption; refine Kept.pairR ?_; exact Kept.refl _ _

theorem kept_startWriteBack (s : State) (d) (pageOut) :
    Kept [.mem, .prop, .bs, .outs, .trig, .propR, .fltR] s (State.startWriteBack s d pageOut).2 := by
  unfold State.startWriteBack
  extract_lets +onlyGivenNames x0; clear_value x0; extract_lets +onlyGivenNames x1; refine Kept.cutR (x := x1) ?_ ?_
  unfold x1; refine Kept.step (kept_pageWords ..) (by decide) ?_; refine Kept.step (kept_landFrame ..) (by decide) ?_
  exact Kept.refl _ _; clear_value x1; intro h2; refine Kept.iteR ?_ ?_; refine Kept.pairR ?_
  refine Kept.step (kept_updPage ..) (by decide) ?_; assumption; extract_lets +onlyGivenNames x3
  refine Kept.cut (x := x3) ?_ ?_; unfold x3; refine Kept.step (kept_updPage ..) (by decide) ?_; assumption
  clear_value x3; intro h4; extract_lets +onlyGivenNames x5; clear_value x5; extract_lets +onlyGivenNames x6
  clear_value x6; extract_lets +onlyGivenNames x7; refine Kept.cut (x := x7) ?_ ?_; unfold x7; refine Kept.upd ?_
  assumption; clear_value x7; intro h8; refine Kept.pairR ?_; refine Kept.step (kept_bsSend ..) (by decide) ?_
  assumption

theorem kept_clockStep (st : State × Option Nat) (d) :
    Kept [.prop] st.1 (State.clockStep st d).1 := by
  unfold State.clockStep
  split; exact Kept.refl _ _; extract_lets +onlyGivenNames x0; clear_value x0; refine Kept.iteL ?_ ?_
  exact Kept.refl _ _; refine Kept.iteL ?_ ?_; refine Kept.pairL ?_; refine Kept.step (kept_setPage ..) (by decide) ?_
  exact Kept.refl _ _; refine Kept.pairL ?_; exact Kept.refl _ _

theorem kept_victim (s : State) :
    Kept [.prop] s (State.victim s).2 := by
  unfold State.victim
  extract_lets +onlyGivenNames x0; clear_value x0; extract_lets +onlyGivenNames x1; clear_value x1
  extract_lets +onlyGivenNames x2; refine Kept.cutL (x := x2) ?_ ?_; unfold x2
  refine Kept.foldL _ (fun u3 y4 => ?_) ?_; refine Kept.step (kept_clockStep ..) (by decide) ?_; exact Kept.refl _ _
  refine Kept.pairL ?_; exact Kept.refl _ _; clear_value x2; intro h5; split; refine Kept.pairR ?_
  extract_lets +onlyGivenNames x6; refine Kept.cut (x := x6) ?_ ?_; unfold x6; assumption; clear_value x6; intro h7
  refine Kept.upd ?_; assumption; refine Kept.pairR ?_; assumption

theorem kept_getFrame (a0) (a1 : State) :
    Kept [.mem, .prop, .bs, .outs, .trig, .propR, .fltR] a1 (State.getFrame a0 a1).2 := by
  induction a0 generalizing a1 with
  | zero => exact Kept.refl _ _
  | succ n ih =>
    unfold State.getFrame
    split; refine Kept.pairR ?_; exact Kept.refl _ _; refine Kept.iteR ?_ ?_; refine Kept.pairR ?_
    exact Kept.refl _ _; split; refine Kept.pairR ?_; refine Kept.upd ?_; refine Kept.ofR (by assumption) ?_
    refine Kept.step (kept_victim ..) (by decide) ?_; exact Kept.refl _ _; extract_lets +onlyGivenNames x0
    clear_value x0; refine Kept.iteR ?_ ?_; extract_lets +onlyGivenNames x1; refine Kept.cutR (x := x1) ?_ ?_
    unfold x1; refine Kept.step (kept_startWriteBack ..) (by decide) ?_; refine Kept.ofR (by assumption) ?_
    refine Kept.step (kept_victim ..) (by decide) ?_; exact Kept.refl _ _; clear_value x1; intro h2
    refine Kept.iteR ?_ ?_; refine Kept.pairR ?_; assumption; refine Kept.step (ih ..) (by decide) ?_; assumption
    refine Kept.pairR ?_; refine Kept.step (kept_setPage ..) (by decide) ?_; refine Kept.ofR (by assumption) ?_
    refine Kept.step (kept_victim ..) (by decide) ?_; exact Kept.refl _ _

theorem kept_pumpPagesN (a0) (a1 : State) :
    Kept [.mem, .prop, .bs, .outs, .trig, .propR, .fltR] a1 (State.pumpPagesN a0 a1) := by
  induction a0 generalizing a1 with
  | zero => exact Kept.refl _ _
  | succ n ih =>
    unfold State.pumpPagesN
    split; exact Kept.refl _ _; refine Kept.ite ?_ ?_; exact Kept.refl _ _; extract_lets +onlyGivenNames x0
    clear_value x0; extract_lets +onlyGivenNames x1; refine Kept.cut (x := x1) ?_ ?_; unfold x1; refine Kept.upd ?_
    exact Kept.refl _ _; clear_value x1; intro h2; refine Kept.ite ?_ ?_; refine Kept.step (ih ..) (by decide) ?_
    assumption; split; refine Kept.step (ih ..) (by decide) ?_; refine Kept.step (kept_beginPageIn ..) (by decide) ?_
    refine Kept.upd ?_; refine Kept.ofR (by assumption) ?_; refine Kept.step (kept_getFrame ..) (by decide) ?_
    exact Kept.refl _ _; refine Kept.ofR (by assumption) ?_; refine Kept.step (kept_getFrame ..) (by decide) ?_
    exact Kept.refl _ _

theorem kept_pumpPages (s : State) :
    Kept [.mem, .prop, .bs, .outs, .trig, .propR, .fltR] s (State.pumpPages s) := by
  unfold State.pumpPages
  refine Kept.step (kept_pumpPagesN ..) (by decide) ?_; exact Kept.refl _ _

theorem kept_demandPage (s : State) (d) :
    Kept [.mem, .prop, .bs, .outs, .trig, .propR, .fltR] s (State.demandPage s d) := by
  unfold State.demandPage
  extract_lets +onlyGivenNames x0; clear_value x0; refine Kept.ite ?_ ?_; exact Kept.refl _ _
  extract_lets +onlyGivenNames x1; refine Kept.cut (x := x1) ?_ ?_; unfold x1
  refine Kept.step (kept_setPage ..) (by decide) ?_; exact Kept.refl _ _; clear_value x1; intro h2
  refine Kept.step (kept_pumpPages ..) (by decide) ?_; refine Kept.upd ?_; assumption

theorem kept_pagesReady (s : State) (l) :
    Kept [.mem, .prop, .bs, .outs, .trig, .propR, .fltR] s (State.pagesReady s l).2 := by
  unfold State.pagesReady
  extract_lets +onlyGivenNames x0; clear_value x0; refine Kept.pairR ?_; refine Kept.fold _ (fun u1 y2 => ?_) ?_
  refine Kept.step (kept_demandPage ..) (by decide) ?_; exact Kept.refl _ _; exact Kept.refl _ _

theorem kept_sendRead (s : State) (f) (pos) (part) (a) (n) :
    Kept [.fab, .outs, .trig, .nextTag, .exchR, .fabR, .fltR] s (State.sendRead s f pos part a n) := by
  unfold State.sendRead
  extract_lets +onlyGivenNames x0; refine Kept.cutR (x := x0) ?_ ?_; unfold x0
  refine Kept.step (kept_newTag ..) (by decide) ?_; exact Kept.refl _ _; clear_value x0; intro h1
  extract_lets +onlyGivenNames x2; clear_value x2; extract_lets +onlyGivenNames x3; refine Kept.cut (x := x3) ?_ ?_
  unfold x3; assumption; clear_value x3; intro h4; extract_lets +onlyGivenNames x5; clear_value x5
  extract_lets +onlyGivenNames x6; refine Kept.cut (x := x6) ?_ ?_; unfold x6; refine Kept.upd ?_; assumption
  clear_value x6; intro h7; refine Kept.step (kept_sendPacket ..) (by decide) ?_; assumption

theorem kept_askFarRun (s : State) (f) (x) (r) :
    Kept [.bs, .fab, .outs, .trig, .nextTag, .exchR, .fabR, .fltR] s (State.askFarRun s f x r) := by
  unfold State.askFarRun
  split; exact Kept.refl _ _; extract_lets +onlyGivenNames x0; clear_value x0; refine Kept.ite ?_ ?_
  refine Kept.step (kept_sendRead ..) (by decide) ?_; exact Kept.refl _ _
  refine Kept.step (kept_bsSend ..) (by decide) ?_; exact Kept.refl _ _

theorem kept_askScale (s : State) (f) (x) (pos) (o) :
    Kept [.bs, .fab, .outs, .trig, .nextTag, .exchR, .fabR, .fltR] s (State.askScale s f x pos o) := by
  unfold State.askScale
  refine Kept.ite ?_ ?_; exact Kept.refl _ _; extract_lets +onlyGivenNames x0; clear_value x0; refine Kept.ite ?_ ?_
  refine Kept.step (kept_sendRead ..) (by decide) ?_; exact Kept.refl _ _
  refine Kept.step (kept_bsSend ..) (by decide) ?_; exact Kept.refl _ _

theorem kept_readHandle (s : State) (id) (h) (b) (n) :
    Kept [.mem, .prop, .trig, .propR, .fltR] s (State.readHandle s id h b n).2 := by
  unfold State.readHandle
  split; refine Kept.pairR ?_; exact Kept.refl _ _; extract_lets +onlyGivenNames x0; refine Kept.cutR (x := x0) ?_ ?_
  unfold x0; refine Kept.step (kept_readPlain ..) (by decide) ?_; exact Kept.refl _ _; clear_value x0; intro h1
  refine Kept.pairR ?_; refine Kept.step (kept_touch ..) (by decide) ?_; assumption

theorem kept_setFly (s : State) (e) (v) :
    Kept [.fly] s (State.setFly s e v) := by
  unfold State.setFly
  refine Kept.upd ?_; exact Kept.refl _ _

theorem kept_setXfer (s : State) (e) (x) :
    Kept [.fly] s (State.setXfer s e x) := by
  unfold State.setXfer
  refine Kept.step (kept_setFly ..) (by decide) ?_; exact Kept.refl _ _

theorem kept_readMerged (s : State) (e) (uid) (k) (h) (b) (n) :
    Kept [.mem, .prop, .fly, .trig, .propR, .fltR] s (State.readMerged s e uid k h b n).2 := by
  unfold State.readMerged
  split; refine Kept.iteR ?_ ?_; extract_lets +onlyGivenNames x0; clear_value x0; extract_lets +onlyGivenNames x1
  clear_value x1; extract_lets +onlyGivenNames x2; clear_value x2; refine Kept.pairR ?_; exact Kept.refl _ _
  extract_lets +onlyGivenNames x3; refine Kept.cutR (x := x3) ?_ ?_; unfold x3
  refine Kept.step (kept_readHandle ..) (by decide) ?_; exact Kept.refl _ _; clear_value x3; intro h4
  refine Kept.pairR ?_; refine Kept.step (kept_setXfer ..) (by decide) ?_; assumption
  refine Kept.step (kept_readHandle ..) (by decide) ?_; exact Kept.refl _ _

theorem kept_readIndex (s : State) (e) (c) (x) (pos) :
    Kept [.mem, .prop, .fly, .trig, .propR, .fltR] s (State.readIndex s e c x pos).2 := by
  unfold State.readIndex
  extract_lets +onlyGivenNames x0; refine Kept.cutR (x := x0) ?_ ?_; unfold x0
  refine Kept.step (kept_readMerged ..) (by decide) ?_; exact Kept.refl _ _; clear_value x0; intro h1
  extract_lets +onlyGivenNames x2; clear_value x2; refine Kept.iteR ?_ ?_; refine Kept.pairR ?_; assumption
  refine Kept.iteR ?_ ?_; refine Kept.pairR ?_; assumption; refine Kept.pairR ?_; assumption

theorem kept_updXfer (s : State) (e) (uid) (f) :
    Kept [.fly] s (State.updXfer s e uid f) := by
  unfold State.updXfer
  split; refine Kept.step (kept_setXfer ..) (by decide) ?_; exact Kept.refl _ _; exact Kept.refl _ _

theorem kept_readIndices (s : State) (e) (c) (x) (pos) :
    Kept [.mem, .prop, .fly, .trig, .propR, .fltR] s (State.readIndices s e c x pos) := by
  unfold State.readIndices
  refine Kept.ite ?_ ?_; exact Kept.refl _ _; refine Kept.fold _ (fun u0 y1 => ?_) ?_; extract_lets +onlyGivenNames x2
  refine Kept.cutR (x := x2) ?_ ?_; unfold x2; refine Kept.step (kept_readIndex ..) (by decide) ?_
  exact Kept.refl _ _; clear_value x2; intro h3; refine Kept.step (kept_updXfer ..) (by decide) ?_; assumption
  exact Kept.refl _ _

theorem kept_askGroup (e) (f) (only) (st : State × Option FarRun) :
    KeptOL [.mem, .prop, .bs, .fab, .fly, .outs, .trig, .nextTag, .propR, .exchR, .fabR, .fltR] st.1 (State.askGroup e f only st) := by
  unfold State.askGroup
  extract_lets +onlyGivenNames x0; refine Kept.cut (x := x0) ?_ ?_; unfold x0; exact Kept.refl _ _
  clear_value x0; intro h1; extract_lets +onlyGivenNames x2; clear_value x2; split; exact KeptOL.none _ _
  extract_lets +onlyGivenNames x3; clear_value x3; extract_lets +onlyGivenNames x4; clear_value x4
  refine KeptOL.ite ?_ ?_; exact KeptOL.none _ _; refine KeptOL.ite ?_ ?_; exact KeptOL.none _ _
  extract_lets +onlyGivenNames x5; refine Kept.cut (x := x5) ?_ ?_; unfold x5; refine Kept.ite ?_ ?_
  refine Kept.step (kept_readIndices ..) (by decide) ?_; assumption; assumption; clear_value x5; intro h6
  extract_lets +onlyGivenNames x7; clear_value x7; extract_lets +onlyGivenNames x8; refine Kept.cut (x := x8) ?_ ?_
  unfold x8; refine Kept.step (kept_updXfer ..) (by decide) ?_; assumption; clear_value x8; intro h9; split
  refine KeptOL.ite ?_ ?_; exact KeptOL.none _ _; refine KeptOL.some ?_; refine Kept.pairL ?_; assumption
  extract_lets +onlyGivenNames x10; clear_value x10; extract_lets +onlyGivenNames x11; clear_value x11
  refine KeptOL.ite ?_ ?_; exact KeptOL.none _ _; split; refine KeptOL.some ?_; refine Kept.pairL ?_
  refine Kept.step (kept_askScale ..) (by decide) ?_; assumption; refine KeptOL.ite ?_ ?_; exact KeptOL.none _ _
  refine KeptOL.some ?_; refine Kept.pairL ?_; refine Kept.step (kept_askScale ..) (by decide) ?_
  refine Kept.step (kept_askFarRun ..) (by decide) ?_; assumption

theorem kept_askAhead (s : State) (e) (f) (n) :
    Kept [.mem, .prop, .bs, .fab, .fly, .outs, .trig, .nextTag, .propR, .exchR, .fabR, .fltR] s (State.askAhead s e f n) := by
  unfold State.askAhead
  refine Kept.ite ?_ ?_; exact Kept.refl _ _; extract_lets +onlyGivenNames x0; extract_lets +onlyGivenNames x1
  refine Kept.cutL (x := x1) ?_ ?_; unfold x1; refine Kept.iterWhileL _ (fun u2 => ?_) ?_; unfold x0
  refine KeptOL.step (kept_askGroup ..) (by decide) ?_; exact Kept.refl _ _
  refine Kept.iterWhileL _ (fun u3 => ?_) ?_; unfold x0; refine KeptOL.step (kept_askGroup ..) (by decide) ?_
  exact Kept.refl _ _; refine Kept.pairL ?_; exact Kept.refl _ _; clear_value x1; intro h4; split
  refine Kept.step (kept_askFarRun ..) (by decide) ?_; assumption; assumption

theorem kept_flySettle (s : State) (uid) :
    Kept [.flights, .flyR] s (State.flySettle s uid) := by
  unfold State.flySettle
  extract_lets +onlyGivenNames x0; clear_value x0; extract_lets +onlyGivenNames x1; clear_value x1
  extract_lets +onlyGivenNames x2; clear_value x2; split; refine Kept.ite ?_ ?_
  refine Kept.step (kept_countMod ..) (by simp) ?_; refine Kept.step (kept_finishFlight ..) (by decide) ?_
  exact Kept.refl _ _; exact Kept.refl _ _; exact Kept.refl _ _

theorem kept_giveHalf (s : State) (c) (x) :
    Kept [.arr] s (State.giveHalf s c x) := by
  unfold State.giveHalf
  extract_lets +onlyGivenNames x0; clear_value x0; extract_lets +onlyGivenNames x1; clear_value x1
  refine Kept.ite ?_ ?_; exact Kept.refl _ _; refine Kept.ite ?_ ?_; refine Kept.step (kept_setHalf ..) (by decide) ?_
  exact Kept.refl _ _; extract_lets +onlyGivenNames x2; refine Kept.cut (x := x2) ?_ ?_; unfold x2
  refine Kept.step (kept_setHalf ..) (by decide) ?_; exact Kept.refl _ _; clear_value x2; intro h3; refine Kept.upd ?_
  assumption

theorem kept_releaseActive (s : State) (e) (x) :
    Kept [.flights, .arr, .fly, .flyR] s (State.releaseActive s e x) := by
  unfold State.releaseActive
  extract_lets +onlyGivenNames x0; refine Kept.cut (x := x0) ?_ ?_; unfold x0; split; exact Kept.refl _ _
  refine Kept.step (kept_giveHalf ..) (by decide) ?_; exact Kept.refl _ _; clear_value x0; intro h1
  refine Kept.step (kept_flySettle ..) (by decide) ?_; refine Kept.step (kept_setFly ..) (by decide) ?_; assumption

theorem kept_unpair (s : State) (h) :
    Kept [.prop] s (State.unpair s h) := by
  unfold State.unpair
  extract_lets +onlyGivenNames x0; clear_value x0; refine Kept.ite ?_ ?_; exact Kept.refl _ _
  extract_lets +onlyGivenNames x1; clear_value x1; refine Kept.step (kept_setHandle ..) (by decide) ?_
  refine Kept.step (kept_setHandle ..) (by decide) ?_; exact Kept.refl _ _

theorem kept_freeHandle (s : State) (h) :
    Kept [.trackers, .prop] s (State.freeHandle s h) := by
  unfold State.freeHandle
  extract_lets +onlyGivenNames x0; refine Kept.cut (x := x0) ?_ ?_; unfold x0
  refine Kept.step (kept_handlePassClose ..) (by decide) ?_; exact Kept.refl _ _; clear_value x0; intro h1
  extract_lets +onlyGivenNames x2; refine Kept.cut (x := x2) ?_ ?_; unfold x2
  refine Kept.step (kept_unpair ..) (by decide) ?_; assumption; clear_value x2; intro h3
  extract_lets +onlyGivenNames x4; clear_value x4; extract_lets +onlyGivenNames x5; clear_value x5
  extract_lets +onlyGivenNames x6; refine Kept.cut (x := x6) ?_ ?_; unfold x6; refine Kept.ite ?_ ?_
  refine Kept.step (kept_setTracker ..) (by decide) ?_; assumption; assumption; clear_value x6; intro h7
  extract_lets +onlyGivenNames x8; refine Kept.cut (x := x8) ?_ ?_; unfold x8
  refine Kept.fold _ (fun u9 y10 => ?_) ?_; refine Kept.step (kept_setPage ..) (by decide) ?_; exact Kept.refl _ _
  assumption; clear_value x8; intro h11; extract_lets +onlyGivenNames x12; clear_value x12
  extract_lets +onlyGivenNames x13; clear_value x13; extract_lets +onlyGivenNames x14
  refine Kept.cut (x := x14) ?_ ?_; unfold x14; refine Kept.upd ?_; assumption; clear_value x14; intro h15
  refine Kept.step (kept_setHandle ..) (by decide) ?_; assumption

theorem kept_flyData (s : State) (uid) (pos) (part) (data) (poison) :
    Kept [.fly] s (State.flyData s uid pos part data poison) := by
  unfold State.flyData
  split; exact Kept.refl _ _; extract_lets +onlyGivenNames x0; clear_value x0; extract_lets +onlyGivenNames x1
  clear_value x1; refine Kept.step (kept_setXfer ..) (by decide) ?_; exact Kept.refl _ _

theorem kept_flyFails (s : State) (uid) (code) :
    Kept [.flights] s (State.flyFails s uid code) := by
  unfold State.flyFails
  refine Kept.step (kept_updFlight ..) (by decide) ?_; exact Kept.refl _ _

theorem kept_flyBs (s : State) (r) (err) (data) :
    Kept [.flights, .bs, .fly, .outs, .trig, .flyR, .fltR] s (State.flyBs s r err data) := by
  unfold State.flyBs
  split; extract_lets +onlyGivenNames x0; refine Kept.cut (x := x0) ?_ ?_; unfold x0; refine Kept.ite ?_ ?_
  refine Kept.step (kept_logRecord ..) (by decide) ?_; exact Kept.refl _ _; exact Kept.refl _ _
  clear_value x0; intro h1; refine Kept.step (kept_flyData ..) (by decide) ?_; assumption; refine Kept.ite ?_ ?_
  refine Kept.step (kept_flySettle ..) (by decide) ?_; refine Kept.step (kept_flyFails ..) (by decide) ?_
  exact Kept.refl _ _; extract_lets +onlyGivenNames x2; clear_value x2
  refine Kept.step (kept_bsSend ..) (by decide) ?_; exact Kept.refl _ _; extract_lets +onlyGivenNames x3
  refine Kept.cut (x := x3) ?_ ?_; unfold x3; refine Kept.ite ?_ ?_
  refine Kept.step (kept_logRecord ..) (by decide) ?_; refine Kept.step (kept_flyFails ..) (by decide) ?_
  exact Kept.refl _ _; exact Kept.refl _ _; clear_value x3; intro h4
  refine Kept.step (kept_flySettle ..) (by decide) ?_; assumption; exact Kept.refl _ _

theorem kept_memStore (s : State) (w) (bytes) (fl) :
    Kept [.mem] s (State.memStore s w bytes fl) := by
  unfold State.memStore
  extract_lets +onlyGivenNames x0; refine Kept.upd ?_; exact Kept.refl _ _

theorem kept_dropCorr (s : State) (f) :
    Kept [.mem] s (State.dropCorr s f) := by
  unfold State.dropCorr
  refine Kept.upd ?_; exact Kept.refl _ _

theorem kept_poisonFrame (s : State) (f) : Kept [.mem] s (State.poisonFrame s f) := by
  unfold State.poisonFrame
  exact Kept.step (kept_dropCorr ..) (by decide) (Kept.upd (Kept.refl _ _) (wmem := Mem.wf_setFlaws (fun k => f * 1024 + k) _ _))

theorem kept_pageInWord (s : State) (d) (i) (err) (data) :
    Kept [.mem, .prop, .bs, .outs, .trig, .propR, .fltR] s (State.pageInWord s d i err data) := by
  unfold State.pageInWord
  split; exact Kept.refl _ _; extract_lets +onlyGivenNames x0; refine Kept.cut (x := x0) ?_ ?_; unfold x0
  refine Kept.step (kept_memStore ..) (by decide) ?_; exact Kept.refl _ _; clear_value x0; intro h1
  extract_lets +onlyGivenNames x2; refine Kept.ite ?_ ?_; refine Kept.upd ?_; assumption
  extract_lets +onlyGivenNames x3; clear_value x3; extract_lets +onlyGivenNames x4; refine Kept.cut (x := x4) ?_ ?_
  unfold x4; refine Kept.upd ?_; assumption; clear_value x4; intro h5; extract_lets +onlyGivenNames x6
  refine Kept.cut (x := x6) ?_ ?_; unfold x6; refine Kept.ite ?_ ?_
  refine Kept.step (kept_poisonFrame ..) (by decide) ?_; assumption; assumption; clear_value x6; intro h7
  extract_lets +onlyGivenNames x8; refine Kept.cut (x := x8) ?_ ?_; unfold x8
  refine Kept.step (kept_updPage ..) (by decide) ?_; assumption; clear_value x8; intro h9
  extract_lets +onlyGivenNames x10; refine Kept.cut (x := x10) ?_ ?_; unfold x10
  refine Kept.step (kept_count ..) (by decide) ?_; assumption; clear_value x10; intro h11
  extract_lets +onlyGivenNames x12; refine Kept.cut (x := x12) ?_ ?_; unfold x12; refine Kept.ite ?_ ?_
  refine Kept.step (kept_logRecord ..) (by decide) ?_; assumption; assumption; clear_value x12; intro h13
  refine Kept.step (kept_pumpPages ..) (by decide) ?_; assumption

theorem kept_writeBackWord (s : State) (d) (err) :
    Kept [.mem, .prop, .bs, .outs, .trig, .propR, .fltR] s (State.writeBackWord s d err) := by
  unfold State.writeBackWord
  split; exact Kept.refl _ _; extract_lets +onlyGivenNames x0; refine Kept.ite ?_ ?_; refine Kept.upd ?_
  exact Kept.refl _ _; extract_lets +onlyGivenNames x1; clear_value x1; extract_lets +onlyGivenNames x2
  refine Kept.cut (x := x2) ?_ ?_; unfold x2; refine Kept.upd ?_; exact Kept.refl _ _; clear_value x2; intro h3
  refine Kept.ite ?_ ?_; extract_lets +onlyGivenNames x4; refine Kept.cut (x := x4) ?_ ?_; unfold x4
  refine Kept.step (kept_updPage ..) (by decide) ?_; assumption; clear_value x4; intro h5
  refine Kept.step (kept_pumpPages ..) (by decide) ?_; refine Kept.step (kept_logRecord ..) (by decide) ?_; assumption
  extract_lets +onlyGivenNames x6; clear_value x6; extract_lets +onlyGivenNames x7; refine Kept.cut (x := x7) ?_ ?_
  unfold x7; refine Kept.step (kept_updPage ..) (by decide) ?_; assumption; clear_value x7; intro h8
  refine Kept.step (kept_pumpPages ..) (by decide) ?_; refine Kept.step (kept_count ..) (by decide) ?_; assumption

theorem kept_bsAnswer (s : State) (ch) (tag) (err) (data) :
    Kept [.flights, .mem, .prop, .bs, .fly, .outs, .trig, .flyR, .propR, .fltR] s (State.bsAnswer s ch tag err data) := by
  unfold State.bsAnswer
  split; exact Kept.refl _ _; extract_lets +onlyGivenNames x0; clear_value x0; extract_lets +onlyGivenNames x1
  refine Kept.cut (x := x1) ?_ ?_; unfold x1; refine Kept.upd ?_; exact Kept.refl _ _; clear_value x1; intro h2
  extract_lets +onlyGivenNames x3; refine Kept.cut (x := x3) ?_ ?_; unfold x3; split
  refine Kept.step (kept_pageInWord ..) (by decide) ?_; assumption
  refine Kept.step (kept_writeBackWord ..) (by decide) ?_; assumption; refine Kept.step (kept_flyBs ..) (by decide) ?_
  assumption; clear_value x3; intro h4; refine Kept.step (kept_pumpBs ..) (by decide) ?_; assumption

theorem kept_copyFrame (s : State) (src) (dst) :
    Kept [.mem, .prop, .trig, .propR, .fltR] s (State.copyFrame s src dst).2 := by
  unfold State.copyFrame
  extract_lets +onlyGivenNames x0; refine Kept.cutR (x := x0) ?_ ?_; unfold x0
  refine Kept.iterR _ (fun u1 y2 => ?_) ?_; extract_lets +onlyGivenNames x3; refine Kept.cutR (x := x3) ?_ ?_
  unfold x3; refine Kept.step (kept_readWord ..) (by decide) ?_; exact Kept.refl _ _; clear_value x3; intro h4
  refine Kept.pairR ?_; refine Kept.step (kept_memStore ..) (by decide) ?_; assumption; refine Kept.pairR ?_
  exact Kept.refl _ _; clear_value x0; intro h5; refine Kept.pairR ?_
  refine Kept.step (kept_dropCorr ..) (by decide) ?_; assumption

theorem kept_correctedBack (s : State) (bank) :
    Kept [.mem, .prop] s (State.correctedBack s bank) := by
  unfold State.correctedBack
  split; exact Kept.refl _ _; extract_lets +onlyGivenNames x0; clear_value x0; extract_lets +onlyGivenNames x1
  extract_lets +onlyGivenNames x2; refine Kept.cut (x := x2) ?_ ?_; unfold x2; refine Kept.upd ?_; exact Kept.refl _ _
  clear_value x2; intro h3; refine Kept.ite ?_ ?_; refine Kept.step (kept_markPoisoned ..) (by decide) ?_; assumption
  assumption

theorem kept_takeHalf (s : State) (e) (c) (x) :
    Kept [.arr, .fly] s (State.takeHalf s e c x) := by
  unfold State.takeHalf
  extract_lets +onlyGivenNames x0; clear_value x0; refine Kept.ite ?_ ?_
  refine Kept.step (kept_setXfer ..) (by decide) ?_; refine Kept.step (kept_setHalf ..) (by decide) ?_
  exact Kept.refl _ _; exact Kept.refl _ _

theorem kept_creditReturn (s : State) (e) (n) :
    Kept [.arr, .fly] s (State.creditReturn s e n) := by
  unfold State.creditReturn
  split; exact Kept.refl _ _; split; exact Kept.refl _ _; refine Kept.ite ?_ ?_
  refine Kept.step (kept_takeHalf ..) (by decide) ?_; exact Kept.refl _ _; refine Kept.ite ?_ ?_
  refine Kept.step (kept_setXfer ..) (by decide) ?_; exact Kept.refl _ _; exact Kept.refl _ _

theorem kept_sendWrite (s : State) (f) (a) (l) :
    Kept [.fab, .outs, .trig, .nextTag, .exchR, .fabR, .fltR] s (State.sendWrite s f a l) := by
  unfold State.sendWrite
  extract_lets +onlyGivenNames x0; refine Kept.cutR (x := x0) ?_ ?_; unfold x0
  refine Kept.step (kept_newTag ..) (by decide) ?_; exact Kept.refl _ _; clear_value x0; intro h1
  extract_lets +onlyGivenNames x2; clear_value x2; extract_lets +onlyGivenNames x3; refine Kept.cut (x := x3) ?_ ?_
  unfold x3; assumption; clear_value x3; intro h4; extract_lets +onlyGivenNames x5; clear_value x5
  extract_lets +onlyGivenNames x6; refine Kept.cut (x := x6) ?_ ?_; unfold x6; refine Kept.upd ?_; assumption
  clear_value x6; intro h7; refine Kept.step (kept_sendPacket ..) (by decide) ?_; assumption

theorem kept_flushRemote (s : State) (e) (f) :
    Kept [.fab, .fly, .outs, .trig, .nextTag, .exchR, .fabR, .fltR] s (State.flushRemote s e f) := by
  unfold State.flushRemote
  split; split; refine Kept.step (kept_sendWrite ..) (by decide) ?_; refine Kept.step (kept_setXfer ..) (by decide) ?_
  exact Kept.refl _ _; exact Kept.refl _ _; exact Kept.refl _ _

theorem kept_flushWord (s : State) (e) (x) :
    KeptO [.bs, .fly, .outs] s (State.flushWord s e x) := by
  unfold State.flushWord
  split; refine KeptO.some ?_; exact Kept.refl _ _; extract_lets +onlyGivenNames x0; clear_value x0
  refine KeptO.ite ?_ ?_; exact KeptO.none _ _; extract_lets +onlyGivenNames x1; refine Kept.cut (x := x1) ?_ ?_
  unfold x1; refine Kept.step (kept_setXfer ..) (by decide) ?_; exact Kept.refl _ _; clear_value x1; intro h2
  refine KeptO.ite ?_ ?_; refine KeptO.some ?_; refine Kept.step (kept_bsSend ..) (by decide) ?_; assumption
  refine KeptO.some ?_; refine Kept.step (kept_bsSend ..) (by decide) ?_; assumption

theorem kept_toDrain (s : State) (e) :
    Kept [.fly] s (State.toDrain s e) := by
  unfold State.toDrain
  extract_lets +onlyGivenNames x0; clear_value x0; split; exact Kept.refl _ _; split; exact Kept.refl _ _
  refine Kept.ite ?_ ?_; refine Kept.step (kept_setFly ..) (by decide) ?_; exact Kept.refl _ _; exact Kept.refl _ _

theorem kept_flyAsk (s : State) (e) (n) :
    Kept [.mem, .prop, .bs, .fab, .arr, .fly, .outs, .trig, .nextTag, .propR, .exchR, .fabR, .fltR] s (State.flyAsk s e n) := by
  unfold State.flyAsk
  split; exact Kept.refl _ _; split; exact Kept.refl _ _; refine Kept.step (kept_toDrain ..) (by decide) ?_
  refine Kept.step (kept_askAhead ..) (by decide) ?_; refine Kept.step (kept_takeHalf ..) (by decide) ?_
  exact Kept.refl _ _

theorem kept_flyCounts (s : State) (e) (df) (sat) (nanInt) (poison) (oob) (bytes) :
    Kept [.flyR] s (State.flyCounts s e df sat nanInt poison oob bytes) := by
  unfold State.flyCounts
  extract_lets +onlyGivenNames x0; refine Kept.cut (x := x0) ?_ ?_; unfold x0
  refine Kept.step (kept_count ..) (by simp) ?_; refine Kept.step (kept_count ..) (by simp) ?_; exact Kept.refl _ _
  clear_value x0; intro h1; extract_lets +onlyGivenNames x2; refine Kept.cut (x := x2) ?_ ?_; unfold x2
  refine Kept.ite ?_ ?_; refine Kept.step (kept_count ..) (by simp) ?_; assumption; assumption
  clear_value x2; intro h3; refine Kept.step (kept_count64 ..) (by simp) ?_
  refine Kept.step (kept_count ..) (by simp) ?_; assumption

theorem kept_flyEnd (s : State) (e) :
    Kept [.flights, .bs, .fab, .arr, .fly, .outs, .trig, .nextTag, .flyR, .exchR, .fabR, .fltR] s (State.flyEnd s e) := by
  unfold State.flyEnd
  split; exact Kept.refl _ _; refine Kept.ite ?_ ?_; exact Kept.refl _ _; split; exact Kept.refl _ _
  extract_lets +onlyGivenNames x0; refine KeptO.cut (x := x0) ?_ ?_; unfold x0; refine KeptO.ite ?_ ?_
  refine KeptO.some ?_; refine Kept.step (kept_flushRemote ..) (by decide) ?_; exact Kept.refl _ _
  refine KeptO.step (kept_flushWord ..) (by decide) ?_; exact Kept.refl _ _; clear_value x0; intro h1; split
  exact Kept.refl _ _; split; refine Kept.step (kept_releaseActive ..) (by decide) ?_
  exact Kept.ofO rfl (by assumption); exact Kept.ofO rfl (by assumption)

theorem kept_noteE (s : State) (e) (c) (els) :
    Kept [.flyR] s (State.noteE s e c els) := by
  unfold State.noteE
  split; refine Kept.step (kept_setF ..) (by simp) ?_; exact Kept.refl _ _; exact Kept.refl _ _

theorem kept_groupDone (s : State) (e) (c) (x) (els) (ix) :
    Kept [.fly, .flyR] s (State.groupDone s e c x els ix) := by
  unfold State.groupDone
  extract_lets +onlyGivenNames x0; clear_value x0; extract_lets +onlyGivenNames x1; refine Kept.cut (x := x1) ?_ ?_
  unfold x1; refine Kept.step (kept_noteE ..) (by decide) ?_; refine Kept.step (kept_flyCounts ..) (by decide) ?_
  exact Kept.refl _ _; clear_value x1; intro h2; refine Kept.step (kept_updXfer ..) (by decide) ?_; assumption

theorem kept_writeHandle (s : State) (uid) (id) (h) (b) (l) :
    Kept [.mem, .prop] s (State.writeHandle s uid id h b l) := by
  unfold State.writeHandle
  split; exact Kept.refl _ _; refine Kept.ite ?_ ?_; exact Kept.refl _ _
  refine Kept.step (kept_touch ..) (by decide) ?_; refine Kept.step (kept_queueWrite ..) (by decide) ?_
  exact Kept.refl _ _

theorem kept_putHandle (s : State) (e) (f) (x) (df) (t) (o) (code) (nan) (far) :
    Kept [.trackers, .mem, .prop, .trkR] s (State.putHandle s e f x df t o code nan far) := by
  unfold State.putHandle
  extract_lets +onlyGivenNames x0; clear_value x0; extract_lets +onlyGivenNames x1; clear_value x1
  extract_lets +onlyGivenNames x2; clear_value x2; extract_lets +onlyGivenNames x3; refine Kept.cut (x := x3) ?_ ?_
  unfold x3; refine Kept.step (kept_writeHandle ..) (by decide) ?_; exact Kept.refl _ _; clear_value x3; intro h4
  refine Kept.ite ?_ ?_; assumption; extract_lets +onlyGivenNames x5; refine Kept.cut (x := x5) ?_ ?_; unfold x5
  split; refine Kept.step (kept_writeHandle ..) (by decide) ?_; assumption; assumption; clear_value x5; intro h6
  extract_lets +onlyGivenNames x7; clear_value x7; refine Kept.step (kept_handlePassNote ..) (by decide) ?_
  assumption

theorem kept_putHandleGroup (s : State) (e) (f) (x) (els) (doffs) :
    Kept [.trackers, .mem, .prop, .fly, .trig, .trkR, .flyR, .propR, .fltR] s (State.putHandleGroup s e f x els doffs) := by
  unfold State.putHandleGroup
  extract_lets +onlyGivenNames x0; clear_value x0; extract_lets +onlyGivenNames x1; clear_value x1
  extract_lets +onlyGivenNames x2; clear_value x2; extract_lets +onlyGivenNames x3; extract_lets +onlyGivenNames x4
  clear_value x4; refine Kept.ite ?_ ?_; split; refine Kept.ite ?_ ?_; exact Kept.refl _ _
  extract_lets +onlyGivenNames x5; refine Kept.cut (x := x5) ?_ ?_; unfold x5; unfold x3; refine Kept.ite ?_ ?_
  exact Kept.refl _ _; refine Kept.step (kept_handlePassOpen ..) (by decide) ?_; exact Kept.refl _ _
  clear_value x5; intro h6; extract_lets +onlyGivenNames x7; clear_value x7; extract_lets +onlyGivenNames x8
  refine Kept.cutR (x := x8) ?_ ?_; unfold x8; refine Kept.step (kept_readHandle ..) (by decide) ?_; assumption
  clear_value x8; intro h9; extract_lets +onlyGivenNames x10; clear_value x10; extract_lets +onlyGivenNames x11
  clear_value x11; extract_lets +onlyGivenNames x12; refine Kept.cut (x := x12) ?_ ?_; unfold x12
  refine Kept.step (kept_writeHandle ..) (by decide) ?_; refine Kept.step (kept_writeHandle ..) (by decide) ?_
  assumption; clear_value x12; intro h13; extract_lets +onlyGivenNames x14; refine Kept.cut (x := x14) ?_ ?_
  unfold x14; refine Kept.ite ?_ ?_; assumption; refine Kept.fold _ (fun u15 y16 => ?_) ?_; split
  refine Kept.ite ?_ ?_; exact Kept.refl _ _; refine Kept.step (kept_handlePassNote ..) (by decide) ?_
  exact Kept.refl _ _; assumption; clear_value x14; intro h17; refine Kept.step (kept_flyCounts ..) (by decide) ?_
  assumption; exact Kept.refl _ _; refine Kept.fold _ (fun u18 y19 => ?_) ?_; split; split; exact Kept.refl _ _
  refine Kept.ite ?_ ?_; exact Kept.refl _ _; extract_lets +onlyGivenNames x20; refine Kept.cut (x := x20) ?_ ?_
  unfold x20; unfold x3; refine Kept.ite ?_ ?_; exact Kept.refl _ _
  refine Kept.step (kept_handlePassOpen ..) (by decide) ?_; exact Kept.refl _ _; clear_value x20; intro h21
  extract_lets +onlyGivenNames x22; clear_value x22; extract_lets +onlyGivenNames x23; clear_value x23
  extract_lets +onlyGivenNames x24; clear_value x24; extract_lets +onlyGivenNames x25
  refine Kept.cutR (x := x25) ?_ ?_; unfold x25; refine Kept.iteR ?_ ?_
  refine Kept.step (kept_readMerged ..) (by decide) ?_; assumption; refine Kept.pairR ?_; assumption
  clear_value x25; intro h26; extract_lets +onlyGivenNames x27; clear_value x27; extract_lets +onlyGivenNames x28
  clear_value x28; refine Kept.step (kept_flyCounts ..) (by decide) ?_
  refine Kept.step (kept_putHandle ..) (by decide) ?_; assumption; exact Kept.refl _ _

theorem kept_putBackstage (s : State) (e) (uid) (a) (l) :
    KeptO [.bs, .fly, .outs] s (State.putBackstage s e uid a l) := by
  unfold State.putBackstage
  split; exact KeptO.none _ _; extract_lets +onlyGivenNames x0; clear_value x0; extract_lets +onlyGivenNames x1
  clear_value x1; split; refine KeptO.ite ?_ ?_; refine KeptO.some ?_
  refine Kept.step (kept_setXfer ..) (by decide) ?_; exact Kept.refl _ _; refine KeptO.map (fun u2 => ?_) ?_
  refine Kept.step (kept_updXfer ..) (by decide) ?_; exact Kept.refl _ _
  refine KeptO.step (kept_flushWord ..) (by decide) ?_; exact Kept.refl _ _; refine KeptO.some ?_
  refine Kept.step (kept_setXfer ..) (by decide) ?_; exact Kept.refl _ _

theorem kept_putRemote (s : State) (e) (f) (a) (l) :
    Kept [.fab, .fly, .outs, .trig, .nextTag, .exchR, .fabR, .fltR] s (State.putRemote s e f a l) := by
  unfold State.putRemote
  extract_lets +onlyGivenNames x0; split; refine Kept.ite ?_ ?_; refine Kept.step (kept_updXfer ..) (by decide) ?_
  exact Kept.refl _ _; unfold x0; refine Kept.step (kept_updXfer ..) (by decide) ?_
  refine Kept.step (kept_flushRemote ..) (by decide) ?_; exact Kept.refl _ _; unfold x0
  refine Kept.step (kept_updXfer ..) (by decide) ?_; exact Kept.refl _ _

theorem kept_putOther (s : State) (e) (f) (x) (els) (doffs) :
    KeptO [.bs, .fab, .cho, .fly, .outs, .trig, .nextTag, .flyR, .exchR, .fabR, .fltR] s (State.putOther s e f x els doffs) := by
  unfold State.putOther
  extract_lets +onlyGivenNames x0; clear_value x0; extract_lets +onlyGivenNames x1; clear_value x1; split
  extract_lets +onlyGivenNames x2; clear_value x2; refine KeptO.some ?_; refine Kept.fold _ (fun u3 y4 => ?_) ?_
  split; split; exact Kept.refl _ _; refine Kept.ite ?_ ?_; exact Kept.refl _ _; extract_lets +onlyGivenNames x5
  clear_value x5; extract_lets +onlyGivenNames x6; clear_value x6; extract_lets +onlyGivenNames x7; clear_value x7
  extract_lets +onlyGivenNames x8; refine Kept.cut (x := x8) ?_ ?_; unfold x8
  refine Kept.step (kept_updUnit ..) (by decide) ?_; exact Kept.refl _ _; clear_value x8; intro h9
  refine Kept.step (kept_flyCounts ..) (by decide) ?_; assumption; exact Kept.refl _ _
  extract_lets +onlyGivenNames x10; clear_value x10; extract_lets +onlyGivenNames x11; clear_value x11; split
  extract_lets +onlyGivenNames x12; clear_value x12; extract_lets +onlyGivenNames x13; clear_value x13
  extract_lets +onlyGivenNames x14; refine Kept.cut (x := x14) ?_ ?_; unfold x14
  refine Kept.step (kept_flyCounts ..) (by decide) ?_; exact Kept.refl _ _; clear_value x14; intro h15
  refine KeptO.ite ?_ ?_; extract_lets +onlyGivenNames x16; refine Kept.cut (x := x16) ?_ ?_; unfold x16
  refine Kept.step (kept_putRemote ..) (by decide) ?_; assumption; clear_value x16; intro h17; refine KeptO.some ?_
  refine Kept.ite ?_ ?_; refine Kept.step (kept_sendWrite ..) (by decide) ?_; assumption; assumption; split
  exact KeptO.none _ _; refine KeptO.ite ?_ ?_; refine KeptO.step (kept_putBackstage ..) (by decide) ?_
  refine Kept.ofO (by assumption) ?_; refine KeptO.step (kept_putBackstage ..) (by decide) ?_; assumption
  refine KeptO.some ?_; refine Kept.ofO (by assumption) ?_; refine KeptO.step (kept_putBackstage ..) (by decide) ?_
  assumption; refine KeptO.some ?_; exact Kept.refl _ _

theorem kept_pushRow (s : State) (c) (x) :
    Kept [.arr] s (State.pushRow s c x).2 := by
  unfold State.pushRow
  refine Kept.iteR ?_ ?_; refine Kept.pairR ?_; exact Kept.refl _ _; extract_lets +onlyGivenNames x0; clear_value x0
  refine Kept.pairR ?_; refine Kept.step (kept_setFeed ..) (by decide) ?_; exact Kept.refl _ _

theorem kept_putStream (s : State) (e) (c) (uid) (els) (o) :
    Kept [.arr, .cho, .fly] s (State.putStream s e c uid els o) := by
  unfold State.putStream
  split; exact Kept.refl _ _; extract_lets +onlyGivenNames x0; clear_value x0; extract_lets +onlyGivenNames x1
  clear_value x1; split; extract_lets +onlyGivenNames x2; clear_value x2
  refine Kept.step (kept_setXfer ..) (by decide) ?_; refine Kept.step (kept_updUnit ..) (by decide) ?_
  exact Kept.refl _ _; extract_lets +onlyGivenNames x3; clear_value x3; refine Kept.ite ?_ ?_
  extract_lets +onlyGivenNames x4; refine Kept.cutR (x := x4) ?_ ?_; unfold x4
  refine Kept.step (kept_pushRow ..) (by decide) ?_; exact Kept.refl _ _; clear_value x4; intro h5
  refine Kept.step (kept_setXfer ..) (by decide) ?_; assumption; refine Kept.step (kept_setXfer ..) (by decide) ?_
  exact Kept.refl _ _

theorem kept_putGroup (s : State) (e) (f) (x) (els) (doffs) :
    KeptO [.trackers, .mem, .prop, .bs, .fab, .arr, .cho, .fly, .outs, .trig, .nextTag, .trkR, .flyR, .propR, .exchR, .fabR, .fltR] s (State.putGroup s e f x els doffs) := by
  unfold State.putGroup
  extract_lets +onlyGivenNames x0; clear_value x0; extract_lets +onlyGivenNames x1; clear_value x1
  refine KeptO.ite ?_ ?_; extract_lets +onlyGivenNames x2; clear_value x2; extract_lets +onlyGivenNames x3
  clear_value x3; refine KeptO.some ?_; refine Kept.step (kept_flyCounts ..) (by decide) ?_
  refine Kept.step (kept_putStream ..) (by decide) ?_; exact Kept.refl _ _; refine KeptO.ite ?_ ?_
  refine KeptO.some ?_; refine Kept.step (kept_putHandleGroup ..) (by decide) ?_; exact Kept.refl _ _
  refine KeptO.step (kept_putOther ..) (by decide) ?_; exact Kept.refl _ _

theorem kept_readNear (s : State) (e) (c) (x) (o) :
    Kept [.mem, .prop, .fly, .trig, .propR, .fltR] s (State.readNear s e c x o).2 := by
  unfold State.readNear
  extract_lets +onlyGivenNames x0; clear_value x0; refine Kept.iteR ?_ ?_; refine Kept.iteR ?_ ?_
  extract_lets +onlyGivenNames x1; refine Kept.cutR (x := x1) ?_ ?_; unfold x1
  refine Kept.step (kept_readMerged ..) (by decide) ?_; exact Kept.refl _ _; clear_value x1; intro h2
  extract_lets +onlyGivenNames x3; refine Kept.cutR (x := x3) ?_ ?_; unfold x3
  refine Kept.step (kept_readMerged ..) (by decide) ?_; assumption; clear_value x3; intro h4
  extract_lets +onlyGivenNames x5; clear_value x5; refine Kept.pairR ?_; assumption; extract_lets +onlyGivenNames x6
  refine Kept.cutR (x := x6) ?_ ?_; unfold x6; refine Kept.step (kept_readMerged ..) (by decide) ?_
  exact Kept.refl _ _; clear_value x6; intro h7; refine Kept.pairR ?_; assumption; extract_lets +onlyGivenNames x8
  clear_value x8; refine Kept.pairR ?_; exact Kept.refl _ _

theorem kept_sourceGroup (s : State) (e) (f) (x) (g) (offs) (bad) :
    Kept [.mem, .prop, .lanes, .fly, .trig, .propR, .fltR] s (State.sourceGroup s e f x g offs bad).2 := by
  unfold State.sourceGroup
  extract_lets +onlyGivenNames x0; clear_value x0; extract_lets +onlyGivenNames x1; clear_value x1
  extract_lets +onlyGivenNames x2; clear_value x2; split; refine Kept.pairR ?_; exact Kept.refl _ _
  extract_lets +onlyGivenNames x3; clear_value x3; extract_lets +onlyGivenNames x4; clear_value x4
  refine Kept.iteR ?_ ?_; refine Kept.pairR ?_; exact Kept.refl _ _; extract_lets +onlyGivenNames x5
  refine Kept.cut (x := x5) ?_ ?_; unfold x5; refine Kept.upd ?_; exact Kept.refl _ _; clear_value x5; intro h6
  refine Kept.pairR ?_; assumption; extract_lets +onlyGivenNames x7; clear_value x7; refine Kept.iteR ?_ ?_
  refine Kept.pairR ?_; exact Kept.refl _ _; split; extract_lets +onlyGivenNames x8; clear_value x8
  refine Kept.iteR ?_ ?_; refine Kept.pairR ?_; exact Kept.refl _ _; refine Kept.pairR ?_; exact Kept.refl _ _
  refine Kept.pairR ?_; exact Kept.refl _ _; extract_lets +onlyGivenNames x9; clear_value x9; refine Kept.iteR ?_ ?_
  refine Kept.pairR ?_; exact Kept.refl _ _; split; extract_lets +onlyGivenNames x10; clear_value x10
  refine Kept.iteR ?_ ?_; refine Kept.pairR ?_; exact Kept.refl _ _; refine Kept.pairR ?_; exact Kept.refl _ _
  refine Kept.pairR ?_; exact Kept.refl _ _; refine Kept.iteR ?_ ?_; split; extract_lets +onlyGivenNames x11
  refine Kept.cutR (x := x11) ?_ ?_; unfold x11; refine Kept.step (kept_readNear ..) (by decide) ?_
  exact Kept.refl _ _; clear_value x11; intro h12; refine Kept.pairR ?_; assumption; refine Kept.pairR ?_
  exact Kept.refl _ _; extract_lets +onlyGivenNames x13; refine Kept.cutR (x := x13) ?_ ?_; unfold x13
  refine Kept.foldR _ (fun u14 y15 => ?_) ?_; split; split; extract_lets +onlyGivenNames x16
  refine Kept.cutR (x := x16) ?_ ?_; unfold x16; refine Kept.step (kept_readNear ..) (by decide) ?_
  exact Kept.refl _ _; clear_value x16; intro h17; refine Kept.pairR ?_; assumption; refine Kept.pairR ?_
  exact Kept.refl _ _; refine Kept.pairR ?_; exact Kept.refl _ _; clear_value x13; intro h18; refine Kept.pairR ?_
  assumption

theorem kept_moveGroup (s : State) (e) (f) (x) :
    KeptM [.trackers, .mem, .prop, .bs, .fab, .arr, .cho, .lanes, .fly, .outs, .trig, .nextTag, .trkR, .flyR, .propR, .exchR, .fabR, .fltR] s (State.moveGroup s e f x) := by
  unfold State.moveGroup
  extract_lets +onlyGivenNames x0; clear_value x0; extract_lets +onlyGivenNames x1; clear_value x1
  extract_lets +onlyGivenNames x2; clear_value x2; extract_lets +onlyGivenNames x3; clear_value x3
  extract_lets +onlyGivenNames x4; clear_value x4; extract_lets +onlyGivenNames x5; clear_value x5
  extract_lets +onlyGivenNames x6; refine Kept.cutR (x := x6) ?_ ?_; unfold x6
  refine Kept.step (kept_pagesReady ..) (by decide) ?_; exact Kept.refl _ _; clear_value x6; intro h7
  refine KeptM.ite ?_ ?_; refine KeptM.stuck ?_; refine Kept.step (kept_updXfer ..) (by decide) ?_; assumption
  extract_lets +onlyGivenNames x8; refine Kept.cut (x := x8) ?_ ?_; unfold x8
  refine Kept.step (kept_updXfer ..) (by decide) ?_; exact Kept.refl _ _; clear_value x8; intro h9
  refine KeptM.ite ?_ ?_; refine KeptM.stuck ?_; assumption; split; refine KeptM.stuck ?_
  refine Kept.ofR (by assumption) ?_; refine Kept.step (kept_sourceGroup ..) (by decide) ?_; assumption; split
  refine KeptM.stuck ?_; refine Kept.ofR (by assumption) ?_; refine Kept.step (kept_sourceGroup ..) (by decide) ?_
  assumption; refine KeptM.on ?_; refine Kept.step (kept_groupDone ..) (by decide) ?_
  refine Kept.ofO (by assumption) ?_; refine KeptO.step (kept_putGroup ..) (by decide) ?_
  refine Kept.ofR (by assumption) ?_; refine Kept.step (kept_sourceGroup ..) (by decide) ?_; assumption

theorem kept_flyGroup (s : State) (e) :
    KeptM [.trackers, .mem, .prop, .bs, .fab, .arr, .cho, .lanes, .fly, .outs, .trig, .nextTag, .trkR, .flyR, .propR, .exchR, .fabR, .fltR] s (State.flyGroup s e) := by
  unfold State.flyGroup
  split; refine KeptM.stuck ?_; exact Kept.refl _ _; split; refine KeptM.stuck ?_; exact Kept.refl _ _
  extract_lets +onlyGivenNames x0; clear_value x0; extract_lets +onlyGivenNames x1; clear_value x1
  extract_lets +onlyGivenNames x2; refine Kept.cutR (x := x2) ?_ ?_; unfold x2
  refine Kept.step (kept_pagesReady ..) (by decide) ?_; exact Kept.refl _ _; clear_value x2; intro h3
  refine KeptM.ite ?_ ?_; refine KeptM.stuck ?_; refine Kept.step (kept_updXfer ..) (by decide) ?_; assumption
  refine KeptM.step (kept_moveGroup ..) (by decide) ?_; refine Kept.step (kept_readIndices ..) (by decide) ?_
  exact Kept.refl _ _

theorem kept_flyLoop (a0) (a1) (a2 : State) :
    Kept [.trackers, .mem, .prop, .bs, .fab, .arr, .cho, .lanes, .fly, .outs, .trig, .nextTag, .trkR, .flyR, .propR, .exchR, .fabR, .fltR] a2 (State.flyLoop a0 a1 a2) := by
  induction a0 generalizing a2 with
  | zero => exact Kept.refl _ _
  | succ n ih =>
    unfold State.flyLoop
    split; exact Kept.refl _ _; refine Kept.ite ?_ ?_; exact Kept.refl _ _; split
    refine Kept.ofStuck (by assumption) ?_; refine KeptM.step (kept_flyGroup ..) (by decide) ?_; exact Kept.refl _ _
    refine Kept.step (ih ..) (by decide) ?_; refine Kept.ofOn (by assumption) ?_
    refine KeptM.step (kept_flyGroup ..) (by decide) ?_; exact Kept.refl _ _

theorem kept_flyMove (s : State) (e) (n) :
    Kept [.flights, .trackers, .mem, .prop, .bs, .fab, .arr, .cho, .lanes, .fly, .outs, .trig, .nextTag, .trkR, .flyR, .propR, .exchR, .fabR, .fltR] s (State.flyMove s e n) := by
  unfold State.flyMove
  refine Kept.ite ?_ ?_; exact Kept.refl _ _; refine Kept.step (kept_flyEnd ..) (by decide) ?_
  refine Kept.step (kept_flyLoop ..) (by decide) ?_; refine Kept.step (kept_flyAsk ..) (by decide) ?_
  exact Kept.refl _ _

theorem kept_hintStart (s : State) :
    Kept [.mem, .prop, .bs, .outs, .trig, .propR, .fltR] s (State.hintStart s) := by
  unfold State.hintStart
  refine Kept.ite ?_ ?_; exact Kept.refl _ _; split; exact Kept.refl _ _; extract_lets +onlyGivenNames x0
  clear_value x0; refine Kept.ite ?_ ?_; refine Kept.upd ?_; exact Kept.refl _ _; split
  refine Kept.step (kept_beginPageIn ..) (by decide) ?_; refine Kept.upd ?_; refine Kept.ofR (by assumption) ?_
  refine Kept.step (kept_getFrame ..) (by decide) ?_; exact Kept.refl _ _; refine Kept.ofR (by assumption) ?_
  refine Kept.step (kept_getFrame ..) (by decide) ?_; exact Kept.refl _ _

theorem kept_moveComplete (s : State) (src) :
    Kept [.mem, .prop, .trig, .propR, .fltR] s (State.moveComplete s src) := by
  unfold State.moveComplete
  split; exact Kept.refl _ _; extract_lets +onlyGivenNames x0; clear_value x0; extract_lets +onlyGivenNames x1
  refine Kept.cut (x := x1) ?_ ?_; unfold x1; refine Kept.upd ?_; exact Kept.refl _ _; clear_value x1; intro h2
  extract_lets +onlyGivenNames x3; refine Kept.cutR (x := x3) ?_ ?_; unfold x3
  refine Kept.step (kept_copyFrame ..) (by decide) ?_; refine Kept.step (kept_landFrame ..) (by decide) ?_; assumption
  clear_value x3; intro h4; extract_lets +onlyGivenNames x5; refine Kept.cut (x := x5) ?_ ?_; unfold x5
  refine Kept.step (kept_updPage ..) (by decide) ?_; assumption; clear_value x5; intro h6
  refine Kept.step (kept_retireNow ..) (by decide) ?_; assumption

theorem kept_propDone (s : State) (uid) :
    Kept [.flights, .queues, .prop] s (State.propDone s uid) := by
  unfold State.propDone
  refine Kept.step (kept_finishFlight ..) (by decide) ?_; extract_lets +onlyGivenNames x0
  refine Kept.cut (x := x0) ?_ ?_; unfold x0; refine Kept.step (kept_unqueue ..) (by decide) ?_; exact Kept.refl _ _
  clear_value x0; intro h1; refine Kept.upd ?_; assumption

theorem kept_propAlloc (s : State) :
    Kept [.lines, .flights, .queues, .trackers, .mem, .prop, .trig, .ctlR, .lineR, .callR, .fltR] s (State.propAlloc s) := by
  unfold State.propAlloc
  split; exact Kept.refl _ _; extract_lets +onlyGivenNames x0; clear_value x0; split
  refine Kept.step (kept_engineHalt ..) (by decide) ?_; exact Kept.refl _ _
  refine Kept.step (kept_propDone ..) (by decide) ?_; refine Kept.step (kept_startFlight ..) (by decide) ?_
  refine Kept.step (kept_allocate ..) (by decide) ?_; exact Kept.refl _ _

theorem kept_propFree (s : State) :
    Kept [.lines, .flights, .queues, .trackers, .mem, .prop, .bs, .outs, .trig, .ctlR, .lineR, .callR, .propR, .fltR] s (State.propFree s) := by
  unfold State.propFree
  split; exact Kept.refl _ _; extract_lets +onlyGivenNames x0; clear_value x0; refine Kept.ite ?_ ?_
  refine Kept.step (kept_engineHalt ..) (by decide) ?_; exact Kept.refl _ _; refine Kept.ite ?_ ?_
  refine Kept.step (kept_engineHalt ..) (by decide) ?_; exact Kept.refl _ _; refine Kept.ite ?_ ?_
  exact Kept.refl _ _; refine Kept.step (kept_pumpPages ..) (by decide) ?_
  refine Kept.step (kept_propDone ..) (by decide) ?_; refine Kept.step (kept_startFlight ..) (by decide) ?_
  refine Kept.step (kept_freeHandle ..) (by decide) ?_; exact Kept.refl _ _

theorem kept_propLock (s : State) :
    Kept [.lines, .flights, .queues, .mem, .prop, .bs, .outs, .trig, .ctlR, .lineR, .callR, .propR, .fltR] s (State.propLock s) := by
  unfold State.propLock
  split; exact Kept.refl _ _; extract_lets +onlyGivenNames x0; clear_value x0; extract_lets +onlyGivenNames x1
  clear_value x1; refine Kept.ite ?_ ?_; exact Kept.refl _ _; refine Kept.ite ?_ ?_
  refine Kept.step (kept_engineHalt ..) (by decide) ?_; exact Kept.refl _ _; extract_lets +onlyGivenNames x2
  clear_value x2; extract_lets +onlyGivenNames x3; clear_value x3; extract_lets +onlyGivenNames x4
  refine Kept.cut (x := x4) ?_ ?_; unfold x4; refine Kept.step (kept_startFlight ..) (by decide) ?_
  exact Kept.refl _ _; clear_value x4; intro h5; refine Kept.ite ?_ ?_; extract_lets +onlyGivenNames x6
  refine Kept.cut (x := x6) ?_ ?_; unfold x6; refine Kept.fold _ (fun u7 y8 => ?_) ?_
  refine Kept.step (kept_updPage ..) (by decide) ?_; exact Kept.refl _ _; assumption; clear_value x6; intro h9
  refine Kept.step (kept_propDone ..) (by decide) ?_; refine Kept.step (kept_setHandle ..) (by decide) ?_; assumption
  refine Kept.ite ?_ ?_; extract_lets +onlyGivenNames x10; refine Kept.cut (x := x10) ?_ ?_; unfold x10
  refine Kept.fold _ (fun u11 y12 => ?_) ?_; refine Kept.step (kept_updPage ..) (by decide) ?_; exact Kept.refl _ _
  assumption; clear_value x10; intro h13; refine Kept.step (kept_propDone ..) (by decide) ?_
  refine Kept.step (kept_setHandle ..) (by decide) ?_; assumption; extract_lets +onlyGivenNames x14; clear_value x14
  extract_lets +onlyGivenNames x15; refine Kept.cut (x := x15) ?_ ?_; unfold x15; refine Kept.upd ?_; assumption
  clear_value x15; intro h16; refine Kept.fold _ (fun u17 y18 => ?_) ?_
  refine Kept.step (kept_demandPage ..) (by decide) ?_; exact Kept.refl _ _; assumption

theorem kept_propMirror (s : State) :
    Kept [.lines, .flights, .queues, .prop, .trig, .ctlR, .lineR, .callR, .fltR] s (State.propMirror s) := by
  unfold State.propMirror
  split; exact Kept.refl _ _; extract_lets +onlyGivenNames x0; clear_value x0; split
  refine Kept.step (kept_engineHalt ..) (by decide) ?_; exact Kept.refl _ _; extract_lets +onlyGivenNames x1
  clear_value x1; extract_lets +onlyGivenNames x2; clear_value x2; extract_lets +onlyGivenNames x3
  refine Kept.cut (x := x3) ?_ ?_; unfold x3; refine Kept.ite ?_ ?_; refine Kept.ite ?_ ?_
  refine Kept.step (kept_unpair ..) (by decide) ?_; exact Kept.refl _ _; exact Kept.refl _ _
  refine Kept.step (kept_setHandle ..) (by decide) ?_; refine Kept.step (kept_setHandle ..) (by decide) ?_
  exact Kept.refl _ _; clear_value x3; intro h4; refine Kept.step (kept_propDone ..) (by decide) ?_
  refine Kept.step (kept_startFlight ..) (by decide) ?_; assumption

theorem kept_propPageIn (s : State) :
    Kept [.lines, .flights, .queues, .prop, .trig, .ctlR, .lineR, .callR, .fltR] s (State.propPageIn s) := by
  unfold State.propPageIn
  split; exact Kept.refl _ _; extract_lets +onlyGivenNames x0; clear_value x0; split
  refine Kept.step (kept_engineHalt ..) (by decide) ?_; exact Kept.refl _ _; extract_lets +onlyGivenNames x1
  refine Kept.cut (x := x1) ?_ ?_; unfold x1; refine Kept.step (kept_startFlight ..) (by decide) ?_
  exact Kept.refl _ _; clear_value x1; intro h2; extract_lets +onlyGivenNames x3; clear_value x3
  extract_lets +onlyGivenNames x4; refine Kept.cut (x := x4) ?_ ?_; unfold x4
  refine Kept.iterWhile _ (fun u5 => ?_) ?_; split; exact KeptO.none _ _; extract_lets +onlyGivenNames x6
  clear_value x6; refine KeptO.ite ?_ ?_; refine KeptO.some ?_; refine Kept.upd ?_; exact Kept.refl _ _
  refine KeptO.ite ?_ ?_; exact KeptO.none _ _; refine KeptO.some ?_; refine Kept.upd ?_; exact Kept.refl _ _
  assumption; clear_value x4; intro h7; refine Kept.ite ?_ ?_; refine Kept.step (kept_propDone ..) (by decide) ?_
  assumption; refine Kept.upd ?_; assumption

theorem kept_propPageOut (s : State) :
    Kept [.lines, .flights, .queues, .mem, .prop, .bs, .outs, .trig, .ctlR, .lineR, .callR, .propR, .fltR] s (State.propPageOut s) := by
  unfold State.propPageOut
  split; exact Kept.refl _ _; extract_lets +onlyGivenNames x0; clear_value x0; extract_lets +onlyGivenNames x1
  clear_value x1; split; refine Kept.step (kept_engineHalt ..) (by decide) ?_; exact Kept.refl _ _
  extract_lets +onlyGivenNames x2; clear_value x2; extract_lets +onlyGivenNames x3; clear_value x3
  extract_lets +onlyGivenNames x4; refine Kept.cut (x := x4) ?_ ?_; unfold x4; refine Kept.ite ?_ ?_
  refine Kept.step (kept_count ..) (by decide) ?_; exact Kept.refl _ _; exact Kept.refl _ _; clear_value x4; intro h5
  extract_lets +onlyGivenNames x6; refine Kept.cut (x := x6) ?_ ?_; unfold x6
  refine Kept.step (kept_startFlight ..) (by decide) ?_; assumption; clear_value x6; intro h7
  extract_lets +onlyGivenNames x8; clear_value x8; extract_lets +onlyGivenNames x9; refine Kept.cut (x := x9) ?_ ?_
  unfold x9; refine Kept.upd ?_; assumption; clear_value x9; intro h10; extract_lets +onlyGivenNames x11
  refine Kept.cut (x := x11) ?_ ?_; unfold x11; refine Kept.fold _ (fun u12 y13 => ?_) ?_
  extract_lets +onlyGivenNames x14; refine Kept.ite ?_ ?_; exact Kept.refl _ _; refine Kept.ite ?_ ?_
  extract_lets +onlyGivenNames x15; refine Kept.cutR (x := x15) ?_ ?_; unfold x15
  refine Kept.step (kept_startWriteBack ..) (by decide) ?_; exact Kept.refl _ _; clear_value x15; intro h16
  refine Kept.ite ?_ ?_; assumption; refine Kept.step (kept_count ..) (by decide) ?_; assumption
  refine Kept.step (kept_setPage ..) (by decide) ?_; exact Kept.refl _ _; assumption; clear_value x11; intro h17
  extract_lets +onlyGivenNames x18; refine Kept.cut (x := x18) ?_ ?_; unfold x18
  refine Kept.step (kept_pumpPages ..) (by decide) ?_; assumption; clear_value x18; intro h19; refine Kept.ite ?_ ?_
  assumption; refine Kept.step (kept_propDone ..) (by decide) ?_; assumption

theorem kept_scrubEnd (s : State) :
    Kept [.mem, .propR] s (State.scrubEnd s) := by
  unfold State.scrubEnd
  refine Kept.ite ?_ ?_; exact Kept.refl _ _; refine Kept.step (kept_countMod ..) (by decide) ?_; refine Kept.upd ?_
  exact Kept.refl _ _

theorem kept_scrubRead (s : State) (bank) (upset) :
    Kept [.mem, .prop, .trig, .powerR, .propR, .fltR] s (State.scrubRead s bank upset) := by
  unfold State.scrubRead
  refine Kept.ite ?_ ?_; exact Kept.refl _ _; extract_lets +onlyGivenNames x0; clear_value x0; split
  exact Kept.refl _ _; extract_lets +onlyGivenNames x1; clear_value x1; extract_lets +onlyGivenNames x2
  clear_value x2; extract_lets +onlyGivenNames x3; extract_lets +onlyGivenNames x4; refine Kept.cut (x := x4) ?_ ?_
  unfold x4; refine Kept.upd ?_; exact Kept.refl _ _; clear_value x4; intro h5
  refine Kept.step (kept_leaveIdle ..) (by decide) ?_; refine Kept.step (kept_readWord ..) (by decide) ?_; assumption

theorem kept_transferActivate (s : State) (e) :
    Kept [.flights, .mem, .prop, .bs, .arr, .fly, .outs, .trig, .flyR, .propR, .fltR] s (State.transferActivate s e) := by
  unfold State.transferActivate
  split; split; exact Kept.refl _ _; extract_lets +onlyGivenNames x0; clear_value x0; refine Kept.ite ?_ ?_
  exact Kept.refl _ _; extract_lets +onlyGivenNames x1; clear_value x1; extract_lets +onlyGivenNames x2
  extract_lets +onlyGivenNames x3; refine Kept.cut (x := x3) ?_ ?_; unfold x3
  refine Kept.step (kept_startFlight ..) (by decide) ?_; exact Kept.refl _ _; clear_value x3; intro h4
  extract_lets +onlyGivenNames x5; refine Kept.cut (x := x5) ?_ ?_; unfold x5; refine Kept.ite ?_ ?_
  refine Kept.step (kept_count ..) (by simp) ?_; assumption; assumption; clear_value x5; intro h6
  extract_lets +onlyGivenNames x7; clear_value x7; refine Kept.ite ?_ ?_
  refine Kept.step (kept_flySettle ..) (by decide) ?_; refine Kept.step (kept_setFly ..) (by decide) ?_; assumption
  extract_lets +onlyGivenNames x8; clear_value x8; extract_lets +onlyGivenNames x9; refine Kept.cut (x := x9) ?_ ?_
  unfold x9; refine Kept.step (kept_takeHalf ..) (by decide) ?_; refine Kept.step (kept_setFly ..) (by decide) ?_
  assumption; clear_value x9; intro h10; extract_lets +onlyGivenNames x11; clear_value x11
  extract_lets +onlyGivenNames x12; refine Kept.cutR (x := x12) ?_ ?_; unfold x12
  refine Kept.step (kept_pagesReady ..) (by decide) ?_; assumption; clear_value x12; intro h13; split
  refine Kept.step (kept_setXfer ..) (by decide) ?_; assumption; assumption; exact Kept.refl _ _

theorem kept_transferArm (s : State) (e) :
    Kept [.lines, .flights, .queues, .mem, .prop, .fly, .trig, .ctlR, .lineR, .callR, .propR, .fltR] s (State.transferArm s e) := by
  unfold State.transferArm
  split; extract_lets +onlyGivenNames x0; clear_value x0; extract_lets +onlyGivenNames x1; clear_value x1
  refine Kept.ite ?_ ?_; refine Kept.step (kept_engineHalt ..) (by decide) ?_
  refine Kept.step (kept_count ..) (by decide) ?_; exact Kept.refl _ _; extract_lets +onlyGivenNames x2
  refine Kept.cutR (x := x2) ?_ ?_; unfold x2; refine Kept.step (kept_readPlain ..) (by decide) ?_
  exact Kept.refl _ _; clear_value x2; intro h3; extract_lets +onlyGivenNames x4; refine Kept.cut (x := x4) ?_ ?_
  unfold x4; assumption; clear_value x4; intro h5; refine Kept.ite ?_ ?_
  refine Kept.step (kept_engineHalt ..) (by decide) ?_; assumption; split
  refine Kept.step (kept_engineHalt ..) (by decide) ?_; assumption; split
  refine Kept.step (kept_engineHalt ..) (by decide) ?_; assumption; extract_lets +onlyGivenNames x6; clear_value x6
  refine Kept.step (kept_setFly ..) (by decide) ?_; refine Kept.step (kept_unqueueAt ..) (by decide) ?_; assumption
  exact Kept.refl _ _

end Sys2Proof.Machine
end

