-- ==== Sys2Proof/Laws/KeptHost.lean ====
section
/-! SUPPORT. What the functions of what follows a command, the host port, the Prompter and the callboard leave unchanged: one lemma
per function, whose list is all it can change. -/

namespace Sys2Proof.Machine

set_option Elab.async false

theorem kept_abandonCurtains (s : State) (l) :
    Kept [.flights, .board] s (State.abandonCurtains s l) := by
  unfold State.abandonCurtains
  extract_lets +onlyGivenNames x0; extract_lets +onlyGivenNames x1; extract_lets +onlyGivenNames x2
  refine Kept.cut (x := x2) ?_ ?_; unfold x2; refine Kept.iter _ (fun u3 y4 => ?_) ?_; refine Kept.ite ?_ ?_
  refine Kept.step (kept_setTree ..) (by decide) ?_; exact Kept.refl _ _; exact Kept.refl _ _; exact Kept.refl _ _
  clear_value x2; intro h5; refine Kept.fold _ (fun u6 y7 => ?_) ?_
  refine Kept.step (kept_dropFlight ..) (by decide) ?_; exact Kept.refl _ _; assumption

theorem kept_pumpPosts (s : State) :
    Kept [.fab, .outs, .trig, .exchR, .fabR, .fltR] s (State.pumpPosts s) := by
  unfold State.pumpPosts
  refine Kept.fold _ (fun u0 y1 => ?_) ?_; split; exact Kept.refl _ _; refine Kept.ite ?_ ?_; exact Kept.refl _ _
  extract_lets +onlyGivenNames x2; clear_value x2; extract_lets +onlyGivenNames x3; refine Kept.cut (x := x3) ?_ ?_
  unfold x3; refine Kept.upd ?_; exact Kept.refl _ _; clear_value x3; intro h4
  refine Kept.step (kept_sendPost ..) (by decide) ?_; assumption; exact Kept.refl _ _

theorem kept_ccStray (s : State) :
    Kept [.callR] s (State.ccStray s) := by
  unfold State.ccStray
  refine Kept.step (kept_count ..) (by decide) ?_; exact Kept.refl _ _

theorem kept_arrival (s : State) (k) (seq) (child) :
    Kept [.flights, .board, .fab, .outs, .trig, .callR, .exchR, .fabR, .fltR] s (State.arrival s k seq child) := by
  unfold State.arrival
  extract_lets +onlyGivenNames x0; clear_value x0; refine Kept.ite ?_ ?_
  refine Kept.step (kept_ccStray ..) (by decide) ?_; exact Kept.refl _ _; refine Kept.ite ?_ ?_; refine Kept.ite ?_ ?_
  refine Kept.step (kept_ccArrive ..) (by decide) ?_; refine Kept.step (kept_setTree ..) (by decide) ?_
  exact Kept.refl _ _; refine Kept.step (kept_ccStray ..) (by decide) ?_; exact Kept.refl _ _; refine Kept.ite ?_ ?_
  refine Kept.ite ?_ ?_; refine Kept.step (kept_setTree ..) (by decide) ?_; exact Kept.refl _ _
  refine Kept.step (kept_ccStray ..) (by decide) ?_; exact Kept.refl _ _
  refine Kept.step (kept_ccStray ..) (by decide) ?_; exact Kept.refl _ _

theorem kept_snapshot (s : State) (off) : Kept [.propR, .exchR] s (State.snapshot s off) := by
  unfold State.snapshot
  refine Kept.ite' (fun h => ?_) fun _ => Kept.ite' (fun h => ?_) fun _ => Kept.ite' (fun h => ?_) fun _ => Kept.refl _ _
  · subst h
    refine kept_setRegs _ _ _ fun i hi => ?_
    have : i < 32 := Nat.lt_of_lt_of_le hi (by simp [Page.words])
    rw [Field.ofReg_propR (by unfold R.propDesc; omega) (by unfold R.propDesc; omega)]; decide
  · subst h
    refine kept_setRegs _ _ _ fun i hi => ?_
    have : i < 32 := Nat.lt_of_lt_of_le hi (by simp [Handle.words])
    rw [Field.ofReg_propR (by unfold R.propHnd; omega) (by unfold R.propHnd; omega)]; decide
  · subst h
    refine kept_setRegs _ _ _ fun i hi => ?_
    have : i < 32 := by simpa using hi
    rw [Field.ofReg_exchR (by unfold R.exchBkt; omega) (by unfold R.exchBkt; omega)]; decide

theorem kept_discardQueued (s : State) (l) :
    Kept [.flights, .queues, .arr, .cho, .gangs, .fly] s (State.discardQueued s l) := by
  unfold State.discardQueued
  extract_lets +onlyGivenNames x0; clear_value x0; extract_lets +onlyGivenNames x1; clear_value x1
  refine Kept.fold _ (fun u2 y3 => ?_) ?_; refine Kept.step (kept_dropRuns ..) (by decide) ?_
  refine Kept.step (kept_dropFlight ..) (by decide) ?_; refine Kept.step (kept_unqueue ..) (by decide) ?_
  exact Kept.refl _ _; refine Kept.upd ?_; exact Kept.refl _ _

theorem kept_dropCalls (s : State) (l) :
    Kept [.flights] s (State.dropCalls s l) := by
  unfold State.dropCalls
  refine Kept.upd ?_; exact Kept.refl _ _

theorem kept_dropLineArrays (s : State) (l) :
    Kept [.flights, .arr, .cho] s (State.dropLineArrays s l) := by
  unfold State.dropLineArrays
  extract_lets +onlyGivenNames x0; refine Kept.cut (x := x0) ?_ ?_; unfold x0
  refine Kept.step (kept_dropTiles ..) (by decide) ?_; exact Kept.refl _ _; clear_value x0; intro h1
  refine Kept.upd ?_; assumption

theorem kept_stopUnit (s : State) (u) (f) :
    Kept [.flights, .queues, .arr, .cho, .gangs, .choR] s (State.stopUnit s u f) := by
  unfold State.stopUnit
  extract_lets +onlyGivenNames x0; clear_value x0; extract_lets +onlyGivenNames x1; refine Kept.cut (x := x1) ?_ ?_
  unfold x1; refine Kept.step (kept_closeRun ..) (by decide) ?_; refine Kept.step (kept_countMod ..) (by simp) ?_
  exact Kept.refl _ _; clear_value x1; intro h2; extract_lets +onlyGivenNames x3; refine Kept.cut (x := x3) ?_ ?_
  unfold x3; split; refine Kept.step (kept_unitDone ..) (by decide) ?_
  refine Kept.step (kept_unqueueAt ..) (by decide) ?_; assumption; assumption; clear_value x3; intro h4; split
  refine Kept.ite ?_ ?_; refine Kept.upd ?_; assumption; assumption; assumption

theorem kept_stopXfer (s : State) (e) (f) (x) :
    Kept [.flights, .arr, .fly, .flyR] s (State.stopXfer s e f x) := by
  unfold State.stopXfer
  extract_lets +onlyGivenNames x0; clear_value x0; refine Kept.ite ?_ ?_
  refine Kept.step (kept_releaseActive ..) (by decide) ?_; exact Kept.refl _ _
  refine Kept.step (kept_setXfer ..) (by decide) ?_; exact Kept.refl _ _

theorem kept_stopWaiting (s : State) (l) :
    Kept [.flights, .queues, .arr, .cho, .gangs, .fly, .exch, .flyR, .choR] s (State.stopWaiting s l) := by
  unfold State.stopWaiting
  extract_lets +onlyGivenNames x0; refine Kept.cut (x := x0) ?_ ?_; unfold x0; refine Kept.iter _ (fun u1 y2 => ?_) ?_
  split; refine Kept.ite ?_ ?_; refine Kept.step (kept_stopUnit ..) (by decide) ?_; exact Kept.refl _ _
  exact Kept.refl _ _; exact Kept.refl _ _; exact Kept.refl _ _; clear_value x0; intro h3
  extract_lets +onlyGivenNames x4; clear_value x4; extract_lets +onlyGivenNames x5; refine Kept.cut (x := x5) ?_ ?_
  unfold x5; split; split; refine Kept.ite ?_ ?_; refine Kept.step (kept_finishFlight ..) (by decide) ?_
  refine Kept.step (kept_unqueue ..) (by decide) ?_; refine Kept.upd ?_; assumption; assumption; assumption
  assumption; clear_value x5; intro h6; refine Kept.iter _ (fun u7 y8 => ?_) ?_; split; split; refine Kept.ite ?_ ?_
  refine Kept.step (kept_stopXfer ..) (by decide) ?_; exact Kept.refl _ _; exact Kept.refl _ _; exact Kept.refl _ _
  exact Kept.refl _ _; assumption

theorem kept_beginReset (s : State) (l) :
    Kept [.lines, .flights, .queues, .board, .arr, .cho, .gangs, .fly, .exch, .callR, .flyR, .choR] s (State.beginReset s l) := by
  unfold State.beginReset
  extract_lets +onlyGivenNames x0; refine Kept.cut (x := x0) ?_ ?_; unfold x0
  refine Kept.step (kept_updLine ..) (by decide) ?_; exact Kept.refl _ _; clear_value x0; intro h1
  refine Kept.ite ?_ ?_; assumption; extract_lets +onlyGivenNames x2; refine Kept.cut (x := x2) ?_ ?_; unfold x2
  refine Kept.step (kept_dropLineArrays ..) (by decide) ?_; refine Kept.step (kept_abandonCurtains ..) (by decide) ?_
  refine Kept.step (kept_discardQueued ..) (by decide) ?_; assumption; clear_value x2; intro h3
  extract_lets +onlyGivenNames x4; refine Kept.cut (x := x4) ?_ ?_; unfold x4
  refine Kept.step (kept_dropCalls ..) (by decide) ?_; assumption; clear_value x4; intro h5
  extract_lets +onlyGivenNames x6; refine Kept.cut (x := x6) ?_ ?_; unfold x6; refine Kept.upd ?_; assumption
  clear_value x6; intro h7; refine Kept.step (kept_progress ..) (by decide) ?_
  refine Kept.step (kept_stopWaiting ..) (by decide) ?_; assumption

theorem kept_ccClear (s : State) (k) (v) :
    Kept [.board] s (State.ccClear s k v) := by
  unfold State.ccClear
  refine Kept.ite ?_ ?_; exact Kept.refl _ _; refine Kept.step (kept_setTree ..) (by decide) ?_; exact Kept.refl _ _

theorem kept_hostHalt (s : State) (l) :
    Kept [.lines, .trig, .ctlR, .lineR, .callR, .fltR] s (State.hostHalt s l) := by
  unfold State.hostHalt
  extract_lets +onlyGivenNames x0; clear_value x0; refine Kept.ite ?_ ?_; exact Kept.refl _ _
  extract_lets +onlyGivenNames x1; refine Kept.cut (x := x1) ?_ ?_; unfold x1
  refine Kept.step (kept_halt ..) (by decide) ?_; exact Kept.refl _ _; clear_value x1; intro h2; refine Kept.ite ?_ ?_
  assumption; refine Kept.step (kept_updLine ..) (by decide) ?_; assumption

theorem kept_skipHalted (s : State) (l) :
    Kept [.lines, .fetchers, .mem, .prop, .trig, .splitR, .propR, .fltR] s (State.skipHalted s l) := by
  unfold State.skipHalted
  extract_lets +onlyGivenNames x0; clear_value x0; extract_lets +onlyGivenNames x1; refine Kept.cut (x := x1) ?_ ?_
  unfold x1; refine Kept.ite ?_ ?_; refine Kept.step (kept_setLine ..) (by decide) ?_; exact Kept.refl _ _
  exact Kept.refl _ _; clear_value x1; intro h2; refine Kept.iter _ (fun u3 y4 => ?_) ?_
  extract_lets +onlyGivenNames x5; clear_value x5; refine Kept.ite ?_ ?_; extract_lets +onlyGivenNames x6
  clear_value x6; refine Kept.step (kept_setReg ..) (by simp) ?_; refine Kept.step (kept_setFetcher ..) (by decide) ?_
  exact Kept.refl _ _; exact Kept.refl _ _; assumption

theorem kept_resume (s : State) (l) (skip) :
    Kept [.lines, .fetchers, .mem, .prop, .trig, .splitR, .propR, .fltR] s (State.resume s l skip) := by
  unfold State.resume
  extract_lets +onlyGivenNames x0; clear_value x0; refine Kept.ite ?_ ?_; exact Kept.refl _ _
  extract_lets +onlyGivenNames x1; refine Kept.cut (x := x1) ?_ ?_; unfold x1; refine Kept.ite ?_ ?_
  refine Kept.step (kept_skipHalted ..) (by decide) ?_; exact Kept.refl _ _; exact Kept.refl _ _
  clear_value x1; intro h2; extract_lets +onlyGivenNames x3; refine Kept.cut (x := x3) ?_ ?_; unfold x3
  refine Kept.step (kept_updLine ..) (by decide) ?_; assumption; clear_value x3; intro h4
  refine Kept.iter _ (fun u5 y6 => ?_) ?_; extract_lets +onlyGivenNames x7; clear_value x7; refine Kept.ite ?_ ?_
  refine Kept.step (kept_setFetcher ..) (by decide) ?_; exact Kept.refl _ _; exact Kept.refl _ _; assumption

theorem kept_lineCtrlWrite (s : State) (l) (v) :
    Kept [.secret, .lines, .fetchers, .flights, .queues, .board, .mem, .prop, .arr, .cho, .gangs, .fly, .exch, .trig, .ctlR, .doorR, .lineR, .splitR, .callR, .flyR, .propR, .choR, .fltR] s (State.lineCtrlWrite s l v) := by
  unfold State.lineCtrlWrite
  refine Kept.ite ?_ ?_; refine Kept.step (kept_beginReset ..) (by decide) ?_
  refine Kept.step (kept_resetDoor ..) (by decide) ?_; exact Kept.refl _ _; refine Kept.ite ?_ ?_
  refine Kept.step (kept_hostHalt ..) (by decide) ?_; exact Kept.refl _ _; refine Kept.ite ?_ ?_
  refine Kept.step (kept_resume ..) (by decide) ?_; exact Kept.refl _ _; exact Kept.refl _ _

theorem kept_repWrite (s : State) (off) (v) :
    Kept [.rep, .repBad, .lineR] s (State.repWrite s off v) := by
  unfold State.repWrite
  refine Kept.ite ?_ ?_; exact Kept.refl _ _; refine Kept.ite ?_ ?_; refine Kept.step (kept_count ..) (by decide) ?_
  exact Kept.refl _ _; refine Kept.upd ?_; exact Kept.refl _ _

theorem kept_closeRing (s : State) (l) :
    Kept [.lines, .flights, .queues, .trackers, .prop, .arr, .cho, .gangs, .fly, .lineR, .callR] s (State.closeRing s l) := by
  unfold State.closeRing
  extract_lets +onlyGivenNames x0; clear_value x0; extract_lets +onlyGivenNames x1; refine Kept.cut (x := x1) ?_ ?_
  unfold x1; refine Kept.step (kept_setReg ..) (by simp) ?_; refine Kept.step (kept_freeHandle ..) (by decide) ?_
  refine Kept.step (kept_dropCalls ..) (by decide) ?_; refine Kept.step (kept_discardQueued ..) (by decide) ?_
  exact Kept.refl _ _; clear_value x1; intro h2; extract_lets +onlyGivenNames x3; refine Kept.cut (x := x3) ?_ ?_
  unfold x3; refine Kept.step (kept_setReg ..) (by simp) ?_; assumption; clear_value x3; intro h4
  refine Kept.step (kept_updLine ..) (by decide) ?_; assumption

theorem kept_openRing (s : State) (l) (size) (h) :
    Kept [.lines, .trackers, .mem, .prop, .lineR] s (State.openRing s l size h) := by
  unfold State.openRing
  extract_lets +onlyGivenNames x0; refine Kept.cut (x := x0) ?_ ?_; unfold x0
  refine Kept.step (kept_allocate ..) (by decide) ?_; exact Kept.refl _ _; clear_value x0; intro h1
  extract_lets +onlyGivenNames x2; refine Kept.cut (x := x2) ?_ ?_; unfold x2
  refine Kept.step (kept_setReg ..) (by simp) ?_; assumption; clear_value x2; intro h3
  extract_lets +onlyGivenNames x4; refine Kept.cut (x := x4) ?_ ?_; unfold x4
  refine Kept.step (kept_setReg ..) (by simp) ?_; assumption; clear_value x4; intro h5
  refine Kept.step (kept_updLine ..) (by decide) ?_; assumption

theorem kept_ringAct (s : State) (l v) : Kept [.lines, .flights, .queues, .trackers, .mem, .prop, .arr, .cho, .gangs, .fly, .lineR, .callR] s (State.ringAct s l v) := by
  unfold State.ringAct
  dsimp only
  split; refine Kept.step (kept_setF ..) (by simp) ?_; exact Kept.refl _ _; refine Kept.ite ?_ ?_
  refine Kept.ite ?_ ?_; refine Kept.step (kept_setF ..) (by simp) ?_; exact Kept.refl _ _
  refine Kept.step (kept_setReg ..) (by simp) ?_; refine Kept.step (kept_closeRing ..) (by decide) ?_
  exact Kept.refl _ _; refine Kept.ite ?_ ?_; refine Kept.step (kept_openRing ..) (by decide) ?_; exact Kept.refl _ _
  refine Kept.step (kept_setReg ..) (by simp) ?_; exact Kept.refl _ _

theorem kept_ringWrite (s : State) (l v) : Kept [.lines, .flights, .queues, .trackers, .mem, .prop, .arr, .cho, .gangs, .fly, .lineR, .callR] s (State.ringWrite s l v) := by
  unfold State.ringWrite
  dsimp only
  refine Kept.ite ?_ ?_; refine Kept.step (kept_setLine ..) (by decide) ?_; exact Kept.refl _ _
  refine Kept.step (kept_ringAct ..) (by decide) ?_; exact Kept.refl _ _

theorem kept_boardUpset (s : State) (l) :
    Kept [.lines, .trig, .ctlR, .lineR, .callR, .fltR] s (State.boardUpset s l) := by
  unfold State.boardUpset
  refine Kept.fold _ (fun u0 y1 => ?_) ?_; refine Kept.step (kept_tableUpset ..) (by decide) ?_; exact Kept.refl _ _
  exact Kept.refl _ _

theorem kept_callSet (s : State) (v) :
    Kept [.board, .callR] s (State.callSet s v) := by
  unfold State.callSet
  extract_lets +onlyGivenNames x0; clear_value x0; refine Kept.ite ?_ ?_
  refine Kept.step (kept_setB ..) (by decide) ?_; exact Kept.refl _ _
  refine Kept.step (kept_setCnt ..) (by decide) ?_; exact Kept.refl _ _

theorem kept_spreadFlits (s : State) (t) :
    Kept [.fab, .outs, .fabR] s (State.spreadFlits s t) := by
  unfold State.spreadFlits
  refine Kept.iter _ (fun u0 y1 => ?_) ?_; refine Kept.ite ?_ ?_; refine Kept.step (kept_routeOut ..) (by decide) ?_
  exact Kept.refl _ _; exact Kept.refl _ _; exact Kept.refl _ _

theorem kept_capture (s : State) (t) :
    Kept [.pins, .fab, .tab, .outs, .freeCtr, .fabR, .tabR] s (State.capture s t) := by
  unfold State.capture
  extract_lets +onlyGivenNames x0; clear_value x0; extract_lets +onlyGivenNames x1; clear_value x1
  extract_lets +onlyGivenNames x2; refine Kept.cutR (x := x2) ?_ ?_; unfold x2
  refine Kept.step (kept_fresh ..) (by decide) ?_; exact Kept.refl _ _; clear_value x2; intro h3
  extract_lets +onlyGivenNames x4; refine Kept.cut (x := x4) ?_ ?_; unfold x4
  refine Kept.step (kept_countMod ..) (by decide) ?_; assumption; clear_value x4; intro h5
  extract_lets +onlyGivenNames x6; clear_value x6; extract_lets +onlyGivenNames x7; clear_value x7
  extract_lets +onlyGivenNames x8; clear_value x8; extract_lets +onlyGivenNames x9; refine Kept.cut (x := x9) ?_ ?_
  unfold x9; refine Kept.upd ?_; assumption; clear_value x9; intro h10; extract_lets +onlyGivenNames x11
  refine Kept.cut (x := x11) ?_ ?_; unfold x11; refine Kept.step (kept_setReg ..) (by decide) ?_; assumption
  clear_value x11; intro h12; refine Kept.ite ?_ ?_; refine Kept.step (kept_spreadFlits ..) (by decide) ?_; assumption
  assumption

theorem kept_clearRc (s : State) (off) : Kept [.ctlR, .bookR, .doorR, .powerR, .lineR, .splitR, .callR, .trkR, .flyR, .propR, .arrR, .choR, .exchR, .fabR, .tabR, .fltR] s (State.clearRc s off) :=
  Kept.ite (kept_setReg_any ..) (Kept.refl _ _)

theorem kept_closePass (s : State) (c) :
    Kept [.trackers] s (State.closePass s c) := by
  unfold State.closePass
  refine Kept.ite ?_ ?_; refine Kept.step (kept_handlePassClose ..) (by decide) ?_; exact Kept.refl _ _
  exact Kept.refl _ _

theorem kept_commit (s : State) (l) (c) :
    Kept [.lines, .mem, .prop, .trig, .powerR, .propR, .fltR] s (State.commit s l c) := by
  unfold State.commit
  extract_lets +onlyGivenNames x0; clear_value x0; extract_lets +onlyGivenNames x1; refine Kept.cut (x := x1) ?_ ?_
  unfold x1; refine Kept.step (kept_land ..) (by decide) ?_; refine Kept.step (kept_leaveIdle ..) (by decide) ?_
  exact Kept.refl _ _; clear_value x1; intro h2; refine Kept.step (kept_updLine ..) (by decide) ?_; assumption

theorem kept_remotePost (s : State) (q) (dst) (k) (d) :
    Kept [.fab, .outs, .trig, .nextTag, .exchR, .fabR, .fltR] s (State.remotePost s q dst k d) := by
  unfold State.remotePost
  extract_lets +onlyGivenNames x0; refine Kept.cutR (x := x0) ?_ ?_; unfold x0
  refine Kept.step (kept_newTag ..) (by decide) ?_; exact Kept.refl _ _; clear_value x0; intro h1
  extract_lets +onlyGivenNames x2; clear_value x2; refine Kept.step (kept_pumpPosts ..) (by decide) ?_
  extract_lets +onlyGivenNames x3; refine Kept.cut (x := x3) ?_ ?_; unfold x3; assumption; clear_value x3; intro h4
  refine Kept.upd ?_; assumption

theorem kept_onePost (s : State) (q) (w) :
    Kept [.board, .fab, .outs, .trig, .nextTag, .callR, .exchR, .fabR, .fltR] s (State.onePost s q w) := by
  unfold State.onePost
  extract_lets +onlyGivenNames x0; clear_value x0; extract_lets +onlyGivenNames x1; clear_value x1
  refine Kept.ite ?_ ?_; refine Kept.step (kept_post ..) (by decide) ?_; exact Kept.refl _ _; split
  exact Kept.refl _ _; refine Kept.ite ?_ ?_; refine Kept.step (kept_post ..) (by decide) ?_; exact Kept.refl _ _
  refine Kept.step (kept_remotePost ..) (by decide) ?_; exact Kept.refl _ _

theorem kept_makePosts (s : State) (q) :
    Kept [.lines, .board, .fab, .outs, .trig, .nextTag, .ctlR, .lineR, .callR, .exchR, .fabR, .fltR] s (State.makePosts s q) := by
  unfold State.makePosts
  extract_lets +onlyGivenNames x0; clear_value x0; extract_lets +onlyGivenNames x1; refine Kept.cut (x := x1) ?_ ?_
  unfold x1; refine Kept.fold _ (fun u2 y3 => ?_) ?_; refine Kept.step (kept_onePost ..) (by decide) ?_
  exact Kept.refl _ _; exact Kept.refl _ _; clear_value x1; intro h4; refine Kept.ite ?_ ?_
  refine Kept.step (kept_halt ..) (by decide) ?_; assumption; assumption

theorem kept_complete (s : State) (f) :
    Kept [.lines, .flights, .board, .trackers, .fab, .arr, .outs, .trig, .nextTag, .ctlR, .lineR, .callR, .exchR, .fabR, .fltR] s (State.complete s f) := by
  unfold State.complete
  extract_lets +onlyGivenNames x0; refine Kept.cut (x := x0) ?_ ?_; unfold x0
  refine Kept.step (kept_closePass ..) (by decide) ?_; refine Kept.step (kept_endFill ..) (by decide) ?_
  refine Kept.step (kept_dropFlight ..) (by decide) ?_; exact Kept.refl _ _; clear_value x0; intro h1
  extract_lets +onlyGivenNames x2; refine Kept.cut (x := x2) ?_ ?_; unfold x2; refine Kept.ite ?_ ?_; assumption
  refine Kept.step (kept_makePosts ..) (by decide) ?_; assumption; clear_value x2; intro h3
  extract_lets +onlyGivenNames x4; refine Kept.cut (x := x4) ?_ ?_; unfold x4
  refine Kept.step (kept_progress ..) (by decide) ?_; assumption; clear_value x4; intro h5; split
  refine Kept.ite ?_ ?_; assumption; refine Kept.step (kept_haltCore ..) (by decide) ?_; assumption; assumption

theorem kept_controlTurn (s : State) (l) (op) :
    Kept [.lines, .flights, .queues, .board, .mem, .prop, .fab, .outs, .trig, .nextUid, .ctlR, .powerR, .lineR, .callR, .trkR, .propR, .exchR, .fabR, .fltR] s (State.controlTurn s l op) := by
  unfold State.controlTurn
  refine Kept.ite ?_ ?_; exact Kept.refl _ _; extract_lets +onlyGivenNames x0; refine Kept.cut (x := x0) ?_ ?_
  unfold x0; refine Kept.step (kept_takeHeads ..) (by decide) ?_; exact Kept.refl _ _; clear_value x0; intro h1; split
  refine Kept.ite ?_ ?_; split; refine Kept.ite ?_ ?_; refine Kept.step (kept_takeTurn ..) (by decide) ?_; assumption
  exact Kept.refl _ _; exact Kept.refl _ _; exact Kept.refl _ _; exact Kept.refl _ _

theorem kept_optBlock (s : State) (a) :
    Kept [.mem, .prop, .trig, .freeCtr, .propR, .fltR] s (State.optBlock s a).2 := by
  unfold State.optBlock
  extract_lets +onlyGivenNames x0; refine Kept.cutR (x := x0) ?_ ?_; unfold x0
  refine Kept.step (kept_readPlain ..) (by decide) ?_; exact Kept.refl _ _; clear_value x0; intro h1
  extract_lets +onlyGivenNames x2; refine Kept.cutR (x := x2) ?_ ?_; unfold x2
  refine Kept.step (kept_fresh ..) (by decide) ?_; assumption; clear_value x2; intro h3
  extract_lets +onlyGivenNames x4; clear_value x4; extract_lets +onlyGivenNames x5; clear_value x5
  refine Kept.pairR ?_; refine Kept.ite ?_ ?_; assumption; assumption

theorem kept_optGrad (s : State) (h) (p) :
    Kept [.mem, .prop, .trig, .propR, .fltR] s (State.optGrad s h p).2 := by
  unfold State.optGrad
  extract_lets +onlyGivenNames x0; refine Kept.cutR (x := x0) ?_ ?_; unfold x0
  refine Kept.step (kept_readHandle ..) (by decide) ?_; exact Kept.refl _ _; clear_value x0; intro h1
  refine Kept.pairR ?_; assumption

theorem kept_optPoison (s : State) (h) (p) :
    Kept [.mem, .prop, .trig, .propR, .fltR] s (State.optPoison s h p).2 := by
  unfold State.optPoison
  extract_lets +onlyGivenNames x0; refine Kept.cutR (x := x0) ?_ ?_; unfold x0
  refine Kept.step (kept_readHandle ..) (by decide) ?_; exact Kept.refl _ _; clear_value x0; intro h1
  refine Kept.pairR ?_; assumption

theorem kept_optRead (s : State) (h) (i) :
    Kept [.mem, .prop, .trig, .propR, .fltR] s (State.optRead s h i).2 := by
  unfold State.optRead
  extract_lets +onlyGivenNames x0; refine Kept.cutR (x := x0) ?_ ?_; unfold x0
  refine Kept.step (kept_readHandle ..) (by decide) ?_; exact Kept.refl _ _; clear_value x0; intro h1
  refine Kept.pairR ?_; assumption

theorem kept_putHandleBytes (s : State) (h) (b) (l) :
    Kept [.mem, .prop, .trig, .propR, .fltR] s (State.putHandleBytes s h b l) := by
  unfold State.putHandleBytes
  split; exact Kept.refl _ _; refine Kept.ite ?_ ?_; exact Kept.refl _ _
  refine Kept.step (kept_touch ..) (by decide) ?_; refine Kept.step (kept_landWord ..) (by decide) ?_
  exact Kept.refl _ _

theorem kept_optElem (s : State) (o) (k) (p) :
    Kept [.mem, .prop, .trig, .propR, .choR, .exchR, .fltR] s (State.optElem s o k p) := by
  unfold State.optElem
  extract_lets +onlyGivenNames x0; refine Kept.cutR (x := x0) ?_ ?_; unfold x0
  refine Kept.step (kept_optGrad ..) (by decide) ?_; exact Kept.refl _ _; clear_value x0; intro h1
  extract_lets +onlyGivenNames x2; refine Kept.cutR (x := x2) ?_ ?_; unfold x2
  refine Kept.step (kept_optPoison ..) (by decide) ?_; assumption; clear_value x2; intro h3
  extract_lets +onlyGivenNames x4; refine Kept.cutR (x := x4) ?_ ?_; unfold x4
  refine Kept.foldR _ (fun u5 y6 => ?_) ?_; extract_lets +onlyGivenNames x7; refine Kept.cutR (x := x7) ?_ ?_
  unfold x7; refine Kept.step (kept_optRead ..) (by decide) ?_; exact Kept.refl _ _; clear_value x7; intro h8
  refine Kept.pairR ?_; assumption; refine Kept.pairR ?_; assumption; clear_value x4; intro h9
  extract_lets +onlyGivenNames x10; clear_value x10; extract_lets +onlyGivenNames x11
  refine Kept.cut (x := x11) ?_ ?_; unfold x11; refine Kept.step (kept_count ..) (by decide) ?_; assumption
  clear_value x11; intro h12; extract_lets +onlyGivenNames x13; refine Kept.cut (x := x13) ?_ ?_; unfold x13
  refine Kept.ite ?_ ?_; assumption; refine Kept.step (kept_count ..) (by decide) ?_
  refine Kept.fold _ (fun u14 y15 => ?_) ?_; split; refine Kept.step (kept_putHandleBytes ..) (by decide) ?_
  exact Kept.refl _ _; assumption; clear_value x13; intro h16; refine Kept.ite ?_ ?_
  refine Kept.step (kept_putHandleBytes ..) (by decide) ?_; assumption; assumption

theorem kept_optGo (s : State) (f) :
    Kept [.lines, .flights, .mem, .prop, .bs, .outs, .trig, .freeCtr, .ctlR, .lineR, .callR, .propR, .choR, .exchR, .fltR] s (State.optGo s f).2 := by
  unfold State.optGo
  extract_lets +onlyGivenNames x0; clear_value x0; split; extract_lets +onlyGivenNames x1
  refine Kept.cut (x := x1) ?_ ?_; unfold x1; refine Kept.ite ?_ ?_; refine Kept.step (kept_count ..) (by decide) ?_
  exact Kept.refl _ _; exact Kept.refl _ _; clear_value x1; intro h2; refine Kept.pairR ?_
  refine Kept.step (kept_halt ..) (by decide) ?_; refine Kept.step (kept_dropFlight ..) (by decide) ?_; assumption
  extract_lets +onlyGivenNames x3; refine Kept.cutR (x := x3) ?_ ?_; unfold x3
  refine Kept.step (kept_pagesReady ..) (by decide) ?_; exact Kept.refl _ _; clear_value x3; intro h4
  refine Kept.iteR ?_ ?_; refine Kept.pairR ?_; assumption; extract_lets +onlyGivenNames x5
  refine Kept.cutR (x := x5) ?_ ?_; unfold x5; refine Kept.step (kept_optBlock ..) (by decide) ?_; exact Kept.refl _ _
  clear_value x5; intro h6; refine Kept.pairR ?_; refine Kept.iter _ (fun u7 y8 => ?_) ?_
  refine Kept.step (kept_optElem ..) (by decide) ?_; exact Kept.refl _ _; assumption

theorem kept_cueComplete (s : State) (i) :
    Kept [.lines, .flights, .board, .trackers, .mem, .prop, .bs, .fab, .arr, .outs, .trig, .freeCtr, .nextTag, .ctlR, .lineR, .callR, .propR, .choR, .exchR, .fabR, .fltR] s (State.cueComplete s i) := by
  unfold State.cueComplete
  split; exact Kept.refl _ _; refine Kept.ite ?_ ?_; exact Kept.refl _ _; refine Kept.ite ?_ ?_
  extract_lets +onlyGivenNames x0; refine Kept.cutR (x := x0) ?_ ?_; unfold x0
  refine Kept.step (kept_optGo ..) (by decide) ?_; exact Kept.refl _ _; clear_value x0; intro h1
  refine Kept.ite ?_ ?_; refine Kept.step (kept_complete ..) (by decide) ?_; assumption; assumption
  refine Kept.step (kept_complete ..) (by decide) ?_; exact Kept.refl _ _

theorem kept_fatalHold (s : State) :
    Kept [.lines, .trig, .ctlR, .lineR, .callR, .fltR] s (State.fatalHold s) := by
  unfold State.fatalHold
  refine Kept.ite ?_ ?_; refine Kept.fold _ (fun u0 y1 => ?_) ?_; extract_lets +onlyGivenNames x2; clear_value x2
  refine Kept.ite ?_ ?_; exact Kept.refl _ _; extract_lets +onlyGivenNames x3; refine Kept.cut (x := x3) ?_ ?_
  unfold x3; refine Kept.step (kept_haltCore ..) (by decide) ?_; exact Kept.refl _ _; clear_value x3; intro h4
  refine Kept.step (kept_setLine ..) (by decide) ?_; assumption; exact Kept.refl _ _; exact Kept.refl _ _

theorem kept_takeTriggers (s : State) :
    Kept [.pins, .fab, .tab, .outs, .trig, .freeCtr, .fabR, .tabR] s (State.takeTriggers s) := by
  unfold State.takeTriggers
  split; exact Kept.refl _ _; extract_lets +onlyGivenNames x0; clear_value x0; extract_lets +onlyGivenNames x1
  clear_value x1; extract_lets +onlyGivenNames x2; refine Kept.cut (x := x2) ?_ ?_; unfold x2; refine Kept.upd ?_
  exact Kept.refl _ _; clear_value x2; intro h3; refine Kept.ite ?_ ?_
  refine Kept.step (kept_capture ..) (by decide) ?_; refine Kept.step (kept_count ..) (by decide) ?_; assumption
  refine Kept.step (kept_count ..) (by decide) ?_; assumption

theorem kept_settle (s : State) :
    Kept [.pins, .lines, .flights, .prop, .fab, .tab, .outs, .trig, .freeCtr, .ctlR, .lineR, .callR, .fabR, .tabR, .fltR] s (State.settle s) := by
  unfold State.settle
  refine Kept.step (kept_takeTriggers ..) (by decide) ?_; refine Kept.step (kept_fatalHold ..) (by decide) ?_
  refine Kept.step (kept_watches ..) (by decide) ?_; refine Kept.step (kept_retireProgress ..) (by decide) ?_
  refine Kept.step (kept_routineDone ..) (by decide) ?_; exact Kept.refl _ _

theorem kept_serveOp {m : List Field} {f : State → State} (k : ∀ u, Kept m u (f u))
    (sub : (([.fab, .outs, .powerR] : List Field).all fun f => m.contains f) = true) (s : State) (p) :
    Kept m s (State.serveOp s p f) := by
  unfold State.serveOp
  refine Kept.ite (Kept.next (k _) (Kept.mono (l := [.fab, .outs, .powerR]) ?_ sub)) (Kept.refl _ _)
  exact Kept.step (kept_takeLocal ..) (by decide) (Kept.mono (kept_leaveIdle ..) (by decide))

theorem kept_dropFinished (s : State) (l) :
    Kept [.lines, .flights, .board, .trackers, .fab, .arr, .outs, .trig, .nextTag, .ctlR, .lineR, .callR, .exchR, .fabR, .fltR] s (State.dropFinished s l) := by
  unfold State.dropFinished
  refine Kept.fold _ (fun u0 y1 => ?_) ?_; refine Kept.step (kept_complete ..) (by decide) ?_; exact Kept.refl _ _
  exact Kept.refl _ _

theorem kept_resetFetchers (s : State) (l) :
    Kept [.fetchers, .splitR] s (State.resetFetchers s l) := by
  unfold State.resetFetchers
  refine Kept.iter _ (fun u0 y1 => ?_) ?_; refine Kept.ite ?_ ?_; refine Kept.step (kept_setReg ..) (by simp) ?_
  refine Kept.step (kept_setReg ..) (by simp) ?_; refine Kept.step (kept_setFetcher ..) (by decide) ?_
  exact Kept.refl _ _; exact Kept.refl _ _; exact Kept.refl _ _

theorem kept_endReset (s : State) (l) :
    Kept [.lines, .fetchers, .lineR, .splitR, .callR, .trkR] s (State.endReset s l) := by
  unfold State.endReset
  extract_lets +onlyGivenNames x0; clear_value x0; extract_lets +onlyGivenNames x1; refine Kept.cut (x := x1) ?_ ?_
  unfold x1; refine Kept.step (kept_updLine ..) (by decide) ?_; exact Kept.refl _ _; clear_value x1; intro h2
  extract_lets +onlyGivenNames x3; refine Kept.cut (x := x3) ?_ ?_; unfold x3
  refine Kept.step (kept_setReg ..) (by simp) ?_; refine Kept.step (kept_setReg ..) (by simp) ?_
  refine Kept.step (kept_setReg ..) (by simp) ?_; refine Kept.step (kept_setReg ..) (by simp) ?_; assumption
  clear_value x3; intro h4; refine Kept.step (kept_progress ..) (by decide) ?_
  refine Kept.step (kept_resetFetchers ..) (by decide) ?_; assumption

theorem kept_fetcherGoto (s : State) (e) (r) :
    Kept [.fetchers, .splitR] s (State.fetcherGoto s e r) := by
  unfold State.fetcherGoto
  refine Kept.step (kept_setReg ..) (by simp) ?_; refine Kept.step (kept_setFetcher ..) (by decide) ?_
  exact Kept.refl _ _

theorem kept_fetcherNumber (s : State) (e) (c) :
    Kept [.fetchers, .nextUid, .callR] s (State.fetcherNumber s e c).2 := by
  unfold State.fetcherNumber
  extract_lets +onlyGivenNames x0; clear_value x0; extract_lets +onlyGivenNames x1; clear_value x1
  extract_lets +onlyGivenNames x2; clear_value x2; extract_lets +onlyGivenNames x3; clear_value x3
  extract_lets +onlyGivenNames x4; clear_value x4; extract_lets +onlyGivenNames x5; clear_value x5
  refine Kept.pairR ?_; refine Kept.step (kept_progress ..) (by decide) ?_; extract_lets +onlyGivenNames x6
  refine Kept.cut (x := x6) ?_ ?_; unfold x6; refine Kept.step (kept_setFetcher ..) (by decide) ?_
  exact Kept.refl _ _; clear_value x6; intro h7; refine Kept.upd ?_; assumption

theorem kept_fetcherDispatch (s : State) (e) (c) :
    Kept [.lines, .fetchers, .flights, .queues, .board, .trig, .nextUid, .ctlR, .lineR, .splitR, .callR, .fltR] s (State.fetcherDispatch s e c) := by
  unfold State.fetcherDispatch
  extract_lets +onlyGivenNames x0; clear_value x0; extract_lets +onlyGivenNames x1; refine Kept.cutR (x := x1) ?_ ?_
  unfold x1; refine Kept.step (kept_fetcherNumber ..) (by decide) ?_; exact Kept.refl _ _; clear_value x1; intro h2
  extract_lets +onlyGivenNames x3; refine Kept.cut (x := x3) ?_ ?_; unfold x3
  refine Kept.step (kept_dispatchTriggers ..) (by decide) ?_; assumption; clear_value x3; intro h4
  extract_lets +onlyGivenNames x5; clear_value x5; split; refine Kept.step (kept_localPosts ..) (by decide) ?_
  refine Kept.step (kept_fetcherGoto ..) (by decide) ?_; assumption
  refine Kept.step (kept_localPosts ..) (by decide) ?_; refine Kept.step (kept_fetcherGoto ..) (by decide) ?_
  assumption; refine Kept.step (kept_setLoopAct ..) (by decide) ?_
  refine Kept.step (kept_localPosts ..) (by decide) ?_; refine Kept.step (kept_fetcherGoto ..) (by decide) ?_
  assumption; extract_lets +onlyGivenNames x6; refine Kept.cut (x := x6) ?_ ?_; unfold x6
  refine Kept.step (kept_halt ..) (by decide) ?_; refine Kept.step (kept_localPosts ..) (by decide) ?_
  refine Kept.step (kept_fetcherGoto ..) (by decide) ?_; assumption; clear_value x6; intro h7
  refine Kept.step (kept_setFetcher ..) (by decide) ?_; assumption; extract_lets +onlyGivenNames x8
  refine Kept.cut (x := x8) ?_ ?_; unfold x8; refine Kept.step (kept_localPosts ..) (by decide) ?_
  refine Kept.step (kept_fetcherGoto ..) (by decide) ?_; assumption; clear_value x8; intro h9
  refine Kept.step (kept_setFetcher ..) (by decide) ?_; assumption
  refine Kept.step (kept_localPosts ..) (by decide) ?_; refine Kept.step (kept_fetcherGoto ..) (by decide) ?_
  assumption; refine Kept.step (kept_localPosts ..) (by decide) ?_
  refine Kept.step (kept_fetcherGoto ..) (by decide) ?_; assumption
  refine Kept.step (kept_enqueueChecked ..) (by decide) ?_; refine Kept.step (kept_fetcherGoto ..) (by decide) ?_
  assumption

theorem kept_fetcherFind (s : State) (e) :
    Kept [.mem, .prop, .trig, .propR, .fltR] s (State.fetcherFind s e).2 := by
  unfold State.fetcherFind
  extract_lets +onlyGivenNames x0; clear_value x0; extract_lets +onlyGivenNames x1; clear_value x1; split
  refine Kept.pairR ?_; exact Kept.refl _ _; extract_lets +onlyGivenNames x2; refine Kept.cutR (x := x2) ?_ ?_
  unfold x2; refine Kept.step (kept_ringCue ..) (by decide) ?_; exact Kept.refl _ _; clear_value x2; intro h3; split
  refine Kept.pairR ?_; exact Kept.refl _ _; refine Kept.pairR ?_; assumption; split; refine Kept.pairR ?_; assumption
  split; refine Kept.pairR ?_; assumption; refine Kept.pairR ?_; assumption

theorem kept_fetcherTurn (s : State) (e) :
    Kept [.lines, .fetchers, .flights, .queues, .board, .mem, .prop, .trig, .nextUid, .ctlR, .powerR, .lineR, .splitR, .callR, .propR, .fltR] s (State.fetcherTurn s e) := by
  unfold State.fetcherTurn
  refine Kept.ite ?_ ?_; exact Kept.refl _ _; extract_lets +onlyGivenNames x0; clear_value x0
  extract_lets +onlyGivenNames x1; refine Kept.cutR (x := x1) ?_ ?_; unfold x1
  refine Kept.step (kept_fetcherFind ..) (by decide) ?_; exact Kept.refl _ _; clear_value x1; intro h2; split
  extract_lets +onlyGivenNames x3; refine Kept.cut (x := x3) ?_ ?_; unfold x3
  refine Kept.step (kept_halt ..) (by decide) ?_; refine Kept.step (kept_leaveIdle ..) (by decide) ?_; assumption
  clear_value x3; intro h4; refine Kept.step (kept_setFetcher ..) (by decide) ?_; assumption
  refine Kept.step (kept_fetcherDispatch ..) (by decide) ?_; refine Kept.step (kept_leaveIdle ..) (by decide) ?_
  assumption; refine Kept.step (kept_setFetcher ..) (by decide) ?_; assumption
  refine Kept.step (kept_setFetcher ..) (by decide) ?_; assumption; exact Kept.refl _ _; exact Kept.refl _ _

theorem kept_heldLands (s : State) (l) :
    Kept [.lines, .mem, .prop, .trig, .powerR, .propR, .fltR] s (State.heldLands s l) := by
  unfold State.heldLands
  split; exact Kept.refl _ _; refine Kept.ite ?_ ?_; refine Kept.step (kept_commit ..) (by decide) ?_
  refine Kept.step (kept_updLine ..) (by decide) ?_; exact Kept.refl _ _; exact Kept.refl _ _

theorem kept_intakeDrop (s : State) (l) (bitNo) (covers) :
    Kept [.lineR] s (State.intakeDrop s l bitNo covers) := by
  unfold State.intakeDrop
  extract_lets +onlyGivenNames x0; refine Kept.cut (x := x0) ?_ ?_; unfold x0; split
  refine Kept.step (kept_setB ..) (by simp) ?_; exact Kept.refl _ _; exact Kept.refl _ _; clear_value x0; intro h1
  refine Kept.ite ?_ ?_; refine Kept.step (kept_count ..) (by simp) ?_; assumption; assumption

theorem kept_holdExpires (s : State) (l) :
    Kept [.lines, .lineR] s (State.holdExpires s l) := by
  unfold State.holdExpires
  split; exact Kept.refl _ _; refine Kept.ite ?_ ?_; exact Kept.refl _ _
  refine Kept.step (kept_intakeDrop ..) (by decide) ?_; refine Kept.step (kept_updLine ..) (by decide) ?_
  exact Kept.refl _ _

theorem kept_hostPost (s : State) (v) :
    Kept [.board, .trig, .callR, .fltR] s (State.hostPost s v) := by
  unfold State.hostPost
  extract_lets +onlyGivenNames x0; clear_value x0; refine Kept.ite ?_ ?_
  refine Kept.step (kept_setB ..) (by decide) ?_; exact Kept.refl _ _; refine Kept.step (kept_post ..) (by decide) ?_
  exact Kept.refl _ _

theorem kept_hostTouch (s : State) :
    Kept [.doorR] s (State.hostTouch s) := by
  unfold State.hostTouch
  refine Kept.step (kept_setReg ..) (by decide) ?_; exact Kept.refl _ _

theorem kept_hostRead {m : List Field} {f : State → State} (k : ∀ u, Kept m u (f u))
    (sub : (([.outs, .doorR] : List Field).all fun f => m.contains f) = true) (s : State) (off) : Kept m s (State.hostRead s off f) := by
  unfold State.hostRead
  split
  · exact Kept.refl _ _
  · exact Kept.mono (l := [.outs, .doorR]) (Kept.step (kept_emit ..) (by decide) (Kept.mono (kept_hostTouch ..) (by decide))) sub
  · exact Kept.next (k _) (Kept.mono (l := [.outs, .doorR]) (Kept.step (kept_emit ..) (by decide)
      (Kept.mono (kept_hostTouch ..) (by decide))) sub)

theorem kept_hostWrite {m : List Field} {f : State → State} (k : ∀ u, Kept m u (f u))
    (sub : (([.ctlR, .doorR] : List Field).all fun f => m.contains f) = true) (s : State) (off) : Kept m s (State.hostWrite s off f) := by
  unfold State.hostWrite
  split
  · exact Kept.refl _ _
  · exact Kept.mono (l := [.ctlR, .doorR]) (Kept.step (kept_hostError ..) (by decide) (Kept.mono (kept_hostTouch ..) (by decide))) sub
  · exact Kept.next (k _) (Kept.mono (l := [.ctlR, .doorR]) (Kept.mono (kept_hostTouch ..) (by decide)) sub)

theorem kept_intakeWrite (s : State) (l) (off) (be) (data) :
    Kept [.lines, .mem, .prop, .timers, .trig, .ctlR, .doorR, .powerR, .lineR, .propR, .fltR] s (State.intakeWrite s l off be data) := by
  unfold State.intakeWrite
  refine Kept.ite ?_ ?_; exact Kept.refl _ _; refine Kept.ite ?_ ?_
  refine Kept.step (kept_hostError ..) (by decide) ?_; refine Kept.step (kept_hostTouch ..) (by decide) ?_
  exact Kept.refl _ _; extract_lets +onlyGivenNames x0; refine Kept.cut (x := x0) ?_ ?_; unfold x0
  refine Kept.step (kept_hostTouch ..) (by decide) ?_; exact Kept.refl _ _; clear_value x0; intro h1
  extract_lets +onlyGivenNames x2; clear_value x2; extract_lets +onlyGivenNames x3; clear_value x3
  refine Kept.ite ?_ ?_; refine Kept.step (kept_intakeDrop ..) (by decide) ?_; assumption; refine Kept.ite ?_ ?_
  refine Kept.step (kept_intakeDrop ..) (by decide) ?_; assumption; extract_lets +onlyGivenNames x4; clear_value x4
  refine Kept.ite ?_ ?_; refine Kept.step (kept_setLine ..) (by decide) ?_; assumption
  extract_lets +onlyGivenNames x5; clear_value x5; extract_lets +onlyGivenNames x6; clear_value x6
  extract_lets +onlyGivenNames x7; refine Kept.cut (x := x7) ?_ ?_; unfold x7
  refine Kept.step (kept_setLine ..) (by decide) ?_; assumption; clear_value x7; intro h8; refine Kept.ite ?_ ?_
  refine Kept.step (kept_intakeDrop ..) (by decide) ?_; assumption; refine Kept.ite ?_ ?_
  refine Kept.step (kept_commit ..) (by decide) ?_; assumption; refine Kept.step (kept_restart ..) (by decide) ?_
  refine Kept.step (kept_updLine ..) (by decide) ?_; assumption

theorem kept_latchHi (s : State) (off) :
    Kept [.latches] s (State.latchHi s off) := by
  unfold State.latchHi
  refine Kept.ite ?_ ?_; refine Kept.upd ?_; exact Kept.refl _ _; exact Kept.refl _ _

theorem kept_lineResetDone (s : State) (l) :
    Kept [.lines, .fetchers, .flights, .queues, .board, .trackers, .fab, .arr, .cho, .gangs, .fly, .exch, .outs, .trig, .nextTag, .ctlR, .lineR, .splitR, .callR, .trkR, .flyR, .choR, .exchR, .fabR, .fltR] s (State.lineResetDone s l) := by
  unfold State.lineResetDone
  refine Kept.ite ?_ ?_; exact Kept.refl _ _; extract_lets +onlyGivenNames x0; refine Kept.cut (x := x0) ?_ ?_
  unfold x0; refine Kept.step (kept_dropFinished ..) (by decide) ?_
  refine Kept.step (kept_stopWaiting ..) (by decide) ?_; exact Kept.refl _ _; clear_value x0; intro h1
  refine Kept.ite ?_ ?_; assumption; refine Kept.step (kept_endReset ..) (by decide) ?_; assumption

theorem kept_prompterTurn (s : State) :
    Kept [.lines, .flights, .queues, .board, .mem, .prop, .fab, .outs, .trig, .nextUid, .ctlR, .powerR, .lineR, .callR, .trkR, .propR, .exchR, .fabR, .fltR] s (State.prompterTurn s) := by
  unfold State.prompterTurn
  refine Kept.ite ?_ ?_; exact Kept.refl _ _; extract_lets +onlyGivenNames x0; refine Kept.cut (x := x0) ?_ ?_
  unfold x0; refine Kept.step (kept_takeHeads ..) (by decide) ?_; exact Kept.refl _ _; clear_value x0; intro h1; split
  refine Kept.step (kept_takeTurn ..) (by decide) ?_; assumption; assumption

theorem kept_splitWrite (s : State) (v) :
    Kept [.fetchers, .lineR] s (State.splitWrite s v) := by
  unfold State.splitWrite
  refine Kept.ite ?_ ?_; refine Kept.step (kept_setB ..) (by decide) ?_; exact Kept.refl _ _
  extract_lets +onlyGivenNames x0; clear_value x0; extract_lets +onlyGivenNames x1; refine Kept.cut (x := x1) ?_ ?_
  unfold x1; refine Kept.ite ?_ ?_; refine Kept.step (kept_setB ..) (by decide) ?_; exact Kept.refl _ _
  exact Kept.refl _ _; clear_value x1; intro h2; refine Kept.ite ?_ ?_; assumption; extract_lets +onlyGivenNames x3
  refine Kept.cut (x := x3) ?_ ?_; unfold x3; refine Kept.step (kept_setB ..) (by decide) ?_; assumption
  clear_value x3; intro h4; refine Kept.ite ?_ ?_; refine Kept.iter _ (fun u5 y6 => ?_) ?_; refine Kept.ite ?_ ?_
  exact Kept.refl _ _; refine Kept.step (kept_setFetcher ..) (by decide) ?_; exact Kept.refl _ _; assumption
  assumption

theorem kept_release (s : State) (k) (seq) (a) :
    Kept [.flights, .board, .fab, .outs, .trig, .callR, .exchR, .fabR, .fltR] s (State.release s k seq a) := by
  unfold State.release
  extract_lets +onlyGivenNames x0; clear_value x0; refine Kept.ite ?_ ?_
  refine Kept.step (kept_ccReleaseNode ..) (by decide) ?_; exact Kept.refl _ _
  refine Kept.step (kept_ccStray ..) (by decide) ?_; exact Kept.refl _ _

theorem kept_sendDone (s : State) (dst) (ch) (tag) (status) :
    Kept [.fab, .outs, .trig, .exchR, .fabR, .fltR] s (State.sendDone s dst ch tag status) := by
  unfold State.sendDone
  refine Kept.step (kept_sendPacket ..) (by decide) ?_; exact Kept.refl _ _

theorem kept_remoteIn (s : State) (src) (tag) (counter) (delta) (upset) :
    Kept [.lines, .board, .fab, .outs, .trig, .ctlR, .powerR, .lineR, .callR, .exchR, .fabR, .fltR] s (State.remoteIn s src tag counter delta upset) := by
  unfold State.remoteIn
  extract_lets +onlyGivenNames x0; clear_value x0; refine Kept.ite ?_ ?_; exact Kept.refl _ _
  refine Kept.next (kept_serveOp (fun u1 => ?_) (by decide) ..) ?_; extract_lets +onlyGivenNames x2
  refine Kept.cut (x := x2) ?_ ?_; unfold x2; refine Kept.ite ?_ ?_; exact Kept.refl _ _
  refine Kept.step (kept_tableUpset ..) (by decide) ?_; exact Kept.refl _ _; clear_value x2; intro h3
  refine Kept.ite ?_ ?_; refine Kept.step (kept_sendDone ..) (by decide) ?_; assumption
  refine Kept.step (kept_sendDone ..) (by decide) ?_; refine Kept.step (kept_post ..) (by decide) ?_; assumption
  exact Kept.refl _ _

theorem kept_repUpset (s : State) (l) :
    Kept [.repBad] s (State.repUpset s l) := by
  unfold State.repUpset
  refine Kept.upd ?_; exact Kept.refl _ _

theorem kept_ringsAct (s : State) :
    Kept [.lines, .flights, .queues, .trackers, .mem, .prop, .arr, .cho, .gangs, .fly, .lineR, .callR] s (State.ringsAct s) := by
  unfold State.ringsAct
  refine Kept.ite ?_ ?_; exact Kept.refl _ _; refine Kept.fold _ (fun u0 y1 => ?_) ?_; extract_lets +onlyGivenNames x2
  clear_value x2; refine Kept.ite ?_ ?_; exact Kept.refl _ _; refine Kept.fold _ (fun u3 y4 => ?_) ?_
  refine Kept.step (kept_ringAct ..) (by decide) ?_; exact Kept.refl _ _
  refine Kept.step (kept_updLine ..) (by decide) ?_; exact Kept.refl _ _; exact Kept.refl _ _

theorem kept_tableauCue (s : State) :
    Kept [.flights, .queues, .trig] s (State.tableauCue s) := by
  unfold State.tableauCue
  split; exact Kept.refl _ _; extract_lets +onlyGivenNames x0; clear_value x0; extract_lets +onlyGivenNames x1
  clear_value x1; extract_lets +onlyGivenNames x2; refine Kept.cut (x := x2) ?_ ?_; unfold x2; refine Kept.ite ?_ ?_
  refine Kept.upd ?_; exact Kept.refl _ _; exact Kept.refl _ _; clear_value x2; intro h3
  refine Kept.step (kept_finishFlight ..) (by decide) ?_; refine Kept.step (kept_unqueue ..) (by decide) ?_
  assumption

theorem kept_watchdog (s : State) (l) :
    Kept [.lines, .trig, .ctlR, .lineR, .callR, .fltR] s (State.watchdog s l) := by
  unfold State.watchdog
  refine Kept.ite ?_ ?_; exact Kept.refl _ _; extract_lets +onlyGivenNames x0; clear_value x0
  extract_lets +onlyGivenNames x1; clear_value x1; extract_lets +onlyGivenNames x2; refine Kept.cut (x := x2) ?_ ?_
  unfold x2; split; refine Kept.step (kept_halt ..) (by decide) ?_; exact Kept.refl _ _
  refine Kept.step (kept_halt ..) (by decide) ?_; exact Kept.refl _ _; clear_value x2; intro h3
  extract_lets +onlyGivenNames x4; refine Kept.cut (x := x4) ?_ ?_; unfold x4
  refine Kept.step (kept_updLine ..) (by decide) ?_; assumption; clear_value x4; intro h5
  refine Kept.step (kept_trigger ..) (by decide) ?_; refine Kept.step (kept_progress ..) (by decide) ?_; assumption

theorem kept_writeLands (s : State) (i) :
    Kept [.mem, .prop, .trig, .propR, .fltR] s (State.writeLands s i) := by
  unfold State.writeLands
  split; exact Kept.refl _ _; refine Kept.ite ?_ ?_; exact Kept.refl _ _
  refine Kept.step (kept_landWord ..) (by decide) ?_; refine Kept.upd ?_; exact Kept.refl _ _

end Sys2Proof.Machine
end

