-- ==== Sys2Proof/Laws/KeptExchange.lean ====
section
/-! SUPPORT. What the functions of the exchange, the links and remote operations leave unchanged: one lemma
per function, whose list is all it can change. -/

namespace Sys2Proof.Machine

set_option Elab.async false

theorem kept_accSum (s : State) (e) :
    Kept [.mem, .prop, .trig, .propR, .fltR] s (State.accSum s e).2 := by
  unfold State.accSum
  extract_lets +onlyGivenNames x0; clear_value x0; refine Kept.iterR _ (fun u1 y2 => ?_) ?_
  extract_lets +onlyGivenNames x3; clear_value x3; extract_lets +onlyGivenNames x4; refine Kept.cutR (x := x4) ?_ ?_
  unfold x4; refine Kept.step (kept_readPlain ..) (by decide) ?_; exact Kept.refl _ _; clear_value x4; intro h5
  extract_lets +onlyGivenNames x6; clear_value x6; refine Kept.pairR ?_; assumption; refine Kept.pairR ?_
  exact Kept.refl _ _

theorem kept_addWord (s : State) (a) (l) :
    Kept [.mem, .prop, .trig, .propR, .exchR, .fltR] s (State.addWord s a l).2 := by
  unfold State.addWord
  extract_lets +onlyGivenNames x0; refine Kept.cutR (x := x0) ?_ ?_; unfold x0
  refine Kept.step (kept_readWord ..) (by decide) ?_; exact Kept.refl _ _; clear_value x0; intro h1
  extract_lets +onlyGivenNames x2; clear_value x2; extract_lets +onlyGivenNames x3; refine Kept.cut (x := x3) ?_ ?_
  unfold x3; refine Kept.step (kept_count ..) (by decide) ?_; assumption; clear_value x3; intro h4
  refine Kept.pairR ?_; refine Kept.step (kept_landWord ..) (by decide) ?_; assumption

theorem kept_exchStray (s : State) (b) :
    Kept [.trig, .exchR, .fltR] s (State.exchStray s b) := by
  unfold State.exchStray
  refine Kept.step (kept_logRecord ..) (by decide) ?_; refine Kept.step (kept_count ..) (by decide) ?_
  exact Kept.refl _ _

theorem kept_setBucket (s : State) (b) (e) :
    Kept [.exch] s (State.setBucket s b e) := by
  unfold State.setBucket
  refine Kept.upd ?_; exact Kept.refl _ _

theorem kept_failPart (s : State) (b) (g) :
    Kept [.exch] s (State.failPart s b g) := by
  unfold State.failPart
  extract_lets +onlyGivenNames x0; clear_value x0; refine Kept.step (kept_setBucket ..) (by decide) ?_
  exact Kept.refl _ _

theorem kept_refuseOp (s : State) (b) (group) :
    Kept [.exch, .trig, .exchR, .fltR] s (State.refuseOp s b group).2 := by
  unfold State.refuseOp
  extract_lets +onlyGivenNames x0; refine Kept.cut (x := x0) ?_ ?_; unfold x0; split; refine Kept.ite ?_ ?_
  refine Kept.step (kept_failPart ..) (by decide) ?_; exact Kept.refl _ _; exact Kept.refl _ _; exact Kept.refl _ _
  clear_value x0; intro h1; refine Kept.pairR ?_; refine Kept.step (kept_exchStray ..) (by decide) ?_
  refine Kept.step (kept_count ..) (by decide) ?_; assumption

theorem kept_accumulateOp (s : State) (b) (gen) (group) (count) (pmask) (data) :
    Kept [.mem, .prop, .exch, .trig, .propR, .exchR, .fltR] s (State.accumulateOp s b gen group count pmask data).2 := by
  unfold State.accumulateOp
  extract_lets +onlyGivenNames x0; clear_value x0; extract_lets +onlyGivenNames x1; clear_value x1
  extract_lets +onlyGivenNames x2; clear_value x2; extract_lets +onlyGivenNames x3; clear_value x3
  refine Kept.iteR ?_ ?_; refine Kept.step (kept_refuseOp ..) (by decide) ?_; exact Kept.refl _ _
  refine Kept.iteR ?_ ?_; refine Kept.step (kept_refuseOp ..) (by decide) ?_
  refine Kept.step (kept_count ..) (by decide) ?_; exact Kept.refl _ _; extract_lets +onlyGivenNames x4
  clear_value x4; extract_lets +onlyGivenNames x5; refine Kept.cutR (x := x5) ?_ ?_; unfold x5
  refine Kept.iterR _ (fun u6 y7 => ?_) ?_; extract_lets +onlyGivenNames x8; refine Kept.cutR (x := x8) ?_ ?_
  unfold x8; refine Kept.step (kept_addWord ..) (by decide) ?_; exact Kept.refl _ _; clear_value x8; intro h9
  refine Kept.pairR ?_; assumption; refine Kept.pairR ?_; exact Kept.refl _ _; clear_value x5; intro h10
  extract_lets +onlyGivenNames x11; refine Kept.cut (x := x11) ?_ ?_; unfold x11; assumption
  clear_value x11; intro h12; extract_lets +onlyGivenNames x13; refine Kept.cutR (x := x13) ?_ ?_; unfold x13
  refine Kept.step (kept_readWord ..) (by decide) ?_; assumption; clear_value x13; intro h14
  extract_lets +onlyGivenNames x15; clear_value x15; extract_lets +onlyGivenNames x16
  refine Kept.cut (x := x16) ?_ ?_; unfold x16; refine Kept.ite ?_ ?_; assumption
  refine Kept.step (kept_landWord ..) (by decide) ?_; assumption; clear_value x16; intro h17; refine Kept.pairR ?_
  refine Kept.step (kept_count64 ..) (by decide) ?_; assumption

theorem kept_trainReq (s : State) (p) (c) (v) :
    Kept [.fab, .outs] s (State.trainReq s p c v) := by
  unfold State.trainReq
  refine Kept.ite ?_ ?_; exact Kept.refl _ _; refine Kept.step (kept_emit ..) (by decide) ?_
  refine Kept.step (kept_setChan ..) (by decide) ?_; exact Kept.refl _ _

theorem kept_freshChan (s : State) (p) (c) :
    Kept [.fab, .outs] s (State.freshChan s p c) := by
  unfold State.freshChan
  extract_lets +onlyGivenNames x0; clear_value x0; extract_lets +onlyGivenNames x1; clear_value x1
  extract_lets +onlyGivenNames x2; refine Kept.cut (x := x2) ?_ ?_; unfold x2
  refine Kept.step (kept_setChan ..) (by decide) ?_; exact Kept.refl _ _; clear_value x2; intro h3
  refine Kept.ite ?_ ?_; refine Kept.step (kept_trainReq ..) (by decide) ?_; assumption; assumption

theorem kept_freshChans (s : State) (p) :
    Kept [.fab, .outs] s (State.freshChans s p) := by
  unfold State.freshChans
  refine Kept.iter _ (fun u0 y1 => ?_) ?_; refine Kept.step (kept_freshChan ..) (by decide) ?_; exact Kept.refl _ _
  exact Kept.refl _ _

theorem kept_reroute (s : State) (p) :
    Kept [.fab, .outs, .trig, .exchR, .fabR, .fltR] s (State.reroute s p) := by
  unfold State.reroute
  extract_lets +onlyGivenNames x0; clear_value x0; extract_lets +onlyGivenNames x1; refine Kept.cut (x := x1) ?_ ?_
  unfold x1; refine Kept.iter _ (fun u2 y3 => ?_) ?_; refine Kept.step (kept_setWaiting ..) (by decide) ?_
  exact Kept.refl _ _; exact Kept.refl _ _; clear_value x1; intro h4; refine Kept.fold _ (fun u5 y6 => ?_) ?_
  refine Kept.step (kept_routeFlit ..) (by decide) ?_; exact Kept.refl _ _; assumption

theorem kept_enterDown (s : State) (p) :
    Kept [.fab, .outs, .trig, .exchR, .fabR, .fltR] s (State.enterDown s p) := by
  unfold State.enterDown
  refine Kept.step (kept_reroute ..) (by decide) ?_; refine Kept.step (kept_freshChans ..) (by decide) ?_
  refine Kept.step (kept_setPort ..) (by decide) ?_; exact Kept.refl _ _

theorem kept_linkDown (s : State) (p) :
    Kept [.fab, .outs, .trig, .exchR, .fabR, .fltR] s (State.linkDown s p) := by
  unfold State.linkDown
  refine Kept.step (kept_enterDown ..) (by decide) ?_; refine Kept.step (kept_logRecord ..) (by decide) ?_
  exact Kept.refl _ _

theorem kept_sendHandover (s : State) (p) (r) (reply) :
    Kept [.outs] s (State.sendHandover s p r reply) := by
  unfold State.sendHandover
  split; exact Kept.refl _ _; refine Kept.step (kept_sendLink ..) (by decide) ?_; exact Kept.refl _ _

theorem kept_afterRetire (s : State) (p) (c) (reply) :
    Kept [.fab, .outs, .trig, .exchR, .fabR, .fltR] s (State.afterRetire s p c reply) := by
  unfold State.afterRetire
  refine Kept.ite ?_ ?_; exact Kept.refl _ _; refine Kept.ite ?_ ?_
  refine Kept.step (kept_linkDown ..) (by decide) ?_; exact Kept.refl _ _
  refine Kept.step (kept_sendHandover ..) (by decide) ?_; exact Kept.refl _ _

theorem kept_exchDone (s : State) (uid) :
    Kept [.flights, .queues, .exch] s (State.exchDone s uid) := by
  unfold State.exchDone
  refine Kept.step (kept_finishFlight ..) (by decide) ?_; refine Kept.step (kept_unqueue ..) (by decide) ?_
  refine Kept.upd ?_; exact Kept.refl _ _

theorem kept_exchFinish (s : State) :
    Kept [.flights, .queues, .exch] s (State.exchFinish s) := by
  unfold State.exchFinish
  split; exact Kept.refl _ _; split; exact Kept.refl _ _; extract_lets +onlyGivenNames x0; clear_value x0
  refine Kept.ite ?_ ?_; refine Kept.ite ?_ ?_; refine Kept.step (kept_exchDone ..) (by decide) ?_
  exact Kept.refl _ _; exact Kept.refl _ _; refine Kept.ite ?_ ?_; refine Kept.step (kept_exchDone ..) (by decide) ?_
  exact Kept.refl _ _; exact Kept.refl _ _

theorem kept_newOp (s : State) (dst) (ch) (bucket) (gen) (body) (uid) :
    Kept [.exch] s (State.newOp s dst ch bucket gen body uid).2 := by
  unfold State.newOp
  extract_lets +onlyGivenNames x0; clear_value x0; extract_lets +onlyGivenNames x1; clear_value x1
  extract_lets +onlyGivenNames x2; clear_value x2; refine Kept.pairR ?_; refine Kept.upd ?_; exact Kept.refl _ _

theorem kept_readPage (h) (p) (len) (st : List (Byte × Bool) × State) :
    Kept [.mem, .prop, .trig, .propR, .fltR] st.2 (State.readPage h p len st).2 := by
  unfold State.readPage
  split; refine Kept.pairR ?_; exact Kept.refl _ _; extract_lets +onlyGivenNames x0; refine Kept.cutR (x := x0) ?_ ?_
  unfold x0; refine Kept.step (kept_readBytes ..) (by decide) ?_; exact Kept.refl _ _; clear_value x0; intro h1
  refine Kept.pairR ?_; refine Kept.step (kept_touch ..) (by decide) ?_; assumption

theorem kept_readPages (s : State) (h) (lo) (total) :
    Kept [.mem, .prop, .trig, .propR, .fltR] s (State.readPages s h lo total).2 := by
  unfold State.readPages
  refine Kept.iterR _ (fun u0 y1 => ?_) ?_; extract_lets +onlyGivenNames x2; clear_value x2
  refine Kept.step (kept_readPage ..) (by decide) ?_; exact Kept.refl _ _; refine Kept.pairR ?_; exact Kept.refl _ _

theorem kept_readSpan (s : State) (h) (base) (n) :
    Kept [.mem, .prop, .trig, .propR, .fltR] s (State.readSpan s h base n).2 := by
  unfold State.readSpan
  extract_lets +onlyGivenNames x0; clear_value x0; extract_lets +onlyGivenNames x1; refine Kept.cutR (x := x1) ?_ ?_
  unfold x1; refine Kept.step (kept_readPages ..) (by decide) ?_; exact Kept.refl _ _; clear_value x1; intro h2
  refine Kept.pairR ?_; assumption

theorem kept_formGroup (s : State) (x) (g) :
    Kept [.mem, .prop, .trig, .propR, .fltR] s (State.formGroup s x g).2 := by
  unfold State.formGroup
  extract_lets +onlyGivenNames x0; clear_value x0; extract_lets +onlyGivenNames x1; clear_value x1
  extract_lets +onlyGivenNames x2; refine Kept.cutR (x := x2) ?_ ?_; unfold x2
  refine Kept.step (kept_readSpan ..) (by decide) ?_; exact Kept.refl _ _; clear_value x2; intro h3
  refine Kept.pairR ?_; assumption

theorem kept_formRetained (s : State) (b) (g) :
    Kept [.mem, .prop, .trig, .propR, .fltR] s (State.formRetained s b g).2 := by
  unfold State.formRetained
  extract_lets +onlyGivenNames x0; clear_value x0; extract_lets +onlyGivenNames x1; clear_value x1
  extract_lets +onlyGivenNames x2; refine Kept.cutR (x := x2) ?_ ?_; unfold x2
  refine Kept.step (kept_readBytes ..) (by decide) ?_; exact Kept.refl _ _; clear_value x2; intro h3
  extract_lets +onlyGivenNames x4; refine Kept.cutR (x := x4) ?_ ?_; unfold x4
  refine Kept.step (kept_readPlain ..) (by decide) ?_; assumption; clear_value x4; intro h5
  extract_lets +onlyGivenNames x6; clear_value x6; refine Kept.pairR ?_; assumption

theorem kept_opPayload (s : State) (o) :
    Kept [.mem, .prop, .trig, .propR, .fltR] s (State.opPayload s o).2 := by
  unfold State.opPayload
  extract_lets +onlyGivenNames x0; clear_value x0; extract_lets +onlyGivenNames x1; clear_value x1
  extract_lets +onlyGivenNames x2; split; unfold x2; refine Kept.pairR ?_
  refine Kept.step (kept_formGroup ..) (by decide) ?_; exact Kept.refl _ _; unfold x2; refine Kept.pairR ?_
  refine Kept.step (kept_formRetained ..) (by decide) ?_; exact Kept.refl _ _; refine Kept.pairR ?_
  exact Kept.refl _ _; refine Kept.pairR ?_; exact Kept.refl _ _

theorem kept_sendOp (s : State) (o) :
    Kept [.mem, .prop, .fab, .outs, .trig, .propR, .exchR, .fabR, .fltR] s (State.sendOp s o) := by
  unfold State.sendOp
  extract_lets +onlyGivenNames x0; refine Kept.cutR (x := x0) ?_ ?_; unfold x0
  refine Kept.step (kept_opPayload ..) (by decide) ?_; exact Kept.refl _ _; clear_value x0; intro h1
  refine Kept.step (kept_sendPacket ..) (by decide) ?_; assumption

theorem kept_sendNew (r : ExOp × State) :
    Kept [.mem, .prop, .fab, .outs, .trig, .propR, .exchR, .fabR, .fltR] r.2 (State.sendNew r) := by
  unfold State.sendNew
  refine Kept.step (kept_sendOp ..) (by decide) ?_; exact Kept.refl _ _

theorem kept_sendClose (s : State) :
    Kept [.mem, .prop, .fab, .exch, .outs, .trig, .propR, .exchR, .fabR, .fltR] s (State.sendClose s) := by
  unfold State.sendClose
  split; exact Kept.refl _ _; split; exact Kept.refl _ _; extract_lets +onlyGivenNames x0; clear_value x0
  extract_lets +onlyGivenNames x1; clear_value x1; refine Kept.ite ?_ ?_; exact Kept.refl _ _
  extract_lets +onlyGivenNames x2; clear_value x2; extract_lets +onlyGivenNames x3; clear_value x3
  extract_lets +onlyGivenNames x4; refine Kept.cut (x := x4) ?_ ?_; unfold x4
  refine Kept.step (kept_sendNew ..) (by decide) ?_; refine Kept.step (kept_newOp ..) (by decide) ?_
  exact Kept.refl _ _; clear_value x4; intro h5; extract_lets +onlyGivenNames x6; clear_value x6
  extract_lets +onlyGivenNames x7; refine Kept.cut (x := x7) ?_ ?_; unfold x7
  refine Kept.step (kept_setBucket ..) (by decide) ?_; assumption; clear_value x7; intro h8; refine Kept.upd ?_
  assumption

theorem kept_noteSent (s : State) (b) (shift) (l) :
    Kept [.exch, .exchR] s (State.noteSent s b shift l) := by
  unfold State.noteSent
  extract_lets +onlyGivenNames x0; clear_value x0; extract_lets +onlyGivenNames x1; clear_value x1
  extract_lets +onlyGivenNames x2; clear_value x2; extract_lets +onlyGivenNames x3; clear_value x3
  extract_lets +onlyGivenNames x4; refine Kept.cut (x := x4) ?_ ?_; unfold x4
  refine Kept.step (kept_setBucket ..) (by decide) ?_; exact Kept.refl _ _; clear_value x4; intro h5
  refine Kept.step (kept_count ..) (by decide) ?_; refine Kept.step (kept_count ..) (by decide) ?_; assumption

theorem kept_retainWord (s : State) (a) (first) (l) :
    Kept [.mem, .prop, .trig, .propR, .fltR] s (State.retainWord s a first l) := by
  unfold State.retainWord
  extract_lets +onlyGivenNames x0; refine Kept.cutR (x := x0) ?_ ?_; unfold x0; refine Kept.iteR ?_ ?_
  refine Kept.pairR ?_; exact Kept.refl _ _; refine Kept.step (kept_readPlain ..) (by decide) ?_; exact Kept.refl _ _
  clear_value x0; intro h1; extract_lets +onlyGivenNames x2; clear_value x2
  refine Kept.step (kept_put ..) (by decide) ?_; assumption

theorem kept_retain (s : State) (b) (g) (first) (l) :
    Kept [.mem, .prop, .trig, .propR, .fltR] s (State.retain s b g first l) := by
  unfold State.retain
  extract_lets +onlyGivenNames x0; clear_value x0; extract_lets +onlyGivenNames x1; clear_value x1
  extract_lets +onlyGivenNames x2; clear_value x2; extract_lets +onlyGivenNames x3; refine Kept.cut (x := x3) ?_ ?_
  unfold x3; refine Kept.iter _ (fun u4 y5 => ?_) ?_; refine Kept.step (kept_retainWord ..) (by decide) ?_
  exact Kept.refl _ _; exact Kept.refl _ _; clear_value x3; intro h6; extract_lets +onlyGivenNames x7
  refine Kept.cutR (x := x7) ?_ ?_; unfold x7; refine Kept.step (kept_readPlain ..) (by decide) ?_; assumption
  clear_value x7; intro h8; extract_lets +onlyGivenNames x9; clear_value x9
  refine Kept.step (kept_put ..) (by decide) ?_; assumption

theorem kept_sendGroup (s : State) :
    KeptM [.mem, .prop, .bs, .fab, .exch, .outs, .trig, .propR, .exchR, .fabR, .fltR] s (State.sendGroup s) := by
  unfold State.sendGroup
  split; refine KeptM.stuck ?_; exact Kept.refl _ _; split; refine KeptM.stuck ?_; exact Kept.refl _ _
  extract_lets +onlyGivenNames x0; clear_value x0; refine KeptM.ite ?_ ?_; refine KeptM.stuck ?_; exact Kept.refl _ _
  extract_lets +onlyGivenNames x1; clear_value x1; extract_lets +onlyGivenNames x2; clear_value x2
  extract_lets +onlyGivenNames x3; clear_value x3; extract_lets +onlyGivenNames x4; clear_value x4
  extract_lets +onlyGivenNames x5; refine Kept.cutR (x := x5) ?_ ?_; unfold x5
  refine Kept.step (kept_pagesReady ..) (by decide) ?_; exact Kept.refl _ _; clear_value x5; intro h6
  refine KeptM.ite ?_ ?_; refine KeptM.stuck ?_; assumption; extract_lets +onlyGivenNames x7
  refine Kept.cutR (x := x7) ?_ ?_; unfold x7; refine Kept.step (kept_newOp ..) (by decide) ?_; exact Kept.refl _ _
  clear_value x7; intro h8; extract_lets +onlyGivenNames x9; refine Kept.cutR (x := x9) ?_ ?_; unfold x9
  refine Kept.step (kept_formGroup ..) (by decide) ?_; assumption; clear_value x9; intro h10
  extract_lets +onlyGivenNames x11; refine Kept.cut (x := x11) ?_ ?_; unfold x11
  refine Kept.step (kept_noteSent ..) (by decide) ?_; assumption; clear_value x11; intro h12
  extract_lets +onlyGivenNames x13; refine Kept.cut (x := x13) ?_ ?_; unfold x13; refine Kept.ite ?_ ?_
  refine Kept.step (kept_retain ..) (by decide) ?_; assumption; assumption; clear_value x13; intro h14
  extract_lets +onlyGivenNames x15; clear_value x15; extract_lets +onlyGivenNames x16
  refine Kept.cut (x := x16) ?_ ?_; unfold x16; refine Kept.upd ?_; assumption; clear_value x16; intro h17
  extract_lets +onlyGivenNames x18; refine Kept.cut (x := x18) ?_ ?_; unfold x18
  refine Kept.step (kept_count64 ..) (by decide) ?_; assumption; clear_value x18; intro h19; refine KeptM.on ?_
  refine Kept.step (kept_sendPacket ..) (by decide) ?_; assumption

theorem kept_sendGroups (a0) (a1 : State) :
    Kept [.mem, .prop, .bs, .fab, .exch, .outs, .trig, .propR, .exchR, .fabR, .fltR] a1 (State.sendGroups a0 a1) := by
  induction a0 generalizing a1 with
  | zero => exact Kept.refl _ _
  | succ n ih =>
    unfold State.sendGroups
    split; refine Kept.ofStuck (by assumption) ?_; refine KeptM.step (kept_sendGroup ..) (by decide) ?_
    exact Kept.refl _ _; refine Kept.step (ih ..) (by decide) ?_; refine Kept.ofOn (by assumption) ?_
    refine KeptM.step (kept_sendGroup ..) (by decide) ?_; exact Kept.refl _ _

theorem kept_serveGroup (s : State) :
    KeptM [.mem, .prop, .fab, .exch, .outs, .trig, .propR, .exchR, .fabR, .fltR] s (State.serveGroup s) := by
  unfold State.serveGroup
  split; refine KeptM.stuck ?_; exact Kept.refl _ _; extract_lets +onlyGivenNames x0; clear_value x0
  extract_lets +onlyGivenNames x1; clear_value x1; extract_lets +onlyGivenNames x2; clear_value x2
  extract_lets +onlyGivenNames x3; clear_value x3; refine KeptM.ite ?_ ?_; refine KeptM.stuck ?_; exact Kept.refl _ _
  refine KeptM.ite ?_ ?_; extract_lets +onlyGivenNames x4; clear_value x4; extract_lets +onlyGivenNames x5
  refine Kept.cut (x := x5) ?_ ?_; unfold x5; refine Kept.upd ?_; exact Kept.refl _ _; clear_value x5; intro h6
  refine KeptM.on ?_; refine Kept.step (kept_count64 ..) (by decide) ?_
  refine Kept.step (kept_sendNew ..) (by decide) ?_; refine Kept.step (kept_newOp ..) (by decide) ?_; assumption
  refine KeptM.ite ?_ ?_; refine KeptM.stuck ?_; exact Kept.refl _ _; extract_lets +onlyGivenNames x7; clear_value x7
  extract_lets +onlyGivenNames x8; refine Kept.cut (x := x8) ?_ ?_; unfold x8; refine Kept.upd ?_; exact Kept.refl _ _
  clear_value x8; intro h9; refine KeptM.on ?_; refine Kept.step (kept_sendNew ..) (by decide) ?_
  refine Kept.step (kept_newOp ..) (by decide) ?_; assumption

theorem kept_serveGroups (a0) (a1 : State) :
    Kept [.mem, .prop, .fab, .exch, .outs, .trig, .propR, .exchR, .fabR, .fltR] a1 (State.serveGroups a0 a1) := by
  induction a0 generalizing a1 with
  | zero => exact Kept.refl _ _
  | succ n ih =>
    unfold State.serveGroups
    split; refine Kept.ofStuck (by assumption) ?_; refine KeptM.step (kept_serveGroup ..) (by decide) ?_
    exact Kept.refl _ _; refine Kept.step (ih ..) (by decide) ?_; refine Kept.ofOn (by assumption) ?_
    refine KeptM.step (kept_serveGroup ..) (by decide) ?_; exact Kept.refl _ _

theorem kept_exchPump (s : State) :
    Kept [.flights, .queues, .mem, .prop, .bs, .fab, .exch, .outs, .trig, .propR, .exchR, .fabR, .fltR] s (State.exchPump s) := by
  unfold State.exchPump
  extract_lets +onlyGivenNames x0; refine Kept.cut (x := x0) ?_ ?_; unfold x0
  refine Kept.step (kept_sendClose ..) (by decide) ?_; refine Kept.step (kept_sendGroups ..) (by decide) ?_
  exact Kept.refl _ _; clear_value x0; intro h1; extract_lets +onlyGivenNames x2; refine Kept.cut (x := x2) ?_ ?_
  unfold x2; refine Kept.step (kept_serveGroups ..) (by decide) ?_; assumption; clear_value x2; intro h3
  refine Kept.step (kept_exchFinish ..) (by decide) ?_; assumption

theorem kept_answered (s : State) :
    Kept [.flights, .queues, .mem, .prop, .bs, .fab, .exch, .outs, .trig, .propR, .exchR, .fabR, .fltR] s (State.answered s) := by
  unfold State.answered
  refine Kept.step (kept_pumpPosts ..) (by decide) ?_; refine Kept.step (kept_exchPump ..) (by decide) ?_
  exact Kept.refl _ _

theorem kept_askHandovers (s : State) (p) :
    Kept [.outs] s (State.askHandovers s p) := by
  unfold State.askHandovers
  refine Kept.iter _ (fun u0 y1 => ?_) ?_; refine Kept.ite ?_ ?_; exact Kept.refl _ _
  refine Kept.step (kept_sendHandover ..) (by decide) ?_; exact Kept.refl _ _; exact Kept.refl _ _

theorem kept_bringUp (s : State) (p) :
    Kept [.fab, .outs] s (State.bringUp s p) := by
  unfold State.bringUp
  refine Kept.step (kept_freshChans ..) (by decide) ?_; refine Kept.step (kept_setPort ..) (by decide) ?_
  exact Kept.refl _ _

theorem kept_disablePort (s : State) (p) :
    Kept [.fab, .outs, .trig, .exchR, .fabR, .fltR] s (State.disablePort s p) := by
  unfold State.disablePort
  extract_lets +onlyGivenNames x0; refine Kept.cut (x := x0) ?_ ?_; unfold x0
  refine Kept.step (kept_reroute ..) (by decide) ?_; refine Kept.step (kept_setPort ..) (by decide) ?_
  exact Kept.refl _ _; clear_value x0; intro h1; refine Kept.iter _ (fun u2 y3 => ?_) ?_
  extract_lets +onlyGivenNames x4; refine Kept.cut (x := x4) ?_ ?_; unfold x4
  refine Kept.step (kept_trainReq ..) (by decide) ?_; exact Kept.refl _ _; clear_value x4; intro h5
  refine Kept.step (kept_setChan ..) (by decide) ?_; assumption; assumption

theorem kept_portCfgWrite (s : State) (p) (v) :
    Kept [.fab, .outs, .trig, .exchR, .fabR, .fltR] s (State.portCfgWrite s p v) := by
  unfold State.portCfgWrite
  refine Kept.ite ?_ ?_; exact Kept.refl _ _; extract_lets +onlyGivenNames x0; clear_value x0
  extract_lets +onlyGivenNames x1; refine Kept.cut (x := x1) ?_ ?_; unfold x1
  refine Kept.step (kept_setReg ..) (by simp) ?_; exact Kept.refl _ _; clear_value x1; intro h2; refine Kept.ite ?_ ?_
  assumption; refine Kept.ite ?_ ?_; refine Kept.step (kept_disablePort ..) (by decide) ?_; assumption
  refine Kept.step (kept_bringUp ..) (by decide) ?_; assumption

theorem kept_clearPortCounts (s : State) (p) :
    Kept [.fabR] s (State.clearPortCounts s p) := by
  unfold State.clearPortCounts
  refine Kept.iter _ (fun u0 y1 => ?_) ?_; refine Kept.step (kept_setReg ..) (by simp) ?_
  refine Kept.step (kept_setReg ..) (by simp) ?_; refine Kept.step (kept_setReg ..) (by simp) ?_; exact Kept.refl _ _
  exact Kept.refl _ _

theorem kept_portReset (s : State) (p) :
    Kept [.secret, .fab, .outs, .trig, .doorR, .exchR, .fabR, .fltR] s (State.portReset s p) := by
  unfold State.portReset
  refine Kept.ite ?_ ?_; exact Kept.refl _ _; extract_lets +onlyGivenNames x0; refine Kept.cut (x := x0) ?_ ?_
  unfold x0; refine Kept.step (kept_resetDoor ..) (by decide) ?_; exact Kept.refl _ _; clear_value x0; intro h1
  extract_lets +onlyGivenNames x2; refine Kept.cut (x := x2) ?_ ?_; unfold x2; refine Kept.ite ?_ ?_
  refine Kept.step (kept_linkDown ..) (by decide) ?_; assumption; assumption; clear_value x2; intro h3
  extract_lets +onlyGivenNames x4; refine Kept.cut (x := x4) ?_ ?_; unfold x4
  refine Kept.step (kept_clearPortCounts ..) (by decide) ?_; assumption; clear_value x4; intro h5
  refine Kept.ite ?_ ?_; refine Kept.step (kept_bringUp ..) (by decide) ?_; assumption; assumption

theorem kept_checkReady (s : State) :
    Kept [.phase, .ctlR, .tabR] s (State.checkReady s) := by
  unfold State.checkReady
  refine Kept.ite ?_ ?_; refine Kept.step (kept_latchIrq ..) (by decide) ?_
  refine Kept.step (kept_setB ..) (by decide) ?_; refine Kept.step (kept_setB ..) (by decide) ?_; refine Kept.upd ?_
  exact Kept.refl _ _; exact Kept.refl _ _

theorem kept_setBf (s : State) (b) (k) (v) :
    Kept [.exch] s (State.setBf s b k v) := by
  unfold State.setBf
  refine Kept.step (kept_setBucket ..) (by decide) ?_; exact Kept.refl _ _

theorem kept_bucketCompletes (s : State) (b) :
    Kept [.board, .trackers, .exch, .trig, .callR, .fltR] s (State.bucketCompletes s b) := by
  unfold State.bucketCompletes
  extract_lets +onlyGivenNames x0; clear_value x0; extract_lets +onlyGivenNames x1; clear_value x1
  extract_lets +onlyGivenNames x2; refine Kept.cut (x := x2) ?_ ?_; unfold x2
  refine Kept.step (kept_setBf ..) (by decide) ?_; exact Kept.refl _ _; clear_value x2; intro h3
  refine Kept.ite ?_ ?_; assumption; extract_lets +onlyGivenNames x4; refine Kept.cut (x := x4) ?_ ?_; unfold x4
  refine Kept.step (kept_passClose ..) (by decide) ?_; assumption; clear_value x4; intro h5; refine Kept.ite ?_ ?_
  refine Kept.step (kept_post ..) (by decide) ?_; assumption; assumption

theorem kept_exchHalt (s : State) (uid) (code) :
    Kept [.lines, .flights, .queues, .exch, .trig, .ctlR, .lineR, .callR, .propR, .fltR] s (State.exchHalt s uid code) := by
  unfold State.exchHalt
  extract_lets +onlyGivenNames x0; refine Kept.cut (x := x0) ?_ ?_; unfold x0; refine Kept.ite ?_ ?_
  refine Kept.step (kept_count ..) (by decide) ?_; exact Kept.refl _ _; exact Kept.refl _ _; clear_value x0; intro h1
  refine Kept.step (kept_engineHalt ..) (by decide) ?_; refine Kept.upd ?_; assumption

theorem kept_bucketSet (s : State) :
    Kept [.lines, .flights, .queues, .mem, .prop, .exch, .trig, .ctlR, .lineR, .callR, .propR, .fltR] s (State.bucketSet s) := by
  unfold State.bucketSet
  split; exact Kept.refl _ _; extract_lets +onlyGivenNames x0; clear_value x0; extract_lets +onlyGivenNames x1
  clear_value x1; refine Kept.ite ?_ ?_; refine Kept.step (kept_exchHalt ..) (by decide) ?_; exact Kept.refl _ _
  refine Kept.ite ?_ ?_; refine Kept.step (kept_exchHalt ..) (by decide) ?_; exact Kept.refl _ _
  extract_lets +onlyGivenNames x2; refine Kept.cutR (x := x2) ?_ ?_; unfold x2
  refine Kept.step (kept_readPlain ..) (by decide) ?_; exact Kept.refl _ _; clear_value x2; intro h3
  extract_lets +onlyGivenNames x4; refine Kept.cut (x := x4) ?_ ?_; unfold x4; assumption; clear_value x4; intro h5
  extract_lets +onlyGivenNames x6; clear_value x6; refine Kept.ite ?_ ?_
  refine Kept.step (kept_exchHalt ..) (by decide) ?_; assumption; split
  refine Kept.step (kept_exchHalt ..) (by decide) ?_; assumption; extract_lets +onlyGivenNames x7; clear_value x7
  extract_lets +onlyGivenNames x8; refine Kept.cut (x := x8) ?_ ?_; unfold x8
  refine Kept.step (kept_setBucket ..) (by decide) ?_; assumption; clear_value x8; intro h9
  extract_lets +onlyGivenNames x10; clear_value x10; extract_lets +onlyGivenNames x11
  refine Kept.cut (x := x11) ?_ ?_; unfold x11; refine Kept.upd ?_; assumption; clear_value x11; intro h12
  refine Kept.step (kept_exchDone ..) (by decide) ?_; assumption

theorem kept_closeOp (s : State) (b) (gen) (count) (max) (sum) (fail) :
    Kept [.board, .trackers, .exch, .trig, .callR, .trkR, .exchR, .fltR] s (State.closeOp s b gen count max sum fail).2 := by
  unfold State.closeOp
  refine Kept.iteR ?_ ?_; refine Kept.step (kept_refuseOp ..) (by decide) ?_; exact Kept.refl _ _
  extract_lets +onlyGivenNames x0; clear_value x0; extract_lets +onlyGivenNames x1; clear_value x1
  extract_lets +onlyGivenNames x2; clear_value x2; extract_lets +onlyGivenNames x3; refine Kept.cut (x := x3) ?_ ?_
  unfold x3; refine Kept.ite ?_ ?_; refine Kept.step (kept_passNote ..) (by decide) ?_
  refine Kept.step (kept_passOpen ..) (by decide) ?_; exact Kept.refl _ _; exact Kept.refl _ _
  clear_value x3; intro h4; extract_lets +onlyGivenNames x5; clear_value x5; extract_lets +onlyGivenNames x6
  clear_value x6; extract_lets +onlyGivenNames x7; clear_value x7; extract_lets +onlyGivenNames x8; clear_value x8
  extract_lets +onlyGivenNames x9; clear_value x9; extract_lets +onlyGivenNames x10; refine Kept.cut (x := x10) ?_ ?_
  unfold x10; refine Kept.step (kept_setBucket ..) (by decide) ?_; assumption; clear_value x10; intro h11
  extract_lets +onlyGivenNames x12; refine Kept.cut (x := x12) ?_ ?_; unfold x12; refine Kept.ite ?_ ?_
  refine Kept.step (kept_exchStray ..) (by decide) ?_; assumption; assumption; clear_value x12; intro h13
  refine Kept.pairR ?_; refine Kept.ite ?_ ?_; refine Kept.step (kept_bucketCompletes ..) (by decide) ?_; assumption
  assumption

theorem kept_ropDone (s : State) (r) :
    Kept [.fab, .outs, .trig, .exchR, .fabR, .fltR] s (State.ropDone s r) := by
  unfold State.ropDone
  refine Kept.step (kept_pumpPosts ..) (by decide) ?_; refine Kept.upd ?_; exact Kept.refl _ _

theorem kept_ropFails (s : State) (r) (code) :
    Kept [.lines, .flights, .fab, .fly, .outs, .trig, .ctlR, .lineR, .callR, .flyR, .exchR, .fabR, .fltR] s (State.ropFails s r code) := by
  unfold State.ropFails
  extract_lets +onlyGivenNames x0; refine Kept.cut (x := x0) ?_ ?_; unfold x0
  refine Kept.step (kept_ropDone ..) (by decide) ?_; exact Kept.refl _ _; clear_value x0; intro h1; split
  refine Kept.step (kept_flySettle ..) (by decide) ?_; refine Kept.step (kept_flyFails ..) (by decide) ?_; assumption
  refine Kept.step (kept_flySettle ..) (by decide) ?_; refine Kept.step (kept_flyFails ..) (by decide) ?_
  refine Kept.step (kept_flyData ..) (by decide) ?_; assumption; refine Kept.ite ?_ ?_
  refine Kept.step (kept_halt ..) (by decide) ?_; assumption; assumption

theorem kept_ropStray (s : State) :
    Kept [.fabR] s (State.ropStray s) := by
  unfold State.ropStray
  refine Kept.step (kept_count ..) (by decide) ?_; exact Kept.refl _ _

theorem kept_doneIn (s : State) (src) (tag) (status) :
    Kept [.lines, .flights, .fab, .fly, .outs, .trig, .ctlR, .powerR, .lineR, .callR, .flyR, .exchR, .fabR, .fltR] s (State.doneIn s src tag status) := by
  unfold State.doneIn
  refine Kept.next (kept_serveOp (fun u0 => ?_) (by decide) ..) ?_; split
  refine Kept.step (kept_ropStray ..) (by decide) ?_; exact Kept.refl _ _; split
  refine Kept.step (kept_ropStray ..) (by decide) ?_; exact Kept.refl _ _; refine Kept.ite ?_ ?_
  refine Kept.step (kept_flySettle ..) (by decide) ?_; refine Kept.step (kept_ropDone ..) (by decide) ?_
  exact Kept.refl _ _; refine Kept.step (kept_ropFails ..) (by decide) ?_; exact Kept.refl _ _; exact Kept.refl _ _

theorem kept_downRetry (s : State) (p) :
    Kept [.fab, .outs] s (State.downRetry s p) := by
  unfold State.downRetry
  refine Kept.ite ?_ ?_; exact Kept.refl _ _; refine Kept.iter _ (fun u0 y1 => ?_) ?_; refine Kept.ite ?_ ?_
  refine Kept.step (kept_trainReq ..) (by decide) ?_; exact Kept.refl _ _; exact Kept.refl _ _; exact Kept.refl _ _

theorem kept_exchAckIn (s : State) (src) (ch) (seq) :
    Kept [.flights, .queues, .mem, .prop, .bs, .fab, .exch, .outs, .trig, .propR, .exchR, .fabR, .fltR] s (State.exchAckIn s src ch seq) := by
  unfold State.exchAckIn
  refine Kept.ite ?_ ?_; refine Kept.step (kept_answered ..) (by decide) ?_; refine Kept.upd ?_; exact Kept.refl _ _
  refine Kept.ite ?_ ?_; split; refine Kept.step (kept_answered ..) (by decide) ?_; refine Kept.upd ?_
  exact Kept.refl _ _; exact Kept.refl _ _; exact Kept.refl _ _

theorem kept_exchAnswer (s : State) (dst) (kind) (ch) (bucket) (gen) (seq) :
    Kept [.fab, .outs, .trig, .exchR, .fabR, .fltR] s (State.exchAnswer s dst kind ch bucket gen seq) := by
  unfold State.exchAnswer
  refine Kept.step (kept_sendPacket ..) (by decide) ?_; exact Kept.refl _ _

theorem kept_exchCheck (s : State) (b) :
    Kept [.mem, .prop, .exch, .trig, .propR, .exchR, .fltR] s (State.exchCheck s b).2 := by
  unfold State.exchCheck
  extract_lets +onlyGivenNames x0; clear_value x0; extract_lets +onlyGivenNames x1; refine Kept.cutR (x := x1) ?_ ?_
  unfold x1; refine Kept.step (kept_accSum ..) (by decide) ?_; exact Kept.refl _ _; clear_value x1; intro h2
  extract_lets +onlyGivenNames x3; refine Kept.cut (x := x3) ?_ ?_; unfold x3
  refine Kept.step (kept_count ..) (by decide) ?_; assumption; clear_value x3; intro h4; refine Kept.iteR ?_ ?_
  refine Kept.pairR ?_; assumption; extract_lets +onlyGivenNames x5; refine Kept.cut (x := x5) ?_ ?_; unfold x5
  refine Kept.step (kept_count ..) (by decide) ?_; refine Kept.step (kept_setBf ..) (by decide) ?_; assumption
  clear_value x5; intro h6; refine Kept.pairR ?_; refine Kept.step (kept_logRecord ..) (by decide) ?_; assumption

theorem kept_sendSync (s : State) (dst) (kind) (bucket) (gen) (arg) (uid) :
    Kept [.fab, .exch, .outs, .trig, .exchR, .fabR, .fltR] s (State.sendSync s dst kind bucket gen arg uid) := by
  unfold State.sendSync
  refine Kept.step (kept_sendPacket ..) (by decide) ?_; refine Kept.upd ?_; exact Kept.refl _ _

theorem kept_zeroWords (s : State) (a) (n) :
    Kept [.mem, .prop] s (State.zeroWords s a n) := by
  unfold State.zeroWords
  refine Kept.ite ?_ ?_; exact Kept.refl _ _; refine Kept.step (kept_markWritten ..) (by decide) ?_
  refine Kept.upd ?_; exact Kept.refl _ _

theorem kept_zeroBytes (s : State) (a) (n) :
    Kept [.mem, .prop, .trig, .propR, .fltR] s (State.zeroBytes s a n) := by
  unfold State.zeroBytes
  extract_lets +onlyGivenNames x0; clear_value x0; extract_lets +onlyGivenNames x1; refine Kept.cut (x := x1) ?_ ?_
  unfold x1; refine Kept.iter _ (fun u2 y3 => ?_) ?_; extract_lets +onlyGivenNames x4; clear_value x4
  refine Kept.step (kept_zeroWords ..) (by decide) ?_; exact Kept.refl _ _; exact Kept.refl _ _
  clear_value x1; intro h5; refine Kept.ite ?_ ?_; assumption; refine Kept.step (kept_put ..) (by decide) ?_
  assumption

theorem kept_zeroPlane (s : State) (a) (n) :
    Kept [.mem, .prop, .trig, .propR, .fltR] s (State.zeroPlane s a n) := by
  unfold State.zeroPlane
  refine Kept.ite ?_ ?_; refine Kept.step (kept_zeroBytes ..) (by decide) ?_; exact Kept.refl _ _; exact Kept.refl _ _

theorem kept_zeroAcc (s : State) (e) :
    Kept [.mem, .prop, .trig, .propR, .fltR] s (State.zeroAcc s e) := by
  unfold State.zeroAcc
  refine Kept.step (kept_zeroPlane ..) (by decide) ?_; exact Kept.refl _ _

theorem kept_zeroPmask (s : State) (e) :
    Kept [.mem, .prop, .trig, .propR, .fltR] s (State.zeroPmask s e) := by
  unfold State.zeroPmask
  refine Kept.step (kept_zeroPlane ..) (by decide) ?_; exact Kept.refl _ _

theorem kept_exchOpen (s : State) :
    Kept [.lines, .flights, .queues, .mem, .prop, .fab, .exch, .outs, .trig, .ctlR, .lineR, .callR, .propR, .exchR, .fabR, .fltR] s (State.exchOpen s) := by
  unfold State.exchOpen
  split; exact Kept.refl _ _; refine Kept.ite ?_ ?_; refine Kept.step (kept_exchFinish ..) (by decide) ?_
  exact Kept.refl _ _; extract_lets +onlyGivenNames x0; clear_value x0; extract_lets +onlyGivenNames x1
  clear_value x1; extract_lets +onlyGivenNames x2; clear_value x2; extract_lets +onlyGivenNames x3; clear_value x3
  split; refine Kept.step (kept_exchHalt ..) (by decide) ?_; exact Kept.refl _ _; extract_lets +onlyGivenNames x4
  clear_value x4; extract_lets +onlyGivenNames x5; clear_value x5; extract_lets +onlyGivenNames x6; clear_value x6
  extract_lets +onlyGivenNames x7; refine Kept.cut (x := x7) ?_ ?_; unfold x7
  refine Kept.step (kept_setBucket ..) (by decide) ?_; refine Kept.step (kept_startFlight ..) (by decide) ?_
  exact Kept.refl _ _; clear_value x7; intro h8; extract_lets +onlyGivenNames x9; refine Kept.cut (x := x9) ?_ ?_
  unfold x9; refine Kept.step (kept_zeroPmask ..) (by decide) ?_; assumption; clear_value x9; intro h10
  extract_lets +onlyGivenNames x11; refine Kept.cut (x := x11) ?_ ?_; unfold x11; refine Kept.ite ?_ ?_
  refine Kept.step (kept_zeroAcc ..) (by decide) ?_; assumption; assumption; clear_value x11; intro h12
  extract_lets +onlyGivenNames x13; clear_value x13; extract_lets +onlyGivenNames x14
  refine Kept.cut (x := x14) ?_ ?_; unfold x14; refine Kept.upd ?_; assumption; clear_value x14; intro h15
  extract_lets +onlyGivenNames x16; refine Kept.cut (x := x16) ?_ ?_; unfold x16
  refine Kept.fold _ (fun u17 y18 => ?_) ?_; refine Kept.step (kept_sendSync ..) (by decide) ?_; exact Kept.refl _ _
  assumption; clear_value x16; intro h19; refine Kept.step (kept_exchFinish ..) (by decide) ?_; assumption

theorem kept_sendStart (s : State) (f) :
    Kept [.flights, .exch] s (State.sendStart s f) := by
  unfold State.sendStart
  extract_lets +onlyGivenNames x0; clear_value x0; extract_lets +onlyGivenNames x1; clear_value x1
  extract_lets +onlyGivenNames x2; refine Kept.cut (x := x2) ?_ ?_; unfold x2
  refine Kept.step (kept_startFlight ..) (by decide) ?_; exact Kept.refl _ _; clear_value x2; intro h3
  extract_lets +onlyGivenNames x4; refine Kept.cut (x := x4) ?_ ?_; unfold x4
  refine Kept.step (kept_setBf ..) (by decide) ?_; refine Kept.step (kept_setBf ..) (by decide) ?_
  refine Kept.step (kept_setBf ..) (by decide) ?_; assumption; clear_value x4; intro h5
  extract_lets +onlyGivenNames x6; clear_value x6; extract_lets +onlyGivenNames x7; refine Kept.cut (x := x7) ?_ ?_
  unfold x7; refine Kept.ite ?_ ?_; refine Kept.upd ?_; assumption; assumption; clear_value x7; intro h8
  refine Kept.upd ?_; assumption

theorem kept_exchSend (s : State) :
    Kept [.lines, .flights, .queues, .mem, .prop, .bs, .fab, .exch, .outs, .trig, .ctlR, .lineR, .callR, .propR, .exchR, .fabR, .fltR] s (State.exchSend s) := by
  unfold State.exchSend
  split; exact Kept.refl _ _; refine Kept.ite ?_ ?_; refine Kept.step (kept_exchPump ..) (by decide) ?_
  exact Kept.refl _ _; split; refine Kept.step (kept_exchHalt ..) (by decide) ?_; exact Kept.refl _ _
  refine Kept.ite ?_ ?_; exact Kept.refl _ _; refine Kept.step (kept_exchPump ..) (by decide) ?_
  refine Kept.step (kept_sendStart ..) (by decide) ?_; exact Kept.refl _ _

theorem kept_repair (s : State) (f) :
    Kept [.mem, .prop, .fab, .exch, .outs, .trig, .propR, .exchR, .fabR, .fltR] s (State.repair s f) := by
  unfold State.repair
  extract_lets +onlyGivenNames x0; clear_value x0; extract_lets +onlyGivenNames x1; clear_value x1
  extract_lets +onlyGivenNames x2; clear_value x2; extract_lets +onlyGivenNames x3; refine Kept.cut (x := x3) ?_ ?_
  unfold x3; refine Kept.step (kept_zeroPmask ..) (by decide) ?_; refine Kept.step (kept_zeroAcc ..) (by decide) ?_
  exact Kept.refl _ _; clear_value x3; intro h4; extract_lets +onlyGivenNames x5; clear_value x5
  extract_lets +onlyGivenNames x6; clear_value x6; extract_lets +onlyGivenNames x7; refine Kept.cut (x := x7) ?_ ?_
  unfold x7; refine Kept.step (kept_count ..) (by decide) ?_; refine Kept.step (kept_setBucket ..) (by decide) ?_
  assumption; clear_value x7; intro h8; extract_lets +onlyGivenNames x9; clear_value x9
  extract_lets +onlyGivenNames x10; refine Kept.cut (x := x10) ?_ ?_; unfold x10; refine Kept.upd ?_; assumption
  clear_value x10; intro h11; refine Kept.fold _ (fun u12 y13 => ?_) ?_
  refine Kept.step (kept_sendSync ..) (by decide) ?_; exact Kept.refl _ _; assumption

theorem kept_heldBucket (s : State) (f) :
    Kept [.lines, .flights, .queues, .mem, .prop, .fab, .exch, .outs, .trig, .ctlR, .lineR, .callR, .propR, .exchR, .fabR, .fltR] s (State.heldBucket s f) := by
  unfold State.heldBucket
  extract_lets +onlyGivenNames x0; clear_value x0; refine Kept.ite ?_ ?_
  refine Kept.step (kept_repair ..) (by decide) ?_; exact Kept.refl _ _
  refine Kept.step (kept_exchHalt ..) (by decide) ?_; refine Kept.step (kept_setBf ..) (by decide) ?_
  exact Kept.refl _ _

theorem kept_settled (s : State) (f) :
    Kept [.flights, .queues, .mem, .prop, .exch, .trig, .propR, .fltR] s (State.settled s f) := by
  unfold State.settled
  extract_lets +onlyGivenNames x0; clear_value x0; extract_lets +onlyGivenNames x1; clear_value x1
  extract_lets +onlyGivenNames x2; refine Kept.cut (x := x2) ?_ ?_; unfold x2
  refine Kept.step (kept_setBf ..) (by decide) ?_; exact Kept.refl _ _; clear_value x2; intro h3
  extract_lets +onlyGivenNames x4; clear_value x4; extract_lets +onlyGivenNames x5; refine Kept.cut (x := x5) ?_ ?_
  unfold x5; refine Kept.ite ?_ ?_; assumption; refine Kept.step (kept_put ..) (by decide) ?_; assumption
  clear_value x5; intro h6; refine Kept.step (kept_exchDone ..) (by decide) ?_; assumption

theorem kept_settleStep (s : State) (f) :
    Kept [.lines, .flights, .queues, .mem, .prop, .fab, .exch, .outs, .trig, .ctlR, .lineR, .callR, .propR, .exchR, .fabR, .fltR] s (State.settleStep s f) := by
  unfold State.settleStep
  extract_lets +onlyGivenNames x0; clear_value x0; extract_lets +onlyGivenNames x1; clear_value x1
  extract_lets +onlyGivenNames x2; clear_value x2; refine Kept.ite ?_ ?_
  refine Kept.step (kept_exchHalt ..) (by decide) ?_; exact Kept.refl _ _; refine Kept.ite ?_ ?_
  refine Kept.step (kept_heldBucket ..) (by decide) ?_; exact Kept.refl _ _; refine Kept.ite ?_ ?_
  exact Kept.refl _ _; refine Kept.ite ?_ ?_; refine Kept.step (kept_settled ..) (by decide) ?_; exact Kept.refl _ _
  refine Kept.ite ?_ ?_; exact Kept.refl _ _; refine Kept.ite ?_ ?_
  refine Kept.step (kept_exchHalt ..) (by decide) ?_; exact Kept.refl _ _; extract_lets +onlyGivenNames x3
  refine Kept.cutR (x := x3) ?_ ?_; unfold x3; refine Kept.step (kept_exchCheck ..) (by decide) ?_
  exact Kept.refl _ _; clear_value x3; intro h4; refine Kept.ite ?_ ?_
  refine Kept.step (kept_settled ..) (by decide) ?_; assumption; refine Kept.step (kept_heldBucket ..) (by decide) ?_
  assumption

theorem kept_exchSettle (s : State) :
    Kept [.lines, .flights, .queues, .mem, .prop, .fab, .exch, .outs, .trig, .ctlR, .lineR, .callR, .propR, .exchR, .fabR, .fltR] s (State.exchSettle s) := by
  unfold State.exchSettle
  split; exact Kept.refl _ _; refine Kept.ite ?_ ?_; refine Kept.step (kept_settleStep ..) (by decide) ?_
  exact Kept.refl _ _; split; refine Kept.step (kept_exchHalt ..) (by decide) ?_; exact Kept.refl _ _
  extract_lets +onlyGivenNames x0; refine Kept.cut (x := x0) ?_ ?_; unfold x0
  refine Kept.step (kept_startFlight ..) (by decide) ?_; exact Kept.refl _ _; clear_value x0; intro h1
  refine Kept.step (kept_settleStep ..) (by decide) ?_; refine Kept.upd ?_; assumption

theorem kept_retireChan (s : State) (p) (c) :
    Kept [.fab, .outs, .trig, .fltR] s (State.retireChan s p c) := by
  unfold State.retireChan
  extract_lets +onlyGivenNames x0; clear_value x0; extract_lets +onlyGivenNames x1; clear_value x1
  extract_lets +onlyGivenNames x2; refine Kept.cut (x := x2) ?_ ?_; unfold x2
  refine Kept.step (kept_trainReq ..) (by decide) ?_; exact Kept.refl _ _; clear_value x2; intro h3
  extract_lets +onlyGivenNames x4; clear_value x4; extract_lets +onlyGivenNames x5; refine Kept.cut (x := x5) ?_ ?_
  unfold x5; refine Kept.step (kept_setChan ..) (by decide) ?_; assumption; clear_value x5; intro h6
  refine Kept.ite ?_ ?_; assumption; refine Kept.step (kept_logRecord ..) (by decide) ?_; assumption

theorem kept_handover (s : State) (p) (r) (last) (reply) :
    Kept [.fab, .outs, .trig, .exchR, .fabR, .fltR] s (State.handover s p r last reply) := by
  unfold State.handover
  refine Kept.ite ?_ ?_; exact Kept.refl _ _; extract_lets +onlyGivenNames x0; refine Kept.cut (x := x0) ?_ ?_
  unfold x0; refine Kept.ite ?_ ?_; refine Kept.step (kept_afterRetire ..) (by decide) ?_
  refine Kept.step (kept_retireChan ..) (by decide) ?_; exact Kept.refl _ _; refine Kept.ite ?_ ?_; exact Kept.refl _ _
  refine Kept.step (kept_sendHandover ..) (by decide) ?_; exact Kept.refl _ _; clear_value x0; intro h1
  extract_lets +onlyGivenNames x2; clear_value x2; refine Kept.ite ?_ ?_; assumption; extract_lets +onlyGivenNames x3
  clear_value x3; extract_lets +onlyGivenNames x4; refine Kept.cut (x := x4) ?_ ?_; unfold x4
  refine Kept.step (kept_setChan ..) (by decide) ?_; assumption; clear_value x4; intro h5
  extract_lets +onlyGivenNames x6; refine Kept.cut (x := x6) ?_ ?_; unfold x6; refine Kept.iter _ (fun u7 y8 => ?_) ?_
  refine Kept.step (kept_setWaiting ..) (by decide) ?_; exact Kept.refl _ _; assumption; clear_value x6; intro h9
  refine Kept.step (kept_pump ..) (by decide) ?_; assumption

theorem kept_holdPort (s : State) (p) (st : PortState) :
    Kept [.phase, .fab, .trig, .ctlR, .tabR, .fltR] s (State.holdPort s p st) := by
  unfold State.holdPort
  extract_lets +onlyGivenNames x0; clear_value x0; refine Kept.step (kept_checkReady ..) (by decide) ?_
  refine Kept.step (kept_logRecord ..) (by decide) ?_; refine Kept.step (kept_setPort ..) (by decide) ?_
  exact Kept.refl _ _

theorem kept_sendLinks (s : State) (p) (bytes) :
    Kept [.outs] s (State.sendLinks s p bytes) := by
  unfold State.sendLinks
  refine Kept.fold _ (fun u0 y1 => ?_) ?_; refine Kept.step (kept_sendLink ..) (by decide) ?_; exact Kept.refl _ _
  exact Kept.refl _ _

theorem kept_tryUp (s : State) (p) :
    Kept [.phase, .fab, .outs, .ctlR, .fabR, .tabR] s (State.tryUp s p) := by
  unfold State.tryUp
  extract_lets +onlyGivenNames x0; clear_value x0; refine Kept.ite ?_ ?_
  refine Kept.step (kept_checkReady ..) (by decide) ?_; refine Kept.step (kept_pump ..) (by decide) ?_
  refine Kept.step (kept_setPort ..) (by decide) ?_; exact Kept.refl _ _; exact Kept.refl _ _

theorem kept_weighVerdict (s : State) (p) :
    Kept [.phase, .fab, .outs, .trig, .ctlR, .fabR, .tabR, .fltR] s (State.weighVerdict s p) := by
  unfold State.weighVerdict
  extract_lets +onlyGivenNames x0; clear_value x0; refine Kept.ite ?_ ?_; exact Kept.refl _ _; split
  refine Kept.step (kept_holdPort ..) (by decide) ?_; exact Kept.refl _ _
  refine Kept.step (kept_tryUp ..) (by decide) ?_; exact Kept.refl _ _; exact Kept.refl _ _

theorem kept_hello (s : State) (p) (peer) :
    Kept [.phase, .fab, .outs, .trig, .ctlR, .fabR, .tabR, .fltR] s (State.hello s p peer) := by
  unfold State.hello
  extract_lets +onlyGivenNames x0; clear_value x0; refine Kept.ite ?_ ?_; extract_lets +onlyGivenNames x1
  clear_value x1; extract_lets +onlyGivenNames x2; clear_value x2; extract_lets +onlyGivenNames x3
  refine Kept.cut (x := x3) ?_ ?_; unfold x3; refine Kept.step (kept_setPort ..) (by decide) ?_; exact Kept.refl _ _
  clear_value x3; intro h4; extract_lets +onlyGivenNames x5; refine Kept.cut (x := x5) ?_ ?_; unfold x5
  refine Kept.step (kept_sendLinks ..) (by decide) ?_; assumption; clear_value x5; intro h6; split
  refine Kept.step (kept_holdPort ..) (by decide) ?_; assumption
  refine Kept.step (kept_weighVerdict ..) (by decide) ?_; assumption; exact Kept.refl _ _

theorem kept_linkAck (s : State) (p) (c) (payload) :
    Kept [.fab, .outs, .fabR] s (State.linkAck s p c payload) := by
  unfold State.linkAck
  refine Kept.ite ?_ ?_; exact Kept.refl _ _; extract_lets +onlyGivenNames x0; clear_value x0
  extract_lets +onlyGivenNames x1; clear_value x1; extract_lets +onlyGivenNames x2; clear_value x2
  extract_lets +onlyGivenNames x3; clear_value x3; refine Kept.step (kept_pump ..) (by decide) ?_
  refine Kept.step (kept_setChan ..) (by decide) ?_; exact Kept.refl _ _

theorem kept_goBackChan (s : State) (p) (c) (last) :
    Kept [.fab, .outs, .trig, .exchR, .fabR, .fltR] s (State.goBackChan s p c last) := by
  unfold State.goBackChan
  extract_lets +onlyGivenNames x0; clear_value x0; extract_lets +onlyGivenNames x1; clear_value x1
  extract_lets +onlyGivenNames x2; clear_value x2; extract_lets +onlyGivenNames x3; refine Kept.cut (x := x3) ?_ ?_
  unfold x3; refine Kept.step (kept_count ..) (by simp) ?_; refine Kept.step (kept_setChan ..) (by decide) ?_
  exact Kept.refl _ _; clear_value x3; intro h4; refine Kept.ite ?_ ?_
  refine Kept.step (kept_afterRetire ..) (by decide) ?_; refine Kept.step (kept_retireChan ..) (by decide) ?_
  assumption; refine Kept.fold _ (fun u5 y6 => ?_) ?_; refine Kept.step (kept_emit ..) (by decide) ?_
  exact Kept.refl _ _; assumption

theorem kept_linkNak (s : State) (p) (c) (last) :
    Kept [.fab, .outs, .trig, .exchR, .fabR, .fltR] s (State.linkNak s p c last) := by
  unfold State.linkNak
  refine Kept.ite ?_ ?_; refine Kept.step (kept_pump ..) (by decide) ?_
  refine Kept.step (kept_goBackChan ..) (by decide) ?_; exact Kept.refl _ _; exact Kept.refl _ _

theorem kept_verdict (s : State) (p) (v) :
    Kept [.phase, .fab, .outs, .trig, .ctlR, .fabR, .tabR, .fltR] s (State.verdict s p v) := by
  unfold State.verdict
  extract_lets +onlyGivenNames x0; clear_value x0; refine Kept.ite ?_ ?_
  refine Kept.step (kept_weighVerdict ..) (by decide) ?_; refine Kept.step (kept_setPort ..) (by decide) ?_
  exact Kept.refl _ _; exact Kept.refl _ _

theorem kept_linkIn (s : State) (p) (c) (f) :
    Kept [.phase, .fab, .outs, .trig, .ctlR, .exchR, .fabR, .tabR, .fltR] s (State.linkIn s p c f) := by
  unfold State.linkIn
  extract_lets +onlyGivenNames x0; clear_value x0; extract_lets +onlyGivenNames x1; clear_value x1; split
  refine Kept.step (kept_linkAck ..) (by decide) ?_; exact Kept.refl _ _
  refine Kept.step (kept_linkNak ..) (by decide) ?_; exact Kept.refl _ _
  refine Kept.step (kept_hello ..) (by decide) ?_; exact Kept.refl _ _
  refine Kept.step (kept_handover ..) (by decide) ?_; exact Kept.refl _ _
  refine Kept.step (kept_verdict ..) (by decide) ?_; exact Kept.refl _ _; exact Kept.refl _ _

theorem kept_flitAccept (s : State) (p) (c) (f) :
    Kept [.phase, .fab, .outs, .trig, .ctlR, .exchR, .fabR, .tabR, .fltR] s (State.flitAccept s p c f) := by
  unfold State.flitAccept
  refine Kept.ite ?_ ?_; exact Kept.refl _ _; refine Kept.ite ?_ ?_; extract_lets +onlyGivenNames x0
  refine Kept.cut (x := x0) ?_ ?_; unfold x0; refine Kept.step (kept_count ..) (by simp) ?_; exact Kept.refl _ _
  clear_value x0; intro h1; refine Kept.ite ?_ ?_; assumption; refine Kept.step (kept_sendLink ..) (by decide) ?_
  assumption; refine Kept.ite ?_ ?_; refine Kept.step (kept_linkIn ..) (by decide) ?_; exact Kept.refl _ _
  refine Kept.ite ?_ ?_; exact Kept.refl _ _; refine Kept.ite ?_ ?_
  refine Kept.step (kept_sendLink ..) (by decide) ?_; exact Kept.refl _ _; extract_lets +onlyGivenNames x2
  clear_value x2; extract_lets +onlyGivenNames x3; refine Kept.cut (x := x3) ?_ ?_; unfold x3
  refine Kept.step (kept_setChan ..) (by decide) ?_; exact Kept.refl _ _; clear_value x3; intro h4
  extract_lets +onlyGivenNames x5; clear_value x5; refine Kept.step (kept_sendAck ..) (by decide) ?_
  refine Kept.step (kept_routeFlit ..) (by decide) ?_; assumption

theorem kept_partFailed (s : State) (o) :
    Kept [.exch, .trig, .exchR, .fltR] s (State.partFailed s o) := by
  unfold State.partFailed
  extract_lets +onlyGivenNames x0; clear_value x0; extract_lets +onlyGivenNames x1; extract_lets +onlyGivenNames x2
  refine Kept.cut (x := x2) ?_ ?_; unfold x2; split; unfold x1; refine Kept.step (kept_setBucket ..) (by decide) ?_
  exact Kept.refl _ _; unfold x1; refine Kept.step (kept_setBucket ..) (by decide) ?_; exact Kept.refl _ _
  exact Kept.refl _ _; clear_value x2; intro h3; refine Kept.step (kept_logRecord ..) (by decide) ?_
  refine Kept.step (kept_count ..) (by decide) ?_; assumption

theorem kept_resendOp (s : State) (o) :
    Kept [.mem, .prop, .bs, .fab, .exch, .outs, .timers, .trig, .propR, .exchR, .fabR, .fltR] s (State.resendOp s o) := by
  unfold State.resendOp
  extract_lets +onlyGivenNames x0; refine Kept.ite ?_ ?_; extract_lets +onlyGivenNames x1
  refine Kept.cut (x := x1) ?_ ?_; unfold x1; refine Kept.step (kept_partFailed ..) (by decide) ?_
  exact Kept.refl _ _; clear_value x1; intro h2; extract_lets +onlyGivenNames x3; clear_value x3
  refine Kept.step (kept_sendOp ..) (by decide) ?_; refine Kept.step (kept_restart ..) (by decide) ?_; unfold x0
  refine Kept.upd ?_; assumption; extract_lets +onlyGivenNames x4; clear_value x4; extract_lets +onlyGivenNames x5
  refine Kept.cutR (x := x5) ?_ ?_; unfold x5; refine Kept.step (kept_pagesReady ..) (by decide) ?_
  exact Kept.refl _ _; clear_value x5; intro h6; extract_lets +onlyGivenNames x7; clear_value x7
  refine Kept.ite ?_ ?_; refine Kept.step (kept_sendOp ..) (by decide) ?_
  refine Kept.step (kept_restart ..) (by decide) ?_; refine Kept.step (kept_count ..) (by decide) ?_; unfold x0
  refine Kept.upd ?_; assumption; assumption

theorem kept_goBack (s : State) (dst) (ch) (p) :
    Kept [.flights, .queues, .mem, .prop, .bs, .fab, .exch, .outs, .timers, .trig, .propR, .exchR, .fabR, .fltR] s (State.goBack s dst ch p) := by
  unfold State.goBack
  refine Kept.step (kept_answered ..) (by decide) ?_; refine Kept.fold _ (fun u0 y1 => ?_) ?_
  refine Kept.step (kept_resendOp ..) (by decide) ?_; exact Kept.refl _ _; exact Kept.refl _ _

theorem kept_nakIn (s : State) (src) (ch) (last) :
    Kept [.flights, .queues, .mem, .prop, .bs, .fab, .exch, .outs, .timers, .trig, .propR, .exchR, .fabR, .fltR] s (State.nakIn s src ch last) := by
  unfold State.nakIn
  refine Kept.step (kept_goBack ..) (by decide) ?_; exact Kept.refl _ _

theorem kept_noticeIn (s : State) (b) (gen) (shift) :
    Kept [.exch] s (State.noticeIn s b gen shift) := by
  unfold State.noticeIn
  extract_lets +onlyGivenNames x0; clear_value x0; refine Kept.ite ?_ ?_
  refine Kept.step (kept_setBf ..) (by decide) ?_; refine Kept.step (kept_setBf ..) (by decide) ?_
  exact Kept.refl _ _; exact Kept.refl _ _

theorem kept_phyErr (s : State) (p) (c) :
    Kept [.fab, .outs, .timers] s (State.phyErr s p c) := by
  unfold State.phyErr
  refine Kept.ite ?_ ?_; exact Kept.refl _ _; refine Kept.step (kept_trainReq ..) (by decide) ?_
  refine Kept.step (kept_setChan ..) (by decide) ?_; refine Kept.step (kept_restart ..) (by decide) ?_
  exact Kept.refl _ _

theorem kept_phyReady (s : State) (p) (c) :
    Kept [.fab, .outs] s (State.phyReady s p c) := by
  unfold State.phyReady
  refine Kept.ite ?_ ?_; exact Kept.refl _ _; extract_lets +onlyGivenNames x0; clear_value x0
  extract_lets +onlyGivenNames x1; refine Kept.cut (x := x1) ?_ ?_; unfold x1
  refine Kept.step (kept_setChan ..) (by decide) ?_; exact Kept.refl _ _; clear_value x1; intro h2
  extract_lets +onlyGivenNames x3; clear_value x3; refine Kept.ite ?_ ?_
  refine Kept.step (kept_trainReq ..) (by decide) ?_; assumption; assumption

theorem kept_readDataIn (s : State) (src) (tag) (status) (data) :
    Kept [.flights, .fab, .fly, .outs, .trig, .powerR, .flyR, .exchR, .fabR, .fltR] s (State.readDataIn s src tag status data) := by
  unfold State.readDataIn
  refine Kept.next (kept_serveOp (fun u0 => ?_) (by decide) ..) ?_; split
  refine Kept.step (kept_ropStray ..) (by decide) ?_; exact Kept.refl _ _; split
  refine Kept.step (kept_flySettle ..) (by decide) ?_; refine Kept.step (kept_flyData ..) (by decide) ?_
  refine Kept.step (kept_ropDone ..) (by decide) ?_; exact Kept.refl _ _
  refine Kept.step (kept_ropStray ..) (by decide) ?_; exact Kept.refl _ _; exact Kept.refl _ _

theorem kept_sendReadData (s : State) (dst) (ch) (tag) (bad) (data) :
    Kept [.fab, .outs, .trig, .exchR, .fabR, .fltR] s (State.sendReadData s dst ch tag bad data) := by
  unfold State.sendReadData
  refine Kept.step (kept_sendPacket ..) (by decide) ?_; exact Kept.refl _ _

theorem kept_readIn (s : State) (src) (addr) (tag) (count) :
    Kept [.mem, .prop, .fab, .outs, .trig, .powerR, .propR, .exchR, .fabR, .fltR] s (State.readIn s src addr tag count) := by
  unfold State.readIn
  refine Kept.next (kept_serveOp (fun u0 => ?_) (by decide) ..) ?_; extract_lets +onlyGivenNames x1; clear_value x1
  refine Kept.ite ?_ ?_; refine Kept.step (kept_sendReadData ..) (by decide) ?_
  refine Kept.step (kept_count ..) (by decide) ?_; exact Kept.refl _ _; extract_lets +onlyGivenNames x2
  refine Kept.cutR (x := x2) ?_ ?_; unfold x2; refine Kept.step (kept_readPlain ..) (by decide) ?_
  exact Kept.refl _ _; clear_value x2; intro h3; refine Kept.step (kept_sendReadData ..) (by decide) ?_; assumption
  exact Kept.refl _ _

theorem kept_refusedIn (s : State) (src) (ch) (seq) :
    Kept [.flights, .queues, .mem, .prop, .bs, .fab, .exch, .outs, .trig, .propR, .exchR, .fabR, .fltR] s (State.refusedIn s src ch seq) := by
  unfold State.refusedIn
  split; exact Kept.refl _ _; extract_lets +onlyGivenNames x0; refine Kept.cut (x := x0) ?_ ?_; unfold x0
  refine Kept.ite ?_ ?_; refine Kept.step (kept_partFailed ..) (by decide) ?_; exact Kept.refl _ _
  exact Kept.refl _ _; clear_value x0; intro h1; refine Kept.step (kept_answered ..) (by decide) ?_
  refine Kept.upd ?_; assumption

theorem kept_replayWrite (s : State) (v) :
    Kept [.exch] s (State.replayWrite s v) := by
  unfold State.replayWrite
  extract_lets +onlyGivenNames x0; clear_value x0; extract_lets +onlyGivenNames x1; clear_value x1; refine Kept.upd ?_
  exact Kept.refl _ _

theorem kept_replayTimeout (s : State) (p) (c) :
    Kept [.fab, .outs, .timers, .trig, .exchR, .fabR, .fltR] s (State.replayTimeout s p c) := by
  unfold State.replayTimeout
  extract_lets +onlyGivenNames x0; clear_value x0; extract_lets +onlyGivenNames x1; clear_value x1
  refine Kept.ite ?_ ?_; exact Kept.refl _ _; refine Kept.step (kept_pump ..) (by decide) ?_
  refine Kept.step (kept_goBackChan ..) (by decide) ?_; refine Kept.step (kept_restart ..) (by decide) ?_
  exact Kept.refl _ _

theorem kept_resendIn (s : State) (src) (b) (gen) (att) :
    Kept [.flights, .queues, .mem, .prop, .bs, .fab, .exch, .outs, .trig, .propR, .exchR, .fabR, .fltR] s (State.resendIn s src b gen att) := by
  unfold State.resendIn
  extract_lets +onlyGivenNames x0; extract_lets +onlyGivenNames x1; extract_lets +onlyGivenNames x2
  refine Kept.ite ?_ ?_; exact Kept.refl _ _; extract_lets +onlyGivenNames x3; extract_lets +onlyGivenNames x4
  refine Kept.cut (x := x4) ?_ ?_; unfold x4; refine Kept.upd ?_; exact Kept.refl _ _; intro h5
  extract_lets +onlyGivenNames x6; refine Kept.cut (x := x6) ?_ ?_; unfold x6; refine Kept.ite ?_ ?_
  refine Kept.step (kept_setBf ..) (by decide) ?_; assumption; assumption; intro h7; refine Kept.ite ?_ ?_
  refine Kept.step (kept_exchPump ..) (by decide) ?_; refine Kept.upd ?_; assumption
  refine Kept.step (kept_sendSync ..) (by decide) ?_; assumption

theorem kept_ropTimeout (s : State) (tag) :
    Kept [.lines, .flights, .fab, .fly, .outs, .trig, .ctlR, .lineR, .callR, .flyR, .exchR, .fabR, .fltR] s (State.ropTimeout s tag) := by
  unfold State.ropTimeout
  refine Kept.ite ?_ ?_; exact Kept.refl _ _; split; exact Kept.refl _ _
  refine Kept.step (kept_ropFails ..) (by decide) ?_; refine Kept.step (kept_count ..) (by decide) ?_
  exact Kept.refl _ _

theorem kept_sequenced {m : List Field} {f : State → Bool × State} (k : ∀ u, Kept m u (f u).2)
    (sub : (([.fab, .exch, .outs, .trig, .exchR, .fabR, .fltR] : List Field).all fun f => m.contains f) = true) (s : State) (src ch seq bucket gen) :
    Kept m s (State.sequenced s src ch seq bucket gen f) := by
  have go (u : State) (b : Bool) (w : BitVec 32) : Kept m u
      ({ u with exch := { u.exch with replay := NMap.set none u.exch.replay (exKey src ch) (some w) } }.exchAnswer src
        (if b then 8 else 10) ch bucket gen seq.toNat) :=
    Kept.mono (l := [.fab, .exch, .outs, .trig, .exchR, .fabR, .fltR]) (Kept.step (kept_exchAnswer ..) (by decide)
      (Kept.upd (Kept.refl _ _))) sub
  have out (w : Nat) (r : Nat) (h : Field.ofReg r = .exchR) (n : Nat) : Kept m s ((s.count r 1).exchAnswer src w ch bucket gen n) :=
    Kept.mono (l := [.fab, .exch, .outs, .trig, .exchR, .fabR, .fltR]) (Kept.step (kept_exchAnswer ..) (by decide)
      (Kept.mono (kept_count ..) (by rw [h]; decide))) sub
  unfold State.sequenced
  dsimp only
  split
  · exact Kept.next (go _ _ _) (k _)
  · refine Kept.ite (Kept.next (go _ _ _) (k _)) (Kept.ite ?_ ?_) <;> exact out _ _ (by decide) _

theorem kept_skipOp (s : State) (b) (gen) (group) :
    Kept [.exch, .trig, .exchR, .fltR] s (State.skipOp s b gen group).2 := by
  unfold State.skipOp
  refine Kept.iteR ?_ ?_; refine Kept.pairR ?_; refine Kept.step (kept_failPart ..) (by decide) ?_
  exact Kept.refl _ _; refine Kept.step (kept_refuseOp ..) (by decide) ?_; exact Kept.refl _ _

theorem kept_syncIn {m : List Field} {f : State → State} (k : ∀ u, Kept m u (f u))
    (sub : (([.fab, .outs, .trig, .powerR, .exchR, .fabR, .fltR] : List Field).all fun f => m.contains f) = true) (s : State) (src kind bucket gen arg) :
    Kept m s (State.syncIn s src kind bucket gen arg f) := by
  unfold State.syncIn
  refine kept_serveOp (fun u => Kept.next (k _) (Kept.mono (l := [.fab, .outs, .trig, .powerR, .exchR, .fabR, .fltR]) ?_ sub)) ?_ ..
  · exact Kept.mono (kept_exchAnswer ..) (by decide)
  · exact Field.sub_trans (by decide) sub

theorem kept_syncTimeout (s : State) (i) :
    Kept [.fab, .exch, .outs, .timers, .trig, .exchR, .fabR, .fltR] s (State.syncTimeout s i) := by
  unfold State.syncTimeout
  split; exact Kept.refl _ _; refine Kept.ite ?_ ?_; exact Kept.refl _ _; extract_lets +onlyGivenNames x0
  refine Kept.cut (x := x0) ?_ ?_; unfold x0; refine Kept.step (kept_restart ..) (by decide) ?_; exact Kept.refl _ _
  clear_value x0; intro h1; extract_lets +onlyGivenNames x2; clear_value x2; extract_lets +onlyGivenNames x3
  refine Kept.cut (x := x3) ?_ ?_; unfold x3; refine Kept.upd ?_; assumption; clear_value x3; intro h4
  refine Kept.step (kept_sendPacket ..) (by decide) ?_; refine Kept.step (kept_count ..) (by decide) ?_; assumption

theorem kept_tableauIn (s : State) (id) (origin) :
    Kept [.fab, .outs, .trig, .powerR] s (State.tableauIn s id origin) := by
  unfold State.tableauIn
  refine Kept.ite ?_ ?_; exact Kept.refl _ _; extract_lets +onlyGivenNames x0; refine Kept.cut (x := x0) ?_ ?_
  unfold x0; refine Kept.step (kept_takeLocal ..) (by decide) ?_; refine Kept.step (kept_leaveIdle ..) (by decide) ?_
  exact Kept.refl _ _; clear_value x0; intro h1; refine Kept.ite ?_ ?_; refine Kept.upd ?_; assumption; assumption

theorem kept_trainOutcome (s : State) (p) :
    Kept [.phase, .fab, .outs, .trig, .ctlR, .exchR, .fabR, .tabR, .fltR] s (State.trainOutcome s p) := by
  unfold State.trainOutcome
  refine Kept.ite ?_ ?_; exact Kept.refl _ _; refine Kept.ite ?_ ?_
  refine Kept.step (kept_checkReady ..) (by decide) ?_; refine Kept.step (kept_enterDown ..) (by decide) ?_
  exact Kept.refl _ _; refine Kept.step (kept_tryUp ..) (by decide) ?_; exact Kept.refl _ _

theorem kept_trainDone (s : State) (p) (c) :
    Kept [.phase, .fab, .outs, .trig, .ctlR, .exchR, .fabR, .tabR, .fltR] s (State.trainDone s p c) := by
  unfold State.trainDone
  extract_lets +onlyGivenNames x0; clear_value x0; extract_lets +onlyGivenNames x1; clear_value x1
  refine Kept.ite ?_ ?_; exact Kept.refl _ _; extract_lets +onlyGivenNames x2; refine Kept.cut (x := x2) ?_ ?_
  unfold x2; refine Kept.step (kept_trainReq ..) (by decide) ?_; exact Kept.refl _ _; clear_value x2; intro h3
  refine Kept.ite ?_ ?_; extract_lets +onlyGivenNames x4; clear_value x4; extract_lets +onlyGivenNames x5
  refine Kept.cut (x := x5) ?_ ?_; unfold x5; refine Kept.step (kept_setChan ..) (by decide) ?_; assumption
  clear_value x5; intro h6; extract_lets +onlyGivenNames x7; refine Kept.cut (x := x7) ?_ ?_; unfold x7
  refine Kept.step (kept_sendAck ..) (by decide) ?_; assumption; clear_value x7; intro h8
  extract_lets +onlyGivenNames x9; clear_value x9; refine Kept.step (kept_pump ..) (by decide) ?_
  refine Kept.step (kept_askHandovers ..) (by decide) ?_; refine Kept.step (kept_goBackChan ..) (by decide) ?_
  assumption; refine Kept.ite ?_ ?_; extract_lets +onlyGivenNames x10; refine Kept.cut (x := x10) ?_ ?_; unfold x10
  refine Kept.step (kept_setPort ..) (by decide) ?_; assumption; clear_value x10; intro h11
  extract_lets +onlyGivenNames x12; clear_value x12; extract_lets +onlyGivenNames x13
  refine Kept.cut (x := x13) ?_ ?_; unfold x13; refine Kept.step (kept_setChan ..) (by decide) ?_; assumption
  clear_value x13; intro h14; extract_lets +onlyGivenNames x15; refine Kept.cut (x := x15) ?_ ?_; unfold x15
  refine Kept.step (kept_sendLink ..) (by decide) ?_; assumption; clear_value x15; intro h16
  extract_lets +onlyGivenNames x17; refine Kept.cut (x := x17) ?_ ?_; unfold x17; split
  refine Kept.step (kept_sendLink ..) (by decide) ?_; assumption; assumption; clear_value x17; intro h18
  refine Kept.step (kept_trainOutcome ..) (by decide) ?_; assumption; assumption

theorem kept_trainFails (s : State) (p) (c) :
    Kept [.phase, .fab, .outs, .trig, .ctlR, .exchR, .fabR, .tabR, .fltR] s (State.trainFails s p c) := by
  unfold State.trainFails
  extract_lets +onlyGivenNames x0; clear_value x0; extract_lets +onlyGivenNames x1; clear_value x1
  refine Kept.ite ?_ ?_; exact Kept.refl _ _; refine Kept.ite ?_ ?_
  refine Kept.step (kept_trainOutcome ..) (by decide) ?_; refine Kept.step (kept_afterRetire ..) (by decide) ?_
  refine Kept.step (kept_retireChan ..) (by decide) ?_; exact Kept.refl _ _; refine Kept.ite ?_ ?_
  exact Kept.refl _ _; refine Kept.ite ?_ ?_; refine Kept.step (kept_trainReq ..) (by decide) ?_; exact Kept.refl _ _
  refine Kept.ite ?_ ?_; refine Kept.step (kept_trainOutcome ..) (by decide) ?_
  refine Kept.step (kept_retireChan ..) (by decide) ?_; exact Kept.refl _ _; exact Kept.refl _ _

theorem kept_unableIn (s : State) (b) (gen) (att) :
    Kept [.lines, .flights, .queues, .exch, .trig, .ctlR, .lineR, .callR, .propR, .fltR] s (State.unableIn s b gen att) := by
  unfold State.unableIn
  extract_lets +onlyGivenNames x0; clear_value x0; refine Kept.ite ?_ ?_; exact Kept.refl _ _
  extract_lets +onlyGivenNames x1; refine Kept.cut (x := x1) ?_ ?_; unfold x1
  refine Kept.step (kept_setBf ..) (by decide) ?_; exact Kept.refl _ _; clear_value x1; intro h2; split; assumption
  split; refine Kept.ite ?_ ?_; refine Kept.step (kept_exchHalt ..) (by decide) ?_; assumption; assumption; assumption

theorem kept_unreachableIn (s : State) (opc) (router) (key) :
    Kept [.lines, .flights, .fab, .fly, .outs, .trig, .ctlR, .powerR, .lineR, .callR, .flyR, .exchR, .fabR, .fltR] s (State.unreachableIn s opc router key) := by
  unfold State.unreachableIn
  refine Kept.next (kept_serveOp (fun u0 => ?_) (by decide) ..) ?_; split; refine Kept.ite ?_ ?_
  refine Kept.step (kept_ropStray ..) (by decide) ?_; exact Kept.refl _ _; exact Kept.refl _ _
  refine Kept.step (kept_ropFails ..) (by decide) ?_; exact Kept.refl _ _; exact Kept.refl _ _

theorem kept_writeIn (s : State) (src) (addr) (tag) (data) :
    Kept [.mem, .prop, .fab, .outs, .trig, .powerR, .propR, .exchR, .fabR, .fltR] s (State.writeIn s src addr tag data) := by
  unfold State.writeIn
  refine Kept.next (kept_serveOp (fun u0 => ?_) (by decide) ..) ?_; extract_lets +onlyGivenNames x1; clear_value x1
  refine Kept.ite ?_ ?_; refine Kept.step (kept_sendDone ..) (by decide) ?_
  refine Kept.step (kept_count ..) (by decide) ?_; exact Kept.refl _ _
  refine Kept.step (kept_sendDone ..) (by decide) ?_; refine Kept.step (kept_land ..) (by decide) ?_
  exact Kept.refl _ _; exact Kept.refl _ _

end Sys2Proof.Machine
end

