-- ==== Sys2Proof/Laws/KeptPower.lean ====
section
/-! SUPPORT. What the functions of sessions, the prompt book, power and time leave unchanged: one lemma
per function, whose list is all it can change. -/

namespace Sys2Proof.Machine

set_option Elab.async false

theorem kept_retireListed (s : State) (l) :
    Kept [.prop] s (State.retireListed s l) := by
  unfold State.retireListed
  refine Kept.fold _ (fun u0 y1 => ?_) ?_; refine Kept.ite ?_ ?_; refine Kept.step (kept_retireNow ..) (by decide) ?_
  exact Kept.refl _ _; exact Kept.refl _ _; exact Kept.refl _ _

theorem kept_storeReg (s : State) (sess off v) : Kept [.ctlR, .bookR, .doorR, .powerR, .lineR, .splitR, .callR, .trkR, .flyR, .propR, .arrR, .choR, .exchR, .fabR, .tabR, .fltR] s (State.storeReg s sess off v) := by
  unfold State.storeReg
  split
  · exact Kept.ite (kept_setReg_any ..) (Kept.refl _ _)
  · exact Kept.refl _ _

theorem kept_applyRecord (s : State) (por) (img) (r) :
    Kept [.prop, .fab, .rep, .ctlR, .bookR, .doorR, .powerR, .lineR, .splitR, .callR, .trkR, .flyR, .propR, .arrR, .choR, .exchR, .fabR, .tabR, .fltR] s (State.applyRecord s por img r) := by
  unfold State.applyRecord
  extract_lets +onlyGivenNames x0; clear_value x0; split; extract_lets +onlyGivenNames x1; clear_value x1
  extract_lets +onlyGivenNames x2; refine Kept.cut (x := x2) ?_ ?_; unfold x2; split
  refine Kept.step (kept_setReg ..) (by decide) ?_; exact Kept.refl _ _; exact Kept.refl _ _; clear_value x2; intro h3
  split; refine Kept.step (kept_setReg ..) (by decide) ?_; assumption; assumption
  refine Kept.fold _ (fun u4 y5 => ?_) ?_; split; refine Kept.ite ?_ ?_
  refine Kept.step (kept_storeReg ..) (by decide) ?_; exact Kept.refl _ _; exact Kept.refl _ _; exact Kept.refl _ _
  refine Kept.upd ?_; exact Kept.refl _ _; refine Kept.fold _ (fun u6 y7 => ?_) ?_; split; refine Kept.ite ?_ ?_
  refine Kept.step (kept_storeReg ..) (by decide) ?_; exact Kept.refl _ _; exact Kept.refl _ _; exact Kept.refl _ _
  refine Kept.ite ?_ ?_; refine Kept.step (kept_retireListed ..) (by decide) ?_; exact Kept.refl _ _
  exact Kept.refl _ _; refine Kept.ite ?_ ?_; exact Kept.refl _ _; refine Kept.upd ?_; exact Kept.refl _ _
  exact Kept.refl _ _

theorem kept_routeWrite (s : State) (v) :
    Kept [.fab] s (State.routeWrite s v) := by
  unfold State.routeWrite
  refine Kept.upd ?_; exact Kept.refl _ _

theorem kept_splitStore (s : State) (sess) (off) (v) :
    Kept [.fetchers, .ctlR, .bookR, .doorR, .powerR, .lineR, .splitR, .callR, .trkR, .flyR, .propR, .arrR, .choR, .exchR, .fabR, .tabR, .fltR] s (State.splitStore s sess off v) := by
  unfold State.splitStore
  extract_lets +onlyGivenNames x0; clear_value x0; refine Kept.step (kept_setFetcher ..) (by decide) ?_
  refine Kept.step (kept_storeReg ..) (by decide) ?_; exact Kept.refl _ _

theorem kept_trkInitWrite (s : State) (v) :
    Kept [.trackers] s (State.trkInitWrite s v) := by
  unfold State.trkInitWrite
  extract_lets +onlyGivenNames x0; clear_value x0; refine Kept.step (kept_setTracker ..) (by decide) ?_
  exact Kept.refl _ _

theorem kept_setVreq (s : State) (mv) :
    Kept [.ctlR, .powerR] s (State.setVreq s mv) := by
  unfold State.setVreq
  refine Kept.ite ?_ ?_; exact Kept.refl _ _; refine Kept.step (kept_latchIrq ..) (by decide) ?_
  refine Kept.step (kept_setF ..) (by decide) ?_; exact Kept.refl _ _

theorem kept_vreqWrite (s : State) (v) :
    Kept [.ctlR, .powerR] s (State.vreqWrite s v) := by
  unfold State.vreqWrite
  extract_lets +onlyGivenNames x0; clear_value x0; extract_lets +onlyGivenNames x1; refine Kept.cut (x := x1) ?_ ?_
  unfold x1; refine Kept.ite ?_ ?_; refine Kept.step (kept_setB ..) (by decide) ?_; exact Kept.refl _ _
  exact Kept.refl _ _; clear_value x1; intro h2; refine Kept.step (kept_setVreq ..) (by decide) ?_; assumption

theorem kept_configWrite (s : State) (sess) (off) (v) :
    Kept [.fetchers, .trackers, .fab, .ctlR, .bookR, .doorR, .powerR, .lineR, .splitR, .callR, .trkR, .flyR, .propR, .arrR, .choR, .exchR, .fabR, .tabR, .fltR] s (State.configWrite s sess off v) := by
  unfold State.configWrite
  refine Kept.ite ?_ ?_; refine Kept.step (kept_routeWrite ..) (by decide) ?_; exact Kept.refl _ _
  refine Kept.ite ?_ ?_; refine Kept.step (kept_trkInitWrite ..) (by decide) ?_; exact Kept.refl _ _
  refine Kept.ite ?_ ?_; refine Kept.step (kept_vreqWrite ..) (by decide) ?_; exact Kept.refl _ _
  refine Kept.ite ?_ ?_; exact Kept.refl _ _; refine Kept.ite ?_ ?_
  refine Kept.step (kept_splitStore ..) (by decide) ?_; exact Kept.refl _ _
  refine Kept.step (kept_storeReg ..) (by decide) ?_; exact Kept.refl _ _

theorem kept_applyBook (s : State) (por) (img) :
    Kept [.fetchers, .trackers, .prop, .fab, .rep, .ctlR, .bookR, .doorR, .powerR, .lineR, .splitR, .callR, .trkR, .flyR, .propR, .arrR, .choR, .exchR, .fabR, .tabR, .fltR] s (State.applyBook s por img) := by
  unfold State.applyBook
  extract_lets +onlyGivenNames x0; clear_value x0; extract_lets +onlyGivenNames x1; refine Kept.cut (x := x1) ?_ ?_
  unfold x1; refine Kept.fold _ (fun u2 y3 => ?_) ?_; refine Kept.step (kept_applyRecord ..) (by decide) ?_
  exact Kept.refl _ _; exact Kept.refl _ _; clear_value x1; intro h4; refine Kept.fold _ (fun u5 y6 => ?_) ?_
  refine Kept.step (kept_configWrite ..) (by decide) ?_; exact Kept.refl _ _; assumption

theorem kept_writerPost (s : State) (i) (d) :
    Kept [.board, .trig, .callR, .fltR] s (State.writerPost s i d) := by
  unfold State.writerPost
  refine Kept.ite ?_ ?_; refine Kept.step (kept_post ..) (by decide) ?_; exact Kept.refl _ _; exact Kept.refl _ _

theorem kept_endRun (s : State) (err) :
    Kept [.board, .writer, .trig, .bookR, .callR, .fltR] s (State.endRun s err) := by
  unfold State.endRun
  extract_lets +onlyGivenNames x0; refine Kept.cut (x := x0) ?_ ?_; unfold x0
  refine Kept.step (kept_setReg ..) (by decide) ?_; exact Kept.refl _ _; clear_value x0; intro h1
  extract_lets +onlyGivenNames x2; refine Kept.cut (x := x2) ?_ ?_; unfold x2; refine Kept.ite ?_ ?_
  refine Kept.step (kept_countMod ..) (by decide) ?_; assumption; assumption; clear_value x2; intro h3
  refine Kept.step (kept_writerPost ..) (by decide) ?_; refine Kept.upd ?_; assumption

theorem kept_runImage (s : State) (mode) :
    Kept [.mem, .prop, .trig, .propR, .fltR] s (State.runImage s mode).2 := by
  unfold State.runImage
  extract_lets +onlyGivenNames x0; clear_value x0; extract_lets +onlyGivenNames x1; clear_value x1
  refine Kept.iteR ?_ ?_; refine Kept.pairR ?_; exact Kept.refl _ _; refine Kept.iteR ?_ ?_; refine Kept.pairR ?_
  exact Kept.refl _ _; refine Kept.iteR ?_ ?_; extract_lets +onlyGivenNames x2; clear_value x2; refine Kept.iteR ?_ ?_
  refine Kept.pairR ?_; exact Kept.refl _ _; extract_lets +onlyGivenNames x3; refine Kept.cutR (x := x3) ?_ ?_
  unfold x3; refine Kept.step (kept_readPlain ..) (by decide) ?_; exact Kept.refl _ _; clear_value x3; intro h4
  refine Kept.pairR ?_; assumption; split; refine Kept.pairR ?_; exact Kept.refl _ _; extract_lets +onlyGivenNames x5
  clear_value x5; refine Kept.iteR ?_ ?_; refine Kept.pairR ?_; exact Kept.refl _ _; refine Kept.pairR ?_
  refine Kept.step (kept_land ..) (by decide) ?_; exact Kept.refl _ _

theorem kept_startRun (s : State) (mode) :
    Kept [.board, .mem, .prop, .writer, .trig, .bookR, .callR, .propR, .fltR] s (State.startRun s mode) := by
  unfold State.startRun
  extract_lets +onlyGivenNames x0; refine Kept.cut (x := x0) ?_ ?_; unfold x0
  refine Kept.step (kept_setReg ..) (by decide) ?_; exact Kept.refl _ _; clear_value x0; intro h1
  extract_lets +onlyGivenNames x2; refine Kept.cutR (x := x2) ?_ ?_; unfold x2
  refine Kept.step (kept_runImage ..) (by decide) ?_; assumption; clear_value x2; intro h3
  extract_lets +onlyGivenNames x4; refine Kept.cut (x := x4) ?_ ?_; unfold x4; assumption; clear_value x4; intro h5
  split; refine Kept.step (kept_endRun ..) (by decide) ?_; assumption; refine Kept.ite ?_ ?_
  refine Kept.step (kept_endRun ..) (by decide) ?_; assumption; extract_lets +onlyGivenNames x6; clear_value x6
  extract_lets +onlyGivenNames x7; clear_value x7; refine Kept.step (kept_setReg ..) (by decide) ?_
  refine Kept.upd ?_; assumption

theorem kept_startWaiting (a0) (a1 : State) :
    Kept [.board, .mem, .prop, .writer, .trig, .bookR, .callR, .propR, .fltR] a1 (State.startWaiting a0 a1) := by
  induction a0 generalizing a1 with
  | zero => exact Kept.refl _ _
  | succ n ih =>
    unfold State.startWaiting
    split; refine Kept.step (ih ..) (by decide) ?_; refine Kept.step (kept_startRun ..) (by decide) ?_
    refine Kept.upd ?_; exact Kept.refl _ _; exact Kept.refl _ _

theorem kept_askRun (s : State) (mode) :
    Kept [.board, .mem, .prop, .writer, .trig, .bookR, .callR, .propR, .fltR] s (State.askRun s mode) := by
  unfold State.askRun
  extract_lets +onlyGivenNames x0; clear_value x0; extract_lets +onlyGivenNames x1; refine Kept.cut (x := x1) ?_ ?_
  unfold x1; refine Kept.upd ?_; exact Kept.refl _ _; clear_value x1; intro h2
  refine Kept.step (kept_startWaiting ..) (by decide) ?_; assumption

theorem kept_drawNonce (s : State) (noise) :
    Kept [.secret] s (State.drawNonce s noise) := by
  unfold State.drawNonce
  refine Kept.ite ?_ ?_; refine Kept.upd ?_; exact Kept.refl _ _; exact Kept.refl _ _

theorem kept_beforeRead (s : State) (off) :
    Kept [.secret, .freeCtr, .propR, .exchR] s (State.beforeRead s off) := by
  unfold State.beforeRead
  refine Kept.ite ?_ ?_; dsimp only; refine Kept.step (kept_drawNonce ..) (by decide) ?_
  refine Kept.iterR _ (fun u0 y1 => ?_) ?_; refine Kept.pairR ?_; refine Kept.step (kept_fresh ..) (by decide) ?_
  exact Kept.refl _ _; refine Kept.pairR ?_; exact Kept.refl _ _; refine Kept.step (kept_snapshot ..) (by decide) ?_
  exact Kept.refl _ _

theorem kept_proofWord (s : State) (i) (v) :
    Kept [.secret] s (State.proofWord s i v) := by
  unfold State.proofWord
  refine Kept.ite ?_ ?_; exact Kept.refl _ _; refine Kept.upd ?_; exact Kept.refl _ _

theorem kept_startProof (s : State) (v) :
    Kept [.secret, .doorR] s (State.startProof s v) := by
  unfold State.startProof
  refine Kept.ite ?_ ?_; exact Kept.refl _ _; extract_lets +onlyGivenNames x0; refine Kept.cut (x := x0) ?_ ?_
  unfold x0; refine Kept.step (kept_proofWord ..) (by decide) ?_; exact Kept.refl _ _; clear_value x0; intro h1
  extract_lets +onlyGivenNames x2; clear_value x2; refine Kept.step (kept_setB ..) (by decide) ?_; refine Kept.upd ?_
  assumption

theorem kept_blockAct (s : State) (off) (v) :
    KeptO ([Field.secret, Field.lines, Field.fetchers, Field.flights, Field.queues, Field.board, Field.trackers, Field.mem, Field.prop, Field.fab, Field.arr, Field.cho, Field.gangs, Field.fly, Field.exch, Field.rep] ++ [Field.repBad, Field.outs, Field.trig, Field.ctlR, Field.doorR, Field.lineR, Field.splitR, Field.callR, Field.flyR, Field.propR, Field.choR, Field.exchR, Field.fabR, Field.fltR]) s (State.blockAct s off v) := by
  unfold State.blockAct
  extract_lets +onlyGivenNames x0; clear_value x0; extract_lets +onlyGivenNames x1; clear_value x1
  extract_lets +onlyGivenNames x2; clear_value x2; refine KeptO.ite ?_ ?_; refine KeptO.some ?_; refine Kept.ite ?_ ?_
  refine Kept.step (kept_repWrite ..) (by decide) ?_; exact Kept.refl _ _; exact Kept.refl _ _; refine KeptO.ite ?_ ?_
  refine KeptO.some ?_; refine Kept.step (kept_lineCtrlWrite ..) (by decide) ?_; exact Kept.refl _ _
  refine KeptO.ite ?_ ?_; refine KeptO.some ?_; refine Kept.step (kept_ringWrite ..) (by decide) ?_
  exact Kept.refl _ _; refine KeptO.ite ?_ ?_; refine KeptO.some ?_; refine Kept.step (kept_ccClear ..) (by decide) ?_
  exact Kept.refl _ _; refine KeptO.ite ?_ ?_; refine KeptO.some ?_
  refine Kept.step (kept_portCfgWrite ..) (by decide) ?_; exact Kept.refl _ _; refine KeptO.ite ?_ ?_
  refine KeptO.some ?_; refine Kept.ite ?_ ?_; refine Kept.step (kept_portReset ..) (by decide) ?_
  exact Kept.refl _ _; exact Kept.refl _ _; refine KeptO.ite ?_ ?_; refine KeptO.some ?_
  refine Kept.step (kept_proofWord ..) (by decide) ?_; exact Kept.refl _ _; refine KeptO.ite ?_ ?_
  refine KeptO.some ?_; refine Kept.step (kept_startProof ..) (by decide) ?_; exact Kept.refl _ _
  exact KeptO.none _ _

theorem kept_dropTrainReqs (s : State) :
    Kept [.outs] s (State.dropTrainReqs s) := by
  unfold State.dropTrainReqs
  refine Kept.fold _ (fun u0 y1 => ?_) ?_; refine Kept.ite ?_ ?_; refine Kept.step (kept_emit ..) (by decide) ?_
  exact Kept.refl _ _; exact Kept.refl _ _; exact Kept.refl _ _

theorem kept_keepRegs (s : State) (sel) : Kept [.ctlR, .bookR, .doorR, .powerR, .lineR, .splitR, .callR, .trkR, .flyR, .propR, .arrR, .choR, .exchR, .fabR, .tabR, .fltR] s (State.keepRegs s sel) := by
  refine ⟨⟨fun f hf => ?_⟩, fun h => ?_⟩
  · cases f <;> first
      | rfl
      | exact absurd (by decide) hf
  · unfold State.safe at h ⊢
    rw [Bool.and_eq_true] at h ⊢
    exact ⟨h.1, State.wf_keepRegs s sel⟩

theorem kept_retirePending (s : State) :
    Kept [.prop] s (State.retirePending s) := by
  unfold State.retirePending
  extract_lets +onlyGivenNames x0; clear_value x0; refine Kept.fold _ (fun u1 y2 => ?_) ?_; refine Kept.ite ?_ ?_
  exact Kept.refl _ _; refine Kept.step (kept_retireNow ..) (by decide) ?_; exact Kept.refl _ _; refine Kept.upd ?_
  exact Kept.refl _ _

theorem kept_blockClear (s : State) :
    Kept ([Field.pins, Field.secret, Field.latches, Field.lines, Field.fetchers, Field.flights, Field.queues, Field.board, Field.trackers, Field.mem, Field.prop, Field.bs, Field.fab, Field.arr, Field.cho, Field.gangs] ++ [Field.lanes, Field.fly, Field.exch, Field.writer, Field.rep, Field.repBad, Field.outs, Field.timers, Field.trig, Field.ctlR, Field.bookR, Field.doorR, Field.powerR, Field.lineR, Field.splitR, Field.callR, Field.trkR] ++ [Field.flyR, Field.propR, Field.arrR, Field.choR, Field.exchR, Field.fabR, Field.tabR, Field.fltR]) s (State.blockClear s) := by
  unfold State.blockClear
  extract_lets +onlyGivenNames x0; refine Kept.cut (x := x0) ?_ ?_; unfold x0
  refine Kept.step (kept_retirePending ..) (by decide) ?_; refine Kept.step (kept_dropTrainReqs ..) (by decide) ?_
  exact Kept.refl _ _; clear_value x0; intro h1; extract_lets +onlyGivenNames x2; refine Kept.cut (x := x2) ?_ ?_
  unfold x2; refine Kept.step (kept_keepRegs ..) (by decide) ?_; assumption; clear_value x2; intro h3
  refine Kept.upd ?_; assumption

theorem kept_blockBegin (s : State) :
    Kept ([Field.phase, Field.pins, Field.secret, Field.latches, Field.lines, Field.fetchers, Field.flights, Field.queues, Field.board, Field.trackers, Field.mem, Field.prop, Field.bs, Field.fab, Field.arr, Field.cho] ++ [Field.gangs, Field.lanes, Field.fly, Field.exch, Field.writer, Field.rep, Field.repBad, Field.outs, Field.timers, Field.trig, Field.ctlR, Field.bookR, Field.doorR, Field.powerR, Field.lineR, Field.splitR, Field.callR] ++ [Field.trkR, Field.flyR, Field.propR, Field.arrR, Field.choR, Field.exchR, Field.fabR, Field.tabR, Field.fltR]) s (State.blockBegin s) := by
  unfold State.blockBegin
  extract_lets +onlyGivenNames x0; refine Kept.cut (x := x0) ?_ ?_; unfold x0
  refine Kept.step (kept_blockClear ..) (by decide) ?_; exact Kept.refl _ _; clear_value x0; intro h1
  extract_lets +onlyGivenNames x2; refine Kept.cut (x := x2) ?_ ?_; unfold x2
  refine Kept.step (kept_countMod ..) (by decide) ?_; refine Kept.step (kept_setB ..) (by decide) ?_; assumption
  clear_value x2; intro h3; refine Kept.upd ?_; assumption

theorem kept_bringUpAll (s : State) :
    Kept [.phase, .fab, .outs, .ctlR, .tabR] s (State.bringUpAll s) := by
  unfold State.bringUpAll
  refine Kept.step (kept_checkReady ..) (by decide) ?_; refine Kept.iter _ (fun u0 y1 => ?_) ?_; refine Kept.ite ?_ ?_
  refine Kept.step (kept_bringUp ..) (by decide) ?_; exact Kept.refl _ _; exact Kept.refl _ _; refine Kept.upd ?_
  exact Kept.refl _ _

theorem kept_clearMemory (s : State) :
    Kept [.mem] s (State.clearMemory s) := by
  unfold State.clearMemory
  refine Kept.upd ?_; exact Kept.refl _ _

theorem kept_discover (s : State) :
    Kept [.flash] s (State.discover s) := by
  unfold State.discover
  refine Kept.ite ?_ ?_; refine Kept.upd ?_; exact Kept.refl _ _; exact Kept.refl _ _

theorem kept_houseDefaults (s : State) :
    Kept [.rep] s (State.houseDefaults s) := by
  unfold State.houseDefaults
  refine Kept.ite ?_ ?_; exact Kept.refl _ _; refine Kept.upd ?_; exact Kept.refl _ _

theorem kept_noteBook (s : State) (win) (tried) :
    Kept [.freeCtr, .bookR] s (State.noteBook s win tried) := by
  unfold State.noteBook
  extract_lets +onlyGivenNames x0; clear_value x0; extract_lets +onlyGivenNames x1; clear_value x1
  extract_lets +onlyGivenNames x2; refine Kept.cutR (x := x2) ?_ ?_; unfold x2
  refine Kept.step (kept_fresh ..) (by decide) ?_; exact Kept.refl _ _; clear_value x2; intro h3
  extract_lets +onlyGivenNames x4; refine Kept.cut (x := x4) ?_ ?_; unfold x4; assumption; clear_value x4; intro h5
  extract_lets +onlyGivenNames x6; refine Kept.cut (x := x6) ?_ ?_; unfold x6
  refine Kept.step (kept_setReg ..) (by decide) ?_; assumption; clear_value x6; intro h7
  extract_lets +onlyGivenNames x8; refine Kept.cut (x := x8) ?_ ?_; unfold x8
  refine Kept.step (kept_setReg ..) (by decide) ?_; assumption; clear_value x8; intro h9
  extract_lets +onlyGivenNames x10; refine Kept.cut (x := x10) ?_ ?_; unfold x10
  refine Kept.step (kept_setReg ..) (by decide) ?_; assumption; clear_value x10; intro h11; refine Kept.ite ?_ ?_
  refine Kept.step (kept_setReg ..) (by decide) ?_; refine Kept.step (kept_setReg ..) (by decide) ?_
  refine Kept.step (kept_setReg ..) (by decide) ?_; assumption; assumption

theorem kept_loadBook (s : State) (por) :
    Kept [.fetchers, .trackers, .prop, .fab, .flash, .rep, .freeCtr, .ctlR, .bookR, .doorR, .powerR, .lineR, .splitR, .callR, .trkR, .flyR, .propR, .arrR, .choR, .exchR, .fabR, .tabR, .fltR] s (State.loadBook s por).2 := by
  unfold State.loadBook
  extract_lets +onlyGivenNames x0; refine Kept.cut (x := x0) ?_ ?_; unfold x0
  refine Kept.step (kept_discover ..) (by decide) ?_; exact Kept.refl _ _; clear_value x0; intro h1
  extract_lets +onlyGivenNames x2; clear_value x2; extract_lets +onlyGivenNames x3; refine Kept.cut (x := x3) ?_ ?_
  unfold x3; refine Kept.step (kept_noteBook ..) (by decide) ?_; assumption; clear_value x3; intro h4; split
  extract_lets +onlyGivenNames x5; clear_value x5; refine Kept.pairR ?_
  refine Kept.step (kept_applyBook ..) (by decide) ?_; assumption; refine Kept.pairR ?_
  refine Kept.step (kept_houseDefaults ..) (by decide) ?_; assumption

theorem kept_startUp (s : State) (por) :
    Kept ([Field.phase, Field.lines, Field.fetchers, Field.flights, Field.queues, Field.trackers, Field.mem, Field.prop, Field.fab, Field.arr, Field.cho, Field.gangs, Field.fly, Field.flash, Field.rep, Field.outs] ++ [Field.freeCtr, Field.ctlR, Field.bookR, Field.doorR, Field.powerR, Field.lineR, Field.splitR, Field.callR, Field.trkR, Field.flyR, Field.propR, Field.arrR, Field.choR, Field.exchR, Field.fabR, Field.tabR] ++ [Field.fltR]) s (State.startUp s por) := by
  unfold State.startUp
  extract_lets +onlyGivenNames x0; refine Kept.cutR (x := x0) ?_ ?_; unfold x0
  refine Kept.step (kept_loadBook ..) (by decide) ?_; exact Kept.refl _ _; clear_value x0; intro h1
  extract_lets +onlyGivenNames x2; refine Kept.cut (x := x2) ?_ ?_; unfold x2; refine Kept.ite ?_ ?_
  refine Kept.step (kept_clearMemory ..) (by decide) ?_; assumption; assumption; clear_value x2; intro h3
  refine Kept.step (kept_bringUpAll ..) (by decide) ?_; refine Kept.fold _ (fun u4 y5 => ?_) ?_
  refine Kept.step (kept_ringWrite ..) (by decide) ?_; exact Kept.refl _ _; assumption

theorem kept_blockEnd (s : State) :
    Kept ([Field.phase, Field.pins, Field.lines, Field.fetchers, Field.flights, Field.queues, Field.trackers, Field.mem, Field.prop, Field.fab, Field.arr, Field.cho, Field.gangs, Field.fly, Field.flash, Field.rep] ++ [Field.outs, Field.freeCtr, Field.ctlR, Field.bookR, Field.doorR, Field.powerR, Field.lineR, Field.splitR, Field.callR, Field.trkR, Field.flyR, Field.propR, Field.arrR, Field.choR, Field.exchR, Field.fabR] ++ [Field.tabR, Field.fltR]) s (State.blockEnd s) := by
  unfold State.blockEnd
  refine Kept.ite ?_ ?_; exact Kept.refl _ _; extract_lets +onlyGivenNames x0; clear_value x0
  extract_lets +onlyGivenNames x1; refine Kept.cut (x := x1) ?_ ?_; unfold x1; refine Kept.upd ?_; exact Kept.refl _ _
  intro h2; refine Kept.ite ?_ ?_; refine Kept.step (kept_startUp ..) (by decide) ?_; assumption; refine Kept.upd ?_
  assumption

theorem kept_blockReset (s : State) (lowTicks) :
    Kept ([Field.phase, Field.pins, Field.secret, Field.latches, Field.lines, Field.fetchers, Field.flights, Field.queues, Field.board, Field.trackers, Field.mem, Field.prop, Field.bs, Field.fab, Field.arr, Field.cho] ++ [Field.gangs, Field.lanes, Field.fly, Field.exch, Field.writer, Field.rep, Field.repBad, Field.outs, Field.timers, Field.trig, Field.freeCtr, Field.ctlR, Field.bookR, Field.doorR, Field.powerR, Field.lineR, Field.splitR] ++ [Field.callR, Field.trkR, Field.flyR, Field.propR, Field.arrR, Field.choR, Field.exchR, Field.fabR, Field.tabR, Field.fltR]) s (State.blockReset s lowTicks) := by
  unfold State.blockReset
  split; exact Kept.refl _ _; exact Kept.refl _ _; exact Kept.refl _ _; refine Kept.ite ?_ ?_
  refine Kept.step (kept_blockBegin ..) (by decide) ?_; exact Kept.refl _ _; extract_lets +onlyGivenNames x0
  refine Kept.cutR (x := x0) ?_ ?_; unfold x0; refine Kept.step (kept_fresh ..) (by decide) ?_; exact Kept.refl _ _
  clear_value x0; intro h1; refine Kept.ite ?_ ?_; refine Kept.step (kept_blockBegin ..) (by decide) ?_; assumption
  assumption

theorem kept_closeWrite (s : State) (v) :
    Kept [.doorR] s (State.closeWrite s v) := by
  unfold State.closeWrite
  refine Kept.ite ?_ ?_; refine Kept.step (kept_closeSession ..) (by decide) ?_; exact Kept.refl _ _
  exact Kept.refl _ _

theorem kept_countBeats (s : State) (off : Nat) : Kept [Field.ofReg off, .freeCtr] s (State.countBeats s off) := by
  unfold State.countBeats
  exact Kept.step (kept_count ..) (by simp) (Kept.step (kept_fresh ..) (by simp) (Kept.refl _ _))

theorem kept_counterStart (s : State) :
    Kept [.board, .mem, .prop, .writer, .trig, .bookR, .callR, .propR, .fltR] s (State.counterStart s) := by
  unfold State.counterStart
  extract_lets +onlyGivenNames x0; clear_value x0; extract_lets +onlyGivenNames x1; clear_value x1
  extract_lets +onlyGivenNames x2; clear_value x2; refine Kept.ite ?_ ?_; exact Kept.refl _ _; refine Kept.ite ?_ ?_
  refine Kept.step (kept_askRun ..) (by decide) ?_; refine Kept.step (kept_post ..) (by decide) ?_
  exact Kept.refl _ _; refine Kept.ite ?_ ?_; refine Kept.step (kept_askRun ..) (by decide) ?_
  refine Kept.step (kept_post ..) (by decide) ?_; exact Kept.refl _ _; exact Kept.refl _ _

theorem kept_drowseEntry (s : State) :
    Kept [.secret, .mem, .prop, .fab, .arr, .cho, .gangs, .lanes, .fly, .tab, .outs, .ctlR, .bookR, .doorR, .powerR, .lineR, .splitR, .callR, .trkR, .flyR, .propR, .arrR, .choR, .exchR, .fabR, .tabR, .fltR] s (State.drowseEntry s) := by
  unfold State.drowseEntry
  refine Kept.ite ?_ ?_; exact Kept.refl _ _; extract_lets +onlyGivenNames x0; refine Kept.cut (x := x0) ?_ ?_
  unfold x0; refine Kept.step (kept_dropTrainReqs ..) (by decide) ?_; exact Kept.refl _ _; clear_value x0; intro h1
  extract_lets +onlyGivenNames x2; clear_value x2; extract_lets +onlyGivenNames x3; refine Kept.cut (x := x3) ?_ ?_
  unfold x3; refine Kept.step (kept_keepRegs ..) (by decide) ?_; assumption; clear_value x3; intro h4
  extract_lets +onlyGivenNames x5; clear_value x5; extract_lets +onlyGivenNames x6; extract_lets +onlyGivenNames x7
  clear_value x7; extract_lets +onlyGivenNames x8; refine Kept.cut (x := x8) ?_ ?_; unfold x8; refine Kept.upd ?_
  assumption; clear_value x8; intro h9; refine Kept.step (kept_latchIrq ..) (by decide) ?_
  refine Kept.step (kept_setF ..) (by decide) ?_; refine Kept.step (kept_setVreq ..) (by decide) ?_
  refine Kept.step (kept_setF ..) (by decide) ?_; assumption

theorem kept_drowseRefused (s : State) (why) :
    Kept [.powerR] s (State.drowseRefused s why) := by
  unfold State.drowseRefused
  refine Kept.step (kept_setF ..) (by decide) ?_; refine Kept.step (kept_setB ..) (by decide) ?_; exact Kept.refl _ _

theorem kept_drowseRequest (s : State) :
    Kept [.ctlR, .doorR, .powerR] s (State.drowseRequest s) := by
  unfold State.drowseRequest
  refine Kept.ite ?_ ?_; exact Kept.refl _ _; refine Kept.ite ?_ ?_
  refine Kept.step (kept_drowseRefused ..) (by decide) ?_; exact Kept.refl _ _
  refine Kept.step (kept_closeSession ..) (by decide) ?_; refine Kept.step (kept_setB ..) (by decide) ?_
  refine Kept.step (kept_setF ..) (by decide) ?_; exact Kept.refl _ _

theorem kept_drowseTimeout (s : State) :
    Kept [.ctlR, .powerR] s (State.drowseTimeout s) := by
  unfold State.drowseTimeout
  refine Kept.ite ?_ ?_; exact Kept.refl _ _; refine Kept.step (kept_setB ..) (by decide) ?_
  refine Kept.step (kept_setF ..) (by decide) ?_; refine Kept.step (kept_drowseRefused ..) (by decide) ?_
  exact Kept.refl _ _

theorem kept_finishRun (s : State) (err) :
    Kept [.board, .mem, .prop, .writer, .trig, .bookR, .callR, .propR, .fltR] s (State.finishRun s err) := by
  unfold State.finishRun
  extract_lets +onlyGivenNames x0; refine Kept.cut (x := x0) ?_ ?_; unfold x0
  refine Kept.step (kept_endRun ..) (by decide) ?_; exact Kept.refl _ _; clear_value x0; intro h1
  refine Kept.step (kept_startWaiting ..) (by decide) ?_; assumption

theorem kept_setPhase (s : State) (n) :
    Kept [.bookR] s (State.setPhase s n) := by
  unfold State.setPhase
  refine Kept.step (kept_setF ..) (by decide) ?_; exact Kept.refl _ _

theorem kept_flashDone (s : State) :
    Kept [.board, .mem, .prop, .flash, .writer, .trig, .bookR, .callR, .propR, .fltR] s (State.flashDone s) := by
  unfold State.flashDone
  extract_lets +onlyGivenNames x0; clear_value x0; extract_lets +onlyGivenNames x1; clear_value x1
  extract_lets +onlyGivenNames x2; clear_value x2; refine Kept.ite ?_ ?_; exact Kept.refl _ _; split
  extract_lets +onlyGivenNames x3; clear_value x3; extract_lets +onlyGivenNames x4; refine Kept.cut (x := x4) ?_ ?_
  unfold x4; refine Kept.upd ?_; exact Kept.refl _ _; clear_value x4; intro h5; refine Kept.ite ?_ ?_
  refine Kept.step (kept_setPhase ..) (by decide) ?_; refine Kept.upd ?_; assumption; assumption
  extract_lets +onlyGivenNames x6; extract_lets +onlyGivenNames x7; refine Kept.cut (x := x7) ?_ ?_; unfold x7
  refine Kept.upd ?_; exact Kept.refl _ _; intro h8; refine Kept.ite ?_ ?_; refine Kept.ite ?_ ?_
  refine Kept.step (kept_setPhase ..) (by decide) ?_; refine Kept.upd ?_; assumption
  refine Kept.step (kept_finishRun ..) (by decide) ?_; assumption; assumption; extract_lets +onlyGivenNames x9
  clear_value x9; extract_lets +onlyGivenNames x10; refine Kept.cut (x := x10) ?_ ?_; unfold x10; refine Kept.upd ?_
  exact Kept.refl _ _; clear_value x10; intro h11; refine Kept.step (kept_finishRun ..) (by decide) ?_; assumption
  exact Kept.refl _ _

theorem kept_govern (s : State) (total) :
    Kept [.powerR] s (State.govern s total) := by
  unfold State.govern
  extract_lets +onlyGivenNames x0; clear_value x0; extract_lets +onlyGivenNames x1; clear_value x1
  refine Kept.ite ?_ ?_; refine Kept.step (kept_setB ..) (by decide) ?_; exact Kept.refl _ _; refine Kept.ite ?_ ?_
  refine Kept.step (kept_setB ..) (by decide) ?_; exact Kept.refl _ _; exact Kept.refl _ _

theorem kept_idleClose (s : State) :
    Kept [.doorR] s (State.idleClose s) := by
  unfold State.idleClose
  refine Kept.ite ?_ ?_; refine Kept.step (kept_closeSession ..) (by decide) ?_; exact Kept.refl _ _
  exact Kept.refl _ _

theorem kept_idleEntry (s : State) :
    Kept [.powerR] s (State.idleEntry s) := by
  unfold State.idleEntry
  extract_lets +onlyGivenNames x0; clear_value x0; refine Kept.ite ?_ ?_; exact Kept.refl _ _
  refine Kept.step (kept_setF ..) (by decide) ?_; exact Kept.refl _ _

theorem kept_irqSample (s : State) :
    Kept [.pins] s (State.irqSample s) := by
  unfold State.irqSample
  refine Kept.ite ?_ ?_; refine Kept.upd ?_; exact Kept.refl _ _; exact Kept.refl _ _

theorem kept_setKey (s : State) (k) :
    Kept [.secret, .bookR, .doorR] s (State.setKey s k) := by
  unfold State.setKey
  extract_lets +onlyGivenNames x0; clear_value x0; refine Kept.step (kept_setB ..) (by decide) ?_
  refine Kept.step (kept_setB ..) (by decide) ?_; refine Kept.upd ?_; exact Kept.refl _ _

theorem kept_latchKey (s : State) (k) :
    Kept [.pins, .secret, .outs, .bookR, .doorR] s (State.latchKey s k) := by
  unfold State.latchKey
  extract_lets +onlyGivenNames x0; clear_value x0; extract_lets +onlyGivenNames x1; refine Kept.cut (x := x1) ?_ ?_
  unfold x1; refine Kept.step (kept_setKey ..) (by decide) ?_; exact Kept.refl _ _; clear_value x1; intro h2
  refine Kept.step (kept_emit ..) (by decide) ?_; refine Kept.upd ?_; assumption

theorem kept_keyReq (s : State) (k) :
    Kept ([Field.phase, Field.pins, Field.secret, Field.lines, Field.fetchers, Field.flights, Field.queues, Field.trackers, Field.mem, Field.prop, Field.fab, Field.arr, Field.cho, Field.gangs, Field.fly, Field.flash] ++ [Field.rep, Field.outs, Field.freeCtr, Field.ctlR, Field.bookR, Field.doorR, Field.powerR, Field.lineR, Field.splitR, Field.callR, Field.trkR, Field.flyR, Field.propR, Field.arrR, Field.choR, Field.exchR] ++ [Field.fabR, Field.tabR, Field.fltR]) s (State.keyReq s k) := by
  unfold State.keyReq
  split; refine Kept.upd ?_; exact Kept.refl _ _; refine Kept.upd ?_; exact Kept.refl _ _
  refine Kept.step (kept_startUp ..) (by decide) ?_; refine Kept.step (kept_latchKey ..) (by decide) ?_
  exact Kept.refl _ _; exact Kept.refl _ _

theorem kept_keyTimeout (s : State) :
    Kept ([Field.phase, Field.secret, Field.lines, Field.fetchers, Field.flights, Field.queues, Field.trackers, Field.mem, Field.prop, Field.fab, Field.arr, Field.cho, Field.gangs, Field.fly, Field.flash, Field.rep] ++ [Field.outs, Field.freeCtr, Field.ctlR, Field.bookR, Field.doorR, Field.powerR, Field.lineR, Field.splitR, Field.callR, Field.trkR, Field.flyR, Field.propR, Field.arrR, Field.choR, Field.exchR, Field.fabR] ++ [Field.tabR, Field.fltR]) s (State.keyTimeout s) := by
  unfold State.keyTimeout
  refine Kept.ite ?_ ?_; refine Kept.step (kept_startUp ..) (by decide) ?_
  refine Kept.step (kept_setB ..) (by decide) ?_; refine Kept.step (kept_setKey ..) (by decide) ?_
  exact Kept.refl _ _; exact Kept.refl _ _

theorem kept_loseTick (s : State) :
    Kept [.lines, .trig, .ctlR, .lineR, .callR, .fltR] s (State.loseTick s) := by
  unfold State.loseTick
  refine Kept.ite ?_ ?_; exact Kept.refl _ _; refine Kept.step (kept_coreFault ..) (by decide) ?_
  refine Kept.step (kept_setB ..) (by decide) ?_; exact Kept.refl _ _

theorem kept_nonceRead (s : State) (noise) :
    Kept [.secret, .outs, .doorR] s (State.nonceRead s noise) := by
  unfold State.nonceRead
  split; extract_lets +onlyGivenNames x0; refine Kept.cut (x := x0) ?_ ?_; unfold x0
  refine Kept.step (kept_drawNonce ..) (by decide) ?_; refine Kept.step (kept_hostTouch ..) (by decide) ?_
  exact Kept.refl _ _; clear_value x0; intro h1; refine Kept.step (kept_emit ..) (by decide) ?_; assumption
  refine Kept.next (kept_hostRead (fun u2 => ?_) (by decide) ..) ?_; dsimp only [id]; exact Kept.refl _ _
  exact Kept.refl _ _

theorem kept_paceWindow (s : State) (count) :
    Kept [.powerR] s (State.paceWindow s count) := by
  unfold State.paceWindow
  refine Kept.ite ?_ ?_; exact Kept.refl _ _; refine Kept.step (kept_setReg ..) (by decide) ?_; exact Kept.refl _ _

theorem kept_porEnd (s : State) :
    Kept ([Field.phase, Field.pins, Field.secret, Field.lines, Field.fetchers, Field.flights, Field.queues, Field.trackers, Field.mem, Field.prop, Field.fab, Field.arr, Field.cho, Field.gangs, Field.fly, Field.flash] ++ [Field.rep, Field.outs, Field.freeCtr, Field.ctlR, Field.bookR, Field.doorR, Field.powerR, Field.lineR, Field.splitR, Field.callR, Field.trkR, Field.flyR, Field.propR, Field.arrR, Field.choR, Field.exchR] ++ [Field.fabR, Field.tabR, Field.fltR]) s (State.porEnd s) := by
  unfold State.porEnd
  refine Kept.ite ?_ ?_; exact Kept.refl _ _; split; refine Kept.step (kept_startUp ..) (by decide) ?_
  refine Kept.step (kept_latchKey ..) (by decide) ?_; exact Kept.refl _ _; refine Kept.upd ?_; exact Kept.refl _ _

theorem kept_powerEstimate (s : State) (arr) (cho) (mem) (other) (temp) :
    Kept [.powerR] s (State.powerEstimate s arr cho mem other temp) := by
  unfold State.powerEstimate
  refine Kept.ite ?_ ?_; exact Kept.refl _ _; extract_lets +onlyGivenNames x0; clear_value x0
  extract_lets +onlyGivenNames x1; refine Kept.cut (x := x1) ?_ ?_; unfold x1
  refine Kept.step (kept_setReg ..) (by decide) ?_; refine Kept.step (kept_setReg ..) (by decide) ?_
  exact Kept.refl _ _; clear_value x1; intro h2; extract_lets +onlyGivenNames x3; refine Kept.cut (x := x3) ?_ ?_
  unfold x3; refine Kept.step (kept_setReg ..) (by decide) ?_; refine Kept.step (kept_setReg ..) (by decide) ?_
  assumption; clear_value x3; intro h4; refine Kept.step (kept_govern ..) (by decide) ?_; assumption

theorem kept_powerOff (s : State) : Kept ([Field.phase, Field.pins, Field.secret, Field.tick, Field.latches, Field.lines, Field.fetchers, Field.flights, Field.queues, Field.board, Field.trackers, Field.mem, Field.prop, Field.bs, Field.fab, Field.arr] ++ [Field.cho, Field.gangs, Field.lanes, Field.fly, Field.exch, Field.writer, Field.tab, Field.rep, Field.repBad, Field.timers, Field.trig, Field.nextUid, Field.nextTag, Field.ctlR, Field.bookR, Field.doorR] ++ [Field.powerR, Field.lineR, Field.splitR, Field.callR, Field.trkR, Field.flyR, Field.propR, Field.arrR, Field.choR, Field.exchR, Field.fabR, Field.tabR, Field.fltR]) s (State.powerOff s) := by
  refine ⟨⟨fun f hf => ?_⟩, fun _ => rfl⟩
  cases f <;> first
    | rfl
    | exact absurd (by decide) hf

theorem kept_setLast (s : State) (n) :
    Kept [.doorR] s (State.setLast s n) := by
  unfold State.setLast
  refine Kept.step (kept_setF ..) (by decide) ?_; exact Kept.refl _ _

theorem kept_proofAccepted (s : State) :
    Kept [.doorR] s (State.proofAccepted s) := by
  unfold State.proofAccepted
  refine Kept.step (kept_setLast ..) (by decide) ?_; refine Kept.step (kept_setF ..) (by decide) ?_
  refine Kept.step (kept_setReg ..) (by decide) ?_; refine Kept.step (kept_setB ..) (by decide) ?_
  exact Kept.refl _ _

theorem kept_proofRejected (s : State) :
    Kept [.doorR] s (State.proofRejected s) := by
  unfold State.proofRejected
  extract_lets +onlyGivenNames x0; clear_value x0; extract_lets +onlyGivenNames x1; refine Kept.cut (x := x1) ?_ ?_
  unfold x1; refine Kept.step (kept_setLast ..) (by decide) ?_; refine Kept.step (kept_setF ..) (by decide) ?_
  exact Kept.refl _ _; clear_value x1; intro h2; refine Kept.ite ?_ ?_
  refine Kept.step (kept_closeSession ..) (by decide) ?_; refine Kept.step (kept_setReg ..) (by decide) ?_
  refine Kept.step (kept_setB ..) (by decide) ?_; assumption; assumption

theorem kept_voidNonce (s : State) :
    Kept [.secret] s (State.voidNonce s) := by
  unfold State.voidNonce
  refine Kept.upd ?_; exact Kept.refl _ _

theorem kept_proofDone (s : State) :
    Kept [.secret, .doorR] s (State.proofDone s) := by
  unfold State.proofDone
  refine Kept.ite ?_ ?_; exact Kept.refl _ _; extract_lets +onlyGivenNames x0; refine Kept.cut (x := x0) ?_ ?_
  unfold x0; refine Kept.step (kept_voidNonce ..) (by decide) ?_; refine Kept.step (kept_setB ..) (by decide) ?_
  exact Kept.refl _ _; clear_value x0; intro h1; refine Kept.ite ?_ ?_
  refine Kept.step (kept_setLast ..) (by decide) ?_; assumption; refine Kept.ite ?_ ?_
  refine Kept.step (kept_proofAccepted ..) (by decide) ?_; assumption
  refine Kept.step (kept_proofRejected ..) (by decide) ?_; assumption

theorem kept_pwrFall (s : State) :
    Kept ([Field.phase, Field.pins, Field.secret, Field.tick, Field.latches, Field.lines, Field.fetchers, Field.flights, Field.queues, Field.board, Field.trackers, Field.mem, Field.prop, Field.bs, Field.fab, Field.arr] ++ [Field.cho, Field.gangs, Field.lanes, Field.fly, Field.exch, Field.writer, Field.tab, Field.rep, Field.repBad, Field.outs, Field.timers, Field.trig, Field.nextUid, Field.nextTag, Field.ctlR, Field.bookR] ++ [Field.doorR, Field.powerR, Field.lineR, Field.splitR, Field.callR, Field.trkR, Field.flyR, Field.propR, Field.arrR, Field.choR, Field.exchR, Field.fabR, Field.tabR, Field.fltR]) s (State.pwrFall s) := by
  unfold State.pwrFall
  refine Kept.step (kept_powerOff ..) (by decide) ?_; refine Kept.step (kept_dropTrainReqs ..) (by decide) ?_
  exact Kept.refl _ _

theorem kept_pwrRise (s : State) :
    Kept [.phase, .pins] s (State.pwrRise s) := by
  unfold State.pwrRise
  refine Kept.ite ?_ ?_; refine Kept.upd ?_; exact Kept.refl _ _; exact Kept.refl _ _

theorem kept_rampAllowance (s : State) :
    Kept [.arr] s (State.rampAllowance s) := by
  unfold State.rampAllowance
  extract_lets +onlyGivenNames x0; clear_value x0; refine Kept.upd ?_; exact Kept.refl _ _

theorem kept_readServed (s : State) (off) :
    Kept [.secret, .latches, .outs, .freeCtr, .ctlR, .bookR, .doorR, .powerR, .lineR, .splitR, .callR, .trkR, .flyR, .propR, .arrR, .choR, .exchR, .fabR, .tabR, .fltR] s (State.readServed s off) := by
  unfold State.readServed
  extract_lets +onlyGivenNames x0; refine Kept.cut (x := x0) ?_ ?_; unfold x0
  refine Kept.step (kept_beforeRead ..) (by decide) ?_; refine Kept.step (kept_hostTouch ..) (by decide) ?_
  exact Kept.refl _ _; clear_value x0; intro h1; refine Kept.step (kept_clearRc ..) (by decide) ?_
  refine Kept.step (kept_latchHi ..) (by decide) ?_; refine Kept.step (kept_emit ..) (by decide) ?_; assumption

theorem kept_softLine (s : State) (l) :
    Kept [.lines, .flights, .queues, .arr, .cho, .gangs, .fly] s (State.softLine s l) := by
  unfold State.softLine
  extract_lets +onlyGivenNames x0; refine Kept.cut (x := x0) ?_ ?_; unfold x0
  refine Kept.step (kept_updLine ..) (by decide) ?_; exact Kept.refl _ _; clear_value x0; intro h1
  extract_lets +onlyGivenNames x2; refine Kept.cut (x := x2) ?_ ?_; unfold x2
  refine Kept.step (kept_discardQueued ..) (by decide) ?_; assumption; clear_value x2; intro h3; refine Kept.upd ?_
  assumption

theorem kept_softReset (s : State) (v) :
    Kept [.lines, .flights, .queues, .arr, .cho, .gangs, .fly, .powerR, .tabR] s (State.softReset s v) := by
  unfold State.softReset
  refine Kept.ite ?_ ?_; exact Kept.refl _ _; refine Kept.fold _ (fun u0 y1 => ?_) ?_
  refine Kept.step (kept_softLine ..) (by decide) ?_; exact Kept.refl _ _
  refine Kept.step (kept_setB ..) (by decide) ?_; refine Kept.step (kept_setB ..) (by decide) ?_; exact Kept.refl _ _

theorem kept_tabCmd (s : State) (v) :
    Kept [.trig, .tabR] s (State.tabCmd s v) := by
  unfold State.tabCmd
  extract_lets +onlyGivenNames x0; refine Kept.cut (x := x0) ?_ ?_; unfold x0; refine Kept.ite ?_ ?_
  refine Kept.step (kept_setB ..) (by decide) ?_; exact Kept.refl _ _; exact Kept.refl _ _; clear_value x0; intro h1
  extract_lets +onlyGivenNames x2; refine Kept.cut (x := x2) ?_ ?_; unfold x2; refine Kept.ite ?_ ?_
  refine Kept.step (kept_setB ..) (by decide) ?_; assumption; assumption; clear_value x2; intro h3
  refine Kept.ite ?_ ?_; refine Kept.step (kept_trigger ..) (by decide) ?_; assumption; assumption

theorem kept_wakePort (s : State) (p) :
    Kept [.fab, .outs, .trig, .exchR, .fabR, .fltR] s (State.wakePort s p) := by
  unfold State.wakePort
  refine Kept.ite ?_ ?_; exact Kept.refl _ _; extract_lets +onlyGivenNames x0; refine Kept.cut (x := x0) ?_ ?_
  unfold x0; refine Kept.step (kept_setPort ..) (by decide) ?_; exact Kept.refl _ _; clear_value x0; intro h1
  extract_lets +onlyGivenNames x2; refine Kept.cut (x := x2) ?_ ?_; unfold x2; refine Kept.iter _ (fun u3 y4 => ?_) ?_
  refine Kept.ite ?_ ?_; exact Kept.refl _ _; refine Kept.step (kept_freshChan ..) (by decide) ?_; exact Kept.refl _ _
  assumption; clear_value x2; intro h5; refine Kept.ite ?_ ?_; refine Kept.step (kept_enterDown ..) (by decide) ?_
  assumption; assumption

theorem kept_wake (s : State) (shadowOk) :
    Kept [.lines, .mem, .fab, .outs, .trig, .ctlR, .powerR, .lineR, .callR, .exchR, .fabR, .fltR] s (State.wake s shadowOk) := by
  unfold State.wake
  refine Kept.ite ?_ ?_; exact Kept.refl _ _; extract_lets +onlyGivenNames x0; refine Kept.cut (x := x0) ?_ ?_
  unfold x0; refine Kept.step (kept_setF ..) (by decide) ?_; exact Kept.refl _ _; clear_value x0; intro h1
  extract_lets +onlyGivenNames x2; extract_lets +onlyGivenNames x3; refine Kept.cut (x := x3) ?_ ?_; unfold x3
  refine Kept.upd ?_; assumption; clear_value x3; intro h4; extract_lets +onlyGivenNames x5
  refine Kept.cut (x := x5) ?_ ?_; unfold x5; refine Kept.iter _ (fun u6 y7 => ?_) ?_
  refine Kept.step (kept_wakePort ..) (by decide) ?_; exact Kept.refl _ _; assumption; clear_value x5; intro h8
  refine Kept.ite ?_ ?_; assumption; refine Kept.step (kept_coreFault ..) (by decide) ?_; assumption

theorem kept_writerCtrl (s : State) (v) :
    Kept [.board, .mem, .prop, .writer, .trig, .bookR, .callR, .propR, .fltR] s (State.writerCtrl s v) := by
  unfold State.writerCtrl
  extract_lets +onlyGivenNames x0; clear_value x0; refine Kept.ite ?_ ?_
  refine Kept.step (kept_askRun ..) (by decide) ?_; exact Kept.refl _ _; exact Kept.refl _ _

theorem kept_writeAct (s : State) (off) (v) :
    KeptO [.lines, .fetchers, .flights, .queues, .board, .mem, .prop, .fab, .arr, .cho, .gangs, .fly, .exch, .writer, .outs, .trig, .ctlR, .bookR, .doorR, .powerR, .lineR, .callR, .propR, .exchR, .fabR, .tabR, .fltR] s (State.writeAct s off v) := by
  unfold State.writeAct
  refine KeptO.ite ?_ ?_; refine KeptO.some ?_; refine Kept.step (kept_splitWrite ..) (by decide) ?_
  exact Kept.refl _ _; refine KeptO.ite ?_ ?_; refine KeptO.some ?_
  refine Kept.step (kept_hostPost ..) (by decide) ?_; exact Kept.refl _ _; refine KeptO.ite ?_ ?_
  refine KeptO.some ?_; refine Kept.step (kept_callSet ..) (by decide) ?_; exact Kept.refl _ _; refine KeptO.ite ?_ ?_
  refine KeptO.some ?_; refine Kept.step (kept_replayWrite ..) (by decide) ?_; exact Kept.refl _ _
  refine KeptO.ite ?_ ?_; refine KeptO.some ?_; refine Kept.step (kept_tabCmd ..) (by decide) ?_; exact Kept.refl _ _
  refine KeptO.ite ?_ ?_; refine KeptO.some ?_; refine Kept.step (kept_writerCtrl ..) (by decide) ?_
  exact Kept.refl _ _; refine KeptO.ite ?_ ?_; refine KeptO.some ?_
  refine Kept.step (kept_closeWrite ..) (by decide) ?_; exact Kept.refl _ _; refine KeptO.ite ?_ ?_
  refine KeptO.some ?_; refine Kept.step (kept_softReset ..) (by decide) ?_; exact Kept.refl _ _
  refine KeptO.ite ?_ ?_; refine KeptO.some ?_; refine Kept.ite ?_ ?_
  refine Kept.step (kept_drowseRequest ..) (by decide) ?_; exact Kept.refl _ _; refine Kept.ite ?_ ?_
  refine Kept.step (kept_wake ..) (by decide) ?_; exact Kept.refl _ _; exact Kept.refl _ _; exact KeptO.none _ _

theorem kept_regWrite (s : State) (off) (v) :
    Kept ([Field.secret, Field.lines, Field.fetchers, Field.flights, Field.queues, Field.board, Field.trackers, Field.mem, Field.prop, Field.fab, Field.arr, Field.cho, Field.gangs, Field.fly, Field.exch, Field.writer] ++ [Field.rep, Field.repBad, Field.outs, Field.trig, Field.ctlR, Field.bookR, Field.doorR, Field.powerR, Field.lineR, Field.splitR, Field.callR, Field.trkR, Field.flyR, Field.propR, Field.arrR, Field.choR] ++ [Field.exchR, Field.fabR, Field.tabR, Field.fltR]) s (State.regWrite s off v) := by
  unfold State.regWrite
  split; refine Kept.ofO (by assumption) ?_; refine KeptO.step (kept_writeAct ..) (by decide) ?_; exact Kept.refl _ _
  split; refine Kept.ofO (by assumption) ?_; refine KeptO.step (kept_blockAct ..) (by decide) ?_; exact Kept.refl _ _
  refine Kept.step (kept_configWrite ..) (by decide) ?_; exact Kept.refl _ _

theorem kept_registerRead (s : State) (off) :
    Kept [.secret, .latches, .outs, .freeCtr, .ctlR, .bookR, .doorR, .powerR, .lineR, .splitR, .callR, .trkR, .flyR, .propR, .arrR, .choR, .exchR, .fabR, .tabR, .fltR] s (State.registerRead s off) := by
  unfold State.registerRead
  split; refine Kept.ite ?_ ?_; refine Kept.step (kept_readServed ..) (by decide) ?_; exact Kept.refl _ _
  refine Kept.step (kept_emit ..) (by decide) ?_; refine Kept.step (kept_hostError ..) (by decide) ?_
  refine Kept.step (kept_hostTouch ..) (by decide) ?_; exact Kept.refl _ _
  refine Kept.next (kept_hostRead (fun u0 => ?_) (by decide) ..) ?_; dsimp only [id]; exact Kept.refl _ _
  exact Kept.refl _ _

theorem kept_registerWrite (s : State) (off) (v) :
    Kept ([Field.secret, Field.lines, Field.fetchers, Field.flights, Field.queues, Field.board, Field.trackers, Field.mem, Field.prop, Field.fab, Field.arr, Field.cho, Field.gangs, Field.fly, Field.exch, Field.writer] ++ [Field.rep, Field.repBad, Field.outs, Field.trig, Field.ctlR, Field.bookR, Field.doorR, Field.powerR, Field.lineR, Field.splitR, Field.callR, Field.trkR, Field.flyR, Field.propR, Field.arrR, Field.choR] ++ [Field.exchR, Field.fabR, Field.tabR, Field.fltR]) s (State.registerWrite s off v) := by
  unfold State.registerWrite
  refine Kept.next (kept_hostWrite (fun u0 => ?_) (by decide) ..) ?_; refine Kept.ite ?_ ?_
  refine Kept.step (kept_regWrite ..) (by decide) ?_; exact Kept.refl _ _
  refine Kept.step (kept_hostError ..) (by decide) ?_; exact Kept.refl _ _; exact Kept.refl _ _

theorem kept_restoreTick (s : State) :
    Kept [.ctlR] s (State.restoreTick s) := by
  unfold State.restoreTick
  refine Kept.step (kept_setB ..) (by decide) ?_; exact Kept.refl _ _

theorem kept_zeroKey (s : State) :
    Kept [.secret, .bookR, .doorR] s (State.zeroKey s) := by
  unfold State.zeroKey
  refine Kept.step (kept_closeSession ..) (by decide) ?_; refine Kept.step (kept_setKey ..) (by decide) ?_
  exact Kept.refl _ _

theorem kept_wrapperLoad (s : State) (code) (keeps) :
    Kept [.pins, .secret, .bookR, .doorR] s (State.wrapperLoad s code keeps) := by
  unfold State.wrapperLoad
  refine Kept.ite ?_ ?_; exact Kept.refl _ _; extract_lets +onlyGivenNames x0; clear_value x0
  extract_lets +onlyGivenNames x1; refine Kept.cut (x := x1) ?_ ?_; unfold x1; refine Kept.upd ?_; exact Kept.refl _ _
  clear_value x1; intro h2; refine Kept.ite ?_ ?_; assumption; refine Kept.step (kept_zeroKey ..) (by decide) ?_
  assumption

theorem kept_wrapperShift (s : State) :
    Kept [.pins, .outs, .freeCtr] s (State.wrapperShift s) := by
  unfold State.wrapperShift
  extract_lets +onlyGivenNames x0; refine Kept.cutR (x := x0) ?_ ?_; unfold x0
  refine Kept.step (kept_fresh ..) (by decide) ?_; exact Kept.refl _ _; clear_value x0; intro h1
  extract_lets +onlyGivenNames x2; clear_value x2; refine Kept.step (kept_emit ..) (by decide) ?_
  extract_lets +onlyGivenNames x3; refine Kept.cut (x := x3) ?_ ?_; unfold x3; assumption; clear_value x3; intro h4
  refine Kept.upd ?_; assumption

theorem kept_wrapperRun (s : State) (code) :
    Kept [.pins, .secret, .outs, .freeCtr, .bookR, .doorR] s (State.wrapperRun s code) := by
  unfold State.wrapperRun
  refine Kept.ite ?_ ?_; exact Kept.refl _ _; refine Kept.step (kept_wrapperShift ..) (by decide) ?_
  refine Kept.step (kept_wrapperLoad ..) (by decide) ?_; exact Kept.refl _ _

theorem kept_selfTest (s : State) :
    Kept [.pins, .secret, .mem, .outs, .freeCtr, .bookR, .doorR] s (State.selfTest s) := by
  unfold State.selfTest
  refine Kept.ite ?_ ?_; exact Kept.refl _ _; extract_lets +onlyGivenNames x0; refine Kept.cutR (x := x0) ?_ ?_
  unfold x0; refine Kept.step (kept_fresh ..) (by decide) ?_; refine Kept.step (kept_wrapperRun ..) (by decide) ?_
  exact Kept.refl _ _; clear_value x0; intro h1; extract_lets +onlyGivenNames x2; refine Kept.cut (x := x2) ?_ ?_
  unfold x2; assumption; clear_value x2; intro h3; refine Kept.upd ?_; assumption

theorem kept_softEndLine (s : State) (l) :
    Kept [.lines, .fetchers, .lineR, .splitR, .callR, .trkR] s (State.softEndLine s l) := by
  unfold State.softEndLine
  extract_lets +onlyGivenNames x0; clear_value x0; extract_lets +onlyGivenNames x1; clear_value x1
  extract_lets +onlyGivenNames x2; clear_value x2; extract_lets +onlyGivenNames x3; clear_value x3
  refine Kept.step (kept_setReg ..) (by simp) ?_; refine Kept.step (kept_setReg ..) (by simp) ?_
  refine Kept.step (kept_setReg ..) (by simp) ?_; refine Kept.step (kept_endReset ..) (by decide) ?_
  exact Kept.refl _ _

theorem kept_undoPaging (s : State) :
    Kept [.prop, .bs, .nextUid] s (State.undoPaging s) := by
  unfold State.undoPaging
  extract_lets +onlyGivenNames x0; refine Kept.cut (x := x0) ?_ ?_; unfold x0; refine Kept.fold _ (fun u1 y2 => ?_) ?_
  refine Kept.step (kept_updPage ..) (by decide) ?_; exact Kept.refl _ _; exact Kept.refl _ _
  clear_value x0; intro h3; extract_lets +onlyGivenNames x4; refine Kept.cut (x := x4) ?_ ?_; unfold x4
  refine Kept.fold _ (fun u5 y6 => ?_) ?_; refine Kept.step (kept_updPage ..) (by decide) ?_; exact Kept.refl _ _
  assumption; clear_value x4; intro h7; refine Kept.upd ?_; assumption

theorem kept_softEnd (s : State) :
    Kept ([Field.secret, Field.lines, Field.fetchers, Field.flights, Field.queues, Field.board, Field.mem, Field.prop, Field.bs, Field.fab, Field.arr, Field.cho, Field.gangs, Field.lanes, Field.fly, Field.exch] ++ [Field.nextUid, Field.ctlR, Field.bookR, Field.doorR, Field.powerR, Field.lineR, Field.splitR, Field.callR, Field.trkR, Field.flyR, Field.propR, Field.arrR, Field.choR, Field.exchR, Field.fabR, Field.tabR] ++ [Field.fltR]) s (State.softEnd s) := by
  unfold State.softEnd
  extract_lets +onlyGivenNames x0; refine Kept.cut (x := x0) ?_ ?_; unfold x0
  refine Kept.step (kept_undoPaging ..) (by decide) ?_; exact Kept.refl _ _; clear_value x0; intro h1
  extract_lets +onlyGivenNames x2; extract_lets +onlyGivenNames x3; clear_value x3; extract_lets +onlyGivenNames x4
  refine Kept.cut (x := x4) ?_ ?_; unfold x4; refine Kept.upd ?_; assumption; clear_value x4; intro h5
  extract_lets +onlyGivenNames x6; refine Kept.cut (x := x6) ?_ ?_; unfold x6
  refine Kept.step (kept_resetDoor ..) (by decide) ?_; refine Kept.fold _ (fun u7 y8 => ?_) ?_
  refine Kept.step (kept_softEndLine ..) (by decide) ?_; exact Kept.refl _ _; assumption; clear_value x6; intro h9
  extract_lets +onlyGivenNames x10; refine Kept.cut (x := x10) ?_ ?_; unfold x10
  refine Kept.step (kept_keepRegs ..) (by decide) ?_; assumption; clear_value x10; intro h11
  refine Kept.step (kept_countMod ..) (by decide) ?_; refine Kept.step (kept_setB ..) (by decide) ?_; assumption

theorem kept_softResetDone (s : State) :
    Kept ([Field.secret, Field.lines, Field.fetchers, Field.flights, Field.queues, Field.board, Field.trackers, Field.mem, Field.prop, Field.bs, Field.fab, Field.arr, Field.cho, Field.gangs, Field.lanes, Field.fly] ++ [Field.exch, Field.outs, Field.trig, Field.nextUid, Field.nextTag, Field.ctlR, Field.bookR, Field.doorR, Field.powerR, Field.lineR, Field.splitR, Field.callR, Field.trkR, Field.flyR, Field.propR, Field.arrR] ++ [Field.choR, Field.exchR, Field.fabR, Field.tabR, Field.fltR]) s (State.softResetDone s) := by
  unfold State.softResetDone
  refine Kept.ite ?_ ?_; exact Kept.refl _ _; extract_lets +onlyGivenNames x0; refine Kept.cut (x := x0) ?_ ?_
  unfold x0; refine Kept.fold _ (fun u1 y2 => ?_) ?_; refine Kept.step (kept_dropFinished ..) (by decide) ?_
  refine Kept.step (kept_stopWaiting ..) (by decide) ?_; exact Kept.refl _ _; exact Kept.refl _ _
  clear_value x0; intro h3; refine Kept.ite ?_ ?_; assumption; refine Kept.step (kept_softEnd ..) (by decide) ?_
  assumption

theorem kept_tabIn (s : State) (highTicks) :
    Kept [.trig] s (State.tabIn s highTicks) := by
  unfold State.tabIn
  refine Kept.ite ?_ ?_; refine Kept.step (kept_trigger ..) (by decide) ?_; exact Kept.refl _ _; exact Kept.refl _ _

theorem kept_tickFly (s : State) (e) :
    Kept [.freeCtr, .flyR] s (State.tickFly s e) := by
  unfold State.tickFly
  extract_lets +onlyGivenNames x0; clear_value x0; extract_lets +onlyGivenNames x1; refine Kept.cut (x := x1) ?_ ?_
  unfold x1; refine Kept.ite ?_ ?_; refine Kept.step (kept_countBeats ..) (by simp) ?_; exact Kept.refl _ _
  exact Kept.refl _ _; clear_value x1; intro h2; refine Kept.ite ?_ ?_; refine Kept.step (kept_count ..) (by simp) ?_
  assumption; assumption

theorem kept_tickLine (s : State) (l) :
    Kept [.lines, .trig, .ctlR, .lineR, .callR, .fltR] s (State.tickLine s l) := by
  unfold State.tickLine
  extract_lets +onlyGivenNames x0; clear_value x0; extract_lets +onlyGivenNames x1; refine Kept.cut (x := x1) ?_ ?_
  unfold x1; refine Kept.ite ?_ ?_; refine Kept.step (kept_count ..) (by simp) ?_; exact Kept.refl _ _
  refine Kept.ite ?_ ?_; refine Kept.step (kept_count ..) (by simp) ?_; exact Kept.refl _ _; exact Kept.refl _ _
  clear_value x1; intro h2; refine Kept.ite ?_ ?_; assumption; refine Kept.ite ?_ ?_
  refine Kept.step (kept_watchdog ..) (by decide) ?_; refine Kept.step (kept_count ..) (by simp) ?_; assumption
  refine Kept.step (kept_setReg ..) (by simp) ?_; assumption

theorem kept_unlockDoor (s : State) :
    Kept [.doorR] s (State.unlockDoor s) := by
  unfold State.unlockDoor
  refine Kept.ite ?_ ?_; refine Kept.step (kept_setReg ..) (by decide) ?_
  refine Kept.step (kept_setF ..) (by decide) ?_; refine Kept.step (kept_setB ..) (by decide) ?_; exact Kept.refl _ _
  exact Kept.refl _ _

theorem kept_tickSession (s : State) :
    Kept [.doorR] s (State.tickSession s) := by
  unfold State.tickSession
  extract_lets +onlyGivenNames x0; refine Kept.cut (x := x0) ?_ ?_; unfold x0; refine Kept.ite ?_ ?_
  refine Kept.step (kept_setReg ..) (by decide) ?_; exact Kept.refl _ _; exact Kept.refl _ _; clear_value x0; intro h1
  extract_lets +onlyGivenNames x2; refine Kept.cut (x := x2) ?_ ?_; unfold x2
  refine Kept.step (kept_idleClose ..) (by decide) ?_; refine Kept.step (kept_unlockDoor ..) (by decide) ?_
  assumption; clear_value x2; intro h3; refine Kept.ite ?_ ?_; refine Kept.step (kept_count ..) (by decide) ?_
  assumption; assumption

theorem kept_tickTimers (s : State) :
    Kept [.timers] s (State.tickTimers s) := by
  unfold State.tickTimers
  refine Kept.upd ?_; exact Kept.refl _ _

theorem kept_tickUnit (s : State) (u) :
    Kept [.freeCtr, .choR] s (State.tickUnit s u) := by
  unfold State.tickUnit
  extract_lets +onlyGivenNames x0; clear_value x0; extract_lets +onlyGivenNames x1; clear_value x1
  extract_lets +onlyGivenNames x2; refine Kept.cut (x := x2) ?_ ?_; unfold x2; refine Kept.ite ?_ ?_
  refine Kept.step (kept_countBeats ..) (by simp) ?_; exact Kept.refl _ _; exact Kept.refl _ _
  clear_value x2; intro h3; refine Kept.ite ?_ ?_; refine Kept.step (kept_countBeats ..) (by simp) ?_; assumption
  assumption

theorem kept_tickUp (s : State) :
    Kept [.lines, .trig, .freeCtr, .ctlR, .powerR, .lineR, .callR, .flyR, .propR, .arrR, .choR, .fltR] s (State.tickUp s) := by
  unfold State.tickUp
  extract_lets +onlyGivenNames x0; refine Kept.cut (x := x0) ?_ ?_; unfold x0; refine Kept.fold _ (fun u1 y2 => ?_) ?_
  refine Kept.step (kept_tickLine ..) (by decide) ?_; exact Kept.refl _ _; exact Kept.refl _ _
  clear_value x0; intro h3; extract_lets +onlyGivenNames x4; refine Kept.cut (x := x4) ?_ ?_; unfold x4
  refine Kept.ite ?_ ?_; refine Kept.step (kept_count ..) (by decide) ?_; assumption; assumption
  clear_value x4; intro h5; extract_lets +onlyGivenNames x6; refine Kept.cut (x := x6) ?_ ?_; unfold x6
  refine Kept.ite ?_ ?_; refine Kept.step (kept_count ..) (by decide) ?_; assumption; assumption
  clear_value x6; intro h7; extract_lets +onlyGivenNames x8; refine Kept.cut (x := x8) ?_ ?_; unfold x8
  refine Kept.ite ?_ ?_; refine Kept.step (kept_count ..) (by decide) ?_; assumption; assumption
  clear_value x8; intro h9; extract_lets +onlyGivenNames x10; refine Kept.cut (x := x10) ?_ ?_; unfold x10
  refine Kept.ite ?_ ?_; refine Kept.step (kept_countBeats ..) (by decide) ?_; assumption; assumption
  clear_value x10; intro h11; extract_lets +onlyGivenNames x12; refine Kept.cut (x := x12) ?_ ?_; unfold x12
  refine Kept.ite ?_ ?_; assumption; refine Kept.step (kept_count64 ..) (by decide) ?_; assumption
  clear_value x12; intro h13; extract_lets +onlyGivenNames x14; refine Kept.cut (x := x14) ?_ ?_; unfold x14
  refine Kept.iter _ (fun u15 y16 => ?_) ?_; refine Kept.step (kept_tickUnit ..) (by decide) ?_; exact Kept.refl _ _
  assumption; clear_value x14; intro h17; refine Kept.iter _ (fun u18 y19 => ?_) ?_
  refine Kept.step (kept_tickFly ..) (by decide) ?_; exact Kept.refl _ _; assumption

theorem kept_tickOnce (s : State) :
    Kept [.pins, .tick, .lines, .flights, .prop, .fab, .tab, .outs, .timers, .trig, .freeCtr, .ctlR, .doorR, .powerR, .lineR, .callR, .flyR, .propR, .arrR, .choR, .fabR, .tabR, .fltR] s (State.tickOnce s) := by
  unfold State.tickOnce
  refine Kept.ite ?_ ?_; exact Kept.refl _ _; extract_lets +onlyGivenNames x0; clear_value x0
  extract_lets +onlyGivenNames x1; refine Kept.cut (x := x1) ?_ ?_; unfold x1
  refine Kept.step (kept_tickTimers ..) (by decide) ?_; refine Kept.upd ?_; exact Kept.refl _ _
  clear_value x1; intro h2; refine Kept.ite ?_ ?_; assumption; extract_lets +onlyGivenNames x3
  refine Kept.cut (x := x3) ?_ ?_; unfold x3; refine Kept.step (kept_tickSession ..) (by decide) ?_; assumption
  clear_value x3; intro h4; refine Kept.ite ?_ ?_; refine Kept.step (kept_settle ..) (by decide) ?_
  refine Kept.step (kept_tickUp ..) (by decide) ?_; assumption; assumption

theorem kept_wakingComplete (s : State) :
    Kept [.ctlR, .powerR, .tabR] s (State.wakingComplete s) := by
  unfold State.wakingComplete
  refine Kept.ite ?_ ?_; exact Kept.refl _ _; refine Kept.step (kept_latchIrq ..) (by decide) ?_
  refine Kept.step (kept_setB ..) (by decide) ?_; refine Kept.step (kept_setB ..) (by decide) ?_
  refine Kept.step (kept_setB ..) (by decide) ?_; refine Kept.step (kept_setF ..) (by decide) ?_; exact Kept.refl _ _

end Sys2Proof.Machine
end

