-- ==== Sys2Proof/Laws/Acts.lean ====
section
/-! SUPPORT. What the shared operations do: accesses of the host port, host errors, records and halts. -/

namespace Sys2Proof.Machine

set_option Elab.async false

/-! The host port. -/

theorem State.hostWrite_ok {s : State} {off : Nat} (f : State → State) (h : s.serve off = .ok) :
    s.hostWrite off f = f s.hostTouch := by unfold State.hostWrite; rw [h]

theorem State.hostWrite_wait {s : State} {off : Nat} (f : State → State) (h : s.serve off = .wait) :
    s.hostWrite off f = s := by unfold State.hostWrite; rw [h]

theorem State.hostWrite_refuse {s : State} {off : Nat} (f : State → State) (h : s.serve off = .refuse) :
    s.hostWrite off f = s.hostTouch.hostError off true := by unfold State.hostWrite; rw [h]

theorem State.hostRead_ok {s : State} {off : Nat} (f : State → State) (h : s.serve off = .ok) :
    s.hostRead off f = f (s.hostTouch.emit (.hostRsp (s.readReg off) false)) := by unfold State.hostRead; rw [h]

theorem State.hostRead_wait {s : State} {off : Nat} (f : State → State) (h : s.serve off = .wait) :
    s.hostRead off f = s := by unfold State.hostRead; rw [h]

theorem State.hostRead_refuse {s : State} {off : Nat} (f : State → State) (h : s.serve off = .refuse) :
    s.hostRead off f = s.hostTouch.emit (.hostRsp 0 true) := by unfold State.hostRead; rw [h]

theorem Only.hostTouch {fs : List Field} {rs : List Nat} {s t : State} (h : Only fs rs s t) (m : R.sesIdleTicks ∈ rs) :
    Only fs rs s t.hostTouch := h.setReg m

theorem Only.emit {fs : List Field} {rs : List Nat} {s t : State} (h : Only fs rs s t) (o : Output)
    (m : fs.contains .outs = true) : Only fs rs s (t.emit o) :=
  h.kept (kept_emit t o).but (by simpa using m) (by decide)

theorem Only.hostError {fs : List Field} {rs : List Nat} {s t : State} (h : Only fs rs s t) (a : Nat) (w : Bool)
    (m : ([R.ctlHostErr, R.ctlHostErrAddr, R.ctlIrqPend].all fun r => rs.contains r) = true) :
    Only fs rs s (t.hostError a w) := by
  simp only [List.all_eq_true, List.contains_iff_mem] at m
  exact ((h.count (m _ (by simp))).setReg (m _ (by simp))).setB (m _ (by simp))

@[simp] theorem State.hostTouch_reg_ne (s : State) {p : Nat} (h : p ≠ R.sesIdleTicks) : s.hostTouch.reg p = s.reg p :=
  State.reg_setReg_ne s _ h

theorem State.hostError_count (s : State) (a : Nat) (w : Bool) :
    (s.hostError a w).reg R.ctlHostErr = satAdd (s.reg R.ctlHostErr) 1 := by
  unfold State.hostError State.latchIrq
  dsimp only
  rw [State.reg_setB_ne _ _ _ (by decide), State.reg_setReg_ne _ _ (by decide), State.reg_count_self]

theorem State.hostError_addr (s : State) (a : Nat) (w : Bool) :
    (s.hostError a w).reg R.ctlHostErrAddr = BitVec.ofNat 32 (a % 2 ^ 21) ||| flag32 31 w := by
  unfold State.hostError State.latchIrq
  dsimp only
  rw [State.reg_setB_ne _ _ _ (by decide), State.reg_setReg_self]

theorem State.hostError_irq (s : State) (a : Nat) (w : Bool) : (s.hostError a w).regB R.ctlIrqPend 9 = true := by
  unfold State.hostError State.latchIrq
  dsimp only
  rw [State.regB_setB _ _ _ _ _ (by decide), if_pos rfl]

/-! Records and halts. -/

theorem State.reg_setRegs_ne (s : State) (o p : Nat) (l : List Word) (h : ∀ i, i < l.length → p ≠ o + 4 * i) :
    (s.setRegs o l).reg p = s.reg p := by
  induction l generalizing s o with
  | nil => rfl
  | cons w ws ih =>
    refine (ih _ _ fun i hi => ?_).trans (State.reg_setReg_ne s _ (by simpa using h 0 (by simp)))
    have := h (i + 1) (by simpa using hi)
    omega

theorem State.line_logRecord (s : State) (r : FaultRec) (l : Line) : (s.logRecord r).line l = s.line l := by
  have := (kept_logRecord s r).but.same .lines (by decide)
  unfold State.line; rw [this]

/-- A record leaves FATAL set, and sets it when its class is 5 (R525). -/
theorem State.fatal_logRecord (s : State) (r : FaultRec) (h : s.fatal = true ∨ r.cls = 5) : (s.logRecord r).fatal = true := by
  unfold State.logRecord
  extract_lets wr d s1 ws s2 s3 s4 s5 s6
  have e1 : s1.reg R.fltStatus = s.reg R.fltStatus := by
    unfold s1; split
    · rw [State.reg_count_ne _ _ (by decide), State.reg_setReg_ne _ _ (by decide)]
    · rfl
  have e2 : s2.reg R.fltStatus = s1.reg R.fltStatus := State.reg_setRegs_ne _ _ _ _ fun i hi => by
    unfold R.fltStatus R.fltRec; omega
  have e4 : s4.reg R.fltStatus = s2.reg R.fltStatus := by
    unfold s4 s3
    rw [State.reg_count_ne _ _ (by unfold R.fltStatus R.fltClassCount; omega), State.reg_setReg_ne _ _ (by decide)]
  have e5 : s5.fatal = s.fatal := by
    unfold s5 State.fatal
    split
    · rw [State.regB_setB _ _ _ _ _ (by decide), if_neg (by decide)]
      unfold State.regB; rw [e4, e2, e1]
    · unfold State.regB; rw [e4, e2, e1]
  have e6 : s6.fatal = true := by
    unfold s6
    by_cases hf : s5.fatal = true
    · rw [if_neg (by simp [hf])]; exact hf
    · have hs : s.fatal ≠ true := e5 ▸ hf
      rw [if_pos ⟨h.resolve_left hs, by simpa using hf⟩]
      unfold State.fatal
      rw [State.regB_setB _ _ _ _ _ (by decide), if_pos rfl]
  split
  · exact e6
  · exact e6

theorem State.line_haltRecord (s : State) (l k : Line) (reason engine : Nat) (c : HaltCue) :
    (s.haltRecord l reason engine c).line k = s.line k := by
  have := (kept_haltRecord s l reason engine c).but.same .lines (by decide)
  unfold State.line; rw [this]

/-- A halt changes the line's HALTED and MORE bits and nothing else of any line (R318, R320). -/
theorem State.haltCore_line (s : State) (l : Line) (reason engine : Nat) (fetch : Bool) (c : HaltCue) :
    (s.haltCore l reason engine fetch c).line l =
      if (s.line l).halted then { s.line l with more := true } else { s.line l with halted := true, more := false } := by
  unfold State.haltCore
  dsimp only
  rw [State.line_logRecord]
  split
  · rw [State.line_setLine_self]
  · rw [State.line_haltRecord, State.line_setLine_self]

theorem State.line_haltCore_ne (s : State) {l k : Line} (reason engine : Nat) (fetch : Bool) (c : HaltCue) (h : k ≠ l) :
    (s.haltCore l reason engine fetch c).line k = s.line k := by
  unfold State.haltCore
  dsimp only
  rw [State.line_logRecord]
  split
  · rw [State.line_setLine_ne _ _ h]
  · rw [State.line_haltRecord, State.line_setLine_ne _ _ h]

theorem State.halted_haltCore (s : State) (l : Line) (reason engine : Nat) (fetch : Bool) (c : HaltCue) :
    ((s.haltCore l reason engine fetch c).line l).halted = true := by
  rw [State.haltCore_line]; split
  · assumption
  · rfl

theorem State.fatal_haltRecord (s : State) (l : Line) (reason engine : Nat) (c : HaltCue) :
    (s.haltRecord l reason engine c).fatal = s.fatal := by
  unfold State.fatal State.haltRecord State.latchIrq
  dsimp only
  unfold State.regB
  rw [State.reg_setB_ne _ _ _ (by decide)]
  have out (o : Nat) (h : o < 0x7000) : R.fltStatus ≠ o := by unfold R.fltStatus; omega
  rw [State.reg_setReg_ne _ _ (out _ (by unfold R.callWdogAge; omega)),
    State.reg_setReg_ne _ _ (out _ (by unfold R.lineHaltTag; omega)),
    State.reg_setReg_ne _ _ (out _ (by unfold R.lineHaltCountHi; omega)),
    State.reg_setReg_ne _ _ (out _ (by unfold R.lineHaltCountLo; omega)),
    State.reg_setReg_ne _ _ (out _ (by unfold R.lineHaltAddr; omega)),
    State.reg_setReg_ne _ _ (out _ (by unfold R.lineHaltReason; omega))]

theorem State.fatal_haltCore (s : State) (l : Line) (reason engine : Nat) (fetch : Bool) (c : HaltCue) (h : s.fatal = true) :
    (s.haltCore l reason engine fetch c).fatal = true := by
  unfold State.haltCore
  refine State.fatal_logRecord _ _ (.inl ?_)
  split
  · exact h
  · rw [State.fatal_haltRecord]; exact h

/-- The halts of a core fault: every line that is enabled and not RESETTING is HALTED, and FATAL stays (R525). -/
theorem State.fatalHalts_spec (s : State) (skip : Option Line) (h : s.fatal = true) :
    (s.fatalHalts skip).fatal = true ∧
      ∀ l, skip ≠ some l → (s.line l).enabled = true → (s.line l).resetting = false → ((s.fatalHalts skip).line l).halted = true := by
  have one : ∀ (t : State) (l : Line), t.fatal = true →
      let u := (let ln := t.line l
        if skip = some l ∨ ln.enabled = false ∨ ln.resetting then t
        else
          let s := t.haltCore l Code.coreFatal.num 0 false (t.headCue l (t.headOf l))
          if ln.halted then s else s.setLine l { s.line l with atPrompter := true })
      u.fatal = true ∧ (∀ k, k ≠ l → u.line k = t.line k) ∧ (u.line l).enabled = (t.line l).enabled ∧
        (u.line l).resetting = (t.line l).resetting ∧
        (skip ≠ some l → (t.line l).enabled = true → (t.line l).resetting = false → (u.line l).halted = true) := by
    intro t l ht
    dsimp only
    split
    · rename_i hc
      exact ⟨ht, fun _ _ => rfl, rfl, rfl, fun a b c => by simp_all⟩
    · rename_i hc
      have hf := State.fatal_haltCore t l Code.coreFatal.num 0 false (t.headCue l (t.headOf l)) ht
      have hn (k : Line) (hk : k ≠ l) :=
        State.line_haltCore_ne t Code.coreFatal.num 0 false (t.headCue l (t.headOf l)) hk
      have hl := State.haltCore_line t l Code.coreFatal.num 0 false (t.headCue l (t.headOf l))
      split
      · rename_i hh
        rw [if_pos hh] at hl
        exact ⟨hf, hn, by rw [hl], by rw [hl], fun _ _ _ => by rw [hl]; exact hh⟩
      · rename_i hh
        rw [if_neg hh] at hl
        refine ⟨hf, fun k hk => by rw [State.line_setLine_ne _ _ hk, hn k hk], ?_, ?_, fun _ _ _ => ?_⟩ <;>
          rw [State.line_setLine_self, hl]
  have all : ∀ (ls : List Line) (t : State), t.fatal = true →
      let u := ls.foldl (fun s l =>
        let ln := s.line l
        if skip = some l ∨ ln.enabled = false ∨ ln.resetting then s
        else
          let s := s.haltCore l Code.coreFatal.num 0 false (s.headCue l (s.headOf l))
          if ln.halted then s else s.setLine l { s.line l with atPrompter := true }) t
      ls.Nodup → u.fatal = true ∧ (∀ l, l ∉ ls → u.line l = t.line l) ∧
        ∀ l, l ∈ ls → skip ≠ some l → (t.line l).enabled = true → (t.line l).resetting = false → (u.line l).halted = true := by
    intro ls
    induction ls with
    | nil => exact fun t ht _ => ⟨ht, fun _ _ => rfl, fun _ h => absurd h (by simp)⟩
    | cons x ls ih =>
      intro t ht u nd
      obtain ⟨hf, hn, he, hr, hh⟩ := one t x ht
      rw [List.nodup_cons] at nd
      obtain ⟨gf, gn, gh⟩ := ih _ hf nd.2
      refine ⟨gf, fun l hl => ?_, fun l hl a b c => ?_⟩
      · rw [List.mem_cons, not_or] at hl
        exact (gn l hl.2).trans (hn l hl.1)
      · rcases List.mem_cons.1 hl with rfl | hl
        · exact (congrArg LineSt.halted (gn l nd.1)).trans (hh a b c)
        · have hne : l ≠ x := fun e => nd.1 (e ▸ hl)
          exact gh l hl a (by rw [hn l hne]; exact b) (by rw [hn l hne]; exact c)
  obtain ⟨f, -, g⟩ := all allLines s h (by decide)
  exact ⟨f, fun l => g l (by cases l <;> decide)⟩

/-- A record of class 5 sets FATAL and halts every line that is enabled and not RESETTING (R525). -/
theorem State.coreFault_spec (s : State) (r : FaultRec) (h : r.cls = 5) :
    (s.coreFault r).fatal = true ∧
      ∀ l, (s.line l).enabled = true → (s.line l).resetting = false → ((s.coreFault r).line l).halted = true := by
  unfold State.coreFault
  have g := State.fatalHalts_spec (s.logRecord r) none (State.fatal_logRecord _ _ (.inr h))
  refine ⟨g.1, fun l a b => g.2 l (by simp) ?_ ?_⟩ <;> rw [State.line_logRecord] <;> assumption

theorem State.reg_logRecord (s : State) (r : FaultRec) (o : Nat) (h : o < 0x4000) : (s.logRecord r).reg o = s.reg o :=
  Field.same_of_ofReg (kept_logRecord s r).but o (by
    unfold Field.ofReg
    by_cases a : o < 0x1000
    · rw [if_pos a]; decide
    · rw [if_neg a]
      by_cases b : o < 0x1800
      · rw [if_pos b]; decide
      · rw [if_neg b]
        by_cases c : o < 0x2000
        · rw [if_pos c]; decide
        · rw [if_neg c, if_pos h]; decide)

theorem State.reg_haltCore (s : State) (l : Line) (reason engine : Nat) (fetch : Bool) (c : HaltCue) (o : Nat) (h : o < 0x4000)
    (k : o ≠ R.ctlIrqPend) : (s.haltCore l reason engine fetch c).reg o = s.reg o := by
  unfold State.haltCore
  dsimp only
  rw [State.reg_logRecord _ _ _ h]
  split
  · rfl
  · unfold State.haltRecord State.latchIrq
    dsimp only
    rw [State.reg_setB_ne _ _ _ k]
    have out (p : Nat) (g : 0x4000 ≤ p) : o ≠ p := by omega
    rw [State.reg_setReg_ne _ _ (out _ (by unfold R.callWdogAge; omega)),
    State.reg_setReg_ne _ _ (out _ (by unfold R.lineHaltTag; omega)),
      State.reg_setReg_ne _ _ (out _ (by unfold R.lineHaltCountHi; omega)),
      State.reg_setReg_ne _ _ (out _ (by unfold R.lineHaltCountLo; omega)),
      State.reg_setReg_ne _ _ (out _ (by unfold R.lineHaltAddr; omega)),
      State.reg_setReg_ne _ _ (out _ (by unfold R.lineHaltReason; omega))]
    rfl

/-- A record of class core fatal changes no register below the lines' block but CTL_IRQ_PEND. -/
theorem State.reg_coreFault (s : State) (r : FaultRec) (o : Nat) (h : o < 0x4000) (k : o ≠ R.ctlIrqPend) :
    (s.coreFault r).reg o = s.reg o := by
  have all : ∀ (ls : List Line) (t : State), (ls.foldl (fun s l =>
        let ln := s.line l
        if (none : Option Line) = some l ∨ ln.enabled = false ∨ ln.resetting then s
        else
          let s := s.haltCore l Code.coreFatal.num 0 false (s.headCue l (s.headOf l))
          if ln.halted then s else s.setLine l { s.line l with atPrompter := true }) t).reg o = t.reg o := by
    intro ls
    induction ls with
    | nil => exact fun _ => rfl
    | cons x ls ih =>
      intro t
      refine (ih _).trans ?_
      dsimp only
      split
      · rfl
      · split
        · exact State.reg_haltCore _ _ _ _ _ _ _ h k
        · exact State.reg_haltCore _ _ _ _ _ _ _ h k
  exact (all _ _).trans (State.reg_logRecord _ _ _ h)

end Sys2Proof.Machine
end

