-- ==== Sys2Proof/Laws/Land.lean ====
section
/-! SUPPORT. A read after a write to the same place gives the value written, and a write leaves every other place alone. -/

namespace Sys2Proof.Machine

set_option Elab.async false

theorem Mem.dataWith_get (m : Mem) (w i : Nat) (fl : List (Nat × Byte)) (h : i < 64) :
    listGet 0 (m.dataWith w fl) i = m.byte (64 * w + i) ^^^ NMap.get 0 fl i := by
  unfold Mem.dataWith listGet
  rw [List.getElem?_map, List.getElem?_range h]
  rfl

/-- A word depends on its own bytes and errors only. -/
theorem Mem.readPure_congr {m n : Mem} {w : Nat} (b : ∀ i, i < 64 → n.byte (64 * w + i) = m.byte (64 * w + i))
    (f : n.flaw w = m.flaw w) : n.readPure w = m.readPure w := by
  have d : ∀ fl, n.dataWith w fl = m.dataWith w fl := fun fl => by
    unfold Mem.dataWith
    refine List.map_congr_left fun i hi => ?_
    rw [b i (List.mem_range.1 hi)]
  unfold Mem.readPure
  simp only [f, d]

theorem Mem.read_congr {m n : Mem} {a : Nat} (b : ∀ i, i < 64 → n.byte (64 * (a / 64) + i) = m.byte (64 * (a / 64) + i))
    (f : n.flaw (a / 64) = m.flaw (a / 64)) : n.read a = m.read a := by
  unfold Mem.read
  rw [Mem.readPure_congr b f]

/-- A word without errors, or with the poison marker, reads as it is stored. -/
theorem Mem.read_plain {m : Mem} {a : Nat} (f : m.flaw (a / 64) = [] ∨ m.flaw (a / 64) = poisonMark) : m.read a = m.byte a := by
  have hi : a % 64 < 64 := Nat.mod_lt _ (by decide)
  have e : 64 * (a / 64) + a % 64 = a := Nat.div_add_mod a 64
  unfold Mem.read Mem.readPure
  rcases f with f | f
  · rw [f]
    show listGet 0 (m.dataWith (a / 64) []) (a % 64) = _
    rw [Mem.dataWith_get _ _ _ _ hi, e]; simp
  · rw [f]
    show listGet 0 (m.dataWith (a / 64) poisonMark) (a % 64) = _
    rw [Mem.dataWith_get _ _ _ _ hi, e]
    have : NMap.get (0 : Byte) poisonMark (a % 64) = 0 := by
      unfold poisonMark
      simp only [NMap.get]
      rw [if_neg (by omega), if_neg (by omega)]
    rw [this]; simp

theorem State.mem_markWritten (s : State) (a : Nat) (b : Bool) : (s.markWritten a b).mem = s.mem :=
  (kept_markWritten s a b).but.same .mem (by decide)

/-- A read with its side effects leaves every byte of memory as a read delivers it. -/
theorem State.readWord_mem (s : State) (w : Nat) : (s.readWord w).2.mem.cells = s.mem.cells ∧
    (s.readWord w).2.mem.flaws = s.mem.flaws ∧ (s.readWord w).2.mem.epoch = s.mem.epoch ∧
    (s.readWord w).2.mem.dark = s.mem.dark := by
  have q : ∀ (t : State) (b : Bool), (t.queueCorr w b).mem.cells = t.mem.cells ∧ (t.queueCorr w b).mem.flaws = t.mem.flaws ∧
      (t.queueCorr w b).mem.epoch = t.mem.epoch ∧ (t.queueCorr w b).mem.dark = t.mem.dark := by
    intro t b; unfold State.queueCorr; dsimp only; repeat' split
    all_goals exact ⟨rfl, rfl, rfl, rfl⟩
  have r : ∀ (t : State) (a : Nat), (t.retireFrame a).mem = t.mem := fun t a => (kept_retireFrame t a).but.same .mem (by decide)
  have fl : ∀ (t : State) (x : FaultRec), (t.logRecord x).mem = t.mem := fun t x => (kept_logRecord t x).but.same .mem (by decide)
  have wt : ∀ t : State, (t.watchWord w).mem.cells = t.mem.cells ∧ (t.watchWord w).mem.flaws = t.mem.flaws ∧
      (t.watchWord w).mem.epoch = t.mem.epoch ∧ (t.watchWord w).mem.dark = t.mem.dark := by
    intro t
    unfold State.watchWord
    dsimp only
    split
    · split
      · rw [r]; exact ⟨rfl, rfl, rfl, rfl⟩
      · exact ⟨rfl, rfl, rfl, rfl⟩
    · rw [fl]
      repeat' split
      all_goals exact ⟨rfl, rfl, rfl, rfl⟩
  unfold State.readWord
  dsimp only
  split
  · exact ⟨rfl, rfl, rfl, rfl⟩
  · exact ⟨rfl, rfl, rfl, rfl⟩
  · obtain ⟨a, b, c, d⟩ := wt (State.queueCorr (s.count R.propCorr 1) w false)
    obtain ⟨a', b', c', d'⟩ := q (s.count R.propCorr 1) false
    exact ⟨a.trans a', b.trans b', c.trans c', d.trans d'⟩
  · dsimp only
    rw [r, fl]
    exact q (s.count R.propUncorr 1) true

theorem Mem.byte_same {m n : Mem} (c : n.cells = m.cells) (e : n.epoch = m.epoch) (d : n.dark = m.dark) (a : Nat) :
    n.byte a = m.byte a := by
  unfold Mem.byte Mem.base; rw [c, e, d]

theorem Mem.read_same {m n : Mem} (c : n.cells = m.cells) (f : n.flaws = m.flaws) (e : n.epoch = m.epoch)
    (d : n.dark = m.dark) (a : Nat) : n.read a = m.read a := by
  refine Mem.read_congr (fun i _ => Mem.byte_same c e d _) ?_
  unfold Mem.flaw Mem.baseFlaw; rw [f, e]

theorem Mem.read_of_readPure (m : Mem) (w i : Nat) (h : i < 64) : listGet 0 (m.readPure w).1 i = m.read (64 * w + i) := by
  unfold Mem.read
  rw [show (64 * w + i) / 64 = w by omega, show (64 * w + i) % 64 = i by omega]

theorem Mem.length_readPure (m : Mem) (w : Nat) : (m.readPure w).1.length = 64 := by
  unfold Mem.readPure Mem.dataWith
  dsimp only
  split <;> simp

/-- Bytes landing inside one stored word: those bytes read as written, and every other byte reads as before (R234). -/
theorem State.read_landWord (s : State) (addr : Nat) (bytes : List Byte) (poison : Bool) (fit : addr % 64 + bytes.length ≤ 64)
    (a : Nat) : (s.landWord addr bytes poison).mem.read a =
      if addr ≤ a ∧ a < addr + bytes.length then listGet 0 bytes (a - addr) else s.mem.read a := by
  have key : ∀ (t : State) (m : Mem) (bad : Bool),
      (∀ b, b / 64 = addr / 64 → ¬(addr ≤ b ∧ b < addr + bytes.length) → m.byte b = s.mem.read b) →
      (∀ b, b / 64 ≠ addr / 64 → m.byte b = s.mem.byte b) →
      m.flaws = s.mem.flaws → m.epoch = s.mem.epoch →
      (let m := (m.setBytes addr bytes).setFlaw (addr / 64) (if bad then poisonMark else [])
        let m := { m with corr := m.corr.filter (·.1 != addr / 64) }
        { t with mem := m }.markWritten addr bad).mem.read a =
      if addr ≤ a ∧ a < addr + bytes.length then listGet 0 bytes (a - addr) else s.mem.read a := by
    intro t m bad hb hb' hf he
    dsimp only
    rw [State.mem_markWritten]
    refine (Mem.read_same (m := (m.setBytes addr bytes).setFlaw (addr / 64) (if bad then poisonMark else [])) rfl rfl rfl
      rfl a).trans ?_
    by_cases hw : a / 64 = addr / 64
    · rw [Mem.read_plain (by
        rw [hw, Mem.flaw_setFlaw, if_pos rfl]
        cases bad
        · exact .inl rfl
        · exact .inr rfl), Mem.byte_setFlaw, Mem.byte_setBytes]
      split
      · rfl
      · rename_i hn
        exact hb a hw hn
    · rw [if_neg (show ¬(addr ≤ a ∧ a < addr + bytes.length) by omega)]
      refine Mem.read_congr (fun i hi => ?_) ?_
      · rw [Mem.byte_setFlaw, Mem.byte_setBytes, if_neg (by omega), hb' _ (by omega)]
      · rw [Mem.flaw_setFlaw, if_neg hw, Mem.flaw_setBytes]
        unfold Mem.flaw Mem.baseFlaw; rw [hf, he]
  unfold State.landWord
  extract_lets w full
  by_cases hf : full = true
  · rw [if_pos hf]
    dsimp only
    rw [if_pos hf]
    have : addr % 64 = 0 ∧ bytes.length = 64 := by simpa [full] using hf
    exact key s s.mem _ (fun b _ _ => by omega) (fun _ _ => rfl) rfl rfl
  · rw [if_neg hf]
    dsimp only
    rw [if_neg hf]
    obtain ⟨hc, hfl, he, hd⟩ := State.readWord_mem s w
    have r1 : (s.readWord w).1.1 = (s.mem.readPure w).1 := by
      unfold State.readWord
      dsimp only
      split <;> rfl
    refine key (s.readWord w).2 _ _ (fun b hw _ => ?_) (fun b hw => ?_) ?_ ?_
    · have hb : 64 * w ≤ b ∧ b < 64 * w + 64 := by show 64 * (addr / 64) ≤ b ∧ b < 64 * (addr / 64) + 64; omega
      rw [Mem.byte_setBytes, r1, Mem.length_readPure, if_pos hb, Mem.read_of_readPure _ _ _ (by omega)]
      congr 1; omega
    · have hb : ¬(64 * w ≤ b ∧ b < 64 * w + 64) := by
        show ¬(64 * (addr / 64) ≤ b ∧ b < 64 * (addr / 64) + 64); omega
      rw [Mem.byte_setBytes, r1, Mem.length_readPure, if_neg hb]
      exact Mem.byte_same hc he hd _
    · rw [Mem.flaws_setBytes, hfl]
    · rw [Mem.epoch_setBytes, he]

/-- Whole words land without a look at what was there. -/
theorem State.only_landWord (s : State) (addr : Nat) (bytes : List Byte) (h : addr % 64 = 0) (k : bytes.length = 64) :
    KeptBut [.mem, .prop] s (s.landWord addr bytes false) := by
  unfold State.landWord
  extract_lets w full
  have hf : full = true := by simp [full, h, k]
  rw [if_pos hf]
  dsimp only
  rw [if_pos hf]
  refine KeptBut.step (kept_markWritten ..).but (m := [.mem, .prop]) (by decide) ?_
  exact KeptBut.upd (KeptBut.refl _ _)

theorem State.only_land (s : State) (addr : Nat) (bytes : List Byte) (h : addr % 64 = 0) (k : bytes.length % 64 = 0) :
    KeptBut [.mem, .prop] s (s.land addr bytes false) := by
  unfold State.land
  extract_lets n
  have up : ∀ m, m ≤ n → KeptBut [.mem, .prop] s ((List.range m).foldl (fun s k =>
      let lo := if k = 0 then addr else (addr / 64 + k) * 64
      let off := lo - addr
      let len := min (64 - lo % 64) (bytes.length - off)
      s.landWord lo ((bytes.drop off).take len) false) s) := by
    intro m
    induction m with
    | zero => exact fun _ => KeptBut.refl _ _
    | succ m ih =>
      intro hm
      rw [List.range_succ, List.foldl_append, List.foldl_cons, List.foldl_nil]
      have hn : n = (addr % 64 + bytes.length + 63) / 64 := rfl
      refine (ih (by omega)).trans (State.only_landWord _ _ _ ?_ ?_)
      · split <;> omega
      · simp only [List.length_take, List.length_drop]
        split
        · omega
        · omega
  exact up n le_rfl

theorem listGet_take_drop (l : List Byte) (off len i : Nat) (h : i < len) :
    listGet 0 ((l.drop off).take len) i = listGet 0 l (off + i) := by
  unfold listGet
  rw [List.getElem?_take, if_pos h, List.getElem?_drop]

/-- Bytes landing at any address: those bytes read as written, and every other byte reads as before. -/
theorem State.read_land (s : State) (addr : Nat) (bytes : List Byte) (poison : Bool) (a : Nat) :
    (s.land addr bytes poison).mem.read a =
      if addr ≤ a ∧ a < addr + bytes.length then listGet 0 bytes (a - addr) else s.mem.read a := by
  unfold State.land
  extract_lets n
  have up : ∀ k, k ≤ n → ((List.range k).foldl (fun s k =>
      let lo := if k = 0 then addr else (addr / 64 + k) * 64
      let off := lo - addr
      let len := min (64 - lo % 64) (bytes.length - off)
      s.landWord lo ((bytes.drop off).take len) poison) s).mem.read a =
      if addr ≤ a ∧ a < addr + bytes.length ∧ a < (addr / 64 + k) * 64 then listGet 0 bytes (a - addr) else s.mem.read a := by
    intro k
    induction k with
    | zero =>
      intro _
      rw [List.range_zero, List.foldl_nil, if_neg (by omega)]
    | succ k ih =>
      intro hk
      rw [List.range_succ, List.foldl_append, List.foldl_cons, List.foldl_nil]
      dsimp only
      have hn : n = (addr % 64 + bytes.length + 63) / 64 := rfl
      by_cases h0 : k = 0
      · subst h0
        rw [if_pos rfl, State.read_landWord _ _ _ _ (by simp only [List.length_take, List.length_drop]; omega), ih (by omega)]
        simp only [List.length_take, List.length_drop]
        by_cases h : addr ≤ a ∧ a < addr + min (min (64 - addr % 64) (bytes.length - (addr - addr))) (bytes.length - (addr - addr))
        · rw [if_pos h, if_pos (by omega), listGet_take_drop _ _ _ _ (by omega)]
          congr 1; omega
        · rw [if_neg h, if_neg (by omega), if_neg (by omega)]
      · rw [if_neg h0, State.read_landWord _ _ _ _ (by simp only [List.length_take, List.length_drop]; omega), ih (by omega)]
        simp only [List.length_take, List.length_drop]
        by_cases h : (addr / 64 + k) * 64 ≤ a ∧ a < (addr / 64 + k) * 64 +
            min (min (64 - (addr / 64 + k) * 64 % 64) (bytes.length - ((addr / 64 + k) * 64 - addr)))
              (bytes.length - ((addr / 64 + k) * 64 - addr))
        · rw [if_pos h, if_pos (by omega), listGet_take_drop _ _ _ _ (by omega)]
          congr 1; omega
        · rw [if_neg h]
          by_cases g : addr ≤ a ∧ a < addr + bytes.length ∧ a < (addr / 64 + k) * 64
          · rw [if_pos g, if_pos (by omega)]
          · rw [if_neg g, if_neg (by omega)]
  have := up n le_rfl
  unfold iter
  refine this.trans ?_
  have hn : n = (addr % 64 + bytes.length + 63) / 64 := rfl
  by_cases h : addr ≤ a ∧ a < addr + bytes.length
  · rw [if_pos h, if_pos (by omega)]
  · rw [if_neg h, if_neg (by omega)]

/-! Bytes of numbers, and the commit of a cue to a ring. -/

theorem bytesOf_get (n x i : Nat) (h : i < n) : listGet 0 (bytesOf n x) i = BitVec.ofNat 8 (x >>> (8 * i)) := by
  unfold bytesOf listGet
  rw [List.getElem?_map, List.getElem?_range h]; rfl

@[simp] theorem length_bytesOf (n x : Nat) : (bytesOf n x).length = n := by unfold bytesOf; simp

theorem Only.leaveIdle {fs : List Field} {rs : List Nat} {s t : State} (h : Only fs rs s t) (m : R.pwrStatus ∈ rs) :
    Only fs rs s t.leaveIdle := by
  unfold State.leaveIdle; split
  · exact h.setF m
  · exact h

/-- A commit writes the 128 bytes of the cue at ring position TAIL, which rises by one (R282). -/
theorem State.commit_spec (s : State) (l : Line) (c : Cue) :
    (s.commit l c).line l = { s.line l with tail := (s.line l).tail + 1 } ∧
    (∀ k, k ≠ l → (s.commit l c).line k = s.line k) ∧ Only [.lines, .mem, .prop] [R.pwrStatus] s (s.commit l c) ∧
    ∀ a, (s.commit l c).mem.read a = (let at_ := s.ringAddr l (s.line l).tail
      if at_ ≤ a ∧ a < at_ + 128 then BitVec.ofNat 8 (fieldN c (8 * (a - at_)) 8) else s.mem.read a) := by
  unfold State.commit State.updLine
  have kk := State.only_land s.leaveIdle (s.ringAddr l (s.line l).tail) (bytesOf 128 c.toNat)
    (by unfold State.ringAddr; dsimp only; omega) (by rw [length_bytesOf])
  dsimp only
  generalize ht : s.leaveIdle.land (s.ringAddr l (s.line l).tail) (bytesOf 128 c.toNat) false = t at *
  have hl : t.lines = s.lines := (kk.same .lines (by decide)).trans ((kept_leaveIdle s).but.same .lines (by decide))
  have hll : ∀ k, t.line k = s.line k := fun k => by unfold State.line; rw [hl]
  refine ⟨by rw [State.line_setLine_self, hll], fun k hk => by rw [State.line_setLine_ne _ _ hk, hll], ?_, fun a => ?_⟩
  · exact (((Only.refl _ _ _).leaveIdle (by simp)).kept kk (by decide) (by decide)).kept (kept_setLine ..).but (by decide)
      (by decide)
  · show t.mem.read a = _
    rw [← ht, State.read_land, length_bytesOf]
    split
    · rw [bytesOf_get _ _ _ (by omega)]
      apply BitVec.eq_of_toNat_eq
      simp [fieldN]
    · have : s.leaveIdle.mem = s.mem := (kept_leaveIdle s).but.same .mem (by decide)
      rw [this]

end Sys2Proof.Machine
end

