-- ==== Sys2Proof/WellFormed.lean ====
section
/-! DEFINITION. Which commands are well formed: the shapes their operands must have to stand for an access or a
message that the spec describes (R459 to R461, R394, R422). -/

namespace Sys2Proof

/-- A command whose operands have the shape of the access or message it names. -/
def Instr.wf : Instr → Bool
  | .registerWrite off _ => off.toNat % 4 == 0
  | .rcRegisterRead off => off.toNat % 4 == 0
  | .loRegisterRead off => off.toNat % 4 == 0
  | .snapshotRead off => off.toNat % 4 == 0
  | .repWrite off _ => off.toNat % 4 == 0
  | .scrubRead _ upset => upset.all fun p => decide (p.1 < 67)
  | .post _ _ counter _ _ => decide (counter.toNat < 64)
  | .accumulate _ _ _ _ _ count _ _ data => decide (1 ≤ count.toNat ∧ count.toNat ≤ 64 ∧ data.length = 64)
  | .write _ _ _ data => decide (1 ≤ data.length ∧ data.length ≤ 512)
  | .read _ _ _ count => decide (1 ≤ count.toNat ∧ count.toNat ≤ 512)
  | .readData _ _ _ data => decide (data.length ≤ 512)
  | _ => true

end Sys2Proof
end

