-- ==== Sys2Proof/Tests/Slice0.lean ====
section
/-! SUPPORT. Tests: a witness for the hypotheses of every statement, refusals of the shape checks, and single steps whose results the rules give. -/

set_option Elab.async false

open Sys2Proof Sys2Proof.Machine

namespace Sys2Proof.Tests

/-- The core up and READY, out of reset. -/
def up : State := { State.reset with phase := .up, regs := [(R.ctlStatus, 1)] }
/-- The same inside a session with key 5. -/
def inSession : State := { (up.setReg R.sesStatus 1) with secret := { up.secret with key := 5, latched := true } }
/-- Line F enabled, a prompt book loaded. -/
def lineOn : State := (up.setReg R.pbkStatus 0).setLine .f { LineSt.reset with enabled := true }
/-- Line F halted. -/
def halted : State := up.setLine .f { LineSt.reset with enabled := true, halted := true }
/-- A cue with VERSION 1, its opcode, its engine and fields given as (byte, bit, value). -/
def cueOf (op eng : Nat) (l : List (Nat × Nat × Nat)) : Cue :=
  BitVec.ofNat 1024 (1 + 2 ^ 18 * eng + 2 ^ 24 * op + (l.map fun x => x.2.2 * 2 ^ (8 * x.1 + x.2.1)).foldl (· + ·) 0)
/-- A cue in flight from line F, with uid 4. -/
def inFlight (c : Cue) (st : Stage) : Flight := ⟨⟨4, .f, c, 0, 0, 0, 0, 0, 0, 0, 0⟩, st, 1, false, none, none, none⟩
/-- A cue at the head of queue `e`. -/
def atHead (s : State) (e : Nat) (c : Cue) (st : Stage) : State :=
  { s with flights := [inFlight c st], queues := [(e, [4])], nextUid := 2 }
/-- Line F with a cue that has passed steps 1 to 9. -/
def taking (s : State) (c : Cue) : State := s.setLine .f { LineSt.reset with enabled := true, taken := some c }
/-- Handle 1 with one page, descriptor 0, in frame 3. -/
def owning (s : State) (st : PageState) : State :=
  (s.setHandle 1 { Handle.none with owned := true, fixed := true, fmt := 4, pages := 1, elems := 65536 }).setPage 0
    { Page.free with state := st, handle := 1, frame := 3 }


/-! Hypotheses that can be met together. -/

theorem wit_StepRunsFront : ({ up with pending := [.irqSample, .thaw] } : State).pending = .irqSample :: [.thaw] := by decide +kernel
theorem wit_IdleTick : up.pending = [] ∧ up.phase ≠ .off ∧ up.regB R.ctlStatus 1 = false ∧
    (up.setReg R.ctlStatus 3).regB R.ctlStatus 1 = true := by decide +kernel
theorem wit_SettleQuiet : up.trig = [] ∧ up.prop.marked = [] ∧ up.fatal = false ∧ up.flights = [] := by decide +kernel
theorem wit_SafeKept : up.safe = true ∧ ({ up with pending := [.irqSample] } : State).safe = true := by decide +kernel
theorem wit_PowerPins : ({ up with phase := .off } : State).phase = .off := by decide +kernel
theorem wit_KeyPort : State.reset.phase = .powerOnReset ∧ State.reset.secret.waiting = none ∧
    ({ State.reset with secret := { State.reset.secret with waiting := some 7 } } : State).secret.waiting = some 7 ∧
    ({ up with phase := .keyWait } : State).phase = .keyWait ∧ up.phase = .up ∧
    (let s : State := { up with phase := .keyWait, timers := [(.key, 2 ^ 20)] }
     s.phase = .keyWait ∧ 2 ^ 20 ≤ s.age .key) ∧ up.age .key < 2 ^ 20 := by decide +kernel
theorem wit_BlockReset : 10 ≤ 10 ∧ up.phase = .up ∧
    (let s : State := { up with phase := .blockReset }
     s.phase = .blockReset ∧ s.secret.latched = false ∧ s.regB R.pbkStatus 12 = false ∧
     (s.setReg R.pbkStatus 0x1000).regB R.pbkStatus 12 = true) := by decide +kernel
theorem wit_TickAndTableauPins : up.phase = .up ∧ up.regB R.ctlStatus 1 = false ∧ 2 ≤ 2 ∧ up.ready = true ∧
    (up.setReg R.tabCtrl 8).regB R.tabCtrl 3 = true ∧ (up.setReg R.tabCtrl 8).ready = true ∧ 1 < 2 ∧
    (up.setReg R.ctlStatus 0).ready = false := by decide +kernel
theorem wit_Wrapper : up.phase ≠ .off ∧ (0#4 ≠ 1 ∧ 0#4 ≠ 2 ∧ 0#4 ≠ 4 ∧ 0#4 ≠ 5) ∧ (3#4 ≠ 1 ∧ 3#4 ≠ 2 ∧ 3#4 ≠ 4 ∧
    3#4 ≠ 5) := by
  decide +kernel
theorem wit_PortRefusals : State.reset.serve R.callSet = .wait ∧ (Instr.callSet 5).writesTo = some R.callSet ∧
    (up.setReg R.ctlStatus 0).serve R.callSet = .refuse ∧ (up.setReg R.ctlStatus 0).serve 0x00FFC = .ok ∧
    (Instr.rcRegisterRead 0x04010).readsFrom = some 0x04010 ∧ (up.setReg R.ctlStatus 0).serve 0x04010 = .refuse := by decide +kernel
theorem wit_Misshaped : up.portAcks = true ∧ up.portHeld = false ∧ (0x100001#21).toNat < 0x140000 ∧
    (0x0FFFFF#21).toNat < 0x100000 ∧
    0x140000 ≤ (0x140000#21).toNat := by decide +kernel
theorem wit_PlainWrite : ∃ r, regRow? (0x08000#20).toNat = some r ∧ up.serve 0x08000 = .ok ∧ up.present 0x08000 = true ∧
    actsOnWrite 0x08000 = false ∧ 0x08000 ≠ R.sesIdleTicks :=
  ⟨_, rfl, by decide +kernel, by decide +kernel, by decide +kernel, by decide +kernel⟩
theorem wit_NoRegister : up.serve 0x00FFC = .ok := by decide +kernel
theorem wit_FetcherWrites : up.serve (R.lineSplitPtr 1) = .ok ∧ up.regB (R.lineSplitCtl 1) 0 = false ∧
    (up.setReg (R.lineSplitCtl 0x21) 1).serve (R.lineSplitPtr 0x21) = .ok ∧
    (up.setReg (R.lineSplitCtl 0x21) 1).regB (R.lineSplitCtl 0x21) 0 = true ∧
    up.serve (R.lineSplitCtl 1) = .ok := by decide +kernel
theorem wit_LatchedReads : up.serve R.ctlTickLo = .ok ∧ ∀ l ∈ allLines, up.serve (R.lineCountLo l.idx) = .ok := by decide +kernel
theorem wit_ReadToClear : isRc R.trkNanCount = true ∧ up.serve R.trkNanCount = .ok ∧ R.trkNanCount % 4 = 0 ∧
    isLo R.trkNanCount = false ∧ latchLo R.trkNanCount = none := by decide +kernel
theorem wit_Snapshots : up.serve (R.propDesc 0) = .ok ∧ up.serve (R.propHnd 0) = .ok ∧
    up.serve (R.exchBkt 0) = .ok := by decide +kernel
theorem wit_IntakeBytes : lineOn.portAcks = true ∧ lineOn.portHeld = false ∧ lineOn.pstate < 2 ∧
    lineOn.intakeDenied .f = false ∧ lineOn.regB (R.lineStatus 0) 12 = false ∧ (63#16).toNat % 128 < 64 ∧
    (0#64).getLsbD 60 = false ∧ 64 ≤ (127#16).toNat % 128 := by decide +kernel
/-- Line F with a ring of 2^18 bytes and the first half of a cue in its buffer. -/
def assembling : State := (lineOn.setReg (R.lineRing 0) (0x112 : Word)).setLine .f
  { LineSt.reset with enabled := true, asmMask := BitVec.ofNat 128 (2 ^ 64 - 1) }
theorem wit_IntakeCommit : 64 ≤ (64#16).toNat % 128 ∧ 64 ≤ (124#16).toNat % 128 ∧ (BitVec.allOnes 64).getLsbD 60 = true ∧ assembling.portAcks = true ∧ assembling.portHeld = false ∧
    assembling.pstate < 2 ∧ assembling.intakeDenied .f = false ∧ assembling.regB (R.lineStatus 0) 12 = false ∧
    (assemble (assembling.line .f) 64 (BitVec.allOnes 64) 0).asmMask = BitVec.allOnes 128 ∧ assembling.mayCommit .f = true ∧
    (assemble (lineOn.line .f) 64 (BitVec.allOnes 64) 0).asmMask ≠ BitVec.allOnes 128 ∧
    (assembling.setReg R.rstStatus 1).mayCommit .f = false := by decide +kernel
theorem wit_IntakeDenied : up.intakeDenied .f = true ∧ lineOn.intakeDenied .f = false ∧
    (lineOn.setReg (R.lineStatus 0) 0x1000).intakeDenied .f = false ∧
    (lineOn.setReg (R.lineStatus 0) 0x1000).regB (R.lineStatus 0) 12 = true := by decide +kernel
theorem wit_HeldCommit : (let s := assembling.setLine .f { assembling.line .f with held := some 9 }
    (s.line .f).held = some 9 ∧ s.mayCommit .f = true ∧ (s.setReg R.rstStatus 1).mayCommit .f = false ∧
    s.age (.hold .f) < 2 ^ 20 ∧ 2 ^ 20 ≤ ({ s with timers := [(.hold .f, 2 ^ 20)] } : State).age (.hold .f)) := by decide +kernel
theorem wit_HostHalt : lineOn.serve (R.lineCtrl 0) = .ok ∧ (lineOn.line .f).enabled = true ∧
    (lineOn.line .f).resetting = false ∧
    (lineOn.line .f).halted = false ∧ (halted.line .f).halted = true ∧ halted.serve (R.lineCtrl 0) = .ok ∧
    (up.line .m).enabled = false := by decide +kernel
theorem wit_LineResume : halted.serve (R.lineCtrl 0) = .ok ∧ (halted.line .f).halted = true ∧
    (halted.line .f).resetting = false ∧
    halted.fatal = false ∧ (lineOn.line .f).halted = false ∧
    (let s := lineOn.setLine .f { LineSt.reset with enabled := true, tail := 1, skip := true }
     (s.repUpset []).boardUpset [] = s ∧ s.mayDispatch = true ∧ s.takeHeads.choose = some (.f, 1) ∧ (s.line .f).skip = true ∧
     (s.line .f).routine = none) := by decide +kernel
theorem wit_LineReset : lineOn.serve (R.lineCtrl 0) = .ok ∧ (lineOn.line .f).enabled = true ∧ (up.line .f).enabled = false ∧
    (let s := lineOn.setLine .f { lineOn.line .f with resetting := true }
     (s.line .f).resetting = true ∧ s.softBusy = false ∧ s.flights = []) := by decide +kernel
theorem wit_SplitMode : up.serve R.lineMode = .ok ∧ (0#32).getLsbD 0 = up.regB R.lineMode 0 ∧
    (1#32).getLsbD 0 ≠ up.regB R.lineMode 0 ∧ up.hostTouch.splitMayChange = true ∧
    (atHead up 1 (cueOf 0x10 1 []) .queued).hostTouch.splitMayChange = false ∧
    (atHead up 1 (cueOf 0x10 1 []) .queued).flights ≠ [] := by decide +kernel
theorem wit_RepertoireWrite : inSession.serve 0x80000 = .ok ∧ inSession.session = true ∧ 0 < inSession.build.repBytes ∧
    0x3FFFC < inSession.build.repBytes ∧ (∀ l ∈ allLines, (inSession.line l).routine = none) ∧ up.session = false ∧
    ((inSession.setLine .u { LineSt.reset with routine := some ⟨0, 1, 0, [], [], none, 6⟩ }).line .u).routine ≠ none := by decide +kernel
theorem wit_LineRing : up.serve (R.lineRing 0) = .ok ∧ up.hostTouch.ringRefused .f 18 true 16383 = none ∧
    up.hostTouch.ringRefused .f 24 true 0 = none ∧
    (up.line .f).enabled = false ∧ up.hostTouch.ringRefused .f 17 true 0 = some 3 ∧
    up.hostTouch.ringRefused .f 25 true 0 = some 3 ∧ up.hostTouch.ringRefused .f 18 true 16384 = some 3 ∧
    (lineOn.setReg (R.lineRing 0) 0x112).hostTouch.ringRefused .f 18 true 0 = none ∧
    (lineOn.setReg (R.lineRing 0) 0x112).hostTouch.ringRefused .f 18 false 0 = none ∧
    up.hostTouch.ringRefused .f 18 false 0 = none ∧ (up.line .f).ringAt = [] ∧ up.prop.busy = false ∧
    ((up.setLine .f { LineSt.reset with ringAt := [0x112] }).line .f).ringAt ≠ [] ∧
    (let s : State := { up with prop := { up.prop with busy := true } }
     s.prop.busy = true ∧ (s.line .f).enabled = false ∧ s.hostTouch.ringRefused .f 18 true 0 = none) := by decide +kernel
theorem wit_Sessions : up.serve (R.sesNonce 0) = .ok ∧ inSession.serve (R.sesNonce 0) = .ok ∧
    inSession.secret.latched = true ∧
    inSession.locked = false ∧ up.secret.latched = false ∧ up.serve (R.sesProof 7) = .ok ∧ up.proofBusy = false ∧
    up.serve R.sesClose = .ok ∧ inSession.session = true := by decide +kernel
/-- A check in progress: SES_STATUS.BUSY. -/
def proving (status : Word) (good : Bool) : State :=
  { (inSession.setReg R.sesStatus status) with secret := { inSession.secret with good := good } }
theorem wit_ProofOutcome : (proving 0x20 true).proofBusy = true ∧ (proving 0x20 true).secret.key ≠ 0 ∧
    (proving 0x20 true).locked = false ∧ (proving 0x20 true).secret.good = true ∧
    (proving 0x20 false).regF R.sesStatus 2 2 < 2 ∧
    (proving 0x28 false).proofBusy = true ∧ (proving 0x28 false).regF R.sesStatus 2 2 = 2 ∧
    (proving 0x28 false).locked = false ∧
    (proving 0x32 false).locked = true := by decide +kernel
theorem wit_SessionEnds : (proving 2 false).locked = true ∧ (proving 2 false).reg R.sesLockTicks = 0 ∧
    ((proving 2 false).setReg R.sesLockTicks 1).reg R.sesLockTicks ≠ 0 ∧ up.locked = false ∧
    (let s := inSession.setReg R.sesIdleTicks 0xFFFFFFFF
     s.session = true ∧ s.reg R.sesIdleTicks = 0xFFFFFFFF) ∧ inSession.reg R.sesIdleTicks ≠ 0xFFFFFFFF := by decide +kernel

theorem wit_Tableau : up.serve R.tabCmd = .ok ∧
    (let s : State := { up with trig := [⟨2, 0, 0, false⟩, ⟨1, 0, 0, false⟩] }
     s.trig ≠ [] ∧ s.regB R.tabStatus 0 = false ∧ (s.setReg R.tabStatus 1).regB R.tabStatus 0 = true) ∧
    (up.phase = .up ∧ up.pstate ≤ 2) ∧ up.regB R.tabCtrl 2 = true ∧ (up.setReg R.tabCtrl 0).regB R.tabCtrl 2 = false ∧
    (atHead up 0x22 (cueOf 0x71 0x22 []) .queued).startable 0x22 = some (inFlight (cueOf 0x71 0x22 []) .queued) ∧
    up.startable 0x22 = none := by decide +kernel
/-- Line `l` with a cue that has passed steps 1 to 9. -/
def takingOn (s : State) (l : Line) (c : Cue) (ls : List LoopLevel) : State :=
  s.setLine l { LineSt.reset with enabled := true, taken := some c, loops := ls }
theorem wit_PrompterOrder : (taking up (cueOf 0 0 [])).choose = some (.f, 1) ∧ up.choose = none ∧
    (takingOn (up.setReg R.lineWeavePtr 31) .m (cueOf 0 0 []) []).choose = some (.m, 0) ∧
    (taking up (cueOf 0 0 [])).turnOf .f = .go (cueOf 0 0 []) ∧ State.reset.mayDispatch = false ∧ up.mayDispatch = true ∧
    up.takeHeads.choose = none ∧
    (let s := up.setLine .u { LineSt.reset with enabled := true, routine := some ⟨0, 1, 0, [], [], none, 6⟩ }
     s.mayDispatch = true ∧ s.takeHeads.choose = some (.u, 3) ∧ s.takeHeads.turnOf .u = .fail .badVersion false 0) := by
  decide +kernel
theorem wit_PlainCues : ∀ op ∈ [0, 1, 5, 8], (taking up (cueOf op 0 [])).turnIs .f 1 (cueOf op 0 []) ∧
    (cueOf op 0 []).opcode = op := by
  unfold State.turnIs; decide +kernel
theorem wit_LoopCues :
    (let c := cueOf 2 0 [(41, 0, 3)]
     (taking up c).turnIs .f 1 c ∧ c.opcode = 2 ∧ (taking up c).reg (R.lineLoop 0 c.loopReg) = 0 ∧
     (taking (up.setReg (R.lineLoop 0 0) 2) c).turnIs .f 1 c ∧
     (taking (up.setReg (R.lineLoop 0 0) 2) c).reg (R.lineLoop 0 c.loopReg) ≠ 0) ∧
    (let c := cueOf 3 0 []
     let s := takingOn up .f c [⟨0, 3, 2, 0⟩]
     s.turnIs .f 1 c ∧ c.opcode = 3 ∧ (s.lineCtx .f).skipEnd = none ∧ (s.lineCtx .f).loops = ⟨0, 3, 2, 0⟩ :: [] ∧
     (let t := s.setLine .f { s.line .f with skipEnd := some 5 }
      t.turnIs .f 1 c ∧ (t.lineCtx .f).skipEnd ≠ none)) := by
  unfold State.turnIs; decide +kernel
/-- A repertoire store with routine 5, one cue long, for line U. -/
def withRoutine : State := { up with rep := [(0, 0x305), (1, 0x10008)] }
theorem wit_HaltAndCall :
    (taking up (cueOf 7 0 [])).turnIs .f 1 (cueOf 7 0 []) ∧ (cueOf 7 0 []).opcode = 7 ∧
    (let c := cueOf 4 0 [(40, 0, 5)]
     (takingOn withRoutine .u c []).turnIs .u 3 c ∧ c.opcode = 4 ∧
     (takingOn withRoutine .u c []).routineEntry c.routineId = some (8, 1, true, false) ∧ c.isOpt = false) ∧
    (cueOf 4 0 [(40, 0, 1)]).isOpt = true ∧ (cueOf 4 0 [(40, 0, 2)]).isOpt = true := by
  unfold State.turnIs; decide +kernel
/-- Curtain call 0 of line F: CFG with EN, ROOT and no child, and the same with one child and not the root. -/
def curtainOn (cfg : Word) : State := taking (up.setReg (R.callCcCfg 0) cfg) (cueOf 0x70 0 [])
theorem wit_CurtainCall : (cueOf 0x70 0 []).opcode = 0x70 ∧ (curtainOn 9).turnIs .f 1 (cueOf 0x70 0 []) ∧
    ((curtainOn 9).takeHeads.curtainCheck .f (cueOf 0x70 0 [])).1 = .inr none ∧ ((curtainOn 9).tree 0).sent = false ∧
    ((curtainOn 9).tree 0).kids.length = (curtainOn 9).ccKids 0 ∧ (curtainOn 9).ccRoot 0 = true := by
  unfold State.turnIs; decide +kernel
theorem wit_CurtainCall_child : (curtainOn 17).turnIs .f 1 (cueOf 0x70 0 []) ∧
    ((curtainOn 17).takeHeads.curtainCheck .f (cueOf 0x70 0 [])).1 = .inr none ∧
    ((curtainOn 17).tree 0).kids.length ≠ (curtainOn 17).ccKids 0 ∧ (curtainOn 1).turnIs .f 1 (cueOf 0x70 0 []) ∧
    (curtainOn 1).ccRoot 0 = false ∧ ((curtainOn 1).tree 0).kids.length = (curtainOn 1).ccKids 0 := by
  unfold State.turnIs; decide +kernel
theorem wit_CurtainCall_invalid : (curtainOn 0).turnIs .f 1 (cueOf 0x70 0 []) ∧
    ((curtainOn 0).takeHeads.curtainCheck .f (cueOf 0x70 0 [])).1 = .inl .curtainInvalid ∧ (curtainOn 0).ccEn 0 = false ∧
    (curtainOn 3).ccLine 0 ≠ 0 ∧ 16 < (curtainOn 0x119).ccKids 0 := by
  unfold State.turnIs; decide +kernel
theorem wit_EngineCue : ((taking up (cueOf 0x60 0x21 [])).repUpset []).boardUpset [] = taking up (cueOf 0x60 0x21 []) ∧
    (taking up (cueOf 0x60 0x21 [])).turnIs .f 1 (cueOf 0x60 0x21 []) ∧
    (cueOf 0x60 0x21 []).opcode ∉ [0, 1, 2, 3, 4, 5, 7, 8, 0x70] ∧
    (taking up (cueOf 0x60 0x21 [])).claimFits .f (cueOf 0x60 0x21 []) := by
  refine ⟨rfl, by unfold State.turnIs; decide +kernel, by decide +kernel, fun q _ _ h => ?_⟩
  have e : ((taking up (cueOf 0x60 0x21 [])).cueQueues .f (cueOf 0x60 0x21 [])).filter (fun e => decide (8 ≤ e) && decide (e < 16)) = [] := by
    decide +kernel
  have r : isRed (cueOf 0x60 0x21 []).opcode = false := by decide +kernel
  simp [e, State.claimOk, h, r]
/-- Split list 1 of line F with a cue it has taken. -/
def splitOn (c : Cue) : State :=
  ((((up.setReg R.lineMode 1).setReg (R.lineSplitCtl 1) 1).setReg (R.lineSplitLim 1) 4).setLine .f
    { LineSt.reset with enabled := true, tail := 4 }).setFetcher 1 { Fetcher.init with taken := some c }
theorem wit_FetcherTurn : up.fetcherOn 1 = false ∧
    (∀ op ∈ [0, 1, 8], (splitOn (cueOf op 0 [])).fetcherOn 1 = true ∧
      ((splitOn (cueOf op 0 [])).fetcherFind 1).1 = .go (cueOf op 0 [])) ∧
    (let c := cueOf 0x10 1 []
     ((splitOn c).fetcherFind 1).1 = .go c ∧ c.opcode ∉ [0, 1, 2, 3, 5, 7, 8]) ∧
    (let c := cueOf 0 0 [(8, 0, 0x1001)]
     (splitOn c).fetcherOn 1 = true ∧ ((splitOn c).fetcherFind 1).1 = .waits c) ∧
    (let s := (splitOn 0).setFetcher 1 Fetcher.init
     s.fetcherOn 1 = true ∧ (s.fetcherFind 1).1 = .fail .localAddr true 0) := by decide +kernel

/-! Array, chorus, reduction units. -/

/-- A fill of one by one I8 elements by bank 0 in APART, with drain mode `d`. -/
def fillCue (d : Nat) : Cue := cueOf 0x10 1 [(40, 0, 0x44), (40, 11, d), (44, 0, 1), (48, 0, 0x10001), (52, 0, 1), (60, 8, 1)]
def tileOne : WTile := ⟨4, 0, 0, 1, [3], [], []⟩
/-- Its row and its tile present. -/
def fillReady (d : Nat) : State := { (atHead up 1 (fillCue d) .queued) with
  arr := { Arr.reset with mode := 2, allow := 1, feeds := [(0, [⟨4, 0, 0, [2], [], []⟩])], halves := [(0, .ready tileOne)] } }
theorem wit_ArrayFill : ((fillReady 0).feedParity []).holdParity [] = fillReady 0 ∧ (fillReady 0).enginesRun = true ∧ (fillReady 0).startable (0 + 1) = some (inFlight (fillCue 0) .queued) ∧ (fillCue 0).opcode = 0x10 ∧
    leastCode ((fillReady 0).fillChecks 0 (fillCue 0)) = none ∧
    (∀ a ∈ (fillReady 0).fillArrays 0 (fillCue 0), fillRows (fillCue 0) ≤ ((fillReady 0).feed a).length) ∧
    ((fillReady 0).fillTiles 0 (fillCue 0)).map (·.1) = some [tileOne] ∧ operandsAgree (fillCue 0) [⟨4, 0, 0, [2], [], []⟩] [tileOne] = true ∧
    usesHold (fillCue 0).afDrain = false ∧ emits (fillCue 0).afDrain = true ∧
    (fillReady 0).rampOk ((fillReady 0).toWake (((fillReady 0).fillArrays 0 (fillCue 0)).map (fillReady 0).banksOf).flatten).length = true ∧
    (fillReady 0).regB R.pwrStatus 7 = false := by decide +kernel
theorem wit_ArrayFill_hold : leastCode ((fillReady 2).fillChecks 0 (fillCue 2)) = none ∧ (fillCue 2).afDrain = 2 ∧
    emits (fillCue 2).afDrain = false ∧ holdNeeded (fillCue 2).afDrain = false ∧
    leastCode ((fillReady 6).fillChecks 0 (fillCue 6)) = some .arrField ∧
    (let s := { fillReady 0 with arr := { (fillReady 0).arr with feeds := [] } }
     leastCode (s.fillChecks 0 (fillCue 0)) = none ∧ ∃ a ∈ s.fillArrays 0 (fillCue 0), (s.feed a).length < fillRows (fillCue 0)) ∧
    (let s := { fillReady 0 with arr := { (fillReady 0).arr with halves := [] } }
     (s.fillTiles 0 (fillCue 0)).isNone = true ∧ leastCode (s.fillChecks 0 (fillCue 0)) = none) := by
  decide +kernel
theorem wit_ArrayControl :
    (let c := cueOf 0x11 1 [(40, 0, 1)]
     (atHead up 1 c .queued).startable 1 = some (inFlight c .queued) ∧ c.opcode = 0x11) ∧
    (let c := cueOf 0x12 1 [(40, 0, 3)]
     (atHead up 1 c .queued).startable 1 = some (inFlight c .queued) ∧ c.opcode = 0x12 ∧ configBad c = true) ∧
    (let c := cueOf 0x12 1 [(40, 0, 2)]
     (atHead up 1 c .queued).startable 1 = some (inFlight c .queued) ∧ c.opcode = 0x12 ∧ configBad c = false ∧
     (atHead up 1 c .queued).arrEmpty = true ∧ (fillReady 0).arrEmpty = false) := by decide +kernel
/-- A tile at the drain edge of queue 0. -/
def tqTile : TqTile := ⟨.f, 7, 4, 0, 0, 0, 1, false, 0, [[1]], [], 0, none⟩
theorem wit_ArrayMoves : (fillReady 0).enginesRun = true ∧ NMap.get 0 (fillReady 0).arr.useAt 0 = 0 ∧
    (fillReady 0).preloadKey 0 = some 0 ∧ up.preloadKey 0 = some 0 ∧
    ({ fillReady 0 with arr := { (fillReady 0).arr with shadow := [(0, [(0, ⟨tileOne, true⟩)])] } } : State).preloadKey 0 = none ∧
    (fillReady 0).half (halfIdx 0 0) = .ready tileOne ∧
    (let s : State := { up with arr := { Arr.reset with drain := [(1, tqTile), (0, tqTile)], awake := [3] } }
     s.arr.drain = [(1, tqTile)] ++ (0, tqTile) :: [] ∧ (∀ d ∈ [(1, tqTile)], d.1 ≠ 0) ∧
     s.freeSlots 0 = 0 :: (List.range 63).map (· + 1) ∧ 3 ∈ s.arr.awake ∧ (∀ x ∈ s.arr.inFlight, 3 ∉ x.banks) ∧
     s.arr.slept < s.regF R.pwrRamp 0 6 ∧ 4 ∉ s.arr.awake ∧
     ({ s with arr := { s.arr with tq := (List.range 64).map (·, tqTile) } } : State).freeSlots 0 = []) := by decide +kernel

/-- A unit of the chorus with a one-word program in slot 0, and a cue at the head of its queue. -/
def unitWith (c : Cue) (st : Stage) (run : Option URun) : State :=
  { (atHead up 8 c st) with cho := [(0, { ChoUnit.init with progs := [(0, [1])], run := run })], gangs := if run.isSome then [(4, ⟨[], []⟩)] else [] }
/-- CHO_RUN of one row and column with output 0 to fly engine 16. -/
def runCue : Cue := cueOf 0x20 8 [(44, 0, 1), (48, 0, 1), (92, 0, 1 + 16 * 32)]
/-- The run of cue 4 with no row taken. -/
def run0 : URun := ⟨4, 0, 0, 0, 0, none, [], []⟩
theorem wit_ChorusRun : (unitWith runCue .queued none).enginesRun = true ∧ (unitWith runCue .queued none).unitHead 0 = some (inFlight runCue .queued) ∧
    (inFlight runCue .queued).opcode = 0x20 ∧ feedsRed runCue = false ∧ (unitWith runCue .queued none).gangRun 4 = none ∧
    runCue.firstUnit = 0 ∧ leastCode ((unitWith runCue .queued none).runChecks .f runCue) = none ∧
    ((unitWith runCue .queued none).openGang 0 (inFlight runCue .queued) ((unitWith runCue .queued none).runChecks .f runCue)).isSome = true ∧
    leastCode (({ (unitWith runCue .queued none) with cho := [] } : State).runChecks .f runCue) = some .choField ∧
    (1 : Nat) ≠ runCue.firstUnit := by decide +kernel
theorem wit_ChorusRow : (unitWith runCue .started (some run0)).flight 4 = some (inFlight runCue .started) ∧
    (unitWith runCue .started (some run0)).runOf 0 4 = some run0 ∧
    (unitWith runCue .started (some run0)).rowsDone 0 (inFlight runCue .started) run0 = false ∧
    (match (unitWith runCue .started (some run0)).rowIn 0 (inFlight runCue .started) run0 with
      | some (.inl x) => x.r == 0 | _ => false) = true ∧
    ((unitWith runCue .started (some run0)).runRow 0 4).isSome = true ∧ oDest (runCue.output 92) = 1 ∧
    oDest (runCue.output 94) = 0 := by
  decide +kernel
def oneFill : FillInfo := ⟨.f, 7, 1, 1, false, 1, 0, none⟩
/-- A run over tiles with tag 7, a fill with that tag and its tile in slot 5. -/
def tileCue (cols : Nat) : Cue := cueOf 0x20 8 [(40, 16, 7), (44, 0, 1), (48, 0, cols), (60, 0, 1 + 6 * 128)]
def tiled (cols : Nat) : State := { unitWith (tileCue cols) .started (some run0) with
  arr := { Arr.reset with tq := [(5, tqTile)], fills := [(0, oneFill)] } }
theorem wit_TileClaims : (tiled 1).unitHead 0 = some (inFlight (tileCue 1) .started) ∧ (tiled 1).runOf 0 4 = some run0 ∧
    (tileCue 1).usesTiles = true ∧ run0.slot = none ∧
    (tiled 1).gangRun 4 = some ⟨[], []⟩ ∧ (tiled 1).fillAt (inFlight (tileCue 1) .started) ⟨[], []⟩ 0 = some (false, 0, oneFill) ∧
    (tiled 1).fillFits (tileCue 1) ⟨[], []⟩ oneFill = true ∧
    ((tiled 1).arr.tq.find? fun t => t.2.fill == 0 && t.2.arr == 0 && t.2.first == 0) = some (5, tqTile) ∧
    (tiled 2).fillFits (tileCue 2) ⟨[], []⟩ oneFill = false ∧
    (let r : URun := { run0 with slot := some 5 }
     (unitWith (tileCue 1) .started (some r)).runOf 0 4 = some r ∧ r.slot ≠ none) := by decide +kernel
theorem wit_ChorusSetup :
    (let c := cueOf 0x21 8 [(44, 8, 1), (44, 16, 1)]
     let s := unitWith c .started none
     s.unitHead 0 = some (inFlight c .started) ∧ (inFlight c .started).opcode = 0x21 ∧
     (s.readPlain 8 c.cpAddr (8 * c.cpWords)).1.2 = false ∧ wordOk 0 0 = true ∧ wordOk 0 0x3F = false ∧ c.cpWords = 1 ∧
     (let t : State := { s with mem := { s.mem with flaws := [(0, [(0, 1), (1, 1)])] } }
      (t.readPlain 8 c.cpAddr (8 * c.cpWords)).1.2 = true) ∧ (1 : Nat) ≠ c.firstUnit) ∧
    (let c := cueOf 0x22 8 [(40, 0, 1)]
     (unitWith c .queued none).unitHead 0 = some (inFlight c .queued) ∧ (inFlight c .queued).opcode = 0x22 ∧
     portsBad (configPorts c) = false ∧ lowBit c.ccfMask = some 0 ∧ c.ccfMask.testBit 0 = true) ∧
    (let c := cueOf 0x22 8 [(40, 0, 1), (44, 0, 500), (44, 16, 100)]
     (unitWith c .queued none).unitHead 0 = some (inFlight c .queued) ∧ portsBad (configPorts c) = true) ∧
    (let c := cueOf 0x23 8 []
     (unitWith c .queued none).unitHead 0 = some (inFlight c .queued) ∧
     (inFlight c .queued).opcode = 0x23) := by decide +kernel
/-- A run that feeds the reduction unit, and the RED_ROW behind it. -/
def feedCue : Cue := cueOf 0x20 8 [(44, 0, 1), (48, 0, 1), (92, 0, 3)]
def redCue (op : Nat) : Cue := cueOf op 8 [(40, 9, if op = 0x32 then 1 else 0), (44, 0, 1), (48, 0, 1)]
def second (c : Cue) : Flight := ⟨⟨8, .f, c, 0, 0, 0, 0, 0, 0, 0, 0⟩, .queued, 1, false, none, none, none⟩
def pairOf (op : Nat) : State := { unitWith feedCue .queued none with
  flights := [inFlight feedCue .queued, second (redCue op)], queues := [(8, [4, 8])] }
theorem wit_ReductionPairs : feedsRed feedCue = true ∧ ∀ op ∈ [0x30, 0x31, 0x32],
    (pairOf op).unitHead 0 = some (inFlight feedCue .queued) ∧
    (pairOf op).claimantNow 0 (inFlight feedCue .queued) = some (second (redCue op)) ∧
    (second (redCue op)).opcode = op ∧ feedCue.firstUnit = 0 ∧ leastCode ((pairOf op).runChecks .f feedCue) = none ∧
    leastCode ((pairOf op).claimantChecks .f (redCue op) feedCue) = none ∧
    ((pairOf op).openGang 0 (inFlight feedCue .queued) []).isSome = true ∧
    (unitWith (redCue op) .queued none).unitHead 0 = some (inFlight (redCue op) .queued) ∧ feedsRed (redCue op) = false ∧
    (inFlight runCue .queued).opcode ≠ op := by decide +kernel
/-- A kernel of one row over streams of zeros in the stage buffer, with output 0 to fly engine 16. -/
def krnCue (op : Nat) : Cue := cueOf op 8 ([(40, 9, 3), (44, 0, 1), (48, 0, 1), (56, 0, 1 + 16 * 32)] ++
  (List.range (krnStreams op)).map fun i => (64 + 8 * i, 0, 3 + 6 * 128))
theorem wit_Kernels : ∀ op ∈ [0x38, 0x39, 0x3A, 0x3B, 0x3C, 0x3D],
    (unitWith (krnCue op) .queued none).unitHead 0 = some (inFlight (krnCue op) .queued) ∧
    (inFlight (krnCue op) .queued).opcode = op ∧
    (krnCue op).firstUnit = 0 ∧ leastCode ((unitWith (krnCue op) .queued none).krnChecks .f (krnCue op)) = none ∧
    ((unitWith (krnCue op) .queued none).openGang 0 (inFlight (krnCue op) .queued) []).isSome = true ∧
    leastCode ((unitWith (cueOf op 8 []) .queued none).krnChecks .f (cueOf op 8 [])) ≠ none := by decide +kernel
theorem wit_UnitRows : (let c := krnCue 0x3A
    let s := unitWith c .started (some run0)
    s.flight 4 = some (inFlight c .started) ∧ s.runOf 0 4 = some run0 ∧ s.rowsDone 0 (inFlight c .started) run0 = false ∧
    (match s.rowIn 0 (inFlight c .started) run0 with | some (.inl x) => x.r == 0 | _ => false) = true) ∧
    (second (redCue 0x30)).opcode = 0x30 ∧ feedCue.outputs.all (fun o => oDest o != 1) = true ∧
    (let s := { pairOf 0x30 with cho := (unitWith feedCue .started (some run0)).cho }
     s.flight 8 = some (second (redCue 0x30)) ∧ s.runOf 0 4 = some run0) := by decide +kernel

/-! Fly engines, landing, property, paging. -/

/-- One element of the fill value 0 to the stage buffer of unit 0, its walk of rank 1 at address 0. -/
def moveCue : Cue := cueOf 0x40 16 [(40, 4, 7), (40, 8, 6)]
def armReady : State := let s := (owning (atHead up 16 moveCue .queued) .owned).setPage 0 { Page.free with state := .owned, handle := 1 }
  { s with mem := { s.mem with cells := [(0, 1), (1, 1), (4, 1)] } }
def oneWalk : Walk := ⟨1, [1, 1, 1, 1, 1], [0, 0, 0, 0, 0], [0, 0, 0, 0, 0]⟩
theorem wit_FlyArm : armReady.tableUpset 0 unitMemory 0 0 = armReady ∧ (armReady.flyEng 0).armed = none ∧ armReady.startable 16 = some (inFlight moveCue .queued) ∧
    moveCue.fWalk % 64 = 0 ∧ armReady.localRangeOk moveCue.fWalk 64 = true ∧ (armReady.readPlain 16 0 64).1.2 = false ∧
    parseWalk (armReady.readPlain 16 0 64).1.1 = .inr oneWalk ∧
    leastCode ((armReady.readPlain 16 0 64).2.armChecks moveCue oneWalk) = none ∧
    (cueOf 0x40 16 [(60, 0, 4)]).fWalk % 64 ≠ 0 ∧
    parseWalk ((atHead up 16 moveCue .queued).readPlain 16 0 64).1.1 = .inl .badVersion ∧
    leastCode (armReady.armChecks (cueOf 0x40 16 []) oneWalk) = some .flyField := by decide +kernel
/-- The same transfer armed, or active. -/
def xfer : Xfer := ⟨4, 1, [1, 1, 1, 1, 1], [0, 0, 0, 0, 0], [0, 0, 0, 0, 0], 6, 6, 1, none, false, 0, 0, 0, 0, 0, [], [], [], 0, 0, [], [], [], none, false, []⟩
def flying (c : Cue) (x : FlyEng) : State := { up with flights := [inFlight c .started], fly := [(0, x)] }
theorem wit_FlyActivate : (flying moveCue ⟨none, some xfer, []⟩).flyEng 0 = ⟨none, some xfer, []⟩ ∧
    (flying moveCue ⟨none, some xfer, []⟩).flight xfer.uid = some (inFlight moveCue .started) ∧
    (flying moveCue ⟨none, some xfer, []⟩).mayStart (inFlight moveCue .started) = true ∧
    (flying moveCue ⟨none, some xfer, []⟩).destBusy (inFlight moveCue .started) = false ∧ xfer.total ≠ 0 ∧
    ({ (flying moveCue ⟨none, some xfer, []⟩) with phase := .bringUp } : State).mayStart (inFlight moveCue .started) = false ∧
    (flying moveCue ⟨some xfer, none, []⟩).flyEng 0 = ⟨some xfer, none, []⟩ ∧
    kStream (cueOf 0x40 16 [(40, 4, 6)]).fDstKind = true ∧
    (let c := cueOf 0x40 16 [(40, 4, 5)]
     let s := flying c ⟨some xfer, none, []⟩
     c.fDstKind = 5 ∧ s.half (halfIdx (s.weightQ c) (NMap.get 0 s.arr.fillAt (s.weightQ c))) = .empty ∧ s.cfgPending = false ∧
     xfer.granted = 0) ∧ moveCue.fDstKind = 7 := by
  decide +kernel
theorem wit_FlyMoves : (let s := flying moveCue ⟨some xfer, none, []⟩
    s.enginesRun = true ∧ s.softBusy = false ∧ (s.flyEng 0).active = some xfer ∧ (s.flyEng 0).drain = [] ∧
    s.earlierNear 0 xfer.uid = false ∧ s.earlierFar 0 xfer.uid = false ∧
    s.flight xfer.uid = some (inFlight moveCue .started)) ∧
    moveCue.fSrcKind = 0 ∧ moveCue.fDstKind = 7 ∧ moveCue.fGather = 0 ∧ moveCue.fAcc = false ∧ xfer.group = 1 ∧
    xfer.n < xfer.total ∧ kindFmt 7 xfer.dfmt = true := by decide +kernel
/-- Two writes of one engine to one word. -/
def writing : State := { up with mem := { up.mem with wq := [⟨4, 16, 0, [7], false⟩, ⟨8, 16, 1, [9], true⟩] } }
theorem wit_WritesLand : writing.safe = true ∧ writing.mem.wq[0]? = some ⟨4, 16, 0, [7], false⟩ ∧
    writing.writeBehind 0 ⟨4, 16, 0, [7], false⟩ = false ∧ writing.writeBehind 1 ⟨8, 16, 1, [9], true⟩ = true := by decide +kernel
theorem wit_CueCompletes : (let f := inFlight (cueOf 0x60 0x21 []) .finished
    let s : State := { up with flights := [f] }
    s.flights[0]? = some f ∧ s.enginesRun = true ∧ f.stage = .finished ∧ f.q.cue.fence = false ∧ f.silent = false ∧
    f.after = none ∧
    f.q.cue.posts = [] ∧ ¬(f.q.cue.opcode = 4 ∧ f.q.cue.isOpt = true) ∧ (inFlight 0 .started).stage ≠ .finished) := by decide +kernel
/-- A call of OPT_ADAMW over 8 elements, and the three handles that it names, of one page each. -/
def optCue : Cue := cueOf 4 0 [(40, 0, 1), (44, 0, 0x20001), (52, 0, 8), (60, 0, 3), (64, 0, 8)]
def optReady (st : PageState) : State :=
  let h (s : State) (k fmt elems : Nat) : State := (s.setHandle k { Handle.none with owned := true, fixed := true, fmt := fmt, first := k - 1, pages := 1, elems := elems }).setPage (k - 1)
    { Page.free with state := st, handle := k, frame := k - 1 }
  let s : State := { up with flights := [inFlight optCue .finished] }
  h (h (h s 1 8 8) 2 6 24) 3 4 64
theorem wit_CueCompletes_call : optCue.opcode = 4 ∧ optCue.isOpt = true ∧ leastCode (up.optChecks optCue.optCall) = some .handleInvalid ∧
    (∀ p ∈ [(PageState.owned, true), (.backstage, false)], (let s := optReady p.1
     let o := optCue.optCall
     o.count = 8 ∧ leastCode ((optReady .owned).optChecks o) = none ∧
     (s.pagesReady (s.optPages o).eraseDups).1 = p.2)) := by decide +kernel
/-- A handle of one page asked for. -/
def allocCue : Cue := cueOf 0x60 0x21 [(40, 0, 1), (40, 16, 4), (44, 0, 100)]
theorem wit_PropAlloc : (atHead up 0x21 allocCue .queued).tableUpset 0 unitMemory 0 0 = atHead up 0x21 allocCue .queued ∧ (atHead up 0x21 allocCue .queued).propHead 0x60 = some (inFlight allocCue .queued) ∧
    leastCode ((atHead up 0x21 allocCue .queued).allocChecks allocCue.allocReq) = none ∧
    (atHead up 0x21 allocCue .queued).freeRun allocCue.allocReq.pages = some 0 ∧
    (atHead up 0x21 allocCue .queued).allocFrames allocCue.allocReq = some [0] ∧
    leastCode (up.allocChecks (cueOf 0x60 0x21 []).allocReq) = some .propField := by decide +kernel
theorem wit_PropCues : (∀ l ∈ allLines, (up.line l).ringAt = []) ∧ up.softBusy = false ∧ up.prop.demand = [] ∧
    (let c := cueOf 0x61 0x21 [(40, 0, 1)]
     let s := owning (atHead up 0x21 c .queued) .owned
     s.propHead 0x61 = some (inFlight c .queued) ∧ c.propHandle = 1 ∧ s.handleOk 1 = true ∧ s.descs 1 = [0] ∧
     (s.page 0).state ≠ .locked ∧ (s.page 0).moving = false ∧ s.flyHolds 1 = false ∧
     ((owning (atHead up 0x21 c .queued) .locked).page 0).state = .locked ∧ up.handleOk 1 = false ∧
     ({ s with flights := s.flights ++ [second (cueOf 0x40 16 [(40, 0, 1), (44, 0, 1)])], fly := [(0, ⟨some { xfer with uid := 8 }, none, []⟩)] } : State).flyHolds 1 = true) ∧
    (let c := cueOf 0x65 0x21 [(40, 0, 1)]
     let s := owning (atHead up 0x21 c .queued) .owned
     s.propHeadOn 0x65 = some (inFlight c .queued) ∧ s.handleOk 1 = true ∧ c.propUnlock = false ∧
     (s.page 0).state = .owned) ∧
    (cueOf 0x65 0x21 [(40, 16, 1)]).propUnlock = true := by decide +kernel
theorem wit_PropCues_mirror :
    (let c := cueOf 0x64 0x21 [(40, 0, 1), (40, 16, 2), (44, 0, 65536), (48, 0, 1)]
     let s := (owning (atHead up 0x21 c .queued) .owned).setHandle 2 { Handle.none with owned := true, fmt := 4, pages := 1, elems := 65536 }
     s.propHead 0x64 = some (inFlight c .queued) ∧ leastCode (s.mirrorChecks c) = none ∧ c.pmUnpair = false ∧
     leastCode (up.mirrorChecks c) = some .handleInvalid) ∧
    (let c := cueOf 0x64 0x21 [(40, 0, 1), (40, 16, 2), (52, 0, 1)]
     let s := ((owning (atHead up 0x21 c .queued) .owned).setHandle 1 { Handle.none with owned := true, mrole := 1 }).setHandle 2
       { Handle.none with owned := true }
     s.propHead 0x64 = some (inFlight c .queued) ∧ leastCode (s.mirrorChecks c) = none ∧ c.pmUnpair = true ∧
     (s.handle 1).mrole = 1) := by
  decide +kernel
/-- A page cue over the one page of handle 1, a home handle. -/
def pageCue (op : Nat) : Cue := cueOf op 0x21 [(40, 0, 1), (44, 0, 1)]
def homed (op : Nat) (st : PageState) (fresh : Bool) : State := ((atHead up 0x21 (pageCue op) .queued).setHandle 1
  { Handle.none with owned := true, home := true, fmt := 4, pages := 1, elems := 65536 }).setPage 0
  { Page.free with state := st, handle := 1, fresh := fresh, frame := if st = .owned then 3 else 0 }
theorem wit_PageCues : (homed 0x62 .backstage true).propHead 0x62 = some (inFlight (pageCue 0x62) .queued) ∧
    leastCode ((homed 0x62 .backstage true).rangeChecks (pageCue 0x62)) = none ∧
    (homed 0x62 .backstage true).prop.cursor = 0 ∧
    (homed 0x62 .backstage true).prop.hints.length + (pageCue 0x62).ppCount ≤ 4096 ∧
    (homed 0x63 .owned false).propHeadOn 0x63 = some (inFlight (pageCue 0x63) .queued) ∧
    leastCode ((homed 0x63 .owned false).rangeChecks (pageCue 0x63)) = none ∧ (homed 0x63 .owned false).prop.demand = [] ∧
    (homed 0x63 .owned false).rangeDescs (pageCue 0x63) = [0] ∧ ((homed 0x63 .owned false).page 0).dirty = false ∧
    ((homed 0x63 .owned false).page 0).state = .owned ∧ leastCode (up.rangeChecks (pageCue 0x62)) = some .handleInvalid := by
  decide +kernel
theorem wit_HintedPageIn : (let s := homed 0x62 .backstage true
    let t : State := { s with prop := { s.prop with hints := [0] } }
    t.enginesRun = true ∧ t.softBusy = false ∧ t.prop.hints = 0 :: [] ∧ t.prop.demand = [] ∧ t.prop.ins.length < 8 ∧
    (t.page 0).state = .backstage ∧ (t.page 0).moving = false ∧ t.lowestFree = some 0 ∧ (t.page 0).fresh = true ∧
    ((homed 0x62 .backstage false).page 0).fresh = false ∧ ((homed 0x62 .owned false).page 0).state ≠ .backstage) := by decide +kernel
theorem wit_BackstageAnswers : (let s := homed 0x62 .backstage false
    let r : BsReq := ⟨.pageIn 0 1023, false, 0, 0⟩
    let t (n : Nat) : State := { s with prop := { s.prop with ins := [⟨0, 3, n, false⟩] }, bs := ⟨[], [(2, 255, r)]⟩ }
    ((t 1).bs.out.find? fun q => q.1 == 2 && q.2.1 == 255) = some (2, 255, r) ∧ r.use = .pageIn 0 1023 ∧
    ((t 2).prop.ins.find? fun y => y.desc == 0) = some ⟨0, 3, 2, false⟩ ∧
    ((t 1).prop.ins.find? fun y => y.desc == 0) = some ⟨0, 3, 1, false⟩ ∧
    (t 1).prop.demand = [] ∧ (t 1).frozen = false ∧ up.age (.backstage 2 255) < 2 ^ 16 ∧
    2 ^ 16 ≤ ({ t 2 with timers := [(.backstage 2 255, 2 ^ 16)] } : State).age (.backstage 2 255) ∧ (up.setReg R.tabStatus 4).frozen = true ∧
    up.bs.out = []) := by decide +kernel
theorem wit_Scrubbing : up.pstate ≠ 3 ∧ (up.setReg R.pwrStatus 3).pstate = 3 ∧ up.tick.toNat / 2 ^ 24 = up.mem.period ∧
    (let s : State := { up with tick := 0x1000000 }
     s.tick.toNat / 2 ^ 24 ≠ s.mem.period) ∧
    firstFrom (fun r => !up.frameRetired (up.wordAt 3 r / 1024)) (up.bankRows - NMap.get 0 up.mem.scrub 3) (NMap.get 0 up.mem.scrub 3) = some 0 ∧
    decodeFlaw (up.mem.flaw (up.wordAt 3 0)) = .clean ∧ decodeFlaw (addFlaw [] 5 0x10) = .fixed 5 0x10 ∧
    decodeFlaw (addFlaw (addFlaw [] 5 0x10) 6 0x10) = .uncorrectable ∧
    (let s : State := { up with mem := { up.mem with corr := [(7, true)] } }
     (s.mem.corr.find? fun c => s.bankOf c.1 == s.bankOf 7) = some (7, true)) ∧
    (let s : State := { up with mem := { up.mem with scrub := [(3, up.bankRows)] } }
     firstFrom (fun r => !s.frameRetired (s.wordAt 3 r / 1024)) (s.bankRows - NMap.get 0 s.mem.scrub 3) (NMap.get 0 s.mem.scrub 3) = none) := by
  decide +kernel
theorem wit_RetirementMove : (let s := owning up .owned
    let t : State := { (s.setPage 0 { s.page 0 with moving := true }) with prop := { (s.setPage 0 { s.page 0 with moving := true }).prop with moves := [⟨0, 3, 4⟩], marked := [3] } }
    (t.prop.moves.find? fun x => x.src == 3) = some ⟨0, 3, 4⟩ ∧ t.prop.marked.contains 3 = true ∧ t.mem.wq = [] ∧ (t.page 0).state ≠ .free ∧
    t.highestFreeDesc = some 65535) := by
  decide +kernel
theorem wit_PageCues_dirty : (let s := (homed 0x63 .owned false).setPage 0 { Page.free with state := .owned, handle := 1, frame := 3, dirty := true }
    (s.page 0).dirty = true ∧ (s.page 0).moving = false ∧ (s.page 0).poisoned = false ∧
    ((s.landFrame (s.page 0).frame).pageWords (s.page 0).frame).1.2 = false) := by
  decide +kernel

/-! Callboard, remote operations, exchange. -/

theorem wit_HostPost : up.serve R.callHostPost = .ok ∧ fieldN (64 : Word) 0 7 = 64 ∧
    fieldN (0x103F : Word) 0 7 = 63 ∧ (field (0x103F : Word) 12 20 : BitVec 20).toInt = 1 ∧ (up.cnt 63).toNat = 0 ∧
    (field (0xFFFFF000 : Word) 12 20 : BitVec 20).toInt = -1 ∧ fieldN (0xFFFFF000 : Word) 0 7 = 0 ∧
    ((up.setCnt 63 0xFFFFF).cnt 63).toNat + (field (0x103F : Word) 12 20 : BitVec 20).toInt = 0x100000 := by decide +kernel
theorem wit_CallboardControl : inSession.serve R.callSet = .ok ∧ inSession.session = true ∧ fieldN (79 : Word) 0 7 < 80 ∧
    80 ≤ fieldN (80 : Word) 0 7 ∧ up.session = false ∧ up.serve R.callSet = .ok ∧ up.serve (R.callCcCtrl 15) = .ok ∧
    (1 : Word).getLsbD 0 = true ∧ (up.tree 15).cue = none ∧ ((up.setTree 15 { CcTree.init with cue := some 4 }).tree 15).cue ≠ none := by
  decide +kernel
theorem wit_CurtainWatchdog : (let s := taking (up.setReg R.callCueWdog 5) (cueOf 0 0 [(8, 0, 0x1001)])
    s.reg R.callCueWdog ≠ 0 ∧ s.reg (R.callWdogAge 0) < s.reg R.callCueWdog ∧
    s.reg R.callCueWdog ≤ (s.setReg (R.callWdogAge 0) 5).reg (R.callWdogAge 0) ∧ (s.setReg (R.callWdogAge 0) 5).outstanding .f = true ∧ s.frozen = false ∧ s.enginesRun = true ∧ s.outstanding .f = true ∧
    (s.line .f).halted = false) ∧
    up.outstanding .f = false ∧ (up.setReg R.callCueWdog 0).reg R.callCueWdog = 0 := by decide +kernel
/-- Curtain call 0 with a configuration and a tree. -/
def treeOf (cfg : Word) (t : CcTree) : State := (up.setReg (R.callCcCfg 0) cfg).setTree 0 t
theorem wit_CurtainArrival : up.localServes = true ∧ up.ccEn 0 = false ∧
    (treeOf 0x11 CcTree.init).ccEn 0 = true ∧ (treeOf 0x11 CcTree.init).ccKids 0 = 1 ∧ (CcTree.init).kids.length = 0 ∧
    (CcTree.init).early.length = 0 ∧ (CcTree.init).seq = 0 ∧ (CcTree.init).pending = false ∧
    (treeOf 0x11 { CcTree.init with pending := true, loc := true }).localServes = true ∧
    ((treeOf 0x11 { CcTree.init with pending := true, loc := true }).tree 0).loc = true ∧
    (treeOf 0x11 CcTree.init).ccRoot 0 = false ∧
    (treeOf 0x19 CcTree.init).ccRoot 0 = true ∧ (2 : BitVec 8) ≠ (CcTree.init).seq + 1 ∧
    ((treeOf 0x11 { CcTree.init with kids := [7] }).tree 0).kids.length = 1 := by decide +kernel
theorem wit_CurtainRelease : (let s := treeOf 1 { CcTree.init with sent := true }
    s.localServes = true ∧ s.ccEn 0 = true ∧ (s.tree 0).seq = 0 ∧ (s.tree 0).sent = true ∧ (s.tree 0).cue = none ∧
    64 ∉ (⟨0, 0, []⟩ : Align).listed ∧ (s.cnt 64).toNat < 0xFFFFF ∧ ((s.setCnt 64 0xFFFFF).cnt 64) = 0xFFFFF#20) ∧
    (CcTree.init).sent = false := by decide +kernel
theorem wit_RemotePost : up.localServes = true ∧ up.postHeld 2 (isPacket 3 2 (bytesOf 2 0 ++ [63#8, 0#8] ++ bytesOf 2 1)) = false ∧
    ({ up with fab := { up.fab with localIn := [⟨0, 0, 2, [], []⟩] } } : State).postHeld 2 (isPacket 3 2 []) = true ∧
    (2 : Fin 3) ≠ 0 ∧ up.fatal = false ∧ (63#7).toNat < 64 ∧ 64 ≤ (64#7).toNat ∧
    0 ≤ ((up.cnt 63).toNat : Int) + (2047#12).toInt ∧ ((up.cnt 63).toNat : Int) + (2047#12).toInt ≤ 0xFFFFF ∧
    (up.setReg R.fltStatus 2).fatal = true ∧ (up.setReg R.fltStatus 2).localServes = true ∧
    State.reset.localServes = false := by
  decide +kernel
theorem wit_RemoteAccess : (owning up .owned).localServes = true ∧ (owning up .owned).safe = true ∧
    (owning up .owned).fatal = false ∧
    (owning up .owned).remoteRangeOk 0x30000 1 = true ∧ (owning up .owned).remoteRangeOk 0x3FFFF 1 = true ∧
    (owning up .owned).remoteRangeOk 0x3FFFF 2 = false ∧ (owning up .owned).localRangeOk 0x3FFC0 64 = true ∧
    (owning up .owned).localRangeOk 0x2FFC0 64 = false := by decide +kernel
/-- A remote operation of cue 4 with tag 9 to core 2. -/
def remOp (k : RKind) : RemoteOp := ⟨9, 2, k, 0, ⟨4, .f, cueOf 0x40 16 [], 0, 0, 0, 0, 0, 0, 0, 0⟩, none⟩
def remote (k : RKind) : State := { flying (cueOf 0x40 16 []) ⟨some xfer, none, []⟩ with fab := { up.fab with rops := [remOp k] } }
theorem wit_RemoteAnswers : (remote .write).localServes = true ∧ up.fab.rops = [] ∧
    (remote .write).fab.rops.find? (fun q => q.tag == (9#16).toNat && q.dst == 2#12 && q.waits.isNone) = some (remOp .write) ∧
    (remote .post).fab.rops.find? (fun q => q.tag == (9#16).toNat && q.dst == 2#12 && q.waits.isNone) = some (remOp .post) ∧
    (remote (.read 0 0 4)).fab.rops.find? (fun q => q.tag == (9#16).toNat && q.dst == 2#12) = some (remOp (.read 0 0 4)) ∧
    (remote (.read 0 0 4)).moverOf (remOp (.read 0 0 4)).uid = some (0, xfer) ∧ ((remote (.read 0 0 4)).flyEng 0).find 4 = some xfer ∧ 0 < xfer.group ∧
    (remote .write).flight (remOp .write).uid = some (inFlight (cueOf 0x40 16 []) .started) ∧
    (remote .write).fab.rops.find? (fun q => q.kind.isOpc (0#4).toNat && q.waits.isNone && decide (q.tag = (9#32).toNat)) = some (remOp .write) ∧
    (lineOn.line .f).enabled = true ∧ (remote .write).enginesRun = true ∧
    (remote .write).fab.rops.find? (fun q => q.kind != .post && q.tag == (9#16).toNat) = some (remOp .write) ∧
    State.reset.enginesRun = false ∧ (remote .write).age (.remote 9) < ((remote .write).reg R.fabOpTicks).toNat ∧
    ((remote .write).reg R.fabOpTicks).toNat ≤
      ({ remote .write with timers := [(.remote 9, 2 ^ 32)] } : State).age (.remote 9) := by decide +kernel
/-- A bucket of 64 elements in page 0x3, EXPECT 2, with flags, state and generation 0. -/
def entry (flags st : Nat) : BitVec 1024 :=
  BitVec.ofNat 1024 (flags + 2 ^ 32 * 0x30000 + 2 ^ 64 * 0x38000 + 2 ^ 96 * 64 + 2 ^ 128 * 2 + 2 ^ 376 * st)
def bucketed (s : State) (e : BitVec 1024) : State := { owning s .owned with exch := { s.exch with buckets := [(0, e)] } }
theorem wit_BucketSet : (let c := cueOf 0x50 0x20 [(44, 0, 0x30000)]
    let s := owning (atHead up 0x20 c .queued) .owned
    let t : State := { s with mem := { s.mem with cells := [(0x30000, 1), (0x3000C, 1), (0x30010, 1)] } }
    t.exch.run = none ∧ t.exchHead 0x50 = some (inFlight c .queued) ∧ c.xBucket < 4096 ∧ c.xRecord % 64 = 0 ∧
    t.localRangeOk c.xRecord 64 = true ∧ (t.readPlain 0x20 c.xRecord 64).1.2 = false ∧
    (let e : BitVec 1024 := BitVec.ofNat 1024 (numOf ((t.readPlain 0x20 c.xRecord 64).1.1.take 40))
     entOwned e = false ∧ entF e Ex.elems = 1 ∧ entF e Ex.expect = 1) ∧ entValid (t.bucket 0) = false ∧
    entF (t.bucket 0) Ex.arrived = 0 ∧ t.exch.ops = [] ∧ t.exch.syncs = [] ∧
    entF (BitVec.ofNat 1024 (numOf ((s.readPlain 0x20 c.xRecord 64).1.1.take 40))) Ex.elems = 0) ∧
    4096 ≤ (cueOf 0x50 0x20 [(40, 0, 4096)]).xBucket ∧ (cueOf 0x50 0x20 [(44, 0, 4)]).xRecord % 64 ≠ 0 ∧
    entValid (entry 1 1) = true ∧ entF (entry 1 1) Ex.state = 1 := by decide +kernel
/-- EXCH_SEND of `n` elements of handle 1 to bucket 0. -/
def sendCue (n close : Nat) : Cue := cueOf 0x51 0x20 [(40, 16, close), (44, 16, 1), (60, 0, n)]
def sending (c : Cue) : State := let s := bucketed (atHead up 0x20 c .queued) (entry 1 0)
  s.setHandle 1 { s.handle 1 with fmt := 6, elems := 64 }
theorem wit_SendStarts : (let c := sendCue 0 1
    let s := sending c
    s.exch.run = none ∧ s.exchHead 0x51 = some (inFlight c .queued) ∧ s.bucketOk 0 = true ∧ s.handleOk c.xSrc = true ∧
    exFmtOk (s.handle c.xSrc).fmt = true ∧ c.xSrcBase + c.xCount ≤ (s.handle c.xSrc).elems ∧ c.xDstOff % 64 = 0 ∧
    c.xDstOff + c.xCount ≤ entF (s.bucket 0) Ex.elems ∧ c.xRfirst = false ∧
    genAhead c.xGen (BitVec.ofNat 16 (entF (s.bucket 0) Ex.gen)) = 0 ∧ entRetain (s.bucket 0) = false ∧ c.xCount = 0 ∧
    c.xClose = true ∧ s.exch.serves = [] ∧ s.bucketClear 0 = true ∧ s.exch.ops.length < 16384) ∧
    (sendCue 0 0).xClose = false ∧
    up.bucketOk 0 = false ∧ genAhead 1 (BitVec.ofNat 16 (entF (entry 1 0) Ex.gen)) = 1 := by decide +kernel
theorem wit_SendGroups : leastCode ((sending (sendCue 64 0)).sendChecks (sendCue 64 0)) = none ∧
    (sendCue 64 0).xGen.toNat = (sending (sendCue 64 0)).bf 0 Ex.gen ∧ 0 < (sendCue 64 0).xCount ∧
    (sending (sendCue 64 0)).spanPages 1 0 64 = [0] ∧ ((sending (sendCue 64 0)).page 0).state = .owned ∧
    ((sending (sendCue 64 0)).page 0).moving = false ∧ (sending (sendCue 64 0)).exchHead 0x51 = some (inFlight (sendCue 64 0) .queued) := by
  decide +kernel
theorem wit_SendGroups_memory : ∀ w, ((sending (sendCue 64 0)).mem.readPure w).2.2 = .clean := by
  intro w
  have h : (sending (sendCue 64 0)).mem.flaw w = [] := rfl
  simp [Mem.readPure, h, decodeFlaw]
/-- EXCH_SETTLE of bucket 0 with FORCE, at the head of its check unit's queue too. -/
def settling (force st : Nat) : State := let c := cueOf 0x52 0x20 [(40, 19, force)]
  { bucketed (atHead (up.setReg R.exchCtrl 0x2008) 0x20 c .queued) (entry 3 st) with queues := [(8, [4]), (0x20, [4])] }
theorem wit_ExchSettle : (settling 0 1).exch.run = none ∧ (settling 0 1).exchHead 0x52 = some (inFlight (cueOf 0x52 0x20 []) .queued) ∧
    (settling 1 1).bucketOk 0 = true ∧ entOwned ((settling 1 1).bucket 0) = true ∧
    (cueOf 0x52 0x20 []).xCheckUnit < up.build.units ∧
    (cueOf 0x52 0x20 []).xPblk = 0 ∧ (settling 1 1).mustCheck (cueOf 0x52 0x20 [(40, 19, 1)]) = true ∧
    ((settling 1 1).queue 8).head? = some 4 ∧ (settling 1 1).accOk (entry 3 1) = true ∧
    ((settling 1 1).accSum (entry 3 1)).1 = (0, false) ∧ entF (entry 3 1) Ex.ownSum = 0 ∧ entF (entry 3 2) Ex.attempt = 0 ∧
    (settling 1 2).regF R.exchCtrl 12 3 = 2 ∧ entF (entry 3 5) Ex.state = 5 ∧ entF (entry 3 0) Ex.state = 0 ∧
    (settling 1 2).exchHead 0x52 = some (inFlight (cueOf 0x52 0x20 [(40, 19, 1)]) .queued) ∧
    up.bucketOk 0 = false := by decide +kernel
theorem wit_ExchOpen : (let c := cueOf 0x53 0x20 [(40, 16, 1)]
    let s := bucketed (atHead up 0x20 c .queued) (entry 3 4)
    s.exch.run = none ∧ s.exchHead 0x53 = some (inFlight c .queued) ∧ s.bucketOk 0 = true ∧ entOwned (s.bucket 0) = true ∧
    entF (s.bucket 0) Ex.state = 4 ∧ s.safe = true ∧ entF (s.bucket 0) Ex.pmaskBase % 64 = 0 ∧
    entF (s.bucket 0) Ex.accBase % 64 = 0 ∧
    s.localRangeOk (entF (s.bucket 0) Ex.pmaskBase) 8 = true ∧ c.xZeroAcc = true ∧ s.accOk (s.bucket 0) = true ∧
    s.exch.syncs = [] ∧ entNotify (s.bucket 0) = [] ∧ s.lockedAt 0x30000 = false ∧ s.lockedAt 0x38000 = false) ∧ entF (entry 3 1) Ex.state ≠ 4 := by decide +kernel
/-- Bucket 0 owned and OPEN, the last number of core 2 on channel 0 being 6. -/
def owner : State := let s := bucketed up (entry 3 0)
  { s with exch := { s.exch with replay := [(exKey 2 0, some 6)] } }
theorem wit_OwnerStream : owner.localServes = true ∧ NMap.get none owner.exch.replay (exKey 2 0) = some 6 ∧
    (6 - 6 : BitVec 32).toNat < 2 ^ 31 ∧ (9 : BitVec 32) ≠ 6 + 1 ∧ 2 ^ 31 ≤ (6 - 9 : BitVec 32).toNat ∧
    State.reset.localServes = false := by
  decide +kernel
theorem wit_OwnerApplies : owner.safe = true ∧ owner.takesOp 0 0 = true ∧ owner.fatal = false ∧
    (entF (owner.bucket 0) Ex.accBase + 512 * 0) % 64 = 0 ∧ owner.addersOk 0x30000 (8 * 64) = true ∧
    (7 : BitVec 32) = 6 + 1 ∧
    (∀ w, w < 8 → owner.mem.flaw (0xC00 + w) = []) ∧ owner.takesOp 0 1 = false ∧
    owner.takesOp 5 0 = false ∧ owner.takesClose 5 0 9 = false ∧ owner.remoteWriteOk (entF (owner.bucket 0) Ex.pmaskBase) = true := by decide +kernel
theorem wit_CloseApplies : owner.takesClose 0 0 1 = true ∧ (let s := { owner with exch := { owner.exch with buckets := [(0, entry 3 4)] } }
     s.takesOp 0 0 = false ∧ s.takesClose 0 0 3 = true ∧ s.takesClose 0 0 2 = false) ∧ entF (owner.bucket 0) Ex.arrived + (1#20).toNat < 2 ^ 20 ∧
    entF (owner.bucket 0) Ex.arrived < entF (owner.bucket 0) Ex.expect ∧
    entF (owner.bucket 0) Ex.expect ≤ entF (owner.bucket 0) Ex.arrived + (2#20).toNat ∧
    entF (owner.bucket 0) Ex.doneCtr < 64 ∧
    entF (owner.bucket 0) Ex.state = 0 := by decide +kernel

/-! Exchange answers, links, the book writer, resets and power. -/

theorem wit_SyncOperations : (bucketed up (entry 3 3)).localServes = true ∧ (bucketed up (entry 3 3)).bucketOk 0 = true ∧
    entOwned ((bucketed up (entry 3 3)).bucket 0) = true ∧ entF ((bucketed up (entry 3 3)).bucket 0) Ex.state = 3 ∧
    entF ((bucketed up (entry 3 3)).bucket 0) Ex.gen = (0#16).toNat ∧
    entF ((bucketed up (entry 3 3)).bucket 0) Ex.attempt = (0#3).toNat ∧
    genAhead 1 (BitVec.ofNat 16 (entF ((bucketed up (entry 3 3)).bucket 0) Ex.gen)) = 1 ∧
    genAhead 0x7FFF (BitVec.ofNat 16 (entF ((bucketed up (entry 3 3)).bucket 0) Ex.gen)) = 0x7FFF ∧ up.bucketOk 0 = false ∧
    (2, 0, 1) ∉ NMap.get [] (bucketed up (entry 3 3)).exch.acted 0 ∧
    entRetain ((bucketed up (entry 3 3)).bucket 0) = false ∧
    (let s : State := { bucketed up (entry 1 0) with exch := { (bucketed up (entry 1 0)).exch with acted := [(0, [(2, 0, 1)])] } }
     ((2#12).toNat, (0#16).toNat, (1#3).toNat) ∈ NMap.get [] s.exch.acted 0) := by decide +kernel
/-- An ACCUMULATE and a CLOSE to core 2 that have not been answered, and a NOTICE. -/
def accOp (tries : Nat) : ExOp := ⟨2, 0, 6, 0, 0, .acc 0 ⟨1, 0, 0, 64, 0, 0⟩, none, tries⟩
def closeOp : ExOp := ⟨2, 0, 6, 0, 0, .close 1 0 0 0, none, 0⟩
def waitingFor (o : ExOp) : State := let s := bucketed (up.setReg R.exchCtrl 0x300) (entry 1 0)
  { s with exch := { s.exch with ops := [o], syncs := [⟨2, 3, 0, 0, 0, none, 0⟩] } }
theorem wit_ExchAnswers : (waitingFor (accOp 0)).localServes = true ∧ (waitingFor (accOp 0)).exch.run = none ∧
    (waitingFor (accOp 0)).exch.serves = [] ∧ (accOp 0).is 2 (0#2).toNat 6 = true ∧
    (waitingFor (accOp 0)).exch.ops.find? (·.is 2 (0#2).toNat 6) = some (accOp 0) ∧ (accOp 0).is 2 (0#2).toNat 0 = false ∧
    findIdx? (fun o : SyncOp => o.dst == 2) (waitingFor (accOp 0)).exch.syncs = some 0 ∧
    (waitingFor (accOp 0)).fab.rops = [] ∧
    2 ^ 31 ≤ ((accOp 0).seq - 9).toNat ∧ State.reset.localServes = false := by decide +kernel
theorem wit_ExchTimeouts : (waitingFor closeOp).regF R.exchCtrl 8 4 = 3 ∧ closeOp.tries < 3 ∧ closeOp.dst = 2 ∧
    closeOp.ch = (0#2).toNat ∧
    (waitingFor closeOp).exch.ops = [closeOp] ∧ 3 ≤ (accOp 3).tries ∧ (accOp 3).open = true ∧
    (waitingFor (accOp 3)).exch.ops = [accOp 3] ∧
    (waitingFor closeOp).exch.syncs[0]? = some ⟨2, 3, 0, 0, 0, none, 0⟩ ∧ (waitingFor closeOp).localServes = true ∧
    (waitingFor closeOp).exch.run = none ∧ (waitingFor closeOp).exch.serves = [] ∧ closeOp.dst ≠ 3 ∧
    (waitingFor closeOp).lapsed (.exchange 2 0 6) = false ∧ (waitingFor closeOp).lapsed (.sync 2 3 0 0 0) = false ∧
    (let s : State := { waitingFor closeOp with timers := [(.exchange 2 0 6, 2 ^ 32), (.sync 2 3 0 0 0, 2 ^ 32)] }
     s.lapsed (.exchange closeOp.dst closeOp.ch closeOp.seq) = true ∧ s.lapsed (SyncOp.timer ⟨2, 3, 0, 0, 0, none, 0⟩) = true) := by decide +kernel
theorem wit_ReplayClear : up.serve R.exchReplayClear = .ok ∧ (2 : Word).getLsbD 12 = false ∧
    (0x1000 : Word).getLsbD 12 = true ∧
    (3 : BitVec 12) ≠ field (2 : Word) 0 12 := by decide +kernel
/-- Port 0 in a state, with its peer 7, and every channel of it in a state. -/
def linked (ps : PortState) (cs : ChanState) : State :=
  (List.range 4).foldl (fun s c => s.setChan 0 c { ChanSt.init with state := cs }) ((up.setPort 0 { PortSt.init with state := ps, peer := 7 }).setReg (R.fabPortCfg 0) 0x10)
/-- A flit of one DONE packet to a core, with its LSEQ; CRC as R421 gives it for cores 0 and 9 and LSEQ 0. -/
def doneFlit (dest : BitVec 12) (lseq : Nat) : Flit :=
  ((mkFlit 8 0 dest 7 true true [1, 0, 0]).setF 32 10 lseq).setF 480 32 (if dest = 0 then 129881715 else 2484879510)
/-- A HELLO of core 0 that names no port, with its CRC. -/
def helloFlit : Flit := (mkFlit 15 0 0 7 true true [3]).setF 480 32 648182445
/-- The CRC register after bytes. -/
def crcRun (c : BitVec 32) (l : List Byte) : BitVec 32 :=
  l.foldl (fun c b => (List.range 8).foldl (fun c _ => if c.getLsbD 0 then (c >>> 1) ^^^ 0x82F63B78#32 else c >>> 1)
    (c ^^^ b.setWidth 32)) c
theorem crcOk_of_halves (f : Flit) (x y : BitVec 32) (h1 : crcRun 0xFFFFFFFF#32 ((bytesOf 60 f.toNat).take 30) = x)
    (h2 : crcRun x ((bytesOf 60 f.toNat).drop 30) = y) (h3 : (y ^^^ 0xFFFFFFFF#32).toNat = fieldN f 480 32) : f.crcOk = true := by
  have h : crc32c (bytesOf 60 f.toNat) = crcRun (crcRun 0xFFFFFFFF#32 ((bytesOf 60 f.toNat).take 30)) ((bytesOf 60 f.toNat).drop 30)
      ^^^ 0xFFFFFFFF#32 := by
    rw [crcRun, crcRun, ← List.foldl_append, List.take_append_drop, crc32c]
  simp only [Flit.crcOk, Flit.crcOf, h, h1, h2, h3, decide_true]
theorem doneFlit_crc : (doneFlit 0 0).crcOk = true :=
  crcOk_of_halves _ 257864930 4165085580 (by decide +kernel) (by decide +kernel) (by decide +kernel)
theorem doneFlit9_crc : (doneFlit 9 0).crcOk = true :=
  crcOk_of_halves _ 1608410680 1810087785 (by decide +kernel) (by decide +kernel) (by decide +kernel)
theorem helloFlit_crc : helloFlit.crcOk = true :=
  crcOk_of_halves _ 194080800 3646784850 (by decide +kernel) (by decide +kernel) (by decide +kernel)
theorem wit_FlitIn : (linked .up .live).hears 0 0 = true ∧ up.hears 0 0 = false ∧ (doneFlit 0 0).opc ≠ 15 ∧
    (doneFlit 0 0).lseq = ((linked .up .live).chan 0 0).rx + 1 ∧ (doneFlit 0 0).dest = (linked .up .live).coreId ∧
    opcReserved (doneFlit 0 0).opc = false ∧ (doneFlit 0 0).sop = true ∧ (doneFlit 0 0).eop = true ∧
    ((linked .up .live).port 0).state = .up ∧
    (doneFlit 0 5).lseq ≠ ((linked .up .live).chan 0 0).rx + 1 ∧
    (Packet.mk (doneFlit 0 0).opc (doneFlit 0 0).ch (doneFlit 0 0).src (doneFlit 0 0).payload []).exReserved = false ∧
    (let f : Flit := mkFlit 2 0 0 7 true true (List.replicate 11 0 ++ [0x60])
     (Packet.mk f.opc f.ch f.src f.payload []).exReserved = true) ∧ (linked .training .live).hears 0 0 = true := by
  decide +kernel
theorem wit_LinkFlits : (linked .up .live).hears 0 0 = true ∧ helloFlit.opc = 15 ∧
    fieldN (field helloFlit 64 416 : BitVec 416) 0 8 = 3 ∧
    (let w : BitVec 416 := 0x00_0000_01_04
     fieldN w 0 8 = 4 ∧ fieldN w 8 2 = 1 ∧ fieldN w 32 8 = 0) ∧
    (let s := (linked .up .live).setChan 0 1 { ChanSt.init with state := .retired }
     s.hears 0 0 = true ∧ (s.chan 0 1).state = .retired ∧ (s.port 0).state = .up) := by
  decide +kernel
/-- A route to core 9 by port 0. -/
def routed : State := let s := linked .up .live
  { s with fab := { s.fab with routes := [(9, 0x100)] } }
theorem wit_Router : routed.hears 0 1 = true ∧ (doneFlit 9 0).opc ≠ 15 ∧ (routed.port 0).state = .up ∧
    (doneFlit 9 0).lseq = (routed.chan 0 1).rx + 1 ∧ (doneFlit 9 0).lv < 6 ∧ (doneFlit 9 0).dest ≠ routed.coreId ∧
    (doneFlit 9 0).alt = false ∧ (routed.route 9).getLsbD 8 = true ∧ routed.portUp 0 = true ∧
    (doneFlit 9 0).hops ≠ routed.regF R.fabCtrl 0 12 ∧ routed.waiting 0 0 = [] ∧ (routed.carrier 0 0).getD 4 = 0 ∧
    (routed.chan 0 0).state = .live ∧ routed.classHeld 0 0 = false ∧ (routed.chan 0 0).replay = [] ∧
    (∀ i, i < 6 → listGet 0 (routed.chan 0 0).credits i ≠ 0) ∧ laneOf (doneFlit 9 0).opc = 1 ∧
    (routed.route 8).getLsbD 8 = false ∧ (routed.route 8).getLsbD 9 = false ∧ opcReserved 7 = true := by decide +kernel
theorem wit_GoBack : (linked .up .live).hears 0 0 = true ∧ (∀ k, k < 4 → (linked .up .live).waiting 0 k = []) ∧
    ((linked .up .live).chan 0 0).win = [] ∧ up.hears 0 0 = false ∧ ((linked .up .live).chan 0 0).replay = [] ∧
    (((linked .up .live).setChan 0 0 { ChanSt.init with replay := [doneFlit 9 0] }).chan 0 0).replay = [doneFlit 9 0] ∧
    up.age (.replay 0 0 1023) < 2 ^ 10 ∧ beforeOldest 0 [doneFlit 9 0] = 1023 ∧
    2 ^ 10 ≤ ({ up with timers := [(.replay 0 0 1023, 1024)] } : State).age (.replay 0 0 1023) := by decide +kernel
theorem wit_Retirement : 0 < up.build.ports ∧ ((linked .up .live).port 0).state = .up ∧
    ((linked .up .live).port 0).retry = false ∧
    ((linked .up .live).chan 0 1).state = .live ∧ ((linked .up .live).chan 0 0).state = .live ∧
    (let s := (linked .up .live).setChan 0 0 { ChanSt.init with state := .retraining, req := true }
     (s.chan 0 0).state = .retraining ∧ (s.chan 0 0).req = true ∧ (s.chan 0 1).state = .live) ∧
    (let s := (linked .up .live).setChan 0 0 { ChanSt.init with win := List.replicate 15 0 }
     s.hears 0 0 = true ∧ ((s.chan 0 0).win.filter fun t => decide ((s.tick - t).toNat ≤ 2 ^ 20)).length = 15) ∧
    (up.port 0).state = .disabled ∧ (up.chan 0 0).req = false ∧ up.age (.train 0 0) < (up.reg R.fabTrainTicks).toNat ∧
    (up.reg R.fabTrainTicks).toNat ≤ ({ up with timers := [(.train 0 0, 2 ^ 32)] } : State).age (.train 0 0) := by decide +kernel
theorem wit_Handover : (let s := (linked .up .live).setChan 0 0 { ChanSt.init with state := .retired, handing := [0] }
    s.liveChans 0 = [1, 2, 3] ∧ (s.port 0).state = .up ∧ (s.chan 0 0).state = .retired ∧ (s.chan 0 0).handing ≠ []) ∧
    ((linked .up .retired).chan 0 0).handing = [] ∧ (linked .up .retired).liveChans 0 = [] := by decide +kernel
/-- Port 0 in training with what it said and heard. -/
def meeting (own heard : Option Bool) : State := (linked .training .live).setPort 0 ⟨.training, 7, own, heard, false⟩
theorem wit_PeerChecks : 0 < up.build.ports ∧ ((meeting none none).port 0).state = .training ∧
    (meeting none none).liveChans 0 ≠ [] ∧
    ((meeting none none).port 0).own = none ∧ (7 : BitVec 12) ≠ (meeting none none).coreId ∧
    (0 : BitVec 12) = (meeting none none).coreId ∧
    (meeting none none).regB (R.fabPortCfg 0) 5 = false ∧
    (let s := (meeting none none).setReg (R.fabPortCfg 0) 0x00080030
     s.regB (R.fabPortCfg 0) 5 = true ∧ s.regF (R.fabPortCfg 0) 16 12 ≠ (7 : BitVec 12).toNat) ∧
    ((meeting none (some true)).port 0).heard = some true ∧ ((meeting (some false) none).port 0).own = some false ∧
    (∀ c, c < 4 → ((meeting (some false) none).chan 0 c).state ≠ .idle) ∧ ((linked .training .idle).chan 0 0).state = .idle ∧
    (let s : State := { meeting (some false) none with phase := .bringUp }
     s.phase = .bringUp ∧ ∀ q, q < s.build.ports → q ≠ 0 → s.portSettled q = true) := by decide +kernel
theorem wit_Training : 0 < up.build.ports ∧ ((linked .training .idle).port 0).state = .training ∧
    ((linked .training .idle).chan 0 0).state = .idle ∧
    ((linked .training .idle).port 0).own = none ∧ ((linked .down .idle).port 0).state = .down ∧
    (let s := (linked .training .idle).setChan 0 0 { ChanSt.init with state := .idle, req := true }
     (s.chan 0 0).req = true ∧ (s.port 0).retry = false ∧ (s.chan 0 1).state ≠ .retired) ∧
    (let s := (linked .training .retired).setChan 0 0 { ChanSt.init with state := .idle, req := true }
     (s.chan 0 0).state = .idle ∧ ∀ k, k < 4 → k ≠ 0 → (s.chan 0 k).state = .retired) ∧
    ((linked .up .live).port 0).state ≠ .down := by decide +kernel
theorem wit_Retrained : (let s := (linked .up .live).setChan 0 0 { ChanSt.init with state := .retraining, req := true, replay := [doneFlit 9 0, doneFlit 9 1] }
    (s.chan 0 0).req = true ∧ (s.chan 0 0).state = .retraining ∧ (s.chan 0 0).win = [] ∧
    (∀ k, k < 4 → s.waiting 0 k = [] ∧ (s.chan 0 k).handing = []) ∧ (s.chan 0 0).replay = [doneFlit 9 0, doneFlit 9 1] ∧
    1 ≤ (Flit.lseq (doneFlit 9 1) - Flit.lseq (doneFlit 9 0)).toNat ∧
    (Flit.lseq (doneFlit 9 1) - Flit.lseq (doneFlit 9 0)).toNat < 256) := by
  decide +kernel
theorem wit_PortControl : (linked .up .live).serve (R.fabPortCtrl 0) = .ok ∧ (linked .up .live).portEn 0 = true ∧
    0 < up.build.ports ∧
    (linked .up .live).serve (R.fabPortCfg 0) = .ok ∧ (0x10 : Word).getLsbD 4 = true ∧ (0 : Word).getLsbD 4 = false ∧
    (up.setReg (R.fabPortCfg 0) 0).portEn 0 = false ∧
    ({ up with build := { up.build with chip := .bv128 } } : State).build.ports ≤ 15 ∧
    up.serve (R.fabPortCtrl 15) = .ok := by decide +kernel
/-- The shortest image: a header and the end record. -/
def image : List Byte := [0xC0, 0, 0x1B, 0x5B, 1, 0, 0, 0, 40, 0, 0, 0] ++ List.replicate 20 0 ++ [0xFF, 0, 0, 0, 0, 0, 0, 0]
/-- A session, a 1 MiB flash, and eight pages that hold the image at address 0. -/
def booked (cells : NMap Byte) : State :=
  let s := (inSession.setHandle 1 { Handle.none with owned := true, fixed := true, fmt := 4, pages := 8, elems := 524288 }).setReg R.pbkWrLen 40
  let s := (List.range 8).foldl (fun s i => s.setPage i { Page.free with state := .owned, handle := 1, frame := i, page := i }) s
  { s with flash := { s.flash with sizeLog := 20, cells := cells },
           mem := { s.mem with cells := [(0, 0xC0), (2, 0x1B), (3, 0x5B), (4, 1), (8, 40), (32, 0xFF)] } }
theorem wit_WriterStarts : (booked []).serve R.pbkWrCtrl = .ok ∧ (booked []).session = true ∧
    (booked []).writerBusy = false ∧
    (booked []).writer.waits = [] ∧ (booked []).localRangeOk 0 (booked []).flash.copySize = true ∧
    (booked []).flash.found = true ∧
    (booked []).reg R.pbkWrSrc = 0 ∧ ((booked []).readPlain 0 0 40).1 = (image, false) ∧ (booked []).imageErr image = 0 ∧
    (booked []).reg R.pbkWrLen = 40 ∧ 40 ≤ (booked []).flash.copySize ∧ up.session = false ∧
    inSession.localRangeOk 0 64 = false ∧ (inSession.reg R.pbkWrLen).toNat < 40 := by decide +kernel
theorem wit_WriterStarts_counter : (let s := ((booked []).setReg R.pbkWrCfg 0x01000000).setCnt 0 1
    s.phase = .up ∧ s.pstate < 2 ∧ s.regB R.pbkWrCfg 24 = true ∧ s.writerBusy = false ∧ s.regF R.pbkWrCfg 0 7 = 0 ∧
    1 ≤ (s.cnt 0).toNat ∧
    (up.cnt 0) = 0) := by decide +kernel
/-- Copy A of the flash holds the image with generation 1. -/
def copyA : NMap Byte := ((image.take 12 ++ bytesOf 4 1 ++ bytesOf 4 0xFFFFFFFE ++ bytesOf 4 (imageCheck image).toNat ++ image.drop 24).zipIdx.map
  fun (b, i) => (i, b)).filter fun x => x.2 != 0xFF
theorem wit_WriterStarts_retired : (booked copyA).safe = true ∧ (booked copyA).winner = some false ∧
    (booked copyA).imageErr ((booked copyA).retiredImage ((booked copyA).flash.image false)) = 0 ∧
    ((booked copyA).retiredImage ((booked copyA).flash.image false)).length ≤ (booked copyA).flash.copySize := by decide +kernel
theorem wit_WriterSteps : up.writerBusy = false ∧ ∀ ph ∈ [4, 5, 7], (let s := up.setReg R.pbkWrStatus (BitVec.ofNat 32 (1 + 2 * ph))
    s.writerBusy = true ∧ s.writer.waits = [] ∧ s.writerPhase = ph ∧
      s.age s.flashTimer < 2 ^ 28 ∧ 2 ^ 28 ≤ ({ s with timers := [(.flash ph 0, 2 ^ 28)] } : State).age (.flash ph 0) ∧
      s.flashTimer = .flash ph 0) := by decide +kernel
theorem wit_SoftReset : inSession.serve R.ctlSoftReset = .ok ∧ inSession.session = true ∧ (1 : Word).getLsbD 0 = true ∧
    inSession.softBusy = false ∧ up.session = false ∧ up.serve R.ctlSoftReset = .ok ∧ up.softBusy = false ∧
    (let s := up.setReg R.rstStatus 1
     s.softBusy = true ∧ s.flights = [] ∧ (∀ l ∈ allLines, (s.line l).ringAt = []) ∧ ∀ k, k < s.build.units → (s.unit k).run = none) := by decide +kernel
theorem wit_IdleEntry : up.phase = .up ∧ up.pstate = 0 ∧ (∀ l ∈ allLines, (up.lineState l).1 ≠ 2 ∧ (up.lineState l).1 ≠ 4) ∧
    up.engineWork = false ∧ State.reset.phase ≠ .up := by decide +kernel
theorem wit_DrowseEntry : up.serve R.pwrCtrl = .ok ∧ up.phase = .up ∧ up.pstate < 2 ∧
    (allLines.any fun l => !([0, 1, 5] : List Nat).contains (up.lineState l).1) = false ∧ up.flights = [] ∧
    ((List.range 16).any fun k => (up.tree k).pending || !(up.tree k).early.isEmpty) = false ∧ up.softBusy = false ∧
    up.writerBusy = false ∧ up.frozen = false ∧ (up.setReg R.pwrStatus 2).pstate = 2 ∧ up.prop.ins = [] ∧ up.prop.outs = [] ∧
    up.prop.moves = [] ∧ up.prop.demand = [] ∧ up.exch.ops = [] ∧ up.exch.syncs = [] ∧
    (up.setReg R.rstStatus 1).softBusy = true ∧ up.age .drowse < 2 ^ 20 ∧
    2 ^ 20 ≤ ({ up.setReg R.pwrStatus 2 with timers := [(.drowse, 2 ^ 20)] } : State).age .drowse := by
  decide +kernel
theorem wit_Waking : (up.setReg R.pwrStatus 3).serve R.pwrCtrl = .ok ∧ (up.setReg R.pwrStatus 3).pstate = 3 ∧ up.pstate ≠ 3 ∧
    (up.setReg R.pwrStatus 4).pstate = 4 ∧ (let s := (linked .up .live).setReg R.pwrStatus 4
     ∀ p, p < s.build.ports → s.portSettled p = true) ∧ up.pstate ≠ 4 := by decide +kernel
theorem wit_PowerMeters : up.serve R.pwrVreq = .ok ∧ up.phase = .up ∧ up.pstate < 3 ∧ State.reset.phase = .powerOnReset ∧
    max 620 (min 880 (fieldN (1023 : Word) 0 10)) = 880 ∧ max 620 (min 880 (fieldN (620 : Word) 0 10)) = 620 := by decide +kernel

/-! Refusals of the shape checks, and single steps. -/

theorem wf_addresses : (Instr.registerWrite 2 0).wf = false ∧
    (Instr.rcRegisterRead 2).wf = false ∧ (Instr.loRegisterRead 2).wf = false ∧ (Instr.snapshotRead 2).wf = false ∧
    (Instr.repWrite 2 0).wf = false ∧ (Instr.scrubRead 0 [(67, 1)]).wf = false ∧ (Instr.scrubRead 0 [(66, 1)]).wf = true ∧
    (Instr.registerWrite 4 0).wf = true := by decide +kernel
theorem wf_messages : (Instr.post 0 0 64 0 0).wf = false ∧ (Instr.post 0 0 63 0 0).wf = true ∧
    (Instr.accumulate 0 0 0 0 0 0 0 0 (List.replicate 64 0)).wf = false ∧
    (Instr.accumulate 0 0 0 0 0 65 0 0 (List.replicate 64 0)).wf = false ∧
    (Instr.accumulate 0 0 0 0 0 1 0 0 []).wf = false ∧ (Instr.write 0 0 0 []).wf = false ∧
    (Instr.write 0 0 0 (List.replicate 513 0)).wf = false ∧ (Instr.read 0 0 0 0).wf = false ∧
    (Instr.read 0 0 0 513).wf = false ∧
    (Instr.readData 0 0 0 (List.replicate 513 0)).wf = false ∧ (Instr.read 0 0 0 512).wf = true := by decide +kernel
theorem test_no_row_gives_bits : decodeTableWord 32 7 = none ∧ up.withFetchWord 32 7 = up := ⟨rfl, rfl⟩

/-- The state behind a command. -/
def behind (c : Instr) (s : State) : State := match exec c s with
  | .next u => u
  | _ => s
/-- The worked example of 01_order_free_arithmetic.md: the four products of F8a codes, both orders. -/
def products : List (Machine.Num × Machine.Num) := [(0x7E, 0x7E), (0xFE, 0x7E), (0x01, 0x01), (0x09, 0x38)].map fun p =>
  (decodeElem .f8a p.1, decodeElem .f8a p.2)
theorem test_worked_sum : roundTo .b32 .rne ((sumTerms 0 20 products).value (20 - 56)) = 0x3C900800 ∧
    sumTerms 0 20 products.reverse = sumTerms 0 20 products ∧ (sumTerms 0 20 products).n = 2 ^ 18 * 4609 := by decide +kernel
theorem test_order_free_bound : fillE (cueOf 0x10 1 [(52, 0, 4)]) [⟨2, 0, 0, [], [], []⟩] [⟨2, 0, 0, 0, [], [], []⟩] = 20 := by decide +kernel
/-- R339, R331: a host post of +2 to counter 63, and one below zero. -/
theorem test_host_post : (behind (.callHostPost 0x203F) up).cnt 63 = 2 ∧ (behind (.callHostPost 0xFFFFF000) up).cnt 0 = 0 ∧
    (behind (.callHostPost 0xFFFFF000) up).regB R.callUnderLo 0 = true := by decide +kernel
/-- R319: the host halts a line, and it runs again. -/
theorem test_halt_resume : ((behind (.hostHalt .f) lineOn).line .f).halted = true ∧
    ((behind (.lineResume .f) halted).line .f).halted = false := by
  decide +kernel
/-- R293, R316: NOP takes number 0 and the next is 1. -/
theorem test_nop : ((behind (.nop .f) (taking up (cueOf 0 0 []))).line .f).count = 1 ∧
    ((behind (.nop .f) (taking up (cueOf 0 0 []))).line .f).head = 1 := by decide +kernel
/-- R300: a loop of count 2 goes back once. -/
theorem test_loop_end : ((behind (.loopEnd .f) (takingOn up .f (cueOf 3 0 []) [⟨0, 3, 2, 0⟩])).line .f).head = 1 ∧
    ((behind (.loopEnd .f) (takingOn up .f (cueOf 3 0 []) [⟨0, 3, 2, 1⟩])).line .f).loops = [] := by decide +kernel
/-- R334: an acknowledged write lands. -/
theorem test_write_lands : (behind (.writeLands 0) writing).mem.read 0 = 7 ∧
    (behind (.writeLands 0) writing).mem.wq.length = 1 := by
  decide +kernel
/-- R238, R245: PROP_ALLOC takes the lowest descriptor and the lowest frame. -/
theorem test_prop_alloc : ((behind (.propAlloc 0) (atHead up 0x21 allocCue .queued)).page 0).state = .owned ∧
    ((behind (.propAlloc 0) (atHead up 0x21 allocCue .queued)).handle 1).pages = 1 := by decide +kernel
/-- R44, R46, R73: a fill of one element, 2 × 3, holds 6 at the LSB of its E. -/
theorem test_fill : ((behind (.arrFill 0 [] []) (fillReady 2)).holdOf 0).map (fun h => (h.vals.map (·.toInt), h.e)) =
    some ([6 * 2 ^ (56 - fillE (fillCue 2) [⟨4, 0, 0, [2], [], []⟩] [tileOne]).toNat], fillE (fillCue 2) [⟨4, 0, 0, [2], [], []⟩] [tileOne]) := by
  decide +kernel
/-- R376, R377 by hand: OPT_SGDM of one element with g = 2, GSCALE 1, LR 0.5, BETA1 = WD = 0 and CLEAR_ACC makes the master weight
0 − 0.5 × 2 = −1 and the moment 2, and clears the accumulator. -/
def sgdmOne : State :=
  let s := optReady .owned
  { s with flights := [inFlight (cueOf 4 0 [(40, 0, 2), (44, 0, 0x20001), (52, 0, 1), (56, 0, 0x20040), (60, 0, 3), (64, 0, 8)]) .finished]
           mem := { s.mem with cells := [(0, 2), (0x20043, 0x3F), (0x2005E, 0x80), (0x2005F, 0x3F), (0x20060, 2)] } }
theorem test_sgdm : ((List.range 4).map fun i => (behind (.cueComplete 0) sgdmOne).mem.read (0x10000 + i)) = [0, 0, 0x80, 0xBF] ∧
    ((List.range 4).map fun i => (behind (.cueComplete 0) sgdmOne).mem.read (0x10020 + i)) = [0, 0, 0, 0x40] ∧
    (behind (.cueComplete 0) sgdmOne).mem.read 0 = 0 := by decide +kernel
/-- R508: PWR_VREQ keeps a request within its range. -/
theorem test_vreq : (behind (.pwrVreqWrite 1023) up).regF R.pwrVreq 0 10 = 880 := by decide +kernel
/-- R502: power lost leaves the block off. -/
theorem test_power_off : (behind .pwrOkFall up).phase = .off := by decide +kernel

end Sys2Proof.Tests
end

section
/-! SUPPORT. The callboard: host posts (R339), CALL_SET (R342), the clearing of a curtain call (R355) and the curtain watchdog
(R353, R354). -/

namespace Sys2Proof.Machine

/-! The fault log's write index. -/

/-- Every record takes the next place of the log (R526). -/
theorem State.fltWr_logRecord (s : State) (r : FaultRec) : (s.logRecord r).reg R.fltWr = s.reg R.fltWr + 1 := by
  unfold State.logRecord
  extract_lets wr d s1 ws s2 s3 s4 s5 s6
  have h4 : s4.reg R.fltWr = wr + 1 :=
    (State.reg_count_ne s3 _ (by unfold R.fltWr R.fltClassCount; omega)).trans (State.reg_setReg_self _ _ _)
  have h5 : s5.reg R.fltWr = wr + 1 := by
    unfold s5; split
    · exact (State.reg_setB_ne _ _ _ (by decide)).trans h4
    · exact h4
  have h6 : s6.reg R.fltWr = wr + 1 := by
    unfold s6; split
    · refine (State.reg_setB_ne _ _ _ (by decide)).trans ((State.reg_setRegs_ne _ _ _ _ fun i hi => ?_).trans h5)
      have : i < 8 := hi
      unfold R.fltWr R.fltFatal; omega
    · exact h5
  split <;> exact h6

/-! Bits of the callboard's masks and posts (R330, R331). -/

section
variable {off : Nat} (ho : Field.ofReg off = .callR)
include ho

theorem State.regB_callBit_self (s : State) {i : Nat} (code : Code) (index : Nat) (hi : i < 32) :
    (s.callBit off i code index).regB off i = true := by
  unfold State.callBit
  split
  · assumption
  · unfold State.regB
    rw [Field.same_of_ofReg (kept_logRecord _ _).but off (by rw [ho]; decide)]
    exact (State.regB_setB s off i i true hi).trans (if_pos rfl)

theorem State.fltWr_callBit (s : State) (i : Nat) (code : Code) (index : Nat) :
    (s.callBit off i code index).reg R.fltWr = if s.regB off i then s.reg R.fltWr else s.reg R.fltWr + 1 := by
  have hne : R.fltWr ≠ off := by rintro rfl; exact absurd ho (by decide)
  unfold State.callBit
  split
  · rfl
  · rw [State.fltWr_logRecord, State.reg_setB_ne _ _ _ hne]

/-- A host post that stops counter `i` at a limit `v` and sets its bit in the mask register `off`. -/
theorem State.stopAtLimit_spec (s : State) (i : Nat) (v : BitVec 20) (code : Code) :
    let u := (s.hostTouch.setCnt i v).callBit off (i % 32) code i
    u.cnt i = v ∧ (∀ k, k ≠ i → u.cnt k = s.cnt k) ∧ u.regB off (i % 32) = true ∧ u.lines = s.lines ∧
      u.reg R.fltWr = (if s.regB off (i % 32) then s.reg R.fltWr else s.reg R.fltWr + 1) ∧
      KeptBut [.board, .trig, .doorR, .callR, .fltR] s u := by
  intro u
  have hbit : KeptBut [.callR, .trig, .fltR] (s.hostTouch.setCnt i v) u := ho ▸ (kept_callBit _ off (i % 32) code i).but
  have hcnt (k : Nat) : u.cnt k = if k = i then v else s.cnt k := by
    have hboard : u.board = (s.hostTouch.setCnt i v).board := hbit.same .board (by decide)
    exact (congrArg (fun b : Callboard => NMap.get 0 b.counts k) hboard).trans (State.cnt_setCnt _ _ _ _)
  have hreg {p : Nat} (hp : Field.ofReg p ≠ .doorR) : (s.hostTouch.setCnt i v).reg p = s.reg p :=
    State.hostTouch_reg_ne s (by rintro rfl; exact hp rfl)
  refine ⟨by rw [hcnt, if_pos rfl], fun k hk => by rw [hcnt, if_neg hk],
    State.regB_callBit_self ho _ _ _ (Nat.mod_lt _ (by decide)), hbit.same .lines (by decide), ?_, ?_⟩
  · rw [State.fltWr_callBit ho, State.regB, hreg (by rw [ho]; decide), hreg (by decide), State.regB]
  · exact hbit.step (by decide) ((kept_setCnt _ _ _).but.step (by decide) ((kept_hostTouch s).but.mono (by decide)))

end

theorem State.post_eq_of_above {s : State} {i : Nat} {d : Int} (h : 0xFFFFF < ((s.cnt i).toNat : Int) + d) :
    s.post i d = (s.setCnt i 0xFFFFF#20).callBit (if i < 32 then R.callSatLo else R.callSatHi) (i % 32) .callSat i :=
  if_pos h

theorem State.post_eq_of_below {s : State} {i : Nat} {d : Int} (h : ((s.cnt i).toNat : Int) + d < 0) :
    s.post i d = (s.setCnt i 0#20).callBit (if i < 32 then R.callUnderLo else R.callUnderHi) (i % 32) .callUnder i :=
  (if_neg (by omega)).trans (if_pos h)

theorem State.post_eq_of_within {s : State} {i : Nat} {d : Int} (h0 : 0 ≤ ((s.cnt i).toNat : Int) + d)
    (h1 : ((s.cnt i).toNat : Int) + d ≤ 0xFFFFF) :
    s.post i d = s.setCnt i (BitVec.ofInt 20 (((s.cnt i).toNat : Int) + d)) :=
  (if_neg (by omega)).trans (if_neg (by omega))

/-! The callboard's registers written by the host. -/

/-- A write that sets one counter and is acknowledged changes the callboard and the session's idle count. -/
theorem Only.setCnt_hostTouch (s : State) (i : Nat) (v : BitVec 20) :
    Only [.board] [R.sesIdleTicks] s (s.hostTouch.setCnt i v) :=
  ((Only.refl _ _ s).hostTouch (by simp)).kept (kept_setCnt _ _ _).but (by decide) (by decide)

theorem Only.setTree_hostTouch (s : State) (k : Nat) (t : CcTree) :
    Only [.board] [R.sesIdleTicks] s (s.hostTouch.setTree k t) :=
  ((Only.refl _ _ s).hostTouch (by simp)).kept (kept_setTree _ _ _).but (by decide) (by decide)

/-- A denied write sets its bit of CALL_STATUS and changes nothing else. -/
theorem State.setStatus_hostTouch_spec (s : State) {b : Nat} (hb : b < 32) :
    (s.hostTouch.setB R.callStatus b true).regB R.callStatus b = true ∧
      Only [] [R.sesIdleTicks, R.callStatus] s (s.hostTouch.setB R.callStatus b true) :=
  ⟨(State.regB_setB _ _ _ _ _ hb).trans (if_pos rfl), ((Only.refl _ _ s).hostTouch (by simp)).setB (by simp)⟩

theorem State.hostPost_denied {s : State} {v : Word} (h : 64 ≤ fieldN v 0 7) : s.hostPost v = s.setB R.callStatus 0 true :=
  if_pos h

theorem State.hostPost_of_lt {s : State} {v : Word} (h : fieldN v 0 7 < 64) :
    s.hostPost v = s.post (fieldN v 0 7) (field v 12 20 : BitVec 20).toInt := if_neg (by omega)

theorem State.callSet_denied {s : State} {v : Word} (h : s.session = false ∨ 80 ≤ fieldN v 0 7) :
    s.callSet v = s.setB R.callStatus 1 true := if_pos h

theorem State.callSet_of_session {s : State} {v : Word} (h : s.session = true) (hi : fieldN v 0 7 < 80) :
    s.callSet v = s.setCnt (fieldN v 0 7) (field v 8 20) := if_neg (by simp [h, hi])

theorem State.session_hostTouch (s : State) : s.hostTouch.session = s.session := by
  unfold State.session State.regB
  rw [State.hostTouch_reg_ne s (by decide)]

theorem State.ccClear_ignored {s : State} {k : Nat} {v : Word} (h : v.getLsbD 0 = false ∨ (s.tree k).cue ≠ none) :
    s.ccClear k v = s := if_pos (h.imp id Option.isSome_iff_ne_none.2)

theorem State.ccClear_of_free {s : State} {k : Nat} {v : Word} (h : v.getLsbD 0 = true) (hc : (s.tree k).cue = none) :
    s.ccClear k v = s.setTree k ⟨field v 8 8, false, none, false, false, [], [], none⟩ :=
  if_neg (by simp [bit, h, hc])

theorem Ends.callHostPost {s : State} {v : Word} {P : State → Prop} (h : s.serve R.callHostPost = .ok)
    (p : P (s.hostTouch.hostPost v)) : Ends (.callHostPost v) s P := Ends.of rfl (State.hostWrite_ok _ h) p

theorem Ends.callSet {s : State} {v : Word} {P : State → Prop} (h : s.serve R.callSet = .ok)
    (p : P (s.hostTouch.callSet v)) : Ends (.callSet v) s P := Ends.of rfl (State.hostWrite_ok _ h) p

theorem Ends.callCcClear {s : State} {k : Fin 16} {v : Word} {P : State → Prop} (h : s.serve (R.callCcCtrl k.val) = .ok)
    (p : P (s.hostTouch.ccClear k.val v)) : Ends (.callCcClear k v) s P := Ends.of rfl (State.hostWrite_ok _ h) p

theorem callSat_ofReg (i : Nat) : Field.ofReg (if i < 32 then R.callSatLo else R.callSatHi) = .callR := by split <;> rfl

theorem callUnder_ofReg (i : Nat) : Field.ofReg (if i < 32 then R.callUnderLo else R.callUnderHi) = .callR := by split <;> rfl

/-- Settles O45, by the three ways a post ends: within the limits, above them and below them. -/
theorem hostPost : Obligations.HostPost := by
  intro s v h i sum sat under
  refine ⟨fun hi => Ends.callHostPost h ?_, fun hi h0 h1 => Ends.callHostPost h ?_, fun hi h1 => Ends.callHostPost h ?_,
    fun hi h0 => Ends.callHostPost h ?_⟩
  · rw [State.hostPost_denied hi]
    exact s.setStatus_hostTouch_spec (by decide)
  · rw [State.hostPost_of_lt hi, State.post_eq_of_within (s := s.hostTouch) h0 h1]
    refine ⟨?_, fun k hk => (State.cnt_setCnt _ _ _ _).trans (if_neg hk), Only.setCnt_hostTouch s _ _⟩
    rw [State.cnt_setCnt, if_pos rfl, BitVec.toNat_ofInt]
    change ((sum % 2 ^ 20).toNat : Int) = sum
    omega
  · rw [State.hostPost_of_lt hi, State.post_eq_of_above (s := s.hostTouch) h1]
    exact s.stopAtLimit_spec (callSat_ofReg i) i _ _
  · rw [State.hostPost_of_lt hi, State.post_eq_of_below (s := s.hostTouch) h0]
    exact s.stopAtLimit_spec (callUnder_ofReg i) i _ _

/-- The claim of O46 about CALL_SET and CALL_CC_CTRL. -/
theorem callboardControl_claim : Sys2Proof.Claims.CallboardControl := by
  intro s v k
  refine ⟨fun h => ⟨fun hs hi => Ends.callSet h ?_, fun hd => Ends.callSet h ?_⟩,
    fun h => ⟨fun hb hc => Ends.callCcClear h ?_, fun hd => Ends.callCcClear h ?_⟩⟩
  · rw [State.callSet_of_session ((State.session_hostTouch s).trans hs) hi]
    exact ⟨(State.cnt_setCnt _ _ _ _).trans (if_pos rfl), fun j hj => (State.cnt_setCnt _ _ _ _).trans (if_neg hj),
      Only.setCnt_hostTouch s _ _⟩
  · rw [State.callSet_denied (by rwa [State.session_hostTouch])]
    exact s.setStatus_hostTouch_spec (by decide)
  · rw [State.ccClear_of_free hb (s := s.hostTouch) hc]
    exact ⟨(State.tree_setTree _ _ _ _).trans (if_pos rfl), fun j hj => (State.tree_setTree _ _ _ _).trans (if_neg hj), rfl,
      Only.setTree_hostTouch s _ _⟩
  · rw [State.ccClear_ignored (s := s.hostTouch) hd]
    exact (Only.refl _ _ s).hostTouch (by simp)

/-! The record of a line's first halt. -/

theorem getLsbD_at32 (lo v : Nat) {i : Nat} (h : i < 32) : (at32 lo v).getLsbD i = (decide (lo ≤ i) && v.testBit (i - lo)) := by
  unfold at32
  rw [BitVec.getLsbD_ofNat, Nat.testBit_shiftLeft, decide_eq_true h, Bool.true_and]

/-- The word of LINE_HALT_REASON (R318). -/
def haltReasonWord (reason engine : Nat) (c : HaltCue) : Word :=
  at32 0 reason ||| at32 8 (engine % 64) ||| at32 14 c.src ||| at32 16 c.opcode

/-- Below SRC and OPCODE the word holds the reason and, from bit 8 on, the engine. -/
theorem getLsbD_haltReasonWord (reason engine : Nat) (c : HaltCue) {i : Nat} (h : i < 14) :
    (haltReasonWord reason engine c).getLsbD i =
      (reason.testBit i || (decide (8 ≤ i) && (engine % 64).testBit (i - 8))) := by
  have h32 : i < 32 := by omega
  have h14 : ¬14 ≤ i := by omega
  have h16 : ¬16 ≤ i := by omega
  simp [haltReasonWord, -BitVec.getLsbD_eq_getElem, getLsbD_at32 _ _ h32, h14, h16]

theorem fieldN_haltReasonWord_reason (reason engine : Nat) (c : HaltCue) :
    fieldN (haltReasonWord reason engine c) 0 8 = reason % 256 := by
  refine fieldN_eq_of_bits fun i hi => ?_
  rw [Nat.zero_add, getLsbD_haltReasonWord _ _ _ (by omega), decide_eq_false (by omega), Bool.false_and, Bool.or_false]

theorem fieldN_haltReasonWord_engine {reason : Nat} (h : reason < 256) (engine : Nat) (c : HaltCue) :
    fieldN (haltReasonWord reason engine c) 8 6 = engine % 64 := by
  refine fieldN_eq_of_bits fun i hi => ?_
  have hr : reason.testBit (8 + i) = false :=
    Nat.testBit_lt_two_pow (h.trans_le (Nat.pow_le_pow_right (n := 2) (i := 8) (by decide) (by omega)))
  rw [getLsbD_haltReasonWord _ _ _ (by omega), hr, Bool.false_or, decide_eq_true (by omega), Bool.true_and,
    Nat.add_sub_cancel_left, show 64 = 2 ^ 6 from rfl, Nat.testBit_mod_two_pow, decide_eq_true hi, Bool.true_and]

theorem State.haltReason_haltRecord (s : State) (l : Line) (reason engine : Nat) (c : HaltCue) :
    (s.haltRecord l reason engine c).reg (R.lineHaltReason l.idx) = haltReasonWord reason engine c := by
  have later {o : Nat} (h : 0x04044 ≤ o % 0x200 + 0x04000 ∨ o < 0x04000 ∨ 0x06000 ≤ o) : R.lineHaltReason l.idx ≠ o := by
    unfold R.lineHaltReason; omega
  unfold State.haltRecord State.latchIrq
  dsimp only
  rw [State.reg_setB_ne _ _ _ (later (by decide)), State.reg_setReg_ne _ _ (later (by unfold R.callWdogAge; omega)),
    State.reg_setReg_ne _ _ (later (by unfold R.lineHaltTag; omega)),
    State.reg_setReg_ne _ _ (later (by unfold R.lineHaltCountHi; omega)),
    State.reg_setReg_ne _ _ (later (by unfold R.lineHaltCountLo; omega)),
    State.reg_setReg_ne _ _ (later (by unfold R.lineHaltAddr; omega)), State.reg_setReg_self]
  rfl

/-- The first halt of a line writes its reason; the record in the log leaves the line's registers. -/
theorem State.haltReason_haltCore {s : State} {l : Line} (h : (s.line l).halted = false) (reason engine : Nat) (fetch : Bool)
    (c : HaltCue) : (s.haltCore l reason engine fetch c).reg (R.lineHaltReason l.idx) = haltReasonWord reason engine c := by
  unfold State.haltCore
  dsimp only
  rw [Field.same_of_ofReg (kept_logRecord _ _).but _ (by rw [R.lineHaltReason_ofReg]; decide), if_neg (by simp [h]),
    State.haltReason_haltRecord]

/-- A halt leaves one record. -/
theorem State.fltWr_haltCore (s : State) (l : Line) (reason engine : Nat) (fetch : Bool) (c : HaltCue) :
    (s.haltCore l reason engine fetch c).reg R.fltWr = s.reg R.fltWr + 1 := by
  unfold State.haltCore
  dsimp only
  rw [State.fltWr_logRecord]
  split
  · rfl
  · rw [Field.same_of_ofReg (kept_haltRecord _ _ _ _ _).but _ (by decide), State.setLine_reg]

/-- A halt whose record is not core fatal stops its own line only (R525). -/
theorem State.halt_eq_haltCore {reason : Code} {fetch : Bool} (h : haltClass reason.num fetch ≠ 5) (s : State) (l : Line)
    (engine : Nat) (c : HaltCue) : s.halt l reason engine fetch c = s.haltCore l reason.num engine fetch c := if_neg h

/-! The curtain watchdog (R353, R354). -/

/-- The engine a watchdog's record names: that of the line's oldest cue in flight, or 0. -/
def State.watchdogEngine (s : State) (l : Line) : Nat := match s.flights.find? (·.q.line == l) with
  | some f => f.q.cue.engine
  | none => 0

/-- The cue it names: that oldest one, or the line's head cue. -/
def State.watchdogCue (s : State) (l : Line) : HaltCue := match s.flights.find? (·.q.line == l) with
  | some f => f.q.haltCue
  | none => s.headCue l (s.headOf l)

/-- What follows the halt of a watchdog: the line's place, its count back to 0 and the capture. -/
def State.afterWatchdog (s : State) (l : Line) (atHead : Bool) (record : Word) : State :=
  ((s.updLine l fun ln => { ln with atPrompter := atHead, taken := none }).progress l).trigger 5 (record.setWidth 16)

theorem State.reg_afterWatchdog (s : State) (l : Line) (atHead : Bool) (record : Word) {p : Nat} (h : p ≠ R.callWdogAge l.idx) :
    (s.afterWatchdog l atHead record).reg p = s.reg p := by
  unfold State.afterWatchdog State.progress
  rw [State.trigger_reg, State.reg_setReg_ne _ _ h]
  rfl

theorem State.wdogAge_afterWatchdog (s : State) (l : Line) (atHead : Bool) (record : Word) :
    (s.afterWatchdog l atHead record).reg (R.callWdogAge l.idx) = 0 := by
  unfold State.afterWatchdog State.progress
  rw [State.trigger_reg, State.reg_setReg_self]

theorem State.halted_afterWatchdog (s : State) (l : Line) (atHead : Bool) (record : Word) :
    ((s.afterWatchdog l atHead record).line l).halted = (s.line l).halted := by
  have hline : (s.afterWatchdog l atHead record).line l = { s.line l with atPrompter := atHead, taken := none } :=
    State.line_setLine_self s l _
  rw [hline]

theorem State.trig_afterWatchdog (s : State) (l : Line) (atHead : Bool) (record : Word) :
    ⟨5, record.setWidth 16, (s.reg R.fabCoreId).setWidth 12, false⟩ ∈ (s.afterWatchdog l atHead record).trig := by
  have hid : ((s.updLine l fun ln => { ln with atPrompter := atHead, taken := none }).progress l).reg R.fabCoreId =
      s.reg R.fabCoreId := State.reg_setReg_ne _ _ (by unfold R.fabCoreId R.callWdogAge; omega)
  refine List.mem_append_right _ ?_
  rw [hid]
  exact List.mem_singleton_self _

theorem State.watchdog_quiet {s : State} {l : Line} (h : s.reg R.callCueWdog = 0 ∨
      s.reg (R.callWdogAge l.idx) < s.reg R.callCueWdog ∨ s.frozen = true ∨ s.outstanding l = false) : s.watchdog l = s :=
  if_pos (by tauto)

theorem State.not_frozen_of_enginesRun {s : State} (h : s.enginesRun = true) : s.frozen = false := by
  simp only [State.enginesRun, Bool.and_eq_true, Bool.not_eq_true'] at h
  obtain ⟨⟨-, hfrozen⟩, -⟩ := h
  exact hfrozen

/-- The watchdog as one halt and what follows it. -/
theorem State.watchdog_fires {s : State} {l : Line} (hon : s.reg R.callCueWdog ≠ 0)
    (hage : s.reg R.callCueWdog ≤ s.reg (R.callWdogAge l.idx)) (hrun : s.enginesRun = true) (hout : s.outstanding l = true) :
    s.watchdog l = (s.haltCore l Code.watchdog.num (s.watchdogEngine l) false (s.watchdogCue l)).afterWatchdog l
      (s.flights.find? (·.q.line == l)).isNone (s.reg R.fltWr) := by
  have hfrozen := State.not_frozen_of_enginesRun hrun
  have hgo : ¬(s.reg R.callCueWdog = 0 ∨ s.reg (R.callWdogAge l.idx) < s.reg R.callCueWdog ∨ s.frozen = true ∨
      s.enginesRun = false ∨ s.outstanding l = false) := by
    simp only [hrun, hout, hfrozen, BitVec.not_lt.2 hage, hon, or_self, Bool.false_eq_true, Bool.true_eq_false, not_false_eq_true]
  unfold State.watchdog State.watchdogEngine State.watchdogCue State.afterWatchdog
  rw [if_neg hgo]
  cases s.flights.find? (·.q.line == l) <;> rw [← State.halt_eq_haltCore (by decide)]

/-- The claim of O46 about the curtain watchdog. -/
theorem curtainWatchdog_claim : Sys2Proof.Claims.CurtainWatchdog := by
  intro s l
  refine ⟨fun h => Ends.of rfl (State.watchdog_quiet h) rfl, fun hon hage hrun hout hh => ?_⟩
  have hflights : (s.watchdog l).flights = s.flights := (kept_watchdog s l).but.same .flights (by decide)
  have hfires := State.watchdog_fires hon hage hrun hout
  have hreason := (State.reg_afterWatchdog _ l (s.flights.find? (·.q.line == l)).isNone (s.reg R.fltWr)
    (by unfold R.lineHaltReason R.callWdogAge; omega)).trans
      (State.haltReason_haltCore hh Code.watchdog.num (s.watchdogEngine l) false (s.watchdogCue l))
  have hid : (s.haltCore l Code.watchdog.num (s.watchdogEngine l) false (s.watchdogCue l)).reg R.fabCoreId =
      s.reg R.fabCoreId := Field.same_of_ofReg (kept_haltCore _ _ _ _ _ _).but _ (by decide)
  refine Ends.of rfl hfires ⟨?_, State.wdogAge_afterWatchdog _ _ _ _, ?_, ?_, hfires ▸ hflights, ?_,
    hid ▸ State.trig_afterWatchdog _ l _ _⟩
  · rw [State.halted_afterWatchdog, State.halted_haltCore]
  · rw [State.regF, hreason, fieldN_haltReasonWord_reason]
    rfl
  · rw [State.regF, hreason, fieldN_haltReasonWord_engine (by decide), State.watchdogEngine]
    cases s.flights.find? (·.q.line == l) <;> rfl
  · rw [State.reg_afterWatchdog _ _ _ _ (by unfold R.fltWr R.callWdogAge; omega), State.fltWr_haltCore]

/-- Settles O46: the host's control of the callboard, and the curtain watchdog. -/
theorem callboardControl : Obligations.CallboardControl := ⟨callboardControl_claim, curtainWatchdog_claim⟩

end Sys2Proof.Machine
end

section
/-! SUPPORT. The exchange engine's EXCH_BUCKET_SET (R385): what an engine's halt and a cue's completion leave, the fields of a
bucket's entry, and the four ways the command ends. -/

namespace Sys2Proof.Machine

/-! Queues and cues in flight. -/

/-- A lookup finds the value of an entry, or the default. -/
theorem NMap.get_eq_default_or_mem {α : Type} (d : α) (m : NMap α) (k : Nat) :
    NMap.get d m k = d ∨ (k, NMap.get d m k) ∈ m := by
  induction m with
  | nil => exact .inl rfl
  | cons x m ih =>
    obtain ⟨a, v⟩ := x
    by_cases h : k = a
    · subst h
      simp [NMap.get]
    · simp only [NMap.get, if_neg h]
      exact ih.imp id (List.mem_cons_of_mem _)

theorem State.not_mem_queue_unqueue (s : State) (uid k : Nat) : uid ∉ (s.unqueue uid).queue k := by
  rcases NMap.get_eq_default_or_mem [] (s.unqueue uid).queues k with h | h
  · exact fun hm => by simp [State.queue, h] at hm
  · obtain ⟨⟨j, l⟩, -, hl⟩ := List.mem_map.1 (List.mem_filter.1 h).1
    obtain ⟨-, hq⟩ := Prod.mk.inj hl
    unfold State.queue
    rw [← hq]
    simp

/-- Whatever stood there before, a cue that has done its work is finished. -/
theorem State.stage_flight_finishFlight {s : State} {uid : Nat} {y : Flight} (h : (s.finishFlight uid).flight uid = some y) :
    y.stage = .finished := by
  have huid : y.q.uid = uid := by simpa using List.find?_some h
  obtain ⟨x, -, hx⟩ := List.mem_map.1 (List.mem_of_find?_eq_some h)
  split at hx
  · rw [← hx]
  · rename_i hne
    exact absurd (hx ▸ huid) hne

theorem State.doneWith_exchDone (s : State) (f : Flight) : (s.exchDone f.q.uid).doneWith f :=
  ⟨fun _ hy => State.stage_flight_finishFlight hy,
    State.not_mem_queue_unqueue { s with exch := { s.exch with run := none } } f.q.uid⟩

/-- With no cue in progress, the head of the exchange queue is in flight under its own number. -/
theorem State.flight_of_exchHead {s : State} {op : Nat} {f : Flight} (hrun : s.exch.run = none) (h : s.exchHead op = some f) :
    s.flight f.q.uid = some f := by
  unfold State.exchHead at h
  rw [hrun] at h
  obtain ⟨hstart, -⟩ := Option.filter_eq_some_iff.1 h
  obtain ⟨hhead, -⟩ := Option.filter_eq_some_iff.1 hstart
  obtain ⟨uid, -, hf⟩ := Option.bind_eq_some_iff.1 hhead
  have huid : f.q.uid = uid := by simpa using List.find?_some hf
  exact huid ▸ hf

/-! A halt by an engine (R318, R319). -/

theorem Code.num_lt (c : Code) : c.num < 256 := by cases c <;> decide

theorem State.engineHalt_eq_haltCore {s : State} {f : Flight} (h : s.flight f.q.uid = some f) (engine : Nat) (code : Code) :
    s.engineHalt f.q.uid engine code =
      ((s.unqueue f.q.uid).dropFlight f.q.uid).haltCore f.q.line code.num engine false f.q.haltCue := by
  unfold State.engineHalt
  rw [h]
  exact State.halt_eq_haltCore (by simp [haltClass]) _ _ _ _

/-- An engine's halt of a cue is a halt in every state that agrees on the lines and the callboard. -/
theorem State.haltsOn_engineHalt {s t : State} {f : Flight} (hf : t.flight f.q.uid = some f) (hlines : t.lines = s.lines)
    (hboard : t.board = s.board) {engine : Nat} (he : engine < 64) (code : Code) :
    s.haltsOn f engine code (t.engineHalt f.q.uid engine code) := by
  rw [State.engineHalt_eq_haltCore hf]
  have hkept := (kept_haltCore ((t.unqueue f.q.uid).dropFlight f.q.uid) f.q.line code.num engine false f.q.haltCue).but
  have hline : ((t.unqueue f.q.uid).dropFlight f.q.uid).line f.q.line = s.line f.q.line :=
    congrArg (PerLine.get · f.q.line) hlines
  refine ⟨State.halted_haltCore _ _ _ _ _ _, ?_, fun k => ?_, ?_, fun hh => ?_⟩
  · rw [hkept.same .flights (by decide)]
    intro y hy
    simpa using (List.mem_filter.1 hy).2
  · rw [State.queue, hkept.same .queues (by decide)]
    exact State.not_mem_queue_unqueue t _ k
  · exact (hkept.same .board (by decide)).trans hboard
  · have hreason := State.haltReason_haltCore (hline ▸ hh) code.num engine false f.q.haltCue
    rw [State.regF, State.regF, hreason, fieldN_haltReasonWord_reason, fieldN_haltReasonWord_engine code.num_lt]
    exact ⟨Nat.mod_eq_of_lt code.num_lt, Nat.mod_eq_of_lt he⟩

/-- With no cue in progress, a halt by the exchange engine is any engine's halt behind the count of refused local addresses
(R248, R411). -/
theorem State.exchHalt_eq_engineHalt {s : State} (hrun : s.exch.run = none) (uid : Nat) (code : Code) :
    s.exchHalt uid code = (if code = .localAddr then s.count R.propLocalRefused 1 else s).engineHalt uid 0x20 code := by
  have hidle (t : State) (ht : t.exch.run = none) : { t with exch := { t.exch with run := none } } = t := by rw [← ht]
  unfold State.exchHalt
  dsimp only
  rw [hidle _ (by split <;> exact hrun)]

/-- It stops the cue's line and leaves the exchange as it was. -/
theorem State.exchHalt_spec {s t : State} {f : Flight} (hf : t.flight f.q.uid = some f) (hrun : t.exch.run = none)
    (hlines : t.lines = s.lines) (hboard : t.board = s.board) (code : Code) :
    s.haltsOn f 0x20 code (t.exchHalt f.q.uid code) ∧ (t.exchHalt f.q.uid code).exch = t.exch := by
  have hcount : KeptBut [.propR] t (if code = .localAddr then t.count R.propLocalRefused 1 else t) :=
    KeptBut.ite ((kept_count t R.propLocalRefused 1).but.mono (by decide)) (KeptBut.refl _ _)
  rw [State.exchHalt_eq_engineHalt hrun]
  refine ⟨State.haltsOn_engineHalt ?_ ((hcount.same .lines (by decide)).trans hlines)
    ((hcount.same .board (by decide)).trans hboard) (by decide) code,
    ((kept_engineHalt _ _ _ _).but.same .exch (by decide)).trans (hcount.same .exch (by decide))⟩
  rw [State.flight, hcount.same .flights (by decide)]
  exact hf

/-! Fields of a bucket's entry (R383). -/

theorem getLsbD_entSet (e : BitVec 1024) (k : Nat × Nat) (v : Nat) {i : Nat} (h : i < 1024) :
    (entSet e k v).getLsbD i = if k.1 ≤ i ∧ i < k.1 + k.2 then v.testBit (i - k.1) else e.getLsbD i := by
  unfold entSet Cue.setBits
  simp only [BitVec.getLsbD_or, BitVec.getLsbD_and, BitVec.getLsbD_not, BitVec.getLsbD_ofNat, h, decide_true, Bool.true_and,
    Nat.testBit_shiftLeft, Nat.testBit_two_pow_sub_one, Nat.testBit_mod_two_pow, ge_iff_le]
  by_cases hlo : k.1 ≤ i
  · by_cases hhi : i < k.1 + k.2
    · simp [hlo, hhi, show i - k.1 < k.2 by omega]
    · simp [hlo, hhi, show ¬i - k.1 < k.2 by omega]
  · simp [hlo]

theorem entF_entSet_self (e : BitVec 1024) (k : Nat × Nat) (v : Nat) (h : k.1 + k.2 ≤ 1024) :
    entF (entSet e k v) k = v % 2 ^ k.2 := by
  refine fieldN_eq_of_bits fun i hi => ?_
  rw [getLsbD_entSet _ _ _ (by omega), if_pos (by omega), Nat.add_sub_cancel_left]

theorem entF_lt (e : BitVec 1024) (k : Nat × Nat) : entF e k < 2 ^ k.2 := Nat.mod_lt _ (by positivity)

/-- A field depends on its own bits only. -/
theorem entF_congr {x y : BitVec 1024} {k : Nat × Nat} (h : ∀ i, k.1 ≤ i → i < k.1 + k.2 → x.getLsbD i = y.getLsbD i) :
    entF x k = entF y k :=
  fieldN_eq_of_bits (v := y.toNat >>> k.1) fun i hi => by
    rw [h _ (by omega) (by omega), Nat.testBit_shiftRight, BitVec.getLsbD]

theorem numOf_lt (l : List Byte) : numOf l < 256 ^ l.length := by
  induction l with
  | nil => decide
  | cons b l ih =>
    have hb : b.toNat < 256 := b.isLt
    calc numOf (b :: l) = b.toNat + 256 * numOf l := rfl
      _ < 256 * 256 ^ l.length := by omega
      _ = 256 ^ (b :: l).length := by rw [List.length_cons, Nat.pow_succ']

/-- An entry spelled by its first `n` bytes holds 0 in every later one. -/
theorem getLsbD_numOf_take (l : List Byte) {n i : Nat} (h : 8 * n ≤ i) :
    (BitVec.ofNat 1024 (numOf (l.take n))).getLsbD i = false := by
  have hlt : numOf (l.take n) < 2 ^ i := calc
    numOf (l.take n) < 256 ^ (l.take n).length := numOf_lt _
    _ ≤ 256 ^ n := Nat.pow_le_pow_right (by decide) (List.length_take_le _ _)
    _ = 2 ^ (8 * n) := by rw [show 256 = 2 ^ 8 from rfl, ← Nat.pow_mul]
    _ ≤ 2 ^ i := Nat.pow_le_pow_right (by decide) h
  rw [BitVec.getLsbD_ofNat, Nat.testBit_lt_two_pow hlt, Bool.and_false]

/-- The entry a record becomes: SHIFT starts at INIT_S and GEN at GEN0 (R385). -/
def entLoaded (e : BitVec 1024) : BitVec 1024 := entSet (entSet e Ex.shift (entF e Ex.initS)) Ex.gen (entF e Ex.gen0)

/-- Loading an entry writes the bits of SHIFT and GEN only. -/
theorem getLsbD_entLoaded (e : BitVec 1024) {i : Nat} (hi : i < 1024) (h : i < 320 ∨ (328 ≤ i ∧ i < 336) ∨ 352 ≤ i) :
    (entLoaded e).getLsbD i = e.getLsbD i := by
  unfold entLoaded Ex.shift Ex.gen
  rw [getLsbD_entSet _ _ _ hi, if_neg (by omega), getLsbD_entSet _ _ _ hi, if_neg (by omega)]

theorem shift_entLoaded (e : BitVec 1024) : entF (entLoaded e) Ex.shift = entF e Ex.initS := by
  have hgen : entF (entLoaded e) Ex.shift = entF (entSet e Ex.shift (entF e Ex.initS)) Ex.shift :=
    entF_congr fun i _ hhi => by
      have hlt : i < 328 := hhi
      rw [entLoaded, getLsbD_entSet _ _ _ (by omega), if_neg (by unfold Ex.gen; omega)]
  rw [hgen, entF_entSet_self _ _ _ (by decide)]
  exact Nat.mod_eq_of_lt (entF_lt e Ex.initS)

theorem gen_entLoaded (e : BitVec 1024) : entF (entLoaded e) Ex.gen = entF e Ex.gen0 :=
  (entF_entSet_self _ _ _ (by decide)).trans (Nat.mod_eq_of_lt (entF_lt e Ex.gen0))

/-! Why a record is not loaded (R385). -/

/-- The bucket still does work: it is VALID and neither OPEN nor SETTLED, it has arrivals, or the engine holds operations of
it. -/
def State.bucketBusy (s : State) (b : Nat) : Prop :=
  (entValid (s.bucket b) = true ∧ entF (s.bucket b) Ex.state ≠ 0 ∧ entF (s.bucket b) Ex.state ≠ 4) ∨
    entF (s.bucket b) Ex.arrived ≠ 0 ∨ (∃ o ∈ s.exch.ops, o.bucket = b) ∨ ∃ o ∈ s.exch.syncs, o.bucket = b

/-- The record's own fields forbid it: an OWNED record with a bound tracker, ELEMS 0 or EXPECT 0. -/
def State.recordWrong (s : State) (e : BitVec 1024) : Prop :=
  (entOwned e = true ∧ (s.tracker (entF e Ex.trk)).bound ≠ none) ∨ entF e Ex.elems = 0 ∨ entF e Ex.expect = 0

open Classical in
theorem State.recordChecks_eq (s : State) (b : Nat) (e : BitVec 1024) : s.recordChecks b e =
    (if s.bucketBusy b then [.exchBusy] else []) ++ if s.recordWrong e then [.exchField] else [] := by
  simp only [State.recordChecks, State.bucketBusy, State.recordWrong, exOpen, exSettled, List.any_eq_true, beq_iff_eq,
    Option.isSome_iff_ne_none]
  congr

/-- EXCH_FIELD_INVALID is the lower code, so it hides EXCH_BUCKET_BUSY (R320). -/
theorem State.leastCode_recordChecks_wrong {s : State} {e : BitVec 1024} (h : s.recordWrong e) (b : Nat) :
    leastCode (s.recordChecks b e) = some .exchField := by
  rw [State.recordChecks_eq, if_pos h]
  split <;> rfl

theorem State.leastCode_recordChecks_busy {s : State} {b : Nat} {e : BitVec 1024} (hw : ¬s.recordWrong e) (hb : s.bucketBusy b) :
    leastCode (s.recordChecks b e) = some .exchBusy := by
  rw [State.recordChecks_eq, if_pos hb, if_neg hw]
  rfl

theorem State.leastCode_recordChecks_none {s : State} {b : Nat} {e : BitVec 1024} (hw : ¬s.recordWrong e)
    (hb : ¬s.bucketBusy b) : leastCode (s.recordChecks b e) = none := by
  rw [State.recordChecks_eq, if_neg hb, if_neg hw]
  rfl

/-- The checks look at the engine and the trackers only. -/
theorem State.recordChecks_congr {s t : State} (hexch : t.exch = s.exch) (htrk : t.trackers = s.trackers) (b : Nat)
    (e : BitVec 1024) : t.recordChecks b e = s.recordChecks b e := by
  unfold State.recordChecks State.bucket State.tracker
  rw [hexch, htrk]

/-! EXCH_BUCKET_SET case by case. -/

/-- The cue names a bucket and a record that can be read: the id is in the table (R382), the address is aligned and valid
(R248), and no word of the record is poisoned. -/
def State.recordReads (s : State) (c : Cue) : Prop :=
  c.xBucket < 4096 ∧ c.xRecord % 64 = 0 ∧ s.localRangeOk c.xRecord 64 = true ∧ (s.readPlain 0x20 c.xRecord 64).1.2 = false

/-- The record of the cue, as an entry. -/
def State.recordOf (s : State) (c : Cue) : BitVec 1024 := BitVec.ofNat 1024 (numOf ((s.readPlain 0x20 c.xRecord 64).1.1.take 40))

/-- The state with a record loaded into bucket `b`; what the retain planes hold and the RESENDs seen are forgotten. -/
def State.loadBucket (s : State) (b : Nat) (e : BitVec 1024) : State :=
  let s := s.setBucket b (entLoaded e)
  { s with exch := { s.exch with retGen := NMap.del s.exch.retGen b, acted := NMap.del s.exch.acted b } }

theorem State.bucket_loadBucket (s : State) (b k : Nat) (e : BitVec 1024) :
    (s.loadBucket b e).bucket k = if k = b then entLoaded e else s.bucket k := NMap.get_set _ _ _ _ _

theorem kept_loadBucket (s : State) (b : Nat) (e : BitVec 1024) : KeptBut [.exch] s (s.loadBucket b e) :=
  KeptBut.upd (kept_setBucket _ _ _).but

section
variable {s : State} {f : Flight} (hf : s.exchHead 0x50 = some f)
include hf

theorem State.bucketSet_of_id (h : 4096 ≤ f.q.cue.xBucket) : s.bucketSet = s.exchHalt f.q.uid .exchBucket := by
  unfold State.bucketSet
  rw [hf]
  exact if_pos h

theorem State.bucketSet_of_address (hb : f.q.cue.xBucket < 4096)
    (h : f.q.cue.xRecord % 64 ≠ 0 ∨ s.localRangeOk f.q.cue.xRecord 64 = false) :
    s.bucketSet = s.exchHalt f.q.uid .localAddr := by
  unfold State.bucketSet
  rw [hf]
  exact (if_neg (by omega)).trans (if_pos h)

/-- A record that can be read is judged and loaded in the state behind the read. -/
theorem State.bucketSet_of_record (h : s.recordReads f.q.cue) :
    s.bucketSet = match leastCode (s.recordChecks f.q.cue.xBucket (s.recordOf f.q.cue)) with
      | some code => (s.readPlain 0x20 f.q.cue.xRecord 64).2.exchHalt f.q.uid code
      | none => ((s.readPlain 0x20 f.q.cue.xRecord 64).2.loadBucket f.q.cue.xBucket (s.recordOf f.q.cue)).exchDone f.q.uid := by
  obtain ⟨hb, halign, hrange, hclean⟩ := h
  have hread := (kept_readPlain s 0x20 f.q.cue.xRecord 64).but
  rw [← State.recordChecks_congr (hread.same .exch (by decide)) (hread.same .trackers (by decide))]
  unfold State.bucketSet
  rw [hf]
  dsimp only
  rw [if_neg (by omega), if_neg (by simp [halign, hrange]), if_neg (by simp [hclean])]
  rfl

end

/-- A record that fails a check halts the line and changes no entry. -/
theorem State.bucketSet_halts {s : State} {f : Flight} (hrun : s.exch.run = none) (hf : s.exchHead 0x50 = some f)
    (h : s.recordReads f.q.cue) {code : Code}
    (hcode : leastCode (s.recordChecks f.q.cue.xBucket (s.recordOf f.q.cue)) = some code) :
    s.haltsOn f 0x20 code s.bucketSet ∧ s.bucketSet.exch = s.exch := by
  have hread := (kept_readPlain s 0x20 f.q.cue.xRecord 64).but
  have hexch : (s.readPlain 0x20 f.q.cue.xRecord 64).2.exch = s.exch := hread.same .exch (by decide)
  have hflight : (s.readPlain 0x20 f.q.cue.xRecord 64).2.flight f.q.uid = some f := by
    rw [State.flight, hread.same .flights (by decide)]
    exact State.flight_of_exchHead hrun hf
  rw [State.bucketSet_of_record hf h, hcode]
  obtain ⟨hhalt, hsame⟩ := State.exchHalt_spec (s := s) hflight (hexch ▸ hrun) (hread.same .lines (by decide))
    (hread.same .board (by decide)) code
  exact ⟨hhalt, hsame.trans hexch⟩

/-- A record that passes the checks becomes the bucket's entry; no other bucket changes, and the cue is done. -/
theorem State.bucketSet_loads {s : State} {f : Flight} (hf : s.exchHead 0x50 = some f) (h : s.recordReads f.q.cue)
    (hcode : leastCode (s.recordChecks f.q.cue.xBucket (s.recordOf f.q.cue)) = none) :
    (∀ k, s.bucketSet.bucket k = if k = f.q.cue.xBucket then entLoaded (s.recordOf f.q.cue) else s.bucket k) ∧
      s.bucketSet.doneWith f ∧ KeptBut [.exch, .flights, .queues, .mem, .prop, .propR, .trig, .fltR] s s.bucketSet := by
  have hread := (kept_readPlain s 0x20 f.q.cue.xRecord 64).but
  rw [State.bucketSet_of_record hf h, hcode]
  refine ⟨fun k => ?_, State.doneWith_exchDone _ f, ?_⟩
  · have hbucket : (s.readPlain 0x20 f.q.cue.xRecord 64).2.bucket k = s.bucket k := by
      rw [State.bucket, hread.same .exch (by decide), State.bucket]
    rw [← hbucket]
    exact State.bucket_loadBucket _ _ _ _
  · exact (kept_exchDone _ _).but.step (by decide) ((kept_loadBucket _ _ _).step (by decide) (hread.mono (by decide)))

/-- Settles O49, by the checks in their order: the id, the address, the record's fields, the bucket's work, and the load. -/
theorem bucketSet : Obligations.BucketSet := by
  intro s f hrun hf b r e old fits wrong busy
  have hflight := State.flight_of_exchHead hrun hf
  refine ⟨fun hb => Ends.of rfl (State.bucketSet_of_id hf hb) (State.exchHalt_spec hflight hrun rfl rfl _),
    fun hb haddr => Ends.of rfl (State.bucketSet_of_address hf hb haddr) (State.exchHalt_spec hflight hrun rfl rfl _),
    fun hfits hw => Ends.of rfl rfl (State.bucketSet_halts hrun hf hfits (State.leastCode_recordChecks_wrong hw b)),
    fun hfits hw hb => Ends.of rfl rfl (State.bucketSet_halts hrun hf hfits (State.leastCode_recordChecks_busy hw hb)),
    fun hfits hw hb => Ends.of rfl rfl ?_⟩
  obtain ⟨hbuckets, hdone, hkept⟩ := State.bucketSet_loads hf hfits (State.leastCode_recordChecks_none hw hb)
  have hentry : s.bucketSet.bucket b = entLoaded e := (hbuckets b).trans (if_pos rfl)
  refine ⟨fun i hi => ?_, ?_, ?_, fun i hi => ?_, fun k hk => (hbuckets k).trans (if_neg hk), hdone, hkept⟩
  · rw [hentry, getLsbD_entLoaded e (by omega) (.inl hi)]
  · rw [State.bf, hentry, shift_entLoaded]
  · rw [State.bf, hentry, gen_entLoaded]
  · rw [hentry]
    by_cases hlt : i < 1024
    · rw [getLsbD_entLoaded e hlt (.inr hi)]
      exact getLsbD_numOf_take _ (by omega)
    · exact BitVec.getLsbD_of_ge _ _ (by omega)

end Sys2Proof.Machine
end

section
/-! SUPPORT. What every command, and every tick, leaves unchanged (O3, O6), what follows a command (O4), and the order in which
commands are served (R454, R515). -/

namespace Sys2Proof.Machine

/-! The meaning of every command. -/

/-- An access of the wrong shape that the port acknowledges: the count of host errors, or an answer of 0 (R461). -/
theorem kept_misshaped (s : State) (a : Nat) (w : Bool) : Kept [.outs, .ctlR, .doorR] s
    (let s := if (!w && decide (0x100000 ≤ a) && decide (a < 0x140000)) = true then s.hostTouch else s.hostTouch.hostError a w
     if w then s else s.emit (.hostRsp 0 true)) := by
  have h : Kept [.outs, .ctlR, .doorR] s
      (if (!w && decide (0x100000 ≤ a) && decide (a < 0x140000)) = true then s.hostTouch else s.hostTouch.hostError a w) :=
    Kept.ite ((kept_hostTouch s).mono rfl)
      ((kept_hostError ..).step rfl ((kept_hostTouch s).mono rfl))
  exact Kept.ite h ((kept_emit ..).step rfl h)

/-- The meaning of every command ends in a state, from which what follows it goes on, and changes no part of the state but
those of `Instr.changes`; it keeps the canonical forms. -/
theorem kept_exec (c : Instr) (s : State) : ∃ u, exec c s = u.done ∧ Kept c.changes s u := match c with
  | .pwrOkRise => ⟨_, rfl, (kept_pwrRise ..).mono rfl⟩
  | .pwrOkFall => ⟨_, rfl, (kept_pwrFall ..).mono rfl⟩
  | .powerOnResetEnd => ⟨_, rfl, (kept_porEnd ..).mono rfl⟩
  | .keyReq _ => ⟨_, rfl, (kept_keyReq ..).mono rfl⟩
  | .keyWaitTimeout => ⟨_, rfl, (kept_keyTimeout ..).mono rfl⟩
  | .blockReset _ => ⟨_, rfl, (kept_blockReset ..).mono rfl⟩
  | .blockResetEnd => ⟨_, rfl, (kept_blockEnd ..).mono rfl⟩
  | .refTickLost => ⟨_, rfl, (kept_loseTick ..).mono rfl⟩
  | .refTickRestored => ⟨_, rfl, (kept_restoreTick ..).mono rfl⟩
  | .tabIn _ => ⟨_, rfl, (kept_tabIn ..).mono rfl⟩
  | .tabOutEnd => ⟨_, rfl, (Kept.refl _ _).upd⟩
  | .irqSample => ⟨_, rfl, (kept_irqSample ..).mono rfl⟩
  | .wsBypass _ => ⟨_, rfl, (Kept.refl _ _).ite ((kept_wrapperLoad ..).mono rfl)⟩
  | .wsExtest => ⟨_, rfl, (kept_wrapperRun ..).mono rfl⟩
  | .wsIntest => ⟨_, rfl, (kept_wrapperRun ..).mono rfl⟩
  | .wsScan => ⟨_, rfl, ((kept_wrapperLoad ..).mono rfl).ite ((kept_wrapperRun ..).mono rfl)⟩
  | .wsMbist => ⟨_, rfl, (kept_selfTest ..).mono rfl⟩
  | .intakeWrite _ _ _ _ => ⟨_, rfl, (kept_intakeWrite ..).mono rfl⟩
  | .heldCommitLands _ => ⟨_, rfl, (kept_heldLands ..).mono rfl⟩
  | .intakeHoldExpiry _ => ⟨_, rfl, (kept_holdExpires ..).mono rfl⟩
  | .hostMisshapedAccess _ _ => ⟨_, rfl, Kept.ite (Kept.refl _ _) (kept_misshaped s _ _)⟩
  | .registerWrite _ _ => ⟨_, rfl, (kept_registerWrite ..).mono rfl⟩
  | .rcRegisterRead _ => ⟨_, rfl, (kept_registerRead ..).mono rfl⟩
  | .loRegisterRead _ => ⟨_, rfl, (kept_registerRead ..).mono rfl⟩
  | .snapshotRead _ => ⟨_, rfl, (kept_registerRead ..).mono rfl⟩
  | .lineRingWrite _ _ => ⟨_, rfl, kept_hostWrite (fun _ => (kept_ringWrite ..).mono rfl) rfl s _⟩
  | .hostHalt _ => ⟨_, rfl, kept_hostWrite (fun _ => (kept_lineCtrlWrite ..).mono rfl) rfl s _⟩
  | .lineResume _ => ⟨_, rfl, kept_hostWrite (fun _ => (kept_lineCtrlWrite ..).mono rfl) rfl s _⟩
  | .lineResumeSkip _ => ⟨_, rfl, kept_hostWrite (fun _ => (kept_lineCtrlWrite ..).mono rfl) rfl s _⟩
  | .lineReset _ => ⟨_, rfl, kept_hostWrite (fun _ => (kept_lineCtrlWrite ..).mono rfl) rfl s _⟩
  | .lineResetDone _ => ⟨_, rfl, (kept_lineResetDone ..).mono rfl⟩
  | .splitModeWrite _ => ⟨_, rfl, kept_hostWrite (fun _ => (kept_splitWrite ..).mono rfl) rfl s _⟩
  | .repWrite _ _ => ⟨_, rfl, kept_hostWrite (fun _ => (kept_repWrite ..).mono rfl) rfl s _⟩
  | .prompterDispatch _ _ => ⟨_, rfl, (kept_prompterTurn _).step rfl
    ((kept_boardUpset ..).step rfl ((kept_repUpset ..).mono rfl))⟩
  | .fetcherDispatch _ => ⟨_, rfl, (kept_fetcherTurn ..).mono rfl⟩
  | .nop _ => ⟨_, rfl, (kept_controlTurn ..).mono rfl⟩
  | .fence _ => ⟨_, rfl, (kept_controlTurn ..).mono rfl⟩
  | .loopBegin _ => ⟨_, rfl, (kept_controlTurn ..).mono rfl⟩
  | .loopEnd _ => ⟨_, rfl, (kept_controlTurn ..).mono rfl⟩
  | .callRoutine _ => ⟨_, rfl, (kept_controlTurn ..).mono rfl⟩
  | .setLoop _ => ⟨_, rfl, (kept_controlTurn ..).mono rfl⟩
  | .halt _ => ⟨_, rfl, (kept_controlTurn ..).mono rfl⟩
  | .stepAdvance _ => ⟨_, rfl, (kept_controlTurn ..).mono rfl⟩
  | .curtainCall _ => ⟨_, rfl, (kept_controlTurn ..).mono rfl⟩
  | .tableau => ⟨_, rfl, (kept_tableauCue ..).mono rfl⟩
  | .arrFill _ _ _ => ⟨_, rfl, (kept_arrFill ..).step rfl (((kept_holdParity ..).step rfl
    ((kept_feedParity ..).mono rfl)).ite (Kept.refl _ _))⟩
  | .arrDropHold _ => ⟨_, rfl, (kept_arrDropHold ..).mono rfl⟩
  | .arrConfig _ => ⟨_, rfl, (kept_arrConfig ..).mono rfl⟩
  | .weightPreload _ _ => ⟨_, rfl, (kept_weightPreload ..).mono rfl⟩
  | .drainTile _ _ => ⟨_, rfl, (kept_drainTile ..).mono rfl⟩
  | .bankSleep _ => ⟨_, rfl, (kept_bankSleep ..).mono rfl⟩
  | .choRun _ => ⟨_, rfl, (kept_choRun ..).mono rfl⟩
  | .tileClaim _ => ⟨_, rfl, (kept_tileClaim ..).mono rfl⟩
  | .choProgLoad _ => ⟨_, rfl, (kept_choProgLoad ..).mono rfl⟩
  | .choConfig _ => ⟨_, rfl, (kept_choConfig ..).mono rfl⟩
  | .choTqDrop _ => ⟨_, rfl, (kept_choTqDrop ..).mono rfl⟩
  | .redRow _ => ⟨_, rfl, (kept_redRun ..).mono rfl⟩
  | .redCol _ => ⟨_, rfl, (kept_redRun ..).mono rfl⟩
  | .scan _ => ⟨_, rfl, (kept_redRun ..).mono rfl⟩
  | .krnNormFwd _ => ⟨_, rfl, (kept_krnRun ..).mono rfl⟩
  | .krnNormBwd _ => ⟨_, rfl, (kept_krnRun ..).mono rfl⟩
  | .krnSoftmaxFwd _ => ⟨_, rfl, (kept_krnRun ..).mono rfl⟩
  | .krnSoftmaxBwd _ => ⟨_, rfl, (kept_krnRun ..).mono rfl⟩
  | .krnGscanFwd _ => ⟨_, rfl, (kept_krnRun ..).mono rfl⟩
  | .krnGscanBwd _ => ⟨_, rfl, (kept_krnRun ..).mono rfl⟩
  | .flyMove _ _ => ⟨_, rfl, (kept_flyMove ..).mono rfl⟩
  | .transferArm _ _ => ⟨_, rfl, (kept_transferArm ..).step rfl ((kept_tableUpset ..).mono rfl)⟩
  | .transferActivate _ => ⟨_, rfl, (kept_transferActivate ..).mono rfl⟩
  | .creditReturn _ _ => ⟨_, rfl, (kept_creditReturn ..).mono rfl⟩
  | .writeLands _ => ⟨_, rfl, (kept_writeLands ..).mono rfl⟩
  | .cueComplete _ => ⟨_, rfl, (kept_cueComplete ..).mono rfl⟩
  | .propAlloc _ => ⟨_, rfl, (kept_propAlloc ..).step rfl ((kept_tableUpset ..).mono rfl)⟩
  | .propFree => ⟨_, rfl, (kept_propFree ..).mono rfl⟩
  | .propPageIn => ⟨_, rfl, (kept_ringsAct _).step rfl ((kept_propPageIn _).mono rfl)⟩
  | .propPageOut => ⟨_, rfl, (kept_ringsAct _).step rfl ((kept_propPageOut _).mono rfl)⟩
  | .propMirror => ⟨_, rfl, (kept_propMirror ..).mono rfl⟩
  | .propLock => ⟨_, rfl, (kept_ringsAct _).step rfl ((kept_propLock _).mono rfl)⟩
  | .hintedPageInStart => ⟨_, rfl, (kept_hintStart ..).mono rfl⟩
  | .backstageResponse _ _ _ _ => ⟨_, rfl, (kept_bsAnswer ..).mono rfl⟩
  | .backstageTimeout _ _ => ⟨_, rfl, (Kept.refl _ _).ite ((kept_bsAnswer ..).mono rfl)⟩
  | .scrubRead _ _ => ⟨_, rfl, (kept_scrubRead ..).step rfl ((kept_leaveIdle _).mono rfl)⟩
  | .scrubPeriodEnd => ⟨_, rfl, (kept_scrubEnd ..).mono rfl⟩
  | .correctedWriteback _ => ⟨_, rfl, (kept_correctedBack ..).mono rfl⟩
  | .retirementMoveComplete _ => ⟨_, rfl, (kept_moveComplete ..).mono rfl⟩
  | .post _ _ _ _ _ => ⟨_, rfl, (kept_remoteIn ..).mono rfl⟩
  | .callHostPost _ => ⟨_, rfl, kept_hostWrite (fun _ => (kept_hostPost ..).mono rfl) rfl s _⟩
  | .callSet _ => ⟨_, rfl, kept_hostWrite (fun _ => (kept_callSet ..).mono rfl) rfl s _⟩
  | .callCcClear _ _ => ⟨_, rfl, kept_hostWrite (fun _ => (kept_ccClear ..).mono rfl) rfl s _⟩
  | .curtainArrival _ _ _ => ⟨_, rfl, kept_serveOp (fun _ => (kept_arrival ..).mono rfl) rfl s _⟩
  | .curtainRelease _ _ _ _ _ => ⟨_, rfl, kept_serveOp (fun _ => (kept_release ..).mono rfl) rfl s _⟩
  | .curtainWatchdog _ => ⟨_, rfl, (kept_watchdog ..).mono rfl⟩
  | .exchBucketSet => ⟨_, rfl, (kept_bucketSet ..).mono rfl⟩
  | .exchSend => ⟨_, rfl, (kept_exchSend ..).mono rfl⟩
  | .exchSettle => ⟨_, rfl, (kept_exchSettle ..).mono rfl⟩
  | .exchOpen => ⟨_, rfl, (kept_exchOpen ..).mono rfl⟩
  | .accumulate _ _ _ _ _ _ _ _ _ => ⟨_, rfl, kept_serveOp (fun _ => kept_sequenced
    (fun _ => (kept_accumulateOp ..).mono rfl) rfl ..) rfl s _⟩
  | .close _ _ _ _ _ _ _ _ _ => ⟨_, rfl, kept_serveOp (fun _ => kept_sequenced (fun _ => (kept_closeOp ..).mono rfl) rfl ..)
    rfl s _⟩
  | .skip _ _ _ _ _ _ => ⟨_, rfl, kept_serveOp (fun _ => kept_sequenced (fun _ => (kept_skipOp ..).mono rfl) rfl ..)
    rfl s _⟩
  | .notice _ _ _ _ => ⟨_, rfl, kept_syncIn (fun _ => (kept_noticeIn ..).mono rfl) rfl s ..⟩
  | .resend _ _ _ _ => ⟨_, rfl, kept_syncIn (fun _ => (kept_resendIn ..).mono rfl) rfl s ..⟩
  | .unable _ _ _ _ => ⟨_, rfl, kept_syncIn (fun _ => (kept_unableIn ..).mono rfl) rfl s ..⟩
  | .exchAck _ _ _ => ⟨_, rfl, kept_serveOp (fun _ => (kept_exchAckIn ..).mono rfl) rfl s _⟩
  | .exchNak _ _ _ => ⟨_, rfl, kept_serveOp (fun _ => (kept_nakIn ..).mono rfl) rfl s _⟩
  | .refused _ _ _ => ⟨_, rfl, kept_serveOp (fun _ => (kept_refusedIn ..).mono rfl) rfl s _⟩
  | .exchAckTimeout _ _ => ⟨_, rfl, ((kept_goBack ..).mono rfl).ite (Kept.refl _ _)⟩
  | .syncOpTimeout _ => ⟨_, rfl, ((kept_syncTimeout ..).mono rfl).ite (Kept.refl _ _)⟩
  | .replayClearSource _ => ⟨_, rfl, kept_hostWrite (fun _ => (kept_replayWrite ..).mono rfl) rfl s _⟩
  | .replayClearAll => ⟨_, rfl, kept_hostWrite (fun _ => (kept_replayWrite ..).mono rfl) rfl s _⟩
  | .flitAccept _ _ _ => ⟨_, rfl, (kept_flitAccept ..).mono rfl⟩
  | .linkAck _ _ _ => ⟨_, rfl, (kept_linkAck ..).mono rfl⟩
  | .linkNak _ _ _ => ⟨_, rfl, (kept_linkNak ..).mono rfl⟩
  | .replayTimeout _ _ => ⟨_, rfl, (kept_replayTimeout ..).mono rfl⟩
  | .handover _ _ _ => ⟨_, rfl, (kept_handover ..).mono rfl⟩
  | .hello _ _ => ⟨_, rfl, (kept_hello ..).mono rfl⟩
  | .verdict _ _ => ⟨_, rfl, (kept_verdict ..).mono rfl⟩
  | .fabPhyReady _ _ => ⟨_, rfl, (kept_phyReady ..).mono rfl⟩
  | .fabTrainDone _ _ => ⟨_, rfl, (kept_trainDone ..).mono rfl⟩
  | .fabTrainFail _ _ => ⟨_, rfl, ((kept_trainFails ..).mono rfl).ite (Kept.refl _ _)⟩
  | .trainTimeout _ _ => ⟨_, rfl, ((kept_trainFails ..).step rfl
    ((kept_restart ..).mono rfl)).ite (Kept.refl _ _)⟩
  | .fabPhyErr _ _ => ⟨_, rfl, (kept_phyErr ..).mono rfl⟩
  | .downPortRetry _ => ⟨_, rfl, (kept_downRetry ..).mono rfl⟩
  | .fabPortReset _ => ⟨_, rfl, kept_hostWrite (fun _ => (kept_portReset ..).mono rfl) rfl s _⟩
  | .fabPortCfgWrite _ _ => ⟨_, rfl, kept_hostWrite (fun _ => (kept_portCfgWrite ..).mono rfl) rfl s _⟩
  | .write _ _ _ _ => ⟨_, rfl, (kept_writeIn ..).mono rfl⟩
  | .read _ _ _ _ => ⟨_, rfl, (kept_readIn ..).mono rfl⟩
  | .readData _ _ _ _ => ⟨_, rfl, (kept_readDataIn ..).mono rfl⟩
  | .done _ _ _ => ⟨_, rfl, (kept_doneIn ..).mono rfl⟩
  | .unreachable _ _ _ => ⟨_, rfl, (kept_unreachableIn ..).mono rfl⟩
  | .remoteOpTimeout _ => ⟨_, rfl, (kept_ropTimeout ..).mono rfl⟩
  | .tableauFlit _ _ => ⟨_, rfl, (kept_tableauIn ..).mono rfl⟩
  | .tabTrigger _ => ⟨_, rfl, kept_hostWrite (fun _ => (kept_tabCmd ..).mono rfl) rfl s _⟩
  | .tabArm => ⟨_, rfl, kept_hostWrite (fun _ => (kept_tabCmd ..).mono rfl) rfl s _⟩
  | .thaw => ⟨_, rfl, kept_hostWrite (fun _ => (kept_tabCmd ..).mono rfl) rfl s _⟩
  | .pbkWriteUpdate => ⟨_, rfl, kept_hostWrite (fun _ => (kept_writerCtrl ..).mono rfl) rfl s _⟩
  | .pbkWriteRetired => ⟨_, rfl, kept_hostWrite (fun _ => (kept_writerCtrl ..).mono rfl) rfl s _⟩
  | .writerCounterStart => ⟨_, rfl, (kept_counterStart ..).mono rfl⟩
  | .writerTimeout => ⟨_, rfl, ((kept_finishRun ..).step rfl
    ((kept_restart ..).mono rfl)).ite (Kept.refl _ _)⟩
  | .flashOpDone => ⟨_, rfl, (kept_flashDone ..).mono rfl⟩
  | .nonceDraw _ => ⟨_, rfl, (kept_nonceRead ..).mono rfl⟩
  | .proofWrite _ => ⟨_, rfl, kept_hostWrite (fun _ => (kept_startProof ..).mono rfl) rfl s _⟩
  | .proofCheckDone => ⟨_, rfl, (kept_proofDone ..).mono rfl⟩
  | .doorLockEnd => ⟨_, rfl, (kept_unlockDoor ..).mono rfl⟩
  | .sesClose _ => ⟨_, rfl, kept_hostWrite (fun _ => (kept_closeWrite ..).mono rfl) rfl s _⟩
  | .sessionIdleTimeout => ⟨_, rfl, (kept_idleClose ..).mono rfl⟩
  | .softReset _ => ⟨_, rfl, kept_hostWrite (fun _ => (kept_softReset ..).mono rfl) rfl s _⟩
  | .softResetDone => ⟨_, rfl, (kept_ringsAct _).step rfl ((kept_softResetDone _).mono rfl)⟩
  | .idleEntry => ⟨_, rfl, (kept_idleEntry ..).mono rfl⟩
  | .drowseRequest => ⟨_, rfl, kept_hostWrite (fun _ => (kept_drowseRequest ..).mono rfl) rfl s _⟩
  | .drowseEntry => ⟨_, rfl, (kept_drowseEntry ..).mono rfl⟩
  | .drowseEntryTimeout => ⟨_, rfl, (kept_drowseTimeout ..).mono rfl⟩
  | .wake _ => ⟨_, rfl, kept_hostWrite (fun _ => (kept_wake ..).mono rfl) rfl s _⟩
  | .wakingComplete => ⟨_, rfl, (kept_wakingComplete ..).mono rfl⟩
  | .pwrVreqWrite _ => ⟨_, rfl, kept_hostWrite (fun _ => (kept_vreqWrite ..).mono rfl) rfl s _⟩
  | .powerEstimate _ _ _ _ _ => ⟨_, rfl, (kept_powerEstimate ..).mono rfl⟩
  | .paceWindow _ => ⟨_, rfl, (kept_paceWindow ..).mono rfl⟩
  | .rampAllowance => ⟨_, rfl, (kept_rampAllowance ..).mono rfl⟩

/-- Settles O3, by the frames of the commands' meanings. -/
theorem everyCommandFrame : Obligations.EveryCommandFrame := fun c s =>
  let ⟨_, hexec, hkept⟩ := kept_exec c s
  Ends.of hexec rfl hkept.but

/-- Settles O6: a tick keeps the canonical forms, and so do a command's meaning and what follows it. -/
theorem safeKept : Obligations.SafeKept := by
  intro s t hsafe hstep
  unfold step at hstep
  split at hstep
  · cases hstep
    exact (kept_tickOnce s).safe hsafe
  · rename_i c rest _
    obtain ⟨u, hexec, hkept⟩ := kept_exec c { s with pending := rest }
    cases hexec.symm.trans hstep
    exact (kept_settle u).safe (hkept.safe hsafe)

/-! What follows a command. -/

/-- Without a CALL_ROUTINE in progress no routine can end (R308). -/
theorem State.routineDone_of_none {s : State} (h : ∀ f ∈ s.flights, f.q.cue.opcode = 4 → f.stage ≠ .started) :
    s.routineDone = s := by
  refine congrArg (fun l => { s with flights := l }) ((List.map_congr_left fun f hf => ?_).trans (List.map_id _))
  exact if_neg fun ⟨hop, hst, _⟩ => h f hf hop hst

theorem State.retireProgress_of_nil {s : State} (h : s.prop.marked = []) : s.retireProgress = s := by
  unfold State.retireProgress
  rw [h]
  rfl

theorem State.fatalHold_of_clear {s : State} (h : s.fatal = false) : s.fatalHold = s := if_neg (by simp [h])

theorem State.takeTriggers_of_nil {s : State} (h : s.trig = []) : s.takeTriggers = s := by
  unfold State.takeTriggers
  rw [h]

/-- The watches of R341 set bits of CALL_WATCH_STATUS. -/
theorem Only.watches (s : State) : Only [] [R.callWatchStatus] s s.watches := by
  have hfold (l : List Nat) (t : State) (h : Only [] [R.callWatchStatus] s t) : Only [] [R.callWatchStatus] s
      (l.foldl (fun s i =>
        let w := s.reg (R.callWatch i)
        if bit w 0 ∧ fieldN w 1 7 < 80 ∧ fieldN w 8 20 ≤ (s.cnt (fieldN w 1 7)).toNat then
          s.setB R.callWatchStatus i true else s) t) := by
    induction l generalizing t with
    | nil => exact h
    | cons i l ih =>
      refine ih _ ?_
      dsimp only
      split
      · exact h.setB (by simp)
      · exact h
  exact hfold _ s (Only.refl _ _ s)

/-- The claim of O4 about a quiet state: each thing that could follow finds nothing to do. -/
theorem settleQuiet_claim : Sys2Proof.Claims.SettleQuiet := by
  intro s htrig hmarked hfatal hcalls
  have hwatch : KeptBut [.callR] s s.watches := (kept_watches s).but
  have hclear : s.watches.fatal = false := by
    unfold State.fatal State.regB
    rw [Field.same_of_ofReg hwatch _ (by decide)]
    exact hfatal
  unfold State.settle
  rw [State.routineDone_of_none hcalls, State.retireProgress_of_nil hmarked, State.fatalHold_of_clear hclear,
    State.takeTriggers_of_nil ((hwatch.same .trig (by decide)).trans htrig)]
  exact Only.watches s

/-- Settles O4. -/
theorem afterCommands : Obligations.AfterCommands := ⟨fun s => (kept_settle s).but, settleQuiet_claim⟩

/-- Settles O1, by the definition of a step. -/
theorem stepRunsFront : Obligations.StepRunsFront := fun s c rest h => by
  unfold step
  rw [h]

/-- Whatever triggers wait, the tableau leaves none (R515). -/
theorem State.trig_takeTriggers (s : State) : s.takeTriggers.trig = [] := by
  unfold State.takeTriggers
  split
  · assumption
  · dsimp only
    split
    · exact (kept_capture _ _).but.same .trig (by decide)
    · rfl

/-- No command's own meaning touches the queue or the build. -/
theorem pending_build_not_changed (c : Instr) : Field.pending ∉ c.changes ∧ Field.build ∉ c.changes := by
  have h : c.changes.contains .pending = false ∧ c.changes.contains .build = false := by cases c <;> exact ⟨rfl, rfl⟩
  simpa using h

/-- A tick waits for no command and brings none. -/
theorem State.pending_tickOnce (s : State) : s.tickOnce.pending = s.pending := (kept_tickOnce s).but.same .pending (by decide)

/-- Settles O5: a command's meaning and what follows it leave the queue's rest, and the tableau takes every trigger last. -/
theorem queueOrder : Obligations.QueueOrder := by
  refine ⟨fun s t hstep => ?_, fun c s t hexec => ?_⟩
  · unfold step at hstep
    split at hstep
    · rename_i hnil
      cases hstep
      exact ⟨by rw [State.pending_tickOnce, hnil]; rfl, (kept_tickOnce s).but.same .build (by decide)⟩
    · rename_i c rest hcons
      obtain ⟨u, hu, hkept⟩ := kept_exec c { s with pending := rest }
      obtain ⟨hqueue, hbuild⟩ := pending_build_not_changed c
      cases hu.symm.trans hstep
      have hsettle := (kept_settle u).but
      rw [hcons]
      exact ⟨(hsettle.same .pending (by decide)).trans (hkept.but.same .pending hqueue),
        (hsettle.same .build (by decide)).trans (hkept.but.same .build hbuild)⟩
  · obtain ⟨u, hu, -⟩ := kept_exec c s
    cases hu.symm.trans hexec
    exact State.trig_takeTriggers _

/-- The tick count rises by one with every tick that passes (R454). -/
theorem State.tick_tickOnce {s : State} (hphase : s.phase ≠ .off) (hclock : s.tickLost = false) :
    s.tickOnce.tick = s.tick + 1 := by
  unfold State.tickOnce
  rw [if_neg (by simp [hphase, hclock])]
  extract_lets p t w
  have ht : t.tick = s.tick + 1 := rfl
  have hw : w.tick = t.tick := (kept_tickSession t).but.same .tick (by decide)
  have hu : w.tickUp.settle.tick = t.tick :=
    ((kept_settle _).but.same .tick (by decide)).trans (((kept_tickUp w).but.same .tick (by decide)).trans hw)
  split
  · exact ht
  · split
    · exact hu.trans ht
    · exact hw.trans ht

/-- Settles O2, by the frame of a tick. -/
theorem idleTick : Obligations.IdleTick := by
  intro s hnil
  refine ⟨s.tickOnce, by unfold step; rw [hnil], (State.pending_tickOnce s).trans hnil, fun hstop => ?_, fun hphase hclock =>
    ⟨State.tick_tickOnce hphase hclock, (kept_tickOnce s).but⟩⟩
  exact if_pos hstop

/-- Settles O7: the register file of the reset state lists nothing, so each register reads its row's reset value. -/
theorem resetState : Obligations.ResetState :=
  ⟨rfl, fun _ => rfl, rfl, rfl, rfl, rfl, rfl, rfl, rfl, rfl, rfl, fun l => by cases l <;> exact ⟨rfl, rfl, rfl⟩, fun _ => rfl⟩

end Sys2Proof.Machine
end

section
/-! SUPPORT. Order-free sums (R42, R43). -/

namespace Sys2Proof.Machine

theorem Acc.add_comm (a b : Acc) : a.add b = b.add a := by
  simp only [Acc.add, Int.add_comm, Bool.or_comm]

theorem Acc.add_assoc (a b c : Acc) : (a.add b).add c = a.add (b.add c) := by
  simp only [Acc.add, Int.add_assoc, Bool.or_assoc]

theorem Acc.add_right_comm (a b c : Acc) : (a.add b).add c = (a.add c).add b := by
  rw [Acc.add_assoc, Acc.add_comm b, Acc.add_assoc]

/-- Adding a term joins the accumulator that holds that term alone. -/
theorem Acc.addTerm_eq_add (a : Acc) (q : Int) (x : Num) : a.addTerm q x = a.add (Acc.zero.addTerm q x) := by
  match x with
  | .nan | .inf true | .inf false | .fin _ _ _ => simp [Acc.addTerm, Acc.add, Acc.zero]

/-- Settles O32: the accumulators form a commutative monoid, and every sum is a fold of their addition. -/
theorem orderFree : Obligations.OrderFree := by
  refine ⟨fun op e l m h => ?_, fun a b c => ⟨a.add_comm b, a.add_assoc b c⟩, fun e a x y => ?_⟩
  · exact h.foldl_eq' (fun _ _ _ _ acc => acc.add_right_comm _ _) _
  · rw [Acc.addTerm_eq_add _ e y, Acc.addTerm_eq_add _ e x, Acc.add_right_comm, ← Acc.addTerm_eq_add, ← Acc.addTerm_eq_add]

end Sys2Proof.Machine
end

section
/-! SUPPORT. Power pins, the key port and the wait for a key (R453, R465, R488, R500). -/

namespace Sys2Proof.Machine

/-! Bits and fields of a register that two states share. -/

theorem State.regB_congr {s t : State} {o : Nat} (h : t.reg o = s.reg o) (i : Nat) : t.regB o i = s.regB o i := by
  rw [State.regB, h, State.regB]

theorem State.regF_congr {s t : State} {o : Nat} (h : t.reg o = s.reg o) (lo w : Nat) : t.regF o lo w = s.regF o lo w := by
  rw [State.regF, h, State.regF]

/-- A register outside the blocks that change. -/
theorem KeptBut.reg {m : List Field} {s t : State} (k : KeptBut m s t) {o : Nat} (h : m.contains (Field.ofReg o) = false) :
    t.reg o = s.reg o := Field.same_of_ofReg k o (by simpa using h)

/-! Registers that no write stores. -/

/-- The row of register `o`, where there is one, has no bit that a write changes. -/
def readOnly (o : Nat) : Bool := match regRow? o with
  | some r => r.rw == 0 && r.rwp == 0 && r.w1c == 0
  | none => true

theorem RegRow.written_of_readOnly {o : Nat} {r : RegRow} (h : readOnly o = true) (hr : regRow? o = some r) (sess : Bool)
    (old v : Word) : r.written sess old v = old := by
  have hrow : (r.rw = 0 ∧ r.rwp = 0) ∧ r.w1c = 0 := by simpa [readOnly, hr] using h
  obtain ⟨⟨hrw, hrwp⟩, hw1c⟩ := hrow
  refine BitVec.eq_of_getLsbD_eq fun i hi => ?_
  have hones : (4294967295#32).getLsbD i = true := (BitVec.getLsbD_allOnes (v := 32)).trans (decide_eq_true hi)
  simp [-BitVec.getLsbD_eq_getElem, RegRow.written, hrw, hrwp, hw1c, hones]

theorem State.reg_storeReg_readOnly {o : Nat} (h : readOnly o = true) (s : State) (sess : Bool) (off : Nat) (v : Word) :
    (s.storeReg sess off v).reg o = s.reg o := by
  unfold State.storeReg
  split
  · split
    · rw [State.reg_setReg]
      split
      · subst o
        exact RegRow.written_of_readOnly h ‹_› _ _ _
      · rfl
    · rfl
  · rfl

/-! Start-up and PBK_STATUS. -/

theorem readOnly_pbkStatus : readOnly R.pbkStatus = true := rfl

theorem State.pbkStatus_configWrite (s : State) (sess : Bool) (off : Nat) (v : Word) :
    (s.configWrite sess off v).reg R.pbkStatus = s.reg R.pbkStatus := by
  unfold State.configWrite
  split
  · rfl
  split
  · rfl
  split
  · exact (kept_vreqWrite s v).but.reg (by decide)
  split
  · rfl
  split
  · exact (State.reg_storeReg_readOnly readOnly_pbkStatus s sess off v :)
  · exact State.reg_storeReg_readOnly readOnly_pbkStatus s sess off v

/-- A fold keeps what each of its steps keeps. -/
theorem foldl_keeps {α β γ : Type} (g : α → γ) (f : α → β → α) (h : ∀ a b, g (f a b) = g a) (l : List β) (a : α) :
    g (l.foldl f a) = g a := by
  induction l generalizing a with
  | nil => rfl
  | cons b l ih => exact (ih _).trans (h a b)

theorem State.pbkStatus_applyRecord (s : State) (por : Bool) (img : List Byte) (r : BookRec) :
    (s.applyRecord por img r).reg R.pbkStatus = s.reg R.pbkStatus := by
  unfold State.applyRecord
  extract_lets p w t fab
  split
  · have ht : t.reg R.pbkStatus = s.reg R.pbkStatus := by
      unfold t
      split
      · exact State.reg_setReg_ne _ _ (by decide)
      · rfl
    split
    · exact (State.reg_setReg_ne _ _ (by decide)).trans ht
    · exact ht
  · refine foldl_keeps (fun t : State => t.reg R.pbkStatus) _ (fun t x => ?_) _ _
    obtain ⟨v, i⟩ := x
    dsimp only
    split
    · exact State.reg_storeReg_readOnly readOnly_pbkStatus _ _ _ _
    · rfl
  · rfl
  · refine foldl_keeps (fun t : State => t.reg R.pbkStatus) _ (fun t x => ?_) _ _
    obtain ⟨v, i⟩ := x
    dsimp only
    split
    · exact State.reg_storeReg_readOnly readOnly_pbkStatus _ _ _ _
    · rfl
  · split
    · exact (kept_retireListed _ _).but.reg (by decide)
    · rfl
  · split <;> rfl
  · rfl

/-- A prompt book does not write PBK_STATUS (R478). -/
theorem State.pbkStatus_applyBook (s : State) (por : Bool) (img : List Byte) :
    (s.applyBook por img).reg R.pbkStatus = s.reg R.pbkStatus := by
  unfold State.applyBook
  extract_lets l t
  refine (foldl_keeps (fun t : State => t.reg R.pbkStatus) _ (fun t x => ?_) _ _).trans
    (foldl_keeps (fun t : State => t.reg R.pbkStatus) _ (fun t r => ?_) _ _)
  · exact t.pbkStatus_configWrite true x.1 x.2
  · exact t.pbkStatus_applyRecord por img r

/-- The bits of a field's word outside the field are 0. -/
theorem getLsbD_fld_of_not_mem {lo w v i : Nat} (h : i < lo ∨ lo + w ≤ i) : (fld lo w v).getLsbD i = false := by
  unfold fld
  rw [BitVec.getLsbD_ofNat, Nat.testBit_shiftLeft, Nat.testBit_mod_two_pow]
  rcases h with h | h
  · simp [show ¬lo ≤ i by omega]
  · simp [show ¬i - lo < w by omega]

theorem State.fresh_reg (s : State) (o : Nat) : s.fresh.2.reg o = s.reg o := rfl

/-- The result of start-up step 4 keeps KEY_ABSENT and KEY_ZERO. -/
theorem State.pbkStatus_noteBook (s : State) (win : Option Bool) (tried : List (Bool × Nat)) {i : Nat} (h : i = 12 ∨ i = 13) :
    (s.noteBook win tried).regB R.pbkStatus i = s.regB R.pbkStatus i := by
  unfold State.noteBook
  extract_lets f src k t0 t1 t2 t3
  have h1 : t1.regB R.pbkStatus i = s.regB R.pbkStatus i := by
    unfold t1 State.regB
    rw [State.reg_setReg_self]
    rcases h with rfl | rfl <;>
      simp [-BitVec.getLsbD_eq_getElem, bit, bfld, getLsbD_fld_of_not_mem, t0, k, State.fresh_reg]
  have h3 : t3.reg R.pbkStatus = t1.reg R.pbkStatus :=
    (State.reg_setReg_ne t2 _ (by decide)).trans (State.reg_setReg_ne t1 _ (by decide))
  refine (State.regB_congr ?_ i).trans h1
  split
  · exact ((State.reg_setReg_ne _ _ (by decide)).trans ((State.reg_setReg_ne _ _ (by decide)).trans
      (State.reg_setReg_ne _ _ (by decide)))).trans h3
  · exact h3

/-- Start-up keeps KEY_ABSENT and KEY_ZERO. -/
theorem State.pbkStatus_startUp (s : State) (por : Bool) {i : Nat} (h : i = 12 ∨ i = 13) :
    (s.startUp por).regB R.pbkStatus i = s.regB R.pbkStatus i := by
  have hload : (s.loadBook por).2.regB R.pbkStatus i = s.regB R.pbkStatus i := by
    unfold State.loadBook
    extract_lets t r u
    have ht : t.regB R.pbkStatus i = s.regB R.pbkStatus i :=
      State.regB_congr ((kept_discover s).but.reg (by decide)) i
    have hu : u.regB R.pbkStatus i = s.regB R.pbkStatus i := (t.pbkStatus_noteBook _ _ h).trans ht
    split
    · dsimp only
      exact (State.regB_congr (State.pbkStatus_applyBook u por _) i).trans hu
    · exact (State.regB_congr ((kept_houseDefaults u).but.reg (by decide)) i).trans hu
  have hrest : Kept [.phase, .lines, .flights, .queues, .trackers, .mem, .prop, .fab, .arr, .cho, .gangs, .fly, .outs, .ctlR,
      .lineR, .callR, .tabR] (s.loadBook por).2 (s.startUp por) :=
    (kept_bringUpAll _).step (by decide) (Kept.fold _ (fun u (x : Line × Word) => (kept_ringWrite u x.1 x.2).mono (by decide))
      (((kept_clearMemory _).mono (by decide)).ite (Kept.refl _ _)))
  exact (State.regB_congr (hrest.but.reg (by decide)) i).trans hload

/-! Power pins. -/

/-- The core with power off holds the reset values of its build (R453, R500). -/
theorem State.reg_powerOff (s : State) (o : Nat) : s.powerOff.reg o = regReset s.build o := rfl

/-- The claim of O8 about `pwr_ok`. -/
theorem powerPins_claim : Sys2Proof.Claims.PowerPins := by
  intro s
  have hreqs := (kept_dropTrainReqs s).but
  refine ⟨fun hoff => Ends.of rfl (if_pos hoff) ⟨rfl, rfl, ?_⟩, Ends.of rfl rfl ⟨rfl, ?_, fun o => ?_, rfl, rfl, rfl, rfl,
    hreqs.same .flash (by decide), hreqs.same .build (by decide), hreqs.same .pending (by decide)⟩⟩
  · exact Only.ofKept (l := [.phase, .pins]) (KeptBut.upd (KeptBut.refl _ s)) (by decide) (by decide)
  · show ({ State.reset.pins with pwrOk := false, blkRstN := s.dropTrainReqs.pins.blkRstN } : Pins) = _
    rw [hreqs.same .pins (by decide)]
  · rw [State.pwrFall, State.reg_powerOff, hreqs.same .build (by decide)]

/-! The key. -/

/-- A start-up after a key was latched leaves the key latched and acknowledged (R465). -/
theorem State.latchKey_startUp (s : State) (k : BitVec 256) :
    ((s.latchKey k).startUp true).secret =
        { s.secret with key := if s.regB R.pbkStatus 13 then 0 else k, latched := true, waiting := none } ∧
      ((s.latchKey k).startUp true).pins = { s.pins with keyAck := true } :=
  ⟨(kept_startUp (s.latchKey k) true).but.same .secret (by decide), (kept_startUp (s.latchKey k) true).but.same .pins (by decide)⟩

theorem State.keyTimeout_of_early {s : State} (h : s.phase ≠ .keyWait ∨ s.age .key < 2 ^ 20) : s.keyTimeout = s :=
  if_neg fun ⟨hphase, hage⟩ => h.elim (· hphase) (Nat.not_lt.2 hage)

/-- With no key in time the core starts with the key zero and says so (R465). -/
theorem State.keyTimeout_of_late {s : State} (hphase : s.phase = .keyWait) (hage : 2 ^ 20 ≤ s.age .key) :
    s.keyTimeout.secret = { s.secret with key := 0 } ∧ s.keyTimeout.pins = s.pins ∧ s.keyTimeout.regB R.pbkStatus 12 = true ∧
      s.keyTimeout.regB R.pbkStatus 13 = true := by
  have hstart : s.keyTimeout = ((s.setKey 0).setB R.pbkStatus 12 true).startUp true := if_pos ⟨hphase, hage⟩
  have hkept := (kept_startUp ((s.setKey 0).setB R.pbkStatus 12 true) true).but
  rw [hstart]
  refine ⟨hkept.same .secret (by decide), hkept.same .pins (by decide), ?_, ?_⟩
  · rw [State.pbkStatus_startUp _ _ (.inl rfl), State.regB_setB _ _ _ _ _ (by decide), if_pos rfl]
  · rw [State.pbkStatus_startUp _ _ (.inr rfl), State.regB_setB _ _ _ _ _ (by decide), if_neg (by decide), State.setKey]
    dsimp only
    rw [State.regB, State.reg_setB_ne _ _ _ (by decide), ← State.regB, State.regB_setB _ _ _ _ _ (by decide), if_pos rfl]
    rfl

/-- The claim of O8 about the key port, by the phase that the core is in. -/
theorem keyPort_claim : Sys2Proof.Claims.KeyPort := by
  intro s k
  refine ⟨fun hp hw => Ends.of rfl rfl ?_, fun hp hw => Ends.of rfl rfl ?_, fun hp => Ends.of rfl rfl ?_,
    fun hp => Ends.of rfl rfl ?_, fun hp => Ends.of rfl rfl ?_, fun h => Ends.of rfl (State.keyTimeout_of_early h) rfl,
    fun hp h => Ends.of rfl rfl (State.keyTimeout_of_late hp h)⟩
  · rw [State.porEnd, if_neg (by simp [hp]), hw]
    exact ⟨rfl, Only.ofKept (l := [.phase]) (KeptBut.upd (KeptBut.refl _ s)) (by decide) (by decide)⟩
  · rw [State.porEnd, if_neg (by simp [hp]), hw]
    exact s.latchKey_startUp k
  · rw [State.keyReq, hp]
    exact s.latchKey_startUp k
  · have hwait : s.keyReq k = { s with secret := { s.secret with waiting := some k } } := by
      rcases hp with hp | hp <;> rw [State.keyReq, hp]
    rw [hwait]
    exact ⟨rfl, Only.ofKept (l := [.secret]) (KeptBut.upd (KeptBut.refl _ s)) (by decide) (by decide)⟩
  · rcases hp with hp | hp | hp <;> rw [State.keyReq, hp]

/-- Settles O8. -/
theorem powerAndKey : Obligations.PowerAndKey := ⟨powerPins_claim, keyPort_claim⟩

end Sys2Proof.Machine
end

section
/-! SUPPORT. Registers after writes of other registers, of other fields and of other bits: the rules by which `simp` runs a chain
of register writes. Their side conditions are facts about numerals. -/

namespace Sys2Proof.Machine

section
variable (s : State) {o p : Nat}

theorem State.regB_setReg_ne (v : Word) (i : Nat) (h : p ≠ o) : (s.setReg o v).regB p i = s.regB p i :=
  State.regB_congr (State.reg_setReg_ne s v h) i

theorem State.regB_setReg_self (v : Word) (i : Nat) : (s.setReg o v).regB o i = bit v i := by
  rw [State.regB, State.reg_setReg_self]

theorem State.regF_setReg_ne (v : Word) (lo w : Nat) (h : p ≠ o) : (s.setReg o v).regF p lo w = s.regF p lo w :=
  State.regF_congr (State.reg_setReg_ne s v h) lo w

theorem State.regF_setReg_self (v : Word) (lo w : Nat) : (s.setReg o v).regF o lo w = fieldN v lo w := by
  rw [State.regF, State.reg_setReg_self]

theorem State.regB_setF_ne (lo w v i : Nat) (h : p ≠ o) : (s.setF o lo w v).regB p i = s.regB p i :=
  State.regB_congr (State.reg_setF_ne s lo w v h) i

theorem State.regB_setB_ne (i : Nat) (b : Bool) (j : Nat) (h : p ≠ o) : (s.setB o i b).regB p j = s.regB p j :=
  State.regB_congr (State.reg_setB_ne s i b h) j

theorem State.regF_setF_other (lo w v lo' w' : Nat) (h : p ≠ o) : (s.setF o lo w v).regF p lo' w' = s.regF p lo' w' :=
  State.regF_congr (State.reg_setF_ne s lo w v h) lo' w'

theorem State.regF_setB_other (i : Nat) (b : Bool) (lo w : Nat) (h : p ≠ o) : (s.setB o i b).regF p lo w = s.regF p lo w :=
  State.regF_congr (State.reg_setB_ne s i b h) lo w

/-- A bit outside the field written. -/
theorem State.regB_setF_out (o lo w v i : Nat) (h : i < 32) (d : i < lo ∨ lo + w ≤ i) :
    (s.setF o lo w v).regB o i = s.regB o i := by
  rw [State.regB_setF _ _ _ _ _ _ h, if_neg (by omega)]

theorem State.regB_setB_self (o i : Nat) (b : Bool) (h : i < 32) : (s.setB o i b).regB o i = b := by
  rw [State.regB_setB _ _ _ _ _ h, if_pos rfl]

theorem State.regB_setB_out (o i j : Nat) (b : Bool) (h : j < 32) (d : j ≠ i) : (s.setB o i b).regB o j = s.regB o j := by
  rw [State.regB_setB _ _ _ _ _ h, if_neg d]

theorem State.regF_setB_out (o i : Nat) (b : Bool) (lo w : Nat) (d : lo + w ≤ i ∨ i + 1 ≤ lo) (h : lo + w ≤ 32) :
    (s.setB o i b).regF o lo w = s.regF o lo w := State.regF_setF_ne s o i 1 _ lo w d h

end

theorem Only.mono {fs gs : List Field} {rs qs : List Nat} {s t : State} (h : Only fs rs s t)
    (hf : (fs.all fun f => gs.contains f) = true) (hr : ∀ o ∈ rs, o ∈ qs) : Only gs qs s t :=
  (Only.refl gs qs s).trans ⟨h.fields.mono (by
    simp only [List.all_eq_true, List.contains_iff_mem, List.mem_append] at hf ⊢
    exact fun f hm => hm.imp (hf f) id), fun o ho => h.regs o fun hm => ho (hr o hm)⟩

end Sys2Proof.Machine
end

section
/-! SUPPORT. Pins (R454, R457, R541), the test wrapper (R467) and stage-door sessions (R484 to R487). -/

namespace Sys2Proof.Machine

/-! Tick loss, the tableau pins and the interrupt pin. -/

theorem State.running_of_phase {s : State} (h : s.phase = .keyWait ∨ s.phase = .bringUp ∨ s.phase = .up) :
    s.running = true := by
  unfold State.running
  rcases h with h | h | h <;> rw [h]

/-- Loss of `ref_tick` is core fatal and stays shown until the tick returns (R454). -/
theorem State.loseTick_spec {s : State} (hrun : s.running = true) (hclock : s.regB R.ctlStatus 1 = false) :
    s.loseTick.regB R.ctlStatus 1 = true ∧ s.loseTick.fatal = true ∧
      ∀ l, (s.line l).enabled = true → (s.line l).resetting = false → (s.loseTick.line l).halted = true := by
  have hlose : s.loseTick = (s.setB R.ctlStatus 1 true).coreFault (FaultRec.plain 5 unitAon Code.tickLost.num 0 0) :=
    if_neg (by simp [hrun, State.tickLost, hclock])
  rw [hlose]
  obtain ⟨hfatal, hhalts⟩ := State.coreFault_spec (s.setB R.ctlStatus 1 true) (FaultRec.plain 5 unitAon Code.tickLost.num 0 0) rfl
  refine ⟨?_, hfatal, hhalts⟩
  rw [State.regB_congr (State.reg_coreFault _ _ _ (by decide) (by decide)), State.regB_setB_self _ _ _ _ (by decide)]

/-- The claim of O10 about `ref_tick`, `tab_in` and `tab_out`. -/
theorem tickAndTableauPins_claim : Sys2Proof.Claims.TickAndTableauPins := by
  intro s n
  refine ⟨fun hphase hclock => Ends.of rfl rfl (State.loseTick_spec (State.running_of_phase hphase) hclock),
    Ends.of rfl rfl ⟨State.regB_setB_self _ _ _ _ (by decide), (Only.refl _ _ s).setB (by simp)⟩,
    fun hn hready hen => Ends.of rfl (if_pos ⟨hn, hready, hen⟩) ⟨rfl, ?_⟩,
    fun h => Ends.of rfl (if_neg ?_) rfl, Ends.of rfl rfl ⟨rfl, ?_⟩⟩
  · exact Only.ofKept (kept_trigger s _ _).but (by decide) (by decide)
  · rintro ⟨hn, hready, -⟩
    exact h.elim (fun hlt => absurd hn (by omega)) (fun hr => by simp [hr] at hready)
  · exact Only.ofKept (l := [.pins]) (KeptBut.upd (KeptBut.refl _ s)) (by decide) (by decide)

theorem State.liveReg_ctlIrqPend (s : State) : s.liveReg R.ctlIrqPend = s.ctlWord R.ctlIrqPend := rfl

/-- A word is not 0 just when one of its bits is set. -/
theorem beq_zero_eq_false_iff (x : Word) : (x == 0) = false ↔ ∃ i, bit x i = true := by
  rw [beq_eq_false_iff_ne, ne_eq, ← not_iff_not, not_not, not_exists]
  constructor
  · rintro rfl i
    simp [bit]
  · intro h
    exact BitVec.eq_of_getLsbD_eq fun i _ => by simpa [bit] using h i

/-- The claim of O10 about `irq_n`. -/
theorem interruptPin_claim : Sys2Proof.Claims.InterruptPin := by
  intro s hphase
  have hsample : s.irqSample =
      { s with pins := { s.pins with irqN := (s.ctlWord R.ctlIrqPend &&& s.reg R.ctlIrqEnable) == 0 } } :=
    if_pos (State.running_of_phase hphase)
  refine Ends.of rfl hsample ⟨Only.ofKept (l := [.pins]) (KeptBut.upd (KeptBut.refl _ s)) (by decide) (by decide), rfl, ?_⟩
  rw [State.liveReg_ctlIrqPend]
  simpa [bit] using beq_zero_eq_false_iff (s.ctlWord R.ctlIrqPend &&& s.reg R.ctlIrqEnable)

/-- Settles O10. -/
theorem boundaryPins : Obligations.BoundaryPins := ⟨tickAndTableauPins_claim, interruptPin_claim⟩

/-! The test wrapper. -/

theorem Only.closeSession {fs : List Field} {rs : List Nat} {s t : State} (h : Only fs rs s t)
    (m : ([R.sesStatus, R.sesOpenId, R.sesIdleTicks].all fun r => rs.contains r) = true) : Only fs rs s t.closeSession := by
  simp only [List.all_eq_true, List.contains_iff_mem] at m
  exact ((h.setB (m _ (by simp))).setReg (m _ (by simp))).setReg (m _ (by simp))

theorem State.session_closeSession (s : State) : s.closeSession.session = false := by
  unfold State.session State.closeSession
  rw [State.regB_setReg_ne _ _ _ (by decide), State.regB_setReg_ne _ _ _ (by decide), State.regB_setB_self _ _ _ _ (by decide)]

theorem State.regB_pbkStatus_closeSession (s : State) (i : Nat) : s.closeSession.regB R.pbkStatus i = s.regB R.pbkStatus i :=
  State.regB_congr (by
    unfold State.closeSession
    rw [State.reg_setReg_ne _ _ (by decide), State.reg_setReg_ne _ _ (by decide), State.reg_setB_ne _ _ _ (by decide)]) i

theorem State.keyZero_setKey (s : State) (k : BitVec 256) : (s.setKey k).regB R.pbkStatus 13 = (k == 0) := by
  unfold State.setKey
  dsimp only
  rw [State.regB_setB_ne _ _ _ _ (by decide), State.regB_setB_self _ _ _ _ (by decide)]

theorem Only.setKey {fs : List Field} {rs : List Nat} {s t : State} (h : Only fs rs s t) (k : BitVec 256)
    (hf : Field.secret ∈ fs) (m : ([R.pbkStatus, R.sesStatus].all fun r => rs.contains r) = true) :
    Only fs rs s (t.setKey k) := by
  simp only [List.all_eq_true, List.contains_iff_mem] at m
  have hkey : Only fs rs s { t with secret := { t.secret with key := k } } :=
    h.kept (l := [.secret]) (KeptBut.upd (KeptBut.refl _ t)) (by simpa using hf) (by decide)
  exact (hkey.setB (m _ (by simp))).setB (m _ (by simp))

/-- What every instruction of the wrapper but WS_BYPASS brings about, said of the state `u` it leaves (R467). -/
def State.zeroedBy (s : State) (k : BitVec 4) (u : State) : Prop :=
  u.secret.key = 0 ∧ u.regB R.pbkStatus 13 = true ∧ u.regB R.sesStatus 0 = false ∧ u.pins.wsInstr = k ∧
    Only [.pins, .secret, .mem, .outs, .freeCtr] [R.pbkStatus, R.sesStatus, R.sesOpenId, R.sesIdleTicks] s u

/-- Loading an instruction zeroes the key and closes the session. -/
theorem State.zeroedBy_wrapperLoad {s : State} (h : s.phase ≠ .off) (k : BitVec 4) : s.zeroedBy k (s.wrapperLoad k false) := by
  have hload : s.wrapperLoad k false = State.zeroKey { s with pins := { s.pins with wsInstr := k } } := if_neg h
  rw [hload]
  refine ⟨rfl, ?_, State.session_closeSession _, rfl, ?_⟩
  · rw [State.zeroKey, State.regB_pbkStatus_closeSession, State.keyZero_setKey]
    rfl
  · have hpins : Only [.pins, .secret, .mem, .outs, .freeCtr] [R.pbkStatus, R.sesStatus, R.sesOpenId, R.sesIdleTicks] s
        { s with pins := { s.pins with wsInstr := k } } :=
      Only.ofKept (l := [.pins]) (KeptBut.upd (KeptBut.refl _ s)) (by decide) (by decide)
    exact (hpins.setKey 0 (by decide) (by decide)).closeSession (by decide)

/-- What the wrapper shifts out changes no register, no key and no instruction. -/
theorem State.zeroedBy_wrapperRun {s : State} (h : s.phase ≠ .off) (k : BitVec 4) : s.zeroedBy k (s.wrapperRun k) := by
  have hrun : s.wrapperRun k = (s.wrapperLoad k false).wrapperShift := if_neg h
  obtain ⟨hkey, hzero, hses, hinstr, honly⟩ := State.zeroedBy_wrapperLoad h k
  rw [hrun]
  exact ⟨hkey, hzero, hses, hinstr, honly.kept (kept_wrapperShift _).but (by decide) (by decide)⟩

/-- The state of a self-test: the next epoch of memory contents. -/
theorem State.selfTest_eq {s : State} (h : s.phase ≠ .off) : s.selfTest =
    { (s.wrapperRun 5).fresh.2 with mem := { (s.wrapperRun 5).mem with
      epoch := (s.wrapperRun 5).freeCtr + 1, cells := [], flaws := [], wq := [], corr := [] } } := if_neg h

theorem State.zeroedBy_selfTest {s : State} (h : s.phase ≠ .off) : s.zeroedBy 5 s.selfTest := by
  obtain ⟨hkey, hzero, hses, hinstr, honly⟩ := State.zeroedBy_wrapperRun h 5
  rw [State.selfTest_eq h]
  exact ⟨hkey, hzero, hses, hinstr,
    honly.kept (l := [.mem, .freeCtr]) (KeptBut.upd (KeptBut.upd (KeptBut.refl _ _))) (by decide) (by decide)⟩

theorem State.mem_wrapperRun (s : State) (k : BitVec 4) : (s.wrapperRun k).mem = s.mem :=
  (kept_wrapperRun s k).but.same .mem (by decide)

/-- A scan shifts only while `blk_rst_n` is low; its load zeroes the key in any case. -/
theorem State.zeroedBy_scan {s : State} (h : s.phase ≠ .off) :
    s.zeroedBy 4 (if s.pins.blkRstN then s.wrapperLoad 4 false else s.wrapperRun 4) := by
  split
  · exact State.zeroedBy_wrapperLoad h 4
  · exact State.zeroedBy_wrapperRun h 4

/-- Memory that lists no byte after a self-test reads the free values of its epoch. -/
theorem Mem.byte_of_undefined {m : Mem} (hcells : m.cells = []) (hepoch : m.epoch ≠ 0) (a : Nat) :
    m.byte a = Config.freeByte m.epoch a := by
  rw [Mem.byte, hcells, NMap.get_nil, Mem.base, if_neg (by simp [hepoch])]

/-- Settles O11, by the instructions one by one. -/
theorem wrapper : Obligations.Wrapper := by
  intro s h
  refine ⟨fun k h1 h2 h4 h5 => Ends.of rfl rfl ?_, fun c k hc => ?_, fun c hc => ?_, Ends.of rfl rfl ?_⟩
  · rw [if_neg (by simpa using ⟨h1, h2, h4, h5⟩), State.wrapperLoad, if_neg h]
    exact ⟨rfl, Only.ofKept (l := [.pins]) (KeptBut.upd (KeptBut.refl _ s)) (by decide) (by decide)⟩
  · simp only [List.mem_cons, Prod.mk.injEq, List.not_mem_nil, or_false] at hc
    rcases hc with ⟨rfl, rfl⟩ | ⟨rfl, rfl⟩ | ⟨rfl, rfl⟩ | ⟨rfl, rfl⟩
    · exact Ends.of rfl rfl (State.zeroedBy_wrapperRun h 1)
    · exact Ends.of rfl rfl (State.zeroedBy_wrapperRun h 2)
    · exact Ends.of rfl rfl (State.zeroedBy_scan h)
    · exact Ends.of rfl rfl (State.zeroedBy_selfTest h)
  · simp only [List.mem_cons, List.not_mem_nil, or_false] at hc
    rcases hc with rfl | rfl | rfl
    · exact Ends.of rfl rfl (s.mem_wrapperRun 1)
    · exact Ends.of rfl rfl (s.mem_wrapperRun 2)
    · refine Ends.of rfl rfl ?_
      split
      · exact (kept_wrapperLoad s 4 false).but.same .mem (by decide)
      · exact s.mem_wrapperRun 4
  · rw [State.selfTest_eq h]
    exact ⟨Nat.succ_ne_zero _, Mem.byte_of_undefined rfl (Nat.succ_ne_zero _)⟩

/-! Stage-door sessions. -/

theorem State.secret_hostTouch (s : State) : s.hostTouch.secret = s.secret := rfl

theorem State.locked_hostTouch (s : State) : s.hostTouch.locked = s.locked :=
  State.regB_congr (State.hostTouch_reg_ne s (by decide)) 1

theorem State.proofBusy_hostTouch (s : State) : s.hostTouch.proofBusy = s.proofBusy :=
  State.regB_congr (State.hostTouch_reg_ne s (by decide)) 5

/-- What a read of SES_NONCE0 answers (R484). -/
theorem State.readReg_sesNonce_zero (s : State) : s.readReg (R.sesNonce 0) =
    if s.secret.latched ∧ s.secret.nonceOk ∧ s.locked = false then s.secret.nonce.setWidth 32 else 0 := by
  have hlive : s.liveReg (R.sesNonce 0) = s.sesWord (R.sesNonce 0) := by
    unfold State.liveReg
    iterate 17 rw [if_neg (by decide)]
    rw [if_pos (by decide)]
  have hword : s.sesWord (R.sesNonce 0) =
      if s.secret.latched ∧ s.secret.nonceOk ∧ s.locked = false then wordOf s.secret.nonce 0 else 0 := if_pos (by decide)
  rw [State.readReg, show latchLo (R.sesNonce 0) = none by decide]
  dsimp only
  rw [hlive, hword, wordOf, Nat.mul_zero, Nat.shiftRight_zero, BitVec.ofNat_toNat]

theorem State.nonceRead_ok {s : State} (h : s.serve (R.sesNonce 0) = .ok) (noise : BitVec 512) : s.nonceRead noise =
    (s.hostTouch.drawNonce noise).emit (.hostRsp ((s.hostTouch.drawNonce noise).readReg (R.sesNonce 0)) false) := by
  rw [State.nonceRead, h]

/-- The state with a fresh nonce. -/
def State.withNonce (s : State) (n : BitVec 256) : State :=
  { s with secret := { s.secret with nonce := n, nonceOk := true } }

theorem State.drawNonce_of_open {s : State} (hlatch : s.secret.latched = true) (hlock : s.locked = false) (noise : BitVec 512) :
    s.drawNonce noise = s.withNonce (BitVec.ofNat 256 (numOf (sha256 (bytesOf 64 noise.toNat)))) := by
  unfold State.drawNonce
  rw [if_pos ⟨hlatch, hlock⟩]
  rfl

theorem State.drawNonce_of_closed {s : State} (h : s.secret.latched = false ∨ s.locked = true) (noise : BitVec 512) :
    s.drawNonce noise = s := by
  unfold State.drawNonce
  rw [if_neg fun ⟨hlatch, hlock⟩ => by simp [hlatch, hlock] at h]

theorem State.readReg_withNonce {s : State} (hlatch : s.secret.latched = true) (hlock : s.locked = false) (n : BitVec 256) :
    (s.withNonce n).readReg (R.sesNonce 0) = n.setWidth 32 := by
  rw [State.readReg_sesNonce_zero]
  exact if_pos ⟨hlatch, rfl, hlock⟩

theorem State.readReg_sesNonce_of_closed {s : State} (h : s.secret.latched = false ∨ s.locked = true) :
    s.readReg (R.sesNonce 0) = 0 := by
  rw [State.readReg_sesNonce_zero, if_neg fun ⟨hlatch, _, hlock⟩ => by simp [hlatch, hlock] at h]

theorem State.nonceRead_of_open {s : State} (hok : s.serve (R.sesNonce 0) = .ok) (hlatch : s.secret.latched = true)
    (hlock : s.locked = false) (noise : BitVec 512) : s.nonceRead noise =
      (s.hostTouch.withNonce (BitVec.ofNat 256 (numOf (sha256 (bytesOf 64 noise.toNat))))).emit
        (.hostRsp ((BitVec.ofNat 256 (numOf (sha256 (bytesOf 64 noise.toNat)))).setWidth 32) false) := by
  have hlock' := (State.locked_hostTouch s).trans hlock
  rw [State.nonceRead_ok hok, State.drawNonce_of_open (s := s.hostTouch) hlatch hlock',
    State.readReg_withNonce (s := s.hostTouch) hlatch hlock']

theorem State.nonceRead_of_closed {s : State} (hok : s.serve (R.sesNonce 0) = .ok)
    (h : s.secret.latched = false ∨ s.locked = true) (noise : BitVec 512) :
    s.nonceRead noise = s.hostTouch.emit (.hostRsp 0 false) := by
  have h' : s.hostTouch.secret.latched = false ∨ s.hostTouch.locked = true := by rwa [State.locked_hostTouch]
  rw [State.nonceRead_ok hok, State.drawNonce_of_closed h', State.readReg_sesNonce_of_closed h']

/-- The answer behind a fresh nonce `n` is its first word, and nothing else changes. -/
theorem State.withNonce_answer (s : State) (n : BitVec 256) {u : State}
    (hu : u = (s.hostTouch.withNonce n).emit (.hostRsp (n.setWidth 32) false)) :
    u.secret.nonce = n ∧ u.secret.nonceOk = true ∧ u.outs = s.outs ++ [.hostRsp (u.secret.nonce.setWidth 32) false] ∧
      Only [.secret, .outs] [R.sesIdleTicks] s u := by
  subst hu
  have htouch : Only [.secret, .outs] [R.sesIdleTicks] s s.hostTouch := (Only.refl _ _ s).hostTouch (by simp)
  exact ⟨rfl, rfl, rfl,
    (htouch.kept (l := [.secret]) (KeptBut.upd (KeptBut.refl _ _)) (by decide) (by decide)).emit _ (by decide)⟩

/-- The claim of O20 about nonces. -/
theorem nonce_claim : Sys2Proof.Claims.Nonce := fun s noise hok =>
  ⟨fun hlatch hlock => Ends.of rfl rfl (s.withNonce_answer _ (State.nonceRead_of_open hok hlatch hlock noise)),
    fun hno => Ends.of rfl (State.nonceRead_of_closed hok hno noise)
      ⟨rfl, rfl, ((Only.refl _ _ s).hostTouch (by simp)).emit _ (by decide)⟩⟩

/-- The last word of a proof lies above the seven before it. -/
theorem proofWord_last (p : BitVec 256) (v : Word) :
    (p &&& ~~~(BitVec.ofNat 256 (0xFFFFFFFF <<< (32 * 7)))) ||| BitVec.ofNat 256 (v.toNat <<< (32 * 7)) =
      v ++ p.setWidth 224 := by
  refine BitVec.eq_of_getLsbD_eq fun i hi => ?_
  have hmask : Nat.testBit (0xFFFFFFFF <<< (32 * 7)) i = (decide (224 ≤ i) && decide (i - 224 < 32)) := by
    rw [Nat.testBit_shiftLeft, show 0xFFFFFFFF = 2 ^ 32 - 1 from rfl, Nat.testBit_two_pow_sub_one]
  simp only [BitVec.getLsbD_or, BitVec.getLsbD_and, BitVec.getLsbD_not, BitVec.getLsbD_ofNat, hmask, Nat.testBit_shiftLeft,
    BitVec.getLsbD_append, BitVec.getLsbD_setWidth, hi, decide_true, Bool.true_and]
  by_cases h : i < 224
  · simp [h, show ¬224 ≤ i by omega]
  · simp [h, show 224 ≤ i by omega, show i - 224 < 32 by omega, BitVec.getLsbD]

/-- The state in which a check of proof `p` runs for host `host`; what it will find is settled (R485). -/
def State.checking (s : State) (p : BitVec 256) (host : BitVec 32) : State :=
  let s : State := { s with secret := { s.secret with proof := p } }
  ({ s with secret := { s.secret with
    good := s.secret.nonceOk && s.secret.proof == s.expectedProof host, checkId := host } }).setB R.sesStatus 5 true

theorem State.startProof_of_idle {s : State} (h : s.proofBusy = false) (v : Word) :
    s.startProof v = s.checking (v ++ s.secret.proof.setWidth 224) (s.reg R.sesHostId) := by
  have hword : s.proofWord 7 v = { s with secret := { s.secret with proof := v ++ s.secret.proof.setWidth 224 } } := by
    rw [State.proofWord, if_neg (by simp [h]), proofWord_last]
  rw [State.startProof, if_neg (by simp [h]), hword]
  rfl

theorem State.checking_spec (s : State) (p : BitVec 256) (host : BitVec 32) :
    (s.checking p host).proofBusy = true ∧ (s.checking p host).secret.proof = p ∧ (s.checking p host).secret.checkId = host ∧
      ((s.checking p host).secret.good = true ↔ s.secret.nonceOk = true ∧ p = s.expectedProof host) ∧
      (s.checking p host).secret.key = s.secret.key ∧ (s.checking p host).secret.nonce = s.secret.nonce ∧
      Only [.secret] [R.sesIdleTicks, R.sesStatus] s (s.checking p host) := by
  refine ⟨State.regB_setB_self _ _ _ _ (by decide), rfl, rfl, ?_, rfl, rfl, Only.setB ?_ (by simp)⟩
  · have hgood : (s.checking p host).secret.good = (s.secret.nonceOk && p == s.expectedProof host) := rfl
    rw [hgood, Bool.and_eq_true, beq_iff_eq]
  · exact (Only.refl _ _ s).kept (l := [.secret]) (KeptBut.upd (KeptBut.upd (KeptBut.refl _ _))) (by decide) (by decide)

theorem Ends.proofWrite {s : State} {v : Word} {P : State → Prop} (h : s.serve (R.sesProof 7) = .ok)
    (p : P (s.hostTouch.startProof v)) : Ends (.proofWrite v) s P := Ends.of rfl (State.hostWrite_ok _ h) p

/-- The claim of O20 about the start of a check. -/
theorem proofStart_claim : Sys2Proof.Claims.ProofStart := by
  intro s v hok
  refine ⟨fun hidle => Ends.proofWrite hok ?_, fun hbusy => Ends.proofWrite hok ?_⟩
  · have hhost : s.hostTouch.reg R.sesHostId = s.reg R.sesHostId := State.hostTouch_reg_ne s (by decide)
    rw [State.startProof_of_idle ((State.proofBusy_hostTouch s).trans hidle), hhost]
    obtain ⟨hb, hp, hid, hgood, hkey, hnonce, honly⟩ :=
      State.checking_spec s.hostTouch (v ++ s.hostTouch.secret.proof.setWidth 224) (s.reg R.sesHostId)
    refine ⟨hb, hp, hid, ?_, hkey, hnonce, ((Only.refl _ _ s).hostTouch (by simp)).trans honly⟩
    rw [hgood, hp]
    rfl
  · rw [State.startProof, if_pos ((State.proofBusy_hostTouch s).trans hbusy)]
    exact (Only.refl _ _ s).hostTouch (by simp)

/-- The state behind a check: BUSY is clear and the nonce is void. -/
def State.checked (s : State) : State := (s.setB R.sesStatus 5 false).voidNonce

theorem State.reg_checked_ne (s : State) {p : Nat} (h : p ≠ R.sesStatus) : s.checked.reg p = s.reg p :=
  State.reg_setB_ne s 5 false h

theorem State.regB_checked (s : State) (i : Nat) (h : i < 32) (hi : i ≠ 5) :
    s.checked.regB R.sesStatus i = s.regB R.sesStatus i := State.regB_setB_out s _ 5 i false h hi

theorem State.fails_checked (s : State) : s.checked.regF R.sesStatus 2 2 = s.regF R.sesStatus 2 2 :=
  State.regF_setB_out s _ 5 false 2 2 (by decide) (by decide)

theorem State.proofBusy_checked (s : State) : s.checked.proofBusy = false := State.regB_setB_self s _ _ _ (by decide)

theorem Only.checked (s : State) :
    Only [.secret] [R.sesStatus, R.sesOpenId, R.sesLockTicks, R.sesIdleTicks] s s.checked :=
  ((Only.refl _ _ s).setB (by simp)).kept (l := [.secret]) (KeptBut.upd (KeptBut.refl _ _)) (by decide) (by decide)

theorem State.proofRefused_checked (s : State) : s.checked.proofRefused = s.proofRefused := by
  have hlock : s.checked.locked = s.locked := State.regB_checked s 1 (by decide) (by decide)
  rw [State.proofRefused, hlock]
  rfl

theorem State.proofRefused_iff (s : State) :
    s.proofRefused = true ↔ s.secret.key = 0 ∨ s.secret.latched = false ∨ s.locked = true := by
  simp [State.proofRefused, or_assoc]

theorem State.proofDone_refused {s : State} (hbusy : s.proofBusy = true) (h : s.proofRefused = true) :
    s.proofDone = s.checked.setLast 3 := by
  rw [State.proofDone, if_neg (by simp [hbusy])]
  exact if_pos ((State.proofRefused_checked s).trans h)

theorem State.proofDone_accepted {s : State} (hbusy : s.proofBusy = true) (h : s.proofRefused = false)
    (hgood : s.secret.good = true) : s.proofDone = s.checked.proofAccepted := by
  rw [State.proofDone, if_neg (by simp [hbusy])]
  exact (if_neg (by rw [← State.checked, State.proofRefused_checked, h]; decide)).trans (if_pos hgood)

theorem State.proofDone_rejected {s : State} (hbusy : s.proofBusy = true) (h : s.proofRefused = false)
    (hgood : s.secret.good = false) : s.proofDone = s.checked.proofRejected := by
  rw [State.proofDone, if_neg (by simp [hbusy])]
  exact (if_neg (by rw [← State.checked, State.proofRefused_checked, h]; decide)).trans
    (if_neg (by simp [State.voidNonce, hgood]))

/-- The registers of a session that a check may write. -/
theorem State.proofAccepted_spec (s : State) :
    s.proofAccepted.session = true ∧ s.proofAccepted.reg R.sesOpenId = s.secret.checkId ∧
      s.proofAccepted.regF R.sesStatus 2 2 = 0 ∧ s.proofAccepted.regF R.sesStatus 6 2 = 1 ∧
      s.proofAccepted.proofBusy = s.proofBusy := by
  unfold State.proofAccepted State.setLast State.session State.proofBusy
  simp (disch := decide) only [State.regB_setF_out, State.regB_setReg_ne, State.regB_setB_self, State.regB_setB_out,
    State.reg_setF_ne, State.reg_setReg_self, State.regF_setF_ne, State.regF_setF, true_and, and_true]
  decide

/-- A failed check that leaves the door open. -/
theorem State.proofRejected_counts {s : State} (h : s.regF R.sesStatus 2 2 < 2) :
    s.proofRejected.session = s.session ∧ s.proofRejected.locked = s.locked ∧
      s.proofRejected.regF R.sesStatus 2 2 = s.regF R.sesStatus 2 2 + 1 ∧ s.proofRejected.regF R.sesStatus 6 2 = 2 := by
  have hcount : s.proofRejected = (s.setF R.sesStatus 2 2 (s.regF R.sesStatus 2 2 + 1)).setLast 2 := if_neg (by omega)
  rw [hcount]
  unfold State.setLast State.session State.locked
  simp (disch := decide) only [State.regB_setF_out, State.regF_setF_ne, State.regF_setF, true_and]
  omega

/-- The third failure locks the door and closes the session (R486). -/
theorem State.proofRejected_locks {s : State} (h : s.regF R.sesStatus 2 2 = 2) :
    s.proofRejected.session = false ∧ s.proofRejected.locked = true ∧ s.proofRejected.reg R.sesLockTicks = 0x40000000#32 ∧
      s.proofRejected.reg R.sesOpenId = 0 ∧ s.proofRejected.regF R.sesStatus 6 2 = 2 := by
  have hlock : s.proofRejected = ((((s.setF R.sesStatus 2 2 (s.regF R.sesStatus 2 2 + 1)).setLast 2).setB R.sesStatus 1 true).setReg
      R.sesLockTicks 0x40000000#32).closeSession := if_pos (by omega)
  rw [hlock]
  unfold State.closeSession State.setLast State.session State.locked
  simp (disch := decide) only [State.regB_setReg_ne, State.regB_setB_self, State.regB_setB_out, State.reg_setReg_ne,
    State.reg_setReg_self, State.reg_setB_ne, State.regF_setReg_ne, State.regF_setB_out, State.regF_setF, true_and]
  decide

theorem Only.proofRejected (s : State) :
    Only [.secret] [R.sesStatus, R.sesOpenId, R.sesLockTicks, R.sesIdleTicks] s s.proofRejected := by
  have hfails : Only [.secret] [R.sesStatus, R.sesOpenId, R.sesLockTicks, R.sesIdleTicks] s
      ((s.setF R.sesStatus 2 2 (s.regF R.sesStatus 2 2 + 1)).setLast 2) :=
    ((Only.refl _ _ s).setF (by simp)).setF (by simp)
  unfold State.proofRejected
  dsimp only
  split
  · exact ((hfails.setB (by simp)).setReg (by simp)).closeSession (by decide)
  · exact hfails

theorem State.proofBusy_proofRejected (s : State) : s.proofRejected.proofBusy = s.proofBusy := by
  have hfails : ((s.setF R.sesStatus 2 2 (s.regF R.sesStatus 2 2 + 1)).setLast 2).proofBusy = s.proofBusy := by
    unfold State.setLast State.proofBusy
    simp (disch := decide) only [State.regB_setF_out]
  unfold State.proofRejected
  dsimp only
  split
  · refine Eq.trans ?_ hfails
    unfold State.closeSession State.proofBusy
    simp (disch := decide) only [State.regB_setReg_ne, State.regB_setB_out]
  · exact hfails

/-- The claim of O20 about the outcomes of a check. -/
theorem proofOutcome_claim : Sys2Proof.Claims.ProofOutcome := by
  intro s hbusy
  have hc := Only.checked s
  have hfails := State.fails_checked s
  refine Ends.of rfl rfl ?_
  cases href : s.proofRefused with
  | true =>
    rw [State.proofDone_refused hbusy href]
    have hno : ¬(s.secret.key ≠ 0 ∧ s.secret.latched = true ∧ s.locked = false) := fun ⟨hkey, hlatch, hlock⟩ => by
      have := (State.proofRefused_iff s).1 href
      simp_all
    refine ⟨?_, rfl, hc.setF (by simp), fun _ => ⟨?_, ?_, ?_, ?_, ?_, ?_⟩, fun hk hl hd => absurd ⟨hk, hl, hd⟩ hno⟩
    · exact (State.regB_setF_out _ _ _ _ _ _ (by decide) (by decide)).trans (State.proofBusy_checked s)
    · exact (State.regB_setF_out _ _ _ _ _ _ (by decide) (by decide)).trans (State.regB_checked s 0 (by decide) (by decide))
    · exact (State.regB_setF_out _ _ _ _ _ _ (by decide) (by decide)).trans (State.regB_checked s 1 (by decide) (by decide))
    · exact (State.regF_setF_ne _ _ _ _ _ _ _ (by decide) (by decide)).trans hfails
    · exact State.regF_setF _ _ _ _ _ (by decide)
    · exact (State.reg_setF_ne _ _ _ _ (by decide)).trans (State.reg_checked_ne s (by decide))
    · exact (State.reg_setF_ne _ _ _ _ (by decide)).trans (State.reg_checked_ne s (by decide))
  | false =>
    have hyes : ¬(s.secret.key = 0 ∨ s.secret.latched = false ∨ s.locked = true) := fun h => by
      simp [(State.proofRefused_iff s).2 h] at href
    have hlocked : s.checked.locked = false := by
      rw [State.locked, State.regB_checked s 1 (by decide) (by decide), ← State.locked]
      simpa using fun h => hyes (.inr (.inr h))
    cases hgood : s.secret.good with
    | true =>
      rw [State.proofDone_accepted hbusy href hgood]
      obtain ⟨hses, hid, hf, hlast, hb⟩ := State.proofAccepted_spec s.checked
      exact ⟨hb.trans (State.proofBusy_checked s), (kept_proofAccepted s.checked).but.same .secret (by decide),
        (((hc.setB (by simp)).setReg (by simp)).setF (by simp)).setF (by simp), fun h => absurd h hyes,
        fun _ _ _ => ⟨fun _ => ⟨hses, hid, hf, hlast⟩, by simp, by simp⟩⟩
    | false =>
      rw [State.proofDone_rejected hbusy href hgood]
      refine ⟨(State.proofBusy_proofRejected _).trans (State.proofBusy_checked s),
        (kept_proofRejected s.checked).but.same .secret (by decide), hc.trans (Only.proofRejected _),
        fun h => absurd h hyes, fun _ _ _ => ⟨by simp, fun _ hlt => ?_, fun _ heq => ?_⟩⟩
      · obtain ⟨hses, hlk, hf, hlast⟩ := State.proofRejected_counts (hfails ▸ hlt)
        exact ⟨hses.trans (State.regB_checked s 0 (by decide) (by decide)), hlk.trans hlocked, hf.trans (by rw [hfails]), hlast⟩
      · obtain ⟨hses, hlk, ht, hid, hlast⟩ := State.proofRejected_locks (hfails.trans heq)
        exact ⟨hses, hlk, ht, hid, hlast⟩

theorem State.locked_closeSession (s : State) : s.closeSession.locked = s.locked := by
  unfold State.closeSession State.locked
  simp (disch := decide) only [State.regB_setReg_ne, State.regB_setB_out]

theorem State.sesOpenId_closeSession (s : State) : s.closeSession.reg R.sesOpenId = 0 := by
  unfold State.closeSession
  simp (disch := decide) only [State.reg_setReg_ne, State.reg_setReg_self]

/-- The end of a session, however it comes (R487). -/
theorem State.closeSession_spec {s t : State} (h : Only [] [R.sesStatus, R.sesOpenId, R.sesIdleTicks] s t) (hl : t.locked = s.locked) :
    t.closeSession.session = false ∧ t.closeSession.reg R.sesOpenId = 0 ∧ t.closeSession.locked = s.locked ∧
      Only [] [R.sesStatus, R.sesOpenId, R.sesIdleTicks] s t.closeSession :=
  ⟨t.session_closeSession, t.sesOpenId_closeSession, t.locked_closeSession.trans hl, h.closeSession (by decide)⟩

/-- The end of the lock clears FAILS (R486). -/
theorem State.unlockDoor_spec {s : State} (hl : s.locked = true) (ht : s.reg R.sesLockTicks = 0) :
    s.unlockDoor.locked = false ∧ s.unlockDoor.regF R.sesStatus 2 2 = 0 ∧ s.unlockDoor.session = s.session ∧
      s.unlockDoor.reg R.sesLockTicks = 0 ∧ Only [] [R.sesStatus, R.sesLockTicks] s s.unlockDoor := by
  have hunlock : s.unlockDoor = ((s.setB R.sesStatus 1 false).setF R.sesStatus 2 2 0).setReg R.sesLockTicks 0 :=
    if_pos ⟨hl, ht⟩
  rw [hunlock]
  refine ⟨?_, ?_, ?_, State.reg_setReg_self _ _ _, (((Only.refl _ _ s).setB (by simp)).setF (by simp)).setReg (by simp)⟩
  · rw [State.locked, State.regB_setReg_ne _ _ _ (by decide), State.regB_setF_out _ _ _ _ _ _ (by decide) (by decide),
      State.regB_setB_self _ _ _ _ (by decide)]
  · rw [State.regF_setReg_ne _ _ _ _ (by decide), State.regF_setF _ _ _ _ _ (by decide), Nat.zero_mod]
  · rw [State.session, State.regB_setReg_ne _ _ _ (by decide), State.regB_setF_out _ _ _ _ _ _ (by decide) (by decide),
      State.regB_setB_out _ _ _ _ _ (by decide) (by decide), State.session]

theorem Ends.sesClose {s : State} {v : Word} {P : State → Prop} (h : s.serve R.sesClose = .ok)
    (p : P (s.hostTouch.closeWrite v)) : Ends (.sesClose v) s P := Ends.of rfl (State.hostWrite_ok _ h) p

/-- The claim of O20 about the lock and the ends of a session. -/
theorem sessionEnds_claim : Sys2Proof.Claims.SessionEnds := by
  intro s v
  have htouch : Only [] [R.sesStatus, R.sesOpenId, R.sesIdleTicks] s s.hostTouch := (Only.refl _ _ s).hostTouch (by simp)
  refine ⟨fun h => Ends.of rfl (if_neg fun ⟨hl, ht⟩ => by simp [hl, ht] at h) rfl,
    fun hl ht => Ends.of rfl rfl (State.unlockDoor_spec hl ht), fun hok hv => Ends.sesClose hok ?_,
    fun hok hv => Ends.sesClose hok ?_, fun h => Ends.of rfl (if_neg fun ⟨hs, ht⟩ => by simp [hs, ht] at h) rfl,
    fun hs ht => Ends.of rfl (if_pos ⟨hs, ht⟩) (State.closeSession_spec (Only.refl _ _ s) rfl)⟩
  · rw [State.closeWrite, bit, if_pos hv]
    exact State.closeSession_spec htouch (State.locked_hostTouch s)
  · rw [State.closeWrite, bit, hv, if_neg Bool.false_ne_true]
    exact (Only.refl _ _ s).hostTouch (by simp)

/-- Settles O20. -/
theorem sessions : Obligations.Sessions := ⟨nonce_claim, proofStart_claim, proofOutcome_claim, sessionEnds_claim⟩

end Sys2Proof.Machine
end

section
/-! SUPPORT. Register writes by access kind (R461, R543), those of the split lists (R313), and latched, clearing and snapshot
reads (R270, R416, R534, R535). -/

namespace Sys2Proof.Machine

/-! Writes. -/

theorem State.writeAct_eq_none {off : Nat} (h : actsOnWrite off = false) (s : State) (v : Word) : s.writeAct off v = none := by
  simp only [actsOnWrite, Bool.or_eq_false_iff, List.contains_eq_mem, decide_eq_false_iff_not, List.mem_cons, List.not_mem_nil,
    or_false, not_or] at h
  obtain ⟨⟨h1, h2, h3, h4, h5, h6, h7, h8, h9, -⟩, -⟩ := h
  simp only [State.writeAct, h1, h2, h3, h4, h5, h6, h7, h8, h9, if_false]

theorem State.blockAct_eq_none {off : Nat} (h : actsOnWrite off = false) (s : State) (v : Word) : s.blockAct off v = none := by
  simp only [actsOnWrite, Bool.or_eq_false_iff, decide_eq_false_iff_not] at h
  obtain ⟨-, h⟩ := h
  unfold State.blockAct
  dsimp only
  rw [if_neg (by omega), if_neg (by omega), if_neg (by omega), if_neg (by omega), if_neg (by omega), if_neg (by omega),
    if_neg (by omega), if_neg (by unfold R.sesProof; omega)]

theorem State.regWrite_eq_configWrite {off : Nat} (h : actsOnWrite off = false) (s : State) (v : Word) :
    s.regWrite off v = s.configWrite s.session off v := by
  rw [State.regWrite, State.writeAct_eq_none h]
  dsimp only
  rw [State.blockAct_eq_none h]

/-- A served write of a register whose write only stores. -/
theorem Ends.registerWrite {s : State} {off : BitVec 20} {v : Word} {P : State → Prop} (hact : actsOnWrite off.toNat = false)
    (h4 : off.toNat % 4 = 0) (h : s.serve off.toNat = .ok) (p : P (s.hostTouch.configWrite s.session off.toNat v)) :
    Ends (.registerWrite off v) s P := by
  refine Ends.of rfl ((State.hostWrite_ok _ h).trans (if_pos (by simp [aligned4, h4]))) ?_
  rwa [State.regWrite_eq_configWrite hact, State.session_hostTouch]

theorem State.configWrite_eq_storeReg {off : Nat} (hact : actsOnWrite off = false)
    (hfetch : ¬(0x05020 ≤ off ∧ off < 0x05440 ∧ off % 0x20 < 8)) (s : State) (sess : Bool) (v : Word) :
    s.configWrite sess off v = s.storeReg sess off v := by
  simp only [actsOnWrite, Bool.or_eq_false_iff, List.contains_eq_mem, decide_eq_false_iff_not, List.mem_cons, List.not_mem_nil,
    or_false, not_or] at hact
  obtain ⟨⟨-, -, -, -, -, -, -, -, -, hvreq, hroute, htrk⟩, -⟩ := hact
  rw [State.configWrite, if_neg hroute, if_neg htrk, if_neg hvreq, if_neg (by omega), if_neg hfetch]

theorem State.storeReg_eq_setReg {s : State} {off : Nat} {r : RegRow} (hr : regRow? off = some r) (hp : s.present off = true)
    (sess : Bool) (v : Word) : s.storeReg sess off v = s.setReg off (r.written sess (s.reg off) v) := by
  rw [State.storeReg, hr]
  exact if_pos hp

/-- A write by access kind, bit by bit (R461). -/
theorem RegRow.bit_written (r : RegRow) (sess : Bool) (old v : Word) {i : Nat} (h : i < 32) :
    bit (r.written sess old v) i =
      if (BitVec.ofNat 32 r.w1c).getLsbD i ∧ v.getLsbD i then false
      else if (BitVec.ofNat 32 (if sess then r.rw ||| r.rwp else r.rw)).getLsbD i then v.getLsbD i
      else bit old i := by
  unfold bit RegRow.written
  generalize BitVec.ofNat 32 r.w1c = w
  generalize BitVec.ofNat 32 (if sess then r.rw ||| r.rwp else r.rw) = m
  simp only [BitVec.getLsbD_and, BitVec.getLsbD_or, BitVec.getLsbD_not, h, decide_true, Bool.true_and]
  cases w.getLsbD i <;> cases m.getLsbD i <;> cases v.getLsbD i <;> simp

/-- The claim of O13 about registers that only store. -/
theorem plainWrite_claim : Sys2Proof.Claims.PlainWrite := by
  intro s off v r hr h4 hok hp hact hfetch hne
  refine Ends.registerWrite hact h4 hok ?_
  rw [State.configWrite_eq_storeReg hact hfetch, State.storeReg_eq_setReg (s := s.hostTouch) hr hp, State.hostTouch_reg_ne s hne]
  refine ⟨((Only.refl _ _ s).hostTouch (by simp)).setReg (by simp), fun i hi => ?_⟩
  rw [State.reg_setReg_self]
  exact r.bit_written _ _ _ hi

/-! The split lists' fetchers. -/

section
variable {e : Nat} (h1 : 1 ≤ e) (h2 : e ≤ 0x21)
include h1 h2

theorem regRow_lineSplitCtl : regRow? (R.lineSplitCtl e) = some ⟨0x05000, 1, 4, 64, 0x20, 0x7, 0, 0, false, 0, 0x7, 0x7⟩ := by
  interval_cases e <;> rfl

theorem regRow_lineSplitPtr :
    regRow? (R.lineSplitPtr e) = some ⟨0x05004, 1, 4, 64, 0x20, 0xFFFFFFFF, 0, 0, false, 0, 0, 0xFFFFFFFF⟩ := by
  interval_cases e <;> rfl

end

theorem R.lineSplitCtl_eq {e : Nat} (h : e ≤ 0x21) : R.lineSplitCtl e = 0x05000 + 0x20 * e := by unfold R.lineSplitCtl; omega

theorem R.lineSplitPtr_eq {e : Nat} (h : e ≤ 0x21) : R.lineSplitPtr e = 0x05004 + 0x20 * e := by unfold R.lineSplitPtr; omega

/-- The offsets of the split lists fit an access and name no register whose write acts. -/
theorem actsOnWrite_split {off : Nat} (h1 : 0x05020 ≤ off) (h2 : off < 0x05440) : actsOnWrite off = false := by
  have hn {o : Nat} (ho : o < 0x05020 ∨ 0x05440 ≤ o) : off ≠ o := by omega
  rw [actsOnWrite, Bool.or_eq_false_iff]
  refine ⟨?_, decide_eq_false (by omega)⟩
  simp (disch := decide) [hn]

theorem State.configWrite_split {off : Nat} (h1 : 0x05020 ≤ off) (h2 : off < 0x05440) (h8 : off % 0x20 < 8) (s : State)
    (sess : Bool) (v : Word) :
    s.configWrite sess off v = if off % 0x20 = 4 ∧ s.regB (off - 4) 0 = true then s else s.splitStore sess off v := by
  have hn {o : Nat} (ho : o < 0x05020 ∨ 0x05440 ≤ o) : off ≠ o := by omega
  rw [State.configWrite, if_neg (hn (by decide)), if_neg (hn (by decide)), if_neg (hn (by decide)),
    if_pos (show 0x05020 ≤ off ∧ off < 0x05440 ∧ off % 0x20 < 8 from ⟨h1, h2, h8⟩)]
  simp only [h1, h2, true_and]

/-- A write that a fetcher's register takes: the register by its access kind, and no cue taken (R313). -/
theorem State.splitStore_spec {s : State} {off e : Nat} {r : RegRow} (h1 : 0x05020 ≤ off) (h2 : off < 0x05440)
    (hr : regRow? off = some r) (he : (off - 0x05000) / 0x20 = e) (sess : Bool) (v : Word) :
    (s.splitStore sess off v).reg off = r.written sess (s.reg off) v ∧ ((s.splitStore sess off v).fetcher e).taken = none ∧
      Only [.fetchers] [R.sesIdleTicks, off] s (s.splitStore sess off v) := by
  have hp : s.present off = true := by
    rw [State.present, if_neg (by omega), if_neg (by omega), if_neg (by omega), if_neg (by omega), if_pos (by omega)]
    exact decide_eq_true ⟨h1, h2⟩
  have hstore : s.splitStore sess off v =
      (s.setReg off (r.written sess (s.reg off) v)).setFetcher e { s.fetcher e with taken := none } := by
    rw [State.splitStore, State.storeReg_eq_setReg hr hp, he]
  rw [hstore]
  refine ⟨State.reg_setReg_self s off _, ?_, ?_⟩
  · rw [State.fetcher_setFetcher, if_pos rfl]
  · exact ((Only.refl _ _ s).setReg (by simp)).kept (kept_setFetcher ..).but (by decide) (by decide)

/-- The claim of O13 about the fetchers' registers. -/
theorem fetcherWrites_claim : Sys2Proof.Claims.FetcherWrites := by
  intro s e v h1 h2
  have hctl := R.lineSplitCtl_eq h2
  have hptr := R.lineSplitPtr_eq h2
  have nctl : (BitVec.ofNat 20 (R.lineSplitCtl e)).toNat = R.lineSplitCtl e := by rw [BitVec.toNat_ofNat]; omega
  have nptr : (BitVec.ofNat 20 (R.lineSplitPtr e)).toNat = R.lineSplitPtr e := by rw [BitVec.toNat_ofNat]; omega
  have htouch : Only [.fetchers] [R.sesIdleTicks, R.lineSplitPtr e] s s.hostTouch := (Only.refl _ _ s).hostTouch (by simp)
  have hen : s.hostTouch.regB (R.lineSplitPtr e - 4) 0 = s.regB (R.lineSplitCtl e) 0 := by
    rw [show R.lineSplitPtr e - 4 = R.lineSplitCtl e by omega]
    exact State.regB_congr (State.hostTouch_reg_ne s (by unfold R.sesIdleTicks; omega)) 0
  refine ⟨fun hok hoff => ?_, fun hok hon => ?_, fun hok => ?_⟩
  · refine Ends.registerWrite (actsOnWrite_split (by omega) (by omega)) (by omega) (by rwa [nptr]) ?_
    rw [nptr, State.configWrite_split (by omega) (by omega) (by omega), hen, hoff, if_neg (by simp)]
    obtain ⟨hreg, htaken, honly⟩ := State.splitStore_spec (s := s.hostTouch) (off := R.lineSplitPtr e) (by omega) (by omega)
      (regRow_lineSplitPtr h1 h2) (e := e) (by omega) s.session v
    refine ⟨hreg.trans ?_, htaken, htouch.trans honly⟩
    refine BitVec.eq_of_getLsbD_eq fun i hi => ?_
    have hbit := RegRow.bit_written ⟨0x05004, 1, 4, 64, 0x20, 0xFFFFFFFF, 0, 0, false, 0, 0, 0xFFFFFFFF⟩ s.session
      (s.hostTouch.reg (R.lineSplitPtr e)) v hi
    have hones : (4294967295#32).getLsbD i = true := (BitVec.getLsbD_allOnes (v := 32)).trans (decide_eq_true hi)
    simpa [bit, hones, -BitVec.getLsbD_eq_getElem] using hbit
  · refine Ends.registerWrite (actsOnWrite_split (by omega) (by omega)) (by omega) (by rwa [nptr]) ?_
    rw [nptr, State.configWrite_split (by omega) (by omega) (by omega), hen, hon, if_pos ⟨by omega, rfl⟩]
    exact (Only.refl _ _ s).hostTouch (by simp)
  · refine Ends.registerWrite (actsOnWrite_split (by omega) (by omega)) (by omega) (by rwa [nctl]) ?_
    rw [nctl, State.configWrite_split (by omega) (by omega) (by omega), if_neg fun h => absurd h.1 (by omega)]
    obtain ⟨hreg, -, honly⟩ := State.splitStore_spec (s := s.hostTouch) (off := R.lineSplitCtl e) (by omega) (by omega)
      (regRow_lineSplitCtl h1 h2) (e := e) (by omega) s.session v
    have hbit {i : Nat} (hi : i < 3) :
        bit ((s.hostTouch.splitStore s.session (R.lineSplitCtl e) v).reg (R.lineSplitCtl e)) i = v.getLsbD i := by
      rw [hreg, RegRow.bit_written _ _ _ _ (by omega)]
      interval_cases i <;> simp
    refine ⟨hbit (by decide), fieldN_congr fun i _ hi => hbit (by omega), ((Only.refl _ _ s).hostTouch (by simp)).trans honly⟩

/-- Settles O13. -/
theorem registerWrites : Obligations.RegisterWrites := ⟨plainWrite_claim, fetcherWrites_claim⟩

/-! Reads. -/

theorem State.registerRead_ok {s : State} {off : Nat} (h : s.serve off = .ok) (h4 : off % 4 = 0) :
    s.registerRead off = s.readServed off := by
  rw [State.registerRead, h]
  exact if_pos (by simp [aligned4, h4])

/-- A register without a snapshot and without a nonce is read as it stands. -/
theorem State.beforeRead_eq_self {off : Nat} (h0 : off ≠ R.sesNonce 0) (h1 : off ≠ R.propDesc 0) (h2 : off ≠ R.propHnd 0)
    (h3 : off ≠ R.exchBkt 0) (s : State) : s.beforeRead off = s := by
  rw [State.beforeRead, if_neg h0, State.snapshot, if_neg h1, if_neg h2, if_neg h3]

theorem State.readReg_of_live {off : Nat} (h : latchLo off = none) (s : State) : s.readReg off = s.liveReg off := by
  rw [State.readReg, h]

theorem State.latchHi_of_not_lo {off : Nat} (h : isLo off = false) (s : State) : s.latchHi off = s := by
  rw [State.latchHi, h, if_neg Bool.false_ne_true]

theorem State.clearRc_of_not_rc {off : Nat} (h : isRc off = false) (s : State) : s.clearRc off = s := by
  rw [State.clearRc, h, if_neg Bool.false_ne_true]

/-- The claim of O14 about registers that a read clears. -/
theorem readToClear_claim : Sys2Proof.Claims.ReadToClear := by
  intro s off hrc hok h4 hlo hlive
  have hne {o : Nat} (h : isRc o = false) : off.toNat ≠ o := fun e => by simp [← e, hrc] at h
  refine Ends.of rfl (State.registerRead_ok hok h4) ?_
  rw [State.readServed, State.beforeRead_eq_self (hne rfl) (hne rfl) (hne rfl) (hne rfl), State.latchHi_of_not_lo hlo,
    State.clearRc, if_pos hrc, State.readReg_of_live hlive]
  exact ⟨rfl, State.reg_setReg_self _ _ _, (((Only.refl _ _ s).hostTouch (by simp)).emit _ (by decide)).setReg (by simp)⟩

/-- A read of the LO half of a pair whose HI half has no register of its own (R534). -/
theorem State.registerRead_lo {s : State} {off : Nat} (hok : s.serve off = .ok) (h4 : off % 4 = 0)
    (hbefore : s.hostTouch.beforeRead off = s.hostTouch) (hlive : latchLo off = none) (hlo : latchLo (off + 4) = some off)
    (hrc : isRc off = false) :
    s.registerRead off = { s.hostTouch.emit (.hostRsp (s.hostTouch.liveReg off) false) with
      latches := NMap.set 0 s.latches off ((s.hostTouch.emit (.hostRsp (s.hostTouch.liveReg off) false)).liveReg (off + 4)) } := by
  rw [State.registerRead_ok hok h4, State.readServed, hbefore, State.clearRc_of_not_rc hrc, State.readReg_of_live hlive,
    State.latchHi, if_pos (by simp [isLo, hlo])]
  rfl

/-- What such a read answers and leaves: the HI half stands in the pair's latch. -/
theorem State.registerRead_lo_spec {s : State} {off : Nat} (hok : s.serve off = .ok) (h4 : off % 4 = 0)
    (hbefore : s.hostTouch.beforeRead off = s.hostTouch) (hlive : latchLo off = none) (hlo : latchLo (off + 4) = some off)
    (hrc : isRc off = false) :
    (s.registerRead off).outs = s.outs ++ [.hostRsp (s.hostTouch.liveReg off) false] ∧
      (s.registerRead off).readReg (off + 4) = (s.hostTouch.emit (.hostRsp (s.hostTouch.liveReg off) false)).liveReg (off + 4) ∧
      Only [.outs, .latches] [R.sesIdleTicks] s (s.registerRead off) := by
  have htouch : Only [.outs, .latches] [R.sesIdleTicks] s s.hostTouch := (Only.refl _ _ s).hostTouch (by simp)
  rw [State.registerRead_lo hok h4 hbefore hlive hlo hrc]
  refine ⟨rfl, ?_, (htouch.emit _ (by decide)).kept (l := [.latches]) (KeptBut.upd (KeptBut.refl _ _)) (by decide) (by decide)⟩
  rw [State.readReg, hlo]
  exact NMap.get_set_self _ _ _ _

/-- A register of a line's block that the core composes or stores. -/
theorem State.liveReg_line {i o : Nat} (hi : i < 4) (ho : o ≤ 0xE8)
    (hreg : ¬(o = 0x04 ∨ (0x38 ≤ o ∧ o < 0x40) ∨ (0x54 ≤ o ∧ o < 0x80) ∨ 0xE8 < o)) (s : State) :
    s.liveReg (0x04000 + 0x200 * i + o) = s.lineWord i o := by
  rw [State.liveReg, if_neg (by omega),
    if_neg (by unfold R.ctlIdent R.ctlFeat0 R.ctlFeat1 R.ctlTickLo R.ctlTickHi; omega),
    if_neg (by omega), if_neg (by omega), if_neg (by omega), if_neg (by omega), if_pos (by omega)]
  dsimp only
  rw [show (0x04000 + 0x200 * i + o) % 0x200 = o by omega, if_neg hreg,
    show (0x04000 + 0x200 * i + o - 0x04000) / 0x200 = i by omega]

theorem ofIdx_idx (l : Line) : Line.ofIdx l.idx = l := by cases l <;> rfl

theorem line_idx_lt (l : Line) : l.idx < 4 := by cases l <;> decide

theorem State.liveReg_lineCountLo (s : State) (l : Line) : s.liveReg (R.lineCountLo l.idx) = (s.line l).count.setWidth 32 := by
  have hoff : R.lineCountLo l.idx = 0x04000 + 0x200 * l.idx + 0x1C := by
    have := line_idx_lt l
    unfold R.lineCountLo
    omega
  rw [hoff, State.liveReg_line (line_idx_lt l) (by decide) (by decide), State.lineWord]
  simp only [ofIdx_idx]
  rfl

theorem State.liveReg_lineCountHi (s : State) (l : Line) :
    s.liveReg (R.lineCountLo l.idx + 4) = countHi (s.line l).count (s.line l).epoch := by
  have hoff : R.lineCountLo l.idx + 4 = 0x04000 + 0x200 * l.idx + 0x20 := by
    have := line_idx_lt l
    unfold R.lineCountLo
    omega
  rw [hoff, State.liveReg_line (line_idx_lt l) (by decide) (by decide), State.lineWord]
  simp only [ofIdx_idx]
  rfl

/-- The claim of O14 about latched pairs. -/
theorem latchedReads_claim : Sys2Proof.Claims.LatchedReads := by
  intro s
  refine ⟨fun hok => ?_, fun l hok => ?_⟩
  · obtain ⟨houts, hlatch, honly⟩ := State.registerRead_lo_spec hok rfl rfl rfl rfl rfl
    refine Ends.of rfl rfl ⟨houts.trans ?_, hlatch.trans ?_, honly⟩
    · rw [show s.hostTouch.liveReg R.ctlTickLo = wordOf s.tick 0 from rfl, wordOf, Nat.mul_zero, Nat.shiftRight_zero,
        BitVec.ofNat_toNat]
    · show wordOf s.tick 1 = _
      exact BitVec.eq_of_toNat_eq (by simp [wordOf])
  · have hl := line_idx_lt l
    have hoff : R.lineCountLo l.idx = 0x0401C + 0x200 * l.idx := by unfold R.lineCountLo; omega
    have hnat : (BitVec.ofNat 20 (R.lineCountLo l.idx)).toNat = R.lineCountLo l.idx := by rw [BitVec.toNat_ofNat]; omega
    have hrow : isRc (R.lineCountLo l.idx) = false := by cases l <;> rfl
    have hlive : latchLo (R.lineCountLo l.idx) = none := by cases l <;> rfl
    have hlo : latchLo (R.lineCountLo l.idx + 4) = some (R.lineCountLo l.idx) := by cases l <;> rfl
    have hne {p : Nat} (hp : p < 0x04000 ∨ 0x04800 ≤ p) : R.lineCountLo l.idx ≠ p := by omega
    obtain ⟨houts, hlatch, honly⟩ := State.registerRead_lo_spec hok (by omega)
      (State.beforeRead_eq_self (hne (by decide)) (hne (by decide)) (hne (by decide)) (hne (by decide)) _) hlive hlo hrow
    refine Ends.of rfl rfl ?_
    rw [hnat]
    rw [State.liveReg_lineCountLo] at houts
    rw [State.liveReg_lineCountHi] at hlatch
    exact ⟨houts, hlatch, honly⟩

/-! Snapshots. -/

theorem State.reg_setRegs_get (s : State) (o : Nat) (l : List Word) {i : Nat} (h : i < l.length) :
    (s.setRegs o l).reg (o + 4 * i) = listGet 0 l i := by
  induction l generalizing s o i with
  | nil => exact absurd h (Nat.not_lt_zero _)
  | cons w ws ih =>
    cases i with
    | zero =>
      show ((s.setReg o w).setRegs (o + 4) ws).reg o = w
      rw [State.reg_setRegs_ne _ _ _ _ fun i _ => by omega, State.reg_setReg_self]
    | succ i =>
      have := ih (s.setReg o w) (o + 4) (Nat.lt_of_succ_lt_succ h)
      rw [show o + 4 * (i + 1) = o + 4 + 4 * i by omega]
      exact this

/-- A read of the first register of a window takes the snapshot of the words `l` and answers the first of them. -/
theorem State.registerRead_snapshot {s : State} {off : Nat} {l : List Word} (hok : s.serve off = .ok) (h4 : off % 4 = 0)
    (hbefore : s.hostTouch.beforeRead off = s.hostTouch.setRegs off l) (hlive : latchLo off = none)
    (hlo : isLo off = false) (hrc : isRc off = false) (hread : ∀ t : State, t.liveReg off = t.reg off) :
    (∀ i, i < l.length → (s.registerRead off).reg (off + 4 * i) = listGet 0 l i) ∧
      (s.registerRead off).outs = s.outs ++ [.hostRsp ((s.registerRead off).reg off) false] ∧
      s.registerRead off = (s.hostTouch.setRegs off l).emit (.hostRsp ((s.hostTouch.setRegs off l).reg off) false) := by
  have hstate : s.registerRead off =
      (s.hostTouch.setRegs off l).emit (.hostRsp ((s.hostTouch.setRegs off l).reg off) false) := by
    rw [State.registerRead_ok hok h4, State.readServed, hbefore, State.clearRc_of_not_rc hrc, State.latchHi_of_not_lo hlo,
      State.readReg_of_live hlive, hread]
  have houts : (s.hostTouch.setRegs off l).outs = s.outs :=
    (kept_setRegs (m := Field.regs) s.hostTouch off l fun i _ => Field.ofReg_mem _).but.same .outs (by decide)
  rw [hstate]
  refine ⟨fun i hi => State.reg_setRegs_get _ _ _ hi, ?_, rfl⟩
  show (s.hostTouch.setRegs off l).outs ++ _ = _
  rw [houts]
  rfl

section
variable (t : State)

theorem State.liveReg_propDesc_zero : t.liveReg (R.propDesc 0) = t.reg (R.propDesc 0) := by
  rw [State.liveReg]
  iterate 18 rw [if_neg (by decide)]
  exact if_pos rfl

theorem State.liveReg_propHnd_zero : t.liveReg (R.propHnd 0) = t.reg (R.propHnd 0) := by
  rw [State.liveReg]
  iterate 18 rw [if_neg (by decide)]
  exact if_pos rfl

theorem State.liveReg_exchBkt_zero : t.liveReg (R.exchBkt 0) = t.reg (R.exchBkt 0) := by
  rw [State.liveReg]
  iterate 18 rw [if_neg (by decide)]
  exact if_pos rfl

end

/-! The words a snapshot takes. -/

section
variable (s : State)

theorem State.regF_hostTouch {o : Nat} (h : o ≠ R.sesIdleTicks) (lo w : Nat) : s.hostTouch.regF o lo w = s.regF o lo w :=
  State.regF_congr (State.hostTouch_reg_ne s h) lo w

theorem State.beforeRead_propDesc : s.hostTouch.beforeRead (R.propDesc 0) =
    s.hostTouch.setRegs (R.propDesc 0) (s.page (s.regF R.propDescSel 0 16)).words := by
  rw [State.beforeRead, if_neg (by decide), State.snapshot, if_pos rfl, State.regF_hostTouch s (by decide)]
  rfl

theorem State.beforeRead_propHnd : s.hostTouch.beforeRead (R.propHnd 0) =
    s.hostTouch.setRegs (R.propHnd 0) (s.handle (s.regF R.propHndSel 0 14)).words := by
  rw [State.beforeRead, if_neg (by decide), State.snapshot, if_neg (by decide), if_pos rfl,
    State.regF_hostTouch s (by decide)]
  rfl

theorem State.beforeRead_exchBkt : s.hostTouch.beforeRead (R.exchBkt 0) = s.hostTouch.setRegs (R.exchBkt 0)
    ((List.range 32).map fun i => wordOf (s.bucket (s.regF R.exchSel 0 12)) i) := by
  rw [State.beforeRead, if_neg (by decide), State.snapshot, if_neg (by decide), if_neg (by decide), if_pos rfl,
    State.regF_hostTouch s (by decide)]
  rfl

end

/-- The frame of a snapshot read whose window lies in the block `f`. -/
theorem KeptBut.snapshot {s : State} {off : Nat} {l : List Word} {w : Word} {f : Field}
    (h : ∀ i, i < l.length → Field.ofReg (off + 4 * i) = f) :
    KeptBut [.outs, .doorR, f] s ((s.hostTouch.setRegs off l).emit (.hostRsp w false)) :=
  (kept_emit _ _).but.step (by simp) (((kept_hostTouch s).but.mono (by simp)).trans
    (kept_setRegs _ off l fun i hi => by simp [h i hi]).but)

/-- The claim of O14 about snapshots. -/
theorem snapshots_claim : Sys2Proof.Claims.Snapshots := by
  intro s
  refine ⟨fun hok => Ends.of rfl rfl ?_, fun hok => Ends.of rfl rfl ?_, fun hok => Ends.of rfl rfl ?_⟩
  · obtain ⟨hwords, houts, hstate⟩ := State.registerRead_snapshot (off := R.propDesc 0)
      (l := (s.page (s.regF R.propDescSel 0 16)).words) hok rfl s.beforeRead_propDesc rfl rfl rfl
      State.liveReg_propDesc_zero
    refine ⟨fun i hi => ?_, houts, ?_⟩
    · rw [show R.propDesc i = R.propDesc 0 + 4 * i by unfold R.propDesc; omega]
      exact hwords i hi
    · exact hstate ▸ KeptBut.snapshot fun i hi => Field.ofReg_propR (by unfold R.propDesc; omega) (by
        have : i < 4 := hi
        unfold R.propDesc; omega)
  · obtain ⟨hwords, houts, hstate⟩ := State.registerRead_snapshot (off := R.propHnd 0)
      (l := (s.handle (s.regF R.propHndSel 0 14)).words) hok rfl s.beforeRead_propHnd rfl rfl rfl
      State.liveReg_propHnd_zero
    refine ⟨fun i hi => ?_, houts, ?_⟩
    · rw [show R.propHnd i = R.propHnd 0 + 4 * i by unfold R.propHnd; omega]
      exact hwords i hi
    · exact hstate ▸ KeptBut.snapshot fun i hi => Field.ofReg_propR (by unfold R.propHnd; omega) (by
        have : i < 8 := hi
        unfold R.propHnd; omega)
  · obtain ⟨hwords, houts, hstate⟩ := State.registerRead_snapshot (off := R.exchBkt 0)
      (l := (List.range 32).map fun i => wordOf (s.bucket (s.regF R.exchSel 0 12)) i) hok rfl
      s.beforeRead_exchBkt rfl rfl rfl State.liveReg_exchBkt_zero
    refine ⟨fun i hi => ?_, houts, ?_⟩
    · rw [show R.exchBkt i = R.exchBkt 0 + 4 * i by unfold R.exchBkt; omega]
      exact (hwords i (by simpa using hi)).trans (by simp [listGet, hi])
    · exact hstate ▸ KeptBut.snapshot fun i hi => Field.ofReg_exchR (by unfold R.exchBkt; omega) (by
        have : i < 32 := by simpa using hi
        unfold R.exchBkt; omega)

/-- Settles O14. -/
theorem registerReads : Obligations.RegisterReads := ⟨latchedReads_claim, readToClear_claim, snapshots_claim⟩

end Sys2Proof.Machine
end

section
/-! SUPPORT. Intake (R281 to R285, R459). -/

namespace Sys2Proof.Machine

/-! Bytes that enter the assembly buffer. -/

/-- Byte lanes laid into a cue: a bit of a byte that a lane covers comes from the lane. -/
theorem getLsbD_foldl_setBits (data : BitVec 512) (base : Nat) (l : List Nat) (c : Cue) {p : Nat} (hp : p < 1024) :
    (l.foldl (fun c i => c.setBits (8 * (base + i)) 8 (fieldN data (8 * i) 8)) c).getLsbD p =
      if base ≤ p / 8 ∧ p / 8 - base ∈ l then data.getLsbD (8 * (p / 8 - base) + p % 8) else c.getLsbD p := by
  induction l generalizing c with
  | nil => simp
  | cons i l ih =>
    rw [List.foldl_cons, ih]
    by_cases hmem : base ≤ p / 8 ∧ p / 8 - base ∈ l
    · rw [if_pos hmem, if_pos ⟨hmem.1, List.mem_cons_of_mem _ hmem.2⟩]
    · rw [if_neg hmem]
      refine (getLsbD_entSet c (8 * (base + i), 8) _ hp).trans ?_
      dsimp only
      by_cases hi : p / 8 = base + i
      · rw [if_pos (by omega), if_pos ⟨by omega, List.mem_cons.2 (.inl (by omega))⟩, fieldN, Nat.testBit_mod_two_pow,
          Nat.testBit_shiftRight, decide_eq_true (by omega), Bool.true_and, BitVec.getLsbD]
        congr 1
        omega
      · rw [if_neg (by omega), if_neg]
        rintro ⟨hb, hm⟩
        rcases List.mem_cons.1 hm with h | h
        · omega
        · exact hmem ⟨hb, h⟩

theorem getLsbD_foldl_mask (base : Nat) (l : List Nat) (m : BitVec 128) {j : Nat} (hj : j < 128) :
    (l.foldl (fun (m : BitVec 128) i => m ||| (1 <<< (base + i))) m).getLsbD j =
      if base ≤ j ∧ j - base ∈ l then true else m.getLsbD j := by
  induction l generalizing m with
  | nil => simp
  | cons i l ih =>
    rw [List.foldl_cons, ih]
    by_cases hmem : base ≤ j ∧ j - base ∈ l
    · rw [if_pos hmem, if_pos ⟨hmem.1, List.mem_cons_of_mem _ hmem.2⟩]
    · have hbit : (BitVec.ofNat 128 (1 <<< (base + i))).getLsbD j = decide (j = base + i) := by
        rw [BitVec.getLsbD_ofNat, decide_eq_true hj, Bool.true_and, Nat.one_shiftLeft, Nat.testBit_two_pow]
        exact decide_eq_decide.2 eq_comm
      rw [if_neg hmem, BitVec.getLsbD_or, BitVec.natCast_eq_ofNat, hbit]
      by_cases h : j = base + i
      · rw [decide_eq_true h, Bool.or_true, if_pos ⟨by omega, List.mem_cons.2 (.inl (by omega))⟩]
      · rw [decide_eq_false h, Bool.or_false, if_neg]
        rintro ⟨hb, hm⟩
        rcases List.mem_cons.1 hm with h' | h'
        · omega
        · exact hmem ⟨hb, h'⟩

theorem mem_lanes {be : BitVec 64} {i : Nat} : i ∈ (List.range 64).filter be.getLsbD ↔ i < 64 ∧ be.getLsbD i = true := by
  rw [List.mem_filter, List.mem_range]

/-- One byte of the buffer behind a write of byte lanes (R282, R459). -/
theorem assemble_byte (ln : LineSt) {base : Nat} (be : BitVec 64) (data : BitVec 512) {j : Nat} (hj : j < 128) :
    let w := base ≤ j ∧ j - base < 64 ∧ be.getLsbD (j - base) = true
    fieldN (assemble ln base be data).asmData (8 * j) 8 =
        (if w then fieldN data (8 * (j - base)) 8 else fieldN ln.asmData (8 * j) 8) ∧
      (assemble ln base be data).asmMask.getLsbD j = if w then true else ln.asmMask.getLsbD j := by
  intro w
  have hlane : (base ≤ j ∧ j - base ∈ (List.range 64).filter be.getLsbD) ↔ w := and_congr_right fun _ => mem_lanes
  constructor
  · have hbits (i : Nat) (hi : i < 8) : (assemble ln base be data).asmData.getLsbD (8 * j + i) =
        if w then data.getLsbD (8 * (j - base) + i) else ln.asmData.getLsbD (8 * j + i) := by
      refine (getLsbD_foldl_setBits data base _ ln.asmData (by omega)).trans ?_
      rw [show (8 * j + i) / 8 = j by omega, show (8 * j + i) % 8 = i by omega]
      exact if_congr hlane rfl rfl
    have hbyte {n : Nat} (x : BitVec n) (lo : Nat)
        (h : ∀ i, i < 8 → (assemble ln base be data).asmData.getLsbD (8 * j + i) = x.getLsbD (lo + i)) :
        fieldN (assemble ln base be data).asmData (8 * j) 8 = fieldN x lo 8 :=
      fieldN_eq_of_bits (v := x.toNat >>> lo) fun i hi => by
        rw [h i hi, Nat.testBit_shiftRight, BitVec.getLsbD]
    split
    · exact hbyte data _ fun i hi => (hbits i hi).trans (if_pos ‹_›)
    · exact hbyte ln.asmData _ fun i hi => (hbits i hi).trans (if_neg ‹_›)
  · exact (getLsbD_foldl_mask base _ ln.asmMask hj).trans (if_congr hlane rfl rfl)

/-! An intake write that the port serves. -/

section
variable {s : State} (hack : s.portAcks = true) (hheld : s.portHeld = false) (hpow : s.pstate < 2)
  (l : Line) (off : Nat) (be : BitVec 64) (data : BitVec 512)
include hack hheld hpow

/-- A served write of the intake window, behind the checks of the port. -/
theorem State.intakeWrite_served : s.intakeWrite l off be data =
    (let base := off % 128 / 64 * 64
     let covers : Bool := decide (base = 64) && be.getLsbD 60
     if s.intakeDenied l then s.hostTouch.intakeDrop l (some 14) covers
     else if s.regB (R.lineStatus l.idx) 12 then s.hostTouch.intakeDrop l none covers
     else
       let ln := assemble (s.line l) base be data
       if covers = false then s.hostTouch.setLine l ln
       else
         let c := ln.asmData
         let s := s.hostTouch.setLine l { ln with asmData := 0, asmMask := 0 }
         if (ln.asmMask == BitVec.allOnes 128) = false then s.intakeDrop l (some 13) true
         else if s.mayCommit l then s.commit l c
         else (s.updLine l fun ln => { ln with held := some c }).restart (.hold l)) := by
  have hdenied : s.hostTouch.intakeDenied l = s.intakeDenied l := by
    unfold State.intakeDenied State.ready
    rw [State.session_hostTouch, State.regB_congr (State.hostTouch_reg_ne s (by decide)),
      State.regB_congr (State.hostTouch_reg_ne s (by decide))]
    rfl
  have hover : s.hostTouch.regB (R.lineStatus l.idx) 12 = s.regB (R.lineStatus l.idx) 12 :=
    State.regB_congr (State.hostTouch_reg_ne s (by unfold R.lineStatus R.sesIdleTicks; omega)) 12
  unfold State.intakeWrite
  rw [if_neg (by simp [hack, hheld]), if_neg (by omega)]
  dsimp only
  rw [hdenied, hover]
  rfl

end

/-! What a commit needs of the state. -/

theorem State.ringAddr_congr {s t : State} {l : Line} (hreg : t.reg (R.lineRing l.idx) = s.reg (R.lineRing l.idx))
    (hprop : t.prop = s.prop) (p : BitVec 32) : t.ringAddr l p = s.ringAddr l p := by
  unfold State.ringAddr State.ringSlots State.handle State.page
  dsimp only
  rw [hprop, State.regF_congr hreg, State.regF_congr hreg]

/-- RETIRE looks at the line's positions and loops and at the fetchers. -/
theorem State.retirePos_congr {s t : State} {l : Line} (hline : t.line l = { s.line l with
    asmData := (t.line l).asmData, asmMask := (t.line l).asmMask }) (hfetch : t.fetchers = s.fetchers)
    (hreg : ∀ o, Field.ofReg o = .splitR → t.reg o = s.reg o) : t.retirePos l = s.retirePos l := by
  have hctl (e : Nat) : Field.ofReg (R.lineSplitCtl e) = .splitR :=
    Field.ofReg_splitR (by unfold R.lineSplitCtl; omega) (by unfold R.lineSplitCtl; omega)
  unfold State.retirePos
  dsimp only
  rw [hline]
  simp only [State.regF_congr (hreg _ (hctl _)), State.regB_congr (hreg _ (hctl _)), hreg _ (R.lineSplitPtr_ofReg _),
    State.fetcher, hfetch]
  rfl

/-- Whether a commit may land does not depend on the assembly buffer or the session. -/
theorem State.mayCommit_congr {s t : State} {l : Line} (hk : KeptBut [.lines, .doorR] s t) (hline : t.line l = { s.line l with
    asmData := (t.line l).asmData, asmMask := (t.line l).asmMask }) : t.mayCommit l = s.mayCommit l := by
  have hretire := State.retirePos_congr hline (hk.same .fetchers (by decide)) (hk.same .splitR (by decide))
  have hslots : t.ringSlots l = s.ringSlots l := by
    unfold State.ringSlots
    rw [State.regF_congr (hk.reg (by rw [R.lineRing_ofReg]; decide))]
  have hsoft : t.softBusy = s.softBusy := State.regB_congr (hk.reg (by decide)) 0
  unfold State.mayCommit
  dsimp only
  rw [hretire, hslots, hsoft, hline]

/-- A dropped cue sets a bit of LINE_STATUS where there is one to set, and is counted (R284, R285). -/
theorem State.intakeDrop_spec (s : State) (l : Line) {b : Nat} (hb : b < 32) (covers : Bool) :
    (s.intakeDrop l (some b) covers).regB (R.lineStatus l.idx) b = true ∧
      (s.intakeDrop l (some b) covers).reg (R.lineIntakeRefused l.idx) =
        (if covers then satAdd (s.reg (R.lineIntakeRefused l.idx)) 1 else s.reg (R.lineIntakeRefused l.idx)) ∧
      Only [] [R.lineStatus l.idx, R.lineIntakeRefused l.idx] s (s.intakeDrop l (some b) covers) := by
  have hne : R.lineIntakeRefused l.idx ≠ R.lineStatus l.idx := by unfold R.lineIntakeRefused R.lineStatus; omega
  have hset : Only [] [R.lineStatus l.idx, R.lineIntakeRefused l.idx] s (s.setB (R.lineStatus l.idx) b true) :=
    (Only.refl _ _ s).setB (by simp)
  unfold State.intakeDrop
  dsimp only
  cases covers with
  | false => exact ⟨State.regB_setB_self _ _ _ _ hb, State.reg_setB_ne _ _ _ hne, hset⟩
  | true =>
    refine ⟨?_, ?_, hset.count (by simp)⟩
    · exact (State.regB_congr (State.reg_count_ne _ _ hne.symm) b).trans (State.regB_setB_self _ _ _ _ hb)
    · exact (State.reg_count_self _ _ _).trans (by rw [State.reg_setB_ne _ _ _ hne]; rfl)

theorem State.lineRing_hostTouch (s : State) (l : Line) : s.hostTouch.reg (R.lineRing l.idx) = s.reg (R.lineRing l.idx) :=
  State.hostTouch_reg_ne s (by unfold R.lineRing R.sesIdleTicks; omega)

/-- The claim of O15 about bytes that enter the buffer. -/
theorem intakeBytes_claim : Sys2Proof.Claims.IntakeBytes := by
  intro s l off be data hack hheld hpow hden hover hcov base
  have hbytes : s.intakeWrite l off.toNat be data = s.hostTouch.setLine l (assemble (s.line l) base be data) := by
    rw [State.intakeWrite_served hack hheld hpow, hden, hover]
    refine (if_neg Bool.false_ne_true).trans ((if_neg Bool.false_ne_true).trans (if_pos ?_))
    rcases hcov with h | h
    · rw [decide_eq_false (by omega), Bool.false_and]
    · rw [h, Bool.and_false]
  refine Ends.of rfl hbytes ⟨?_, fun k hk => State.line_setLine_ne _ _ hk, ?_, fun j hj => ?_⟩
  · rw [State.line_setLine_self]
    rfl
  · exact ((Only.refl _ _ s).hostTouch (by simp)).kept (kept_setLine ..).but (by decide) (by decide)
  · rw [State.line_setLine_self]
    exact assemble_byte (s.line l) be data hj

theorem State.refused_hostTouch (s : State) (l : Line) :
    s.hostTouch.reg (R.lineIntakeRefused l.idx) = s.reg (R.lineIntakeRefused l.idx) :=
  State.hostTouch_reg_ne s (by unfold R.lineIntakeRefused R.sesIdleTicks; omega)

/-- The claim of O15 about refused intake writes. -/
theorem intakeDenied_claim : Sys2Proof.Claims.IntakeDenied := by
  intro s l off be data hack hheld hpow covers n
  have hcov : (decide (off.toNat % 128 / 64 * 64 = 64) && be.getLsbD 60) = decide covers := by
    rw [Bool.decide_and, decide_eq_decide.2 (by omega : off.toNat % 128 / 64 * 64 = 64 ↔ 64 ≤ off.toNat % 128),
      Bool.decide_eq_true]
  refine ⟨fun hden => ?_, fun hden hover => ?_⟩
  · have hdrop : s.intakeWrite l off.toNat be data = s.hostTouch.intakeDrop l (some 14) (decide covers) := by
      rw [State.intakeWrite_served hack hheld hpow, hden, ← hcov]
      exact if_pos rfl
    obtain ⟨hbit, hcount, honly⟩ := s.hostTouch.intakeDrop_spec l (b := 14) (by decide) (decide covers)
    refine Ends.of rfl hdrop ⟨hbit, hcount.trans ?_,
      ((Only.refl _ _ s).hostTouch (by simp)).trans (honly.mono (by decide) (by simp))⟩
    simp only [State.refused_hostTouch, decide_eq_true_eq]
    rfl
  · have hdrop : s.intakeWrite l off.toNat be data =
        if decide covers then s.hostTouch.count (R.lineIntakeRefused l.idx) 1 else s.hostTouch := by
      rw [State.intakeWrite_served hack hheld hpow, hden, hover, ← hcov]
      exact (if_neg Bool.false_ne_true).trans (if_pos rfl)
    have htouch : Only [] [R.sesIdleTicks, R.lineIntakeRefused l.idx] s s.hostTouch := (Only.refl _ _ s).hostTouch (by simp)
    refine Ends.of rfl hdrop ?_
    by_cases h : covers
    · rw [if_pos (decide_eq_true h)]
      refine ⟨?_, htouch.count (by simp)⟩
      rw [State.reg_count_self, State.refused_hostTouch]
      exact (if_pos h).symm
    · rw [if_neg (by simp [h])]
      exact ⟨(s.refused_hostTouch l).trans (if_neg h).symm, htouch⟩

/-- The state in which a commit is judged: its line's buffer is empty. -/
def State.taken (s : State) (l : Line) : State := s.hostTouch.setLine l { s.line l with asmData := 0, asmMask := 0 }

theorem State.line_taken (s : State) (l : Line) : (s.taken l).line l = { s.line l with asmData := 0, asmMask := 0 } :=
  State.line_setLine_self _ _ _

theorem kept_taken (s : State) (l : Line) : KeptBut [.lines, .doorR] s (s.taken l) :=
  (kept_setLine ..).but.step (by decide) ((kept_hostTouch s).but.mono (by decide))

theorem Only.taken (s : State) (l : Line) : Only [.lines] [R.sesIdleTicks] s (s.taken l) :=
  ((Only.refl _ _ s).hostTouch (by simp)).kept (kept_setLine ..).but (by decide) (by decide)

/-- A write that covers byte 124 ends the assembly (R281 to R284). -/
theorem State.intakeWrite_commits {s : State} (hack : s.portAcks = true) (hheld : s.portHeld = false) (hpow : s.pstate < 2)
    {l : Line} {off : Nat} {be : BitVec 64} (data : BitVec 512) (hoff : 64 ≤ off % 128) (hbe : be.getLsbD 60 = true)
    (hden : s.intakeDenied l = false) (hover : s.regB (R.lineStatus l.idx) 12 = false) :
    s.intakeWrite l off be data =
      if ((assemble (s.line l) 64 be data).asmMask == BitVec.allOnes 128) = false then (s.taken l).intakeDrop l (some 13) true
      else if s.mayCommit l then (s.taken l).commit l (assemble (s.line l) 64 be data).asmData
      else ((s.taken l).updLine l fun ln => { ln with held := some (assemble (s.line l) 64 be data).asmData }).restart
        (.hold l) := by
  have hmay : (s.taken l).mayCommit l = s.mayCommit l := State.mayCommit_congr (kept_taken s l) (by rw [State.line_taken])
  rw [State.intakeWrite_served hack hheld hpow, hden, hover, hbe, show off % 128 / 64 * 64 = 64 by omega, ← hmay]
  rfl

/-- The claim of O15 about commits. -/
theorem intakeCommit_claim : Sys2Proof.Claims.IntakeCommit := by
  intro s l off be data hoff hbe hack hheld hpow hden hover asm
  have hwrite := State.intakeWrite_commits hack hheld hpow data hoff hbe hden hover
  refine ⟨fun htorn => ?_, fun hwhole hmay => ?_, fun hwhole hmay => ?_⟩
  · refine Ends.of rfl (hwrite.trans (if_pos (beq_eq_false_iff_ne.2 htorn))) ?_
    obtain ⟨hbit, hcount, honly⟩ := (s.taken l).intakeDrop_spec l (b := 13) (by decide) true
    refine ⟨?_, hbit, hcount.trans ?_, ((Only.taken s l).mono (by decide) (by simp)).trans (honly.mono (by decide) (by simp))⟩
    · rw [State.line, (kept_intakeDrop (s.taken l) l (some 13) true).but.same .lines (by decide)]
      exact s.line_taken l
    · rw [if_pos rfl]
      exact congrArg (satAdd · 1) (s.refused_hostTouch l)
  · refine Ends.of rfl (hwrite.trans ((if_neg (by simpa using hwhole)).trans (if_pos hmay))) ?_
    obtain ⟨hline, hothers, honly, hread⟩ := (s.taken l).commit_spec l asm.asmData
    have htail : ((s.taken l).line l).tail = (s.line l).tail := by rw [State.line_taken]
    have hring := State.ringAddr_congr (s.lineRing_hostTouch l) rfl (t := s.taken l) (s.line l).tail
    refine ⟨by rw [hline, State.line_taken], fun k hk => (hothers k hk).trans (State.line_setLine_ne _ _ hk),
      ((Only.taken s l).mono (by decide) (by simp)).trans (honly.mono (by decide) (by simp)), fun a => ?_⟩
    rw [hread, htail, hring]
    rfl
  · refine Ends.of rfl (hwrite.trans ((if_neg (by simpa using hwhole)).trans (if_neg (by simp [hmay])))) ⟨?_, ?_⟩
    · show ((s.taken l).updLine l fun ln => { ln with held := some asm.asmData }).line l = _
      rw [State.updLine, State.line_setLine_self, State.line_taken]
    · exact (((Only.taken s l).mono (by decide) (by simp)).kept (kept_updLine ..).but (by decide) (by decide)).kept
        (kept_restart ..).but (by decide) (by decide)

/-- The claim of O15 about held commits. -/
theorem heldCommit_claim : Sys2Proof.Claims.HeldCommit := by
  intro s l c hheld
  have hlines : Only [.lines] [R.lineStatus l.idx, R.lineIntakeRefused l.idx] s
      (s.updLine l fun ln => { ln with held := none }) := Only.ofKept (kept_updLine ..).but (by decide) (by decide)
  have hfree : (s.updLine l fun ln => { ln with held := none }).line l = { s.line l with held := none } :=
    State.line_setLine_self _ _ _
  refine ⟨fun hmay => ?_, fun hmay => ?_, fun hage => ?_, fun hage => ?_⟩
  · have hland : s.heldLands l = (s.updLine l fun ln => { ln with held := none }).commit l c := by
      rw [State.heldLands, hheld]
      exact if_pos hmay
    obtain ⟨hline, hothers, honly, hread⟩ := (s.updLine l fun ln => { ln with held := none }).commit_spec l c
    refine Ends.of rfl hland ⟨by rw [hline, hfree], fun k hk => (hothers k hk).trans (State.line_setLine_ne _ _ hk), ?_, fun a => ?_⟩
    · exact (Only.ofKept (kept_updLine ..).but (by decide) (by decide)).trans honly
    · rw [hread, hfree]
      rfl
  · refine Ends.of rfl ?_ rfl
    rw [State.heldLands, hheld]
    exact if_neg (by simp [hmay])
  · refine Ends.of rfl ?_ rfl
    rw [State.holdExpires, hheld]
    exact if_pos hage
  · have hdrop : s.holdExpires l = (s.updLine l fun ln => { ln with held := none }).intakeDrop l (some 12) true := by
      rw [State.holdExpires, hheld]
      exact if_neg (by omega)
    obtain ⟨hbit, hcount, honly⟩ := (s.updLine l fun ln => { ln with held := none }).intakeDrop_spec l (b := 12) (by decide) true
    refine Ends.of rfl hdrop ⟨?_, hbit, hcount, hlines.trans (honly.mono (by decide) (by simp))⟩
    rw [State.line, (kept_intakeDrop _ l (some 12) true).but.same .lines (by decide)]
    exact hfree

/-- Settles O15. -/
theorem intake : Obligations.Intake := ⟨intakeBytes_claim, intakeCommit_claim, intakeDenied_claim, heldCommit_claim⟩

end Sys2Proof.Machine
end

section
/-! SUPPORT. Split mode and the repertoire store. -/

namespace Sys2Proof.Machine

theorem Only.foldl {α : Type} {fs : List Field} {rs : List Nat} {f : State → α → State} (l : List α) {s t : State}
    (k : ∀ u x, Only fs rs u (f u x)) (h : Only fs rs s t) : Only fs rs s (l.foldl f t) := by
  induction l generalizing t with
  | nil => exact h
  | cons x xs ih => exact ih (h.trans (k t x))

theorem Only.iter {fs : List Field} {rs : List Nat} {f : Nat → State → State} (n : Nat) {s t : State}
    (k : ∀ i u, Only fs rs u (f i u)) (h : Only fs rs s t) : Only fs rs s (iter n f t) :=
  Only.foldl _ (fun u i => k i u) h

theorem Only.ite {fs : List Field} {rs : List Nat} {s t u : State} {c : Prop} [Decidable c] (h : Only fs rs s t)
    (k : Only fs rs s u) : Only fs rs s (if c then t else u) := by split <;> assumption

theorem Only.setFetcher {fs : List Field} {rs : List Nat} {s t : State} (h : Only fs rs s t) (e : Nat) (v : Fetcher)
    (m : fs.contains .fetchers = true) : Only fs rs s (t.setFetcher e v) :=
  h.kept (l := [.fetchers]) (KeptBut.upd (KeptBut.refl _ t)) (by simpa using m) (by decide)

theorem Only.setLine {fs : List Field} {rs : List Nat} {s t : State} (h : Only fs rs s t) (l : Line) (v : LineSt)
    (m : fs.contains .lines = true) : Only fs rs s (t.setLine l v) :=
  h.kept (l := [.lines]) (KeptBut.upd (KeptBut.refl _ t)) (by simpa using m) (by decide)

theorem Only.regB {fs : List Field} {rs : List Nat} {s t : State} (h : Only fs rs s t) {o : Nat} (m : o ∉ rs) (i : Nat) :
    t.regB o i = s.regB o i := State.regB_congr (h.regs o m) i

theorem Only.regF {fs : List Field} {rs : List Nat} {s t : State} (h : Only fs rs s t) {o : Nat} (m : o ∉ rs) (lo w : Nat) :
    t.regF o lo w = s.regF o lo w := State.regF_congr (h.regs o m) lo w

/-! LINE_MODE. -/

/-- Bit 1 of a write of LINE_MODE clears REFUSED (R312). -/
def State.clearRefused (s : State) (v : Word) : State := if bit v 1 then s.setB R.lineMode 1 false else s

/-- Every fetcher takes its line's step number. -/
def State.fetcherSteps (s : State) : State := iter 0x22 (fun e s =>
  if e = 0 then s else s.setFetcher e { s.fetcher e with step := s.stepNum (s.fetcherCtx e).line }) s

theorem Only.clearRefused (s : State) (v : Word) : Only [] [R.sesIdleTicks, R.lineMode] s (s.clearRefused v) :=
  ((Only.refl _ _ s).setB (by simp)).ite (Only.refl _ _ s)

theorem State.refused_clearRefused (s : State) (v : Word) :
    (s.clearRefused v).regB R.lineMode 1 = (!v.getLsbD 1 && s.regB R.lineMode 1) := by
  unfold State.clearRefused
  by_cases h : bit v 1 = true
  · rw [if_pos h, State.regB_setB_self _ _ _ _ (by decide), show v.getLsbD 1 = true from h]; rfl
  · rw [if_neg h, show v.getLsbD 1 = false from Bool.eq_false_iff.2 h]; rfl

theorem State.split_clearRefused (s : State) (v : Word) : (s.clearRefused v).regB R.lineMode 0 = s.regB R.lineMode 0 := by
  unfold State.clearRefused
  split
  · exact State.regB_setB_out _ _ _ _ _ (by decide) (by decide)
  · rfl

theorem Only.fetcherSteps (s : State) : Only [.fetchers] [] s s.fetcherSteps :=
  Only.iter _ (fun _ u => (Only.refl _ _ u).ite ((Only.refl _ _ u).setFetcher _ _ rfl)) (Only.refl _ _ s)

theorem State.splitWrite_refused {s : State} (h : s.splitMayChange = false) (v : Word) :
    s.splitWrite v = s.setB R.lineMode 1 true := if_pos h

theorem State.splitWrite_same {s : State} (h : s.splitMayChange = true) {v : Word} (e : bit v 0 = s.regB R.lineMode 0) :
    s.splitWrite v = s.clearRefused v := (if_neg (by simp [h])).trans (if_pos e)

theorem State.splitWrite_changed {s : State} (h : s.splitMayChange = true) {v : Word} (e : bit v 0 ≠ s.regB R.lineMode 0) :
    s.splitWrite v = if bit v 0 then ((s.clearRefused v).setB R.lineMode 0 (bit v 0)).fetcherSteps
      else (s.clearRefused v).setB R.lineMode 0 (bit v 0) := (if_neg (by simp [h])).trans (if_neg e)

/-- A write of LINE_MODE that is taken (R312). -/
theorem State.splitWrite_taken {s : State} (h : s.splitMayChange = true) (v : Word) :
    (s.splitWrite v).regB R.lineMode 0 = v.getLsbD 0 ∧
      (s.splitWrite v).regB R.lineMode 1 = (!v.getLsbD 1 && s.regB R.lineMode 1) ∧
      Only [.fetchers] [R.sesIdleTicks, R.lineMode] s (s.splitWrite v) := by
  have hclear := (Only.clearRefused s v).mono (gs := [.fetchers]) rfl fun _ h => h
  by_cases e : bit v 0 = s.regB R.lineMode 0
  · rw [State.splitWrite_same h e, State.split_clearRefused, State.refused_clearRefused]
    exact ⟨e.symm, rfl, hclear⟩
  · have hset : Only [.fetchers] [R.sesIdleTicks, R.lineMode] s ((s.clearRefused v).setB R.lineMode 0 (bit v 0)) :=
      hclear.setB (by simp)
    have h0 := State.regB_setB_self (s.clearRefused v) R.lineMode 0 (bit v 0) (by decide)
    have h1 := (State.regB_setB_out (s.clearRefused v) R.lineMode 0 1 (bit v 0) (by decide) (by decide)).trans
      (State.refused_clearRefused s v)
    rw [State.splitWrite_changed h e]
    split
    · have hsteps := Only.fetcherSteps ((s.clearRefused v).setB R.lineMode 0 (bit v 0))
      exact ⟨(hsteps.regB (by simp) 0).trans h0, (hsteps.regB (by simp) 1).trans h1,
        hset.trans (hsteps.mono rfl (by simp))⟩
    · exact ⟨h0, h1, hset⟩

theorem splitMode_claim : Sys2Proof.Claims.SplitMode := by
  intro s v hok
  have htouch : Only [] [R.sesIdleTicks, R.lineMode] s s.hostTouch := (Only.refl _ _ s).hostTouch (by simp)
  have hmode (i : Nat) : s.hostTouch.regB R.lineMode i = s.regB R.lineMode i :=
    State.regB_congr (s.hostTouch_reg_ne (by decide)) i
  refine ⟨fun hno => Ends.of rfl (State.hostWrite_ok _ hok) ?_, fun hmay => Ends.of rfl (State.hostWrite_ok _ hok) ?_,
    fun hne => ?_⟩
  · rw [State.splitWrite_refused hno]
    exact ⟨(State.regB_setB_out _ _ _ _ _ (by decide) (by decide)).trans (hmode 0), State.regB_setB_self _ _ _ _ (by decide),
      htouch.setB (by simp)⟩
  · obtain ⟨h0, h1, honly⟩ := State.splitWrite_taken hmay v
    refine ⟨h0, h1.trans (by rw [hmode 1]), (htouch.mono rfl fun _ h => h).trans honly, fun e => ?_⟩
    rw [State.splitWrite_same hmay (e.trans (hmode 0).symm)]
    exact htouch.trans (Only.clearRefused _ v)
  · have hflights : s.hostTouch.flights.isEmpty = false := by
      rw [Bool.eq_false_iff, ne_eq, List.isEmpty_iff]
      exact hne
    rw [State.splitMayChange, hflights, Bool.false_and]

/-! The repertoire window. -/

/-- A word written into the repertoire store reads back, and no other word changes. -/
theorem State.repWord_put (s : State) (k : Nat) (v : Word) (o : Nat) :
    ({ s with rep := NMap.set 0 s.rep k v, repBad := s.repBad.filter (· != k) } : State).repWord o =
      if o / 4 = k then v else s.repWord o := by
  unfold State.repWord State.repRotten
  dsimp only
  rw [NMap.get_set]
  by_cases h : o / 4 = k
  · rw [if_pos h, if_pos h, if_neg (by simp [h])]
  · have hbad : (s.repBad.filter (· != k)).contains (o / 4) = s.repBad.contains (o / 4) := by
      rw [Bool.eq_iff_iff]
      simp [h]
    rw [if_neg h, if_neg h, hbad]

theorem State.repWrite_ignored {s : State} {off : Nat} (h : s.session = false ∨ s.build.repBytes ≤ off) (v : Word) :
    s.repWrite off v = s := if_pos h

theorem any_routine_iff (s : State) :
    (allLines.any fun l => (s.line l).routine.isSome) = true ↔ ∃ l, (s.line l).routine ≠ none := by
  rw [List.any_eq_true]
  exact ⟨fun ⟨l, _, h⟩ => ⟨l, Option.isSome_iff_ne_none.1 h⟩,
    fun ⟨l, h⟩ => ⟨l, by cases l <;> decide, Option.isSome_iff_ne_none.2 h⟩⟩

theorem repertoireWrite_claim : Sys2Proof.Claims.RepertoireWrite := by
  intro s off v hok
  have htouch (fs : List Field) (rs : List Nat) (h : R.sesIdleTicks ∈ rs) : Only fs rs s s.hostTouch :=
    (Only.refl _ _ s).hostTouch h
  have hgo (hses : s.session = true) (hlt : off.toNat < s.build.repBytes) :
      ¬(s.hostTouch.session = false ∨ s.hostTouch.build.repBytes ≤ off.toNat) := by
    rw [State.session_hostTouch, hses]
    exact fun h => h.elim nofun (Nat.not_le.2 hlt)
  refine ⟨fun hses hlt hnone => Ends.of rfl (State.hostWrite_ok _ hok) ?_,
    fun hses hlt hsome => Ends.of rfl (State.hostWrite_ok _ hok) ?_,
    fun hno => Ends.of rfl (State.hostWrite_ok _ hok) ?_⟩
  · have hany : ¬(allLines.any fun l => (s.hostTouch.line l).routine.isSome) = true :=
      fun h => let ⟨l, hl⟩ := (any_routine_iff s.hostTouch).1 h; hl (hnone l)
    rw [State.repWrite, if_neg (hgo hses hlt), if_neg hany]
    exact ⟨State.repWord_put s.hostTouch _ v, (htouch _ _ (by simp)).kept (l := [.rep, .repBad]) (KeptBut.upd (KeptBut.refl _ _))
      (by decide) (by decide)⟩
  · rw [State.repWrite, if_neg (hgo hses hlt),
      if_pos ((any_routine_iff s.hostTouch).2 hsome)]
    exact ⟨by rw [State.reg_count_self, s.hostTouch_reg_ne (by decide)], (htouch _ _ (by simp)).count (by simp)⟩
  · rw [State.repWrite_ignored (by rwa [State.session_hostTouch]) v]
    exact htouch _ _ (by simp)

/-- Settles O18, claim by claim. -/
theorem splitAndRepertoire : Obligations.SplitAndRepertoire := ⟨splitMode_claim, repertoireWrite_claim⟩

end Sys2Proof.Machine
end

section
/-! SUPPORT. What a halt writes: the record of the line that halts, and what the halts of a core fault leave of it. -/

namespace Sys2Proof.Machine

/-- The registers of a line's halt record, with its watchdog count and the pending interrupts (R318). -/
def haltRegs (l : Line) : List Nat :=
  [R.lineHaltReason l.idx, R.lineHaltAddr l.idx, R.lineHaltCountLo l.idx, R.lineHaltCountHi l.idx, R.lineHaltTag l.idx,
    R.callWdogAge l.idx, R.ctlIrqPend]

theorem Only.haltRecord (s : State) (l : Line) (reason engine : Nat) (c : HaltCue) :
    Only [] (haltRegs l) s (s.haltRecord l reason engine c) :=
  (((((((Only.refl _ _ s).setReg (by simp [haltRegs])).setReg (by simp [haltRegs])).setReg (by simp [haltRegs])).setReg
    (by simp [haltRegs])).setReg (by simp [haltRegs])).setReg (by simp [haltRegs])).setB (by simp [haltRegs])

theorem State.reg_logRecord_of {s : State} (r : FaultRec) {o : Nat} (h : Field.ofReg o ≠ .fltR) (h' : Field.ofReg o ≠ .trig) :
    (s.logRecord r).reg o = s.reg o := Field.same_of_ofReg (kept_logRecord s r).but o (by simp [h, h'])

/-- The blocks of the registers that a halt writes. -/
theorem ofReg_haltRegs {l : Line} {o : Nat} (h : o ∈ haltRegs l) : Field.ofReg o ≠ .fltR ∧ Field.ofReg o ≠ .trig := by
  have hall : ∀ o ∈ haltRegs l, Field.ofReg o ≠ .fltR ∧ Field.ofReg o ≠ .trig := by cases l <;> decide
  exact hall o h

theorem haltRegs_disjoint {l k : Line} (h : k ≠ l) {o : Nat} (ho : o ∈ haltRegs l) (hirq : o ≠ R.ctlIrqPend) :
    o ∉ haltRegs k := by
  have hall : ∀ o ∈ haltRegs l, o ≠ R.ctlIrqPend → o ∉ haltRegs k := by
    revert h
    cases l <;> cases k <;> decide
  exact hall o ho hirq

/-- The registers of the record, as `haltRecord` leaves them. -/
theorem State.haltRecord_spec (s : State) (l : Line) (reason engine : Nat) (c : HaltCue) :
    (s.haltRecord l reason engine c).reg (R.lineHaltCountLo l.idx) = c.num.setWidth 32 ∧
      (s.haltRecord l reason engine c).reg (R.callWdogAge l.idx) = 0 ∧
      (s.haltRecord l reason engine c).regB R.ctlIrqPend (1 + l.idx) = true := by
  unfold State.haltRecord State.latchIrq
  dsimp only
  generalize at32 0 reason ||| at32 8 (engine % 64) ||| at32 14 c.src ||| at32 16 c.opcode = v
  generalize at32 0 (c.num.toNat / 2 ^ 32) ||| at32 16 c.epoch.toNat = w
  cases l <;> simp (disch := decide) only [State.reg_setB_ne, State.reg_setReg_ne, State.reg_setReg_self, State.regB_setB_self,
    and_self]

/-- The first halt of a line writes its record and its interrupt bit, and clears its watchdog count (R318, R353). -/
theorem State.haltCore_spec {s : State} {l : Line} (h : (s.line l).halted = false) (reason engine : Nat) (fetch : Bool)
    (c : HaltCue) :
    (s.haltCore l reason engine fetch c).reg (R.lineHaltCountLo l.idx) = c.num.setWidth 32 ∧
      (s.haltCore l reason engine fetch c).reg (R.callWdogAge l.idx) = 0 ∧
      (s.haltCore l reason engine fetch c).regB R.ctlIrqPend (1 + l.idx) = true := by
  have hlog (t : State) (r : FaultRec) {o : Nat} (ho : o ∈ haltRegs l) : (t.logRecord r).reg o = t.reg o :=
    State.reg_logRecord_of r (ofReg_haltRegs ho).1 (ofReg_haltRegs ho).2
  unfold State.haltCore
  dsimp only
  rw [if_neg (by simp [h]), hlog _ _ (by simp [haltRegs]), hlog _ _ (by simp [haltRegs]),
    State.regB_congr (hlog _ _ (by simp [haltRegs]))]
  exact State.haltRecord_spec _ _ _ _ _

/-- A halt of another line leaves the record of this one. -/
theorem State.reg_haltCore_other (s : State) {l k : Line} (h : k ≠ l) (reason engine : Nat) (fetch : Bool) (c : HaltCue)
    {o : Nat} (ho : o ∈ haltRegs l) (hirq : o ≠ R.ctlIrqPend) : (s.haltCore k reason engine fetch c).reg o = s.reg o := by
  unfold State.haltCore
  dsimp only
  rw [State.reg_logRecord_of _ (ofReg_haltRegs ho).1 (ofReg_haltRegs ho).2]
  split
  · rfl
  · exact (Only.haltRecord _ k _ _ _).regs o (haltRegs_disjoint h ho hirq)

/-- A halt clears no pending interrupt. -/
theorem State.irq_haltCore {s : State} {i : Nat} (hi : i < 32) (h : s.regB R.ctlIrqPend i = true) (k : Line)
    (reason engine : Nat) (fetch : Bool) (c : HaltCue) : (s.haltCore k reason engine fetch c).regB R.ctlIrqPend i = true := by
  unfold State.haltCore
  dsimp only
  rw [State.regB_congr (State.reg_logRecord_of _ (by decide) (by decide))]
  split
  · exact h
  · unfold State.haltRecord State.latchIrq
    dsimp only
    rw [State.regB_setB _ _ _ _ _ hi]
    split
    · rfl
    · generalize at32 0 reason ||| at32 8 (engine % 64) ||| at32 14 c.src ||| at32 16 c.opcode = v
      generalize at32 0 (c.num.toNat / 2 ^ 32) ||| at32 16 c.epoch.toNat = w
      cases k <;> simp (disch := decide) only [State.regB_setReg_ne] <;> exact h

/-- What the halts of the other lines leave of line `l`. -/
def State.lineKept (l : Line) (s u : State) : Prop :=
  u.line l = s.line l ∧ (∀ o ∈ haltRegs l, o ≠ R.ctlIrqPend → u.reg o = s.reg o) ∧
    ∀ i, i < 32 → s.regB R.ctlIrqPend i = true → u.regB R.ctlIrqPend i = true

theorem State.lineKept_refl (l : Line) (s : State) : State.lineKept l s s := ⟨rfl, fun _ _ _ => rfl, fun _ _ h => h⟩

theorem State.lineKept_trans {l : Line} {s t u : State} (h : State.lineKept l s t) (k : State.lineKept l t u) :
    State.lineKept l s u :=
  ⟨k.1.trans h.1, fun o ho hi => (k.2.1 o ho hi).trans (h.2.1 o ho hi), fun i hi hb => k.2.2 i hi (h.2.2 i hi hb)⟩

theorem State.lineKept_haltCore {s : State} {l k : Line} (h : k ≠ l) (reason engine : Nat) (fetch : Bool) (c : HaltCue) :
    State.lineKept l s (s.haltCore k reason engine fetch c) :=
  ⟨State.line_haltCore_ne s reason engine fetch c h.symm, fun _ ho hi => State.reg_haltCore_other s h _ _ _ _ ho hi,
    fun _ hi hb => State.irq_haltCore hi hb _ _ _ _ _⟩

/-- The halts of a core fault pass over the line that has halted already. -/
theorem State.lineKept_fatalHalts (s : State) (l : Line) : State.lineKept l s (s.fatalHalts (some l)) := by
  unfold State.fatalHalts
  generalize allLines = ls
  induction ls generalizing s with
  | nil => exact State.lineKept_refl l s
  | cons k ls ih =>
    refine State.lineKept_trans ?_ (ih _)
    dsimp only
    split
    · exact State.lineKept_refl l s
    · rename_i hk
      have hne : k ≠ l := fun e => hk (.inl (by rw [e]))
      have hcore := State.lineKept_haltCore (s := s) hne Code.coreFatal.num 0 false (s.headCue k (s.headOf k))
      split
      · exact hcore
      · exact ⟨(State.line_setLine_ne _ _ hne.symm).trans hcore.1, hcore.2⟩

/-- The halt of a line that runs: its record, its interrupt bit, its watchdog count and its state (R318). -/
theorem State.halt_spec {s : State} {l : Line} (h : (s.line l).halted = false) (reason : Code) (engine : Nat) (fetch : Bool)
    (c : HaltCue) :
    (s.halt l reason engine fetch c).line l = { s.line l with halted := true, more := false } ∧
      (s.halt l reason engine fetch c).reg (R.lineHaltReason l.idx) = haltReasonWord reason.num engine c ∧
      (s.halt l reason engine fetch c).reg (R.lineHaltCountLo l.idx) = c.num.setWidth 32 ∧
      (s.halt l reason engine fetch c).reg (R.callWdogAge l.idx) = 0 ∧
      (s.halt l reason engine fetch c).regB R.ctlIrqPend (1 + l.idx) = true := by
  have hline := State.haltCore_line s l reason.num engine fetch c
  rw [if_neg (by simp [h])] at hline
  have hreason := State.haltReason_haltCore h reason.num engine fetch c
  obtain ⟨hcount, hage, hirq⟩ := State.haltCore_spec h reason.num engine fetch c
  unfold State.halt
  split
  · obtain ⟨kline, kreg, kirq⟩ := State.lineKept_fatalHalts (s.haltCore l reason.num engine fetch c) l
    refine ⟨kline.trans hline, (kreg _ (by simp [haltRegs]) ?_).trans hreason, (kreg _ (by simp [haltRegs]) ?_).trans hcount,
      (kreg _ (by simp [haltRegs]) ?_).trans hage, kirq _ (by cases l <;> decide) hirq⟩ <;> cases l <;> decide
  · exact ⟨hline, hreason, hcount, hage, hirq⟩

end Sys2Proof.Machine
end

section
/-! SUPPORT. Turns of the Prompter: the heads it takes, the line it chooses and what a turn leaves. -/

namespace Sys2Proof.Machine

/-! The heads taken (R287). -/

/-- A rule for what holds behind the taking of the heads: each head taken is one that waits, stalls or may go. -/
theorem State.takeHeads_induct {P : State → Prop} {s : State} (hs : P s)
    (hstep : ∀ (t : State) (l : Line) (c : Cue), P t → (t.line l).taken = none → t.turnOf l ≠ .idle → t.turnOf l ≠ .skip →
      P ((t.fetchHead l).2.setLine l { (t.fetchHead l).2.line l with taken := some c })) : P s.takeHeads := by
  unfold State.takeHeads
  generalize allLines = ls
  induction ls generalizing s with
  | nil => exact hs
  | cons l ls ih =>
    refine ih ?_
    dsimp only
    split
    · exact hs
    · rename_i htaken
      have hnone : (s.line l).taken = none := by simpa using htaken
      split
      · next h => exact hstep s l _ hs hnone (by simp [h]) (by simp [h])
      · next h => exact hstep s l _ hs hnone (by simp [h]) (by simp [h])
      · next h => exact hstep s l _ hs hnone (by simp [h]) (by simp [h])
      · exact hs

theorem State.line_of_lines {s t : State} (h : t.lines = s.lines) (l : Line) : t.line l = s.line l := by
  unfold State.line; rw [h]

theorem State.line_fetchHead (s : State) (l k : Line) : (s.fetchHead l).2.line k = s.line k :=
  State.line_of_lines ((kept_fetchHead s l).but.same .lines (by decide)) k

/-- Taking the heads changes no part of a line but what it has taken. -/
theorem State.line_takeHeads (s : State) (k : Line) :
    s.takeHeads.line k = { s.line k with taken := (s.takeHeads.line k).taken } := by
  refine State.takeHeads_induct (P := fun t => t.line k = { s.line k with taken := (t.line k).taken }) rfl
    fun t l c ht _ _ _ => ?_
  by_cases h : k = l
  · subst h
    rw [State.line_setLine_self, State.line_fetchHead, ht]
  · rw [State.line_setLine_ne _ _ h, State.line_fetchHead]
    exact ht

theorem State.numbered_takeHeads (s : State) (k : Line) : (s.takeHeads.line k).numbered = (s.line k).numbered := by
  rw [State.line_takeHeads]; rfl

theorem State.turnOf_of_skip {s : State} {l : Line} (h : (s.line l).skip = true) : s.turnOf l = .idle ∨ s.turnOf l = .skip := by
  unfold State.turnOf
  dsimp only
  split
  · exact .inl rfl
  · exact .inr rfl

/-- A line that has a cue to discard takes no head. -/
theorem State.line_takeHeads_of_skip {s : State} {l : Line} (h : (s.line l).skip = true) : s.takeHeads.line l = s.line l := by
  refine State.takeHeads_induct (P := fun t => t.line l = s.line l) rfl fun t k c ht _ hidle hskip => ?_
  by_cases e : l = k
  · subst e
    exact absurd (State.turnOf_of_skip (s := t) (by rw [ht]; exact h)) (by simp [hidle, hskip])
  · rw [State.line_setLine_ne _ _ e, State.line_fetchHead]
    exact ht

theorem KeptBut.takeHeads (s : State) : KeptBut [.lines, .mem, .prop, .trig, .propR, .fltR] s s.takeHeads :=
  (kept_takeHeads s).but

/-! The line chosen (R289). -/

theorem State.turnOf_of_wantsTurn {s : State} {l : Line} (h : s.wantsTurn l = true) :
    (∃ r fetch c, s.turnOf l = .fail r fetch c) ∨ (∃ c, s.turnOf l = .go c) ∨ s.turnOf l = .skip := by
  revert h
  unfold State.wantsTurn
  generalize s.turnOf l = turn
  cases turn <;> simp

/-- The line of the slot `k` places behind the pointer. -/
def State.slot (s : State) (k : Nat) : Line := s.weave ((s.regF R.lineWeavePtr 0 5 + k) % 32)

/-- A line that appears in a slot. -/
def State.inWeave (s : State) (l : Line) : Bool := (List.range 32).any fun i => s.weave i == l

theorem State.inWeave_iff (s : State) (l : Line) : s.inWeave l = true ↔ ∃ k, k < 32 ∧ s.slot k = l := by
  simp only [State.inWeave, List.any_eq_true, List.mem_range, beq_iff_eq, State.slot]
  constructor
  · rintro ⟨i, hi, rfl⟩
    refine ⟨(i + 32 - s.regF R.lineWeavePtr 0 5 % 32) % 32, Nat.mod_lt _ (by decide), congrArg s.weave ?_⟩
    omega
  · rintro ⟨k, _, rfl⟩
    exact ⟨_, Nat.mod_lt _ (by decide), rfl⟩

/-- A line in no slot that wants a turn. -/
def State.leftOver (s : State) (l : Line) : Bool := !s.inWeave l && s.wantsTurn l

theorem State.choose_of_slot {s : State} {k : Nat} (h : (List.range 32).find? (fun k => s.wantsTurn (s.slot k)) = some k) :
    s.choose = some (s.slot k, (s.regF R.lineWeavePtr 0 5 + k + 1) % 32) := by
  have hfind : ((List.range 32).map fun k => (s.regF R.lineWeavePtr 0 5 + k) % 32).find? (fun i => s.wantsTurn (s.weave i)) =
      some ((s.regF R.lineWeavePtr 0 5 + k) % 32) := by
    rw [List.find?_map]
    exact congrArg (Option.map _) h
  unfold State.choose
  dsimp only
  rw [hfind]
  simp only [State.slot, Option.some.injEq, Prod.mk.injEq, true_and]
  omega

theorem State.choose_of_no_slot {s : State} (h : (List.range 32).find? (fun k => s.wantsTurn (s.slot k)) = none) :
    s.choose = (allLines.find? s.leftOver).map (·, s.regF R.lineWeavePtr 0 5) := by
  have hfind : ((List.range 32).map fun k => (s.regF R.lineWeavePtr 0 5 + k) % 32).find? (fun i => s.wantsTurn (s.weave i)) =
      none := by
    rw [List.find?_map]
    exact congrArg (Option.map _) h
  unfold State.choose
  dsimp only
  rw [hfind]
  rfl

theorem regF_lt (s : State) (o lo w : Nat) : s.regF o lo w < 2 ^ w := Nat.mod_lt _ (Nat.two_pow_pos w)

theorem State.choose_spec {s : State} {l : Line} {ptr : Nat} (h : s.choose = some (l, ptr)) :
    s.wantsTurn l = true ∧ ptr < 32 := by
  cases hslot : (List.range 32).find? (fun k => s.wantsTurn (s.slot k)) with
  | some k =>
    rw [State.choose_of_slot hslot] at h
    cases h
    exact ⟨List.find?_some (p := fun k => s.wantsTurn (s.slot k)) hslot, Nat.mod_lt _ (by decide)⟩
  | none =>
    rw [State.choose_of_no_slot hslot, Option.map_eq_some_iff] at h
    obtain ⟨k, hk, hkl⟩ := h
    cases hkl
    have hleft := List.find?_some hk
    rw [State.leftOver, Bool.and_eq_true] at hleft
    exact ⟨hleft.2, regF_lt _ _ 0 5⟩

/-! What follows a turn's act. -/

/-- The pointer moves on and Idle ends. -/
def State.turnEnd (s : State) (ptr : Nat) : State := (s.setF R.lineWeavePtr 0 5 ptr).leaveIdle

theorem State.takeTurn_eq (s : State) (l : Line) (ptr : Nat) : s.takeTurn l ptr = (s.turnAct l).turnEnd ptr := rfl

theorem Only.turnEnd (s : State) (ptr : Nat) : Only [] [R.lineWeavePtr, R.pwrStatus] s (s.turnEnd ptr) :=
  ((Only.refl _ _ s).setF (by simp)).leaveIdle (by simp)

theorem State.weavePtr_turnEnd (s : State) {ptr : Nat} (h : ptr < 32) : (s.turnEnd ptr).regF R.lineWeavePtr 0 5 = ptr := by
  have hset : (s.setF R.lineWeavePtr 0 5 ptr).regF R.lineWeavePtr 0 5 = ptr :=
    (State.regF_setF _ _ _ _ _ (by decide)).trans (Nat.mod_eq_of_lt h)
  unfold State.turnEnd State.leaveIdle
  split
  · exact (State.regF_setF_other _ _ _ _ _ _ (by decide)).trans hset
  · exact hset

theorem KeptBut.turnEnd (s : State) (ptr : Nat) : KeptBut [.lineR, .powerR] s (s.turnEnd ptr) :=
  (kept_leaveIdle _).but.step (by decide) ((keptBut_setReg s R.lineWeavePtr _).mono (by decide))

theorem State.line_turnEnd (s : State) (ptr : Nat) (l : Line) : (s.turnEnd ptr).line l = s.line l :=
  State.line_of_lines ((KeptBut.turnEnd s ptr).same .lines (by decide)) l

/-- A turn of the Prompter, where it may dispatch. -/
theorem State.prompterTurn_of_choose {s : State} (hmay : s.mayDispatch = true) {l : Line} {ptr : Nat}
    (h : s.takeHeads.choose = some (l, ptr)) : s.prompterTurn = (s.takeHeads.turnAct l).turnEnd ptr := by
  unfold State.prompterTurn
  rw [if_neg (by simp [hmay])]
  dsimp only
  rw [h]
  rfl

theorem State.prompterTurn_of_none {s : State} (hmay : s.mayDispatch = true) (h : s.takeHeads.choose = none) :
    s.prompterTurn = s.takeHeads := by
  unfold State.prompterTurn
  rw [if_neg (by simp [hmay])]
  dsimp only
  rw [h]

theorem State.turnAct_of_go {s : State} {l : Line} {c : Cue} (h : s.turnOf l = .go c) : s.turnAct l = s.dispatch l c := by
  unfold State.turnAct; rw [h]

theorem State.turnAct_of_fail {s : State} {l : Line} {r : Code} {fetch : Bool} {c : Cue} (h : s.turnOf l = .fail r fetch c) :
    s.turnAct l = (s.fetchHead l).2.haltHead l r fetch c := by
  unfold State.turnAct; rw [h]

theorem State.turnAct_of_skip {s : State} {l : Line} (h : s.turnOf l = .skip) : s.turnAct l = s.skipHead l := by
  unfold State.turnAct; rw [h]

/-- A turn that finds something to do is of a line in dispatch. -/
theorem State.inDispatch_of_turnOf {s : State} {l : Line} (h : s.turnOf l ≠ .idle) :
    (s.line l).enabled = true ∧ (s.line l).halted = false ∧ (s.line l).resetting = false := by
  unfold State.turnOf at h
  dsimp only at h
  split at h
  · exact absurd rfl h
  · next hc => simpa [not_or] using hc

end Sys2Proof.Machine
end

section
/-! SUPPORT. The order of the Prompter's turns, what stops them, and cues that fail their checks. -/

namespace Sys2Proof.Machine
theorem mem_allLines (l : Line) : l ∈ allLines := by cases l <;> decide

/-- The lines are searched from the lowest on. -/
theorem allLines_find?_lt {p : Line → Bool} {l j : Line} (h : allLines.find? p = some l) (hj : j.idx < l.idx) : p j = false := by
  obtain ⟨_, i, hi, rfl, hno⟩ := List.find?_eq_some_iff_getElem.1 h
  have hidx : ∀ (k : Nat) (hk : k < allLines.length), (allLines[k]).idx = k := by decide
  have hat : ∀ hk, allLines[j.idx]'hk = j := by cases j <;> exact fun _ => rfl
  have hno' := hno j.idx (hidx i hi ▸ hj)
  simpa [hat] using hno'

theorem weaveOrder_claim : Sys2Proof.Claims.WeaveOrder := by
  intro s slot
  cases hslot : (List.range 32).find? (fun k => s.wantsTurn (s.slot k)) with
  | some k =>
    obtain ⟨hwant, hk, hbefore⟩ := List.find?_range_eq_some.1 hslot
    rw [State.choose_of_slot hslot]
    refine ⟨⟨nofun, fun h => absurd hwant (by simp [h])⟩, fun l p h => ?_⟩
    cases h
    exact ⟨hwant, .inl ⟨k, List.mem_range.1 hk, rfl, rfl, fun j hj => (Bool.not_eq_true' _).mp (hbefore j hj)⟩⟩
  | none =>
    have hquiet : ∀ k, k < 32 → s.wantsTurn (s.slot k) = false := by simpa using hslot
    have hslots {l : Line} (h : s.inWeave l = true) : s.wantsTurn l = false := by
      obtain ⟨k, hk, rfl⟩ := (s.inWeave_iff l).1 h
      exact hquiet k hk
    rw [State.choose_of_no_slot hslot]
    refine ⟨?_, fun l p h => ?_⟩
    · rw [Option.map_eq_none_iff, List.find?_eq_none]
      refine ⟨fun h l => ?_, fun h l _ => by simp [State.leftOver, h l]⟩
      by_cases hin : s.inWeave l = true
      · exact hslots hin
      · simpa [State.leftOver, hin] using h l (mem_allLines l)
    · obtain ⟨j, hj, e⟩ := Option.map_eq_some_iff.1 h
      cases e
      have hleft := List.find?_some hj
      simp only [State.leftOver, Bool.and_eq_true, Bool.not_eq_true'] at hleft
      refine ⟨hleft.2, .inr ⟨rfl, fun k hk => ⟨fun e => ?_, hquiet k hk⟩, fun j' hlt hno => ?_⟩⟩
      · exact absurd ((s.inWeave_iff _).2 ⟨k, hk, e⟩) (by simp [hleft.1])
      · have hj' := allLines_find?_lt hj hlt
        have hout : s.inWeave j' = false := by
          rw [Bool.eq_false_iff, ne_eq, s.inWeave_iff]
          exact fun ⟨k, hk, e⟩ => hno k hk e
        simpa [State.leftOver, hout] using hj'

theorem State.lateSteps_of_turnOf_go {s : State} {l : Line} {c : Cue} (h : s.turnOf l = .go c) :
    s.lateSteps (s.lineCtx l) c = .go c := by
  have hsame {d : Cue} (e : s.lateSteps (s.lineCtx l) d = .go c) : d = c := by
    unfold State.lateSteps at e
    split at e
    · simp at e
    · split at e
      · simpa using e
      · simp at e
  unfold State.turnOf at h
  dsimp only at h
  split at h
  · simp at h
  split at h
  · simp at h
  split at h
  · cases hsame h; exact h
  split at h
  · simp at h
  · simp at h
  split at h
  · simp at h
  split at h
  · simp at h
  · cases hsame h; exact h

theorem State.lateSteps_go {s : State} {x : Ctx} {c : Cue} (h : s.lateSteps x c = .go c) :
    s.waitsMet c = true ∧ s.stallOf x c = 0 := by
  unfold State.lateSteps at h
  split at h
  · simp at h
  · next hw =>
    split at h
    · next hs => exact ⟨by simpa using hw, hs⟩
    · simp at h

/-- A chain of conditions whose answer is not that of its first. -/
theorem of_ite_eq {α : Type} {p : Prop} [Decidable p] {a b c : α} (h : (if p then a else b) = c) (hne : a ≠ c) :
    ¬p ∧ b = c := by
  split at h
  · exact absurd h hne
  · exact ⟨‹_›, h⟩

/-- Step 11 of a cue that nothing holds (R288). -/
theorem State.stallOf_eq_zero {s : State} {x : Ctx} {c : Cue} (h : s.stallOf x c = 0) :
    (c.opcode = 1 ∨ c.opcode = 7 ∨ c.opcode = 0x70 → s.fenceOpen x = true) ∧
      ∀ f ∈ s.flights, f.q.line = x.line → f.q.cue.opcode ≠ 0x12 := by
  obtain ⟨_, h⟩ := of_ite_eq h (by decide)
  obtain ⟨hfence, h⟩ := of_ite_eq h (by decide)
  obtain ⟨_, h⟩ := of_ite_eq h (by decide)
  obtain ⟨_, h⟩ := of_ite_eq h (by decide)
  obtain ⟨hconfig, _⟩ := of_ite_eq h (by decide)
  refine ⟨fun hop => by simpa [hop] using hfence, fun f hf hl hop => hconfig ?_⟩
  exact List.any_eq_true.2 ⟨f, hf, by simp [hop, hl]⟩

theorem readyCue_claim : Sys2Proof.Claims.ReadyCue := by
  intro s l c h
  obtain ⟨hen, hhalt, hreset⟩ := State.inDispatch_of_turnOf (by rw [h]; exact Turn.noConfusion)
  obtain ⟨hwaits, hstall⟩ := State.lateSteps_go (State.lateSteps_of_turnOf_go h)
  obtain ⟨hfence, hconfig⟩ := State.stallOf_eq_zero hstall
  refine ⟨hen, hhalt, hreset, fun w hw => ?_, hconfig, fun hop hroutine f hf hl => ?_⟩
  · exact of_decide_eq_true (List.all_eq_true.1 hwaits w hw)
  · have hbusy : s.busyBefore (s.lineCtx l) = false := by
      have hopen := hfence hop
      simp only [State.fenceOpen, Bool.and_eq_true, Bool.not_eq_true'] at hopen
      exact hopen.1.1
    simp only [State.busyBefore, State.lineCtx, hroutine, Bool.and_true] at hbusy
    exact absurd hl (by simpa using List.any_eq_false.1 hbusy f hf)

theorem fieldN_haltReasonWord_opcode {reason engine : Nat} {c : HaltCue} (hr : reason < 256) (hs : c.src < 4)
    (ho : c.opcode < 256) : fieldN (haltReasonWord reason engine c) 16 8 = c.opcode := by
  refine (fieldN_eq_of_bits (v := c.opcode) fun i hi => ?_).trans (Nat.mod_eq_of_lt ho)
  have high {x k n : Nat} (h : x < 2 ^ n) (hk : n ≤ k) : x.testBit k = false :=
    Nat.testBit_lt_two_pow (h.trans_le (Nat.pow_le_pow_right (by decide) hk))
  have he : (engine % 64).testBit (16 + i - 8) = false := high (n := 6) (Nat.mod_lt _ (by decide)) (by omega)
  have hsrc : c.src.testBit (16 + i - 14) = false := high (n := 2) hs (by omega)
  have hreason : reason.testBit (16 + i) = false := high (n := 8) hr (by omega)
  have h32 : 16 + i < 32 := by omega
  simp [haltReasonWord, -BitVec.getLsbD_eq_getElem, getLsbD_at32 _ _ h32, he, hsrc, hreason]

theorem Cue.opcode_lt (c : Cue) : c.opcode < 256 := Nat.mod_lt _ (by decide)

theorem State.headCue_src_lt (s : State) (l : Line) (c : Cue) : (s.headCue l c).src < 4 := by
  show (s.headPlace l).1 < 4
  unfold State.headPlace
  split
  · exact (by decide : 1 < 4)
  · exact (by decide : 0 < 4)

/-- A cue that fails its checks halts the line in front of it (R287, R318). -/
theorem State.haltHead_spec {s : State} {l : Line} (h : (s.line l).halted = false) (r : Code) (fetch : Bool) (c : Cue) :
    ((s.haltHead l r fetch c).line l).halted = true ∧
      ((s.haltHead l r fetch c).line l).count = (s.line l).count ∧
      ((s.haltHead l r fetch c).line l).epoch = (s.line l).epoch ∧
      (s.haltHead l r fetch c).regF (R.lineHaltReason l.idx) 0 8 = r.num ∧
      (s.haltHead l r fetch c).regF (R.lineHaltReason l.idx) 16 8 = c.opcode ∧
      (s.haltHead l r fetch c).regB R.ctlIrqPend (1 + l.idx) = true := by
  obtain ⟨hline, hreason, -, -, hirq⟩ := State.halt_spec h r 0 fetch (s.headCue l c)
  have hreg (lo w : Nat) : (s.haltHead l r fetch c).regF (R.lineHaltReason l.idx) lo w =
      fieldN (haltReasonWord r.num 0 (s.headCue l c)) lo w := congrArg (fieldN · lo w) hreason
  unfold State.haltHead State.updLine
  rw [State.line_setLine_self, hline]
  refine ⟨rfl, rfl, rfl, (hreg 0 8).trans ?_, (hreg 16 8).trans ?_, hirq⟩
  · rw [fieldN_haltReasonWord_reason, Nat.mod_eq_of_lt r.num_lt]
  · exact fieldN_haltReasonWord_opcode r.num_lt (s.headCue_src_lt l c) c.opcode_lt

theorem State.controlTurn_of_closed {s : State} (h : s.mayDispatch = false) (l : Line) (op : Nat) : s.controlTurn l op = s :=
  if_pos h

theorem prompterStops_claim : Sys2Proof.Claims.PrompterStops := by
  intro s l ptr upset board v turn
  refine ⟨fun h => Ends.of rfl (if_pos h) rfl, fun h c hc => ?_, fun hmay hnone => ?_, fun r fetch c hmay hsome hfail => ?_⟩
  · have hstay (op : Nat) := State.controlTurn_of_closed h l op
    simp only [List.mem_cons, List.not_mem_nil, or_false] at hc
    rcases hc with rfl | rfl | rfl | rfl | rfl | rfl | rfl | rfl | rfl <;> exact Ends.of rfl (hstay _) rfl
  · exact Ends.of rfl (State.prompterTurn_of_none hmay hnone) rfl
  · refine Ends.of rfl (State.prompterTurn_of_choose hmay hsome) ?_
    rw [State.turnAct_of_fail hfail]
    have hrun := (State.inDispatch_of_turnOf (by rw [hfail]; exact Turn.noConfusion)).2.1
    obtain ⟨hhalt, hcount, hepoch, hreason, hop, hirq⟩ :=
      State.haltHead_spec (s := (v.takeHeads.fetchHead l).2) (by rw [State.line_fetchHead]; exact hrun) r fetch c
    have hend := Only.turnEnd ((v.takeHeads.fetchHead l).2.haltHead l r fetch c) ptr
    have hout (o : Nat) (h : o = R.lineHaltReason l.idx ∨ o = R.ctlIrqPend) : o ∉ [R.lineWeavePtr, R.pwrStatus] := by
      rcases h with rfl | rfl
      · cases l <;> decide
      · decide
    have hkept : KeptBut [.lines, .mem, .prop, .trig, .ctlR, .powerR, .lineR, .callR, .propR, .fltR] v
        (((v.takeHeads.fetchHead l).2.haltHead l r fetch c).turnEnd ptr) :=
      (KeptBut.turnEnd _ _).step (by decide) ((kept_haltHead _ _ _ _ _).but.step (by decide)
        ((kept_fetchHead _ _).but.step (by decide) ((KeptBut.takeHeads v).mono (by decide))))
    rw [State.line_turnEnd]
    refine ⟨hhalt, hcount.trans ?_, hepoch.trans ?_, (hend.regF (hout _ (.inl rfl)) _ _).trans hreason,
      (hend.regF (hout _ (.inl rfl)) _ _).trans hop, (hend.regB (hout _ (.inr rfl)) _).trans hirq,
      hkept.same .board (by decide), State.weavePtr_turnEnd _ (State.choose_spec hsome).2, hkept⟩
    · rw [State.line_fetchHead, State.line_takeHeads]
    · rw [State.line_fetchHead, State.line_takeHeads]

/-- Settles O22, claim by claim. -/
theorem prompterOrder : Obligations.PrompterOrder := ⟨weaveOrder_claim, readyCue_claim, prompterStops_claim⟩

end Sys2Proof.Machine
end

section
/-! SUPPORT. Host halt, resume and resume with skip. -/

namespace Sys2Proof.Machine

theorem State.line_hostTouch (s : State) (l : Line) : s.hostTouch.line l = s.line l := rfl

theorem State.fatal_hostTouch (s : State) : s.hostTouch.fatal = s.fatal :=
  State.regB_congr (s.hostTouch_reg_ne (by decide)) _

theorem Only.updLine {fs : List Field} {rs : List Nat} {s t : State} (h : Only fs rs s t) (l : Line) (f : LineSt → LineSt)
    (m : fs.contains .lines = true) : Only fs rs s (t.updLine l f) := h.setLine l _ m

/-! LINE_CTRL.HALT (R318, R320). -/

theorem Ends.hostHalt {s : State} {l : Line} {P : State → Prop} (h : s.serve (R.lineCtrl l.idx) = .ok)
    (p : P (s.hostTouch.hostHalt l)) : Ends (.hostHalt l) s P := Ends.of rfl (State.hostWrite_ok _ h) p

theorem State.hostHalt_ignored {s : State} {l : Line} (h : (s.line l).enabled = false ∨ (s.line l).resetting = true) :
    s.hostHalt l = s := if_pos h

/-- The halt of a host, before the line's place is noted. -/
def State.hostHaltCore (s : State) (l : Line) : State :=
  s.haltCore l Code.hostHalt.num 0 false (s.headCue l (s.headOf l))

theorem State.hostHalt_first {s : State} {l : Line} (hen : (s.line l).enabled = true) (hreset : (s.line l).resetting = false)
    (h : (s.line l).halted = false) :
    s.hostHalt l = (s.hostHaltCore l).updLine l fun ln => { ln with atPrompter := true, taken := none } :=
  (if_neg (by simp [hen, hreset])).trans (if_neg (by simp [h]))

theorem State.hostHalt_further {s : State} {l : Line} (hen : (s.line l).enabled = true) (hreset : (s.line l).resetting = false)
    (h : (s.line l).halted = true) : s.hostHalt l = s.hostHaltCore l :=
  (if_neg (by simp [hen, hreset])).trans (if_pos h)

/-- A halt of a HALTED line sets MORE, leaves a record in the log and keeps the line's own. -/
theorem keptBut_haltCore_further {s : State} {l : Line} (h : (s.line l).halted = true) (reason engine : Nat) (fetch : Bool)
    (c : HaltCue) : KeptBut [.lines, .trig, .fltR] s (s.haltCore l reason engine fetch c) := by
  unfold State.haltCore
  dsimp only
  rw [if_pos h]
  exact (kept_logRecord _ _).but.step (by decide) (KeptBut.upd (KeptBut.refl _ s))

theorem keptBut_hostTouch (s : State) : KeptBut [.doorR] s s.hostTouch := keptBut_setReg s R.sesIdleTicks 0

theorem hostHalt_claim : Sys2Proof.Claims.HostHalt := by
  intro s l hok
  have htouch := keptBut_hostTouch s
  refine ⟨fun hen hreset => Ends.hostHalt hok ?_, fun h => Ends.hostHalt hok ?_⟩
  · by_cases hhalt : (s.line l).halted = true
    · have hline := State.haltCore_line s.hostTouch l Code.hostHalt.num 0 false (s.hostTouch.headCue l (s.hostTouch.headOf l))
      rw [State.line_hostTouch, if_pos hhalt] at hline
      have hkept : KeptBut [.lines, .trig, .doorR, .fltR] s (s.hostTouch.hostHaltCore l) :=
        (keptBut_haltCore_further (s := s.hostTouch) hhalt _ _ _ _).step (by decide) (htouch.mono (by decide))
      rw [State.hostHalt_further (s := s.hostTouch) hen hreset hhalt]
      exact ⟨(congrArg LineSt.halted hline).trans hhalt, fun k hk => State.line_haltCore_ne _ _ _ _ _ hk,
        (State.fltWr_haltCore _ _ _ _ _ _).trans (by rw [s.hostTouch_reg_ne (by decide)]), hkept.mono (by decide),
        fun h => absurd hhalt (by simp [h]), fun _ => ⟨hline, hkept⟩⟩
    · have hrun : (s.line l).halted = false := by simpa using hhalt
      have hline := State.haltCore_line s.hostTouch l Code.hostHalt.num 0 false (s.hostTouch.headCue l (s.hostTouch.headOf l))
      rw [State.line_hostTouch, if_neg hhalt] at hline
      obtain ⟨hcount, hage, hirq⟩ := State.haltCore_spec (s := s.hostTouch) hrun Code.hostHalt.num 0 false
        (s.hostTouch.headCue l (s.hostTouch.headOf l))
      have hreason := State.haltReason_haltCore (s := s.hostTouch) hrun Code.hostHalt.num 0 false
        (s.hostTouch.headCue l (s.hostTouch.headOf l))
      rw [State.hostHalt_first (s := s.hostTouch) hen hreset hrun]
      refine ⟨?_, fun k hk => ?_, ?_, ?_, fun _ => ⟨?_, ?_, hirq, hage, hcount⟩, fun h => absurd h hhalt⟩
      · rw [State.updLine, State.line_setLine_self, State.hostHaltCore, hline]
      · exact (State.line_setLine_ne _ _ hk).trans (State.line_haltCore_ne _ _ _ _ _ hk)
      · exact (State.fltWr_haltCore _ _ _ _ _ _).trans (by rw [s.hostTouch_reg_ne (by decide)])
      · exact (kept_updLine _ _ _).but.step (by decide) ((kept_haltCore _ _ _ _ _ _).but.step (by decide)
          (htouch.mono (by decide)))
      · rw [State.updLine, State.line_setLine_self, State.hostHaltCore, hline]
      · exact (congrArg (fieldN · 0 8) hreason).trans (fieldN_haltReasonWord_reason _ _ _)
  · rw [State.hostHalt_ignored (s := s.hostTouch) h]
    exact (Only.refl _ _ s).hostTouch (by simp)

/-! RESUME (R319). -/

theorem Ends.lineResume {s : State} {l : Line} {P : State → Prop} (h : s.serve (R.lineCtrl l.idx) = .ok)
    (p : P (s.hostTouch.resume l false)) : Ends (.lineResume l) s P := Ends.of rfl (State.hostWrite_ok _ h) p

theorem Ends.lineResumeSkip {s : State} {l : Line} {P : State → Prop} (h : s.serve (R.lineCtrl l.idx) = .ok)
    (p : P (s.hostTouch.resume l true)) : Ends (.lineResumeSkip l) s P := Ends.of rfl (State.hostWrite_ok _ h) p

/-- The line goes back to dispatch, and the fetchers that had halted it with it. -/
def State.goOn (s : State) (l : Line) : State :=
  iter 0x22 (fun e s =>
    let f := s.fetcher e
    if f.atFetcher ∧ s.regF (R.lineSplitCtl e) 1 2 = l.idx then
      s.setFetcher e { f with atFetcher := false, taken := none }
    else s) (s.updLine l fun k => { k with halted := false, atPrompter := false, taken := none })

theorem State.resume_ignored {s : State} {l : Line}
    (h : (s.line l).halted = false ∨ (s.line l).resetting = true ∨ s.fatal = true) (skip : Bool) : s.resume l skip = s :=
  if_pos h

theorem State.resume_taken {s : State} {l : Line} (hhalt : (s.line l).halted = true) (hreset : (s.line l).resetting = false)
    (hfatal : s.fatal = false) (skip : Bool) : s.resume l skip = (if skip then s.skipHalted l else s).goOn l :=
  if_neg (by simp [hhalt, hreset, hfatal])

/-- The fetchers' part of a resume. -/
theorem Only.goOn (s : State) (l : Line) :
    Only [.fetchers] [] (s.updLine l fun k => { k with halted := false, atPrompter := false, taken := none }) (s.goOn l) :=
  Only.iter _ (fun _ u => ((Only.refl _ _ u).setFetcher _ _ rfl).ite (Only.refl _ _ u)) (Only.refl _ _ _)

theorem Only.line {fs : List Field} {rs : List Nat} {s t : State} (h : Only fs rs s t) (m : fs.contains .lines = false) (l : Line) :
    t.line l = s.line l :=
  State.line_of_lines (h.fields.same .lines (by simpa [Field.regs] using m)) l

theorem State.line_goOn (s : State) (l : Line) :
    (s.goOn l).line l = { s.line l with halted := false, atPrompter := false, taken := none } ∧
      ∀ k, k ≠ l → (s.goOn l).line k = s.line k :=
  ⟨((Only.goOn s l).line (by decide) l).trans (State.line_setLine_self _ _ _),
    fun k hk => ((Only.goOn s l).line (by decide) k).trans (State.line_setLine_ne _ _ hk)⟩

/-- A cue halted at the Prompter is to be discarded. -/
def State.markSkip (s : State) (l : Line) : State :=
  if (s.line l).atPrompter ∧ (s.fetchHead l).1 ≠ .nothing then s.setLine l { s.line l with skip := true } else s

theorem State.skipHalted_eq (s : State) (l : Line) : s.skipHalted l = iter 0x22 (fun e s =>
    let f := s.fetcher e
    if f.atFetcher ∧ s.regF (R.lineSplitCtl e) 1 2 = l.idx then
      let p := s.reg (R.lineSplitPtr e)
      (s.setFetcher e { f with breakSpent := false, skipEnd := if f.skipEnd = some p then none else f.skipEnd }).setReg
        (R.lineSplitPtr e) (p + 1)
    else s) (s.markSkip l) := rfl

theorem KeptBut.iter {m : List Field} {f : Nat → State → State} (n : Nat) {s t : State} (k : ∀ i u, KeptBut m u (f i u))
    (h : KeptBut m s t) : KeptBut m s (iter n f t) := by
  unfold Sys2Proof.Machine.iter
  generalize List.range n = l
  induction l generalizing t with
  | nil => exact h
  | cons i l ih => exact ih (h.trans (k i t))

/-- The fetchers' part of a skip. -/
theorem KeptBut.skipHalted (s : State) (l : Line) : KeptBut [.fetchers, .splitR] (s.markSkip l) (s.skipHalted l) := by
  rw [State.skipHalted_eq]
  refine KeptBut.iter _ (fun e u => KeptBut.ite ?_ (KeptBut.refl _ u)) (KeptBut.refl _ _)
  refine (keptBut_setReg _ (R.lineSplitPtr e) _).step ?_ ((kept_setFetcher u e _).but.mono (by decide))
  rw [R.lineSplitPtr_ofReg]; decide

theorem KeptBut.markSkip (s : State) (l : Line) : KeptBut [.lines] s (s.markSkip l) :=
  KeptBut.ite (KeptBut.upd (KeptBut.refl _ s)) (KeptBut.refl _ s)

theorem State.line_markSkip (s : State) (l : Line) :
    (s.markSkip l).line l = { s.line l with
        skip := (s.line l).skip || decide ((s.line l).atPrompter = true ∧ (s.fetchHead l).1 ≠ .nothing) } ∧
      ∀ k, k ≠ l → (s.markSkip l).line k = s.line k := by
  unfold State.markSkip
  split
  · next h => exact ⟨by rw [State.line_setLine_self, decide_eq_true h, Bool.or_true], fun k hk => State.line_setLine_ne _ _ hk⟩
  · next h => exact ⟨by rw [decide_eq_false h, Bool.or_false], fun _ _ => rfl⟩

theorem State.line_skipHalted (s : State) (l k : Line) : (s.skipHalted l).line k = (s.markSkip l).line k :=
  State.line_of_lines ((KeptBut.skipHalted s l).same .lines (by decide)) k

theorem KeptBut.goOn (s : State) (l : Line) : KeptBut [.lines, .fetchers] s (s.goOn l) :=
  KeptBut.iter _ (fun _ u => ((kept_setFetcher u _ _).but.mono (by decide)).ite (KeptBut.refl _ u))
    ((kept_updLine s l _).but.mono (by decide))

/-! The turn that discards a cue (R319). -/

theorem LineSt.advance_keeps (ln : LineSt) : ln.advance.count = ln.count ∧ ln.advance.epoch = ln.epoch ∧
    (ln.routine = none → ln.advance.loops = ln.loops ∧ ln.advance.head = ln.head + 1) := by
  unfold LineSt.advance
  split
  · next r hr =>
    split
    · exact ⟨rfl, rfl, by simp [hr]⟩
    · unfold LineSt.endRoutine
      rw [hr]
      exact ⟨rfl, rfl, nofun⟩
  · exact ⟨rfl, rfl, fun _ => ⟨rfl, rfl⟩⟩

theorem skipTurn (r : State) (l : Line) (ptr : Nat) (hmay : r.mayDispatch = true)
    (hchoose : r.takeHeads.choose = some (l, ptr)) (hskip : (r.line l).skip = true) :
    let u := r.prompterTurn
    (u.line l).skip = false ∧ (u.line l).count = (r.line l).count ∧ (u.line l).epoch = (r.line l).epoch ∧
      (∀ k, k ≠ l → u.line k = r.takeHeads.line k) ∧ u.board = r.board ∧ u.flights = r.flights ∧
      u.regF R.lineWeavePtr 0 5 = ptr ∧
      ((r.line l).routine = none → (u.line l).loops = (r.line l).loops ∧ (u.line l).head = (r.line l).head + 1) := by
  intro u
  obtain ⟨hwants, hptr⟩ := State.choose_spec hchoose
  have hline := State.line_takeHeads_of_skip hskip
  have hturn : r.takeHeads.turnOf l = .skip := by
    rcases State.turnOf_of_skip (s := r.takeHeads) (by rw [hline]; exact hskip) with h | h
    · simp [State.wantsTurn, h] at hwants
    · exact h
  have hu : u = (r.takeHeads.skipHead l).turnEnd ptr :=
    (State.prompterTurn_of_choose hmay hchoose).trans (by rw [State.turnAct_of_skip hturn])
  have hkept : KeptBut [.lines, .mem, .prop, .trig, .lineR, .powerR, .propR, .fltR] r u := by
    rw [hu]
    exact (KeptBut.turnEnd _ _).step (by decide) ((kept_skipHead _ _).but.step (by decide)
      ((KeptBut.takeHeads r).mono (by decide)))
  have hself : u.line l = { (r.line l).advance with
      skip := false, countSpent := false, tagSpent := false,
      skipEnd := if (r.line l).skipEnd = some (r.takeHeads.lineCtx l).pos then none else (r.line l).advance.skipEnd } := by
    rw [hu, State.line_turnEnd, State.skipHead, State.line_setLine_self, hline]
  have hother (k : Line) (hk : k ≠ l) : u.line k = r.takeHeads.line k := by
    rw [hu, State.line_turnEnd]
    exact State.line_setLine_ne _ _ hk
  obtain ⟨hcount, hepoch, hplace⟩ := LineSt.advance_keeps (r.line l)
  rw [hself]
  exact ⟨rfl, hcount, hepoch, hother, hkept.same .board (by decide), hkept.same .flights (by decide),
    by rw [hu]; exact State.weavePtr_turnEnd _ hptr, hplace⟩

theorem lineResume_claim : Sys2Proof.Claims.LineResume := by
  intro s l hok
  have htouch : KeptBut [.lines, .fetchers, .doorR, .splitR] s s.hostTouch := (keptBut_hostTouch s).mono (by decide)
  refine ⟨fun hhalt hreset hfatal => ⟨Ends.lineResume hok ?_, Ends.lineResumeSkip hok ?_⟩,
    fun upset board ptr => ?_,
    fun h c hc => ?_⟩
  · rw [State.resume_taken (s := s.hostTouch) hhalt hreset (s.fatal_hostTouch.trans hfatal)]
    obtain ⟨hself, hother⟩ := State.line_goOn s.hostTouch l
    exact ⟨hself, hother, (((Only.refl _ _ s).hostTouch (by simp)).updLine l _ rfl).trans
      ((Only.goOn s.hostTouch l).mono rfl (by simp))⟩
  · rw [State.resume_taken (s := s.hostTouch) hhalt hreset (s.fatal_hostTouch.trans hfatal)]
    obtain ⟨hself, hother⟩ := State.line_goOn (s.hostTouch.skipHalted l) l
    obtain ⟨hmark, hmarkOther⟩ := State.line_markSkip s.hostTouch l
    refine ⟨hself.trans ?_, fun k hk => (hother k hk).trans ?_, ?_⟩
    · rw [State.line_skipHalted, hmark]; rfl
    · rw [State.line_skipHalted, hmarkOther k hk]; rfl
    · exact (KeptBut.goOn _ l).step (by decide) ((KeptBut.skipHalted _ l).step (by decide)
        ((KeptBut.markSkip _ l).step (by decide) htouch))
  · intro r hmay hchoose hskip
    exact Ends.of rfl rfl (skipTurn r l ptr hmay hchoose hskip)
  · have hstay : Only [] [R.sesIdleTicks] s s.hostTouch := (Only.refl _ _ s).hostTouch (by simp)
    have hno (skip : Bool) := State.resume_ignored (s := s.hostTouch) (l := l) (by rwa [s.fatal_hostTouch]) skip
    rcases hc with rfl | rfl
    · exact Ends.lineResume hok (by rw [hno]; exact hstay)
    · exact Ends.lineResumeSkip hok (by rw [hno]; exact hstay)

/-- Settles O16, claim by claim. -/
theorem lineHaltResume : Obligations.LineHaltResume := ⟨hostHalt_claim, lineResume_claim⟩

end Sys2Proof.Machine
end

section
/-! SUPPORT. Line reset: what its start discards and silences, and its end. -/

namespace Sys2Proof.Machine

/-! Cues in flight that stay keep their line and are not given a voice again. -/

/-- Every cue in flight in `t` was in flight in `s`, and is silent in `t` when it was in `s`. -/
def State.cuesFrom (s t : State) : Prop := ∀ g ∈ t.flights, ∃ f ∈ s.flights, g.q = f.q ∧ g.silent = f.silent

theorem State.cuesFrom_of_eq {s t : State} (h : t.flights = s.flights) : s.cuesFrom t := fun g hg => ⟨g, h ▸ hg, rfl, rfl⟩

theorem State.cuesFrom.trans {s t u : State} (h : s.cuesFrom t) (k : t.cuesFrom u) : s.cuesFrom u := fun g hg => by
  obtain ⟨f, hf, hq, hs⟩ := k g hg
  obtain ⟨e, he, hq', hs'⟩ := h f hf
  exact ⟨e, he, hq.trans hq', hs.trans hs'⟩

/-- A function of the machine that leaves the cues in flight. -/
theorem State.cuesFrom_of_kept {l : List Field} {s t : State} (k : Kept l s t) (h : l.contains .flights = false) : s.cuesFrom t :=
  State.cuesFrom_of_eq (k.but.same .flights (by simpa using h))

theorem State.cuesFrom.ite {s t u : State} {c : Prop} [Decidable c] (h : s.cuesFrom t) (k : s.cuesFrom u) :
    s.cuesFrom (if c then t else u) := by split <;> assumption

theorem State.cuesFrom.iter {f : Nat → State → State} (n : Nat) {s t : State} (k : ∀ (i : Nat) (u : State), u.cuesFrom (f i u))
    (h : s.cuesFrom t) : s.cuesFrom (iter n f t) := by
  unfold Sys2Proof.Machine.iter
  generalize List.range n = l
  induction l generalizing t with
  | nil => exact h
  | cons i l ih => exact ih (h.trans (k i t))

theorem State.cuesFrom_updFlight (s : State) (uid : Nat) {f : Flight → Flight}
    (h : ∀ x, (f x).q = x.q ∧ (f x).silent = x.silent) : s.cuesFrom (s.updFlight uid f) := by
  intro g hg
  obtain ⟨x, hx, rfl⟩ := List.mem_map.1 hg
  refine ⟨x, hx, ?_⟩
  split
  · exact h x
  · exact ⟨rfl, rfl⟩

theorem State.cuesFrom_unitDone (s : State) (uid : Nat) : s.cuesFrom (s.unitDone uid) :=
  State.cuesFrom_updFlight s uid fun x => by split <;> exact ⟨rfl, rfl⟩

theorem State.cuesFrom_finishFlight (s : State) (uid : Nat) : s.cuesFrom (s.finishFlight uid) :=
  State.cuesFrom_updFlight s uid fun _ => ⟨rfl, rfl⟩

theorem State.cuesFrom_closeRun (s : State) (u uid : Nat) : s.cuesFrom (s.closeRun u uid) := by
  have hend : s.cuesFrom (((s.updUnit u fun x => { x with run := none, store := [] }).unqueueAt (8 + u) uid).unitDone uid) :=
    ((State.cuesFrom_of_kept (kept_updUnit _ _ _) rfl).trans (State.cuesFrom_of_kept (kept_unqueueAt _ _ _) rfl)).trans
      (State.cuesFrom_unitDone _ uid)
  unfold State.closeRun
  dsimp only
  split
  · exact State.cuesFrom.ite hend hend
  · exact hend

theorem State.cuesFrom_stopUnit (s : State) (u : Nat) (f : Flight) : s.cuesFrom (s.stopUnit u f) := by
  unfold State.stopUnit
  extract_lets k t1 t2
  have h1 : s.cuesFrom t1 := (State.cuesFrom_of_eq (s := s) (t := s.countMod (R.choURuns u) 1) rfl).trans
    (State.cuesFrom_closeRun _ u _)
  have h2 : s.cuesFrom t2 := by
    unfold t2
    clear_value k
    split
    · exact h1.trans ((State.cuesFrom_of_kept (kept_unqueueAt _ _ _) rfl).trans (State.cuesFrom_unitDone _ _))
    · exact h1
  split
  · exact State.cuesFrom.ite h2 h2
  · exact h2

theorem State.cuesFrom_flySettle (s : State) (uid : Nat) : s.cuesFrom (s.flySettle uid) := by
  unfold State.flySettle
  dsimp only
  split
  · exact State.cuesFrom.ite ((State.cuesFrom_finishFlight s uid).trans (State.cuesFrom_of_eq rfl)) (State.cuesFrom_of_eq rfl)
  · exact State.cuesFrom_of_eq rfl

theorem State.cuesFrom_releaseActive (s : State) (e : Nat) (x : Xfer) : s.cuesFrom (s.releaseActive e x) := by
  unfold State.releaseActive
  extract_lets t
  have ht : s.cuesFrom t := by
    unfold t
    split
    · exact State.cuesFrom_of_eq rfl
    · exact State.cuesFrom_of_kept (kept_giveHalf _ _ _) rfl
  exact ht.trans ((State.cuesFrom_of_kept (kept_setFly _ _ _) rfl).trans (State.cuesFrom_flySettle _ _))

theorem State.cuesFrom_stopXfer (s : State) (e : Nat) (f : Flight) (x : Xfer) : s.cuesFrom (s.stopXfer e f x) :=
  (State.cuesFrom_releaseActive s e _).ite (State.cuesFrom_of_kept (kept_setXfer _ _ _) rfl)

/-- The three parts of `stopWaiting`: runs of the chorus units, the exchange, and the transfers. -/
theorem State.cuesFrom_stopWaiting (s : State) (l : Line) : s.cuesFrom (s.stopWaiting l) := by
  unfold State.stopWaiting
  extract_lets t1 run t2
  have h1 : s.cuesFrom t1 := State.cuesFrom.iter _ (fun u t => by
    split
    · exact State.cuesFrom.ite (State.cuesFrom_stopUnit t u _) (State.cuesFrom_of_eq rfl)
    · exact State.cuesFrom_of_eq rfl) (State.cuesFrom_of_eq rfl)
  have h2 : s.cuesFrom t2 := by
    unfold t2
    split
    · split
      · exact State.cuesFrom.ite (h1.trans (State.cuesFrom.trans (State.cuesFrom_of_eq rfl) (State.cuesFrom_finishFlight _ _))) h1
      · exact h1
    · exact h1
  refine h2.trans (State.cuesFrom.iter _ (fun e t => ?_) (State.cuesFrom_of_eq rfl))
  split
  · split
    · exact State.cuesFrom.ite (State.cuesFrom_stopXfer t e _ _) (State.cuesFrom_of_eq rfl)
    · exact State.cuesFrom_of_eq rfl
  · exact State.cuesFrom_of_eq rfl

/-! The start of a reset (R325). -/

theorem State.silent_hush (l : Line) (fs : List Flight) : ∀ f ∈ fs.map (Flight.hush l), f.q.line = l → f.silent = true := by
  intro f hf hl
  obtain ⟨g, _, rfl⟩ := List.mem_map.1 hf
  unfold Flight.hush at hl ⊢
  split
  · rfl
  · next hne => simp [hne] at hl

/-- The line as its reset begins. -/
def State.resetting (s : State) (l : Line) : State :=
  s.updLine l fun ln => { ln with resetting := true, taken := none, atPrompter := false }

/-- What the reset of an enabled line discards. -/
def State.discardLine (s : State) (l : Line) : State := (((s.discardQueued l).abandonCurtains l).dropLineArrays l).dropCalls l

theorem State.beginReset_disabled {s : State} {l : Line} (h : (s.line l).enabled = false) : s.beginReset l = s.resetting l :=
  if_pos (by rw [State.updLine, State.line_setLine_self]; exact h)

theorem State.beginReset_enabled {s : State} {l : Line} (h : (s.line l).enabled = true) :
    s.beginReset l = (State.stopWaiting { (s.resetting l).discardLine l with
      flights := ((s.resetting l).discardLine l).flights.map (Flight.hush l) } l).progress l :=
  if_neg (by rw [State.updLine, State.line_setLine_self]; simp [h])

/-- From the start of a line's reset on no cue of the line makes posts. -/
theorem State.silent_beginReset {s : State} {l : Line} (h : (s.line l).enabled = true) :
    ∀ f ∈ (s.beginReset l).flights, f.q.line = l → f.silent = true := by
  intro f hf hl
  rw [State.beginReset_enabled h] at hf
  obtain ⟨g, hg, hq, hs⟩ := State.cuesFrom_stopWaiting _ l f hf
  exact hs.trans (State.silent_hush l _ g hg (hq ▸ hl))

theorem State.lines_discardLine (s : State) (l : Line) : (s.discardLine l).lines = s.lines :=
  ((kept_dropCalls _ l).but.same .lines (by decide)).trans (((kept_dropLineArrays _ l).but.same .lines (by decide)).trans
    (((kept_abandonCurtains _ l).but.same .lines (by decide)).trans ((kept_discardQueued s l).but.same .lines (by decide))))

theorem State.line_beginReset (s : State) (l : Line) :
    (s.beginReset l).line l = { s.line l with resetting := true, taken := none, atPrompter := false } ∧
      ∀ k, k ≠ l → (s.beginReset l).line k = s.line k := by
  have hlines : (s.beginReset l).lines = (s.resetting l).lines := by
    cases h : (s.line l).enabled with
    | false => rw [State.beginReset_disabled h]
    | true =>
      rw [State.beginReset_enabled h]
      exact ((kept_progress _ _).but.same .lines (by decide)).trans (((kept_stopWaiting _ _).but.same .lines (by decide)).trans
        (State.lines_discardLine (s.resetting l) l))
  exact ⟨(State.line_of_lines hlines l).trans (State.line_setLine_self _ _ _),
    fun k hk => (State.line_of_lines hlines k).trans (State.line_setLine_ne _ _ hk)⟩

theorem State.session_resetDoor (s : State) : s.resetDoor.session = false := by
  have hreg : s.resetDoor.reg R.sesStatus = (s.closeSession.setB R.sesStatus 5 false).reg R.sesStatus := State.reg_congr rfl rfl _
  exact (State.regB_congr hreg 0).trans ((State.regB_setB_out _ _ 5 0 false (by decide) (by decide)).trans s.session_closeSession)

theorem Ends.lineReset {s : State} {l : Line} {P : State → Prop} (h : s.serve (R.lineCtrl l.idx) = .ok)
    (p : P (s.hostTouch.resetDoor.beginReset l)) : Ends (.lineReset l) s P := Ends.of rfl (State.hostWrite_ok _ h) p

theorem lineResetStart_claim : Sys2Proof.Claims.LineResetStart := by
  intro s l hok
  refine Ends.lineReset hok ?_
  obtain ⟨hself, hother⟩ := State.line_beginReset s.hostTouch.resetDoor l
  have hdoor := (kept_resetDoor s.hostTouch).but
  have hreset := (kept_beginReset s.hostTouch.resetDoor l).but
  have hline (k : Line) : s.hostTouch.resetDoor.line k = s.line k := State.line_of_lines (hdoor.same .lines (by decide)) k
  have hses : (s.hostTouch.resetDoor.beginReset l).session = false :=
    (State.regB_congr (hreset.reg (by decide)) 0).trans (State.session_resetDoor _)
  refine ⟨hself.trans (by rw [hline]), fun k hk => (hother k hk).trans (hline k), hses, hreset.same .secret (by decide),
    hreset.step (by decide) (hdoor.step (by decide) ((keptBut_hostTouch s).mono (by decide))),
    fun hen => State.silent_beginReset ((congrArg LineSt.enabled (hline l)).trans hen), fun hen => ?_⟩
  rw [State.beginReset_disabled ((congrArg LineSt.enabled (hline l)).trans hen)]
  exact hdoor.same .flights (by decide)

/-! The end of a reset (R324, R325). -/

theorem iter_of_fixed {σ : Type} {f : Nat → σ → σ} {s : σ} (h : ∀ i, f i s = s) (n : Nat) : iter n f s = s := by
  unfold iter
  generalize List.range n = l
  induction l with
  | nil => rfl
  | cons i l ih => rw [List.foldl_cons, h i, ih]

theorem State.mem_flights_of_flight {s : State} {uid : Nat} {f : Flight} (h : s.flight uid = some f) : f ∈ s.flights :=
  List.mem_of_find?_eq_some h

theorem State.mem_flights_of_unitCue {s : State} {u : Nat} {f : Flight} (h : s.unitCue u = some f) : f ∈ s.flights := by
  obtain ⟨r, _, hr⟩ := Option.bind_eq_some_iff.1 h
  exact State.mem_flights_of_flight hr

/-- With no cue of the line in flight nothing waits for what its reset has discarded. -/
theorem State.stopWaiting_of_none {s : State} {l : Line} (h : ∀ f ∈ s.flights, f.q.line ≠ l) : s.stopWaiting l = s := by
  have hunits : iter s.build.units (fun u s => match (s.unit u).run, s.unitCue u with
      | some r, some f =>
        if f.q.line = l ∧ s.rowsDone u f r = false ∧ s.starved u f r then s.stopUnit u f else s
      | _, _ => s) s = s := by
    refine iter_of_fixed (fun u => ?_) _
    split
    · next hf => exact if_neg fun hc => h _ (State.mem_flights_of_unitCue hf) hc.1
    · rfl
  have hflies : iter s.build.flies (fun e s => match (s.flyEng e).active with
      | some x => (match s.flight x.uid with
        | some f => if f.q.line = l ∧ s.flyStarved e f x then s.stopXfer e f x else s
        | none => s)
      | none => s) s = s := by
    refine iter_of_fixed (fun e => ?_) _
    split
    · split
      · next hf => exact if_neg fun hc => h _ (State.mem_flights_of_flight hf) hc.1
      · rfl
    · rfl
  unfold State.stopWaiting
  extract_lets t1 run t2
  have h1 : t1 = s := hunits
  have h2 : t2 = s := by
    unfold t2
    rw [h1]
    split
    · split
      · next hf => exact if_neg fun hc => h _ (State.mem_flights_of_flight hf) hc.1
      · rfl
    · rfl
  rw [h2]
  exact hflies

theorem State.dropFinished_of_none {s : State} {l : Line} (h : ∀ f ∈ s.flights, f.q.line ≠ l) : s.dropFinished l = s := by
  have hnil : (s.flights.filter fun f => f.q.line == l && f.stage == .finished && !(f.q.cue.fence && s.unlanded f.q.uid)) = [] :=
    List.filter_eq_nil_iff.2 fun f hf => by simp [h f hf]
  unfold State.dropFinished
  rw [hnil]
  rfl

theorem State.lineResetDone_of_none {s : State} {l : Line} (hreset : (s.line l).resetting = true) (hsoft : s.softBusy = false)
    (h : ∀ f ∈ s.flights, f.q.line ≠ l) : s.lineResetDone l = s.endReset l := by
  have hany : (s.flights.any (·.q.line == l)) = false := List.any_eq_false.2 fun f hf => by simpa using h f hf
  unfold State.lineResetDone
  rw [if_neg (by simp [hreset, hsoft])]
  dsimp only
  rw [State.stopWaiting_of_none h, State.dropFinished_of_none h, hany]
  rfl

/-- The registers that the end of a line's reset clears (R325). -/
def clearedRegs (l : Line) : List Nat :=
  [stepReg l, R.lineWaitTicks l.idx, R.lineStallTicks l.idx, R.lineIntakeRefused l.idx]

/-- The line, and the registers with it, at the end of its reset. -/
def State.clearLine (s : State) (l : Line) : State :=
  ((((s.updLine l fun ln =>
    { ln with resetting := false, halted := false, more := false, head := 0, tail := 0, asmData := 0, asmMask := 0
              loops := [], skipEnd := none, routine := none, count := 0, epoch := 0, taken := none
              atPrompter := false, countSpent := false, tagSpent := false, skip := false }).setReg (stepReg l) 0).setReg
    (R.lineWaitTicks l.idx) 0).setReg (R.lineStallTicks l.idx) 0).setReg (R.lineIntakeRefused l.idx) 0

theorem Only.clearLine (s : State) (l : Line) : Only [.lines] (clearedRegs l) s (s.clearLine l) :=
  (((((Only.refl _ _ s).updLine l _ rfl).setReg (by simp [clearedRegs])).setReg (by simp [clearedRegs])).setReg
    (by simp [clearedRegs])).setReg (by simp [clearedRegs])

theorem State.reg_clearLine (s : State) (l : Line) {o : Nat} (h : o ∈ clearedRegs l) : (s.clearLine l).reg o = 0 := by
  unfold State.clearLine
  simp only [clearedRegs, List.mem_cons, List.not_mem_nil, or_false] at h
  rcases h with rfl | rfl | rfl | rfl <;> cases l <;>
    simp (disch := decide) only [State.reg_setReg_ne, State.reg_setReg_self]

/-- What the end of a reset does behind the line's own registers: fetchers and the watchdog count. -/
theorem KeptBut.afterClear (s : State) (l : Line) :
    KeptBut [.fetchers, .splitR, .callR] (s.clearLine l) (s.endReset l) :=
  (kept_progress _ l).but.step (by decide) ((kept_resetFetchers _ l).but.mono (by decide))

theorem lineResetEnd_claim : Sys2Proof.Claims.LineResetEnd := by
  intro s l hreset hsoft
  refine fun hnone => Ends.of rfl (State.lineResetDone_of_none hreset hsoft hnone) ?_
  have hafter := KeptBut.afterClear s l
  have hline (k : Line) : (s.endReset l).line k = (s.clearLine l).line k :=
    State.line_of_lines (hafter.same .lines (by decide)) k
  have hreg {o : Nat} (h : [Field.fetchers, .splitR, .callR].contains (Field.ofReg o) = false) :
      (s.endReset l).reg o = (s.clearLine l).reg o := hafter.reg h
  have hlineR {o : Nat} (lo : 0x04000 ≤ o) (hi : o < 0x05000) : (s.endReset l).reg o = (s.clearLine l).reg o :=
    hreg (by rw [Field.ofReg_lineR lo hi]; rfl)
  have hclear : ∀ o ∈ clearedRegs l, (s.endReset l).reg o = 0 := fun o ho =>
    (hreg (by revert o ho; cases l <;> decide)).trans (s.reg_clearLine l ho)
  have hstay {o : Nat} (lo : 0x04000 ≤ o) (hi : o < 0x05000) (h : o ∉ clearedRegs l) : (s.endReset l).reg o = s.reg o :=
    (hlineR lo hi).trans ((Only.clearLine s l).regs o h)
  refine ⟨(hline l).trans (State.line_setLine_self _ _ _), fun k hk => (hline k).trans (State.line_setLine_ne _ _ hk),
    hclear _ (by simp [clearedRegs]), hclear _ (by simp [clearedRegs]), hclear _ (by simp [clearedRegs]),
    hclear _ (by simp [clearedRegs]), ?_, fun o lo hi => ?_, (kept_endReset s l).but⟩
  · exact hstay (by cases l <;> decide) (by cases l <;> decide) (by cases l <;> decide)
  · have hidx := line_idx_lt l
    refine hstay (by omega) (by omega) ?_
    simp only [clearedRegs, stepReg, R.trkStepF, R.lineWaitTicks, R.lineStallTicks, R.lineIntakeRefused, List.mem_cons,
      List.not_mem_nil, or_false]
    omega

/-- Settles O17, claim by claim. -/
theorem lineReset : Obligations.LineReset := ⟨lineResetStart_claim, lineResetEnd_claim⟩

end Sys2Proof.Machine
end

section
/-! SUPPORT. Control cues: a turn whose cue goes, the number it takes, its posts, and what each cue changes. -/

namespace Sys2Proof.Machine

/-! A turn whose cue goes. -/

theorem State.controlTurn_of_turnIs {s : State} {l : Line} {ptr : Nat} {c : Cue} (h : s.turnIs l ptr c) {op : Nat}
    (hop : c.opcode = op) : s.controlTurn l op = (s.takeHeads.dispatch l c).turnEnd ptr := by
  obtain ⟨hmay, hchoose, hgo⟩ := h
  unfold State.controlTurn
  rw [if_neg (by simp [hmay])]
  dsimp only
  rw [hchoose]
  dsimp only
  rw [if_pos rfl, hgo]
  exact (if_pos hop).trans (by rw [State.takeTurn_eq, State.turnAct_of_go hgo])

theorem State.prompterTurn_of_turnIs {s : State} {l : Line} {ptr : Nat} {c : Cue} (h : s.turnIs l ptr c) :
    s.prompterTurn = (s.takeHeads.dispatch l c).turnEnd ptr :=
  (State.prompterTurn_of_choose h.1 h.2.1).trans (by rw [State.turnAct_of_go h.2.2])

theorem State.turnIs.ptr_lt {s : State} {l : Line} {ptr : Nat} {c : Cue} (h : s.turnIs l ptr c) : ptr < 32 :=
  (State.choose_spec h.2.1).2

theorem State.turnIs.running {s : State} {l : Line} {ptr : Nat} {c : Cue} (h : s.turnIs l ptr c) :
    (s.takeHeads.line l).halted = false :=
  (State.inDispatch_of_turnOf (by rw [h.2.2]; exact Turn.noConfusion)).2.1

theorem State.lineCtx_takeHeads (s : State) (l : Line) : s.takeHeads.lineCtx l = s.lineCtx l := by
  unfold State.lineCtx
  rw [State.line_takeHeads]

/-! The number (R316) and the triggers (R513). -/

/-- A cue has its number, and the triggers of its dispatch are raised. -/
def State.issued (s : State) (l : Line) (c : Cue) : State := (s.number l c).2.dispatchTriggers (s.number l c).1

theorem KeptBut.issued (s : State) (l : Line) (c : Cue) : KeptBut [.lines, .trig, .nextUid, .callR] s (s.issued l c) :=
  (kept_dispatchTriggers _ _).but.step (by decide) ((kept_number s l c).but.mono (by decide))

theorem State.line_dispatchTriggers (s : State) (q : QCue) (k : Line) : (s.dispatchTriggers q).line k = s.line k :=
  State.line_of_lines ((kept_dispatchTriggers s q).but.same .lines (by decide)) k

theorem State.line_issued (s : State) (l : Line) (c : Cue) : (s.issued l c).line l = (s.line l).numbered :=
  (State.line_dispatchTriggers _ _ _).trans (State.line_setLine_self _ _ _)

theorem State.line_issued_ne (s : State) {l k : Line} (c : Cue) (h : k ≠ l) : (s.issued l c).line k = s.line k :=
  (State.line_dispatchTriggers _ _ _).trans (State.line_setLine_ne _ _ h)

theorem State.nextUid_issued (s : State) (l : Line) (c : Cue) : (s.issued l c).nextUid = s.nextUid + 1 :=
  (kept_dispatchTriggers _ _).but.same .nextUid (by decide)

/-! Local posts (R331, R332). -/

theorem State.board_setCnt_congr {s t : State} (h : t.board = s.board) (i : Nat) (v : BitVec 20) :
    (t.setCnt i v).board = (s.setCnt i v).board := by
  unfold State.setCnt; rw [h]

theorem State.cnt_congr {s t : State} (h : t.board = s.board) (i : Nat) : t.cnt i = s.cnt i := by
  unfold State.cnt; rw [h]

theorem State.board_callBit (s : State) {off : Nat} (h : Field.ofReg off = .callR) (i : Nat) (code : Code) (k : Nat) :
    (s.callBit off i code k).board = s.board :=
  (kept_callBit s off i code k).but.same .board (by simp [h])

/-- What a post does to the callboard depends on the callboard only. -/
theorem State.board_post_congr {s t : State} (h : t.board = s.board) (i : Nat) (d : Int) : (t.post i d).board = (s.post i d).board := by
  unfold State.post
  rw [State.cnt_congr h]
  dsimp only
  split
  · rw [State.board_callBit _ (callSat_ofReg i), State.board_callBit _ (callSat_ofReg i), State.board_setCnt_congr h]
  · split
    · rw [State.board_callBit _ (callUnder_ofReg i), State.board_callBit _ (callUnder_ofReg i), State.board_setCnt_congr h]
    · exact State.board_setCnt_congr h _ _

theorem State.board_localPosts_congr {s t : State} (h : t.board = s.board) (c : Cue) :
    (t.localPosts c).board = (s.localPosts c).board := by
  unfold State.localPosts
  generalize c.posts = ws
  induction ws generalizing s t with
  | nil => exact h
  | cons w ws ih =>
    refine ih ?_
    dsimp only
    split
    · exact h
    · exact State.board_post_congr h _ _

/-! A cue that moves its line, makes its posts and completes (R293, R294). -/

/-- The line of the cue moves as `f` says, and the cue makes its posts. -/
def State.moved (s : State) (l : Line) (c : Cue) (f : LineSt → LineSt) : State := ((s.issued l c).updLine l f).localPosts c

/-- The parts of the state that the turn of a control cue changes, engines and lines that halt apart. -/
def Field.turning : List Field := [.lines, .board, .mem, .prop, .trig, .nextUid, .powerR, .lineR, .callR, .propR, .fltR]

section
variable (s : State) (l : Line) (c : Cue) (f : LineSt → LineSt)

theorem KeptBut.moved : KeptBut [.lines, .board, .trig, .nextUid, .callR, .fltR] s (s.moved l c f) :=
  (kept_localPosts _ _).but.step (by decide) ((kept_updLine _ _ _).but.step (by decide) ((KeptBut.issued s l c).mono (by decide)))

theorem State.line_localPosts (k : Line) : (s.localPosts c).line k = s.line k :=
  State.line_of_lines ((kept_localPosts s c).but.same .lines (by decide)) k

theorem State.line_moved : (s.moved l c f).line l = f (s.line l).numbered := by
  unfold State.moved
  rw [State.line_localPosts, State.updLine, State.line_setLine_self, State.line_issued]

theorem State.line_moved_ne {k : Line} (h : k ≠ l) : (s.moved l c f).line k = s.line k := by
  unfold State.moved
  rw [State.line_localPosts, State.updLine, State.line_setLine_ne _ _ h, State.line_issued_ne _ _ h]

theorem State.board_moved : (s.moved l c f).board = (s.localPosts c).board :=
  State.board_localPosts_congr (s := s) (t := (s.issued l c).updLine l f) ((KeptBut.issued s l c).same .board (by decide)) c

end

theorem State.board_takeHeads (s : State) : s.takeHeads.board = s.board := (KeptBut.takeHeads s).same .board (by decide)

/-- Registers of the lines and the trackers, that a turn leaves. -/
theorem State.reg_turn {s : State} {l : Line} {c : Cue} {f : LineSt → LineSt} {o : Nat}
    (h : Field.ofReg o = .lineR ∨ Field.ofReg o = .trkR) : (s.takeHeads.moved l c f).reg o = s.reg o :=
  ((KeptBut.moved _ l c f).reg (by rcases h with h | h <;> rw [h] <;> rfl)).trans
    ((KeptBut.takeHeads s).reg (by rcases h with h | h <;> rw [h] <;> rfl))

/-- The turn of a control cue that moves its line, and then changes the registers `rs` alone. -/
theorem State.turn_spec {s : State} (l : Line) (ptr : Nat) (c : Cue) (f : LineSt → LineSt) {g : State → State} {rs : List Nat}
    (hg : Only [] rs (s.takeHeads.moved l c f) (g (s.takeHeads.moved l c f))) :
    let u := (g (s.takeHeads.moved l c f)).turnEnd ptr
    u.line l = f (s.line l).numbered ∧ (∀ k, k ≠ l → u.line k = s.takeHeads.line k) ∧ u.board = (s.localPosts c).board := by
  intro u
  have hline (k : Line) : u.line k = (s.takeHeads.moved l c f).line k :=
    (State.line_turnEnd _ _ _).trans (hg.line rfl k)
  refine ⟨(hline l).trans ?_, fun k hk => (hline k).trans (State.line_moved_ne _ _ _ _ hk), ?_⟩
  · rw [State.line_moved, State.numbered_takeHeads]
  · have hboard : u.board = (s.takeHeads.moved l c f).board :=
      ((KeptBut.turnEnd _ ptr).same .board (by decide)).trans (hg.fields.same .board (by decide))
    rw [hboard, State.board_moved]
    exact State.board_localPosts_congr s.board_takeHeads c

theorem KeptBut.turn (s : State) (l : Line) (ptr : Nat) (c : Cue) (f : LineSt → LineSt) :
    KeptBut Field.turning s ((s.takeHeads.moved l c f).turnEnd ptr) :=
  (KeptBut.turnEnd _ ptr).step (by decide) ((KeptBut.moved _ l c f).step (by decide) ((KeptBut.takeHeads s).mono (by decide)))

/-! O23. -/

theorem R.lineLoop_ofReg (p i : Nat) : Field.ofReg (R.lineLoop p i) = .lineR :=
  Field.ofReg_lineR (by unfold R.lineLoop; omega) (by unfold R.lineLoop; omega)

theorem R.lineLoop_inj {l k : Line} {i j : Nat} (hi : i < 16) (hj : j < 16) (h : R.lineLoop k.idx i = R.lineLoop l.idx j) :
    k = l ∧ i = j := by
  have hk := line_idx_lt k
  have hl := line_idx_lt l
  unfold R.lineLoop at h
  have hij : i = j := by omega
  refine ⟨?_, hij⟩
  have hidx : k.idx = l.idx := by omega
  rw [← ofIdx_idx k, ← ofIdx_idx l, hidx]

theorem stepReg_inj {l k : Line} (h : stepReg k = stepReg l) : k = l := by
  revert h; cases k <;> cases l <;> simp [stepReg, R.trkStepF, Line.idx]

theorem Cue.loopReg_lt (c : Cue) : c.loopReg < 16 := Nat.mod_lt _ (by decide)

/-- A plain cue's turn, whose last act `g` changes only registers `rs` of the lines' and the trackers' blocks. -/
theorem State.plainTurn {s : State} {l : Line} {ptr : Nat} {c : Cue} (h : s.turnIs l ptr c) {g : State → State} {rs : List Nat}
    (hg : Only [] rs (s.takeHeads.moved l c .advance) (g (s.takeHeads.moved l c .advance)))
    (hkept : KeptBut [.lineR, .trkR] (s.takeHeads.moved l c .advance) (g (s.takeHeads.moved l c .advance))) :
    let u := (g (s.takeHeads.moved l c .advance)).turnEnd ptr
    u.line l = (s.line l).numbered.advance ∧ (∀ k, k ≠ l → u.line k = s.takeHeads.line k) ∧
      u.board = (s.localPosts c).board ∧ u.regF R.lineWeavePtr 0 5 = ptr ∧
      (∀ k, u.reg (stepReg k) = (g (s.takeHeads.moved l c .advance)).reg (stepReg k)) ∧
      (∀ (k : Line) i, u.reg (R.lineLoop k.idx i) = (g (s.takeHeads.moved l c .advance)).reg (R.lineLoop k.idx i)) ∧
      KeptBut [.lines, .board, .mem, .prop, .trig, .nextUid, .powerR, .lineR, .callR, .trkR, .propR, .fltR] s u := by
  intro u
  obtain ⟨hself, hother, hboard⟩ := State.turn_spec l ptr c .advance hg
  refine ⟨hself, hother, hboard, State.weavePtr_turnEnd _ h.ptr_lt, fun k => ?_, fun k i => ?_, ?_⟩
  · exact (Only.turnEnd _ ptr).regs _ (by cases k <;> decide)
  · refine (Only.turnEnd _ ptr).regs _ ?_
    simp only [R.lineLoop, R.lineWeavePtr, R.pwrStatus, List.mem_cons, List.not_mem_nil, or_false]
    omega
  · exact (KeptBut.turnEnd _ ptr).step (by decide) (hkept.step (by decide) ((KeptBut.moved _ l c .advance).step (by decide)
      ((KeptBut.takeHeads s).mono (by decide))))

theorem State.stepReg_turn (s : State) (l : Line) (c : Cue) (f : LineSt → LineSt) (k : Line) :
    (s.takeHeads.moved l c f).reg (stepReg k) = s.reg (stepReg k) := State.reg_turn (.inr (stepReg_ofReg k))

theorem State.lineLoop_turn (s : State) (l : Line) (c : Cue) (f : LineSt → LineSt) (k : Line) (i : Nat) :
    (s.takeHeads.moved l c f).reg (R.lineLoop k.idx i) = s.reg (R.lineLoop k.idx i) :=
  State.reg_turn (.inl (R.lineLoop_ofReg _ _))

theorem lineLoop_ne_stepReg (p i : Nat) (l : Line) : R.lineLoop p i ≠ stepReg l := fun h => by
  have := congrArg Field.ofReg h
  simp [R.lineLoop_ofReg, stepReg_ofReg] at this

/-- NOP and FENCE (R293, R294). -/
theorem Ends.plain {i : Instr} {s : State} {l : Line} {ptr op : Nat} {c : Cue} (h : s.turnIs l ptr c)
    (hexec : exec i s = (s.controlTurn l op).done) (hop : c.opcode = op) (hlt : op < 2) : Ends i s fun u =>
      u.line l = (s.line l).numbered.advance ∧ (∀ k, k ≠ l → u.line k = s.takeHeads.line k) ∧
      u.board = (s.localPosts c).board ∧ u.regF R.lineWeavePtr 0 5 = ptr ∧
      (∀ k, u.reg (stepReg k) = s.reg (stepReg k)) ∧
      (∀ (k : Line) (i : Nat), u.reg (R.lineLoop k.idx i) = s.reg (R.lineLoop k.idx i)) ∧
      KeptBut [.lines, .board, .mem, .prop, .trig, .nextUid, .powerR, .lineR, .callR, .trkR, .propR, .fltR] s u := by
  refine Ends.of hexec (State.controlTurn_of_turnIs h hop) ?_
  have hdispatch : s.takeHeads.dispatch l c = s.takeHeads.moved l c .advance := by
    have h01 : c.opcode = 0 ∨ c.opcode = 1 := by omega
    rcases h01 with h' | h' <;> (unfold State.dispatch; rw [h']; rfl)
  obtain ⟨hself, hother, hboard, hptr, hstep, hloop, hkept⟩ :=
    State.plainTurn (g := id) (rs := []) h (Only.refl _ _ _) (KeptBut.refl _ _)
  rw [hdispatch]
  exact ⟨hself, hother, hboard, hptr, fun k => (hstep k).trans (s.stepReg_turn l c _ k),
    fun k i => (hloop k i).trans (s.lineLoop_turn l c _ k i), hkept⟩

/-- Settles O23, by opcode. -/
theorem plainCues : Obligations.PlainCues := by
  intro s l ptr c h p hp hop
  simp only [List.mem_cons, List.not_mem_nil, or_false] at hp
  rcases hp with rfl | rfl | rfl | rfl
  · obtain ⟨u, hu, hself, hother, hboard, hptr, hstep, hloop, hkept⟩ := Ends.plain (i := .nop l) h rfl hop (by decide)
    exact ⟨u, hu, hself, hother, hboard, hptr, fun k => (hstep k).trans (if_neg (by simp)).symm,
      fun k i _ => (hloop k i).trans (if_neg (by simp)).symm, hkept⟩
  · obtain ⟨u, hu, hself, hother, hboard, hptr, hstep, hloop, hkept⟩ := Ends.plain (i := .fence l) h rfl hop (by decide)
    exact ⟨u, hu, hself, hother, hboard, hptr, fun k => (hstep k).trans (if_neg (by simp)).symm,
      fun k i _ => (hloop k i).trans (if_neg (by simp)).symm, hkept⟩
  · refine Ends.of rfl (State.controlTurn_of_turnIs h hop) ?_
    have hdispatch : s.takeHeads.dispatch l c = (s.takeHeads.moved l c .advance).setLoopAct l c := by
      unfold State.dispatch; rw [hop]; rfl
    have hloopKept : KeptBut [.lineR, .trkR] (s.takeHeads.moved l c .advance) ((s.takeHeads.moved l c .advance).setLoopAct l c) :=
      (keptBut_setReg _ (R.lineLoop l.idx c.loopReg) _).mono (by rw [R.lineLoop_ofReg]; rfl)
    obtain ⟨hself, hother, hboard, hptr, hstep, hloop, hkept⟩ := State.plainTurn (g := fun t => t.setLoopAct l c)
      (rs := [R.lineLoop l.idx c.loopReg]) h ((Only.refl _ _ _).setReg (by simp)) hloopKept
    rw [hdispatch]
    refine ⟨hself, hother, hboard, hptr, fun k => ?_, fun k i hi => (hloop k i).trans ?_, hkept⟩
    · rw [hstep, if_neg (by simp), State.setLoopAct, State.reg_setReg_ne _ _ (lineLoop_ne_stepReg _ _ k).symm, s.stepReg_turn]
    · rw [State.setLoopAct, State.reg_setReg, s.lineLoop_turn, s.lineLoop_turn]
      by_cases he : R.lineLoop k.idx i = R.lineLoop l.idx c.loopReg
      · obtain ⟨rfl, rfl⟩ := R.lineLoop_inj hi c.loopReg_lt he
        exact (if_pos rfl).trans (if_pos ⟨rfl, rfl, rfl⟩).symm
      · rw [if_neg he, if_neg fun ⟨_, hk, hi⟩ => he (by rw [hk, hi])]
  · refine Ends.of rfl (State.controlTurn_of_turnIs h hop) ?_
    have hdispatch : s.takeHeads.dispatch l c = (s.takeHeads.moved l c .advance).countMod (stepReg l) 1 := by
      unfold State.dispatch; rw [hop]; rfl
    have hstepKept : KeptBut [.lineR, .trkR] (s.takeHeads.moved l c .advance)
        ((s.takeHeads.moved l c .advance).countMod (stepReg l) 1) :=
      (keptBut_setReg _ (stepReg l) _).mono (by rw [stepReg_ofReg]; rfl)
    obtain ⟨hself, hother, hboard, hptr, hstep, hloop, hkept⟩ := State.plainTurn (g := fun t => t.countMod (stepReg l) 1)
      (rs := [stepReg l]) h ((Only.refl _ _ _).countMod (by simp)) hstepKept
    rw [hdispatch]
    refine ⟨hself, hother, hboard, hptr, fun k => (hstep k).trans ?_, fun k i hi => (hloop k i).trans ?_, hkept⟩
    · by_cases he : k = l
      · rw [if_pos ⟨rfl, he⟩, he, State.reg_countMod_self, s.stepReg_turn]; rfl
      · rw [if_neg fun hc => he hc.2, State.reg_countMod_ne _ _ fun hr => he (stepReg_inj hr), s.stepReg_turn]
    · rw [if_neg (by simp), State.reg_countMod_ne _ _ (lineLoop_ne_stepReg _ _ l), s.lineLoop_turn]

/-! O24. -/

/-- A line goes on as a loop cue's act answers. -/
def LineSt.loopTo (r : List LoopLevel × Option (BitVec 32) × BitVec 32) (ln : LineSt) : LineSt :=
  ({ ln with loops := r.1, skipEnd := r.2.1 }).goto r.2.2

theorem State.dispatchLoopBegin_eq (s : State) (l : Line) (c : Cue) :
    s.dispatchLoopBegin l c = s.moved l c (LineSt.loopTo (loopBeginAct (s.issued l c) (s.lineCtx l) c)) := rfl

theorem State.dispatchLoopEnd_eq (s : State) (l : Line) (c : Cue) :
    s.dispatchLoopEnd l c = s.moved l c (LineSt.loopTo (loopEndAct (s.lineCtx l))) := rfl

/-- A turn of a loop cue, by what its act `r` gives. -/
theorem Ends.loop {i : Instr} {s : State} {l : Line} {ptr op : Nat} {c : Cue} (h : s.turnIs l ptr c)
    (hexec : exec i s = (s.controlTurn l op).done) (hop : c.opcode = op) {loops : List LoopLevel} {skip : Option (BitVec 32)}
    {p : BitVec 32} (hact : s.takeHeads.dispatch l c = s.takeHeads.moved l c (LineSt.loopTo (loops, skip, p))) : Ends i s fun u =>
      u.line l = ({ (s.line l).numbered with loops := loops, skipEnd := skip }).goto p ∧
      (∀ k, k ≠ l → u.line k = s.takeHeads.line k) ∧ u.board = (s.localPosts c).board ∧
      KeptBut [.lines, .board, .mem, .prop, .trig, .nextUid, .powerR, .lineR, .callR, .propR, .fltR] s u := by
  refine Ends.of hexec (State.controlTurn_of_turnIs h hop) ?_
  rw [hact]
  obtain ⟨hself, hother, hboard⟩ := State.turn_spec (g := id) (rs := []) l ptr c
    (LineSt.loopTo (loops, skip, p)) (Only.refl _ _ _)
  exact ⟨hself, hother, hboard, KeptBut.turn s l ptr c _⟩

/-- Settles O24, by what `loopBeginAct` and `loopEndAct` answer. -/
theorem loopCues : Obligations.LoopCues := by
  intro s l ptr c h x n e after
  have hcount : (s.takeHeads.issued l c).reg (R.lineLoop l.idx c.loopReg) = n :=
    ((KeptBut.issued _ l c).reg (by rw [R.lineLoop_ofReg]; rfl)).trans
      ((KeptBut.takeHeads s).reg (by rw [R.lineLoop_ofReg]; rfl))
  have hbegin (hop : c.opcode = 2) : s.takeHeads.dispatch l c = s.takeHeads.dispatchLoopBegin l c := by
    unfold State.dispatch; rw [hop]; rfl
  have hend (hop : c.opcode = 3) : s.takeHeads.dispatch l c = s.takeHeads.dispatchLoopEnd l c := by
    unfold State.dispatch; rw [hop]; rfl
  refine ⟨fun hop hn => Ends.loop h rfl hop ?_, fun hop hn => Ends.loop h rfl hop ?_, fun hop hskip => Ends.loop h rfl hop ?_,
    fun lv rest hop hskip hloops => ?_⟩
  · have hact : loopBeginAct (s.takeHeads.issued l c) x c = (⟨x.pos, e, n, 0⟩ :: x.loops, x.skipEnd, x.pos + 1) := by
      unfold loopBeginAct
      rw [show x.line = l from rfl, hcount]
      exact if_neg hn
    rw [hbegin hop, State.dispatchLoopBegin_eq, State.lineCtx_takeHeads, hact]
  · have hact : loopBeginAct (s.takeHeads.issued l c) x c = (x.loops, some e, e) := by
      unfold loopBeginAct
      rw [show x.line = l from rfl, hcount]
      exact if_pos hn
    rw [hbegin hop, State.dispatchLoopBegin_eq, State.lineCtx_takeHeads, hact]
  · obtain ⟨q, hq⟩ := Option.ne_none_iff_exists'.1 hskip
    have hact : loopEndAct x = (x.loops, none, x.pos + 1) := by unfold loopEndAct; rw [hq]
    rw [hend hop, State.dispatchLoopEnd_eq, State.lineCtx_takeHeads, hact]
  · have hact : loopEndAct x = if (lv.idx + 1).toNat < lv.count.toNat
        then ({ lv with idx := lv.idx + 1 } :: rest, none, lv.beginPos + 1) else (rest, none, x.pos + 1) := by
      unfold loopEndAct; rw [hskip, hloops]
    split
    · next hlt =>
      refine Ends.loop h rfl hop ?_
      rw [hend hop, State.dispatchLoopEnd_eq, State.lineCtx_takeHeads, hact, if_pos hlt]
    · next hge =>
      refine Ends.loop h rfl hop ?_
      rw [hend hop, State.dispatchLoopEnd_eq, State.lineCtx_takeHeads, hact, if_neg hge]

end Sys2Proof.Machine
end

section
/-! SUPPORT. HALT, CALL_ROUTINE, and cues that enter an engine's queues. -/

namespace Sys2Proof.Machine

/-! HALT (R295). -/

theorem LineSt.halted_advance (ln : LineSt) : ln.advance.halted = ln.halted := by
  unfold LineSt.advance
  split
  · split
    · rfl
    · unfold LineSt.endRoutine
      split <;> rfl
  · rfl

/-- HALT behind its posts. -/
def State.haltTurn (s : State) (l : Line) (c : Cue) : State :=
  ((s.moved l c .advance).halt l .haltCue 0 false (s.number l c).1.haltCue).updLine l fun ln => { ln with atPrompter := false }

theorem haltTurn_spec {s : State} {l : Line} {ptr : Nat} {c : Cue} (h : s.turnIs l ptr c) :
    let u := (s.takeHeads.haltTurn l c).turnEnd ptr
    u.line l = { (s.line l).numbered.advance with halted := true, more := false, atPrompter := false } ∧
      u.regF (R.lineHaltReason l.idx) 0 8 = 0x24 ∧ u.reg (R.lineHaltCountLo l.idx) = (s.line l).count.setWidth 32 ∧
      u.regB R.ctlIrqPend (1 + l.idx) = true ∧ u.board = (s.localPosts c).board ∧
      KeptBut [.lines, .board, .mem, .prop, .trig, .nextUid, .ctlR, .powerR, .lineR, .callR, .propR, .fltR] s u := by
  intro u
  have hmoved : (s.takeHeads.moved l c .advance).line l = (s.line l).numbered.advance := by
    rw [State.line_moved, State.numbered_takeHeads]
  have hrun : ((s.takeHeads.moved l c .advance).line l).halted = false := by
    have hhead := h.running
    rw [State.line_takeHeads] at hhead
    rw [hmoved, LineSt.halted_advance]
    exact hhead
  obtain ⟨hline, hreason, hcount, -, hirq⟩ :=
    State.halt_spec hrun Code.haltCue 0 false (s.takeHeads.number l c).1.haltCue
  have hend := Only.turnEnd (s.takeHeads.haltTurn l c) ptr
  have hreg {o : Nat} (ho : o ∉ [R.lineWeavePtr, R.pwrStatus]) : u.reg o =
      ((s.takeHeads.moved l c .advance).halt l .haltCue 0 false (s.takeHeads.number l c).1.haltCue).reg o := hend.regs o ho
  refine ⟨?_, ?_, ?_, ?_, ?_, ?_⟩
  · rw [State.line_turnEnd, State.haltTurn, State.updLine, State.line_setLine_self, hline, hmoved]
  · rw [State.regF_congr (hreg (by cases l <;> decide)), State.regF, hreason]
    exact fieldN_haltReasonWord_reason _ _ _
  · rw [hreg (by cases l <;> decide), hcount]
    show (s.takeHeads.line l).count.setWidth 32 = _
    rw [State.line_takeHeads]
  · rw [State.regB_congr (hreg (by decide)), hirq]
  · have hboard : u.board = (s.takeHeads.moved l c .advance).board :=
      ((KeptBut.turnEnd _ ptr).same .board (by decide)).trans
        ((kept_halt (s.takeHeads.moved l c .advance) l .haltCue 0 false _).but.same .board (by decide))
    rw [hboard, State.board_moved]
    exact State.board_localPosts_congr s.board_takeHeads c
  · exact (KeptBut.turnEnd _ ptr).step (by decide) ((kept_updLine _ _ _).but.step (by decide) ((kept_halt _ _ _ _ _ _).but.step
      (by decide) ((KeptBut.moved _ l c .advance).step (by decide) ((KeptBut.takeHeads s).mono (by decide)))))

/-! CALL_ROUTINE (R308, R309). -/

theorem State.routineEntry_congr {s t : State} (hrep : t.rep = s.rep) (hbad : t.repBad = s.repBad) (hbuild : t.build = s.build)
    (id : Nat) : t.routineEntry id = s.routineEntry id := by
  unfold State.routineEntry State.repWord State.repRotten
  rw [hrep, hbad, hbuild]

/-- The cue of a CALL_ROUTINE in flight. -/
def State.callFlight (s : State) (l : Line) (c : Cue) : Flight := ⟨(s.number l c).1, .started, 1, false, none, none, none⟩

/-- The line behind a CALL_ROUTINE, which names routine `e` when it is no optimizer's. -/
def LineSt.called (c : Cue) (uid : Nat) (e : Option (Nat × Nat × Bool × Bool)) (ln : LineSt) : LineSt :=
  if c.isOpt then ln.advance else match e with
  | some (start, n, _, _) =>
    { ln.advance with routine := some ⟨start, n, 0, (List.range 8).map c.arg, ln.advance.loops, ln.advance.skipEnd, uid⟩,
                      loops := [], skipEnd := none }
  | none => ln.advance

theorem State.dispatchCall_eq (s : State) (l : Line) (c : Cue) : s.dispatchCall l c =
    (State.updLine { s.issued l c with flights := (s.issued l c).flights ++ [s.callFlight l c] } l
      (LineSt.called c (s.number l c).1.uid
        (State.routineEntry { s.issued l c with flights := (s.issued l c).flights ++ [s.callFlight l c] } c.routineId))) := rfl

theorem State.nextUid_takeHeads (s : State) : s.takeHeads.nextUid = s.nextUid := (KeptBut.takeHeads s).same .nextUid (by decide)

theorem State.count_takeHeads (s : State) (l : Line) :
    (s.takeHeads.line l).count = (s.line l).count ∧ (s.takeHeads.line l).epoch = (s.line l).epoch := by
  rw [State.line_takeHeads]; exact ⟨rfl, rfl⟩

theorem callTurn_spec {s : State} {l : Line} {ptr : Nat} {c : Cue} {start k : Nat} {uok mok : Bool}
    (hentry : s.routineEntry c.routineId = some (start, k, uok, mok)) :
    let n := (s.line l).numbered.advance
    let u := (s.takeHeads.dispatchCall l c).turnEnd ptr
    u.line l = (if c.isOpt = true then n
      else { n with routine := some ⟨start, k, 0, (List.range 8).map c.arg, n.loops, n.skipEnd, 4 * s.nextUid + l.idx⟩,
                    loops := [], skipEnd := none }) ∧
    u.nextUid = s.nextUid + 1 ∧ u.board = s.board ∧ (∃ f, u.flights = s.flights ++ [f] ∧ f.stage = .started ∧ f.q.line = l ∧
      f.q.cue = c ∧ f.q.uid = 4 * s.nextUid + l.idx ∧ f.q.num = (s.line l).count ∧ f.q.epoch = (s.line l).epoch) ∧
    KeptBut [.lines, .flights, .mem, .prop, .trig, .nextUid, .powerR, .lineR, .callR, .propR, .fltR] s u := by
  intro n u
  have hheads := KeptBut.takeHeads s
  have hissued := KeptBut.issued s.takeHeads l c
  have hend := KeptBut.turnEnd (s.takeHeads.dispatchCall l c) ptr
  have hcall := (kept_dispatchCall s.takeHeads l c).but
  have huid : (s.takeHeads.number l c).1.uid = 4 * s.nextUid + l.idx := congrArg (4 * · + l.idx) s.nextUid_takeHeads
  refine ⟨?_, ?_, ?_, ⟨s.takeHeads.callFlight l c, ?_, rfl, rfl, rfl, huid, (s.count_takeHeads l).1, (s.count_takeHeads l).2⟩, ?_⟩
  · have hentry' : State.routineEntry { s.takeHeads.issued l c with
        flights := (s.takeHeads.issued l c).flights ++ [s.takeHeads.callFlight l c] } c.routineId = some (start, k, uok, mok) :=
      (State.routineEntry_congr ((hissued.same .rep (by decide)).trans (hheads.same .rep (by decide)))
        ((hissued.same .repBad (by decide)).trans (hheads.same .repBad (by decide)))
        ((hissued.same .build (by decide)).trans (hheads.same .build (by decide))) _).trans hentry
    rw [State.line_turnEnd, State.dispatchCall_eq, hentry', State.updLine, State.line_setLine_self, huid]
    show LineSt.called c _ _ ((s.takeHeads.issued l c).line l) = _
    rw [State.line_issued, State.numbered_takeHeads]
    rfl
  · rw [hend.same .nextUid (by decide), State.dispatchCall_eq]
    exact (State.nextUid_issued _ l c).trans (by rw [s.nextUid_takeHeads])
  · exact (hend.same .board (by decide)).trans ((hcall.same .board (by decide)).trans s.board_takeHeads)
  · rw [hend.same .flights (by decide), State.dispatchCall_eq]
    exact congrArg (· ++ _) ((hissued.same .flights (by decide)).trans (hheads.same .flights (by decide)))
  · exact hend.step (by decide) (hcall.step (by decide) (hheads.mono (by decide)))

/-- Settles O25, by opcode. -/
theorem haltAndCall : Obligations.HaltAndCall := by
  intro s l ptr c h n
  refine ⟨fun hop => Ends.of rfl (State.controlTurn_of_turnIs h hop) ?_,
    fun start k uok mok hop hentry => Ends.of rfl (State.controlTurn_of_turnIs h hop) ?_⟩
  · have hdispatch : s.takeHeads.dispatch l c = s.takeHeads.haltTurn l c := by unfold State.dispatch; rw [hop]; rfl
    rw [hdispatch]
    exact haltTurn_spec h
  · have hdispatch : s.takeHeads.dispatch l c = s.takeHeads.dispatchCall l c := by unfold State.dispatch; rw [hop]; rfl
    rw [hdispatch]
    exact callTurn_spec hentry

/-! Cues of the engines (R292). -/

theorem State.cueQueues_congr {s t : State} (harr : t.arr = s.arr) (hbuild : t.build = s.build) (l : Line) (c : Cue) :
    t.cueQueues l c = s.cueQueues l c := by
  unfold State.cueQueues State.arrQueue State.halves
  rw [harr, hbuild]

theorem State.claimOk_congr {s t : State} (hqueues : t.queues = s.queues) (hflights : t.flights = s.flights) (q : QCue)
    (qs : List Nat) : t.claimOk q qs = s.claimOk q qs := by
  have hlast (e : Nat) (l : Line) (uid : Nat) : t.lastOfLine e l uid = s.lastOfLine e l uid := by
    have hflight : t.flight = s.flight := by
      funext k
      unfold State.flight; rw [hflights]
    unfold State.lastOfLine State.queue
    rw [hqueues, hflight]
  unfold State.claimOk
  simp only [hlast]

/-- A cue stands last in each of its queues, and in no other. -/
theorem State.queue_enqueue (s : State) (q : QCue) (parent fetcher : Option Nat) (qs : List Nat) (k : Nat) :
    (s.enqueue q parent fetcher qs).queue k = s.queue k ++ (qs.filter (· == k)).map fun _ => q.uid := by
  have hfold : ∀ (t : State), (qs.foldl (fun s e => s.setQueue e (s.queue e ++ [q.uid])) t).queue k =
      t.queue k ++ (qs.filter (· == k)).map fun _ => q.uid := by
    induction qs with
    | nil => intro t; simp
    | cons e es ih =>
      intro t
      rw [List.foldl_cons, ih, State.queue_setQueue]
      by_cases he : e = k
      · subst he; simp
      · rw [if_neg (Ne.symm he)]; simp [he]
  exact hfold _

theorem State.flights_enqueue (s : State) (q : QCue) (parent fetcher : Option Nat) (qs : List Nat) :
    (s.enqueue q parent fetcher qs).flights = s.flights ++ [⟨q, .queued, qs.length, false, parent, fetcher, none⟩] := by
  have hfold : ∀ (t : State), (qs.foldl (fun s e => s.setQueue e (s.queue e ++ [q.uid])) t).flights = t.flights := by
    induction qs with
    | nil => exact fun _ => rfl
    | cons e es ih => exact fun t => ih _
  exact hfold _

/-- The state in which an engine's cue enters its queues. -/
def State.readied (s : State) (l : Line) (c : Cue) : State := (s.issued l c).updLine l LineSt.advance

theorem State.dispatchEngine_eq (s : State) (l : Line) (c : Cue) : s.dispatchEngine l c =
    (s.readied l c).enqueueChecked (s.number l c).1 (s.parentOf l) none (s.cueQueues l c) := rfl

theorem State.enqueueChecked_ok {s : State} {q : QCue} {qs : List Nat}
    (h : s.claimOk q (qs.filter fun e => decide (8 ≤ e) && decide (e < 16)) = true) (parent fetcher : Option Nat) :
    s.enqueueChecked q parent fetcher qs = s.enqueue q parent fetcher qs := by
  unfold State.enqueueChecked
  rw [h]
  rfl

theorem KeptBut.readied (s : State) (l : Line) (c : Cue) : KeptBut [.lines, .trig, .nextUid, .callR] s (s.readied l c) :=
  (kept_updLine _ _ _).but.step (by decide) (KeptBut.issued s l c)

theorem State.dispatch_of_engine {c : Cue} (h : c.opcode ∉ [0, 1, 2, 3, 4, 5, 7, 8, 0x70]) (s : State) (l : Line) :
    s.dispatch l c = s.dispatchEngine l c := by
  simp only [List.mem_cons, List.not_mem_nil, or_false, not_or] at h
  obtain ⟨h0, h1, h2, h3, h4, h5, h7, h8, h70⟩ := h
  unfold State.dispatch
  split <;> first | contradiction | rfl

/-- Settles O27: the queues that the cue enters and the claim it needs are those of the state before the turn. -/
theorem engineCue : Obligations.EngineCue := by
  intro r l ptr c upset board s h hop hclaim
  refine Ends.of rfl (State.prompterTurn_of_turnIs h) ?_
  have hheads := KeptBut.takeHeads s
  have hready := KeptBut.readied s.takeHeads l c
  have hboth : KeptBut [.lines, .mem, .prop, .trig, .nextUid, .callR, .propR, .fltR] s (s.takeHeads.readied l c) :=
    hready.step (by decide) (hheads.mono (by decide))
  have huid : (s.takeHeads.number l c).1.uid = 4 * s.nextUid + l.idx := congrArg (4 * · + l.idx) s.nextUid_takeHeads
  have hqs : s.takeHeads.cueQueues l c = s.cueQueues l c :=
    State.cueQueues_congr (hheads.same .arr (by decide)) (hheads.same .build (by decide)) l c
  have hok : (s.takeHeads.readied l c).claimOk (s.takeHeads.number l c).1
      ((s.cueQueues l c).filter fun e => decide (8 ≤ e) && decide (e < 16)) = true :=
    (State.claimOk_congr (hboth.same .queues (by decide)) (hboth.same .flights (by decide)) _ _).trans (hclaim _ huid rfl rfl)
  have hdispatch : s.takeHeads.dispatch l c =
      (s.takeHeads.readied l c).enqueue (s.takeHeads.number l c).1 (s.takeHeads.parentOf l) none (s.cueQueues l c) := by
    rw [State.dispatch_of_engine hop, State.dispatchEngine_eq, hqs, State.enqueueChecked_ok hok]
  rw [hdispatch]
  have hin := (kept_enqueue (s.takeHeads.readied l c) (s.takeHeads.number l c).1 (s.takeHeads.parentOf l) none (s.cueQueues l c)).but
  have hend := KeptBut.turnEnd ((s.takeHeads.readied l c).enqueue (s.takeHeads.number l c).1 (s.takeHeads.parentOf l) none
    (s.cueQueues l c)) ptr
  have hline (k : Line) := State.line_of_lines ((hend.same .lines (by decide)).trans (hin.same .lines (by decide))) k
  have hqueues {t v : State} (e : t.queues = v.queues) (k : Nat) : t.queue k = v.queue k := by
    unfold State.queue; rw [e]
  refine ⟨(hline l).trans ?_, fun k hk => (hline k).trans ?_,
    ⟨⟨(s.takeHeads.number l c).1, .queued, (s.cueQueues l c).length, false, s.takeHeads.parentOf l, none, none⟩, ?_, rfl, rfl, rfl,
      huid, (s.count_takeHeads l).1, (s.count_takeHeads l).2, ?_, rfl, rfl⟩, fun e => ?_, ?_, ?_⟩
  · rw [State.readied, State.updLine, State.line_setLine_self, State.line_issued, State.numbered_takeHeads]
  · rw [State.readied, State.updLine, State.line_setLine_ne _ _ hk, State.line_issued_ne _ _ hk]
  · rw [hend.same .flights (by decide), State.flights_enqueue, hboth.same .flights (by decide)]
  · exact hheads.reg (by rw [stepReg_ofReg]; rfl)
  · rw [hqueues (hend.same .queues (by decide)), State.queue_enqueue, huid, hqueues (hboth.same .queues (by decide))]
  · exact (hend.same .board (by decide)).trans ((hin.same .board (by decide)).trans (hboth.same .board (by decide)))
  · rw [hend.same .nextUid (by decide), hin.same .nextUid (by decide)]
    exact (State.nextUid_issued _ l c).trans (by rw [s.nextUid_takeHeads])

end Sys2Proof.Machine
end

section
/-! SUPPORT. How a claim about the end of a command fails, and a curtain call whose number another cue in flight bears. -/

namespace Sys2Proof.Machine

/-- The parts of the state that what follows a command can change. -/
def Field.settling : List Field :=
  [.pins, .lines, .flights, .prop, .fab, .tab, .outs, .trig, .freeCtr, .ctlR, .lineR, .callR, .fabR, .tabR, .fltR]

/-- The end of a command is known but for what follows it. -/
theorem Ends.settled {c : Instr} {s v : State} {P : State → Prop} (h : Ends c s P) (hexec : exec c s = v.done) :
    ∃ u, P u ∧ ∀ f, f ∉ Field.settling → f.same v u := by
  obtain ⟨u, hu, hp⟩ := h
  have hsettle : v.settle = u.settle := by
    rw [hexec] at hu
    exact Host.Outcome.next.inj hu
  refine ⟨u, hp, fun f hf => ?_⟩
  have hv : f.same v v.settle := (kept_settle v).but.same f hf
  have hu : f.same u v.settle := hsettle ▸ (kept_settle u).but.same f hf
  cases f <;> first
    | exact Eq.trans hu.symm hv
    | exact fun o ho => (hu o ho).symm.trans (hv o ho)

theorem Ends.settled_board {c : Instr} {s v : State} {P : State → Prop} (h : Ends c s P) (hexec : exec c s = v.done) :
    ∃ u, P u ∧ u.board = v.board := by
  obtain ⟨u, hp, hsame⟩ := h.settled hexec
  exact ⟨u, hp, hsame .board (by decide)⟩

/-! O26: two cues in flight with one number. -/

/-- A CURTAIN_CALL of index 0 (VERSION 1, opcode 0x70). -/
def twinCall : Cue := BitVec.ofNat 1024 (1 + 2 ^ 24 * 0x70)

/-- A NOP with one post: +1 to counter 64, which is curtain counter 0. -/
def twinCue : Cue := BitVec.ofNat 1024 (1 + 2 ^ 192 * (1 + 2 * 64 + 2 ^ 8))

/-- Line F of an enabled root with no child is about to dispatch its CURTAIN_CALL, and a cue of line B in flight bears the
number that the call will get. -/
def twinState : State :=
  { (({ State.reset with phase := .up, regs := [(R.ctlStatus, 1)] } : State).setReg (R.callCcCfg 0) 9).setLine .f
      { LineSt.reset with enabled := true, taken := some twinCall } with
    flights := [⟨⟨4 * State.reset.nextUid, .b, twinCue, 0, 0, 0, 0, 0, 0, 0, 0⟩, .started, 1, false, none, none, none⟩] }

theorem turnIs_twinState : twinState.turnIs .f 1 twinCall := by
  unfold State.turnIs; decide +kernel

theorem twinState_root : twinCall.opcode = 0x70 ∧ (twinState.takeHeads.curtainCheck .f twinCall).1 = .inr none ∧
    (twinState.tree twinCall.ccIndex).sent = false ∧
    (twinState.tree twinCall.ccIndex).kids.length = twinState.ccKids twinCall.ccIndex ∧
    twinState.ccRoot twinCall.ccIndex = true ∧ twinCall.posts = [] ∧ (twinState.cnt (64 + twinCall.ccIndex)).toNat = 0 := by
  decide +kernel

/-- The release completes the cue of line B, whose post counts too. -/
theorem twinState_counts : ((twinState.controlTurn .f 0x70).cnt (64 + twinCall.ccIndex)).toNat = 2 := by decide +kernel

/-- Refutes O26: in `twinState` the root's release makes the posts of the other cue with the call's number, and the curtain
counter rises by two. -/
theorem not_curtainCall : ¬ Obligations.CurtainCall := by
  intro h
  obtain ⟨hop, hcheck, hsent, hkids, hroot, hposts, hzero⟩ := twinState_root
  have hends := (h twinState .f 1 twinCall turnIs_twinState hop).2.1 none hcheck
  obtain ⟨u, ⟨-, -, -, -, -, -, hrelease⟩, hboard⟩ := Ends.settled_board (v := twinState.controlTurn .f 0x70) hends rfl
  have hcount := (hrelease hsent hkids hroot).2.2 rfl hposts (by omega)
  rw [State.cnt_congr hboard, twinState_counts] at hcount
  omega

end Sys2Proof.Machine
end

section
/-! SUPPORT. Turns of the split lists' fetchers. -/

namespace Sys2Proof.Machine

theorem splitCtl_ofReg (e : Nat) : Field.ofReg (R.lineSplitCtl e) = .splitR :=
  Field.ofReg_splitR (by unfold R.lineSplitCtl; omega) (by unfold R.lineSplitCtl; omega)

/-- Where a fetcher stands depends on the fetchers and on the split lists' registers. -/
theorem State.fetcherCtx_of_kept {m : List Field} {s t : State} (k : KeptBut m s t) (hf : m.contains .fetchers = false)
    (hr : m.contains .splitR = false) (e : Nat) : t.fetcherCtx e = s.fetcherCtx e := by
  have hfetcher : t.fetcher e = s.fetcher e := by
    unfold State.fetcher; rw [k.same .fetchers (by simpa using hf)]
  unfold State.fetcherCtx
  rw [hfetcher, State.regF_congr (k.reg (by rw [splitCtl_ofReg]; exact hr)), k.reg (by rw [R.lineSplitPtr_ofReg]; exact hr)]

theorem State.fetcher_of_kept {m : List Field} {s t : State} (k : KeptBut m s t) (hf : m.contains .fetchers = false) (e : Nat) :
    t.fetcher e = s.fetcher e := by
  unfold State.fetcher; rw [k.same .fetchers (by simpa using hf)]

theorem State.fetcherOn_line {s : State} {e : Nat} (h : s.fetcherOn e = true) :
    (s.line (s.fetcherCtx e).line).halted = false := by
  unfold State.fetcherOn at h
  simp only [Bool.and_eq_true, Bool.not_eq_true'] at h
  exact h.1.1.1.2

/-- The state in which a fetcher's cue is acted on: the head has been looked at, and Idle ends. -/
def State.found (s : State) (e : Nat) : State := (s.fetcherFind e).2.leaveIdle

theorem KeptBut.found (s : State) (e : Nat) : KeptBut [.mem, .prop, .trig, .powerR, .propR, .fltR] s (s.found e) :=
  (kept_leaveIdle _).but.step (by decide) ((kept_fetcherFind s e).but.mono (by decide))

section
variable {s : State} {e : Nat} (hon : s.fetcherOn e = true)
include hon

theorem State.fetcherTurn_go {c : Cue} (h : (s.fetcherFind e).1 = .go c) : s.fetcherTurn e = (s.found e).fetcherDispatch e c := by
  unfold State.fetcherTurn
  rw [if_neg (by simp [hon])]
  dsimp only
  rw [h]
  rfl

theorem State.fetcherTurn_keeps {c : Cue} {n : Nat} (h : (s.fetcherFind e).1 = .waits c ∨ (s.fetcherFind e).1 = .stalls n c) :
    s.fetcherTurn e = (s.fetcherFind e).2.setFetcher e { s.fetcher e with taken := some c } := by
  unfold State.fetcherTurn
  rw [if_neg (by simp [hon])]
  dsimp only
  rcases h with h | h <;> rw [h]

/-- A failing cue of a list halts the line before the fetcher notes where it stands. -/
theorem State.fetcherTurn_fail {r : Code} {fetch : Bool} {c : Cue} (h : (s.fetcherFind e).1 = .fail r fetch c) :
    let t := (s.found e).halt (s.fetcherCtx e).line r e fetch (s.fetcherCue e c)
    s.fetcherTurn e =
      t.setFetcher e { t.fetcher e with atFetcher := true, breakSpent := (t.fetcher e).breakSpent || r == .breakTag } := by
  unfold State.fetcherTurn
  rw [if_neg (by simp [hon])]
  dsimp only
  rw [h]
  rfl

end

/-! A cue of a list that goes (R314, R315). -/

/-- A fetcher that has given a cue its number. -/
def Fetcher.numbered (f : Fetcher) : Fetcher :=
  { f with count := f.count + 1, epoch := if f.count + 1 = 0 then f.epoch + 1 else f.epoch, taken := none, breakSpent := false }

/-- A list's cue has its number and its triggers are raised. -/
def State.listIssued (s : State) (e : Nat) (c : Cue) : State := (s.fetcherNumber e c).2.dispatchTriggers (s.fetcherNumber e c).1

/-- The list goes on behind its cue. -/
def State.listMoved (s : State) (e : Nat) (c : Cue) : State :=
  (s.listIssued e c).fetcherGoto e ((s.fetcherCtx e).loops, (s.fetcherCtx e).skipEnd, (s.fetcherCtx e).pos + 1)

section
variable (s : State) (e : Nat) (c : Cue)

theorem KeptBut.listIssued : KeptBut [.fetchers, .trig, .nextUid, .callR] s (s.listIssued e c) :=
  (kept_dispatchTriggers _ _).but.step (by decide) ((kept_fetcherNumber s e c).but.mono (by decide))

theorem KeptBut.listMoved : KeptBut [.fetchers, .trig, .nextUid, .splitR, .callR] s (s.listMoved e c) :=
  (kept_fetcherGoto _ _ _).but.step (by decide) ((KeptBut.listIssued s e c).mono (by decide))

theorem State.fetcher_listIssued : (s.listIssued e c).fetcher e = (s.fetcher e).numbered :=
  (State.fetcher_of_kept (kept_dispatchTriggers _ _).but (by decide) e).trans
    ((State.fetcher_setFetcher _ _ _ _).trans (if_pos rfl))

theorem State.fetcher_listMoved : (s.listMoved e c).fetcher e = (s.fetcher e).numbered := by
  refine (State.fetcher_setFetcher (s.listIssued e c) e _ e).trans ?_
  rw [if_pos rfl, s.fetcher_listIssued]
  rfl

theorem State.splitPtr_listMoved : (s.listMoved e c).reg (R.lineSplitPtr e) = (s.fetcherCtx e).pos + 1 :=
  State.reg_setReg_self _ _ _

/-- NOP and FENCE of a list. -/
theorem State.fetcherDispatch_plain (h : c.opcode = 0 ∨ c.opcode = 1) :
    s.fetcherDispatch e c = (s.listMoved e c).localPosts c := by
  unfold State.fetcherDispatch
  rcases h with h | h <;> rw [h] <;> rfl

theorem State.fetcherDispatch_step (h : c.opcode = 8) : s.fetcherDispatch e c = ((s.listMoved e c).localPosts c).setFetcher e
    { ((s.listMoved e c).localPosts c).fetcher e with step := (((s.listMoved e c).localPosts c).fetcher e).step + 1 } := by
  unfold State.fetcherDispatch
  rw [h]
  rfl

theorem State.fetcherDispatch_engine (h : c.opcode ∉ [0, 1, 2, 3, 5, 7, 8]) : s.fetcherDispatch e c =
    (s.listMoved e c).enqueueChecked (s.fetcherNumber e c).1 none (some e)
      ((s.listIssued e c).cueQueues (s.fetcherCtx e).line c) := by
  simp only [List.mem_cons, List.not_mem_nil, or_false, not_or] at h
  obtain ⟨h0, h1, h2, h3, h5, h7, h8⟩ := h
  unfold State.fetcherDispatch
  split <;> first | contradiction | rfl

end

theorem listPlain {s : State} (e : Nat) (c : Cue) {u : State} (hu : u = ((s.found e).listMoved e c).localPosts c) :
    u.fetcher e = (s.fetcher e).numbered ∧ u.reg (R.lineSplitPtr e) = (s.fetcherCtx e).pos + 1 ∧
      u.board = (s.localPosts c).board ∧ u.flights = s.flights ∧ u.lines = s.lines ∧
      ∀ l, u.reg (stepReg l) = s.reg (stepReg l) := by
  subst hu
  have hfound := KeptBut.found s e
  have hmoved := KeptBut.listMoved (s.found e) e c
  have hposts := (kept_localPosts ((s.found e).listMoved e c) c).but
  have hall : KeptBut [.fetchers, .mem, .prop, .trig, .nextUid, .powerR, .splitR, .callR, .propR, .fltR] s
      ((s.found e).listMoved e c) := hmoved.step (by decide) (hfound.mono (by decide))
  refine ⟨?_, ?_, ?_, ?_, ?_, fun l => ?_⟩
  · rw [State.fetcher_of_kept hposts (by decide), State.fetcher_listMoved, State.fetcher_of_kept hfound (by decide)]
  · rw [hposts.reg (by rw [R.lineSplitPtr_ofReg]; rfl), State.splitPtr_listMoved,
      State.fetcherCtx_of_kept hfound (by decide) (by decide)]
  · exact State.board_localPosts_congr (hall.same .board (by decide)) c
  · exact (hposts.same .flights (by decide)).trans (hall.same .flights (by decide))
  · exact (hposts.same .lines (by decide)).trans (hall.same .lines (by decide))
  · exact (hposts.reg (by rw [stepReg_ofReg]; rfl)).trans (hall.reg (by rw [stepReg_ofReg]; rfl))

theorem listEngine {s : State} (e : Nat) {c : Cue} (hclaim : s.claimFits (s.fetcherCtx e).line c) {u : State}
    (hu : u = ((s.found e).listMoved e c).enqueueChecked ((s.found e).fetcherNumber e c).1 none (some e)
      (((s.found e).listIssued e c).cueQueues ((s.found e).fetcherCtx e).line c)) :
    u.fetcher e = (s.fetcher e).numbered ∧ u.reg (R.lineSplitPtr e) = (s.fetcherCtx e).pos + 1 ∧ u.board = s.board ∧
      ∃ y, u.flights = s.flights ++ [y] ∧ y.stage = .queued ∧ y.q.cue = c ∧ y.q.num = (s.fetcher e).count ∧
        y.q.epoch = (s.fetcher e).epoch ∧ y.q.step = (s.fetcher e).step ∧ y.fetcher = some e := by
  have hfound := KeptBut.found s e
  have hctx : (s.found e).fetcherCtx e = s.fetcherCtx e := State.fetcherCtx_of_kept hfound (by decide) (by decide) e
  have hf : (s.found e).fetcher e = s.fetcher e := State.fetcher_of_kept hfound (by decide) e
  have hissued := KeptBut.listIssued (s.found e) e c
  have hmoved := KeptBut.listMoved (s.found e) e c
  have hall : KeptBut [.fetchers, .mem, .prop, .trig, .nextUid, .powerR, .splitR, .callR, .propR, .fltR] s
      ((s.found e).listMoved e c) := hmoved.step (by decide) (hfound.mono (by decide))
  have hqs : ((s.found e).listIssued e c).cueQueues ((s.found e).fetcherCtx e).line c =
      s.cueQueues (s.fetcherCtx e).line c := by
    rw [hctx]
    exact State.cueQueues_congr ((hissued.same .arr (by decide)).trans (hfound.same .arr (by decide)))
      ((hissued.same .build (by decide)).trans (hfound.same .build (by decide))) _ c
  have huid : ((s.found e).fetcherNumber e c).1.uid = 4 * s.nextUid + (s.fetcherCtx e).line.idx := by
    show 4 * (s.found e).nextUid + ((s.found e).fetcherCtx e).line.idx = _
    rw [hctx, hfound.same .nextUid (by decide)]
  have hline : ((s.found e).fetcherNumber e c).1.line = (s.fetcherCtx e).line := by
    show ((s.found e).fetcherCtx e).line = _
    rw [hctx]
  have hok : ((s.found e).listMoved e c).claimOk ((s.found e).fetcherNumber e c).1
      ((s.cueQueues (s.fetcherCtx e).line c).filter fun e => decide (8 ≤ e) && decide (e < 16)) = true :=
    (State.claimOk_congr (hall.same .queues (by decide)) (hall.same .flights (by decide)) _ _).trans (hclaim _ huid hline rfl)
  rw [hqs, State.enqueueChecked_ok hok] at hu
  subst hu
  have hin := (kept_enqueue ((s.found e).listMoved e c) ((s.found e).fetcherNumber e c).1 none (some e)
    (s.cueQueues (s.fetcherCtx e).line c)).but
  refine ⟨?_, ?_, (hin.same .board (by decide)).trans (hall.same .board (by decide)), _,
    (State.flights_enqueue _ _ _ _ _).trans (congrArg (· ++ _) (hall.same .flights (by decide))), rfl, rfl, ?_, ?_, ?_, rfl⟩
  · rw [State.fetcher_of_kept hin (by decide), State.fetcher_listMoved, hf]
  · rw [hin.reg (by rw [R.lineSplitPtr_ofReg]; rfl), State.splitPtr_listMoved, hctx]
  · exact congrArg Fetcher.count hf
  · exact congrArg Fetcher.epoch hf
  · exact congrArg Fetcher.step hf

theorem listFails {s : State} {e : Nat} (hon : s.fetcherOn e = true) {r : Code} {fetch : Bool} {c : Cue}
    (h : (s.fetcherFind e).1 = .fail r fetch c) :
    ((s.fetcherTurn e).line (s.fetcherCtx e).line).halted = true ∧ ((s.fetcherTurn e).fetcher e).count = (s.fetcher e).count ∧
      (s.fetcherTurn e).regF (R.lineHaltReason (s.fetcherCtx e).line.idx) 0 8 = r.num ∧
      (s.fetcherTurn e).regF (R.lineHaltReason (s.fetcherCtx e).line.idx) 8 6 = e % 64 ∧
      (s.fetcherTurn e).flights = s.flights ∧ (s.fetcherTurn e).board = s.board := by
  have hfound := KeptBut.found s e
  have hrun : ((s.found e).line (s.fetcherCtx e).line).halted = false := by
    rw [State.line_of_lines (hfound.same .lines (by decide))]
    exact State.fetcherOn_line hon
  obtain ⟨hline, hreason, -, -, -⟩ := State.halt_spec hrun r e fetch (s.fetcherCue e c)
  have hhalt := (kept_halt (s.found e) (s.fetcherCtx e).line r e fetch (s.fetcherCue e c)).but
  rw [State.fetcherTurn_fail hon h]
  refine ⟨congrArg LineSt.halted hline, ?_, ?_, ?_, (hhalt.same .flights (by decide)).trans (hfound.same .flights (by decide)),
    (hhalt.same .board (by decide)).trans (hfound.same .board (by decide))⟩
  · rw [State.fetcher_setFetcher, if_pos rfl]
    show (((s.found e).halt _ r e fetch _).fetcher e).count = _
    rw [State.fetcher_of_kept hhalt (by decide), State.fetcher_of_kept hfound (by decide)]
  · exact (congrArg (fieldN · 0 8) hreason).trans ((fieldN_haltReasonWord_reason _ _ _).trans (Nat.mod_eq_of_lt r.num_lt))
  · exact (congrArg (fieldN · 8 6) hreason).trans (fieldN_haltReasonWord_engine r.num_lt _ _)

/-- Settles O28, by what the fetcher's turn finds. -/
theorem fetcherTurn : Obligations.FetcherTurn := by
  intro s e f x g
  refine ⟨fun hoff => Ends.of rfl (if_pos hoff) rfl, fun c hon hgo => ⟨fun hop => ?_, fun hop => ?_, fun hop hclaim => ?_⟩,
    fun c n hon h => Ends.of rfl (State.fetcherTurn_keeps hon h) ⟨?_, ?_⟩, fun r fetch c hon h => Ends.of rfl rfl (listFails hon h)⟩
  · refine Ends.of rfl ((State.fetcherTurn_go hon hgo).trans (State.fetcherDispatch_plain _ e c hop)) ?_
    obtain ⟨hf, hptr, hboard, hflights, hlines, -⟩ := listPlain (s := s) e c rfl
    exact ⟨hf, hptr, hboard, hflights, hlines⟩
  · refine Ends.of rfl ((State.fetcherTurn_go hon hgo).trans (State.fetcherDispatch_step _ e c hop)) ?_
    obtain ⟨hf, hptr, hboard, -, -, hstep⟩ := listPlain (s := s) e c rfl
    refine ⟨?_, hptr, hboard, hstep x.line⟩
    rw [State.fetcher_setFetcher, if_pos rfl, hf]
    rfl
  · exact Ends.of rfl ((State.fetcherTurn_go hon hgo).trans (State.fetcherDispatch_engine _ e c hop)) (listEngine e hclaim rfl)
  · rw [State.fetcher_setFetcher, if_pos rfl]
  · exact (kept_setFetcher _ _ _).but.step (by decide) ((kept_fetcherFind s e).but.mono (by decide))

end Sys2Proof.Machine
end

section
/-! SUPPORT. ARR_FILL: its halts and waits, and what its issue takes and gives. -/

namespace Sys2Proof.Machine

/-! The cue at the head of a queue. -/

theorem State.flight_of_head {s : State} {e : Nat} {f : Flight} (h : s.head e = some f) : s.flight f.q.uid = some f := by
  obtain ⟨uid, -, hf⟩ := Option.bind_eq_some_iff.1 h
  have huid : f.q.uid = uid := by simpa using List.find?_some hf
  rwa [huid]

theorem State.head_of_startable {s : State} {e : Nat} {f : Flight} (h : s.startable e = some f) : s.head e = some f :=
  (Option.filter_eq_some_iff.1 h).1

theorem State.flight_of_startable {s : State} {e : Nat} {f : Flight} (h : s.startable e = some f) : s.flight f.q.uid = some f :=
  State.flight_of_head (State.head_of_startable h)

/-! Keyed lists looked up by `find?`. -/

theorem NMap.find?_put_self {α : Type} (m : NMap α) (k : Nat) (v : α) : (NMap.put m k v).find? (·.1 == k) = some (k, v) := by
  induction m with
  | nil => simp [NMap.put]
  | cons x m ih =>
    obtain ⟨a, w⟩ := x
    unfold NMap.put
    split
    · simp
    · split
      · simp
      · next h => rw [List.find?_cons_of_neg (by simpa using fun e : a = k => h e.symm), ih]

theorem NMap.find?_put_ne {α : Type} (m : NMap α) {k j : Nat} (v : α) (h : j ≠ k) :
    (NMap.put m k v).find? (·.1 == j) = m.find? (·.1 == j) := by
  induction m with
  | nil => simp [NMap.put, h.symm]
  | cons x m ih =>
    obtain ⟨a, w⟩ := x
    unfold NMap.put
    split
    · rw [List.find?_cons_of_neg (by simpa using h.symm)]
    · split
      · next e =>
        subst e
        rw [List.find?_cons_of_neg (by simpa using h.symm), List.find?_cons_of_neg (by simpa using h.symm)]
      · by_cases e : a = j
        · subst e; simp
        · rw [List.find?_cons_of_neg (by simpa using e), List.find?_cons_of_neg (by simpa using e), ih]

theorem NMap.find?_del_self {α : Type} (m : NMap α) (k : Nat) : (NMap.del m k).find? (·.1 == k) = none := by
  rw [List.find?_eq_none]
  intro x hx
  simpa [NMap.del] using (List.mem_filter.1 hx).2

theorem find?_filter_of_imp {α : Type} {p q : α → Bool} {l : List α} (h : ∀ x ∈ l, q x = true → p x = true) :
    (l.filter p).find? q = l.find? q := by
  induction l with
  | nil => rfl
  | cons x l ih =>
    have ih' := ih fun y hy => h y (List.mem_cons_of_mem _ hy)
    by_cases hq : q x = true
    · rw [List.filter_cons_of_pos (h x (by simp) hq), List.find?_cons_of_pos hq, List.find?_cons_of_pos hq]
    · rw [List.find?_cons_of_neg hq, List.filter_cons]
      split
      · rw [List.find?_cons_of_neg hq, ih']
      · exact ih'

theorem NMap.find?_del_ne {α : Type} (m : NMap α) {k j : Nat} (h : j ≠ k) :
    (NMap.del m k).find? (·.1 == j) = m.find? (·.1 == j) :=
  find?_filter_of_imp fun x _ hx => by
    have : x.1 = j := by simpa using hx
    simpa [this] using h

/-! Tiles for a fill. -/

/-- What the taking of weights leaves of the array complex. -/
structure Arr.weightsOnly (a b : Arr) : Prop where
  mode : b.mode = a.mode
  split : b.split = a.split
  feeds : b.feeds = a.feeds
  holds : b.holds = a.holds
  drain : b.drain = a.drain
  fillSeq : b.fillSeq = a.fillSeq
  awake : b.awake = a.awake

theorem Arr.weightsOnly.refl (a : Arr) : a.weightsOnly a := ⟨rfl, rfl, rfl, rfl, rfl, rfl, rfl⟩

theorem Arr.weightsOnly.trans {a b c : Arr} (h : a.weightsOnly b) (k : b.weightsOnly c) : a.weightsOnly c :=
  ⟨k.mode.trans h.mode, k.split.trans h.split, k.feeds.trans h.feeds, k.holds.trans h.holds, k.drain.trans h.drain,
    k.fillSeq.trans h.fillSeq, k.awake.trans h.awake⟩

theorem State.weightsOnly_popHalf {s : State} {q : Nat} {r : WTile × State} (h : s.popHalf q = some r) :
    s.arr.weightsOnly r.2.arr := by
  unfold State.popHalf at h
  dsimp only at h
  split at h
  · cases h; exact ⟨rfl, rfl, rfl, rfl, rfl, rfl, rfl⟩
  · exact nomatch h

theorem State.weightsOnly_takeTile {s : State} {q : Nat} {c : Cue} {k : Nat} {r : WTile × State} (h : s.takeTile q c k = some r) :
    s.arr.weightsOnly r.2.arr := by
  unfold State.takeTile at h
  split at h
  · cases h; exact ⟨rfl, rfl, rfl, rfl, rfl, rfl, rfl⟩
  · exact State.weightsOnly_popHalf h

theorem State.weightsOnly_fillTiles {s : State} {q : Nat} {c : Cue} {tiles : List WTile} {loaded : State}
    (h : s.fillTiles q c = some (tiles, loaded)) : s.arr.weightsOnly loaded.arr := by
  unfold State.fillTiles at h
  have hkeys : ∀ (ks : List Nat) (st r : List WTile × State), ks.foldlM (fun (st : List WTile × State) k =>
      if c.afWsame then some (st.1 ++ [match s.arr.working.find? (·.1 == k) with | some (_, w) => w.tile | none => default], st.2)
      else (st.2.takeTile q c k).map fun r => (st.1 ++ [r.1], r.2.loadWorking c k r.1)) st = some r →
      st.2.arr.weightsOnly r.2.arr := by
    intro ks
    induction ks with
    | nil => intro st r h; cases h; exact Arr.weightsOnly.refl _
    | cons k ks ih =>
      intro st r h
      rw [List.foldlM_cons] at h
      obtain ⟨m, hm, hr⟩ := Option.bind_eq_some_iff.1 h
      refine Arr.weightsOnly.trans ?_ (ih m r hr)
      split at hm
      · cases hm; exact Arr.weightsOnly.refl _
      · obtain ⟨x, hx, rfl⟩ := Option.map_eq_some_iff.1 hm
        exact (State.weightsOnly_takeTile hx).trans ⟨rfl, rfl, rfl, rfl, rfl, rfl, rfl⟩
  exact hkeys _ _ _ h

/-! The parts of an issue (R63 to R77). -/

/-- Operands leave their feeds. -/
def State.takeRows (s : State) (arrays : List Nat) (n : Nat) : State :=
  arrays.foldl (fun s a => s.setFeed a ((s.feed a).drop n)) s

/-- Results of the arrays of a fill: the array, its place among them and its elements. -/
abbrev FillOut := List (Nat × Nat × List (List (BitVec 64 × Bool × BitVec 32)))

/-- What the fill computes, in the state it issues in. -/
def State.fillOut (s : State) (q : Nat) (x : QCue) (rows : List (List FeedRow)) (tiles : List WTile) (e : Int) : FillOut :=
  (s.fillArrays q x.cue).zipIdx.map fun (a, i) =>
    (a, i, s.fillArray x e i (listGet [] rows i) (if s.arr.mode = 2 then listGet default tiles i else listGet default tiles 0)
      (if holdNeeded x.cue.afDrain then s.holdOf a else none))

/-- The counts of an issue. -/
def State.fillCounts (s : State) (q : Nat) (c : Cue) (e : Int) (out : FillOut) : State :=
  let d := c.afDrain
  let prev := NMap.get 0 s.arr.lastM q
  let s := if 0 < prev ∧ prev < 64 ∧ c.afWsame = false then s.count R.arrBubbleBeats (64 - prev) else s
  let s := s.setF R.arrLastE 0 16 (bvI 16 e).toNat
  let s := s.countMod R.arrFills 1
  let s := s.count R.arrSatCount ((out.map fun o => (o.2.2.map fun r => (r.filter (·.2.1)).length).sum).sum)
  let nan (v : BitVec 64 × Bool × BitVec 32) : Bool :=
    if emitsRaw d then rawIsNan v.1 else (ofB32 v.2.2).isNan
  if emits d then
    s.count R.arrNanCount ((out.map fun o => (o.2.2.map fun r => (r.filter nan).length).sum).sum) else s

/-- The hold slots of an issue. -/
def State.fillHolds (s : State) (x : QCue) (e : Int) (out : FillOut) : State :=
  out.foldl (fun s o =>
    let k := o.1 * s.arrBanks
    let holds := if x.cue.afDrain = 2 ∨ x.cue.afDrain = 3 then
        NMap.put s.arr.holds k ⟨x.line, x.cue.afM, x.cue.afN, e, (o.2.2.flatten.map (·.1))⟩
      else NMap.del s.arr.holds k
    { s with arr := { s.arr with holds := holds } }) s

/-- The tiles that a fill emits. -/
def fillNew (x : QCue) (seq : Nat) (e : Int) (out : FillOut) : List TqTile :=
  if emits x.cue.afDrain then
    weaveTiles (out.map fun o => cutTiles x seq o.2.1 x.cue.afN (emitsRaw x.cue.afDrain) e
      (o.2.2.map fun r => r.map fun v => if emitsRaw x.cue.afDrain then v.1 else v.2.2.setWidth 64))
  else []

/-- The array complex with the fill in flight. -/
def State.fillRuns (s : State) (q : Nat) (x : QCue) (arrays banks wake : List Nat) (seq : Nat) (new : List TqTile) : State :=
  { s with arr := { s.arr with
    fillSeq := seq + 1
    lastM := NMap.set 0 s.arr.lastM q x.cue.afM
    awake := s.arr.awake ++ wake
    allow := if s.regF R.pwrRamp 0 6 = 0 then s.arr.allow else s.arr.allow - wake.length
    want := 0
    drain := s.arr.drain ++ new.map (q, ·)
    fills := if emits x.cue.afDrain then NMap.put s.arr.fills seq
        ⟨x.line, x.cue.afOutTag, x.cue.afM, x.cue.afN, emitsRaw x.cue.afDrain, arrays.length, s.nextUid, none⟩ else s.arr.fills
    inFlight := s.arr.inFlight ++
      [⟨x.uid, seq, q, banks, (s.workKeys q x.cue).map s.workParity, !emits x.cue.afDrain⟩] } }

/-- The cue leaves its queues and is started, or done when it emits nothing. -/
def State.fillLeaves (s : State) (x : QCue) : State :=
  if emits x.cue.afDrain then (s.unqueue x.uid).startFlight x.uid else ((s.unqueue x.uid).startFlight x.uid).finishFlight x.uid

theorem State.issueFill_eq (s : State) (q : Nat) (x : QCue) (rows : List (List FeedRow)) (tiles : List WTile) (e : Int) :
    s.issueFill q x rows tiles e =
      (State.fillRuns (((s.takeRows (s.fillArrays q x.cue) (fillRows x.cue)).fillCounts q x.cue e
          (s.fillOut q x rows tiles e)).fillHolds x e (s.fillOut q x rows tiles e)) q x (s.fillArrays q x.cue)
        ((s.fillArrays q x.cue).map s.banksOf).flatten (s.toWake ((s.fillArrays q x.cue).map s.banksOf).flatten) s.arr.fillSeq
        (fillNew x s.arr.fillSeq e (s.fillOut q x rows tiles e))).fillLeaves x := by
  rfl

/-! What each part of an issue leaves. -/

section
variable (s : State)

theorem State.arr_takeRows (l : List Nat) (n : Nat) :
    (s.takeRows l n).arr = { s.arr with feeds := (s.takeRows l n).arr.feeds } := by
  unfold State.takeRows
  induction l generalizing s with
  | nil => rfl
  | cons a l ih => exact (ih _).trans rfl

theorem State.feed_setFeed (a : Nat) (l : List FeedRow) (k : Nat) : (s.setFeed a l).feed k = if k = a then l else s.feed k :=
  NMap.get_set _ _ _ _ _

theorem State.feed_takeRows {l : List Nat} (hl : l.Nodup) (n k : Nat) :
    (s.takeRows l n).feed k = if k ∈ l then (s.feed k).drop n else s.feed k := by
  unfold State.takeRows
  induction l generalizing s with
  | nil => simp
  | cons a l ih =>
    obtain ⟨ha, hl⟩ := List.nodup_cons.1 hl
    rw [List.foldl_cons, ih _ hl, State.feed_setFeed]
    by_cases hk : k = a
    · subst hk; simp [ha]
    · simp [hk]

theorem Only.fillCounts (q : Nat) (c : Cue) (e : Int) (out : FillOut) :
    Only [] [R.arrBubbleBeats, R.arrLastE, R.arrFills, R.arrSatCount, R.arrNanCount] s (s.fillCounts q c e out) := by
  unfold State.fillCounts
  extract_lets d prev s1 s2 s3 s4 nan
  have h1 : Only [] [R.arrBubbleBeats, R.arrLastE, R.arrFills, R.arrSatCount, R.arrNanCount] s s1 :=
    ((Only.refl _ _ s).count (by simp)).ite (Only.refl _ _ s)
  have h4 : Only [] [R.arrBubbleBeats, R.arrLastE, R.arrFills, R.arrSatCount, R.arrNanCount] s s4 :=
    ((h1.setF (by simp)).countMod (by simp)).count (by simp)
  exact (h4.count (by simp)).ite h4

theorem State.arrFills_fillCounts (q : Nat) (c : Cue) (e : Int) (out : FillOut) :
    (s.fillCounts q c e out).reg R.arrFills = s.reg R.arrFills + 1 := by
  unfold State.fillCounts
  extract_lets d prev s1 s2 s3 s4 nan
  have h1 : s1.reg R.arrFills = s.reg R.arrFills := by
    unfold s1; split
    · exact State.reg_count_ne _ _ (by decide)
    · rfl
  have h4 : s4.reg R.arrFills = s.reg R.arrFills + 1 := by
    rw [← h1]
    unfold s4 s3 s2
    rw [State.reg_count_ne _ _ (by decide), State.reg_countMod_self, State.reg_setF_ne _ _ _ _ (by decide)]
    rfl
  split
  · exact (State.reg_count_ne _ _ (by decide)).trans h4
  · exact h4

theorem State.arrBanks_pos : 0 < s.arrBanks := by
  unfold State.arrBanks
  split <;> decide

theorem State.arr_fillHolds (x : QCue) (e : Int) (out : FillOut) :
    (s.fillHolds x e out).arr = { s.arr with holds := (s.fillHolds x e out).arr.holds } := by
  unfold State.fillHolds
  induction out generalizing s with
  | nil => rfl
  | cons o out ih => exact (ih _).trans rfl

/-- The hold slots that one array's results leave. -/
def holdsWith (holds : NMap Hold) (x : QCue) (e : Int) (k : Nat) (vals : List (BitVec 64)) : NMap Hold :=
  if x.cue.afDrain = 2 ∨ x.cue.afDrain = 3 then NMap.put holds k ⟨x.line, x.cue.afM, x.cue.afN, e, vals⟩ else NMap.del holds k

theorem State.fillHolds_cons (x : QCue) (e : Int) (o : Nat × Nat × List (List (BitVec 64 × Bool × BitVec 32))) (out : FillOut) :
    s.fillHolds x e (o :: out) = State.fillHolds { s with arr := { s.arr with
      holds := holdsWith s.arr.holds x e (o.1 * s.arrBanks) (o.2.2.flatten.map (·.1)) } } x e out := rfl

theorem holdsWith_self (holds : NMap Hold) (x : QCue) (e : Int) (k : Nat) (vals : List (BitVec 64)) :
    ((holdsWith holds x e k vals).find? (·.1 == k)).map (·.2) =
      if x.cue.afDrain = 2 ∨ x.cue.afDrain = 3 then some ⟨x.line, x.cue.afM, x.cue.afN, e, vals⟩ else none := by
  unfold holdsWith
  split
  · rw [NMap.find?_put_self]; rfl
  · rw [NMap.find?_del_self]; rfl

theorem holdsWith_ne (holds : NMap Hold) (x : QCue) (e : Int) {k j : Nat} (h : j ≠ k) (vals : List (BitVec 64)) :
    (holdsWith holds x e k vals).find? (·.1 == j) = holds.find? (·.1 == j) := by
  unfold holdsWith
  split
  · exact NMap.find?_put_ne _ _ h
  · exact NMap.find?_del_ne _ h

theorem State.holdOf_fillHolds_of_not_mem (x : QCue) (e : Int) {out : FillOut} {a : Nat} (h : a ∉ out.map (·.1)) :
    (s.fillHolds x e out).holdOf a = s.holdOf a := by
  induction out generalizing s with
  | nil => rfl
  | cons o out ih =>
    rw [List.map_cons, List.mem_cons, not_or] at h
    rw [State.fillHolds_cons, ih _ h.2]
    have hne : a * s.arrBanks ≠ o.1 * s.arrBanks := fun e => h.1 (Nat.eq_of_mul_eq_mul_right s.arrBanks_pos e)
    exact congrArg (Option.map (·.2)) (holdsWith_ne _ x e hne _)

theorem State.holdOf_fillHolds (x : QCue) (e : Int) {out : FillOut} (hout : (out.map (·.1)).Nodup)
    {o : Nat × Nat × List (List (BitVec 64 × Bool × BitVec 32))} (ho : o ∈ out) : (s.fillHolds x e out).holdOf o.1 =
      if x.cue.afDrain = 2 ∨ x.cue.afDrain = 3 then some ⟨x.line, x.cue.afM, x.cue.afN, e, o.2.2.flatten.map (·.1)⟩ else none := by
  induction out generalizing s with
  | nil => exact absurd ho (by simp)
  | cons o' out ih =>
    obtain ⟨hnot, hout⟩ := List.nodup_cons.1 hout
    rw [State.fillHolds_cons]
    rcases List.mem_cons.1 ho with rfl | ho
    · rw [State.holdOf_fillHolds_of_not_mem _ _ _ hnot]
      exact holdsWith_self _ x e _ _
    · exact ih _ hout ho

end

/-! The results. -/

theorem State.fillOut_fst (s : State) (q : Nat) (x : QCue) (rows : List (List FeedRow)) (tiles : List WTile) (e : Int) :
    (s.fillOut q x rows tiles e).map (·.1) = s.fillArrays q x.cue := by
  unfold State.fillOut
  rw [List.map_map]
  exact List.zipIdx_map_fst 0 _

theorem State.length_fillArray (s : State) (x : QCue) (e : Int) (i : Nat) (rows : List FeedRow) (w : WTile) (held : Option Hold) :
    ((s.fillArray x e i rows w held).flatten.map (·.1)).length = x.cue.afM * x.cue.afN := by
  simp [State.fillArray, List.length_flatten, Function.comp_def]

theorem State.fillArrays_nodup (s : State) (q : Nat) (c : Cue) : (s.fillArrays q c).Nodup := by
  unfold State.fillArrays
  split
  · exact List.Nodup.map (fun _ _ h => by simpa using h) List.nodup_range
  · split
    · simp
    · exact List.nodup_range

theorem mem_weaveTiles {l : List (List TqTile)} {t : TqTile} (h : t ∈ weaveTiles l) : ∃ x ∈ l, t ∈ x := by
  unfold weaveTiles at h
  obtain ⟨y, hy, ht⟩ := List.mem_flatten.1 h
  obtain ⟨k, -, rfl⟩ := List.mem_map.1 hy
  obtain ⟨x, hx, hk⟩ := List.mem_filterMap.1 ht
  exact ⟨x, hx, List.mem_of_getElem? hk⟩

/-- Every tile that a fill emits bears its number, line, tag and width. -/
theorem mem_fillNew {x : QCue} {seq : Nat} {e : Int} {out : FillOut} {t : TqTile} (h : t ∈ fillNew x seq e out) :
    t.uid = x.uid ∧ t.line = x.line ∧ t.tag = x.cue.afOutTag ∧ t.n = x.cue.afN ∧ t.begun = none := by
  unfold fillNew at h
  split at h
  · obtain ⟨y, hy, ht⟩ := mem_weaveTiles h
    obtain ⟨o, -, rfl⟩ := List.mem_map.1 hy
    obtain ⟨k, -, rfl⟩ := List.mem_map.1 ht
    exact ⟨rfl, rfl, rfl, rfl, rfl⟩
  · exact absurd h (by simp)

/-! The cue of a fill. -/

theorem State.stage_flight_startFlight {s : State} {uid : Nat} {y : Flight} (h : (s.startFlight uid).flight uid = some y) :
    y.stage = .started := by
  have hy := List.mem_of_find?_eq_some h
  have huid : y.q.uid = uid := by simpa using List.find?_some h
  obtain ⟨x, -, rfl⟩ := List.mem_map.1 hy
  split at huid
  · next e => rw [if_pos e]
  · next e => exact absurd huid e

theorem State.stage_fillLeaves {s : State} {x : QCue} {y : Flight} (h : (s.fillLeaves x).flight x.uid = some y) :
    y.stage = if emits x.cue.afDrain then .started else .finished := by
  unfold State.fillLeaves at h
  split at h
  · next he => rw [if_pos he]; exact State.stage_flight_startFlight h
  · next he => rw [if_neg he]; exact State.stage_flight_finishFlight h

theorem State.build_fillLeaves (s : State) (x : QCue) : (s.fillLeaves x).build = s.build := by
  unfold State.fillLeaves; split <;> rfl

theorem State.holdOf_congr {s t : State} (hholds : t.arr.holds = s.arr.holds) (hmode : t.arr.mode = s.arr.mode)
    (hbuild : t.build = s.build) (a : Nat) : t.holdOf a = s.holdOf a := by
  unfold State.holdOf State.arrBanks
  rw [hholds, hmode, hbuild]

theorem State.arr_fillLeaves (s : State) (x : QCue) : (s.fillLeaves x).arr = s.arr := by
  unfold State.fillLeaves; split <;> rfl

theorem State.not_mem_queue_fillLeaves (s : State) (x : QCue) (k : Nat) : x.uid ∉ (s.fillLeaves x).queue k := by
  have hqueues : (s.fillLeaves x).queue k = (s.unqueue x.uid).queue k := by unfold State.fillLeaves; split <;> rfl
  rw [hqueues]
  exact State.not_mem_queue_unqueue s x.uid k

theorem State.reg_fillLeaves (s : State) (x : QCue) (o : Nat) : (s.fillLeaves x).reg o = s.reg o := by
  unfold State.fillLeaves; split <;> rfl

/-- What an issue does to the array complex and to its count of fills. -/
theorem State.issueFill_spec (s : State) (q : Nat) (x : QCue) (rows : List (List FeedRow)) (tiles : List WTile) (e : Int) :
    let u := s.issueFill q x rows tiles e
    let arrays := s.fillArrays q x.cue
    (∀ a, u.feed a = if a ∈ arrays then (s.feed a).drop (fillRows x.cue) else s.feed a) ∧
      (∀ k, x.uid ∉ u.queue k) ∧ u.arr.fillSeq = s.arr.fillSeq + 1 ∧ u.reg R.arrFills = s.reg R.arrFills + 1 ∧
      u.arr.awake = s.arr.awake ++ s.toWake (arrays.map s.banksOf).flatten ∧
      (∀ y, u.flight x.uid = some y → y.stage = if emits x.cue.afDrain then .started else .finished) ∧
      (∃ new : List TqTile, u.arr.drain = s.arr.drain ++ new.map (fun t => (q, t)) ∧ (emits x.cue.afDrain = false → new = []) ∧
        ∀ t ∈ new, t.uid = x.uid ∧ t.line = x.line ∧ t.tag = x.cue.afOutTag ∧ t.n = x.cue.afN ∧ t.begun = none) ∧
      ∀ a ∈ arrays, ∃ vals : List (BitVec 64), vals.length = x.cue.afM * x.cue.afN ∧ u.holdOf a =
        if x.cue.afDrain = 2 ∨ x.cue.afDrain = 3 then some ⟨x.line, x.cue.afM, x.cue.afN, e, vals⟩ else none := by
  intro u arrays
  have hnodup : arrays.Nodup := s.fillArrays_nodup q x.cue
  let out := s.fillOut q x rows tiles e
  let t1 := s.takeRows arrays (fillRows x.cue)
  let t2 := t1.fillCounts q x.cue e out
  let t3 := t2.fillHolds x e out
  have hu : u = (t3.fillRuns q x arrays (arrays.map s.banksOf).flatten (s.toWake (arrays.map s.banksOf).flatten) s.arr.fillSeq
      (fillNew x s.arr.fillSeq e out)).fillLeaves x := s.issueFill_eq q x rows tiles e
  have h2 : t2.arr = t1.arr := (Only.fillCounts t1 q x.cue e out).fields.same .arr (by decide)
  have h1 := s.arr_takeRows arrays (fillRows x.cue)
  have h3 := t2.arr_fillHolds x e out
  have harr : u.arr = (t3.fillRuns q x arrays (arrays.map s.banksOf).flatten (s.toWake (arrays.map s.banksOf).flatten)
      s.arr.fillSeq (fillNew x s.arr.fillSeq e out)).arr := by rw [hu, State.arr_fillLeaves]
  have hfeeds : u.arr.feeds = t1.arr.feeds := by
    rw [harr]
    show t3.arr.feeds = _
    rw [h3]
    show t2.arr.feeds = _
    rw [h2]
  refine ⟨fun a => ?_, fun k => ?_, by rw [harr]; rfl, ?_, ?_, fun y hy => ?_, ⟨fillNew x s.arr.fillSeq e out, ?_, fun he => ?_,
    fun t ht => mem_fillNew ht⟩, fun a ha => ?_⟩
  · rw [← s.feed_takeRows hnodup]
    unfold State.feed
    rw [hfeeds]
  · rw [hu]; exact State.not_mem_queue_fillLeaves _ x k
  · rw [hu, State.reg_fillLeaves]
    have hholds : t3.reg R.arrFills = t2.reg R.arrFills := by
      have hfold : ∀ (l : FillOut) (t : State), (t.fillHolds x e l).reg R.arrFills = t.reg R.arrFills := by
        intro l
        induction l with
        | nil => exact fun _ => rfl
        | cons o l ih => exact fun t => (ih _).trans rfl
      exact hfold _ _
    have hrows : t1.reg R.arrFills = s.reg R.arrFills := by
      have hfold : ∀ (l : List Nat) (t : State), (t.takeRows l (fillRows x.cue)).reg R.arrFills = t.reg R.arrFills := by
        intro l
        induction l with
        | nil => exact fun _ => rfl
        | cons a l ih => exact fun t => (ih _).trans rfl
      exact hfold _ _
    show t3.reg R.arrFills = _
    rw [hholds, State.arrFills_fillCounts, hrows]
  · rw [harr]
    show t3.arr.awake ++ _ = _
    rw [h3]
    show t2.arr.awake ++ _ = _
    rw [h2, h1]
  · rw [hu] at hy; exact State.stage_fillLeaves hy
  · rw [harr]
    show t3.arr.drain ++ _ = _
    rw [h3]
    show t2.arr.drain ++ _ = _
    rw [h2, h1]
  · unfold fillNew; rw [if_neg (by simp [he])]
  · have ha' : a ∈ out.map (·.1) := by rw [s.fillOut_fst]; exact ha
    obtain ⟨o, ho, rfl⟩ := List.mem_map.1 ha'
    have hhold : u.holdOf o.1 = t3.holdOf o.1 :=
      State.holdOf_congr (by rw [harr]; rfl) (by rw [harr]; rfl) (by rw [hu, State.build_fillLeaves]; rfl) _
    refine ⟨o.2.2.flatten.map (·.1), ?_, ?_⟩
    · obtain ⟨p, -, rfl⟩ := List.mem_map.1 ho
      exact s.length_fillArray x e _ _ _ _
    · rw [hhold]
      exact t2.holdOf_fillHolds x e (by rw [s.fillOut_fst]; exact hnodup) ho

theorem usesHold_of_needed {d : Nat} (h : holdNeeded d = true) : usesHold d = true := by
  simp only [holdNeeded, Bool.or_eq_true, beq_iff_eq] at h
  simp only [usesHold, Bool.and_eq_true, decide_eq_true_eq]
  omega

/-! ARR_FILL at the head of its queue. -/

section
variable {s : State} {q : Nat} {f : Flight} (hf : s.startable (q + 1) = some f) (hop : f.q.cue.opcode = 0x10)
include hf hop

theorem State.arrFill_fails {code : Code} (h : leastCode (s.fillChecks q f.q.cue) = some code) :
    s.arrFill q = s.engineHalt f.q.uid 1 code := by
  unfold State.arrFill
  rw [hf]
  dsimp only
  rw [if_neg (by simp [hop]), h]

theorem State.arrFill_waits (h : leastCode (s.fillChecks q f.q.cue) = none)
    (hwait : (∃ a ∈ s.fillArrays q f.q.cue, (s.feed a).length < fillRows f.q.cue) ∨ s.fillTiles q f.q.cue = none) :
    s.arrFill q = s := by
  unfold State.arrFill
  rw [hf]
  dsimp only
  rw [if_neg (by simp [hop]), h]
  dsimp only
  split
  · rfl
  · next hno =>
    rcases hwait with ⟨a, ha, hlt⟩ | hnone
    · exact absurd (List.any_eq_true.2 ⟨a, ha, decide_eq_true hlt⟩) hno
    · rw [hnone]

section
variable {tiles : List WTile} {loaded : State} (h : leastCode (s.fillChecks q f.q.cue) = none)
  (hrows : ∀ a ∈ s.fillArrays q f.q.cue, fillRows f.q.cue ≤ (s.feed a).length)
  (htiles : s.fillTiles q f.q.cue = some (tiles, loaded))
include h hrows htiles

/-- With its rows and its tiles there, a fill goes on to its operands (R69). -/
theorem State.arrFill_goes : s.arrFill q =
    let c := f.q.cue
    let arrays := s.fillArrays q c
    let rows := arrays.map fun a => (s.feed a).take (fillRows c)
    if operandsAgree c rows.flatten tiles = false then s.engineHalt f.q.uid 1 .arrOperandMismatch
    else
      let e := fillE c rows.flatten tiles
      if usesHold c.afDrain ∧ holdNeeded c.afDrain ∧ arrays.any (fun a => match s.holdOf a with
          | some h => h.e != e | none => true) then s.engineHalt f.q.uid 1 .arrHoldMismatch
      else
        let wake := (s.toWake (arrays.map s.banksOf).flatten).length
        let held := s.rampOk wake = false
        let holding (s : State) : State :=
          (if held then { s with arr := { s.arr with want := wake } } else s).setB R.pwrStatus 8 (decide held)
        if (holding s).regB R.pwrStatus 7 ∨ held then holding s else (holding loaded).issueFill q f.q rows tiles e := by
  have hfull : ((s.fillArrays q f.q.cue).any fun a => decide ((s.feed a).length < fillRows f.q.cue)) = false :=
    List.any_eq_false.2 fun a ha => by simpa using hrows a ha
  unfold State.arrFill
  rw [hf]
  dsimp only
  rw [if_neg (by simp [hop]), h]
  dsimp only
  rw [hfull, htiles]
  rfl

theorem State.arrFill_operandMismatch
    (hagree : operandsAgree f.q.cue ((s.fillArrays q f.q.cue).map fun a => (s.feed a).take (fillRows f.q.cue)).flatten tiles = false) :
    s.arrFill q = s.engineHalt f.q.uid 1 .arrOperandMismatch :=
  (State.arrFill_goes hf hop h hrows htiles).trans (if_pos hagree)

theorem State.arrFill_holdMismatch
    (hagree : operandsAgree f.q.cue ((s.fillArrays q f.q.cue).map fun a => (s.feed a).take (fillRows f.q.cue)).flatten tiles = true)
    (hneed : holdNeeded f.q.cue.afDrain = true) (hbad : ∃ a ∈ s.fillArrays q f.q.cue, ∀ h, s.holdOf a = some h →
      h.e ≠ fillE f.q.cue ((s.fillArrays q f.q.cue).map fun a => (s.feed a).take (fillRows f.q.cue)).flatten tiles) :
    s.arrFill q = s.engineHalt f.q.uid 1 .arrHoldMismatch := by
  obtain ⟨a, ha, hno⟩ := hbad
  refine (State.arrFill_goes hf hop h hrows htiles).trans ((if_neg (by simp [hagree])).trans (if_pos ⟨?_, hneed, ?_⟩))
  · exact usesHold_of_needed hneed
  · refine List.any_eq_true.2 ⟨a, ha, ?_⟩
    cases e : s.holdOf a with
    | none => rfl
    | some x => simpa using hno x e

/-- A fill issues: no operand or hold differs, the banks may wake and no hold of the power meters stands (R509). -/
theorem State.arrFill_issues
    (hagree : operandsAgree f.q.cue ((s.fillArrays q f.q.cue).map fun a => (s.feed a).take (fillRows f.q.cue)).flatten tiles = true)
    (hholds : holdNeeded f.q.cue.afDrain = true → ∀ a ∈ s.fillArrays q f.q.cue, ∃ h, s.holdOf a = some h ∧
      h.e = fillE f.q.cue ((s.fillArrays q f.q.cue).map fun a => (s.feed a).take (fillRows f.q.cue)).flatten tiles)
    (hramp : s.rampOk (s.toWake ((s.fillArrays q f.q.cue).map s.banksOf).flatten).length = true)
    (hgov : s.regB R.pwrStatus 7 = false) :
    s.arrFill q = (loaded.setB R.pwrStatus 8 false).issueFill q f.q
      ((s.fillArrays q f.q.cue).map fun a => (s.feed a).take (fillRows f.q.cue)) tiles
      (fillE f.q.cue ((s.fillArrays q f.q.cue).map fun a => (s.feed a).take (fillRows f.q.cue)).flatten tiles) := by
  refine (State.arrFill_goes hf hop h hrows htiles).trans ((if_neg (by simp [hagree])).trans ((if_neg ?_).trans ?_))
  · rintro ⟨-, hneed, hany⟩
    obtain ⟨a, ha, hne⟩ := List.any_eq_true.1 hany
    obtain ⟨x, hx, he⟩ := hholds hneed a ha
    simp [hx, he] at hne
  · extract_lets wake held holding
    have hheld : ¬held := by
      show ¬(s.rampOk wake = false)
      rw [hramp]
      decide
    have hholding (t : State) : holding t = t.setB R.pwrStatus 8 false := by
      show (if held then _ else t).setB R.pwrStatus 8 (decide held) = _
      rw [if_neg hheld, decide_eq_false hheld]
    rw [hholding, hholding, if_neg]
    rw [State.regB_setB_out _ _ _ _ _ (by decide) (by decide), hgov]
    simpa using hheld

end

end

theorem State.fillArrays_congr {s t : State} (h : s.arr.weightsOnly t.arr) (hb : t.build = s.build) (q : Nat) (c : Cue) :
    t.fillArrays q c = s.fillArrays q c := by
  unfold State.fillArrays State.arrCount
  rw [h.mode, h.split, hb]

theorem State.banksOf_congr {s t : State} (h : s.arr.weightsOnly t.arr) (hb : t.build = s.build) : t.banksOf = s.banksOf := by
  funext a
  unfold State.banksOf State.arrBanks
  rw [h.mode, hb]

theorem mem_append_toWake {s : State} {banks : List Nat} {b : Nat} (h : b ∈ banks) : b ∈ s.arr.awake ++ s.toWake banks := by
  by_cases hb : b ∈ s.arr.awake
  · exact List.mem_append_left _ hb
  · exact List.mem_append_right _ (List.mem_filter.2 ⟨h, by simpa using hb⟩)

theorem Ends.arrFill {r : State} {q : Fin 2} {par : List (Nat × Nat × Nat)} {hpar : List (Nat × Nat)} {P : State → Prop}
    (hrun : r.enginesRun = true) {u : State} (hu : ((r.feedParity par).holdParity hpar).arrFill q.val = u) (p : P u) :
    Ends (.arrFill q par hpar) r P :=
  Ends.of rfl (by rw [if_pos hrun]; exact hu) p

/-- Settles O29: the checks, the waits, the operands, and the issue, each by the branch that takes it. -/
theorem arrayFill : Obligations.ArrayFill := by
  intro r q par hpar f s hrun hf hop fill c arrays rows
  have hlive := State.flight_of_startable hf
  refine ⟨fun code hcode => Ends.arrFill hrun (State.arrFill_fails hf hop hcode) ⟨?_, (kept_engineHalt _ _ _ _).but⟩,
    fun hok hshort => Ends.arrFill hrun (State.arrFill_waits hf hop hok (.inl hshort)) rfl,
    fun hok _ hnone => Ends.arrFill hrun (State.arrFill_waits hf hop hok (.inr hnone)) rfl, fun tiles loaded hok hrows htiles => ⟨?_, ?_, ?_⟩⟩
  · exact State.haltsOn_engineHalt hlive rfl rfl (by decide) code
  · intro hagree
    exact Ends.arrFill hrun (State.arrFill_operandMismatch hf hop hok hrows htiles hagree)
      (State.haltsOn_engineHalt hlive rfl rfl (by decide) _)
  · intro hagree hneed hbad
    exact Ends.arrFill hrun (State.arrFill_holdMismatch hf hop hok hrows htiles hagree hneed hbad)
      (State.haltsOn_engineHalt hlive rfl rfl (by decide) _)
  · intro hagree hholds hramp hgov
    have hload : s.arr.weightsOnly loaded.arr := State.weightsOnly_fillTiles htiles
    have hkept : KeptBut [.arr] s loaded := ((kept_fillTiles s q.val c).out _ htiles).but
    have hbuild : loaded.build = s.build := hkept.same .build (by decide)
    have harrays : (loaded.setB R.pwrStatus 8 false).fillArrays q.val c = arrays := State.fillArrays_congr hload hbuild _ _
    have hbanks : (loaded.setB R.pwrStatus 8 false).banksOf = s.banksOf := State.banksOf_congr hload hbuild
    have hfeed (a : Nat) : (loaded.setB R.pwrStatus 8 false).feed a = s.feed a := congrArg (NMap.get [] · a) hload.feeds
    obtain ⟨hfeeds, hqueue, hseq, hcount, hawake, hstage, ⟨new, hdrain, hnone, hnew⟩, hslots⟩ :=
      State.issueFill_spec (loaded.setB R.pwrStatus 8 false) q.val f.q rows tiles (fillE c rows.flatten tiles)
    rw [harrays] at hfeeds hslots
    rw [harrays, hbanks] at hawake
    refine Ends.arrFill hrun (State.arrFill_issues hf hop hok hrows htiles hagree hholds hramp hgov) ⟨fun a => ?_, hqueue,
      hseq.trans (congrArg (· + 1) hload.fillSeq), ?_, fun b hb => ?_, hstage, fun _ => ⟨new, hdrain.trans ?_, hnew⟩, fun hno => ?_,
      fun hd a ha => ?_, fun h2 h3 a ha => ?_, ?_⟩
    · rw [hfeeds, hfeed]
    · rw [hcount, State.reg_setB_ne _ _ _ (by decide), hkept.reg (by decide)]
    · rw [hawake]
      have haw : (loaded.setB R.pwrStatus 8 false).arr.awake = s.arr.awake := hload.awake
      exact mem_append_toWake hb
    · rw [show (loaded.setB R.pwrStatus 8 false).arr.drain = s.arr.drain from hload.drain]
    · rw [hdrain, hnone hno]
      exact (List.append_nil _).trans hload.drain
    · obtain ⟨vals, hlen, hhold⟩ := hslots a ha
      exact ⟨_, hhold.trans (if_pos hd), rfl, rfl, rfl, rfl, hlen⟩
    · obtain ⟨vals, -, hhold⟩ := hslots a ha
      exact hhold.trans (if_neg (not_or.2 ⟨h2, h3⟩))
    · exact (kept_issueFill _ _ _ _ _ _).but.step (by decide) ((keptBut_setReg loaded R.pwrStatus _).step (by decide)
        (hkept.mono (by decide)))

end Sys2Proof.Machine
end

section
/-! SUPPORT. ARR_DROP_HOLD and ARR_CONFIG; weight preload, tile drain and bank sleep. -/

namespace Sys2Proof.Machine

/-! A cue that is done as it leaves its queues. -/

/-- A cue leaves its queues with its work done. -/
def State.leavesDone (s : State) (uid : Nat) : State := (s.unqueue uid).finishFlight uid

theorem State.doneWith_leavesDone (s : State) (f : Flight) : (s.leavesDone f.q.uid).doneWith f :=
  ⟨fun _ hy => State.stage_flight_finishFlight hy, fun k => State.not_mem_queue_unqueue s f.q.uid k⟩

theorem KeptBut.leavesDone (s : State) (uid : Nat) : KeptBut [.flights, .queues] s (s.leavesDone uid) :=
  (kept_finishFlight _ _).but.step (by decide) ((kept_unqueue s uid).but.mono (by decide))

/-! ARR_DROP_HOLD (R93). -/

/-- Arrays whose holds an ARR_DROP_HOLD of queue `q` releases. -/
def State.dropped (s : State) (q : Nat) (c : Cue) : List Nat :=
  (List.range s.arrCount).filter fun a => c.adMask.testBit a && (!s.arr.split || a / 2 == q)

/-- Holds without those of the arrays in `l`. -/
def State.withoutHolds (s : State) (l : List Nat) : State :=
  { s with arr := { s.arr with holds := s.arr.holds.filter fun h => !(l.any fun a => a * s.arrBanks == h.1) } }

theorem State.arrDropHold_eq {s : State} {q : Nat} {f : Flight} (hf : s.startable (q + 1) = some f) (hop : f.q.cue.opcode = 0x11) :
    s.arrDropHold q = (s.withoutHolds (s.dropped q f.q.cue)).leavesDone f.q.uid := by
  unfold State.arrDropHold
  rw [hf]
  exact if_neg (by simp [Flight.opcode, hop])

theorem State.holdOf_withoutHolds (s : State) (l : List Nat) (a : Nat) :
    (s.withoutHolds l).holdOf a = if a ∈ l then none else s.holdOf a := by
  have hkey (b : Nat) : b * s.arrBanks = a * s.arrBanks ↔ b = a :=
    ⟨fun h => Nat.eq_of_mul_eq_mul_right s.arrBanks_pos h, fun h => by rw [h]⟩
  show (((s.arr.holds.filter fun h => !(l.any fun b => b * s.arrBanks == h.1)).find? (·.1 == a * s.arrBanks)).map (·.2)) = _
  split
  · next ha =>
    have hnone : (s.arr.holds.filter fun h => !(l.any fun b => b * s.arrBanks == h.1)).find? (·.1 == a * s.arrBanks) = none := by
      rw [List.find?_eq_none]
      intro x hx hk
      have hx := (List.mem_filter.1 hx).2
      simp only [Bool.not_eq_true', List.any_eq_false] at hx
      exact hx a ha (by simpa using (beq_iff_eq.1 hk).symm)
    rw [hnone]; rfl
  · next ha =>
    refine congrArg (Option.map Prod.snd) (find?_filter_of_imp (l := s.arr.holds) fun x _ hk => ?_)
    simp only [Bool.not_eq_true', List.any_eq_false]
    intro b hb hbk
    rw [beq_iff_eq.1 hk] at hbk
    exact ha ((hkey b).1 (by simpa using hbk) ▸ hb)

theorem State.mem_dropped {s : State} {q : Nat} {c : Cue} {a : Nat} (h : a < s.arrCount) :
    a ∈ s.dropped q c ↔ c.adMask.testBit a = true ∧ (s.arr.split = false ∨ a / 2 = q) := by
  simp [State.dropped, h]

/-! ARR_CONFIG (R86, R87). -/

/-- The array complex in its new mode and partition, with no working weights. -/
def State.configured (s : State) (c : Cue) : State :=
  { s with arr := { s.arr with
    mode := c.acMode, split := c.acSplit, lineA := c.acLineA, lineB := c.acLineB
    working := [], fillAt := [], useAt := [], lastM := [] } }

section
variable {s : State} {q : Nat} {f : Flight} (hf : s.startable (q + 1) = some f) (hop : f.q.cue.opcode = 0x12)
include hf hop

theorem State.arrConfig_bad (h : configBad f.q.cue = true) : s.arrConfig q = s.engineHalt f.q.uid 1 .arrField := by
  unfold State.arrConfig
  rw [hf]
  exact (if_neg (by simp [hop])).trans (if_pos h)

theorem State.arrConfig_waits (h : configBad f.q.cue = false) (he : s.arrEmpty = false) : s.arrConfig q = s := by
  unfold State.arrConfig
  rw [hf]
  exact (if_neg (by simp [hop])).trans ((if_neg (by simp [h])).trans (if_pos he))

theorem State.arrConfig_sets (h : configBad f.q.cue = false) (he : s.arrEmpty = true) :
    s.arrConfig q = ((s.leavesDone f.q.uid).configured f.q.cue).sortArrQueues := by
  unfold State.arrConfig
  rw [hf]
  exact (if_neg (by simp [hop])).trans ((if_neg (by simp [h])).trans (if_neg (by simp [he])))

end

/-- Settles O30, by opcode. -/
theorem arrayControl : Obligations.ArrayControl := by
  intro s q f hf
  refine ⟨fun hop => Ends.of rfl (State.arrDropHold_eq hf hop) ⟨fun a ha => ?_, ?_, ?_⟩,
    fun hop hbad => Ends.of rfl (State.arrConfig_bad hf hop hbad) ⟨?_, ?_⟩,
    fun hop hok hbusy => Ends.of rfl (State.arrConfig_waits hf hop hok hbusy) rfl,
    fun hop hok hempty => Ends.of rfl (State.arrConfig_sets hf hop hok hempty) ?_⟩
  · have hhold : ((s.withoutHolds (s.dropped q f.q.cue)).leavesDone f.q.uid).holdOf a =
        (s.withoutHolds (s.dropped q f.q.cue)).holdOf a := State.holdOf_congr rfl rfl rfl a
    rw [hhold, State.holdOf_withoutHolds]
    simp only [State.mem_dropped ha]
  · exact State.doneWith_leavesDone _ f
  · exact (KeptBut.leavesDone _ _).step (by decide) (KeptBut.upd (KeptBut.refl _ s))
  · exact State.haltsOn_engineHalt (State.flight_of_startable hf) rfl rfl (by decide) _
  · exact (kept_engineHalt _ _ _ _).but.same .arr (by decide)
  · have hsort := (kept_sortArrQueues ((s.leavesDone f.q.uid).configured f.q.cue)).but
    have harr : (((s.leavesDone f.q.uid).configured f.q.cue).sortArrQueues).arr = ((s.leavesDone f.q.uid).configured f.q.cue).arr :=
      hsort.same .arr (by decide)
    refine ⟨congrArg Arr.mode harr, congrArg Arr.split harr, congrArg Arr.lineA harr, congrArg Arr.lineB harr,
      congrArg Arr.working harr, (congrArg Arr.awake harr).trans rfl, fun y hy => ?_, ?_⟩
    · exact (State.doneWith_leavesDone s f).1 y hy
    · exact hsort.step (by decide) (((KeptBut.leavesDone s f.q.uid).mono (by decide)).trans (KeptBut.upd (KeptBut.refl _ _)))

/-! Weight preload (R62, R65). -/

/-- The half of queue `q` that is used next gives its tile up. -/
def State.halfTaken (s : State) (q : Nat) : State :=
  let use := NMap.get 0 s.arr.useAt q
  { (s.setHalf (halfIdx q use) .empty) with
    arr := { (s.setHalf (halfIdx q use) .empty).arr with useAt := NMap.set 0 s.arr.useAt q (1 - use) } }

/-- Elements of a tile that parity makes wrong (R62). -/
def spoiltElems (t : WTile) (par : List Nat) : List Nat :=
  (par.map (elemsOfByte ((Fmt.ofCode t.fmt).getD .i8) t.codes.length)).flatten

/-- A shadow set of queue `q` takes a tile. -/
def State.shadowed (s : State) (q key : Nat) (t : WTile) (par : List Nat) : State :=
  s.setShadows q (NMap.put (s.shadows q) key ⟨{ t with poison := t.poison ++ spoiltElems t par }, !s.workParity key⟩)

section
variable {s : State} {h q : Nat} (hrun : s.enginesRun = true) (hq : q = if s.arr.split then h else 0)
  (huse : s.arr.split = true ∨ NMap.get 0 s.arr.useAt 0 = h)
include hrun hq huse

theorem State.weightPreload_eq (par : List Nat) : s.weightPreload h par = match s.preloadKey q, s.popHalf q with
    | some k, some (t, s) =>
      let s' := s.shadowed q k t par
      if (spoiltElems t par).isEmpty then s' else s'.parityFault q
    | _, _ => s := by
  have hgo : ¬(s.enginesRun = false ∨ (s.arr.split = false ∧ NMap.get 0 s.arr.useAt q ≠ h)) := by
    rintro (hno | ⟨hsplit, hne⟩)
    · simp [hrun] at hno
    · rcases huse with hu | hu
      · simp [hsplit] at hu
      · rw [hq, hsplit] at hne
        exact hne hu
  unfold State.weightPreload
  rw [← hq]
  exact if_neg hgo

theorem State.weightPreload_waits (hno : s.preloadKey q = none ∨ ∀ t, s.half (halfIdx q (NMap.get 0 s.arr.useAt q)) ≠ .ready t)
    (par : List Nat) : s.weightPreload h par = s := by
  rw [State.weightPreload_eq hrun hq huse]
  rcases hno with hno | hno
  · rw [hno]
  · have hpop : s.popHalf q = none := by
      unfold State.popHalf
      dsimp only
      split
      · next t ht => exact absurd ht (hno t)
      · rfl
    rw [hpop]
    split
    · next hk => exact nomatch hk
    · rfl

theorem State.weightPreload_takes {key : Nat} {t : WTile} (hkey : s.preloadKey q = some key)
    (hready : s.half (halfIdx q (NMap.get 0 s.arr.useAt q)) = .ready t) (par : List Nat) : s.weightPreload h par =
      if (spoiltElems t par).isEmpty then (s.halfTaken q).shadowed q key t par
      else ((s.halfTaken q).shadowed q key t par).parityFault q := by
  have hpop : s.popHalf q = some (t, s.halfTaken q) := by
    unfold State.popHalf
    dsimp only
    rw [hready]
    rfl
  rw [State.weightPreload_eq hrun hq huse, hkey, hpop]

end

theorem NMap.mem_put_self {α : Type} (m : NMap α) (k : Nat) (v : α) : (k, v) ∈ NMap.put m k v := by
  have := List.mem_of_find?_eq_some (NMap.find?_put_self m k v)
  exact this

/-- A shadow set with the tile, and what the preload leaves. -/
theorem State.shadowed_spec (s : State) (q key : Nat) (t : WTile) (par : List Nat) {u : State}
    (hu : u.arr = ((s.halfTaken q).shadowed q key t par).arr) :
    (key, Shadow.mk { t with poison := t.poison ++ spoiltElems t par } (!s.workParity key)) ∈ u.shadows q ∧
      u.half (halfIdx q (NMap.get 0 s.arr.useAt q)) = .empty ∧ NMap.get 0 u.arr.useAt q = 1 - NMap.get 0 s.arr.useAt q ∧
      u.arr.working = s.arr.working := by
  have hshadows : u.shadows q = NMap.put (s.shadows q) key
      ⟨{ t with poison := t.poison ++ spoiltElems t par }, !s.workParity key⟩ := by
    unfold State.shadows
    rw [hu]
    exact NMap.get_set_self _ _ _ _
  refine ⟨hshadows ▸ NMap.mem_put_self _ _ _, ?_, ?_, by rw [hu]; rfl⟩
  · unfold State.half
    rw [hu]
    show NMap.get _ (NMap.set WHalf.empty s.arr.halves _ .empty) _ = _
    exact NMap.get_set_self _ _ _ _
  · rw [hu]
    exact NMap.get_set_self _ _ _ _

theorem KeptBut.shadowed (s : State) (q key : Nat) (t : WTile) (par : List Nat) :
    KeptBut [.arr] s ((s.halfTaken q).shadowed q key t par) :=
  KeptBut.upd (KeptBut.upd (KeptBut.upd (KeptBut.refl _ s)))

theorem preload_claim {s : State} {q : Fin 2} (hrun : s.enginesRun = true) (par : List Nat)
    (huse : s.arr.split = true ∨ NMap.get 0 s.arr.useAt 0 = q.val) :
    let k := if s.arr.split then q.val else 0
    let use := NMap.get 0 s.arr.useAt k
    (∀ key t, s.preloadKey k = some key → s.half (halfIdx k use) = .ready t → Ends (.weightPreload q par) s fun u =>
      (key, Shadow.mk { t with poison := t.poison ++
        (par.map (elemsOfByte ((Fmt.ofCode t.fmt).getD .i8) t.codes.length)).flatten } (!s.workParity key)) ∈ u.shadows k ∧
      u.half (halfIdx k use) = .empty ∧ NMap.get 0 u.arr.useAt k = 1 - use ∧ u.arr.working = s.arr.working ∧
      KeptBut [.arr, .trig, .fltR] s u ∧ (par = [] → KeptBut [.arr] s u)) ∧
    (s.preloadKey k = none ∨ (∀ t, s.half (halfIdx k use) ≠ .ready t) → Ends (.weightPreload q par) s fun u => u = s) := by
  intro k use
  refine ⟨fun key t hkey hready => Ends.of rfl (State.weightPreload_takes hrun rfl huse hkey hready par) ?_,
    fun hno => Ends.of rfl (State.weightPreload_waits hrun rfl huse hno par) rfl⟩
  have hkept := KeptBut.shadowed s k key t par
  split
  · obtain ⟨hin, hhalf, hat, hwork⟩ := State.shadowed_spec s k key t par rfl
    exact ⟨hin, hhalf, hat, hwork, hkept.mono (by decide), fun _ => hkept⟩
  · next hbad =>
    have hfault := (kept_parityFault ((s.halfTaken k).shadowed k key t par) k).but
    obtain ⟨hin, hhalf, hat, hwork⟩ := State.shadowed_spec s k key t par (hfault.same .arr (by decide))
    exact ⟨hin, hhalf, hat, hwork, hfault.step (by decide) (hkept.mono (by decide)),
      fun hpar => absurd (by rw [hpar]; rfl) hbad⟩

/-! Tile drain (R125, R133). -/

theorem findIdx?_append {α : Type} {p : α → Bool} {pre post : List α} {x : α} (hpre : ∀ d ∈ pre, p d = false) (hx : p x = true) :
    findIdx? p (pre ++ x :: post) = some pre.length := by
  induction pre with
  | nil => simp [findIdx?, hx]
  | cons y pre ih => simp [findIdx?, hpre y (by simp), ih fun d hd => hpre d (List.mem_cons_of_mem _ hd)]

theorem findIdx?_eq_none {α : Type} {p : α → Bool} {l : List α} (h : ∀ d ∈ l, p d = false) : findIdx? p l = none := by
  induction l with
  | nil => rfl
  | cons y l ih => simp [findIdx?, h y (by simp), ih fun d hd => h d (List.mem_cons_of_mem _ hd)]

theorem listDrop1_append {α : Type} (pre post : List α) (x : α) : listDrop1 (pre ++ x :: post) pre.length = pre ++ post := by
  simp [listDrop1]

theorem listGet_append {α : Type} (d : α) (pre post : List α) (x : α) : listGet d (pre ++ x :: post) pre.length = x := by
  simp [listGet]

/-- A tile in its slot, with what it counts. -/
def State.slotted (s : State) (pre post : List (Nat × TqTile)) (t : TqTile) (slot : Nat) (par : List (Nat × Nat)) : State :=
  State.count { s with arr := { s.arr with drain := pre ++ post, tq := s.arr.tq ++ [(slot, t.spoil par)] } } R.arrNanCount
    ((t.spoil par).nans - t.nans)

theorem State.drainTile_takes {s : State} {q : Nat} (hrun : s.enginesRun = true) {pre post : List (Nat × TqTile)} {t : TqTile}
    {slot : Nat} {more : List Nat} (hdrain : s.arr.drain = pre ++ (q, t) :: post) (hpre : ∀ d ∈ pre, d.1 ≠ q)
    (hfree : s.freeSlots q = slot :: more) (par : List (Nat × Nat)) : s.drainTile q par =
      (if par.isEmpty then s.slotted pre post t slot par else (s.slotted pre post t slot par).parityFault q).drained := by
  have hidx : findIdx? (fun d : Nat × TqTile => d.1 == q) s.arr.drain = some pre.length := by
    rw [hdrain]
    exact findIdx?_append (fun d hd => by simpa using hpre d hd) (by simp)
  unfold State.drainTile
  rw [if_neg (by simp [hrun]), hidx, hfree]
  dsimp only
  rw [hdrain, listDrop1_append, listGet_append]
  rfl

theorem State.drainTile_waits {s : State} {q : Nat} (h : (∀ d ∈ s.arr.drain, d.1 ≠ q) ∨ s.freeSlots q = [])
    (par : List (Nat × Nat)) : s.drainTile q par = s := by
  unfold State.drainTile
  split
  · rfl
  · rcases h with h | h
    · rw [findIdx?_eq_none fun d hd => by simpa using h d hd]
    · rw [h]
      split
      · next hk => exact nomatch hk
      · rfl

/-- Fills that stay in flight behind the drains hold slots or have a tile left. -/
theorem State.inFlight_drained (s : State) : ∀ x ∈ s.drained.arr.inFlight,
    x.holds = true ∨ ∃ d ∈ s.arr.drain, d.2.uid = x.uid := by
  intro x hx
  have harr : s.drained.arr.inFlight = s.arr.inFlight.filter fun f => f.holds || s.arr.drain.any fun d => d.2.uid == f.uid := by
    have hfold : ∀ (l : List Fill) (t : State), (l.foldl (fun s f => s.finishFlight f.uid) t).arr = t.arr := by
      intro l
      induction l with
      | nil => exact fun _ => rfl
      | cons f l ih => exact fun t => ih _
    exact congrArg Arr.inFlight (hfold _ _)
  rw [harr] at hx
  simpa using (List.mem_filter.1 hx).2

theorem State.arr_drained (s : State) : s.drained.arr = { s.arr with inFlight := s.drained.arr.inFlight } := by
  have hfold : ∀ (l : List Fill) (t : State), (l.foldl (fun s f => s.finishFlight f.uid) t).arr = t.arr := by
    intro l
    induction l with
    | nil => exact fun _ => rfl
    | cons f l ih => exact fun t => ih _
  unfold State.drained
  rw [hfold]

theorem State.freeSlots_head {s : State} {q slot : Nat} {more : List Nat} (h : s.freeSlots q = slot :: more) :
    slot ∈ s.poolSlots q ∧ ∀ x ∈ s.arr.tq, x.1 ≠ slot := by
  have hmem : slot ∈ s.freeSlots q := h ▸ List.mem_cons_self
  obtain ⟨hpool, hfree⟩ := List.mem_filter.1 hmem
  exact ⟨hpool, by simpa using hfree⟩

theorem drain_claim {s : State} {q : Fin 2} (hrun : s.enginesRun = true) (pre post : List (Nat × TqTile)) (t : TqTile)
    (slot : Nat) (more : List Nat) (par : List (Nat × Nat)) (hdrain : s.arr.drain = pre ++ (q.val, t) :: post)
    (hpre : ∀ d ∈ pre, d.1 ≠ q.val) (hfree : s.freeSlots q.val = slot :: more) : Ends (.drainTile q par) s fun u =>
      u.arr.tq = s.arr.tq ++ [(slot, t.spoil par)] ∧ u.arr.drain = pre ++ post ∧
      slot ∈ s.poolSlots q.val ∧ (∀ x ∈ s.arr.tq, x.1 ≠ slot) ∧
      ((∀ d ∈ pre ++ post, d.2.uid ≠ t.uid) → ∀ x ∈ u.arr.inFlight, x.uid = t.uid → x.holds = true) ∧
      KeptBut [.flights, .arr, .trig, .arrR, .fltR] s u ∧ (par = [] → KeptBut [.flights, .arr, .arrR] s u) := by
  refine Ends.of rfl (State.drainTile_takes hrun hdrain hpre hfree par) ?_
  obtain ⟨hpool, hno⟩ := State.freeSlots_head hfree
  have hslot : KeptBut [.arr, .arrR] s (s.slotted pre post t slot par) :=
    (keptBut_setReg _ R.arrNanCount _).step (by decide) (KeptBut.upd (KeptBut.refl _ s))
  have hend (v : State) (harr : v.arr = (s.slotted pre post t slot par).arr) :
      v.drained.arr.tq = s.arr.tq ++ [(slot, t.spoil par)] ∧ v.drained.arr.drain = pre ++ post ∧
        ((∀ d ∈ pre ++ post, d.2.uid ≠ t.uid) → ∀ x ∈ v.drained.arr.inFlight, x.uid = t.uid → x.holds = true) := by
    refine ⟨?_, ?_, fun hnone x hx huid => ?_⟩
    · rw [State.arr_drained, harr]; rfl
    · rw [State.arr_drained, harr]; rfl
    · rcases State.inFlight_drained v x hx with h | ⟨d, hd, he⟩
      · exact h
      · rw [harr] at hd
        exact absurd (he.trans huid) (hnone d hd)
  split
  · obtain ⟨htq, hd, hin⟩ := hend _ rfl
    have hk : KeptBut [.flights, .arr, .arrR] s (s.slotted pre post t slot par).drained :=
      (kept_drained _).but.step (by decide) (hslot.mono (by decide))
    exact ⟨htq, hd, hpool, hno, hin, hk.mono (by decide), fun _ => hk⟩
  · next hne =>
    have hfault := (kept_parityFault (s.slotted pre post t slot par) q.val).but
    obtain ⟨htq, hd, hin⟩ := hend _ (hfault.same .arr (by decide))
    exact ⟨htq, hd, hpool, hno, hin, (kept_drained _).but.step (by decide) (hfault.step (by decide) (hslot.mono (by decide))),
      fun hnil => absurd (by rw [hnil]; rfl) hne⟩

/-! Banks that fall asleep (R72, R509). -/

theorem State.bankSleep_stays {s : State} {bank : Nat} (h : bank ∉ s.arr.awake ∨ ∃ x ∈ s.arr.inFlight, bank ∈ x.banks) :
    s.bankSleep bank = s := by
  refine if_pos ?_
  rcases h with h | ⟨x, hx, hb⟩
  · exact .inl (by simpa using h)
  · exact .inr (.inl (List.any_eq_true.2 ⟨x, hx, by simpa using hb⟩))

theorem State.bankSleep_sleeps {s : State} {bank : Nat} (hawake : bank ∈ s.arr.awake) (hfree : ∀ x ∈ s.arr.inFlight, bank ∉ x.banks)
    (hramp : s.regF R.pwrRamp 0 6 = 0 ∨ s.arr.slept < s.regF R.pwrRamp 0 6) : s.bankSleep bank =
      { s with arr := { s.arr with awake := s.arr.awake.filter (· != bank), slept := s.arr.slept + 1 } } := by
  refine if_neg ?_
  rintro (h | h | ⟨hne, hle⟩)
  · simp [hawake] at h
  · obtain ⟨x, hx, hb⟩ := List.any_eq_true.1 h
    exact hfree x hx (by simpa using hb)
  · omega

/-- Settles O31: preload, drain and sleep, each by whether it can act. -/
theorem arrayMoves : Obligations.ArrayMoves := by
  intro s q hrun
  refine ⟨fun par huse => preload_claim hrun par huse, drain_claim hrun,
    fun h par => Ends.of rfl (State.drainTile_waits h par) rfl,
    fun bank hawake hfree hramp => Ends.of rfl (State.bankSleep_sleeps hawake hfree hramp)
      ⟨fun b => by simp, rfl, KeptBut.upd (KeptBut.refl _ s)⟩,
    fun bank h => Ends.of rfl (State.bankSleep_stays h) rfl⟩

end Sys2Proof.Machine
end

section
/-! SUPPORT. Rows taken one after another; a unit's run, how it closes; CHO_RUN. -/

namespace Sys2Proof.Machine

/-! Rows, one after another. -/

/-- A loop over rows takes rows until it has taken its number of them or none is left. -/
theorem rows_iterWhile (row : State → Option State) : ∀ (k : Nat) (s : State),
    ∃ n, Rows row n s (iterWhile k row s) ∧ (n = k ∨ row (iterWhile k row s) = none)
  | 0, s => ⟨0, rfl, Or.inl rfl⟩
  | k + 1, s => by
    unfold iterWhile
    cases h : row s with
    | none => exact ⟨0, rfl, Or.inr h⟩
    | some t =>
      obtain ⟨n, hn, hend⟩ := rows_iterWhile row k t
      exact ⟨n + 1, ⟨t, h, hn⟩, hend.imp (congrArg (· + 1)) id⟩

/-- The loop ends where no row is left. -/
theorem iterWhile_of_rows {row : State → Option State} {n k : Nat} {s t : State} (h : Rows row n s t) (hk : n ≤ k)
    (hend : row t = none) : iterWhile k row s = t := by
  induction n generalizing k s with
  | zero =>
    have h : t = s := h
    subst h
    cases k with
    | zero => rfl
    | succ k => unfold iterWhile; rw [hend]
  | succ n ih =>
    obtain ⟨u, hu, hrows⟩ := h
    cases k with
    | zero => omega
    | succ k =>
      unfold iterWhile
      rw [hu]
      exact ih hrows (by omega)

/-- What each row keeps as long as its cue is in flight, all rows keep: a cue that has gone takes no row. -/
theorem KeptBut.rows {row : State → Option State} {uid : Nat} {m : List Field}
    (hrow : ∀ s t, row s = some t → t.flight uid = none ∨ KeptBut m s t) (hgone : ∀ s, s.flight uid = none → row s = none) :
    ∀ {n : Nat} {s t : State}, Rows row n s t → t.flight uid ≠ none → KeptBut m s t
  | 0, s, t, h, _ => h ▸ KeptBut.refl m s
  | n + 1, s, t, h, hin => by
    obtain ⟨u, hu, hrows⟩ := h
    rcases hrow s u hu with hnone | hkept
    · cases n with
      | zero => exact absurd (hrows ▸ hnone) hin
      | succ n =>
        obtain ⟨v, hv, -⟩ := hrows
        exact nomatch (hgone u hnone).symm.trans hv
    · exact hkept.trans (KeptBut.rows hrow hgone hrows hin)

/-! Units and their runs. -/

@[simp] theorem State.unit_updUnit (s : State) (u v : Nat) (f : ChoUnit → ChoUnit) :
    (s.updUnit u f).unit v = if v = u then f (s.unit u) else s.unit v := NMap.get_set _ _ _ _ _

theorem State.unit_congr {s t : State} (h : t.cho = s.cho) (u : Nat) : t.unit u = s.unit u := by
  unfold State.unit; rw [h]

theorem State.runOf_congr {s t : State} (h : t.cho = s.cho) (u uid : Nat) : t.runOf u uid = s.runOf u uid := by
  unfold State.runOf; rw [State.unit_congr h]

theorem State.gangRun_congr {s t : State} (h : t.gangs = s.gangs) (uid : Nat) : t.gangRun uid = s.gangRun uid := by
  unfold State.gangRun; rw [h]

theorem State.flight_of_unitHead {s : State} {u : Nat} {f : Flight} (h : s.unitHead u = some f) : s.flight f.q.uid = some f :=
  State.flight_of_head (Option.filter_eq_some_iff.1 h).1

theorem State.uid_of_flight {s : State} {uid : Nat} {f : Flight} (h : s.flight uid = some f) : f.q.uid = uid := by
  simpa using List.find?_some h

theorem State.flight_congr {s t : State} (h : t.flights = s.flights) (uid : Nat) : t.flight uid = s.flight uid := by
  unfold State.flight; rw [h]

theorem State.queue_congr {s t : State} (h : t.queues = s.queues) (e : Nat) : t.queue e = s.queue e := by
  unfold State.queue; rw [h]

/-- What tells whether a unit has taken its rows stays while its gang, its tiles and its place do. -/
theorem State.rowsDone_congr {s t : State} (hgangs : t.gangs = s.gangs) (harr : t.arr = s.arr) {q r : URun} (hj : q.j = r.j)
    (hq : q.q = r.q) (u : Nat) (f : Flight) : t.rowsDone u f q = s.rowsDone u f r := by
  unfold State.rowsDone State.tilesDone
  rw [State.gangRun_congr hgangs, harr, hj, hq]

/-- A halt on a cue takes it out of flight. -/
theorem State.flight_engineHalt (s : State) (uid engine : Nat) (code : Code) : (s.engineHalt uid engine code).flight uid = none := by
  unfold State.engineHalt
  split
  · assumption
  · rw [State.flight_congr ((kept_halt ..).but.same .flights (by decide))]
    refine List.find?_eq_none.2 fun x hx => ?_
    simpa using (List.mem_filter.1 hx).2

theorem State.flight_killRun (s : State) (uid engine : Nat) (code : Code) : (s.killRun uid engine code).flight uid = none :=
  State.flight_engineHalt _ _ _ _

/-! A unit draws what is there, and its place in the run stays. -/

/-- A unit's run is where it was, with other elements kept aside. -/
def State.runDrawn (u : Nat) (s t : State) : Prop :=
  KeptBut [.cho] s t ∧ ∃ kept : URun → NMap (List PElem), (t.unit u).run = (s.unit u).run.map fun r => { r with kept := kept r }

theorem State.runDrawn.refl (u : Nat) (s : State) : State.runDrawn u s s :=
  ⟨KeptBut.refl _ s, URun.kept, by cases (s.unit u).run <;> rfl⟩

theorem State.runDrawn.trans {u : Nat} {s t v : State} (h : State.runDrawn u s t) (k : State.runDrawn u t v) : State.runDrawn u s v := by
  obtain ⟨hk, a, ha⟩ := h
  obtain ⟨kk, b, hb⟩ := k
  refine ⟨hk.trans kk, fun r => b { r with kept := a r }, ?_⟩
  rw [hb, ha, Option.map_map]
  rfl

theorem State.runDrawn_upd (s : State) (u : Nat) (l : List PElem) (p : Nat) {run : URun} (h : (s.unit u).run = some run)
    (kept : NMap (List PElem)) :
    State.runDrawn u s (s.updUnit u fun x => { (x.setElems p l) with run := some { run with kept := kept } }) :=
  ⟨(kept_updUnit ..).but, fun _ => kept, by rw [State.unit_updUnit, if_pos rfl, h]; rfl⟩

theorem State.runDrawn_foldl {α : Type} {u : Nat} {f : State → α → State} (hf : ∀ s a, State.runDrawn u s (f s a)) :
    ∀ (l : List α) (s : State), State.runDrawn u s (l.foldl f s)
  | [], s => State.runDrawn.refl u s
  | a :: l, s => (hf s a).trans (State.runDrawn_foldl hf l (f s a))

theorem State.runDrawn_drawRow (s : State) (u : Nat) (f : Flight) : State.runDrawn u s (s.drawRow u f) := by
  refine State.runDrawn_foldl (fun s x => ?_) _ s
  obtain ⟨d, i⟩ := x
  dsimp only
  cases hrun : (s.unit u).run with
  | none => exact State.runDrawn.refl u s
  | some run =>
    dsimp only
    split
    · exact State.runDrawn.refl u s
    · exact State.runDrawn_upd s u _ _ hrun _

theorem State.runDrawn_drawRows (s : State) (u uid : Nat) : State.runDrawn u s (s.drawRows u uid) := by
  unfold State.drawRows
  split
  · split
    · exact State.runDrawn.refl u s
    · exact State.runDrawn_drawRow s u _
  · exact State.runDrawn.refl u s

/-- The run of a unit that has drawn what is there, and its cue, are as before; the rows it has taken too. -/
theorem State.rowsDone_drawRows {s : State} {u uid : Nat} {r : URun} (hr : s.runOf u uid = some r) :
    ∃ r', (s.drawRows u uid).runOf u uid = some r' ∧ ∀ f, (s.drawRows u uid).rowsDone u f r' = s.rowsDone u f r := by
  obtain ⟨hkept, kept, hrun⟩ := State.runDrawn_drawRows s u uid
  obtain ⟨hsome, huid⟩ := Option.filter_eq_some_iff.1 hr
  refine ⟨{ r with kept := kept r }, ?_, fun f => State.rowsDone_congr (hkept.same .gangs (by decide))
    (hkept.same .arr (by decide)) rfl rfl u f⟩
  unfold State.runOf
  rw [hrun, hsome]
  exact Option.filter_eq_some_iff.2 ⟨rfl, huid⟩

theorem State.drawRows_of_done {s : State} {u uid : Nat} {f : Flight} {r : URun} (hf : s.flight uid = some f)
    (hr : s.runOf u uid = some r) (hdone : s.rowsDone u f r = true) : s.drawRows u uid = s := by
  unfold State.drawRows
  rw [hf, hr]
  exact if_pos hdone

/-! A unit closes its share of a cue. -/

theorem State.run_closeRun (s : State) (u uid : Nat) : ((s.closeRun u uid).unit u).run = none := by
  have hcho : (s.closeRun u uid).cho = (s.updUnit u fun x => { x with run := none, store := [] }).cho := by
    unfold State.closeRun
    dsimp only
    split
    · split <;> rfl
    · rfl
  rw [State.unit_congr hcho, State.unit_updUnit, if_pos rfl]

theorem State.queues_closeRun (s : State) (u uid : Nat) : (s.closeRun u uid).queues = (s.unqueueAt (8 + u) uid).queues := by
  unfold State.closeRun
  dsimp only
  split
  · split <;> rfl
  · rfl

theorem State.queue_unqueueAt (s : State) (e uid k : Nat) :
    (s.unqueueAt e uid).queue k = if k = e then (s.queue e).filter (· != uid) else s.queue k := State.queue_setQueue _ _ _ _

theorem State.not_mem_queue_unqueueAt (s : State) (e uid : Nat) : uid ∉ (s.unqueueAt e uid).queue e := by
  rw [State.queue_unqueueAt, if_pos rfl]
  simp

theorem State.queue_closeRun (s : State) (u uid e : Nat) : (s.closeRun u uid).queue e = (s.unqueueAt (8 + u) uid).queue e :=
  State.queue_congr (State.queues_closeRun s u uid) e

theorem State.flights_closeRun (s : State) (u uid : Nat) : (s.closeRun u uid).flights = (s.unitDone uid).flights := by
  unfold State.closeRun
  dsimp only
  split
  · split <;> rfl
  · rfl

theorem find?_updFlight {s : State} {uid k : Nat} {g : Flight → Flight} (hg : ∀ f, (g f).q = f.q) :
    (s.updFlight uid g).flight k = if k = uid then (s.flight k).map g else s.flight k := by
  have hmap : ∀ l : List Flight, (l.map fun x => if x.q.uid = uid then g x else x).find? (·.q.uid == k) =
      if k = uid then (l.find? (·.q.uid == k)).map g else l.find? (·.q.uid == k) := by
    intro l
    induction l with
    | nil => simp
    | cons x l ih =>
      simp only [List.map_cons, List.find?_cons]
      by_cases hx : x.q.uid = uid
      · rw [if_pos hx, hg x]
        by_cases hk : x.q.uid = k
        · rw [beq_iff_eq.2 hk, if_pos (hk.symm.trans hx)]; rfl
        · rw [beq_eq_false_iff_ne.2 hk]; exact ih
      · rw [if_neg hx]
        by_cases hk : x.q.uid = k
        · rw [beq_iff_eq.2 hk, if_neg fun h => hx (hk.trans h)]
        · rw [beq_eq_false_iff_ne.2 hk]; exact ih
  exact hmap s.flights

/-- The last unit of a cue finishes it. -/
theorem State.stage_unitDone {s : State} {uid : Nat} {y z : Flight} (hy : s.flight uid = some y) (hunits : y.units ≤ 1)
    (hz : (s.unitDone uid).flight uid = some z) : z.stage = .finished := by
  rw [State.unitDone, find?_updFlight (fun f => by split <;> rfl), if_pos rfl, hy, Option.map_some, Option.some.injEq,
    if_pos hunits] at hz
  rw [← hz]

theorem State.flight_unitDone_ne (s : State) {uid k : Nat} (h : k ≠ uid) : (s.unitDone uid).flight k = s.flight k := by
  rw [State.unitDone, find?_updFlight (fun f => by split <;> rfl), if_neg h]

/-- What a unit leaves behind its share. -/
theorem State.closeRun_spec (s : State) (u uid : Nat) {t : State} (ht : t = s.closeRun u uid) :
    (t.unit u).run = none ∧ uid ∉ t.queue (8 + u) ∧ (∀ e, e ≠ 8 + u → t.queue e = s.queue e) ∧
      (∀ y, s.flight uid = some y → y.units ≤ 1 → ∀ z, t.flight uid = some z → z.stage = .finished) := by
  subst ht
  refine ⟨State.run_closeRun s u uid, ?_, fun e he => ?_, fun y hy hunits z hz => ?_⟩
  · rw [State.queue_closeRun]; exact State.not_mem_queue_unqueueAt s _ uid
  · rw [State.queue_closeRun, State.queue_unqueueAt, if_neg he]
  · rw [State.flight_congr (State.flights_closeRun s u uid)] at hz
    exact State.stage_unitDone hy hunits hz

/-! One row of a run. -/

theorem State.runRow_of_gone {s : State} {u uid : Nat} (h : s.flight uid = none) : s.runRow u uid = none := by
  unfold State.runRow
  rw [h]

theorem State.runRow_of_done {s : State} {u uid : Nat} {f : Flight} {r : URun} (hf : s.flight uid = some f)
    (hr : s.runOf u uid = some r) (hdone : s.rowsDone u f r = true) : s.runRow u uid = none := by
  unfold State.runRow
  rw [hf, hr]
  exact if_pos hdone

theorem State.runRow_cases {s t : State} {u uid : Nat} (h : s.runRow u uid = some t) :
    t.flight uid = none ∨ KeptBut [.arr, .cho, .lanes, .freeCtr, .choR] s t := by
  unfold State.runRow at h
  split at h
  · split at h
    · exact nomatch h
    · split at h
      · exact nomatch h
      · exact Or.inl (Option.some.inj h ▸ State.flight_killRun ..)
      · refine Or.inr (Option.some.inj h ▸ ?_)
        exact (kept_rowCounted ..).but.step (by decide) ((kept_putRun ..).but.step (by decide)
          ((kept_keepTrips ..).but.step (by decide) ((kept_rowUsed ..).but.mono (by decide))))
  · exact nomatch h

/-! The gang of a cue opens. -/

/-- A cue's gang may go on: it has begun, or its first unit finds no fault. -/
def State.gangReady (s : State) (u : Nat) (f : Flight) (checks : List Code) : Prop :=
  s.gangRun f.q.uid ≠ none ∨ (u = f.q.cue.firstUnit ∧ leastCode checks = none)

theorem State.openGang_fails {s : State} {u : Nat} {f : Flight} {checks : List Code} {code : Code}
    (hgang : s.gangRun f.q.uid = none) (hu : u = f.q.cue.firstUnit) (hcode : leastCode checks = some code) :
    s.openGang u f checks = some (s.engineHalt f.q.uid (8 + u) code) := by
  unfold State.openGang
  rw [hgang]
  dsimp only
  rw [if_neg (not_not.2 hu), hcode]

theorem State.openGang_waits {s : State} {u : Nat} {f : Flight} (checks : List Code) (hgang : s.gangRun f.q.uid = none)
    (hu : u ≠ f.q.cue.firstUnit) : s.openGang u f checks = none := by
  unfold State.openGang
  rw [hgang]
  exact if_pos hu

theorem KeptBut.openGang {s s0 : State} {u : Nat} {f : Flight} {checks : List Code} (hready : s.gangReady u f checks)
    (h : s.openGang u f checks = some s0) : KeptBut [.flights, .cho, .gangs] s s0 := by
  unfold State.openGang at h
  split at h
  · exact Option.some.inj h ▸ (kept_openRun ..).but.mono (by decide)
  · next hgang =>
    obtain ⟨hu, hcode⟩ := hready.resolve_left (not_not.2 hgang)
    rw [if_neg (not_not.2 hu), hcode] at h
    exact Option.some.inj h ▸ (kept_openRun ..).but.step (by decide) ((kept_startFlight ..).but.step (by decide)
      ((kept_setGang ..).but.mono (by decide)))

/-- A halted head goes no further in its unit's turn. -/
theorem State.haltsOn_unit {s : State} {u : Fin 8} {f : Flight} (hf : s.unitHead u.val = some f) (code : Code) :
    s.haltsOn f (8 + u.val) code (s.engineHalt f.q.uid (8 + u.val) code) :=
  State.haltsOn_engineHalt (State.flight_of_unitHead hf) rfl rfl (by omega) code

/-! CHO_RUN (R101, R547). -/

section
variable {s : State} {u : Nat} {f : Flight} (hf : s.unitHead u = some f) (hop : f.opcode = 0x20) (hred : feedsRed f.q.cue = false)
include hf hop hred

theorem State.choRun_eq : s.choRun u = match s.openGang u f (s.runChecks f.q.line f.q.cue) with
    | none => s
    | some s => ((iterWhile f.q.cue.rows (fun s => s.runRow u f.q.uid) s).drawRows u f.q.uid).closeIfDone u f.q.uid := by
  unfold State.choRun
  rw [hf]
  exact if_neg (by simp [hop, hred])

theorem State.choRun_goes {s0 : State} (h : s.openGang u f (s.runChecks f.q.line f.q.cue) = some s0) :
    s.choRun u = ((iterWhile f.q.cue.rows (fun s => s.runRow u f.q.uid) s0).drawRows u f.q.uid).closeIfDone u f.q.uid := by
  rw [State.choRun_eq hf hop hred, h]

theorem State.choRun_waits (h : s.openGang u f (s.runChecks f.q.line f.q.cue) = none) : s.choRun u = s := by
  rw [State.choRun_eq hf hop hred, h]

end

theorem State.drawRows_of_gone {s : State} {u uid : Nat} (h : s.flight uid = none) : s.drawRows u uid = s := by
  unfold State.drawRows
  rw [h]

theorem State.closeIfDone_of_gone {s : State} {u uid : Nat} (h : s.flight uid = none) : s.closeIfDone u uid = s := by
  unfold State.closeIfDone
  rw [h]

theorem State.closeIfDone_of_done {s : State} {u uid : Nat} {f : Flight} {r : URun} (hf : s.flight uid = some f)
    (hr : s.runOf u uid = some r) (hdone : s.rowsDone u f r = true) :
    s.closeIfDone u uid = (s.countMod (R.choURuns u) 1).closeRun u uid := by
  unfold State.closeIfDone
  rw [hf, hr]
  exact if_pos hdone

theorem State.closeIfDone_of_left {s : State} {u uid : Nat} {f : Flight} {r : URun} (hf : s.flight uid = some f)
    (hr : s.runOf u uid = some r) (hdone : s.rowsDone u f r = false) : s.closeIfDone u uid = s := by
  unfold State.closeIfDone
  rw [hf, hr]
  exact if_neg (by simp [hdone])

theorem iterWhile_of_none {row : State → Option State} {s : State} (h : row s = none) (k : Nat) : iterWhile k row s = s :=
  iterWhile_of_rows (n := 0) rfl (Nat.zero_le k) h

/-- Settles O33: the gang opens, the rows are taken one after another, and the unit closes its share. -/
theorem chorusRun : Obligations.ChorusRun := by
  intro s u f hf hop hred
  dsimp only
  refine ⟨fun code hgang hu hcode => ?_, fun hgang hu => ?_, fun s0 hready hopen => ?_, fun n s0 s1 y r hready hopen hn hrows hy hr hdone => ?_⟩
  · have hgone := State.flight_engineHalt s f.q.uid (8 + u.val) code
    refine Ends.of rfl ((State.choRun_goes hf hop hred (State.openGang_fails hgang hu hcode)).trans ?_) (State.haltsOn_unit hf code)
    rw [iterWhile_of_none (State.runRow_of_gone hgone), State.drawRows_of_gone hgone, State.closeIfDone_of_gone hgone]
  · exact Ends.of rfl (State.choRun_waits hf hop hred (State.openGang_waits _ hgang hu)) rfl
  · obtain ⟨n, hrows, hend⟩ := rows_iterWhile (fun x => x.runRow u.val f.q.uid) f.q.cue.rows s0
    refine Ends.of rfl (State.choRun_goes hf hop hred hopen) ⟨n, _, hrows, hend, rfl, fun y r hy hr hleft => ?_⟩
    obtain ⟨r', hr', hsame⟩ := State.rowsDone_drawRows hr
    have hdrawn := (kept_drawRows (iterWhile f.q.cue.rows (fun x => x.runRow u.val f.q.uid) s0) u.val f.q.uid).but
    rw [State.closeIfDone_of_left ((State.flight_congr (hdrawn.same .flights (by decide)) _).trans hy) hr' ((hsame y).trans hleft)]
    have hkept := KeptBut.rows (fun _ _ => State.runRow_cases) (fun _ => State.runRow_of_gone) hrows (by simp [hy])
    exact (hdrawn.same .queues (by decide)).trans ((hkept.same .queues (by decide)).trans
      ((KeptBut.openGang hready hopen).same .queues (by decide)))
  · have hrow := State.runRow_of_done hy hr hdone
    have hruns : s.choRun u.val = (s1.countMod (R.choURuns u.val) 1).closeRun u.val f.q.uid := by
      rw [State.choRun_goes hf hop hred hopen, iterWhile_of_rows hrows hn hrow, State.drawRows_of_done hy hr hdone,
        State.closeIfDone_of_done hy hr hdone]
    obtain ⟨hrun, hleft, hothers, hstage⟩ := State.closeRun_spec (s1.countMod (R.choURuns u.val) 1) u.val f.q.uid rfl
    have hclosed := (kept_closeRun (s1.countMod (R.choURuns u.val) 1) u.val f.q.uid).but
    have hkept := hruns ▸ (kept_choRun s u.val).but
    refine Ends.of rfl hruns ⟨?_, hrun, hleft, hothers, hstage y hy, hclosed.same .lanes (by decide),
      hkept.same .mem (by decide), hkept.same .board (by decide)⟩
    rw [hclosed.reg (by simp)]
    simp [State.countMod]

end Sys2Proof.Machine
end

section
/-! SUPPORT. The kernels, and the reduction and scan cues with the runs they claim. -/

namespace Sys2Proof.Machine

/-! The end of a unit's share (R161, R168). -/

/-- What a unit does behind its rows: it stays while rows are left; else it closes its share, behind its part of the columns
where the cue of opcode `col` sums them, and the first unit last of all. -/
def State.endShare (s : State) (u uid op col first : Nat) (close write : State → State) : State :=
  match s.flight uid, s.runOf u uid with
  | some f, some run =>
    if s.rowsDone u f run = false then s
    else if op ≠ col then close s
    else if u ≠ first then close (s.mergeCols u uid)
    else if (s.mergeCols u uid).lastUnit uid then close (write (s.mergeCols u uid))
    else s.mergeCols u uid
  | _, _ => s

section
variable {s : State} {u uid : Nat} {f : Flight} {run : URun} (hf : s.flight uid = some f) (hr : s.runOf u uid = some run)
  {op col first : Nat} (close write : State → State)
include hf hr

theorem State.endShare_left (h : s.rowsDone u f run = false) : s.endShare u uid op col first close write = s := by
  unfold State.endShare
  rw [hf, hr]
  exact if_pos h

theorem State.endShare_done (h : s.rowsDone u f run = true) (hop : op ≠ col) :
    s.endShare u uid op col first close write = close s := by
  unfold State.endShare
  rw [hf, hr]
  dsimp only
  rw [if_neg (by simp [h]), if_pos hop]

theorem State.endShare_others (h : s.rowsDone u f run = true) (hop : op = col) (hu : u ≠ first) :
    s.endShare u uid op col first close write = close (s.mergeCols u uid) := by
  unfold State.endShare
  rw [hf, hr]
  dsimp only
  rw [if_neg (by simp [h]), if_neg (not_not.2 hop), if_pos hu]

theorem State.endShare_last (h : s.rowsDone u f run = true) (hop : op = col) (hu : u = first) (hunits : f.units ≤ 1) :
    s.endShare u uid op col first close write = close (write (s.mergeCols u uid)) := by
  have hlast : (s.mergeCols u uid).lastUnit uid = true := by
    unfold State.lastUnit
    rw [State.flight_congr ((kept_mergeCols s u uid).but.same .flights (by decide)), hf]
    exact decide_eq_true hunits
  unfold State.endShare
  rw [hf, hr]
  dsimp only
  rw [if_neg (by simp [h]), if_neg (not_not.2 hop), if_neg (not_not.2 hu), if_pos hlast]

/-- A unit that has taken its rows, and does not wait for others, closes its share in a state that is as before but for the
columns and what they write. -/
theorem State.endShare_closes {m : List Field} (h : s.rowsDone u f run = true) (hunits : op = col → u = first → f.units ≤ 1)
    (hwrite : KeptBut m (s.mergeCols u uid) (write (s.mergeCols u uid))) (hm : [Field.cho, .gangs].all m.contains = true) :
    ∃ x, s.endShare u uid op col first close write = close x ∧ KeptBut m s x ∧ (x = s ∨ x = s.mergeCols u uid ∨
      x = write (s.mergeCols u uid)) := by
  have hmerged : KeptBut m s (s.mergeCols u uid) := (kept_mergeCols s u uid).but.mono hm
  by_cases hop : op = col
  · by_cases hu : u = first
    · exact ⟨_, State.endShare_last hf hr close write h hop hu (hunits hop hu), hmerged.trans hwrite, Or.inr (Or.inr rfl)⟩
    · exact ⟨_, State.endShare_others hf hr close write h hop hu, hmerged, Or.inr (Or.inl rfl)⟩
  · exact ⟨_, State.endShare_done hf hr close write h hop, KeptBut.refl m s, Or.inl rfl⟩

end

/-! Kernels (R168 to R171, R175). -/

section
variable {s : State} {u op : Nat} {f : Flight} (hf : s.unitHead u = some f)
include hf

theorem State.krnRun_idle (h : f.opcode ≠ op) : s.krnRun u op = s := by
  unfold State.krnRun
  rw [hf]
  exact if_pos h

theorem State.krnRun_goes (h : f.opcode = op) {s0 : State} (hopen : s.openGang u f (s.krnChecks f.q.line f.q.cue) = some s0) :
    s.krnRun u op = State.endShare ((iterWhile f.q.cue.rows (fun s => s.krnRow u f.q.uid) s0).drawRows u f.q.uid) u f.q.uid op 0x39
      f.q.cue.firstUnit (fun x => x.closeRun u f.q.uid)
      fun x => x.writeCols f.q.uid f.q.cue u 1 f.q.cue.kRawCol f.q.cue.rdRmode f.q.cue.kArg := by
  unfold State.krnRun State.endShare
  rw [hf]
  dsimp only
  rw [if_neg (not_not.2 h), hopen]
  dsimp only
  generalize State.drawRows (iterWhile f.q.cue.rows (fun s => s.krnRow u f.q.uid) s0) u f.q.uid = d
  cases hy : d.flight f.q.uid with
  | none => rfl
  | some y =>
    cases d.runOf u f.q.uid with
    | none => rfl
    | some run => dsimp only; rw [State.uid_of_flight hy]

end

theorem State.krnRow_of_gone {s : State} {u uid : Nat} (h : s.flight uid = none) : s.krnRow u uid = none := by
  unfold State.krnRow
  rw [h]

theorem State.krnRow_of_done {s : State} {u uid : Nat} {f : Flight} {r : URun} (hf : s.flight uid = some f)
    (hr : s.runOf u uid = some r) (hdone : s.rowsDone u f r = true) : s.krnRow u uid = none := by
  unfold State.krnRow
  rw [hf, hr]
  exact if_pos hdone

theorem State.endShare_of_gone {s : State} {u uid : Nat} (h : s.flight uid = none) (op col first : Nat)
    (close write : State → State) : s.endShare u uid op col first close write = s := by
  unfold State.endShare
  rw [h]

/-- One kernel of opcode `op`, carried out by `i`. -/
theorem kernel_claim {s : State} {u : Fin 8} {f : Flight} (hf : s.unitHead u.val = some f) {op : Nat} {i : Instr}
    (hexec : exec i s = (s.krnRun u.val op).done) :
    let checks := s.krnChecks f.q.line f.q.cue
    let ready := s.gangRun f.q.uid ≠ none ∨ (u.val = f.q.cue.firstUnit ∧ leastCode checks = none)
    (f.opcode ≠ op → Ends i s fun t => t = s) ∧
    (∀ code, f.opcode = op → s.gangRun f.q.uid = none → u.val = f.q.cue.firstUnit → leastCode checks = some code →
      Ends i s (s.haltsOn f (8 + u.val) code)) ∧
    (∀ s0, f.opcode = op → ready → s.openGang u.val f checks = some s0 → Ends i s fun t =>
      ∃ n s1, Rows (fun x => x.krnRow u.val f.q.uid) n s0 s1 ∧ (n = f.q.cue.rows ∨ s1.krnRow u.val f.q.uid = none) ∧
        (op ≠ 0x39 → ∀ y r, (s1.drawRows u.val f.q.uid).flight f.q.uid = some y →
          (s1.drawRows u.val f.q.uid).runOf u.val f.q.uid = some r → (s1.drawRows u.val f.q.uid).rowsDone u.val y r = true →
          t = (s1.drawRows u.val f.q.uid).closeRun u.val f.q.uid ∧ f.q.uid ∉ t.queue (8 + u.val) ∧
          (t.unit u.val).run = none) ∧
        (op = 0x39 → ∀ y r, (s1.drawRows u.val f.q.uid).flight f.q.uid = some y →
          (s1.drawRows u.val f.q.uid).runOf u.val f.q.uid = some r →
          (s1.drawRows u.val f.q.uid).rowsDone u.val y r = true → u.val ≠ f.q.cue.firstUnit →
          t = ((s1.drawRows u.val f.q.uid).mergeCols u.val f.q.uid).closeRun u.val f.q.uid ∧
          f.q.uid ∉ t.queue (8 + u.val) ∧ (t.unit u.val).run = none) ∧
        (∀ y r, (s1.drawRows u.val f.q.uid).flight f.q.uid = some y → (s1.drawRows u.val f.q.uid).runOf u.val f.q.uid = some r →
          (s1.drawRows u.val f.q.uid).rowsDone u.val y r = false → t = s1.drawRows u.val f.q.uid)) ∧
    (∀ n s0 s1 y r, f.opcode = op → ready → s.openGang u.val f checks = some s0 → n ≤ f.q.cue.rows →
      Rows (fun x => x.krnRow u.val f.q.uid) n s0 s1 → s1.flight f.q.uid = some y → s1.runOf u.val f.q.uid = some r →
      s1.rowsDone u.val y r = true → (op = 0x39 → u.val = f.q.cue.firstUnit → y.units ≤ 1) → Ends i s fun t =>
        f.q.uid ∉ t.queue (8 + u.val) ∧ (t.unit u.val).run = none ∧
        (y.units ≤ 1 → ∀ z, t.flight f.q.uid = some z → z.stage = .finished) ∧ t.mem = s.mem ∧ t.board = s.board) := by
  intro checks ready
  refine ⟨fun hop => Ends.of hexec (State.krnRun_idle hf hop) rfl, fun code hop hgang hu hcode => ?_,
    fun s0 hop _ hopen => ?_, fun n s0 s1 y r hop _ hopen hn hrows hy hr hdone hunits => ?_⟩
  · have hgone := State.flight_engineHalt s f.q.uid (8 + u.val) code
    refine Ends.of hexec ((State.krnRun_goes hf hop (State.openGang_fails hgang hu hcode)).trans ?_) (State.haltsOn_unit hf code)
    rw [iterWhile_of_none (State.krnRow_of_gone hgone), State.drawRows_of_gone hgone, State.endShare_of_gone hgone]
  · obtain ⟨n, hrows, hend⟩ := rows_iterWhile (fun x => x.krnRow u.val f.q.uid) f.q.cue.rows s0
    refine Ends.of hexec (State.krnRun_goes hf hop hopen) ⟨n, _, hrows, hend, fun hcol y r hy hr hdone => ?_,
      fun hcol y r hy hr hdone hu => ?_, fun y r hy hr hleft => State.endShare_left hy hr _ _ hleft⟩
    · rw [State.endShare_done hy hr _ _ hdone hcol]
      obtain ⟨hrun, hqueue, -, -⟩ := State.closeRun_spec _ u.val f.q.uid rfl
      exact ⟨rfl, hqueue, hrun⟩
    · rw [State.endShare_others hy hr _ _ hdone hcol hu]
      obtain ⟨hrun, hqueue, -, -⟩ := State.closeRun_spec _ u.val f.q.uid rfl
      exact ⟨rfl, hqueue, hrun⟩
  · obtain ⟨x, hx, hkept, -⟩ := State.endShare_closes (op := op) (col := 0x39) (first := f.q.cue.firstUnit) hy hr
      (fun x => x.closeRun u.val f.q.uid) (fun x => x.writeCols f.q.uid f.q.cue u.val 1 f.q.cue.kRawCol f.q.cue.rdRmode f.q.cue.kArg)
      hdone hunits ((kept_writeCols ..).but.mono (m := [.cho, .lanes, .choR, .gangs]) (by decide)) (by decide)
    have hruns : s.krnRun u.val op = x.closeRun u.val f.q.uid := by
      rw [State.krnRun_goes hf hop hopen, iterWhile_of_rows hrows hn (State.krnRow_of_done hy hr hdone),
        State.drawRows_of_done hy hr hdone, hx]
    obtain ⟨hrun, hqueue, -, hstage⟩ := State.closeRun_spec x u.val f.q.uid rfl
    have hall := hruns ▸ (kept_krnRun s u.val op).but
    exact Ends.of hexec hruns ⟨hqueue, hrun, hstage y ((State.flight_congr (hkept.same .flights (by decide)) _).trans hy),
      hall.same .mem (by decide), hall.same .board (by decide)⟩

/-- Settles O37: the six kernels are one function of their opcode. -/
theorem kernels : Obligations.Kernels := by
  intro s u f hf checks ready p hp
  simp only [List.mem_cons, List.not_mem_nil, or_false] at hp
  rcases hp with rfl | rfl | rfl | rfl | rfl | rfl <;> exact kernel_claim hf rfl

/-! RED_ROW, RED_COL and SCAN (R150 to R166). -/

/-- The gang's first unit finds no fault in the run and its claimant, or both have begun. -/
def State.pairReady (s : State) (u : Nat) (f g : Flight) : Prop := s.gangRun f.q.uid ≠ none ∨ (u = f.q.cue.firstUnit ∧
  leastCode (s.runChecks f.q.line f.q.cue) = none ∧ leastCode (s.claimantChecks f.q.line g.q.cue f.q.cue) = none)

section
variable {s : State} {u op : Nat} {f : Flight} (hf : s.unitHead u = some f)
include hf

theorem State.redRun_unclaimed (h : f.opcode = op) : s.redRun u op = s.engineHalt f.q.uid (8 + u) .redClaim := by
  unfold State.redRun
  rw [hf]
  exact if_pos h

theorem State.redRun_idle (h : f.opcode ≠ op) (hred : feedsRed f.q.cue = false) : s.redRun u op = s := by
  unfold State.redRun
  rw [hf]
  dsimp only
  rw [if_neg h, if_pos hred]

theorem State.redRun_goes (h : f.opcode ≠ op) (hred : feedsRed f.q.cue = true) {g : Flight} (hg : s.claimantNow u f = some g)
    (hop : g.opcode = op) (hready : s.pairReady u f g) {s0 : State} (hopen : s.openGang u f [] = some s0) :
    s.redRun u op = State.endShare
      ((iterWhile f.q.cue.rows (fun s => s.claimRow u f.q.uid g.q.uid) (s0.startFlight g.q.uid)).drawRows u f.q.uid) u f.q.uid op 0x31
      g.q.cue.firstUnit (fun x => x.closePair u f.q.uid g.q.uid)
      fun x => x.writeCols f.q.uid g.q.cue u 0 g.q.cue.rdRaw g.q.cue.rdRmode g.q.cue.rdECol := by
  have hrun : leastCode (if (s.gangRun f.q.uid).isNone && u == f.q.cue.firstUnit then s.runChecks f.q.line f.q.cue else []) = none := by
    rcases hready with hgang | ⟨-, hcode, -⟩
    · rw [Option.isNone_eq_false_iff.2 (Option.isSome_iff_ne_none.2 hgang)]; rfl
    · split
      · exact hcode
      · rfl
  have hclaim : (if (s.gangRun f.q.uid).isNone && u == f.q.cue.firstUnit
      then leastCode (s.claimantChecks f.q.line g.q.cue f.q.cue) else none) = none := by
    rcases hready with hgang | ⟨-, -, hcode⟩
    · rw [Option.isNone_eq_false_iff.2 (Option.isSome_iff_ne_none.2 hgang)]; rfl
    · split
      · exact hcode
      · rfl
  unfold State.redRun State.endShare
  rw [hf]
  dsimp only
  rw [if_neg h, if_neg (by simp [hred]), hg]
  dsimp only
  rw [if_neg (not_not.2 hop), hrun, hclaim, hopen]
  dsimp only
  generalize State.drawRows (iterWhile f.q.cue.rows (fun s => s.claimRow u f.q.uid g.q.uid) (s0.startFlight g.q.uid)) u f.q.uid = d
  cases hy : d.flight f.q.uid with
  | none => rfl
  | some y =>
    cases d.runOf u f.q.uid with
    | none => rfl
    | some run => dsimp only; rw [State.uid_of_flight hy]

end

theorem State.claimRow_of_done {s : State} {u uid cuid : Nat} {f g : Flight} {r : URun} (hf : s.flight uid = some f)
    (hg : s.flight cuid = some g) (hr : s.runOf u uid = some r) (hdone : s.rowsDone u f r = true) :
    s.claimRow u uid cuid = none := by
  unfold State.claimRow
  rw [hf, hg, hr]
  exact if_pos hdone

/-- What a unit leaves behind its share of a pair. -/
theorem State.closePair_spec (s : State) (u uid cuid : Nat) {t : State} (ht : t = s.closePair u uid cuid) :
    uid ∉ t.queue (8 + u) ∧ cuid ∉ t.queue (8 + u) ∧ (t.unit u).run = none ∧
      t.reg (R.choURuns u) = s.reg (R.choURuns u) + 1 := by
  subst ht
  obtain ⟨hrun, hqueue, -, -⟩ := State.closeRun_spec (s.countMod (R.choURuns u) 1) u uid rfl
  refine ⟨?_, State.not_mem_queue_unqueueAt _ _ _, hrun, ?_⟩
  · show uid ∉ (((s.countMod (R.choURuns u) 1).closeRun u uid).unqueueAt (8 + u) cuid).queue (8 + u)
    rw [State.queue_unqueueAt, if_pos rfl]
    exact fun h => hqueue (List.mem_filter.1 h).1
  · exact ((kept_closeRun (s.countMod (R.choURuns u) 1) u uid).but.reg (by simp)).trans (State.reg_countMod_self ..)

theorem State.flights_closePair (s : State) (u uid cuid : Nat) :
    (s.closePair u uid cuid).flights = ((s.unitDone uid).unitDone cuid).flights := by
  unfold State.closePair State.unitDone State.updFlight State.unqueueAt State.setQueue
  dsimp only
  rw [State.flights_closeRun]
  rfl

/-- The last unit of a pair finishes both cues. -/
theorem State.stage_closePair {s : State} {u uid cuid : Nat} (hne : cuid ≠ uid) :
    (∀ y, s.flight uid = some y → y.units ≤ 1 → ∀ x, (s.closePair u uid cuid).flight uid = some x → x.stage = .finished) ∧
    (∀ z, s.flight cuid = some z → z.units ≤ 1 → ∀ x, (s.closePair u uid cuid).flight cuid = some x → x.stage = .finished) := by
  refine ⟨fun y hy hunits x hx => ?_, fun z hz hunits x hx => ?_⟩ <;>
    rw [State.flight_congr (State.flights_closePair s u uid cuid)] at hx
  · rw [State.flight_unitDone_ne _ hne.symm] at hx
    exact State.stage_unitDone hy hunits hx
  · exact State.stage_unitDone ((State.flight_unitDone_ne s hne).trans hz) hunits hx

theorem State.reg_redCounts (s : State) (e : Option Int) (sat nan : Nat) (empty : Bool) {o : Nat}
    (h : o ∉ [R.choRedSatCount, R.choRedNanCount, R.choRedEmptyCount, R.choRedLastE]) :
    (s.redCounts e sat nan empty).reg o = s.reg o := by
  simp only [List.mem_cons, List.not_mem_nil, or_false, not_or] at h
  obtain ⟨hsat, hnan, hempty, hlast⟩ := h
  unfold State.redCounts
  cases e <;> cases empty <;> simp [State.reg_count_ne, State.reg_setF_ne, hsat, hnan, hempty, hlast]

theorem R.choURuns_not_red (u : Nat) : R.choURuns u ∉ [R.choRedSatCount, R.choRedNanCount, R.choRedEmptyCount, R.choRedLastE] := by
  simp only [List.mem_cons, List.not_mem_nil, or_false, not_or, R.choURuns, R.choRedSatCount, R.choRedNanCount,
    R.choRedEmptyCount, R.choRedLastE]
  omega

theorem State.runs_writeCols (s : State) (uid : Nat) (c : Cue) (u k : Nat) (raw : Bool) (rm : Nat) (e : Int) (v : Nat) :
    (s.writeCols uid c u k raw rm e).reg (R.choURuns v) = s.reg (R.choURuns v) := by
  unfold State.writeCols
  split
  · rfl
  · exact ((kept_putRow ..).but.reg (by simp)).trans (State.reg_redCounts _ _ _ _ _ (R.choURuns_not_red v))

theorem State.runs_mergeCols (s : State) (u uid v : Nat) : (s.mergeCols u uid).reg (R.choURuns v) = s.reg (R.choURuns v) :=
  (kept_mergeCols s u uid).but.reg (by simp)

/-- One reduction or scan cue of opcode `op`, carried out by `i`. -/
theorem pair_claim {s : State} {u : Fin 8} {f : Flight} (hf : s.unitHead u.val = some f) {op : Nat} {i : Instr}
    (hexec : exec i s = (s.redRun u.val op).done) :
    let ready (g : Flight) : Prop := s.gangRun f.q.uid ≠ none ∨ (u.val = f.q.cue.firstUnit ∧
      leastCode (s.runChecks f.q.line f.q.cue) = none ∧ leastCode (s.claimantChecks f.q.line g.q.cue f.q.cue) = none)
    (f.opcode = op → Ends i s (s.haltsOn f (8 + u.val) .redClaim)) ∧
    (f.opcode ≠ op → feedsRed f.q.cue = false → Ends i s fun t => t = s) ∧
    (∀ g s0, feedsRed f.q.cue = true → f.opcode ≠ op → s.claimantNow u.val f = some g → g.opcode = op →
      ready g → s.openGang u.val f [] = some s0 → Ends i s fun t =>
        ∃ n s1, Rows (fun x => x.claimRow u.val f.q.uid g.q.uid) n (s0.startFlight g.q.uid) s1 ∧
          (n = f.q.cue.rows ∨ s1.claimRow u.val f.q.uid g.q.uid = none) ∧
          (op ≠ 0x31 → ∀ y r, (s1.drawRows u.val f.q.uid).flight f.q.uid = some y →
            (s1.drawRows u.val f.q.uid).runOf u.val f.q.uid = some r →
            (s1.drawRows u.val f.q.uid).rowsDone u.val y r = true →
            t = (s1.drawRows u.val f.q.uid).closePair u.val f.q.uid g.q.uid ∧
            f.q.uid ∉ t.queue (8 + u.val) ∧ g.q.uid ∉ t.queue (8 + u.val) ∧ (t.unit u.val).run = none) ∧
          (op = 0x31 → ∀ y r, (s1.drawRows u.val f.q.uid).flight f.q.uid = some y →
            (s1.drawRows u.val f.q.uid).runOf u.val f.q.uid = some r →
            (s1.drawRows u.val f.q.uid).rowsDone u.val y r = true → u.val ≠ g.q.cue.firstUnit →
            t = ((s1.drawRows u.val f.q.uid).mergeCols u.val f.q.uid).closePair u.val f.q.uid g.q.uid ∧
            f.q.uid ∉ t.queue (8 + u.val) ∧ g.q.uid ∉ t.queue (8 + u.val) ∧ (t.unit u.val).run = none) ∧
          (∀ y r, (s1.drawRows u.val f.q.uid).flight f.q.uid = some y → (s1.drawRows u.val f.q.uid).runOf u.val f.q.uid = some r →
            (s1.drawRows u.val f.q.uid).rowsDone u.val y r = false → t = s1.drawRows u.val f.q.uid)) ∧
    (∀ g n s0 s1 y r z, feedsRed f.q.cue = true → f.opcode ≠ op → s.claimantNow u.val f = some g → g.opcode = op → ready g →
      g.q.uid ≠ f.q.uid → s.openGang u.val f [] = some s0 → n ≤ f.q.cue.rows →
      Rows (fun x => x.claimRow u.val f.q.uid g.q.uid) n (s0.startFlight g.q.uid) s1 → s1.flight f.q.uid = some y →
      s1.flight g.q.uid = some z → s1.runOf u.val f.q.uid = some r → s1.rowsDone u.val y r = true →
      (op = 0x31 → u.val = g.q.cue.firstUnit → y.units ≤ 1) → Ends i s fun t =>
        f.q.uid ∉ t.queue (8 + u.val) ∧ g.q.uid ∉ t.queue (8 + u.val) ∧ (t.unit u.val).run = none ∧
        t.reg (R.choURuns u.val) = s1.reg (R.choURuns u.val) + 1 ∧
        (y.units ≤ 1 → ∀ x, t.flight f.q.uid = some x → x.stage = .finished) ∧
        (z.units ≤ 1 → ∀ x, t.flight g.q.uid = some x → x.stage = .finished)) := by
  intro ready
  refine ⟨fun hop => Ends.of hexec (State.redRun_unclaimed hf hop) (State.haltsOn_unit hf _),
    fun hop hred => Ends.of hexec (State.redRun_idle hf hop hred) rfl, fun g s0 hred hop hg hgop hready hopen => ?_,
    fun g n s0 s1 y r z hred hop hg hgop hready hne hopen hn hrows hy hz hr hdone hunits => ?_⟩
  · obtain ⟨n, hrows, hend⟩ :=
      rows_iterWhile (fun x => x.claimRow u.val f.q.uid g.q.uid) f.q.cue.rows (s0.startFlight g.q.uid)
    refine Ends.of hexec (State.redRun_goes hf hop hred hg hgop hready hopen) ⟨n, _, hrows, hend, fun hcol y r hy hr hdone => ?_,
      fun hcol y r hy hr hdone hu => ?_, fun y r hy hr hleft => State.endShare_left hy hr _ _ hleft⟩
    · rw [State.endShare_done hy hr _ _ hdone hcol]
      obtain ⟨hrun, hclaimant, hunit, -⟩ := State.closePair_spec _ u.val f.q.uid g.q.uid rfl
      exact ⟨rfl, hrun, hclaimant, hunit⟩
    · rw [State.endShare_others hy hr _ _ hdone hcol hu]
      obtain ⟨hrun, hclaimant, hunit, -⟩ := State.closePair_spec _ u.val f.q.uid g.q.uid rfl
      exact ⟨rfl, hrun, hclaimant, hunit⟩
  · obtain ⟨x, hx, hkept, hcases⟩ := State.endShare_closes (op := op) (col := 0x31) (first := g.q.cue.firstUnit) hy hr
      (fun x => x.closePair u.val f.q.uid g.q.uid)
      (fun x => x.writeCols f.q.uid g.q.cue u.val 0 g.q.cue.rdRaw g.q.cue.rdRmode g.q.cue.rdECol)
      hdone hunits ((kept_writeCols ..).but.mono (m := [.cho, .lanes, .choR, .gangs]) (by decide)) (by decide)
    have hruns : s.redRun u.val op = x.closePair u.val f.q.uid g.q.uid := by
      rw [State.redRun_goes hf hop hred hg hgop hready hopen, iterWhile_of_rows hrows hn (State.claimRow_of_done hy hz hr hdone),
        State.drawRows_of_done hy hr hdone, hx]
    have hflight (k : Nat) : x.flight k = s1.flight k := State.flight_congr (hkept.same .flights (by decide)) k
    have hreg : x.reg (R.choURuns u.val) = s1.reg (R.choURuns u.val) := by
      rcases hcases with rfl | rfl | rfl
      · rfl
      · exact State.runs_mergeCols ..
      · exact (State.runs_writeCols ..).trans (State.runs_mergeCols ..)
    obtain ⟨hrun, hclaimant, hunit, hcount⟩ := State.closePair_spec x u.val f.q.uid g.q.uid rfl
    obtain ⟨hfirst, hsecond⟩ := State.stage_closePair (s := x) (u := u.val) hne
    exact Ends.of hexec hruns ⟨hrun, hclaimant, hunit, hcount.trans (by rw [hreg]), hfirst y ((hflight _).trans hy),
      hsecond z ((hflight _).trans hz)⟩

/-- Settles O36: the three are one function of their opcode. -/
theorem reductionPairs : Obligations.ReductionPairs := by
  intro s u f hf ready p hp
  simp only [List.mem_cons, List.not_mem_nil, or_false] at hp
  rcases hp with rfl | rfl | rfl <;> exact pair_claim hf rfl

end Sys2Proof.Machine
end

section
/-! SUPPORT. CHO_PROG_LOAD, CHO_CONFIG, CHO_TQ_DROP and TILE_CLAIM. -/

namespace Sys2Proof.Machine

/-! A cue whose engine halts on it in the middle of its run (R127, R151). -/

/-- A claimant is another cue than its run. -/
theorem State.startedClaimant_ne {s : State} {uid k : Nat} (h : s.startedClaimant uid = some k) : k ≠ uid := by
  unfold State.startedClaimant at h
  split at h
  · next f hf =>
    split at h
    · exact nomatch h
    · next hred =>
      obtain ⟨i, -, hi⟩ := List.exists_of_findSome?_eq_some h
      split at hi
      · next j _ _ =>
        obtain ⟨g, hg, hk⟩ := Option.bind_eq_some_iff.1 hi
        split at hk
        · next hisred =>
          rintro rfl
          obtain rfl : j = k := Option.some.inj hk
          obtain rfl : f = g := Option.some.inj (hf.symm.trans hg)
          have hop : f.opcode = 0x20 := by
            have hfeeds : feedsRed f.q.cue = true := by simpa using fun h => hred (Or.inl h)
            exact beq_iff_eq.1 (Bool.and_eq_true_iff.1 hfeeds).1
          rw [hop] at hisred
          exact nomatch (Bool.and_eq_true_iff.1 hisred).1
        · exact nomatch hk
      · exact nomatch hi
  · exact nomatch h

theorem State.flight_dropClaimant (s : State) {k : Option Nat} {uid : Nat} (h : ∀ j, k = some j → j ≠ uid) :
    (s.dropClaimant k).flight uid = s.flight uid := by
  cases k with
  | none => rfl
  | some j =>
    refine find?_filter_of_imp fun x _ hx => ?_
    have hx : x.q.uid = uid := by simpa using hx
    simpa [hx] using (h j rfl).symm

theorem State.haltsOn_killRun {s t : State} {f : Flight} (hf : t.flight f.q.uid = some f) (hlines : t.lines = s.lines)
    (hboard : t.board = s.board) {engine : Nat} (he : engine < 64) (code : Code) :
    s.haltsOn f engine code (t.killRun f.q.uid engine code) := by
  have hruns := (kept_dropRuns t f.q.uid).but
  have hclaim := (kept_dropClaimant (t.dropRuns f.q.uid) (t.startedClaimant f.q.uid)).but
  refine State.haltsOn_engineHalt ?_ ((hclaim.same .lines (by decide)).trans ((hruns.same .lines (by decide)).trans hlines))
    ((hclaim.same .board (by decide)).trans ((hruns.same .board (by decide)).trans hboard)) he code
  rw [State.flight_dropClaimant _ fun _ => State.startedClaimant_ne]
  exact (State.flight_congr (hruns.same .flights (by decide)) _).trans hf

/-! TILE_CLAIM (R126 to R129). -/

/-- A run takes a tile, and with the first tile of a fill the fill. -/
def State.tileTaken (s : State) (u : Nat) (f : Flight) (r : URun) (g : GangRun) (mine : Bool) (seq : Nat) (x : FillInfo)
    (arr slot : Nat) : State :=
  ((if mine then s else s.claimFill f.q.uid g seq x).mapSlot slot fun t => { t with begun := some f.q.uid }).setRun u
    { r with slot := some slot, arr := arr }

/-- The array or bank whose tile the run takes next. -/
def URun.nextArr (r : URun) (i : Nat) : Nat := if r.m = 0 ∧ r.arr = 0 then i else r.arr

/-- The tile of fill `seq` and array `arr` that begins at row `m`, once it lies in a slot. -/
def State.nextTile (s : State) (seq arr m : Nat) : Option (Nat × TqTile) :=
  s.arr.tq.find? fun t => t.2.fill == seq && t.2.arr == arr && t.2.first == m

section
variable {s : State} {u : Nat} {f : Flight} {r : URun} (hf : s.unitHead u = some f) (hr : s.runOf u f.q.uid = some r)
include hf hr

theorem State.tileClaim_has (hslot : r.slot ≠ none) : s.tileClaim u = s := by
  unfold State.tileClaim
  rw [hf]
  dsimp only
  rw [hr]
  exact if_pos (Or.inr (Option.isSome_iff_ne_none.2 hslot))

variable (htiles : f.q.cue.usesTiles = true) (hslot : r.slot = none) {g : GangRun} (hg : s.gangRun f.q.uid = some g)
  {mine : Bool} {seq : Nat} {x : FillInfo} (hfill : s.fillAt f g r.q = some (mine, seq, x))
include htiles hslot hg hfill

theorem State.tileClaim_eq : s.tileClaim u =
    match s.nextTile seq (r.nextArr (u - f.q.cue.firstUnit)) r.m with
    | none => s
    | some (slot, _) =>
      if mine = false ∧ s.fillFits f.q.cue g x = false then s.killRun f.q.uid (8 + u) .choTileMismatch
      else s.tileTaken u f r g mine seq x (r.nextArr (u - f.q.cue.firstUnit)) slot := by
  unfold State.tileClaim
  rw [hf]
  dsimp only
  rw [hr]
  dsimp only
  rw [if_neg (by simp [htiles, hslot]), hg]
  dsimp only
  rw [hfill]
  rfl

end

theorem State.tileTaken_spec (s : State) (u : Nat) (f : Flight) (r : URun) (g : GangRun) (mine : Bool) (seq : Nat) (x : FillInfo)
    (arr slot : Nat) {t : State} (ht : t = s.tileTaken u f r g mine seq x arr slot) :
    (t.unit u).run = some { r with slot := some slot, arr := arr } ∧ (∀ y, (slot, y) ∈ t.arr.tq → y.begun = some f.q.uid) ∧
      (mine = false → (seq, { x with owner := some f.q.uid }) ∈ t.arr.fills) ∧ KeptBut [.arr, .cho, .gangs] s t := by
  subst ht
  refine ⟨by simp [State.tileTaken, State.setRun], fun y hy => ?_, fun hm => ?_, ?_⟩
  · obtain ⟨z, -, hz⟩ := List.mem_map.1 hy
    obtain ⟨hkey, rfl⟩ := Prod.mk.inj hz
    show (if z.1 = slot then { z.2 with begun := some f.q.uid } else z.2).begun = some f.q.uid
    rw [if_pos hkey]
  · subst hm
    exact NMap.mem_put_self s.arr.fills seq { x with owner := some f.q.uid }
  · refine (kept_setRun ..).but.step (by decide) ((kept_mapSlot ..).but.step (by decide) ?_)
    split
    · exact KeptBut.refl _ s
    · exact (kept_claimFill ..).but.mono (by decide)

theorem tileClaims_claim : Sys2Proof.Claims.TileClaims := by
  intro s u f r hf hr htiles
  refine ⟨fun hslot => Ends.of rfl (State.tileClaim_has hf hr hslot) rfl, fun g mine seq x hslot hg hfill => ?_⟩
  intro arr next
  have heq := State.tileClaim_eq hf hr htiles hslot hg hfill
  refine ⟨fun hnone => Ends.of rfl (heq.trans ?_) rfl, fun slot tile hsome => ?_⟩
  · rw [show s.nextTile seq (r.nextArr (u.val - f.q.cue.firstUnit)) r.m = none from hnone]
  have hsome : s.nextTile seq (r.nextArr (u.val - f.q.cue.firstUnit)) r.m = some (slot, tile) := hsome
  rw [hsome] at heq
  refine ⟨fun hmine hfits => ?_, fun hfits => ?_⟩
  · refine Ends.of rfl (heq.trans ?_) (State.haltsOn_killRun (State.flight_of_unitHead hf) rfl rfl (by omega) .choTileMismatch)
    exact if_pos ⟨hmine, hfits⟩
  · have htaken : s.tileClaim u.val = s.tileTaken u.val f r g mine seq x arr slot := by
      rw [heq]
      exact if_neg fun h => by rcases hfits with k | k <;> simp [k] at h
    obtain ⟨hrun, hbegun, hfills, hkept⟩ := State.tileTaken_spec s u.val f r g mine seq x arr slot rfl
    exact Ends.of rfl htaken ⟨hrun, hbegun, hfills, hkept.same .flights (by decide), hkept.same .queues (by decide), hkept⟩

/-! CHO_PROG_LOAD (R110, R142). -/

theorem State.program_setProg (s : State) (u v slot : Nat) (ws : List (BitVec 64)) :
    (s.setProg u slot ws).program v slot = if v = u then ws else s.program v slot := by
  unfold State.program State.setProg
  rw [State.unit_updUnit]
  split
  · exact NMap.get_set_self _ _ _ _
  · rfl

theorem State.program_congr {s t : State} (h : t.cho = s.cho) (v slot : Nat) : t.program v slot = s.program v slot := by
  unfold State.program; rw [State.unit_congr h]

/-- The slot of every unit of the mask is empty. -/
def State.emptied (c : Cue) (t : State) : Prop := ∀ v, v < 8 → c.cpMask.testBit v = true → t.program v c.cpSlot = []

theorem State.emptied_emptyProgs (s : State) (c : Cue) : State.emptied c (s.emptyProgs c) := by
  have hfold : ∀ (l : List Nat) (s : State) (v : Nat), (v ∈ l ∨ s.program v c.cpSlot = []) →
      (l.foldl (fun s u => s.setProg u c.cpSlot []) s).program v c.cpSlot = [] := by
    intro l
    induction l with
    | nil => exact fun s v h => h.resolve_left (by simp)
    | cons u l ih =>
      refine fun s v h => ih _ v ?_
      rw [State.program_setProg]
      by_cases hv : v = u
      · exact Or.inr (if_pos hv)
      · rw [if_neg hv]
        exact h.imp_left fun h => (List.mem_cons.1 h).resolve_left hv
  exact fun v hv hbit => hfold _ s v (Or.inl (List.mem_filter.2 ⟨List.mem_range.2 hv, hbit⟩))

/-- What a CHO_PROG_LOAD reads. -/
def State.progMem (s : State) (u : Nat) (c : Cue) : (List Byte × Bool) × State := s.readPlain (8 + u) c.cpAddr (8 * c.cpWords)

/-- The words of a CHO_PROG_LOAD. -/
def progWords (c : Cue) (bytes : List Byte) : List (BitVec 64) :=
  (List.range c.cpWords).map fun i => BitVec.ofNat 64 (numOf ((bytes.drop (8 * i)).take 8))

/-- A unit has done its part of a cue of several units. -/
def State.partDone (s : State) (u uid : Nat) : State := ((s.startFlight uid).unqueueAt (8 + u) uid).unitDone uid

theorem KeptBut.partDone (s : State) (u uid : Nat) : KeptBut [.flights, .queues] s (s.partDone u uid) :=
  (kept_unitDone ..).but.step (by decide) ((kept_unqueueAt ..).but.step (by decide) ((kept_startFlight ..).but.mono (by decide)))

theorem State.not_mem_queue_partDone (s : State) (u uid : Nat) : uid ∉ (s.partDone u uid).queue (8 + u) :=
  State.not_mem_queue_unqueueAt (s.startFlight uid) (8 + u) uid

section
variable {s : State} {u : Nat} {f : Flight} (hf : s.unitHead u = some f)
include hf

theorem State.choProgLoad_waits (hstage : f.stage = .queued) (hu : u ≠ f.q.cue.firstUnit) : s.choProgLoad u = s := by
  unfold State.choProgLoad
  rw [hf]
  exact if_pos (Or.inr ⟨hstage, hu⟩)

variable (hop : f.opcode = 0x21)
  (hloads : f.stage = .started ∨ (u = f.q.cue.firstUnit ∧ leastCode (s.progChecks f.q.cue) = none))
include hop hloads

theorem State.choProgLoad_loads : s.choProgLoad u =
    if (s.progMem u f.q.cue).1.2 then
      ((s.progMem u f.q.cue).2.emptyProgs f.q.cue).engineHalt f.q.uid f.q.cue.engine .uncorrectableCue
    else if (progWords f.q.cue (s.progMem u f.q.cue).1.1).zipIdx.any (fun (w, i) => !wordOk i w) then
      ((s.progMem u f.q.cue).2.emptyProgs f.q.cue).engineHalt f.q.uid f.q.cue.engine .choProgram
    else ((s.progMem u f.q.cue).2.setProg u f.q.cue.cpSlot (progWords f.q.cue (s.progMem u f.q.cue).1.1)).partDone u f.q.uid := by
  have hcode : (if f.stage = .queued then leastCode (s.progChecks f.q.cue) else none) = none := by
    rcases hloads with h | ⟨-, h⟩
    · rw [h]; rfl
    · rw [h]; split <;> rfl
  unfold State.choProgLoad
  rw [hf]
  dsimp only
  rw [if_neg, hcode]
  · rfl
  · rintro (h | ⟨hstage, hu⟩)
    · exact h hop
    · rcases hloads with h | ⟨h, -⟩
      · rw [h] at hstage; exact nomatch hstage
      · exact hu h

end

/-- A load that fails leaves the slot empty and halts the line. -/
theorem progLoad_fails {s : State} {u : Nat} {f : Flight} (hf : s.flight f.q.uid = some f) (code : Code) {t : State}
    (ht : t = ((s.progMem u f.q.cue).2.emptyProgs f.q.cue).engineHalt f.q.uid f.q.cue.engine code) :
    State.emptied f.q.cue t ∧ s.haltsOn f (f.q.cue.engine % 64) code t := by
  subst ht
  have hlt : f.q.cue.engine < 64 := Nat.mod_lt _ (by decide)
  have hread : KeptBut [.mem, .prop, .trig, .propR, .fltR] s (s.progMem u f.q.cue).2 := (kept_readPlain s ..).but
  have hempty := (kept_emptyProgs (s.progMem u f.q.cue).2 f.q.cue).but
  refine ⟨fun v hv hbit => ?_, ?_⟩
  · rw [State.program_congr ((kept_engineHalt ..).but.same .cho (by decide))]
    exact State.emptied_emptyProgs _ _ v hv hbit
  · rw [Nat.mod_eq_of_lt hlt]
    exact State.haltsOn_engineHalt
      ((State.flight_congr ((hempty.same .flights (by decide)).trans (hread.same .flights (by decide))) _).trans hf)
      ((hempty.same .lines (by decide)).trans (hread.same .lines (by decide)))
      ((hempty.same .board (by decide)).trans (hread.same .board (by decide))) hlt code

theorem progWords_bad {c : Cue} {bytes : List Byte} :
    (progWords c bytes).zipIdx.any (fun (w, i) => !wordOk i w) = true ↔
      ∃ i, i < c.cpWords ∧ wordOk i (listGet 0 (progWords c bytes) i) = false := by
  have hlen : (progWords c bytes).length = c.cpWords := by simp [progWords]
  simp only [List.any_eq_true, Bool.not_eq_true', Prod.exists, List.mem_zipIdx_iff_getElem?]
  constructor
  · rintro ⟨w, i, hw, hbad⟩
    obtain ⟨hi, hwi⟩ := List.getElem?_eq_some_iff.1 hw
    exact ⟨i, hlen ▸ hi, by rw [listGet, hw]; exact hbad⟩
  · rintro ⟨i, hi, hbad⟩
    have hw : (progWords c bytes)[i]? = some ((progWords c bytes)[i]'(hlen ▸ hi)) := List.getElem?_eq_getElem _
    exact ⟨_, i, hw, by rw [listGet, hw] at hbad; exact hbad⟩

/-! CHO_CONFIG (R143). -/

/-- The unit's ports as the cue sets them; those that change are emptied. -/
def State.setPorts (s : State) (u : Nat) (l : List ((Nat × Nat) × Nat)) : State := l.foldl (fun s (p, i) =>
  if (s.unit u).port i = p then s
  else s.updUnit u fun x => { (x.setElems i []) with ports := NMap.set (0, 0) x.ports i p }) s

theorem KeptBut.setPorts (s : State) (u : Nat) (l : List ((Nat × Nat) × Nat)) : KeptBut [.cho] s (s.setPorts u l) :=
  (Kept.fold l (fun t _ => Kept.ite (Kept.refl _ t) (kept_updUnit ..)) (Kept.refl _ s)).but

/-- Ports set one after another: each is what the last entry for it says, and stays full only where nothing changed. -/
theorem State.port_setPorts {u : Nat} : ∀ (l : List ((Nat × Nat) × Nat)) (s : State), (l.map (·.2)).Nodup → ∀ i,
    ((s.setPorts u l).unit u).port i = ((l.find? (·.2 == i)).map (·.1)).getD ((s.unit u).port i) ∧
    ((s.setPorts u l).unit u).elems i = if ((s.setPorts u l).unit u).port i = (s.unit u).port i then (s.unit u).elems i else []
  | [], s, _, i => ⟨rfl, (if_pos rfl).symm⟩
  | (p, k) :: l, s, hl, i => by
    obtain ⟨hk, hl⟩ := List.nodup_cons.1 hl
    let t := if (s.unit u).port k = p then s
      else s.updUnit u fun x => { (x.setElems k []) with ports := NMap.set (0, 0) x.ports k p }
    have ht : s.setPorts u ((p, k) :: l) = t.setPorts u l := rfl
    have hport (j : Nat) : (t.unit u).port j = if j = k then p else (s.unit u).port j := by
      by_cases h : (s.unit u).port k = p
      · rw [show t = s from if_pos h]
        split
        · next hj => rw [hj, h]
        · rfl
      · rw [show t = _ from if_neg h, State.unit_updUnit, if_pos rfl]
        exact NMap.get_set _ _ _ _ _
    have helems (j : Nat) : (t.unit u).elems j = if (t.unit u).port j = (s.unit u).port j then (s.unit u).elems j else [] := by
      rw [hport]
      by_cases h : (s.unit u).port k = p
      · rw [show t = s from if_pos h, if_pos]
        split
        · next hj => rw [hj, h]
        · rfl
      · rw [show t = _ from if_neg h, State.unit_updUnit, if_pos rfl]
        by_cases hj : j = k
        · rw [if_pos hj, hj, if_neg (Ne.symm h)]
          exact NMap.get_set_self [] (s.unit u).fifo k []
        · rw [if_neg hj, if_pos rfl]
          exact NMap.get_set_ne [] (s.unit u).fifo [] hj
    obtain ⟨hp, he⟩ := State.port_setPorts l t hl i
    rw [ht]
    by_cases hik : i = k
    · have hnone : l.find? (·.2 == i) = none := by
        rw [List.find?_eq_none]
        intro x hx hxi
        exact hk (List.mem_map.2 ⟨x, hx, (beq_iff_eq.1 hxi).trans hik⟩)
      have hsame : ((t.setPorts u l).unit u).port i = (t.unit u).port i := by rw [hp, hnone]; rfl
      refine ⟨?_, by rw [he, if_pos hsame, helems, hsame]⟩
      rw [hsame, hport, if_pos hik]
      simp [hik]
    · have hti : (t.unit u).port i = (s.unit u).port i := by rw [hport, if_neg hik]
      refine ⟨?_, by rw [he, hti, helems, if_pos hti]⟩
      rw [hp, hti]
      simp [Ne.symm hik]

theorem find?_configPorts (c : Cue) {i : Nat} (h : i < 4) :
    ((configPorts c).zipIdx.find? (·.2 == i)).map (·.1) = some (c.ccfBase i, c.ccfSize i) := by
  have : configPorts c = [(c.ccfBase 0, c.ccfSize 0), (c.ccfBase 1, c.ccfSize 1), (c.ccfBase 2, c.ccfSize 2),
    (c.ccfBase 3, c.ccfSize 3)] := rfl
  rw [this]
  interval_cases i <;> rfl

section
variable {s : State} {u : Nat} {f : Flight} (hf : s.unitHead u = some f)
include hf

theorem State.choConfig_waits (hstage : f.stage = .queued) {v : Nat} (hv : lowBit f.q.cue.ccfMask = some v) (hu : v ≠ u) :
    s.choConfig u = s := by
  unfold State.choConfig
  rw [hf]
  exact if_pos (Or.inr ⟨hstage, by rw [hv]; exact hu⟩)

variable (hop : f.opcode = 0x22) (hconfigs : f.stage = .started ∨ lowBit f.q.cue.ccfMask = some u)
include hop hconfigs

theorem State.choConfig_eq : s.choConfig u =
    if portsBad (configPorts f.q.cue) then s.engineHalt f.q.uid (8 + u) .choField
    else (if f.q.cue.ccfMask.testBit u then s.setPorts u (configPorts f.q.cue).zipIdx else s).partDone u f.q.uid := by
  unfold State.choConfig
  rw [hf]
  dsimp only
  rw [if_neg]
  · rfl
  · rintro (h | ⟨hstage, hu⟩)
    · exact h hop
    · rcases hconfigs with h | h
      · rw [h] at hstage; exact nomatch hstage
      · rw [h] at hu; exact hu rfl

end

/-! CHO_TQ_DROP (R131, R144). -/

theorem State.tq_dropTiles (s : State) (p : Line → Nat → Bool) (by_ : Nat) :
    (s.dropTiles p by_).arr.tq = s.arr.tq.filter fun t =>
      !((s.arr.tq.filter fun t => t.2.taken == 0 && p t.2.line t.2.tag).map (·.1)).contains t.1 := by
  unfold State.dropTiles
  rw [State.arr_drained]
  rfl

theorem State.choTqDrop_eq {s : State} {u : Nat} {f : Flight} (hf : s.unitHead u = some f) (hop : f.opcode = 0x23) :
    s.choTqDrop u = (s.dropTiles (fun l tag => l == f.q.line && tag == f.q.cue.ctTag) (f.q.uid / 4)).leavesDone f.q.uid := by
  unfold State.choTqDrop
  rw [hf]
  exact if_neg (not_not.2 hop)

theorem chorusSetup_claim : Sys2Proof.Claims.ChorusSetup := by
  intro s u f hf c mem ws emptied loads configs drops
  have hflight := State.flight_of_unitHead hf
  refine ⟨fun hop hstage hu => Ends.of rfl (State.choProgLoad_waits hf hstage hu) rfl, fun hop hloads hmem => ?_,
    fun hop hloads hmem => ?_, fun hop hstage ⟨v, hv, hu⟩ => Ends.of rfl (State.choConfig_waits hf hstage hv hu) rfl,
    fun hop hports hconfigs hbit => ?_, fun hop hports hconfigs => ?_, fun hop => ?_⟩
  · refine Ends.of rfl (State.choProgLoad_loads hf hop hloads) ?_
    rw [if_pos (show (s.progMem u.val c).1.2 = true from hmem)]
    exact progLoad_fails hflight .uncorrectableCue rfl
  · have hloads := State.choProgLoad_loads hf hop hloads
    rw [if_neg (ne_true_of_eq_false (show (s.progMem u.val c).1.2 = false from hmem))] at hloads
    refine ⟨fun hok => ?_, fun hbad => ?_⟩
    · rw [if_neg fun h => by
        obtain ⟨i, hi, hbad⟩ := progWords_bad.1 h
        exact Bool.false_ne_true (hbad.symm.trans (hok i hi))] at hloads
      have hdone := KeptBut.partDone ((s.progMem u.val c).2.setProg u.val c.cpSlot (progWords c (s.progMem u.val c).1.1)) u.val f.q.uid
      have hread : KeptBut [.mem, .prop, .trig, .propR, .fltR] s (s.progMem u.val c).2 := (kept_readPlain s ..).but
      have hset := (kept_setProg (s.progMem u.val c).2 u.val c.cpSlot (progWords c (s.progMem u.val c).1.1)).but
      refine Ends.of rfl hloads ⟨?_, State.not_mem_queue_partDone _ _ _, fun v hv => ?_,
        (hdone.same .lines (by decide)).trans ((hset.same .lines (by decide)).trans (hread.same .lines (by decide)))⟩
      · rw [State.program_congr (hdone.same .cho (by decide)), State.program_setProg, if_pos rfl]; rfl
      · rw [State.unit_congr (hdone.same .cho (by decide))]
        show (State.updUnit ..).unit v.val = _
        rw [State.unit_updUnit, if_neg fun h => hv (Fin.ext h)]
        exact State.unit_congr (hread.same .cho (by decide)) _
    · rw [if_pos (progWords_bad (bytes := (s.progMem u.val c).1.1).2 hbad)] at hloads
      exact Ends.of rfl hloads (progLoad_fails hflight .choProgram rfl)
  · have hconfig := State.choConfig_eq hf hop hconfigs
    rw [if_neg (ne_true_of_eq_false hports), if_pos hbit] at hconfig
    have hset := KeptBut.setPorts s u.val (configPorts c).zipIdx
    have hdone := KeptBut.partDone (s.setPorts u.val (configPorts c).zipIdx) u.val f.q.uid
    have hunit := State.unit_congr (hdone.same .cho (by decide)) u.val
    have hnodup : ((configPorts c).zipIdx.map (·.2)).Nodup := by rw [show (configPorts c).zipIdx.map (·.2) = [0, 1, 2, 3] from rfl]; decide
    have hport (i : Nat) (hi : i < 4) : ((s.setPorts u.val (configPorts c).zipIdx).unit u.val).port i = (c.ccfBase i, c.ccfSize i) := by
      rw [(State.port_setPorts _ s hnodup i).1, find?_configPorts c hi]; rfl
    refine Ends.of rfl hconfig ⟨fun i hi => ?_, fun i hi => ?_, State.not_mem_queue_partDone _ _ _,
      hdone.step (by decide) (hset.mono (by decide))⟩
    · rw [hunit]; exact hport i hi
    · rw [hunit, (State.port_setPorts _ s hnodup i).2, hport i hi]
      exact if_congr eq_comm rfl rfl
  · have hconfig := State.choConfig_eq hf hop hconfigs
    rw [if_pos hports] at hconfig
    exact Ends.of rfl hconfig ⟨State.haltsOn_unit hf _, (kept_engineHalt ..).but.same .cho (by decide)⟩
  · have hdrop := (kept_dropTiles s (fun l tag => l == f.q.line && tag == f.q.cue.ctTag) (f.q.uid / 4)).but
    have hleaves := KeptBut.leavesDone (s.dropTiles (fun l tag => l == f.q.line && tag == f.q.cue.ctTag) (f.q.uid / 4)) f.q.uid
    have hdrops (x : TqTile) : (x.taken == 0 && (x.line == f.q.line && x.tag == f.q.cue.ctTag)) = true ↔ drops x := by
      simp [drops, c]
    have htq (x : Nat × TqTile) : x ∈ (s.choTqDrop u.val).arr.tq ↔ x ∈ s.arr.tq ∧ ∀ y ∈ s.arr.tq, y.1 = x.1 → ¬drops y.2 := by
      rw [State.choTqDrop_eq hf hop, hleaves.same .arr (by decide), State.tq_dropTiles, List.mem_filter]
      simp only [Bool.not_eq_true', List.contains_eq_mem, decide_eq_false_iff_not, List.mem_map, List.mem_filter, not_exists,
        not_and, and_imp, hdrops]
      exact and_congr_right fun _ => forall_congr' fun y => forall_congr' fun hy => ⟨fun h hk hd => h hd hk, fun h hd hk => h hk hd⟩
    refine Ends.of rfl rfl ⟨fun x hx => ?_, fun x hx hkeep => (htq x).2 ⟨hx, hkeep⟩, ?_, ?_⟩
    · obtain ⟨hin, hkeep⟩ := (htq x).1 hx
      exact ⟨hin, hkeep x hin rfl⟩
    · rw [State.choTqDrop_eq hf hop]
      exact State.doneWith_leavesDone _ f
    · rw [State.choTqDrop_eq hf hop]
      exact hleaves.step (by decide) (hdrop.mono (by decide))

/-- Settles O35: a claim by whether a tile is there and fits, the set-up cues by what their checks say. -/
theorem chorusSetup : Obligations.ChorusSetup := ⟨tileClaims_claim, chorusSetup_claim⟩

end Sys2Proof.Machine
end

section
/-! SUPPORT. What one row of a chorus unit, of a kernel or of a claimed pair produces. -/

namespace Sys2Proof.Machine

/-! What using up operands leaves of a unit: its stage buffer and its place in the run. -/

/-- A unit's stage buffer, its ports, and the moment of its lane state. -/
def ChoUnit.buffer (x : ChoUnit) : NMap (Nat × Nat) × NMap Byte × Nat := (x.ports, x.stage, x.trips)

/-- The cue of a unit's run, and the row it is at. -/
def ChoUnit.place (x : ChoUnit) : Option (Nat × Nat) := x.run.map fun r => (r.uid, r.j)

/-- Unit `u` has the buffer and the place it had. -/
def State.unitStays (u : Nat) (s t : State) : Prop :=
  (t.unit u).buffer = (s.unit u).buffer ∧ (t.unit u).place = (s.unit u).place

theorem State.unitStays.refl (u : Nat) (s : State) : State.unitStays u s s := ⟨rfl, rfl⟩

theorem State.unitStays.trans {u : Nat} {s t v : State} (h : State.unitStays u s t) (k : State.unitStays u t v) :
    State.unitStays u s v := ⟨k.1.trans h.1, k.2.trans h.2⟩

theorem State.unitStays_of_cho {s t : State} (h : t.cho = s.cho) (u : Nat) : State.unitStays u s t := by
  unfold State.unitStays
  rw [State.unit_congr h]
  exact ⟨rfl, rfl⟩

theorem State.unitStays_upd (s : State) (u : Nat) {f : ChoUnit → ChoUnit} (hbuffer : (f (s.unit u)).buffer = (s.unit u).buffer)
    (hplace : (f (s.unit u)).place = (s.unit u).place) : State.unitStays u s (s.updUnit u f) := by
  unfold State.unitStays
  rw [State.unit_updUnit, if_pos rfl]
  exact ⟨hbuffer, hplace⟩

theorem State.unitStays_foldl {α : Type} {u : Nat} {f : State → α → State} (hf : ∀ s a, State.unitStays u s (f s a)) :
    ∀ (l : List α) (s : State), State.unitStays u s (l.foldl f s)
  | [], s => State.unitStays.refl u s
  | a :: l, s => (hf s a).trans (State.unitStays_foldl hf l (f s a))

theorem State.unitStays_useStream (s : State) (u cols i : Nat) (d : BitVec 64) :
    State.unitStays u s (s.useStream u cols i d) := by
  unfold State.useStream
  split
  · exact State.unitStays.refl u s
  · split
    · exact State.unitStays.refl u s
    · next run hrun =>
      have hplace : (s.unit u).place = some (run.uid, run.j) := by unfold ChoUnit.place; rw [hrun]; rfl
      dsimp only
      split
      · split
        · exact State.unitStays.refl u s
        · exact State.unitStays_upd s u rfl hplace.symm
      · exact State.unitStays_upd s u rfl hplace.symm

theorem State.unitStays_setRun {s : State} {u : Nat} {r q : URun} (hr : (s.unit u).run = some r) (huid : q.uid = r.uid)
    (hj : q.j = r.j) : State.unitStays u s (s.setRun u q) := by
  refine State.unitStays_upd s u rfl ?_
  show some (q.uid, q.j) = (s.unit u).run.map _
  rw [hr, huid, hj]
  rfl

theorem State.unitStays_takeTileRow {s : State} {u : Nat} (f : Flight) {r : URun} (hr : (s.unit u).run = some r) (t : TqTile) :
    State.unitStays u s (s.takeTileRow u f r t) := by
  unfold State.takeTileRow
  dsimp only
  split
  · exact State.unitStays.refl u s
  · split
    · exact State.unitStays_setRun hr rfl rfl
    · split
      · exact State.unitStays_setRun hr rfl rfl
      · split <;> exact State.unitStays_setRun hr rfl rfl

theorem State.unitStays_rowUsed (s : State) (u : Nat) (f : Flight) (x : RowIn) : State.unitStays u s (s.rowUsed u f x) := by
  unfold State.rowUsed
  dsimp only
  refine (State.unitStays_foldl (fun s (a : BitVec 64 × Nat) => State.unitStays_useStream s u f.q.cue.cols a.2 a.1)
    f.q.cue.streams.zipIdx s).trans ?_
  split
  · next hr => exact State.unitStays_takeTileRow f hr _
  · exact State.unitStays.refl u _

/-! Bytes of the stage buffer (R112, R119). -/

/-- What a byte was written, or what stands for it. -/
def ChoUnit.written (x : ChoUnit) (a : Nat) : Byte := NMap.get (x.base a) x.stage a

/-- No port of the unit covers the byte. -/
def ChoUnit.noPort (x : ChoUnit) (a : Nat) : Prop := ∀ p, p < 4 →
  a < (x.port p).1 * 4096 ∨ ((x.port p).1 + (x.port p).2) * 4096 ≤ a

theorem ChoUnit.byte_of_noPort {x : ChoUnit} {a : Nat} (h : x.noPort a) : x.byte a = x.written a := by
  unfold ChoUnit.byte
  rw [List.find?_eq_none.2]
  · rfl
  · intro p hp
    have := h p (List.mem_range.1 hp)
    simp only [Bool.and_eq_true, decide_eq_true_eq, not_and]
    omega

theorem ChoUnit.written_congr {x y : ChoUnit} (h : y.buffer = x.buffer) (a : Nat) : y.written a = x.written a := by
  obtain ⟨-, h⟩ := Prod.mk.inj h
  obtain ⟨hstage, htrips⟩ := Prod.mk.inj h
  unfold ChoUnit.written ChoUnit.base
  rw [hstage, htrips]

theorem ChoUnit.noPort_congr {x y : ChoUnit} (h : y.ports = x.ports) {a : Nat} : y.noPort a ↔ x.noPort a := by
  unfold ChoUnit.noPort ChoUnit.port
  rw [h]

theorem NMap.get_filter {α : Type} (d : α) {p : Nat → Bool} {k : Nat} (h : p k = true) :
    ∀ m : NMap α, NMap.get d (m.filter fun e => p e.1) k = NMap.get d m k
  | [] => rfl
  | (j, v) :: m => by
    by_cases hj : k = j
    · subst hj
      simp [h, NMap.get]
    · rw [List.filter_cons]
      split
      · simp only [NMap.get, if_neg hj]; exact NMap.get_filter d h m
      · simp only [NMap.get, if_neg hj]; exact NMap.get_filter d h m

theorem ChoUnit.written_keepTrips (x : ChoUnit) (moment : Nat) {a : Nat} (h : a < tripLo) :
    (x.keepTrips moment).written a = x.written a := by
  unfold ChoUnit.written ChoUnit.base
  rw [if_pos (Or.inr h), if_pos (Or.inr h)]
  exact NMap.get_filter (p := fun k => decide (k < tripLo)) 0 (by simpa using h) x.stage

theorem ChoUnit.written_setByte (x : ChoUnit) (k a : Nat) (b : Byte) :
    NMap.get (x.base a) (NMap.set (x.base k) x.stage k b) a = if a = k then b else x.written a := by
  by_cases h : a = k
  · subst h; rw [if_pos rfl]; exact NMap.get_set_self _ _ _ _
  · rw [if_neg h]
    unfold NMap.set
    split
    · rw [NMap.get_del, if_neg h]; rfl
    · rw [NMap.get_put, if_neg h]; rfl

/-- Bytes written at `lo`: the byte at `a` is the one at its place in the list, or as before. -/
theorem ChoUnit.written_setBytes (x : ChoUnit) (lo : Nat) (l : List Byte) (poison : Bool) {a : Nat} (ha : a < stageSize) :
    (x.setBytes lo l poison).written a = if lo ≤ a then (l[a - lo]?).getD (x.written a) else x.written a := by
  have hfold : ∀ (l : List Byte) (n : Nat) (m : NMap Byte),
      NMap.get (x.base a) ((l.zipIdx n).foldl (fun m (b, i) =>
        if lo + i < stageSize then NMap.set (x.base (lo + i)) m (lo + i) b else m) m) a =
      if lo + n ≤ a then (l[a - (lo + n)]?).getD (NMap.get (x.base a) m a) else NMap.get (x.base a) m a := by
    intro l
    induction l with
    | nil => simp
    | cons b l ih =>
      intro n m
      rw [List.zipIdx_cons, List.foldl_cons, ih]
      have hset : NMap.get (x.base a) (if lo + n < stageSize then NMap.set (x.base (lo + n)) m (lo + n) b else m) a =
          if a = lo + n then b else NMap.get (x.base a) m a := by
        split
        · exact ChoUnit.written_setByte { x with stage := m } (lo + n) a b
        · rw [if_neg (by omega)]
      dsimp only
      rw [hset]
      by_cases hlt : lo + (n + 1) ≤ a
      · rw [if_pos hlt, if_pos (show lo + n ≤ a by omega), if_neg (show a ≠ lo + n by omega), show a - (lo + n) = (a - (lo + (n + 1))) + 1 by omega]
        rfl
      · rw [if_neg hlt]
        by_cases heq : a = lo + n
        · rw [if_pos heq, if_pos heq.ge, heq, Nat.sub_self]; rfl
        · rw [if_neg heq, if_neg (by omega)]
  exact hfold l 0 x.stage

/-! One output of a row (R123, R133 to R135). -/

/-- An output to a fly engine appends to its own lane and to no other; any other output leaves the lanes as they are. -/
theorem State.lanes_putRow (s : State) (c : Cue) (u k : Nat) (o : BitVec 16) (j per : Nat) (l : List OutElem) (key : Nat) :
    NMap.get [] (s.putRow c u k o j per l).lanes key =
      if oDest o = 1 ∧ key = laneKey (oTarget o + (u - c.firstUnit)) k u then
        NMap.get [] s.lanes key ++ l.map fun x => ChoElem.mk x.kind x.bits x.e x.poison (!x.live)
      else NMap.get [] s.lanes key := by
  unfold State.putRow
  split
  · next ho =>
    dsimp only
    rw [NMap.get_set]
    split
    · next hk => rw [if_pos ⟨ho, hk⟩, hk]
    · next hk => rw [if_neg fun h => hk h.2]
  · next ho =>
    rw [if_neg fun h => by rw [h.1] at ho; exact absurd ho (by decide)]
    rfl
  · next ho _ => rw [if_neg fun h => ho h.1]

theorem State.unitStays_putRow (s : State) (c : Cue) (u k : Nat) {o : BitVec 16} (ho : oDest o ≠ 2) (j per : Nat)
    (l : List OutElem) : State.unitStays u s (s.putRow c u k o j per l) := by
  unfold State.putRow
  split
  · exact State.unitStays.refl u s
  · next h => exact absurd h ho
  · exact State.unitStays.refl u s

theorem laneKey_inj {e e' k k' u u' : Nat} (hu : u < 8) (hu' : u' < 8) (h : laneKey e k u = laneKey e' k' u') :
    k % 2 = k' % 2 := by
  unfold laneKey at h
  omega

/-- Outputs written one after another: where only output `k` reaches a lane, the lane gets what that output gives. -/
theorem State.lanes_foldl {key k : Nat} {o : BitVec 16} {add : List ChoElem} {f : State → BitVec 16 × Nat → State} :
    ∀ (l : List (BitVec 16 × Nat)) (s : State), (l.map (·.2)).Nodup → (o, k) ∈ l →
    (∀ s, NMap.get [] (f s (o, k)).lanes key = NMap.get [] s.lanes key ++ add) →
    (∀ o' k', (o', k') ∈ l → k' ≠ k → ∀ s, NMap.get [] (f s (o', k')).lanes key = NMap.get [] s.lanes key) →
    NMap.get [] (l.foldl f s).lanes key = NMap.get [] s.lanes key ++ add
  | [], s, _, h, _, _ => nomatch h
  | (o', k') :: l, s, hnd, hin, hadd, hother => by
    have hkeeps : ∀ (l : List (BitVec 16 × Nat)) (s : State),
        (∀ o' k', (o', k') ∈ l → ∀ s, NMap.get [] (f s (o', k')).lanes key = NMap.get [] s.lanes key) →
        NMap.get [] (l.foldl f s).lanes key = NMap.get [] s.lanes key := by
      intro l
      induction l with
      | nil => exact fun _ _ => rfl
      | cons x l ih => exact fun s h => (ih _ fun o' k' hm => h o' k' (List.mem_cons_of_mem _ hm)).trans (h x.1 x.2 List.mem_cons_self s)
    obtain ⟨hk', hnd⟩ := List.nodup_cons.1 hnd
    rw [List.foldl_cons]
    rcases List.mem_cons.1 hin with heq | hin
    · obtain ⟨rfl, rfl⟩ := Prod.mk.inj heq
      rw [hkeeps l _ fun o' j hm => hother o' j (List.mem_cons_of_mem _ hm) fun h => hk' (List.mem_map.2 ⟨_, hm, h⟩)]
      exact hadd s
    · rw [State.lanes_foldl l _ hnd hin hadd fun o' j hm => hother o' j (List.mem_cons_of_mem _ hm)]
      rw [hother o' k' List.mem_cons_self fun h => hk' (List.mem_map.2 ⟨_, hin, h.symm⟩)]

theorem nodup_zipIdx {α : Type} (l : List α) : (l.zipIdx.map (·.2)).Nodup := by
  rw [List.zipIdx_map_snd]
  exact List.nodup_range'

/-! The place of a unit's run, and its buffer, as a row's results leave the unit. -/

theorem State.place_keepTrips (s : State) (u : Nat) (prog : List (BitVec 64)) :
    ((s.keepTrips u prog).unit u).place = (s.unit u).place := by
  unfold State.keepTrips
  split
  · rfl
  · rw [State.unit_updUnit, if_pos rfl]; rfl

/-- An element of a row written to the stage buffer. -/
def ChoUnit.putElem (o : BitVec 16) (j per : Nat) (y : ChoUnit) : OutElem × Nat → ChoUnit
  | (x, i) =>
    if x.live = false then y
    else
      let b := if x.kind = 1 then 2 else if x.kind = 2 then 8 else 4
      let v := if x.poison then (if x.kind = 1 then 0x7FC0 else 0x7FC00000) else x.bits.toNat
      y.setBytes (oTarget o * 4096 + (j * per + i) * b) (bytesOf b v) false

theorem State.unit_putRow_stage (s : State) (c : Cue) (u k : Nat) {o : BitVec 16} (ho : oDest o = 2) (j per : Nat)
    (l : List OutElem) : (s.putRow c u k o j per l).unit u = l.zipIdx.foldl (ChoUnit.putElem o j per) (s.unit u) := by
  unfold State.putRow
  rw [ho]
  exact (State.unit_updUnit s u u _).trans (if_pos rfl)

/-- Writing elements to the stage buffer changes no port, no run and no moment of the lane state. -/
theorem ChoUnit.foldl_putElem (o : BitVec 16) (j per : Nat) : ∀ (l : List (OutElem × Nat)) (y : ChoUnit),
    (l.foldl (ChoUnit.putElem o j per) y).ports = y.ports ∧ (l.foldl (ChoUnit.putElem o j per) y).run = y.run
  | [], _ => ⟨rfl, rfl⟩
  | x :: l, y => by
    have hone : (ChoUnit.putElem o j per y x).ports = y.ports ∧ (ChoUnit.putElem o j per y x).run = y.run := by
      unfold ChoUnit.putElem
      split
      split <;> exact ⟨rfl, rfl⟩
    obtain ⟨hports, hrun⟩ := ChoUnit.foldl_putElem o j per l (ChoUnit.putElem o j per y x)
    exact ⟨hports.trans hone.1, hrun.trans hone.2⟩

theorem State.place_putRow (s : State) (c : Cue) (u k : Nat) (o : BitVec 16) (j per : Nat) (l : List OutElem) :
    ((s.putRow c u k o j per l).unit u).place = (s.unit u).place ∧ ((s.putRow c u k o j per l).unit u).ports = (s.unit u).ports := by
  by_cases ho : oDest o = 2
  · rw [State.unit_putRow_stage s c u k ho]
    obtain ⟨hports, hrun⟩ := ChoUnit.foldl_putElem o j per l.zipIdx (s.unit u)
    exact ⟨by unfold ChoUnit.place; rw [hrun], hports⟩
  · obtain ⟨hbuffer, hplace⟩ := State.unitStays_putRow s c u k ho j per l
    exact ⟨hplace, congrArg Prod.fst hbuffer⟩

theorem State.unit_countNan (s : State) (l : List OutElem) (u : Nat) : (s.countNan l).unit u = s.unit u :=
  State.unit_congr ((kept_countNan s l).but.same .cho (by decide)) u

/-- The row's results go out: one output. -/
def State.putOne (u : Nat) (c : Cue) (j : Nat) (x : RowIn) (lanes : List Lane) (s : State) : BitVec 16 × Nat → State
  | (o, k) => if oDest o = 0 then s else (s.countNan (outRow c x lanes o)).putRow c u k o j c.cols (outRow c x lanes o)

theorem State.putRun_eq (s : State) (u : Nat) (c : Cue) (j : Nat) (x : RowIn) (lanes : List Lane) :
    s.putRun u c j x lanes = c.outputs.zipIdx.foldl (State.putOne u c j x lanes) s := rfl

theorem State.place_putOne (u : Nat) (c : Cue) (j : Nat) (x : RowIn) (lanes : List Lane) (s : State) (p : BitVec 16 × Nat) :
    ((State.putOne u c j x lanes s p).unit u).place = (s.unit u).place ∧
      ((State.putOne u c j x lanes s p).unit u).ports = (s.unit u).ports := by
  obtain ⟨o, k⟩ := p
  unfold State.putOne
  dsimp only
  split
  · exact ⟨rfl, rfl⟩
  · have h := State.place_putRow (s.countNan (outRow c x lanes o)) c u k o j c.cols (outRow c x lanes o)
    rwa [State.unit_countNan] at h

theorem State.place_putRun (u : Nat) (c : Cue) (j : Nat) (x : RowIn) (lanes : List Lane) (s : State) :
    ((s.putRun u c j x lanes).unit u).place = (s.unit u).place ∧ ((s.putRun u c j x lanes).unit u).ports = (s.unit u).ports := by
  rw [State.putRun_eq]
  generalize c.outputs.zipIdx = l
  induction l generalizing s with
  | nil => exact ⟨rfl, rfl⟩
  | cons p l ih =>
    obtain ⟨hplace, hports⟩ := State.place_putOne u c j x lanes s p
    obtain ⟨iplace, iports⟩ := ih (State.putOne u c j x lanes s p)
    exact ⟨iplace.trans hplace, iports.trans hports⟩

/-- An output that does not go to the stage buffer leaves it as it is. -/
theorem State.buffer_putOne {u : Nat} {c : Cue} {j : Nat} {x : RowIn} {lanes : List Lane} (s : State) {o : BitVec 16} (k : Nat)
    (ho : oDest o ≠ 2) : ((State.putOne u c j x lanes s (o, k)).unit u).buffer = (s.unit u).buffer := by
  unfold State.putOne
  dsimp only
  split
  · rfl
  · have h := (State.unitStays_putRow (s.countNan (outRow c x lanes o)) c u k ho j c.cols (outRow c x lanes o)).1
    rwa [State.unit_countNan] at h

/-- The row counted: the unit is at its next row. -/
theorem State.unit_rowCounted (s : State) (u cols : Nat) :
    (s.rowCounted u cols).unit u = { s.unit u with run := (s.unit u).run.map fun r => { r with j := r.j + 1 } } := by
  unfold State.rowCounted
  dsimp only
  rw [State.unit_updUnit, if_pos rfl, State.unit_congr (s := s) rfl]
  rfl

theorem ChoUnit.place_next {x : ChoUnit} {uid j : Nat} (h : x.place = some (uid, j)) {r : URun}
    (hr : (x.run.map fun r => { r with j := r.j + 1 }) = some r) : r.j = j + 1 ∧ r.uid = uid := by
  obtain ⟨q, hq, rfl⟩ := Option.map_eq_some_iff.1 hr
  unfold ChoUnit.place at h
  rw [hq] at h
  obtain ⟨huid, hj⟩ := Prod.mk.inj (Option.some.inj h)
  exact ⟨congrArg (· + 1) hj, huid⟩

theorem State.place_of_runOf {s : State} {u uid : Nat} {run : URun} (h : s.runOf u uid = some run) :
    (s.unit u).place = some (uid, run.j) := by
  obtain ⟨hrun, huid⟩ := Option.filter_eq_some_iff.1 h
  unfold ChoUnit.place
  rw [hrun]
  exact congrArg (fun k => some (k, run.j)) (by simpa using huid)

/-! One row of a run (R102, R112, R119 to R123, R133 to R135). -/

/-- The operands of a row are used up, and a program of several trips has kept its lane state. -/
def State.rowTaken (s : State) (u : Nat) (f : Flight) (x : RowIn) (prog : List (BitVec 64)) : State :=
  (s.rowUsed u f x).keepTrips u prog

theorem KeptBut.rowTaken (s : State) (u : Nat) (f : Flight) (x : RowIn) (prog : List (BitVec 64)) :
    KeptBut [.arr, .cho, .freeCtr] s (s.rowTaken u f x prog) :=
  (kept_keepTrips ..).but.step (by decide) ((kept_rowUsed ..).but.mono (by decide))

theorem State.place_rowTaken (s : State) (u : Nat) (f : Flight) (x : RowIn) (prog : List (BitVec 64)) :
    ((s.rowTaken u f x prog).unit u).place = (s.unit u).place :=
  (State.place_keepTrips ..).trans (State.unitStays_rowUsed s u f x).2

theorem State.ports_rowTaken (s : State) (u : Nat) (f : Flight) (x : RowIn) (prog : List (BitVec 64)) :
    ((s.rowTaken u f x prog).unit u).ports = (s.unit u).ports := by
  have hused : ((s.rowUsed u f x).unit u).ports = (s.unit u).ports := congrArg Prod.fst (State.unitStays_rowUsed s u f x).1
  unfold State.rowTaken State.keepTrips
  split
  · exact hused
  · rw [State.unit_updUnit, if_pos rfl]; exact hused

theorem State.written_rowTaken (s : State) (u : Nat) (f : Flight) (x : RowIn) (prog : List (BitVec 64)) {a : Nat}
    (ha : prog.length ≤ 8 ∨ a < tripLo) : ((s.rowTaken u f x prog).unit u).written a = (s.unit u).written a := by
  have hused := ChoUnit.written_congr (State.unitStays_rowUsed s u f x).1 a
  unfold State.rowTaken State.keepTrips
  split
  · exact hused
  · next hlong =>
    rw [State.unit_updUnit, if_pos rfl, ChoUnit.written_keepTrips _ _ (ha.resolve_left hlong)]
    exact hused

/-- The state behind one row of a run. -/
def State.rowDone (s : State) (u : Nat) (f : Flight) (j : Nat) (x : RowIn) : State :=
  let prog := s.program u f.q.cue.crProg
  ((s.rowTaken u f x prog).putRun u f.q.cue j x (chainRow f.q.cue prog x)).rowCounted u f.q.cue.cols

section
variable {s : State} {u : Nat} {f : Flight} {run : URun} (hf : s.flight f.q.uid = some f) (hr : s.runOf u f.q.uid = some run)
  (hleft : s.rowsDone u f run = false) {x : RowIn} (hrow : s.rowIn u f run = some (.inl x))
include hf hr hleft hrow

theorem State.runRow_takes : s.runRow u f.q.uid = some (s.rowDone u f run.j x) := by
  unfold State.runRow
  rw [hf, hr]
  dsimp only
  rw [if_neg (by simp [hleft]), hrow]
  rfl

end

theorem KeptBut.rowDone (s : State) (u : Nat) (f : Flight) (j : Nat) (x : RowIn) :
    KeptBut [.arr, .cho, .lanes, .freeCtr, .choR] s (s.rowDone u f j x) :=
  (kept_rowCounted ..).but.step (by decide) ((kept_putRun ..).but.step (by decide) ((KeptBut.rowTaken ..).mono (by decide)))

/-- An output to a fly engine appends to its lane what it gives. -/
theorem State.lanes_putOne {u : Nat} {c : Cue} {j : Nat} {x : RowIn} {lanes : List Lane} (s : State) (o : BitVec 16) (k key : Nat) :
    NMap.get [] (State.putOne u c j x lanes s (o, k)).lanes key =
      if oDest o = 1 ∧ key = laneKey (oTarget o + (u - c.firstUnit)) k u then
        NMap.get [] s.lanes key ++ (outRow c x lanes o).map fun y => ChoElem.mk y.kind y.bits y.e y.poison (!y.live)
      else NMap.get [] s.lanes key := by
  unfold State.putOne
  dsimp only
  split
  · next h => rw [if_neg fun hk => by rw [h] at hk; exact absurd hk.1 (by decide)]
  · rw [State.lanes_putRow]
    rfl

theorem State.lanes_rowDone (s : State) {u : Nat} (hu : u < 8) {f : Flight} (hop : f.q.cue.opcode = 0x20) (j : Nat) (x : RowIn)
    {o : BitVec 16} {k : Nat} (hk : (o, k) ∈ f.q.cue.outputs.zipIdx) (ho : oDest o = 1) :
    let key := laneKey (oTarget o + (u - f.q.cue.firstUnit)) k u
    NMap.get [] (s.rowDone u f j x).lanes key = NMap.get [] s.lanes key ++
      (outRow f.q.cue x (chainRow f.q.cue (s.program u f.q.cue.crProg) x) o).map fun y =>
        ChoElem.mk y.kind y.bits y.e y.poison (!y.live) := by
  intro key
  have htaken := (KeptBut.rowTaken s u f x (s.program u f.q.cue.crProg)).same .lanes (by decide)
  have hlt : ∀ o' k', (o', k') ∈ f.q.cue.outputs.zipIdx → k' < 2 := by
    intro o' k' h
    have := List.snd_lt_of_mem_zipIdx h
    simpa [Cue.outputs, hop] using this
  rw [show NMap.get [] s.lanes key = NMap.get [] (s.rowTaken u f x (s.program u f.q.cue.crProg)).lanes key by rw [htaken]]
  refine State.lanes_foldl (f := State.putOne u f.q.cue j x (chainRow f.q.cue (s.program u f.q.cue.crProg) x))
    _ _ (nodup_zipIdx _) hk (fun t => ?_) fun o' k' hk' hne t => ?_
  · rw [State.lanes_putOne, if_pos ⟨ho, rfl⟩]
  · rw [State.lanes_putOne, if_neg]
    intro h
    have := laneKey_inj hu hu h.2
    have := hlt _ _ hk
    have := hlt _ _ hk'
    omega

/-- All elements of a row of an output are of one kind. -/
theorem outRow_kind {c : Cue} {x : RowIn} {lanes : List Lane} {o : BitVec 16} {y z : OutElem} (hy : y ∈ outRow c x lanes o)
    (hz : z ∈ outRow c x lanes o) : z.kind = y.kind := by
  unfold outRow at hy hz
  dsimp only at hy hz
  split at hy
  · next h =>
    rw [if_pos h] at hz
    obtain ⟨p, -, rfl⟩ := List.mem_map.1 hy
    obtain ⟨q, -, rfl⟩ := List.mem_map.1 hz
    rfl
  · next h =>
    rw [if_neg h] at hz
    obtain ⟨p, -, rfl⟩ := List.mem_map.1 hy
    obtain ⟨q, -, rfl⟩ := List.mem_map.1 hz
    rfl

/-- A byte of an element of 32 bits. -/
def OutElem.byte32 (y : OutElem) (z : Nat) : Byte := BitVec.ofNat 8 (y.bits.toNat % 2 ^ 32 / 2 ^ (8 * z))

theorem getElem?_bytesOf {n v z : Nat} (h : z < n) : (bytesOf n v)[z]? = some (BitVec.ofNat 8 (v >>> (8 * z))) := by
  have hlen : z < (bytesOf n v).length := by rw [length_bytesOf]; exact h
  have hget := bytesOf_get n v z h
  rw [listGet, List.getElem?_eq_getElem hlen] at hget
  rw [List.getElem?_eq_getElem hlen]
  exact congrArg some hget

theorem byte32_eq (v : Nat) {z : Nat} (hz : z < 4) : BitVec.ofNat 8 (v >>> (8 * z)) = BitVec.ofNat 8 (v % 2 ^ 32 / 2 ^ (8 * z)) := by
  apply BitVec.eq_of_toNat_eq
  simp only [BitVec.toNat_ofNat, Nat.shiftRight_eq_div_pow]
  interval_cases z <;> omega

/-- Elements of 32 bits written one after another: the bytes of a live one are in its place. -/
theorem ChoUnit.written_putElems (o : BitVec 16) (j per : Nat) {i : Nat} {y : OutElem} (hlive : y.live = true)
    (hpoison : y.poison = false) {z : Nat} (hz : z < 4) (ha : oTarget o * 4096 + (j * per + i) * 4 + z < stageSize) :
    ∀ (l : List OutElem) (n : Nat) (x : ChoUnit), (∀ e ∈ l, e.kind = 0) → n ≤ i → l[i - n]? = some y →
      ((l.zipIdx n).foldl (ChoUnit.putElem o j per) x).written (oTarget o * 4096 + (j * per + i) * 4 + z) = y.byte32 z := by
  have hone (x : ChoUnit) (e : OutElem) (n : Nat) (hkind : e.kind = 0) :
      (ChoUnit.putElem o j per x (e, n)).written (oTarget o * 4096 + (j * per + i) * 4 + z) =
        if n = i ∧ e.live = true then
          BitVec.ofNat 8 ((if e.poison then (if e.kind = 1 then 0x7FC0 else 0x7FC00000) else e.bits.toNat) >>> (8 * z))
        else x.written (oTarget o * 4096 + (j * per + i) * 4 + z) := by
    unfold ChoUnit.putElem
    dsimp only
    by_cases hl : e.live = false
    · rw [if_pos hl, if_neg fun h => by rw [hl] at h; exact nomatch h.2]
    · rw [if_neg hl, if_neg (by omega : ¬e.kind = 1), if_neg (by omega : ¬e.kind = 2), ChoUnit.written_setBytes _ _ _ _ ha]
      generalize (if e.poison then (if e.kind = 1 then 0x7FC0 else 0x7FC00000) else e.bits.toNat) = v
      by_cases hn : n = i
      · subst hn
        rw [if_pos (by omega), if_pos (⟨rfl, by simpa using hl⟩ : n = n ∧ e.live = true), Nat.add_sub_cancel_left, getElem?_bytesOf hz]
        rfl
      · rw [if_neg (show ¬(n = i ∧ e.live = true) from fun h => hn h.1)]
        split
        · rw [List.getElem?_eq_none]
          · rfl
          · rw [length_bytesOf]
            rcases Nat.lt_or_gt_of_ne hn with hn | hn
            · have : (j * per + n) * 4 + 4 ≤ (j * per + i) * 4 := by omega
              omega
            · omega
        · rfl
  have hkeeps : ∀ (l : List OutElem) (n : Nat) (x : ChoUnit), (∀ e ∈ l, e.kind = 0) → i < n →
      ((l.zipIdx n).foldl (ChoUnit.putElem o j per) x).written (oTarget o * 4096 + (j * per + i) * 4 + z) =
        x.written (oTarget o * 4096 + (j * per + i) * 4 + z) := by
    intro l
    induction l with
    | nil => exact fun _ _ _ _ => rfl
    | cons e l ih =>
      intro n x hk hn
      rw [List.zipIdx_cons, List.foldl_cons, ih _ _ (fun e he => hk e (List.mem_cons_of_mem _ he)) (by omega),
        hone x e n (hk e List.mem_cons_self), if_neg (by omega)]
  intro l
  induction l with
  | nil => exact fun n x _ _ h => nomatch h
  | cons e l ih =>
    intro n x hk hn hget
    rw [List.zipIdx_cons, List.foldl_cons]
    rcases Nat.lt_or_eq_of_le hn with hlt | heq
    · rw [show i - n = (i - (n + 1)) + 1 by omega, List.getElem?_cons_succ] at hget
      exact ih (n + 1) _ (fun e he => hk e (List.mem_cons_of_mem _ he)) hlt hget
    · subst heq
      have he : e = y := by simpa using hget
      subst he
      rw [hkeeps l _ _ (fun e he => hk e (List.mem_cons_of_mem _ he)) (by omega), hone x e n (hk e List.mem_cons_self),
        if_pos ⟨rfl, hlive⟩, hpoison]
      exact byte32_eq _ hz

theorem Cue.outputs_run {c : Cue} (h : c.opcode = 0x20) : c.outputs = [c.output 92, c.output 94] := if_pos h

/-- A column of a row depends on its own operands alone. -/
theorem getElem?_chainRow_congr {c : Cue} {prog : List (BitVec 64)} {x x' : RowIn} (hr : x'.r = x.r) {k : Nat} (hk : k < c.cols)
    (h : ∀ i : Nat, (x.elems[i]?).map (fun l : List Opd => l[k]?) = (x'.elems[i]?).map fun l : List Opd => l[k]?) :
    (chainRow c prog x')[k]? = (chainRow c prog x)[k]? := by
  have hops : (x'.elems.map fun l => listGet default l k) = x.elems.map fun l => listGet default l k := by
    refine List.ext_getElem? fun i => ?_
    have hi := congrArg (Option.map fun o : Option Opd => o.getD default) (h i)
    rw [List.getElem?_map, List.getElem?_map]
    simpa [Option.map_map, Function.comp_def, listGet] using hi.symm
  unfold chainRow
  rw [List.getElem?_map, List.getElem?_map, List.getElem?_range hk]
  simp only [Option.map_some, hops, hr]

theorem chorusRow_claim : Sys2Proof.Claims.ChorusRow := by
  intro s u f run x hf hr hleft hrow hop
  refine ⟨_, State.runRow_takes hf hr hleft hrow, ?_⟩
  intro c prog lanes plain
  have hkept := KeptBut.rowDone s u.val f run.j x
  obtain ⟨hplace, hports⟩ := State.place_putRun u.val c run.j x lanes (s.rowTaken u.val f x prog)
  have hunit : (s.rowDone u.val f run.j x).unit u.val = _ := State.unit_rowCounted _ u.val c.cols
  have hputs : (s.rowTaken u.val f x prog).putRun u.val c run.j x lanes =
      State.putOne u.val c run.j x lanes (State.putOne u.val c run.j x lanes (s.rowTaken u.val f x prog) (c.output 92, 0))
        (c.output 94, 1) := by
    rw [State.putRun_eq, Cue.outputs_run hop]; rfl
  have hnoPort {a : Nat} (ha : plain a) : (s.unit u.val).noPort a := ha.2
  have hbyte {a : Nat} (ha : plain a) : ((s.rowDone u.val f run.j x).unit u.val).byte a =
      (((s.rowTaken u.val f x prog).putRun u.val c run.j x lanes).unit u.val).written a := by
    rw [ChoUnit.byte_of_noPort, hunit]
    · rfl
    · refine (ChoUnit.noPort_congr ?_).2 (hnoPort ha)
      rw [hunit]
      exact hports.trans (State.ports_rowTaken s u.val f x prog)
  refine ⟨hkept.same .flights (by decide), hkept.same .queues (by decide), hkept.same .lines (by decide),
    hkept.same .mem (by decide), fun r hrun => ?_, fun k o hk ho => State.lanes_rowDone s u.isLt hop run.j x hk ho,
    fun h94 h92 a ha => ?_, fun h94 h92 i y hy hlive hkind hpoison z hz => ?_,
    fun x' hx' k hk h => getElem?_chainRow_congr hx' hk h⟩
  · rw [hunit] at hrun
    exact ChoUnit.place_next ((hplace.trans (State.place_rowTaken s u.val f x prog)).trans (State.place_of_runOf hr)) hrun
  · rw [hbyte ha, hputs, ChoUnit.byte_of_noPort (hnoPort ha),
      ChoUnit.written_congr ((State.buffer_putOne _ 1 h94).trans (State.buffer_putOne _ 0 h92)) a]
    exact State.written_rowTaken s u.val f x prog ha.1
  · intro a ha hplain
    have hmem : y ∈ outRow c x lanes (c.output 92) := List.mem_of_getElem? hy
    rw [hbyte hplain, hputs, ChoUnit.written_congr (State.buffer_putOne _ 1 h94) a]
    unfold State.putOne
    dsimp only
    rw [if_neg (by omega), State.unit_putRow_stage _ c u.val 0 h92]
    exact ChoUnit.written_putElems (c.output 92) run.j c.cols hlive hpoison hz ha _ 0 _
      (fun e he => (outRow_kind hmem he).trans hkind) (Nat.zero_le i) hy

end Sys2Proof.Machine
end

section
/-! SUPPORT. What one row of a kernel and one row of a RED_ROW with its run produce. -/

namespace Sys2Proof.Machine

/-! Outputs of a kernel or of a claimant (R164, R169). -/

/-- One output of a kernel's or claimant's row. -/
def State.putOut (c : Cue) (u j : Nat) (l : List (List OutElem)) (s : State) : BitVec 16 × Nat → State
  | (o, k) => match l[k]? with
    | some row => s.putRow c u k o j (perRow c k) row
    | none => s

theorem State.putOuts_eq (s : State) (c : Cue) (u j : Nat) (l : List (List OutElem)) :
    s.putOuts c u j l = c.outputs.zipIdx.foldl (State.putOut c u j l) s := rfl

theorem State.place_putOuts (s : State) (c : Cue) (u j : Nat) (l : List (List OutElem)) :
    ((s.putOuts c u j l).unit u).place = (s.unit u).place := by
  rw [State.putOuts_eq]
  generalize c.outputs.zipIdx = outs
  induction outs generalizing s with
  | nil => rfl
  | cons p outs ih =>
    refine (ih _).trans ?_
    unfold State.putOut
    dsimp only
    split
    · exact (State.place_putRow ..).1
    · rfl

/-- An output that alone goes to a fly engine appends to its lane what its row holds. -/
theorem State.lanes_putOuts (s : State) {c : Cue} {u j : Nat} {l : List (List OutElem)} {o : BitVec 16} {k : Nat}
    {row : List OutElem} (hk : (o, k) ∈ c.outputs.zipIdx) (ho : oDest o = 1) (hrow : l[k]? = some row)
    (hothers : ∀ o' k', (o', k') ∈ c.outputs.zipIdx → k' ≠ k → oDest o' ≠ 1) :
    let key := laneKey (oTarget o + (u - c.firstUnit)) k u
    NMap.get [] (s.putOuts c u j l).lanes key =
      NMap.get [] s.lanes key ++ row.map fun y => ChoElem.mk y.kind y.bits y.e y.poison (!y.live) := by
  intro key
  refine State.lanes_foldl (f := State.putOut c u j l) _ _ (nodup_zipIdx _) hk (fun t => ?_) fun o' k' hk' hne t => ?_
  · unfold State.putOut
    dsimp only
    rw [hrow]
    exact (State.lanes_putRow ..).trans (if_pos ⟨ho, rfl⟩)
  · unfold State.putOut
    dsimp only
    split
    · exact (State.lanes_putRow ..).trans (if_neg fun h => hothers o' k' hk' hne h.1)
    · rfl

/-! The count of rows (R179). -/

theorem State.ruRows_putRow (s : State) (c : Cue) (u k : Nat) (o : BitVec 16) (j per : Nat) (l : List OutElem) (v : Nat) :
    (s.putRow c u k o j per l).reg (R.choRuRows v) = s.reg (R.choRuRows v) := (kept_putRow ..).but.reg (by simp)

theorem State.ruRows_putOuts (s : State) (c : Cue) (u j : Nat) (l : List (List OutElem)) (v : Nat) :
    (s.putOuts c u j l).reg (R.choRuRows v) = s.reg (R.choRuRows v) := by
  rw [State.putOuts_eq]
  generalize c.outputs.zipIdx = outs
  induction outs generalizing s with
  | nil => rfl
  | cons p outs ih =>
    refine (ih _).trans ?_
    unfold State.putOut
    dsimp only
    split
    · exact State.ruRows_putRow ..
    · rfl

theorem State.ruRows_countNan (s : State) (l : List OutElem) (v : Nat) :
    (s.countNan l).reg (R.choRuRows v) = s.reg (R.choRuRows v) := by
  have hnan : R.choRuRows v ≠ R.choNanCount := by unfold R.choRuRows R.choNanCount; omega
  have hpoison : R.choRuRows v ≠ R.choPoisonCount := by unfold R.choRuRows R.choPoisonCount; omega
  unfold State.countNan
  dsimp only
  rw [State.reg_count_ne _ _ hpoison, State.reg_count_ne _ _ hnan]

theorem State.ruRows_putRun (s : State) (u : Nat) (c : Cue) (j : Nat) (x : RowIn) (lanes : List Lane) (v : Nat) :
    (s.putRun u c j x lanes).reg (R.choRuRows v) = s.reg (R.choRuRows v) := by
  rw [State.putRun_eq]
  generalize c.outputs.zipIdx = outs
  induction outs generalizing s with
  | nil => rfl
  | cons p outs ih =>
    refine (ih _).trans ?_
    unfold State.putOne
    dsimp only
    split
    · rfl
    · exact (State.ruRows_putRow ..).trans (State.ruRows_countNan ..)

theorem R.choRuRows_not_red (u : Nat) : R.choRuRows u ∉ [R.choRedSatCount, R.choRedNanCount, R.choRedEmptyCount, R.choRedLastE] := by
  simp only [List.mem_cons, List.not_mem_nil, or_false, not_or, R.choRuRows, R.choRedSatCount, R.choRedNanCount,
    R.choRedEmptyCount, R.choRedLastE]
  omega

theorem State.ruRows_rowCounted (s : State) (u cols v : Nat) :
    (s.rowCounted u cols).reg (R.choRuRows v) = s.reg (R.choRuRows v) := by
  have hlo : R.choRuRows v ≠ R.choUElemsLo u := by unfold R.choRuRows R.choUElemsLo; omega
  have hhi : R.choRuRows v ≠ R.choUElemsHi u := by unfold R.choRuRows R.choUElemsHi; omega
  unfold State.rowCounted State.count64
  dsimp only
  rw [(kept_updUnit ..).but.reg (by simp), State.reg_setReg_ne _ _ hhi, State.reg_setReg_ne _ _ hlo]

theorem KeptBut.countRow (s : State) (u : Nat) : KeptBut [.choR] s (s.countMod (R.choRuRows u) 1) :=
  R.choRuRows_ofReg u ▸ (kept_countMod s (R.choRuRows u) 1).but

theorem State.place_countMod (s : State) (o n u : Nat) : ((s.countMod o n).unit u).place = (s.unit u).place := rfl

/-! One row of a kernel (R168 to R171). -/

/-- The unit sums what a row gives to its columns, where the kernel sums columns. -/
def State.krnSums (s : State) (u : Nat) (c : Cue) (o : KrnOut) : State :=
  if c.opcode = 0x39 then
    s.updUnit u fun y => { y with run := y.run.map fun r => { r with cols := addCols c.kArg r.cols (o.cols.map fun v => ⟨true, v⟩) } }
  else s

/-- The operands of a row are used up, the unit holds the row, and the counters of R179 have counted it. -/
def State.krnCounted (s : State) (u : Nat) (f : Flight) (j : Nat) (x : RowIn) : State :=
  let o := s.krnOut u f.q.cue x j
  ((s.rowUsed u f x).useStore u j (x.elems.map fun l => l.map (·.num))).redCounts o.e o.sat (nanElems o.o) o.empty

/-- The state behind one row of a kernel. -/
def State.krnDone (s : State) (u : Nat) (f : Flight) (j : Nat) (x : RowIn) : State :=
  let o := s.krnOut u f.q.cue x j
  ((((s.krnCounted u f j x).putOuts f.q.cue u j o.o).krnSums u f.q.cue o).countMod (R.choRuRows u) 1).updUnit u fun y =>
    { y with run := y.run.map fun r => { r with j := r.j + 1 } }

theorem State.krnRow_takes {s : State} {u : Nat} {f : Flight} {run : URun} (hf : s.flight f.q.uid = some f)
    (hr : s.runOf u f.q.uid = some run) (hleft : s.rowsDone u f run = false) {x : RowIn} (hrow : s.rowIn u f run = some (.inl x)) :
    s.krnRow u f.q.uid = some (s.krnDone u f run.j x) := by
  unfold State.krnRow
  rw [hf, hr]
  dsimp only
  rw [if_neg (by simp [hleft]), hrow]
  rfl

theorem State.unitStays_useStore (s : State) (u j : Nat) (row : List (List Num)) : State.unitStays u s (s.useStore u j row) :=
  State.unitStays_upd s u rfl rfl

theorem KeptBut.useStore (s : State) (u j : Nat) (row : List (List Num)) : KeptBut [.cho] s (s.useStore u j row) :=
  (kept_updUnit ..).but

theorem State.unitStays_redCounts (s : State) (e : Option Int) (sat nan : Nat) (empty : Bool) (u : Nat) :
    State.unitStays u s (s.redCounts e sat nan empty) := State.unitStays_of_cho ((kept_redCounts ..).but.same .cho (by decide)) u

theorem KeptBut.krnCounted (s : State) (u : Nat) (f : Flight) (j : Nat) (x : RowIn) :
    KeptBut [.arr, .cho, .choR] s (s.krnCounted u f j x) :=
  (kept_redCounts ..).but.step (by decide) ((KeptBut.useStore ..).step (by decide) ((kept_rowUsed ..).but.mono (by decide)))

theorem KeptBut.krnSums (s : State) (u : Nat) (c : Cue) (o : KrnOut) : KeptBut [.cho] s (s.krnSums u c o) :=
  (Kept.ite (kept_updUnit ..) (Kept.refl _ s)).but

theorem KeptBut.krnDone (s : State) (u : Nat) (f : Flight) (j : Nat) (x : RowIn) :
    KeptBut [.arr, .cho, .lanes, .choR] s (s.krnDone u f j x) := by
  unfold State.krnDone
  dsimp only
  refine (kept_updUnit ..).but.step (by decide) ((KeptBut.countRow ..).step (by decide) ?_)
  exact (KeptBut.krnSums ..).step (by decide) ((kept_putOuts ..).but.step (by decide) ((KeptBut.krnCounted ..).mono (by decide)))

theorem State.place_krnSums (s : State) (u : Nat) (c : Cue) (o : KrnOut) :
    ((s.krnSums u c o).unit u).place = (s.unit u).place := by
  unfold State.krnSums
  split
  · rw [State.unit_updUnit, if_pos rfl]
    unfold ChoUnit.place
    dsimp only
    rw [Option.map_map]
    rfl
  · rfl

theorem State.place_krnCounted (s : State) (u : Nat) (f : Flight) (j : Nat) (x : RowIn) :
    ((s.krnCounted u f j x).unit u).place = (s.unit u).place :=
  ((State.unitStays_rowUsed s u f x).trans ((State.unitStays_useStore ..).trans (State.unitStays_redCounts ..))).2

theorem State.run_krnDone {s : State} {u : Nat} {f : Flight} {run : URun} (hr : s.runOf u f.q.uid = some run) (x : RowIn) {r : URun}
    (h : ((s.krnDone u f run.j x).unit u).run = some r) : r.j = run.j + 1 := by
  unfold State.krnDone at h
  dsimp only at h
  rw [State.unit_updUnit, if_pos rfl] at h
  refine (ChoUnit.place_next (uid := f.q.uid) ?_ h).1
  rw [State.place_countMod, State.place_krnSums, State.place_putOuts, State.place_krnCounted]
  exact State.place_of_runOf hr

theorem State.ruRows_krnDone (s : State) (u : Nat) (f : Flight) (j : Nat) (x : RowIn) :
    (s.krnDone u f j x).reg (R.choRuRows u) = s.reg (R.choRuRows u) + 1 := by
  unfold State.krnDone
  dsimp only
  rw [(kept_updUnit ..).but.reg (by simp), State.reg_countMod_self, (KeptBut.krnSums ..).reg (by simp), State.ruRows_putOuts]
  unfold State.krnCounted
  dsimp only
  rw [State.reg_redCounts _ _ _ _ _ (R.choRuRows_not_red u), (KeptBut.useStore ..).reg (by simp), (kept_rowUsed ..).but.reg (by simp)]
  rfl

theorem State.lanes_krnDone (s : State) (u : Nat) (f : Flight) (j : Nat) (x : RowIn) : (s.krnDone u f j x).lanes =
    ((s.krnCounted u f j x).putOuts f.q.cue u j (s.krnOut u f.q.cue x j).o).lanes :=
  (KeptBut.krnSums ..).same .lanes (by decide)

/-! One row of a RED_ROW with its run (R153 to R157). -/

/-- The run's row through its chain, its own outputs written, its operands held where the operation needs them. -/
def State.redTaken (s : State) (u : Nat) (f g : Flight) (j : Nat) (x : RowIn) : State :=
  let c := f.q.cue
  let prog := s.program u c.crProg
  let lanes := chainRow c prog x
  let s := (s.rowTaken u f x ((s.rowUsed u f x).program u c.crProg)).putRun u c j x lanes
  let d0 := (outRow c x lanes (c.output 92)).map OutElem.toREl
  let d1 := (outRow c x lanes (c.output 94)).map OutElem.toREl
  if g.opcode = 0x31 ∨ (g.opcode = 0x30 ∧ g.q.cue.rdOpsel ≠ 0 ∧ g.q.cue.rdOpsel ≠ 6) then s
  else s.useStore u j [d0.map (·.x), if oDest (c.output 94) = 3 then d1.map (·.x) else []]

/-- What RED_ROW gives for a row of the run it claims. -/
def redRowOut (c k : Cue) (prog : List (BitVec 64)) (x : RowIn) : RowOut :=
  let d (i : Nat) : List REl := (outRow c x (chainRow c prog x) (c.output i)).map OutElem.toREl
  redRowOp k.rdOpsel k.rdK (rmodeOf k.rdRmode) c.crColBase (d 92) (if oDest (c.output 94) = 3 then d 94 else [])

/-- The state behind one row of a RED_ROW. -/
def State.redDone (s : State) (u : Nat) (f g : Flight) (j : Nat) (x : RowIn) : State :=
  let o := redRowOut f.q.cue g.q.cue (s.program u f.q.cue.crProg) x
  ((((s.redTaken u f g j x).redCounts o.e o.sat (nanElems [o.o0]) o.empty).putOuts g.q.cue u j [o.o0, o.o1]).countMod
    (R.choRuRows u) 1).rowCounted u f.q.cue.cols

theorem State.claimRow_takes {s : State} {u : Nat} {f g : Flight} {run : URun} (hf : s.flight f.q.uid = some f)
    (hr : s.runOf u f.q.uid = some run) (hleft : s.rowsDone u f run = false) {x : RowIn} (hrow : s.rowIn u f run = some (.inl x))
    (hg : s.flight g.q.uid = some g) (hop : g.opcode = 0x30) :
    s.claimRow u f.q.uid g.q.uid = some (s.redDone u f g run.j x) := by
  unfold State.claimRow
  rw [hf, hg, hr]
  dsimp only
  rw [if_neg (by simp [hleft]), if_neg (by omega), hrow]
  dsimp only
  rw [if_neg (show ¬(g.opcode = 0x32 ∧ g.q.cue.rdCarryZero = false) by omega), if_pos hop]
  rfl

theorem KeptBut.redTaken (s : State) (u : Nat) (f g : Flight) (j : Nat) (x : RowIn) :
    KeptBut [.arr, .cho, .lanes, .freeCtr, .choR] s (s.redTaken u f g j x) := by
  have hput : KeptBut [.arr, .cho, .lanes, .freeCtr, .choR] s ((s.rowTaken u f x ((s.rowUsed u f x).program u f.q.cue.crProg)).putRun u f.q.cue j x
      (chainRow f.q.cue (s.program u f.q.cue.crProg) x)) :=
    (kept_putRun ..).but.step (by decide) ((KeptBut.rowTaken ..).mono (by decide))
  unfold State.redTaken
  dsimp only
  split
  · exact hput
  · exact (KeptBut.useStore ..).step (by decide) hput

theorem KeptBut.redDone (s : State) (u : Nat) (f g : Flight) (j : Nat) (x : RowIn) :
    KeptBut [.arr, .cho, .lanes, .freeCtr, .choR] s (s.redDone u f g j x) := by
  unfold State.redDone
  dsimp only
  refine (kept_rowCounted ..).but.step (by decide) ((KeptBut.countRow ..).step (by decide) ?_)
  exact (kept_putOuts ..).but.step (by decide) ((kept_redCounts ..).but.step (by decide) (KeptBut.redTaken ..))

/-- What the run's row leaves as it was: the place of the run, the lanes where its outputs go to none, and the row count. -/
theorem State.redTaken_spec (s : State) (u : Nat) (f g : Flight) (j : Nat) (x : RowIn) {t : State} (ht : t = s.redTaken u f g j x) :
    (t.unit u).place = (s.unit u).place ∧ ((∀ o ∈ f.q.cue.outputs, oDest o ≠ 1) → ∀ key, NMap.get [] t.lanes key = NMap.get [] s.lanes key) ∧
      t.reg (R.choRuRows u) = s.reg (R.choRuRows u) := by
  have hput : ∀ v, v = (s.rowTaken u f x ((s.rowUsed u f x).program u f.q.cue.crProg)).putRun u f.q.cue j x
      (chainRow f.q.cue (s.program u f.q.cue.crProg) x) → (v.unit u).place = (s.unit u).place ∧
      ((∀ o ∈ f.q.cue.outputs, oDest o ≠ 1) → ∀ key, NMap.get [] v.lanes key = NMap.get [] s.lanes key) ∧
        v.reg (R.choRuRows u) = s.reg (R.choRuRows u) := by
    rintro v rfl
    refine ⟨(State.place_putRun ..).1.trans (State.place_rowTaken ..), fun hout key => ?_, ?_⟩
    · have htaken := (KeptBut.rowTaken s u f x ((s.rowUsed u f x).program u f.q.cue.crProg)).same .lanes (by decide)
      rw [← htaken, State.putRun_eq]
      have hmem : ∀ p ∈ f.q.cue.outputs.zipIdx, oDest p.1 ≠ 1 := fun p hp => hout p.1 (List.fst_mem_of_mem_zipIdx hp)
      generalize f.q.cue.outputs.zipIdx = outs at hmem ⊢
      generalize s.rowTaken u f x ((s.rowUsed u f x).program u f.q.cue.crProg) = v
      induction outs generalizing v with
      | nil => rfl
      | cons p outs ih =>
        refine (ih (fun p hp => hmem p (List.mem_cons_of_mem _ hp)) _).trans ?_
        exact (State.lanes_putOne v p.1 p.2 key).trans (if_neg fun h => hmem p List.mem_cons_self h.1)
    · exact (State.ruRows_putRun ..).trans ((KeptBut.rowTaken ..).reg (by simp))
  subst ht
  unfold State.redTaken
  dsimp only
  split
  · exact hput _ rfl
  · obtain ⟨hplace, hlanes, hreg⟩ := hput _ rfl
    exact ⟨(State.unitStays_useStore ..).2.trans hplace, hlanes, ((KeptBut.useStore ..).reg (by simp)).trans hreg⟩

theorem State.redDone_spec {s : State} {u : Nat} {f g : Flight} {run : URun} (hr : s.runOf u f.q.uid = some run) (x : RowIn)
    {t : State} (ht : t = s.redDone u f g run.j x) :
    t.reg (R.choRuRows u) = s.reg (R.choRuRows u) + 1 ∧ (∀ r, (t.unit u).run = some r → r.j = run.j + 1) ∧
      ((∀ o ∈ f.q.cue.outputs, oDest o ≠ 1) → ∀ i o row, (o, i) ∈ g.q.cue.outputs.zipIdx → oDest o = 1 →
        [(redRowOut f.q.cue g.q.cue (s.program u f.q.cue.crProg) x).o0,
          (redRowOut f.q.cue g.q.cue (s.program u f.q.cue.crProg) x).o1][i]? = some row →
        (∀ o' i', (o', i') ∈ g.q.cue.outputs.zipIdx → i' ≠ i → oDest o' ≠ 1) →
        NMap.get [] t.lanes (laneKey (oTarget o + (u - g.q.cue.firstUnit)) i u) =
          NMap.get [] s.lanes (laneKey (oTarget o + (u - g.q.cue.firstUnit)) i u) ++
            row.map fun y => ChoElem.mk y.kind y.bits y.e y.poison (!y.live)) := by
  subst ht
  obtain ⟨hplace, hlanes, hreg⟩ := State.redTaken_spec s u f g run.j x rfl
  unfold State.redDone
  dsimp only
  refine ⟨?_, fun r h => ?_, fun hout i o row hi ho hrow hothers => ?_⟩
  · rw [State.ruRows_rowCounted, State.reg_countMod_self, State.ruRows_putOuts, State.reg_redCounts _ _ _ _ _ (R.choRuRows_not_red u), hreg]
    rfl
  · rw [State.unit_rowCounted] at h
    refine (ChoUnit.place_next (uid := f.q.uid) (j := run.j) ?_ h).1
    rw [State.place_countMod, State.place_putOuts, (State.unitStays_redCounts ..).2, hplace]
    exact State.place_of_runOf hr
  · rw [(kept_rowCounted ..).but.same .lanes (by decide), (KeptBut.countRow ..).same .lanes (by decide),
      State.lanes_putOuts _ hi ho hrow hothers, (kept_redCounts ..).but.same .lanes (by decide), hlanes hout]

theorem unitRows_claim : Sys2Proof.Claims.UnitRows := by
  intro s u f run x hf hr hleft hrow c gives
  refine ⟨⟨_, State.krnRow_takes hf hr hleft hrow, State.ruRows_krnDone s u.val f run.j x, ?_⟩, fun g hg hop hout => ?_⟩
  · have hkept := KeptBut.krnDone s u.val f run.j x
    refine ⟨hkept.same .flights (by decide), hkept.same .queues (by decide), fun r => State.run_krnDone hr x,
      fun i o row hi ho hrow hothers => ?_⟩
    rw [State.lanes_krnDone, State.lanes_putOuts _ hi ho hrow hothers]
    rw [(KeptBut.krnCounted s u.val f run.j x).same .lanes (by decide)]
  · obtain ⟨hreg, hrun, hlanes⟩ := State.redDone_spec (g := g) hr x rfl
    have hkept := KeptBut.redDone s u.val f g run.j x
    refine ⟨_, State.claimRow_takes hf hr hleft hrow hg hop, hreg, hkept.same .flights (by decide), hkept.same .queues (by decide),
      hrun, hlanes hout⟩

/-- Settles O34: a row's operands, its outputs one after another, and its count, each with a lemma of its own. -/
theorem rowResults : Obligations.RowResults := ⟨chorusRow_claim, unitRows_claim⟩

end Sys2Proof.Machine
end

section
/-! SUPPORT. A transfer is armed and activated; credits return. -/

namespace Sys2Proof.Machine

/-! No read of memory changes a handle: errors it meets mark frames and move pages only (R232, R261). -/

theorem handles_retireNow (s : State) (f : Nat) : (s.retireNow f).prop.handles = s.prop.handles := by
  unfold State.retireNow
  split <;> rfl

theorem handles_retireGo (s : State) (f : Nat) : (s.retireGo f).prop.handles = s.prop.handles := by
  unfold State.retireGo
  split
  · rfl
  · split
    · split
      · rfl
      · exact handles_retireNow s f
    · dsimp only
      split
      · split <;> rfl
      · rfl

theorem handles_logRecord (s : State) (r : FaultRec) : (s.logRecord r).prop.handles = s.prop.handles :=
  congrArg PropTable.handles ((kept_logRecord s r).but.same .prop (by decide))

theorem handles_retireFrame (s : State) (addr : Nat) : (s.retireFrame addr).prop.handles = s.prop.handles := by
  unfold State.retireFrame
  dsimp only
  split
  · rfl
  · rw [handles_retireGo]
    exact handles_logRecord s _

theorem handles_watchWord (s : State) (w : Nat) : (s.watchWord w).prop.handles = s.prop.handles := by
  unfold State.watchWord
  dsimp only
  split
  · split
    · exact handles_retireFrame _ _
    · rfl
  · generalize (if s.mem.watch.length < 1024 then (s.mem.watch, false)
      else match findIdx? (fun e : Nat × Nat => e.2 == 1) s.mem.watch with
        | some i => (listDrop1 s.mem.watch i, true)
        | none => (s.mem.watch.drop 1, true)) = p
    rw [handles_logRecord]
    split <;> rfl

theorem handles_readWord (s : State) (w : Nat) : (s.readWord w).2.prop.handles = s.prop.handles := by
  unfold State.readWord
  dsimp only
  split
  · rfl
  · rfl
  · refine (handles_watchWord _ w).trans ?_
    exact congrArg PropTable.handles ((kept_queueCorr _ w false).but.same .prop (by decide))
  · refine (handles_retireFrame _ _).trans ?_
    exact (handles_logRecord _ _).trans
      (congrArg PropTable.handles ((kept_queueCorr _ w true).but.same .prop (by decide)))

theorem handles_readBytes (s : State) (engine addr n : Nat) : (s.readBytes engine addr n).2.prop.handles = s.prop.handles := by
  have hfold : ∀ (l : List Nat) (st : List (Byte × Bool) × State), (l.foldl (fun st i =>
      let q := st.2.readWord (addr / 64 + i)
      (st.1 ++ q.1.1.map (fun b => (b, q.1.2)), q.2)) st).2.prop.handles = st.2.prop.handles := by
    intro l
    induction l with
    | nil => exact fun _ => rfl
    | cons i l ih => exact fun st => (ih _).trans (handles_readWord st.2 _)
  exact hfold _ ([], s)

theorem State.mirrorOf_congr {s t : State} (h : t.prop.handles = s.prop.handles) (c : Cue) : t.mirrorOf c = s.mirrorOf c := by
  unfold State.mirrorOf State.handle
  rw [h]

/-! TRANSFER_ARM (R187, R193, R195). -/

@[simp] theorem State.flyEng_setFly (s : State) (e k : Nat) (v : FlyEng) : (s.setFly e v).flyEng k = if k = e then v else s.flyEng k :=
  NMap.get_set _ _ _ _ _

theorem State.flyEng_congr {s t : State} (h : t.fly = s.fly) (e : Nat) : t.flyEng e = s.flyEng e := by
  unfold State.flyEng; rw [h]

/-- A transfer as it is armed: its walk as its descriptor gives it, nothing read or moved. -/
def State.armedXfer (s : State) (f : Flight) (w : Walk) : Xfer :=
  { uid := f.q.uid, rank := w.rank, ext := w.ext, sstr := w.sstr, dstr := w.dstr
    sfmt := s.sideFmt f.q.cue f.q.cue.fSrcKind f.q.cue.fSrcId
    dfmt := s.sideFmt f.q.cue f.q.cue.fDstKind f.q.cue.fDstId
    total := w.total, mirror := s.mirrorOf f.q.cue, ordered := s.aliases f.q.cue w, st := 0, dt := 0, db := 0
    n := 0, asked := 0, inbox := [], ixs := [], seen := [], granted := 0, sent := 0, codes := [], scales := []
    poison := [], word := none, stall := false, pages := [] }

/-- What the walk descriptor's read gives. -/
def State.walkRead (s : State) (e : Nat) (c : Cue) : (List Byte × Bool) × State := s.readPlain (16 + e) c.fWalk 64

section
variable {s : State} {e : Nat} {f : Flight} (hempty : (s.flyEng e).armed = none) (hf : s.startable (16 + e) = some f)
include hempty hf

theorem State.transferArm_eq : s.transferArm e =
    if f.q.cue.fWalk % 64 ≠ 0 ∨ s.localRangeOk f.q.cue.fWalk 64 = false then
      (s.count R.propLocalRefused 1).engineHalt f.q.uid (16 + e) .localAddr
    else if (s.walkRead e f.q.cue).1.2 then (s.walkRead e f.q.cue).2.engineHalt f.q.uid (16 + e) .uncorrectableCue
    else match parseWalk (s.walkRead e f.q.cue).1.1 with
      | .inl code => (s.walkRead e f.q.cue).2.engineHalt f.q.uid (16 + e) code
      | .inr w => match leastCode ((s.walkRead e f.q.cue).2.armChecks f.q.cue w) with
        | some code => (s.walkRead e f.q.cue).2.engineHalt f.q.uid (16 + e) code
        | none => ((s.walkRead e f.q.cue).2.unqueueAt (16 + e) f.q.uid).setFly e
            { (s.walkRead e f.q.cue).2.flyEng e with armed := some ((s.walkRead e f.q.cue).2.armedXfer f w) } := by
  unfold State.transferArm
  rw [hempty, hf]
  rfl

end

theorem KeptBut.walkRead (s : State) (e : Nat) (c : Cue) : KeptBut [.mem, .prop, .trig, .propR, .fltR] s (s.walkRead e c).2 :=
  (kept_readPlain s ..).but

/-- The engine halts on a transfer it cannot arm, in a state in which only what the engine has read changed. -/
theorem State.armHalts {s t : State} {e : Fin 16} {f : Flight} (hf : s.startable (16 + e.val) = some f)
    (hkept : KeptBut [.mem, .prop, .trig, .propR, .fltR] s t) (code : Code) :
    s.haltsOn f (16 + e.val) code (t.engineHalt f.q.uid (16 + e.val) code) ∧
      (t.engineHalt f.q.uid (16 + e.val) code).fly = s.fly :=
  ⟨State.haltsOn_engineHalt ((State.flight_congr (hkept.same .flights (by decide)) _).trans (State.flight_of_startable hf))
    (hkept.same .lines (by decide)) (hkept.same .board (by decide)) (by omega) code,
    ((kept_engineHalt ..).but.same .fly (by decide)).trans (hkept.same .fly (by decide))⟩

theorem flyArm_claim : Sys2Proof.Claims.FlyArm := by
  intro s0 e f upset s hempty hf arm c r halts
  have heq := State.transferArm_eq hempty hf
  have hread : KeptBut [.mem, .prop, .trig, .propR, .fltR] s r.2 := KeptBut.walkRead s e.val c
  refine ⟨fun hbad => ?_, fun halign hrange => ?_⟩
  · rw [if_pos hbad] at heq
    have hcount : KeptBut [.mem, .prop, .trig, .propR, .fltR] s (s.count R.propLocalRefused 1) := (kept_count ..).but.mono (by decide)
    refine Ends.of rfl heq ⟨State.armHalts hf hcount .localAddr, ?_⟩
    rw [(kept_engineHalt ..).but.reg (by decide)]
    exact State.reg_count_self ..
  · rw [if_neg (not_or.2 ⟨not_not.2 halign, ne_false_of_eq_true hrange⟩)] at heq
    refine ⟨fun hbad => ?_, fun code hok hcode => ?_, fun w code hok hw hcode => ?_, fun w hok hw hcode => ?_⟩
    · rw [if_pos (show (s.walkRead e.val f.q.cue).1.2 = true from hbad)] at heq
      exact Ends.of rfl heq (State.armHalts hf hread .uncorrectableCue)
    · rw [if_neg (ne_true_of_eq_false (show (s.walkRead e.val f.q.cue).1.2 = false from hok)),
        show parseWalk (s.walkRead e.val f.q.cue).1.1 = .inl code from hcode] at heq
      exact Ends.of rfl heq (State.armHalts hf hread code)
    all_goals
      rw [if_neg (ne_true_of_eq_false (show (s.walkRead e.val f.q.cue).1.2 = false from hok)),
        show parseWalk (s.walkRead e.val f.q.cue).1.1 = .inr w from hw] at heq
      dsimp only at heq
    · rw [show leastCode ((s.walkRead e.val f.q.cue).2.armChecks f.q.cue w) = some code from hcode] at heq
      exact Ends.of rfl heq (State.armHalts hf hread code)
    · rw [show leastCode ((s.walkRead e.val f.q.cue).2.armChecks f.q.cue w) = none from hcode] at heq
      have hfly := State.flyEng_congr (hread.same .fly (by decide)) e.val
      refine Ends.of rfl heq ⟨⟨r.2.armedXfer f w, ?_, rfl, rfl, rfl, rfl, rfl, rfl, rfl,
        State.mirrorOf_congr (t := r.2) (handles_readBytes s (16 + e.val) c.fWalk 64) c⟩,
        ?_, ?_, State.not_mem_queue_unqueueAt r.2 (16 + e.val) f.q.uid, hread.same .flights (by decide), ?_⟩
      · rw [State.flyEng_setFly, if_pos rfl]; rfl
      · rw [State.flyEng_setFly, if_pos rfl, ← hfly]; rfl
      · rw [State.flyEng_setFly, if_pos rfl, ← hfly]; rfl
      · exact (kept_setFly ..).but.step (by decide) ((kept_unqueueAt ..).but.step (by decide) (hread.mono (by decide)))

/-! TRANSFER_ACTIVATE (R41, R194, R198, R200). -/

/-- A transfer as it starts, with the scales in force when its cue issued. -/
def Xfer.started (x : Xfer) (f : Flight) : Xfer :=
  let feeds : Bool := f.q.cue.fDstKind == 4 || f.q.cue.fDstKind == 5 || f.q.cue.fDstKind == 6
  { x with st := if f.q.cue.fSrcKind = 1 then f.q.st else 0
           dt := if feeds then f.q.ft else 0
           db := if feeds then f.q.fb else 0 }

/-- A transfer's cue has started, and its aliasing is counted. -/
def State.xferBegun (s : State) (e : Nat) (x : Xfer) : State :=
  let t := s.startFlight x.uid
  if x.ordered then t.count (R.flyAlias e) 1 else t

/-- The slots of an engine whose armed transfer becomes the active one, with its first credits. -/
def State.xferActive (s : State) (e : Nat) (f : Flight) (x : Xfer) : State :=
  let y := { x with granted := if kStream f.q.cue.fDstKind ∧ f.q.cue.fDstKind ≠ 5 then s.creditsLeft f.q.cue x else 0 }
  (s.setFly e { s.flyEng e with active := some y, armed := none }).takeHalf e f.q.cue y

/-- The first page of an active transfer that is not resident is asked for. -/
def State.xferAsks (s : State) (e : Nat) (pages : List Nat) : State :=
  match (s.pagesReady pages).1, (s.flyEng e).active with
  | false, some x => (s.pagesReady pages).2.setXfer e { x with stall := true, pages := pages }
  | _, _ => s

/-- Pages of a transfer's first elements on both sides. -/
def State.firstPages (s : State) (f : Flight) (x : Xfer) : List Nat :=
  if f.q.cue.gather = 0 then s.srcPages f.q.cue f.q.cue.fSrcBase ++ s.dstPages f.q.cue x f.q.cue.fDstBase else []

section
variable {s : State} {e : Nat} {x : Xfer} {f : Flight} (hactive : (s.flyEng e).active = none) (harmed : (s.flyEng e).armed = some x)
  (hf : s.flight x.uid = some f)
include hactive harmed hf

theorem State.transferActivate_waits (h : s.mayStart f = false ∨ s.destBusy f = true) : s.transferActivate e = s := by
  unfold State.transferActivate
  rw [hactive, harmed]
  dsimp only
  rw [hf]
  exact if_pos h

variable (hmay : s.mayStart f = true) (hbusy : s.destBusy f = false)
include hmay hbusy

theorem State.transferActivate_none (h : x.total = 0) : s.transferActivate e =
    ((s.xferBegun e (x.started f)).setFly e { (s.xferBegun e (x.started f)).flyEng e with armed := none }).flySettle x.uid := by
  unfold State.transferActivate
  rw [hactive, harmed]
  dsimp only
  rw [hf]
  dsimp only
  rw [if_neg (by simp [hmay, hbusy]), if_pos h]
  rfl

/-- The state in which the engine's slots hold the transfer it begins. -/
def State.xferTaken (s : State) (e : Nat) (x : Xfer) (f : Flight) : State := (s.xferBegun e (x.started f)).xferActive e f (x.started f)

theorem State.transferActivate_begins (h : x.total ≠ 0) : ∃ pages, s.transferActivate e = (s.xferTaken e x f).xferAsks e pages := by
  unfold State.transferActivate
  rw [hactive, harmed]
  dsimp only
  rw [hf]
  dsimp only
  rw [if_neg (by simp [hmay, hbusy]), if_neg h]
  exact ⟨_, rfl⟩

end

theorem State.transferActivate_idle {s : State} {e : Nat} (h : (s.flyEng e).active ≠ none ∨ (s.flyEng e).armed = none) :
    s.transferActivate e = s := by
  unfold State.transferActivate
  split
  · next hactive harmed => exact absurd hactive (h.resolve_right (by rw [harmed]; simp))
  · rfl

theorem State.fly_xferBegun (s : State) (e : Nat) (x : Xfer) : (s.xferBegun e x).fly = s.fly := by
  unfold State.xferBegun
  dsimp only
  split <;> rfl

theorem State.flights_xferBegun (s : State) (e : Nat) (x : Xfer) : (s.xferBegun e x).flights = (s.startFlight x.uid).flights := by
  unfold State.xferBegun
  dsimp only
  split <;> rfl

/-- A transfer replaced by a later state of itself, in the slot of the active one. -/
theorem State.active_setXfer {s : State} {e : Nat} {x y : Xfer} (h : (s.flyEng e).active = some x) (huid : y.uid = x.uid) :
    ((s.setXfer e y).flyEng e).active = some y ∧ ((s.setXfer e y).flyEng e).armed = (s.flyEng e).armed := by
  unfold State.setXfer
  rw [State.flyEng_setFly, if_pos rfl]
  refine ⟨?_, rfl⟩
  show (s.flyEng e).active.map (fun z => if z.uid = y.uid then y else z) = some y
  rw [h, Option.map_some, if_pos huid.symm]

theorem State.active_takeHalf {s : State} {e : Nat} {x : Xfer} (h : (s.flyEng e).active = some x) (c : Cue) : ∃ granted : Nat,
    ((s.takeHalf e c x).flyEng e).active = some { x with granted := granted } ∧
      ((s.takeHalf e c x).flyEng e).armed = (s.flyEng e).armed := by
  unfold State.takeHalf
  dsimp only
  split
  · exact ⟨_, State.active_setXfer (s := s.setHalf _ _) (y := { x with granted := (s.destRoom c x).1 / 4096 }) h rfl⟩
  · exact ⟨x.granted, h, rfl⟩

/-- The slots behind an activation: the armed one is free, and the active one holds the transfer. -/
theorem State.active_xferActive (s : State) (e : Nat) (f : Flight) (x : Xfer) : ∃ granted : Nat,
    ((s.xferActive e f x).flyEng e).active = some { x with granted := granted } ∧ ((s.xferActive e f x).flyEng e).armed = none := by
  unfold State.xferActive
  dsimp only
  generalize (if kStream f.q.cue.fDstKind = true ∧ f.q.cue.fDstKind ≠ 5 then s.creditsLeft f.q.cue x else 0) = first
  have hset : (s.setFly e { s.flyEng e with active := some { x with granted := first }, armed := none }).flyEng e =
      { s.flyEng e with active := some { x with granted := first }, armed := none } := by rw [State.flyEng_setFly, if_pos rfl]
  obtain ⟨granted, hactive, harmed⟩ := State.active_takeHalf (congrArg FlyEng.active hset) f.q.cue
  exact ⟨granted, hactive, harmed.trans (congrArg FlyEng.armed hset)⟩

theorem State.active_xferAsks {s : State} {e : Nat} {x : Xfer} (h : (s.flyEng e).active = some x) (pages : List Nat) :
    ∃ y, ((s.xferAsks e pages).flyEng e).active = some y ∧ (y = x ∨ y = { x with stall := true, pages := pages }) ∧
      ((s.xferAsks e pages).flyEng e).armed = (s.flyEng e).armed := by
  have hready := State.flyEng_congr ((kept_pagesReady s pages).but.same .fly (by decide)) e
  unfold State.xferAsks
  rw [h]
  split
  · next z _ hz =>
    obtain rfl : x = z := Option.some.inj hz
    obtain ⟨hactive, harmed⟩ := State.active_setXfer (s := (s.pagesReady pages).2) (e := e)
      (y := { x with stall := true, pages := pages }) ((congrArg FlyEng.active hready).trans h) rfl
    exact ⟨_, hactive, Or.inr rfl, harmed.trans (congrArg FlyEng.armed hready)⟩
  · exact ⟨x, h, Or.inl rfl, rfl⟩

theorem State.flights_xferAsks (s : State) (e : Nat) (pages : List Nat) : (s.xferAsks e pages).flights = s.flights := by
  unfold State.xferAsks
  split
  · exact ((kept_setXfer ..).but.same .flights (by decide)).trans ((kept_pagesReady ..).but.same .flights (by decide))
  · rfl

theorem State.flights_xferTaken (s : State) (e : Nat) (x : Xfer) (f : Flight) :
    (s.xferTaken e x f).flights = (s.startFlight x.uid).flights :=
  ((kept_takeHalf ..).but.same .flights (by decide)).trans (State.flights_xferBegun ..)

/-! CREDIT_RETURN (R199). -/

section
variable {s : State} {e : Nat} {x : Xfer} {f : Flight} (hactive : (s.flyEng e).active = some x) (hf : s.flight x.uid = some f) (n : Nat)
include hactive hf

theorem State.creditReturn_eq : s.creditReturn e n =
    if f.q.cue.fDstKind = 5 then s.takeHalf e f.q.cue x
    else if kStream f.q.cue.fDstKind then s.setXfer e { x with granted := x.granted + min n (s.creditsLeft f.q.cue x) } else s := by
  unfold State.creditReturn
  rw [hactive]
  dsimp only
  rw [hf]

end

theorem State.creditReturn_idle {s : State} {e : Nat} (h : (s.flyEng e).active = none) (n : Nat) : s.creditReturn e n = s := by
  unfold State.creditReturn
  rw [h]

theorem State.half_congr {s t : State} (h : t.arr = s.arr) (k : Nat) : t.half k = s.half k := by
  unfold State.half; rw [h]

theorem State.half_setHalf (s : State) (k : Nat) (v : WHalf) : (s.setHalf k v).half k = v := by
  unfold State.half State.setHalf
  exact NMap.get_set_self _ _ _ _

theorem kStream_five : kStream 5 = true := rfl

theorem flyActivate_claim : Sys2Proof.Claims.FlyActivate := by
  intro s e x
  refine ⟨fun f hactive harmed hf => ⟨fun h => Ends.of rfl (State.transferActivate_waits hactive harmed hf h) rfl,
    fun hmay hbusy htotal => ?_, fun hmay hbusy htotal => ?_⟩,
    fun h => Ends.of rfl (State.transferActivate_idle h) rfl, fun f n hactive hf => ⟨fun hkind => ?_, fun hkind => ?_, fun hkind => ?_⟩,
    fun n h => Ends.of rfl (State.creditReturn_idle h n) rfl⟩
  · obtain ⟨pages, heq⟩ := State.transferActivate_begins hactive harmed hf hmay hbusy htotal
    obtain ⟨granted, htaken, hfree⟩ := State.active_xferActive (s.xferBegun e.val (x.started f)) e.val f (x.started f)
    obtain ⟨y, hy, hsame, harmed'⟩ := State.active_xferAsks (s := s.xferTaken e.val x f) htaken pages
    refine Ends.of rfl heq ⟨harmed'.trans hfree, ⟨y, hy, ?_⟩, fun g hg => ?_⟩
    · rcases hsame with rfl | rfl <;> exact ⟨rfl, rfl, rfl, rfl, rfl, rfl, rfl⟩
    · rw [State.flight_congr ((State.flights_xferAsks ..).trans (State.flights_xferTaken ..))] at hg
      exact State.stage_flight_startFlight hg
  · refine Ends.of rfl (State.transferActivate_none hactive harmed hf hmay hbusy htotal) ?_
    rw [State.flyEng_congr ((kept_flySettle ..).but.same .fly (by decide)), State.flyEng_setFly, if_pos rfl,
      State.flyEng_congr (State.fly_xferBegun ..)]
  · have heq := State.creditReturn_eq hactive hf n
    rw [if_neg (by omega), if_pos (by rcases hkind with h | h <;> rw [h] <;> rfl)] at heq
    obtain ⟨hnew, harmed⟩ := State.active_setXfer (y := { x with granted := x.granted + min n (s.creditsLeft f.q.cue x) }) hactive rfl
    exact Ends.of rfl heq ⟨hnew, harmed, (kept_setXfer ..).but⟩
  · intro k
    have heq := State.creditReturn_eq hactive hf n
    rw [if_pos hkind, State.takeHalf] at heq
    refine ⟨fun hgranted hhalf hcfg => ?_, fun hno => ?_⟩
    · rw [if_pos ⟨hkind, hgranted, hhalf, hcfg⟩] at heq
      have hset := (kept_setXfer (s.setHalf k (.filling x.uid)) e.val { x with granted := (s.destRoom f.q.cue x).1 / 4096 }).but
      refine Ends.of rfl heq ⟨?_, (State.active_setXfer (s := s.setHalf k (.filling x.uid))
        (y := { x with granted := (s.destRoom f.q.cue x).1 / 4096 }) hactive rfl).1,
        hset.step (by decide) ((kept_setHalf ..).but.mono (by decide))⟩
      exact (State.half_congr (hset.same .arr (by decide)) k).trans (State.half_setHalf s k _)
    · rw [if_neg fun h => by
        obtain ⟨-, hgranted, hhalf, hcfg⟩ := h
        rcases hno with h | h | h
        · exact h hgranted
        · exact h hhalf
        · rw [hcfg] at h; exact nomatch h] at heq
      exact Ends.of rfl heq rfl
  · have heq := State.creditReturn_eq hactive hf n
    have hfive : f.q.cue.fDstKind ≠ 5 := fun h => by
      rw [h, kStream_five] at hkind
      exact nomatch hkind
    rw [if_neg hfive, if_neg (ne_true_of_eq_false hkind)] at heq
    exact Ends.of rfl heq rfl

/-- Settles O38: arming by what its checks say, activation by whether the transfer may begin, credits by the destination. -/
theorem flyStart : Obligations.FlyStart := ⟨flyArm_claim, flyActivate_claim⟩

end Sys2Proof.Machine
end

section
/-! SUPPORT. FLY_MOVE: the transfer that moves stays the same transfer and goes on by whole groups; a CONST element for a
region of a stage buffer. -/

namespace Sys2Proof.Machine

/-! The transfer that moves on an engine (R191, R194). -/

/-- What a transfer is and how far it has come. -/
def Xfer.core (x : Xfer) : Nat × Nat × Nat × Nat × Nat := (x.uid, x.total, x.sfmt, x.dfmt, x.n)

/-- The engine moves one transfer, and it is the one given. -/
def State.movesOn (s : State) (e : Nat) (k : Nat × Nat × Nat × Nat × Nat) : Prop := (s.flyEng e).moving.map Xfer.core = [k]

variable {s t : State} {e : Nat} {k : Nat × Nat × Nat × Nat × Nat}

theorem State.movesOn_congr (h : s.movesOn e k) (hfly : t.fly = s.fly) : t.movesOn e k := by
  unfold State.movesOn
  rw [State.flyEng_congr hfly]
  exact h

theorem State.movesOn_of_kept {m : List Field} (h : s.movesOn e k) (hkept : Kept m s t) (hm : .fly ∉ m) :
    t.movesOn e k := State.movesOn_congr h (hkept.but.same .fly hm)

theorem State.core_of_mem (h : s.movesOn e k) {x : Xfer} (hx : x ∈ (s.flyEng e).moving) : x.core = k := by
  have : x.core ∈ (s.flyEng e).moving.map Xfer.core := List.mem_map.2 ⟨x, hx, rfl⟩
  rw [show (s.flyEng e).moving.map Xfer.core = [k] from h] at this
  exact List.mem_singleton.1 this

theorem State.core_of_find (h : s.movesOn e k) {uid : Nat} {x : Xfer} (hx : (s.flyEng e).find uid = some x) : x.core = k :=
  State.core_of_mem h (List.mem_of_find?_eq_some hx)

theorem State.core_of_cur (h : s.movesOn e k) {x : Xfer} (hx : (s.flyEng e).cur = some x) : x.core = k :=
  State.core_of_mem h (List.mem_of_head? hx)

theorem State.core_of_active (h : s.movesOn e k) {x : Xfer} (hx : (s.flyEng e).active = some x) : x.core = k :=
  State.core_of_mem h (List.mem_append_right _ (by rw [hx]; exact List.mem_singleton_self x))

theorem FlyEng.moving_put (g : FlyEng) (x : Xfer) : (g.put x).moving = g.moving.map fun y => if y.uid = x.uid then x else y := by
  unfold FlyEng.moving FlyEng.put
  cases g.active <;> simp

theorem State.movesOn_setXfer (h : s.movesOn e k) {x : Xfer} (hx : x.core = k) : (s.setXfer e x).movesOn e k := by
  unfold State.movesOn State.setXfer
  rw [State.flyEng_setFly, if_pos rfl, FlyEng.moving_put, List.map_map]
  refine (List.map_congr_left fun y hy => ?_).trans h
  show Xfer.core (if y.uid = x.uid then x else y) = y.core
  split
  · rw [hx, State.core_of_mem h hy]
  · rfl

theorem State.movesOn_updXfer (h : s.movesOn e k) (uid : Nat) {f : Xfer → Xfer} (hf : ∀ x, (f x).core = x.core) :
    (s.updXfer e uid f).movesOn e k := by
  unfold State.updXfer
  split
  · next x hx => exact State.movesOn_setXfer h ((hf x).trans (State.core_of_find h hx))
  · exact h

theorem State.movesOn_foldl {α : Type} {f : State → α → State} (hf : ∀ s a, s.movesOn e k → (f s a).movesOn e k) :
    ∀ (l : List α) (s : State), s.movesOn e k → (l.foldl f s).movesOn e k
  | [], _, h => h
  | a :: l, s, h => State.movesOn_foldl hf l (f s a) (hf s a h)

/-! Reads of a moving transfer. -/

theorem State.movesOn_readMerged (h : s.movesOn e k) (uid j hd b n : Nat) : (s.readMerged e uid j hd b n).2.movesOn e k := by
  unfold State.readMerged
  split
  · next x _ hx =>
    split
    · exact h
    · have hcore := State.core_of_find h hx
      exact State.movesOn_setXfer (State.movesOn_of_kept h (kept_readHandle ..) (by decide)) hcore
  · exact State.movesOn_of_kept h (kept_readHandle ..) (by decide)

theorem State.movesOn_readIndex (h : s.movesOn e k) (c : Cue) (x : Xfer) (pos : Nat) : (s.readIndex e c x pos).2.movesOn e k := by
  have hread := State.movesOn_readMerged h x.uid 0 c.fIndexHandle (4 * indexElem c x pos) 4
  unfold State.readIndex
  dsimp only
  split
  · exact hread
  · split <;> exact hread

theorem State.movesOn_readIndices (h : s.movesOn e k) (c : Cue) (x : Xfer) (pos : Nat) : (s.readIndices e c x pos).movesOn e k := by
  unfold State.readIndices
  split
  · exact h
  · refine State.movesOn_foldl (fun s p hs => ?_) _ s h
    have hread := State.movesOn_readIndex hs c x p
    refine State.movesOn_updXfer hread x.uid fun y => ?_
    rfl

theorem State.movesOn_readNear (h : s.movesOn e k) (c : Cue) (x : Xfer) (o : Nat) : (s.readNear e c x o).2.movesOn e k := by
  unfold State.readNear
  dsimp only
  split
  · split
    · have hcodes := State.movesOn_readMerged h x.uid 1 c.fSrcId (elemByte (fmtD x.sfmt) o) 16
      exact State.movesOn_readMerged hcodes x.uid 2 c.fSrcId (scaleByte (s.handle c.fSrcId).elems o) 1
    · exact State.movesOn_readMerged h x.uid 1 c.fSrcId (elemByte (fmtD x.sfmt) o) ((fmtD x.sfmt).bits / 8)
  · exact h

theorem State.movesOn_readNears (h : s.movesOn e k) (c : Cue) (x : Xfer) (bad : List Bool) :
    ∀ (l : List (Option Int × Nat)) (st : List SrcEl × State), st.2.movesOn e k →
      (l.foldl (fun (st : List SrcEl × State) (o, i) => match o with
        | some o => let r := st.2.readNear e c x o.toNat
                    (st.1 ++ r.1, r.2)
        | none => (st.1 ++ [fillEl (fmtD x.sfmt) c (listGet false bad i)], st.2)) st).2.movesOn e k
  | [], _, hst => hst
  | (o, i) :: l, st, hst => by
    refine State.movesOn_readNears h c x bad l _ ?_
    cases o with
    | none => exact hst
    | some o => exact State.movesOn_readNear hst c x o.toNat

theorem State.movesOn_sourceGroup (h : s.movesOn e k) (f : Flight) (x : Xfer) (g : Nat) (offs : List (Option Int)) (bad : List Bool) :
    (s.sourceGroup e f x g offs bad).2.movesOn e k := by
  unfold State.sourceGroup
  dsimp only
  split
  · exact h
  · split
    · exact h
    · exact State.movesOn_congr h rfl
  · split
    · exact h
    · split
      · split <;> exact h
      · exact h
  · split
    · exact h
    · split
      · split <;> exact h
      · exact h
  · split
    · split
      · exact State.movesOn_readNear h ..
      · exact h
    · exact State.movesOn_readNears h f.q.cue x bad _ ([], s) h

/-! Far reads ahead of the walk, and the slot given up (R194, R199). -/

theorem State.movesOn_takeHalf (h : s.movesOn e k) (c : Cue) {x : Xfer} (hx : x.core = k) : (s.takeHalf e c x).movesOn e k := by
  unfold State.takeHalf
  dsimp only
  split
  · exact State.movesOn_setXfer (State.movesOn_of_kept h (kept_setHalf ..) (by decide)) hx
  · exact h

/-- The next far element is asked for, once its backstage word is free: it joins the run, or the run goes out. -/
def State.askElem (s : State) (f : Flight) (x : Xfer) (only : Bool) (r : Option FarRun) (o : Int) : Option (State × Option FarRun) :=
  let c := f.q.cue
  let a := farAddr c (fmtD x.sfmt) o.toNat
  if c.fSrcKind = 3 ∧ (s.wordBusy a ∨ ((fmtD x.sfmt).isBlock ∧ s.wordBusy (s.farScale c o.toNat))) then none
  else match r.bind fun r => r.join c.fSrcKind (groupBytes (fmtD x.sfmt)) x.group x.asked a with
    | some r => some (s.askScale f x x.asked o, some r)
    | none => if only then none else some ((s.askFarRun f x r).askScale f x x.asked o, some ⟨x.asked, a, 1⟩)

theorem State.movesOn_askElem (h : s.movesOn e k) {f : Flight} {x : Xfer} {only : Bool} {r : Option FarRun} {o : Int}
    {st : State × Option FarRun} (hst : s.askElem f x only r o = some st) : st.1.movesOn e k := by
  unfold State.askElem at hst
  dsimp only at hst
  split at hst
  · exact nomatch hst
  · split at hst
    · exact Option.some.inj hst ▸ State.movesOn_of_kept h (kept_askScale ..) (by decide)
    · split at hst
      · exact nomatch hst
      · exact Option.some.inj hst ▸
          State.movesOn_of_kept (State.movesOn_of_kept h (kept_askFarRun ..) (by decide)) (kept_askScale ..) (by decide)

theorem State.movesOn_askGroup {f : Flight} {only : Bool} {st st' : State × Option FarRun} (h : st.1.movesOn e k)
    (hst : State.askGroup e f only st = some st') : st'.1.movesOn e k := by
  unfold State.askGroup at hst
  dsimp only at hst
  split at hst
  · exact nomatch hst
  · next x hx =>
    split at hst
    · exact nomatch hst
    · split at hst
      · exact nomatch hst
      · by_cases hg : f.q.cue.gather = 1
        · simp only [if_pos hg] at hst
          have hasked : ((st.1.readIndices e f.q.cue x x.asked).updXfer e x.uid fun y =>
              { y with asked := y.asked + x.group }).movesOn e k :=
            State.movesOn_updXfer (State.movesOn_readIndices h ..) x.uid fun y => rfl
          split at hst
          · split at hst
            · exact nomatch hst
            · exact Option.some.inj hst ▸ hasked
          · exact State.movesOn_askElem hasked hst
        · simp only [if_neg hg] at hst
          have hasked : (st.1.updXfer e x.uid fun y => { y with asked := y.asked + x.group }).movesOn e k :=
            State.movesOn_updXfer h x.uid fun y => rfl
          exact State.movesOn_askElem hasked hst

/-- What each step of a loop keeps, the loop keeps. -/
theorem iterWhile_induct {σ : Type} {P : σ → Prop} {f : σ → Option σ} (hf : ∀ a b, P a → f a = some b → P b) :
    ∀ (n : Nat) (a : σ), P a → P (iterWhile n f a)
  | 0, _, h => h
  | n + 1, a, h => by
    unfold iterWhile
    split
    · exact h
    · next b hb => exact iterWhile_induct hf n b (hf a b h hb)

theorem State.movesOn_askAhead (h : s.movesOn e k) (f : Flight) (n : Nat) : (s.askAhead e f n).movesOn e k := by
  have hloop : ∀ (only : Bool) (n : Nat) (st : State × Option FarRun), st.1.movesOn e k →
      (iterWhile n (State.askGroup e f only) st).1.movesOn e k := fun only n st hst =>
    iterWhile_induct (P := fun st => st.1.movesOn e k) (fun _ _ ha hb => State.movesOn_askGroup ha hb) n st hst
  unfold State.askAhead
  split
  · exact h
  · have hends := hloop true 512 _ (hloop false n (s, none) h)
    dsimp only
    split
    · exact State.movesOn_of_kept hends (kept_askFarRun ..) (by decide)
    · exact hends

theorem State.movesOn_toDrain (h : s.movesOn e k) : (s.toDrain e).movesOn e k := by
  unfold State.toDrain
  dsimp only
  split
  · exact h
  · next x hx =>
    split
    · exact h
    · split
      · unfold State.movesOn at h ⊢
        rw [State.flyEng_setFly, if_pos rfl, ← h]
        simp [FlyEng.moving, hx]
      · exact h

theorem State.movesOn_flyAsk (h : s.movesOn e k) (n : Nat) : (s.flyAsk e n).movesOn e k := by
  unfold State.flyAsk
  split
  · exact h
  · next x hx =>
    split
    · exact h
    · exact State.movesOn_toDrain (State.movesOn_askAhead (State.movesOn_takeHalf h _ (State.core_of_active h hx)) ..)

/-! A group written where the destination lies. -/

theorem State.movesOn_flushRemote (h : s.movesOn e k) (f : Flight) : (s.flushRemote e f).movesOn e k := by
  unfold State.flushRemote
  split
  · next x hx =>
    split
    · have hcore := State.core_of_find h hx
      exact State.movesOn_of_kept (State.movesOn_setXfer (x := { x with word := none }) h hcore) (kept_sendWrite ..) (by decide)
    · exact h
  · exact h

theorem State.movesOn_putRemote (h : s.movesOn e k) (f : Flight) (a : Nat) (l : List Byte) : (s.putRemote e f a l).movesOn e k := by
  unfold State.putRemote
  dsimp only
  split
  · split
    · exact State.movesOn_updXfer h f.q.uid fun _ => rfl
    · exact State.movesOn_updXfer (State.movesOn_flushRemote h f) f.q.uid fun _ => rfl
  · exact State.movesOn_updXfer h f.q.uid fun _ => rfl

theorem State.movesOn_flushWord (h : s.movesOn e k) {x : Xfer} (hx : x.core = k) (ht : s.flushWord e x = some t) :
    t.movesOn e k := by
  unfold State.flushWord at ht
  split at ht
  · exact Option.some.inj ht ▸ h
  · have hset : (s.setXfer e { x with word := none }).movesOn e k := State.movesOn_setXfer h hx
    dsimp only at ht
    split at ht
    · exact nomatch ht
    · split at ht <;> exact Option.some.inj ht ▸ State.movesOn_of_kept hset (kept_bsSend ..) (by decide)

theorem State.movesOn_putBackstage (h : s.movesOn e k) {uid a : Nat} {l : List Byte} (ht : s.putBackstage e uid a l = some t) :
    t.movesOn e k := by
  unfold State.putBackstage at ht
  split at ht
  · exact nomatch ht
  · next x hx =>
    have hcore := State.core_of_find h hx
    dsimp only at ht
    split at ht
    · split at ht
      · exact Option.some.inj ht ▸ State.movesOn_setXfer h hcore
      · obtain ⟨v, hv, rfl⟩ := Option.map_eq_some_iff.1 ht
        have hflushed := State.movesOn_flushWord h hcore hv
        refine State.movesOn_updXfer hflushed uid fun y => ?_
        rfl
    · exact Option.some.inj ht ▸ State.movesOn_setXfer h hcore

theorem State.movesOn_pushRow (h : s.movesOn e k) (c : Cue) {x : Xfer} (hx : x.core = k) :
    ((s.pushRow c x).2.setXfer e (s.pushRow c x).1).movesOn e k := by
  unfold State.pushRow
  split
  · exact State.movesOn_setXfer h hx
  · exact State.movesOn_setXfer (State.movesOn_of_kept h (kept_setFeed ..) (by decide)) hx

theorem State.movesOn_putStream (h : s.movesOn e k) (c : Cue) (uid : Nat) (els : List SrcEl) (o : OutGroup) :
    (s.putStream e c uid els o).movesOn e k := by
  unfold State.putStream
  split
  · exact h
  · next x hx =>
    have hcore := State.core_of_find h hx
    dsimp only
    split
    · have hunit := State.movesOn_of_kept h (kept_updUnit s (c.fDstId % 8) fun u => u.setElems (c.fDstId / 8 % 4)
        (u.elems (c.fDstId / 8 % 4) ++ (els.zip o.codes).map fun (y, k) => (⟨x.dfmt, x.dt, k, y.poison⟩ : PElem))) (by decide)
      exact State.movesOn_setXfer hunit hcore
    · split
      · exact State.movesOn_pushRow h c hcore
      · exact State.movesOn_setXfer h hcore

/-- An element of a group of a format without block scales written to a handle. -/
def State.putHandleElem (e : Nat) (f : Flight) (x : Xfer) (s : State) : (SrcEl × Option Int) × Nat → State
  | ((y, o), i) => match o with
    | none => s
    | some o =>
      if y.masked then s
      else
        let c := f.q.cue
        let df := fmtD x.dfmt
        let far := kFar c.fSrcKind
        let nanOf := (y.val (y.fmt (fmtD x.sfmt) (c.fSrcKind == 8)) x.st).isNan
        let s := if far then s else s.handlePassOpen c.fDstId
        let t := s.handleT c.fDstId
        let r := s.flyRnd f (x.n + i) o
        let sf := y.fmt (fmtD x.sfmt) (c.fSrcKind == 8)
        let cur := if c.fAcc then s.readMerged e x.uid 3 c.fDstId (elemByte df o.toNat) (df.bits / 8) else (([], false), s)
        let v := if far then (listGet 0 (movedCodes df [y]).1 0, false)
          else if c.fAcc then accumulate1 df t r (numOf cur.1.1) cur.1.2 sf x.st y
          else convertEl df t r sf x.st y
        let nan := if far then false else if df.isInt then nanOf else (decodeElem df v.1).isNan
        (cur.2.putHandle e f x df t o.toNat v.1 nan far).flyCounts e df (if v.2 then 1 else 0) (if nanOf then 1 else 0) 0 0 (df.bits / 8)

theorem State.movesOn_putHandleElem (h : s.movesOn e k) (f : Flight) (x : Xfer) (p : (SrcEl × Option Int) × Nat) :
    (State.putHandleElem e f x s p).movesOn e k := by
  obtain ⟨⟨y, o⟩, i⟩ := p
  unfold State.putHandleElem
  dsimp only
  split
  · exact h
  · split
    · exact h
    · have hopen : (if kFar f.q.cue.fSrcKind then s else s.handlePassOpen f.q.cue.fDstId).movesOn e k := by
        split
        · exact h
        · exact State.movesOn_of_kept h (kept_handlePassOpen ..) (by decide)
      refine State.movesOn_of_kept (State.movesOn_of_kept ?_ (kept_putHandle ..) (by decide)) (kept_flyCounts ..) (by decide)
      split
      · exact State.movesOn_readMerged hopen ..
      · exact hopen

theorem State.movesOn_writeHandle (h : s.movesOn e k) (uid id hd b : Nat) (l : List Byte) :
    (s.writeHandle uid id hd b l).movesOn e k := State.movesOn_of_kept h (kept_writeHandle ..) (by decide)

theorem State.movesOn_putHandleGroup (h : s.movesOn e k) (f : Flight) (x : Xfer) (els : List SrcEl) (doffs : List (Option Int)) :
    (s.putHandleGroup e f x els doffs).movesOn e k := by
  by_cases hblock : (fmtD x.dfmt).isBlock = true
  · unfold State.putHandleGroup
    dsimp only
    rw [if_pos hblock]
    split
    · split
      · exact h
      · refine State.movesOn_of_kept ?_ (kept_flyCounts ..) (by decide)
        by_cases hfar : kFar f.q.cue.fSrcKind = true
        · simp only [if_pos hfar]
          refine State.movesOn_writeHandle ?_ ..
          exact State.movesOn_writeHandle h ..
        · simp only [if_neg hfar]
          refine State.movesOn_foldl (fun s p hs => ?_) _ _ ?_
          · split
            · exact hs
            · exact State.movesOn_of_kept hs (kept_handlePassNote ..) (by decide)
          · refine State.movesOn_writeHandle ?_ ..
            refine State.movesOn_writeHandle ?_ ..
            exact State.movesOn_of_kept h (kept_handlePassOpen ..) (by decide)
    · exact h
  · have heq : s.putHandleGroup e f x els doffs = (els.zip doffs).zipIdx.foldl (State.putHandleElem e f x) s := by
      unfold State.putHandleGroup
      dsimp only
      rw [if_neg hblock]
      rfl
    rw [heq]
    exact State.movesOn_foldl (fun s p hs => State.movesOn_putHandleElem hs f x p) _ s h

/-- An element of a group written to a region of a stage buffer. -/
def State.putRegion (e : Nat) (f : Flight) (x : Xfer) (s : State) : (SrcEl × Option Int) × Nat → State
  | ((y, o), i) => match o with
    | none => s
    | some o =>
      if y.masked then s
      else
        let c := f.q.cue
        let df := fmtD x.dfmt
        let sf := y.fmt (fmtD x.sfmt) (c.fSrcKind == 8)
        let r := s.flyRnd f (x.n + i) o
        let u := s.unit (c.fDstId % 8)
        let v := if kFar c.fSrcKind then (listGet 0 (movedCodes df [y]).1 0, false)
          else if c.fAcc then accumulate1 df 0 r (u.num (elemByte df o.toNat) (df.bits / 8))
            (u.bad (elemByte df o.toNat) (df.bits / 8)) sf x.st y
          else convertEl df 0 r sf x.st y
        (s.updUnit (c.fDstId % 8) fun u => u.setBytes (elemByte df o.toNat) (bytesOf (df.bits / 8) v.1) y.poison).flyCounts e df
          (if v.2 then 1 else 0) (if (y.val sf x.st).isNan then 1 else 0) 0 0 (df.bits / 8)

theorem State.putOther_region {f : Flight} (hkind : f.q.cue.fDstKind = 7) (s : State) (e : Nat) (x : Xfer) (els : List SrcEl)
    (doffs : List (Option Int)) :
    s.putOther e f x els doffs = some ((els.zip doffs).zipIdx.foldl (State.putRegion e f x) s) := by
  unfold State.putOther
  dsimp only
  rw [hkind]
  rfl

theorem State.movesOn_putRegion (h : s.movesOn e k) (f : Flight) (x : Xfer) (p : (SrcEl × Option Int) × Nat) :
    (State.putRegion e f x s p).movesOn e k := by
  obtain ⟨⟨y, o⟩, i⟩ := p
  unfold State.putRegion
  dsimp only
  split
  · exact h
  · split
    · exact h
    · exact State.movesOn_of_kept (State.movesOn_of_kept h (kept_updUnit ..) (by decide)) (kept_flyCounts ..) (by decide)

theorem State.movesOn_putOther (h : s.movesOn e k) {f : Flight} {x : Xfer} {els : List SrcEl} {doffs : List (Option Int)}
    (ht : s.putOther e f x els doffs = some t) : t.movesOn e k := by
  by_cases hkind : f.q.cue.fDstKind = 7
  · rw [State.putOther_region hkind] at ht
    exact Option.some.inj ht ▸ State.movesOn_foldl (fun s p hs => State.movesOn_putRegion hs f x p) _ s h
  · unfold State.putOther at ht
    dsimp only at ht
    split at ht
    · next hk => exact absurd hk hkind
    · split at ht
      · have hcounted (df : Fmt) (n b : Nat) : (s.flyCounts e df 0 n 0 0 b).movesOn e k :=
          State.movesOn_of_kept h (kept_flyCounts ..) (by decide)
        split at ht
        · obtain rfl := Option.some.inj ht
          split
          · refine State.movesOn_of_kept ?_ (kept_sendWrite ..) (by decide)
            exact State.movesOn_putRemote (hcounted ..) ..
          · exact State.movesOn_putRemote (hcounted ..) ..
        · split at ht
          · exact nomatch ht
          · next v hv =>
            have hput := State.movesOn_putBackstage (hcounted _ _ _) hv
            split at ht
            · exact State.movesOn_putBackstage hput ht
            · exact Option.some.inj ht ▸ hput
      · exact Option.some.inj ht ▸ h

theorem State.movesOn_putGroup (h : s.movesOn e k) {f : Flight} {x : Xfer} {els : List SrcEl} {doffs : List (Option Int)}
    (ht : s.putGroup e f x els doffs = some t) : t.movesOn e k := by
  unfold State.putGroup at ht
  dsimp only at ht
  split at ht
  · exact Option.some.inj ht ▸ State.movesOn_of_kept (State.movesOn_putStream h ..) (kept_flyCounts ..) (by decide)
  · split at ht
    · exact Option.some.inj ht ▸ State.movesOn_putHandleGroup h f x els doffs
    · exact State.movesOn_putOther h ht

/-! A group done, and the groups of a FLY_MOVE (R191). -/

theorem FlyEng.find_eq_of_moving {g : FlyEng} {y : Xfer} {uid : Nat} (h : g.moving = [y]) (huid : y.uid = uid) :
    g.find uid = some y := by
  unfold FlyEng.find
  rw [h]
  simp [huid]

/-- The transfer `n` groups further on. -/
def Xfer.onward (x : Xfer) (n : Nat) : Xfer := { x with n := x.n + n * x.group }

theorem State.movesOn_groupDone {x : Xfer} (h : s.movesOn e x.core) (c : Cue) (els : List SrcEl) (ix : List (Option Int)) :
    (s.groupDone e c x els ix).movesOn e (x.onward 1).core := by
  have hcounted : ((s.flyCounts e (fmtD x.dfmt) 0 0 (els.filter (·.poison)).length (ix.filter (·.isNone)).length 0).noteE e c
      els).movesOn e x.core :=
    State.movesOn_of_kept (State.movesOn_of_kept h (kept_flyCounts ..) (by decide)) (kept_noteE ..) (by decide)
  obtain ⟨y, hmoving, hy⟩ := List.map_eq_singleton_iff.1 hcounted
  have huid : y.uid = x.uid := congrArg (·.1) hy
  unfold State.groupDone State.updXfer State.movesOn
  dsimp only
  rw [FlyEng.find_eq_of_moving hmoving huid]
  dsimp only [State.setXfer]
  rw [State.flyEng_setFly, if_pos rfl, FlyEng.moving_put, hmoving]
  simp only [List.map_cons, List.map_nil, if_true]
  unfold Xfer.core at hy
  obtain ⟨h1, h2, h3, h4, h5⟩ : y.uid = x.uid ∧ y.total = x.total ∧ y.sfmt = x.sfmt ∧ y.dfmt = x.dfmt ∧ y.n = x.n := by
    simpa [Prod.mk.injEq] using hy
  simp [Xfer.core, Xfer.onward, Xfer.group, h1, h2, h3, h4, h5]

/-- What a group leaves of the transfer that moves: stuck, it is where it was; done, it is a group further on. -/
def Moved.movesOn (e : Nat) (x : Xfer) : Moved → Prop
  | .stuck t => t.movesOn e x.core
  | .on t => t.movesOn e (x.onward 1).core

theorem State.movesOn_pagesReady (h : s.movesOn e k) (l : List Nat) : (s.pagesReady l).2.movesOn e k :=
  State.movesOn_of_kept h (kept_pagesReady ..) (by decide)

theorem State.movesOn_of_source (h : s.movesOn e k) {f : Flight} {x : Xfer} {g : Nat} {offs : List (Option Int)} {bad : List Bool}
    {r : Option (List SrcEl)} (ht : s.sourceGroup e f x g offs bad = (r, t)) : t.movesOn e k := by
  have hsource := State.movesOn_sourceGroup h f x g offs bad
  rw [ht] at hsource
  exact hsource

theorem State.movesOn_moveGroup {x : Xfer} (h : s.movesOn e x.core) (f : Flight) : (s.moveGroup e f x).movesOn e x := by
  unfold State.moveGroup
  dsimp only
  have hupd (t : State) (ht : t.movesOn e x.core) (b : Bool) (l : List Nat) :
      (t.updXfer e x.uid fun y => { y with stall := b, pages := l }).movesOn e x.core :=
    State.movesOn_updXfer ht x.uid fun _ => rfl
  split
  · exact hupd _ (State.movesOn_pagesReady h _) true _
  · split
    · exact hupd _ h false _
    · split
      · next t ht => exact State.movesOn_of_source (hupd _ h false _) ht
      · next els t ht =>
        have htaken : t.movesOn e x.core := State.movesOn_of_source (hupd _ h false _) ht
        split
        · exact htaken
        · next v hv => exact State.movesOn_groupDone (State.movesOn_putGroup htaken hv) ..

theorem State.movesOn_flyGroup {x y : Xfer} (h : s.movesOn e x.core) (hy : (s.flyEng e).cur = some y) :
    (s.flyGroup e).movesOn e y := by
  have hcore := State.core_of_cur h hy
  rw [← hcore] at h
  unfold State.flyGroup
  rw [hy]
  dsimp only
  split
  · exact h
  · split
    · exact State.movesOn_updXfer (State.movesOn_pagesReady h _) y.uid fun _ => rfl
    · exact State.movesOn_moveGroup (State.movesOn_readIndices h ..) _

theorem Xfer.onward_zero (x : Xfer) : x.onward 0 = x := by simp [Xfer.onward]

theorem Xfer.onward_core {x y : Xfer} (h : y.core = x.core) (n : Nat) : (y.onward n).core = (x.onward n).core := by
  unfold Xfer.core at h
  obtain ⟨h1, h2, h3, h4, h5⟩ : y.uid = x.uid ∧ y.total = x.total ∧ y.sfmt = x.sfmt ∧ y.dfmt = x.dfmt ∧ y.n = x.n := by
    simpa [Prod.mk.injEq] using h
  simp [Xfer.core, Xfer.onward, Xfer.group, h1, h2, h3, h4, h5]

theorem Xfer.onward_onward (x : Xfer) (j : Nat) : (x.onward 1).onward j = x.onward (j + 1) := by
  have hn : x.n + 1 * x.group + j * x.group = x.n + (j + 1) * x.group := by rw [Nat.add_mul]; omega
  exact congrArg (fun n => { x with n := n }) hn

theorem State.movesOn_flyLoop : ∀ (n : Nat) (s : State) (x : Xfer), s.movesOn e x.core →
    ∃ j, j ≤ n ∧ (State.flyLoop n e s).movesOn e (x.onward j).core
  | 0, s, x, h => ⟨0, le_refl 0, by rw [Xfer.onward_zero]; exact h⟩
  | n + 1, s, x, h => by
    have hstay : ∃ j, j ≤ n + 1 ∧ s.movesOn e (x.onward j).core := ⟨0, Nat.zero_le _, by rw [Xfer.onward_zero]; exact h⟩
    unfold State.flyLoop
    split
    · exact hstay
    · next y hy =>
      have hgroup := State.movesOn_flyGroup h hy
      have hcore := State.core_of_cur h hy
      split
      · exact hstay
      · split
        · next t ht =>
          rw [ht] at hgroup
          exact ⟨0, Nat.zero_le _, by rw [Xfer.onward_zero, ← hcore]; exact hgroup⟩
        · next t ht =>
          rw [ht] at hgroup
          obtain ⟨j, hj, hon⟩ := State.movesOn_flyLoop n t (y.onward 1) hgroup
          exact ⟨j + 1, by omega, by rw [← Xfer.onward_core hcore, ← Xfer.onward_onward]; exact hon⟩

/-- A transfer whose engine still has it has come to `x.n`; one that has left had come to its end. -/
def State.cameTo (s : State) (e : Nat) (x : Xfer) : Prop :=
  (∀ y, (s.flyEng e).find x.uid = some y → y.total = x.total ∧ y.n = x.n) ∧
    ((s.flyEng e).find x.uid = none → x.total ≤ x.n)

theorem State.cameTo_of_movesOn {x : Xfer} (h : s.movesOn e x.core) : s.cameTo e x := by
  obtain ⟨y, hmoving, hy⟩ := List.map_eq_singleton_iff.1 h
  have hfind : (s.flyEng e).find x.uid = some y := FlyEng.find_eq_of_moving hmoving (congrArg (·.1) hy)
  unfold State.cameTo
  rw [hfind]
  refine ⟨fun z hz => ?_, fun h => nomatch h⟩
  obtain rfl := Option.some.inj hz
  exact ⟨congrArg (·.2.1) hy, congrArg (·.2.2.2.2) hy⟩

theorem FlyEng.find_drop (g : FlyEng) (uid : Nat) : (g.drop uid).find uid = none := by
  unfold FlyEng.find FlyEng.moving FlyEng.drop
  rw [List.find?_eq_none]
  intro y hy
  simp only [List.mem_append, List.mem_filter, Option.mem_toList, Option.filter_eq_some_iff] at hy
  rcases hy with ⟨-, h⟩ | ⟨-, h⟩ <;> simpa using h

theorem State.find_releaseActive (s : State) (e : Nat) (x : Xfer) : ((s.releaseActive e x).flyEng e).find x.uid = none := by
  unfold State.releaseActive
  dsimp only
  rw [State.flyEng_congr ((kept_flySettle ..).but.same .fly (by decide)), State.flyEng_setFly, if_pos rfl]
  exact FlyEng.find_drop ..

theorem State.cameTo_flyEnd {x : Xfer} (h : s.movesOn e x.core) : (s.flyEnd e).cameTo e x := by
  have hstay := State.cameTo_of_movesOn h
  unfold State.flyEnd
  split
  · exact hstay
  · next y hy =>
    have hcore := State.core_of_cur h hy
    have huid : y.uid = x.uid := congrArg (·.1) hcore
    split
    · exact hstay
    · next hend =>
      have htotal : x.total ≤ x.n := by
        have h1 : y.total = x.total := congrArg (·.2.1) hcore
        have h2 : y.n = x.n := congrArg (·.2.2.2.2) hcore
        omega
      split
      · exact hstay
      · next f _ =>
        dsimp only
        split
        · exact hstay
        · next t ht =>
          have hflushed : t.movesOn e x.core := by
            split at ht
            · exact Option.some.inj ht ▸ State.movesOn_flushRemote h f
            · exact State.movesOn_flushWord h hcore ht
          split
          · next z hz =>
            have hz' : z.uid = x.uid := congrArg (·.1) (State.core_of_find hflushed hz)
            have hgone := State.find_releaseActive t e z
            rw [hz'] at hgone
            unfold State.cameTo
            rw [hgone]
            exact ⟨fun _ h => (nomatch h), fun _ => htotal⟩
          · exact State.cameTo_of_movesOn hflushed

theorem State.cameTo_flyMove {x : Xfer} (hactive : (s.flyEng e).active = some x) (hdrain : (s.flyEng e).drain = []) (n : Nat) :
    ∃ j, j ≤ n ∧ ((State.flyLoop n e (s.flyAsk e n)).flyEnd e).cameTo e (x.onward j) := by
  have hon : s.movesOn e x.core := by
    unfold State.movesOn FlyEng.moving
    rw [hactive, hdrain]
    rfl
  obtain ⟨j, hj, h⟩ := State.movesOn_flyLoop n _ x (State.movesOn_flyAsk hon n)
  exact ⟨j, hj, State.cameTo_flyEnd h⟩

/-! A CONST element for a region of a stage buffer (R182, R191). -/

/-- What moves is one CONST element for a region, and nothing stands before it. -/
structure State.constMoves (s : State) (e : Nat) (x : Xfer) (f : Flight) : Prop where
  hactive : (s.flyEng e).active = some x
  hdrain : (s.flyEng e).drain = []
  hflight : s.flight x.uid = some f
  hsrc : f.q.cue.fSrcKind = 0
  hdst : f.q.cue.fDstKind = 7
  hgather : f.q.cue.fGather = 0
  hacc : f.q.cue.fAcc = false
  hgroup : x.group = 1
  hleft : x.n < x.total
  hnear : s.earlierNear e x.uid = false
  hfar : s.earlierFar e x.uid = false

theorem Cue.gather_of_fGather {c : Cue} (h : c.fGather = 0) : c.gather = 0 := by
  unfold Cue.gather
  rw [h]
  rfl

theorem State.pagesReady_nil (s : State) : s.pagesReady [] = (true, s) := rfl

section
variable {x : Xfer} {f : Flight} (hc : s.constMoves e x f)
include hc

theorem State.cur_of_constMoves : (s.flyEng e).cur = some x := by
  unfold FlyEng.cur FlyEng.moving
  rw [hc.hactive, hc.hdrain]
  rfl

theorem State.flyAsk_of_constMoves (n : Nat) : s.flyAsk e n = s := by
  have hnear : kFar f.q.cue.fSrcKind = false := by rw [hc.hsrc]; rfl
  unfold State.flyAsk
  rw [hc.hactive]
  dsimp only
  rw [hc.hflight]
  dsimp only
  have htake : s.takeHalf e f.q.cue x = s := by
    unfold State.takeHalf
    dsimp only
    rw [if_neg fun h => absurd (h.1.symm.trans hc.hdst) (by decide)]
  have hask : s.askAhead e f n = s := by
    unfold State.askAhead
    rw [if_pos hnear]
  rw [htake, hask]
  unfold State.toDrain
  dsimp only
  rw [hc.hactive]
  dsimp only
  rw [hc.hflight]
  dsimp only
  rw [if_neg fun h => absurd (hnear.symm.trans h.1) (by decide)]

theorem State.groupPages_of_constMoves (soffs doffs : List (Option Int)) : s.groupPages f.q.cue x soffs doffs = [] := by
  have hsrc (o : Int) : s.srcPages f.q.cue o = [] := by
    unfold State.srcPages
    rw [if_neg (by rw [hc.hsrc]; decide)]
  have hdst (o : Int) : s.dstPages f.q.cue x o = [] := by
    unfold State.dstPages
    rw [if_neg (by rw [hc.hdst]; decide)]
  unfold State.groupPages
  rw [List.flatMap_eq_nil_iff.2 fun o _ => hsrc o, List.flatMap_eq_nil_iff.2 fun o _ => hdst o]
  rfl

theorem State.earlier_updXfer (g : Xfer → Xfer) :
    ¬ (x.noCredit f.q.cue 1 = true ∨ (f.q.cue.fDstKind ≠ 1 ∧
      ((s.updXfer e x.uid g).earlierNear e x.uid = true ∨ (s.updXfer e x.uid g).earlierFar e x.uid = true))) := by
  have hkept := (kept_updXfer s e x.uid g).but
  have hnear : (s.updXfer e x.uid g).earlierNear e x.uid = false := by
    unfold State.earlierNear
    rw [hkept.same .mem (by decide)]
    exact hc.hnear
  have hfar : (s.updXfer e x.uid g).earlierFar e x.uid = false := by
    unfold State.earlierFar State.farWrites
    rw [hkept.same .flights (by decide), hkept.same .fab (by decide), hkept.same .bs (by decide)]
    exact hc.hfar
  have hcredit : x.noCredit f.q.cue 1 = false := by
    unfold Xfer.noCredit
    rw [hc.hdst]
    rfl
  simp [hnear, hfar, hcredit]

/-- Where the element goes. -/
def Xfer.place (x : Xfer) (c : Cue) : Int := sideOffset c.fDstBase x.dstr (walkIdx x.ext x.n) none

theorem State.moveGroup_of_constMoves : ∃ t : State, t = s.updXfer e x.uid (fun y => { y with stall := false, pages := [] }) ∧
    s.moveGroup e f x = .on ((State.putRegion e f x t ((fillEl (fmtD x.sfmt) f.q.cue false,
      some (x.place f.q.cue)), 0)).groupDone e f.q.cue x
        [fillEl (fmtD x.sfmt) f.q.cue false] [some 0]) := by
  refine ⟨_, rfl, ?_⟩
  have hindex : s.indexOf e f.q.cue x.uid (x.n + 0) = (some 0, false) := if_pos (Cue.gather_of_fGather hc.hgather)
  have hdoffs : x.offsets f.q.cue [some 0] false = [some (x.place f.q.cue)] := by
    unfold Xfer.offsets
    simp [Cue.gather_of_fGather hc.hgather, Xfer.place]
  have hsource (t : State) (offs : List (Option Int)) (bad : List Bool) :
      t.sourceGroup e f x 1 offs bad = (some [fillEl (fmtD x.sfmt) f.q.cue false], t) := by
    unfold State.sourceGroup
    dsimp only
    rw [hc.hsrc]
    rfl
  have hput (t : State) (els : List SrcEl) (doffs : List (Option Int)) :
      t.putGroup e f x els doffs = t.putOther e f x els doffs := by
    unfold State.putGroup
    dsimp only
    rw [hc.hdst]
    rfl
  unfold State.moveGroup
  dsimp only
  rw [State.groupPages_of_constMoves hc, State.pagesReady_nil, if_neg (by simp), hc.hgroup]
  simp only [List.range_one, List.map_cons, List.map_nil, hindex, hdoffs]
  rw [if_neg (State.earlier_updXfer hc _), hsource]
  dsimp only
  rw [hput, State.putOther_region hc.hdst]
  rfl

theorem State.flyLoop_of_constMoves : ∃ t : State, KeptBut [.fly] s t ∧
    State.flyLoop 1 e (s.flyAsk e 1) = (State.putRegion e f x t ((fillEl (fmtD x.sfmt) f.q.cue false,
      some (x.place f.q.cue)), 0)).groupDone e f.q.cue x [fillEl (fmtD x.sfmt) f.q.cue false] [some 0] := by
  obtain ⟨t, ht, hgroup⟩ := State.moveGroup_of_constMoves hc
  refine ⟨t, ht ▸ (kept_updXfer ..).but, ?_⟩
  have hread : s.readIndices e f.q.cue x x.n = s := if_pos (Cue.gather_of_fGather hc.hgather)
  have hpages : s.indexPages f.q.cue x x.n = [] := if_pos (Cue.gather_of_fGather hc.hgather)
  have hfly : s.flyGroup e = s.moveGroup e f x := by
    unfold State.flyGroup
    rw [State.cur_of_constMoves hc]
    dsimp only
    rw [hc.hflight]
    dsimp only
    rw [hpages, State.pagesReady_nil, if_neg (by simp), hread]
  rw [State.flyAsk_of_constMoves hc]
  unfold State.flyLoop
  rw [State.cur_of_constMoves hc]
  dsimp only
  rw [if_neg (Nat.not_le.2 hc.hleft), hfly, hgroup]
  rfl

end

theorem State.flyRnd_congr {m : List Field} (h : KeptBut m s t) (hm : m.contains .trkR = false) (f : Flight) (n : Nat) (o : Int) :
    t.flyRnd f n o = s.flyRnd f n o := by
  have hseed : t.seed = s.seed := by
    unfold State.seed
    rw [h.reg (o := R.trkSeedHi) hm, h.reg (o := R.trkSeedLo) hm]
  unfold State.flyRnd
  rw [hseed]

/-- The code of a CONST element of the region (R182). -/
def State.constCode (s : State) (x : Xfer) (f : Flight) : Nat :=
  (convertEl (fmtD x.dfmt) 0 (s.flyRnd f x.n (x.place f.q.cue)) (fmtD x.sfmt) x.st (fillEl (fmtD x.sfmt) f.q.cue false)).1

theorem State.unit_putRegion_const {x : Xfer} {f : Flight} (hsrc : f.q.cue.fSrcKind = 0) (hacc : f.q.cue.fAcc = false)
    (hs : KeptBut [.fly] s t) :
    (State.putRegion e f x t ((fillEl (fmtD x.sfmt) f.q.cue false, some (x.place f.q.cue)), 0)).unit (f.q.cue.fDstId % 8) =
      (s.unit (f.q.cue.fDstId % 8)).setBytes (elemByte (fmtD x.dfmt) (x.place f.q.cue).toNat)
        (bytesOf ((fmtD x.dfmt).bits / 8) (s.constCode x f)) false := by
  unfold State.putRegion State.constCode
  dsimp only
  rw [if_neg (show ¬ (fillEl (fmtD x.sfmt) f.q.cue false).masked = true from Bool.false_ne_true),
    State.unit_congr ((kept_flyCounts ..).but.same .cho (by decide)), State.unit_updUnit, if_pos rfl,
    State.unit_congr (hs.same .cho (by decide)), if_neg (by rw [hsrc]; decide), if_neg (by rw [hacc]; decide),
    State.flyRnd_congr hs (by decide), hsrc]
  rfl

theorem State.byte_of_constMoves {x : Xfer} {f : Flight} (hc : s.constMoves e x f) {a : Nat} (ha : a < stageSize)
    (hport : (s.unit (f.q.cue.fDstId % 8)).noPort a) :
    (((State.flyLoop 1 e (s.flyAsk e 1)).flyEnd e).unit (f.q.cue.fDstId % 8)).byte a =
      let at_ := elemByte (fmtD x.dfmt) (x.place f.q.cue).toNat
      if at_ ≤ a ∧ a < at_ + (fmtD x.dfmt).bits / 8 then BitVec.ofNat 8 (s.constCode x f / 2 ^ (8 * (a - at_)))
      else (s.unit (f.q.cue.fDstId % 8)).byte a := by
  obtain ⟨t, ht, hloop⟩ := State.flyLoop_of_constMoves hc
  have hset (lo : Nat) (l : List Byte) : ((s.unit (f.q.cue.fDstId % 8)).setBytes lo l false).noPort a := hport
  rw [State.unit_congr ((kept_flyEnd ..).but.same .cho (by decide)), hloop,
    State.unit_congr ((kept_groupDone ..).but.same .cho (by decide)), State.unit_putRegion_const hc.hsrc hc.hacc ht,
    ChoUnit.byte_of_noPort hport, ChoUnit.byte_of_noPort (hset _ _), ChoUnit.written_setBytes _ _ _ _ ha]
  dsimp only
  by_cases hlo : elemByte (fmtD x.dfmt) (x.place f.q.cue).toNat ≤ a
  · rw [if_pos hlo]
    by_cases hhi : a < elemByte (fmtD x.dfmt) (x.place f.q.cue).toNat + (fmtD x.dfmt).bits / 8
    · rw [if_pos ⟨hlo, hhi⟩, getElem?_bytesOf (by omega), Nat.shiftRight_eq_div_pow]
      rfl
    · rw [if_neg fun h => hhi h.2, List.getElem?_eq_none (by rw [length_bytesOf]; omega)]
      rfl
  · rw [if_neg hlo, if_neg fun h => hlo h.1]

/-- Settles O39: the transfer that moves goes on by whole groups and leaves only at its end; a CONST element's bytes. -/
theorem flyMoves : Obligations.FlyMoves := by
  unfold Obligations.FlyMoves
  intro s e x f n hrun hsoft hactive hdrain hflight
  have hmove (n : Nat) : s.flyMove e.val n = (State.flyLoop n e.val (s.flyAsk e.val n)).flyEnd e.val := by
    unfold State.flyMove
    rw [if_neg (by simp [hrun, hsoft])]
  refine ⟨?_, fun hsrc hdst hgather hacc hgroup hleft _ hnear hfar => ?_⟩
  · obtain ⟨j, hj, hfound, hgone⟩ := State.cameTo_flyMove (s := s) hactive hdrain n
    exact Ends.of rfl (hmove n) ⟨fun y hy => ⟨(hfound y hy).1, j, hj, (hfound y hy).2⟩, fun h => ⟨j, hj, hgone h⟩⟩
  · exact Ends.of rfl (hmove 1) fun a ha hport => State.byte_of_constMoves
      ⟨hactive, hdrain, hflight, hsrc, hdst, hgather, hacc, hgroup, hleft, hnear, hfar⟩ ha hport

end Sys2Proof.Machine
end

section
/-! SUPPORT. Writes land in order; a finished cue completes. -/

namespace Sys2Proof.Machine

/-! The writes that wait stay while another lands (R334). -/

theorem State.wq_queueCorr (s : State) (w : Nat) (b : Bool) : (s.queueCorr w b).mem.wq = s.mem.wq := by
  unfold State.queueCorr
  split <;> rfl

theorem State.wq_watchWord (s : State) (w : Nat) : (s.watchWord w).mem.wq = s.mem.wq := by
  unfold State.watchWord
  dsimp only
  split
  · split
    · rw [(kept_retireFrame ..).but.same .mem (by decide)]
    · rfl
  · rw [(kept_logRecord ..).but.same .mem (by decide)]
    split
    · rfl
    · split <;> rfl

theorem State.wq_readWord (s : State) (w : Nat) : (s.readWord w).2.mem.wq = s.mem.wq := by
  unfold State.readWord
  dsimp only
  split
  · rfl
  · rfl
  · exact (State.wq_watchWord ..).trans (State.wq_queueCorr ..)
  · dsimp only
    rw [(kept_retireFrame ..).but.same .mem (by decide), (kept_logRecord ..).but.same .mem (by decide)]
    exact State.wq_queueCorr ..

theorem Mem.wq_setBytes : ∀ (l : List Byte) (m : Mem) (a : Nat), (m.setBytes a l).wq = m.wq
  | [], _, _ => rfl
  | v :: vs, m, a => Mem.wq_setBytes vs (m.setByte a v) (a + 1)

theorem State.wq_landWord (s : State) (addr : Nat) (bytes : List Byte) (poison : Bool) :
    (s.landWord addr bytes poison).mem.wq = s.mem.wq := by
  unfold State.landWord
  dsimp only
  by_cases hfull : (decide (addr % 64 = 0) && decide (bytes.length = 64)) = true
  · simp only [if_pos hfull, State.mem_markWritten]
    exact Mem.wq_setBytes bytes _ addr
  · simp only [if_neg hfull, State.mem_markWritten]
    exact (Mem.wq_setBytes bytes _ addr).trans ((Mem.wq_setBytes _ _ _).trans (State.wq_readWord ..))

theorem writesLand_claim : Sys2Proof.Claims.WritesLand := by
  unfold Sys2Proof.Claims.WritesLand
  intro s i w hsafe hw
  have hbehind (b : Bool) (h : s.writeBehind i w = b) : s.writeLands i = if b = true then s else
      ({ s with mem := { s.mem with wq := listDrop1 s.mem.wq i } }).landWord w.addr w.bytes w.poison := by
    unfold State.writeLands
    rw [hw]
    dsimp only
    rw [h]
  refine ⟨fun h => Ends.of rfl (hbehind true h) rfl, fun h => Ends.of rfl (hbehind false h) ⟨fun a => ?_, ?_, ?_⟩⟩
  · have hfits : w.addr % 64 + w.bytes.length ≤ 64 := by
      have hwf : s.mem.wf = true := (Bool.and_eq_true_iff.1 hsafe).1
      exact of_decide_eq_true (List.all_eq_true.1 (Bool.and_eq_true_iff.1 hwf).2 w (List.mem_of_getElem? hw))
    exact State.read_landWord _ w.addr w.bytes w.poison hfits a
  · exact State.wq_landWord ..
  · exact (hbehind false h).symm ▸ (kept_writeLands s i).but

/-! A finished cue completes (R293). -/

theorem State.halted_halt (s : State) (l : Line) (reason : Code) (engine : Nat) (fetch : Bool) (c : HaltCue) :
    ((s.halt l reason engine fetch c).line l).halted = true := by
  have hcore := State.halted_haltCore s l reason.num engine fetch c
  unfold State.halt
  dsimp only
  split
  · rw [(State.lineKept_fatalHalts _ l).1]
    exact hcore
  · exact hcore

/-- The cue out of the cues in flight, its fill ended and its pass closed. -/
def State.freed (s : State) (f : Flight) : State := ((s.dropFlight f.q.uid).endFill f.q.uid).closePass f.q.cue

variable {s t : State} {f : Flight} {i : Nat}

theorem KeptBut.freed (s : State) (f : Flight) : KeptBut [.flights, .arr, .trackers] s (s.freed f) :=
  (kept_closePass ..).but.step (by decide) ((kept_endFill ..).but.step (by decide) ((kept_dropFlight ..).but.mono (by decide)))

theorem State.flights_freed (s : State) (f : Flight) : (s.freed f).flights = s.flights.filter (·.q.uid != f.q.uid) :=
  (kept_closePass ..).but.same .flights (by decide)

/-- The cues in flight but the given one. -/
def State.lacks (s u : State) (f : Flight) : Prop := u.flights = s.flights.filter (·.q.uid != f.q.uid)

theorem State.complete_silent (hsilent : f.silent = true) : s.complete f = (s.freed f).progress f.q.line := by
  unfold State.complete
  dsimp only
  rw [if_pos (Or.inl hsilent)]
  split
  · rw [if_pos hsilent]; rfl
  · rfl

theorem State.complete_after (hsilent : f.silent = false) {code engine : BitVec 8} (hafter : f.after = some (code, engine)) :
    s.complete f = ((s.freed f).progress f.q.line).haltCore f.q.line code.toNat engine.toNat false f.q.haltCue := by
  unfold State.complete
  dsimp only
  rw [if_pos (Or.inr (by rw [hafter]; rfl)), hafter]
  dsimp only
  rw [if_neg (by simp [hsilent])]
  rfl

theorem State.complete_posts (hsilent : f.silent = false) (hafter : f.after = none) :
    s.complete f = ((s.freed f).makePosts f.q).progress f.q.line := by
  unfold State.complete
  dsimp only
  rw [if_neg (by simp [hsilent, hafter]), hafter]
  rfl

/-- With no remote post a cue makes its local ones and that is all. -/
theorem State.makePosts_local {q : QCue} (h : ∀ w ∈ q.cue.posts, postRemote w = false) : s.makePosts q = s.localPosts q.cue := by
  have hlost : q.cue.posts.any postRemote = false := List.any_eq_false.2 fun w hw => by simp [h w hw]
  unfold State.makePosts State.localPosts
  dsimp only
  rw [hlost, Bool.false_and, if_neg (by decide)]
  refine List.foldl_ext _ _ _ fun t w hw => ?_
  unfold State.onePost
  dsimp only
  rw [if_pos (h w hw), if_neg (by simp [h w hw])]

/-- The cue has nothing to fail at before it completes: it is no optimizer call, or one whose checks hold and whose pages
are there (R373, R379). -/
def State.works (s : State) (f : Flight) : Prop := ¬(f.q.cue.opcode = 4 ∧ f.q.cue.isOpt = true) ∨
  (leastCode (s.optChecks f.q.cue.optCall) = none ∧ (s.pagesReady (s.optPages f.q.cue.optCall).eraseDups).1 = true)

/-- The parts that the work of an optimizer call changes. -/
def Field.optWork : List Field := [.mem, .prop, .trig, .freeCtr, .propR, .choR, .exchR, .fltR]

/-- The work of an optimizer call (R373). -/
def State.optDone (s : State) (f : Flight) : State :=
  let o := f.q.cue.optCall
  let k := s.optBlock o.pblk
  iter o.count (fun i s => s.optElem o k.1 (o.first + i)) k.2

theorem KeptBut.optDone (s : State) (f : Flight) : KeptBut Field.optWork s (s.optDone f) :=
  KeptBut.iter _ (fun _ _ => (kept_optElem ..).but.mono (by decide)) ((kept_optBlock ..).but.mono (by decide))

theorem State.optGo_works (hchecks : leastCode (s.optChecks f.q.cue.optCall) = none)
    (hthere : (s.pagesReady (s.optPages f.q.cue.optCall).eraseDups).1 = true) : s.optGo f = (true, s.optDone f) := by
  unfold State.optGo
  dsimp only
  rw [hchecks]
  dsimp only
  rw [if_neg (by simp [hthere])]
  rfl

/-- What an optimizer call that fails a check leaves to its halt: the cue out of the flights, a refused address counted. -/
def State.optFailed (s : State) (f : Flight) (code : Code) : State :=
  (if code = .localAddr then s.count R.propLocalRefused 1 else s).dropFlight f.q.uid

theorem KeptBut.optFailed (s : State) (f : Flight) (code : Code) : KeptBut [.flights, .propR] s (s.optFailed f code) :=
  (kept_dropFlight ..).but.step (by decide) (by
    split
    · exact (keptBut_setReg s R.propLocalRefused _).mono (by decide)
    · exact KeptBut.refl _ s)

theorem State.flights_optFailed (s : State) (f : Flight) (code : Code) : State.lacks s (s.optFailed f code) f := by
  unfold State.optFailed
  split <;> rfl

theorem State.optGo_fails {code : Code} (hcode : leastCode (s.optChecks f.q.cue.optCall) = some code) :
    ∃ c, s.optGo f = (false, (s.optFailed f code).halt f.q.line code optEngine false c) := by
  unfold State.optGo
  dsimp only
  rw [hcode]
  exact ⟨_, rfl⟩

theorem State.optGo_waits (hchecks : leastCode (s.optChecks f.q.cue.optCall) = none)
    (hthere : (s.pagesReady (s.optPages f.q.cue.optCall).eraseDups).1 = false) :
    s.optGo f = (false, (s.pagesReady (s.optPages f.q.cue.optCall).eraseDups).2) := by
  unfold State.optGo
  dsimp only
  rw [hchecks]
  dsimp only
  rw [if_pos hthere]

theorem State.cueComplete_opt (hf : s.flights[i]? = some f) (hrun : s.enginesRun = true) (hmay : s.mayComplete f = true)
    (hopt : f.q.cue.opcode = 4 ∧ f.q.cue.isOpt = true) :
    s.cueComplete i = if (s.optGo f).1 then (s.optGo f).2.complete f else (s.optGo f).2 := by
  unfold State.cueComplete
  rw [hf]
  dsimp only
  rw [if_neg (by simp [hrun, hmay])]
  exact if_pos hopt

/-- A cue that works completes behind its work, which is that of an optimizer call or none. -/
theorem State.cueComplete_works (hf : s.flights[i]? = some f) (hrun : s.enginesRun = true) (hmay : s.mayComplete f = true)
    (hworks : s.works f) : ∃ t, KeptBut Field.optWork s t ∧ s.cueComplete i = t.complete f := by
  unfold State.cueComplete
  rw [hf]
  dsimp only
  rw [if_neg (by simp [hrun, hmay])]
  by_cases hopt : f.opcode = 4 ∧ f.q.cue.isOpt = true
  · obtain hno | ⟨hchecks, hthere⟩ := hworks
    · exact absurd hopt hno
    · rw [if_pos hopt, State.optGo_works hchecks hthere]
      exact ⟨_, KeptBut.optDone s f, rfl⟩
  · rw [if_neg hopt]
    exact ⟨s, (KeptBut.refl _ s), rfl⟩

theorem State.lacks_of_kept {v : State} {m : List Field} (hflights : t.flights = s.flights) (h : KeptBut m (t.freed f) v)
    (hm : .flights ∉ m) : State.lacks s v f := by
  unfold State.lacks
  rw [h.same .flights hm, State.flights_freed, hflights]

theorem cueCompletes_claim : Sys2Proof.Claims.CueCompletes := by
  unfold Sys2Proof.Claims.CueCompletes
  intro s i f hf hrun left opt checks there works
  refine ⟨fun hnot => ?_, fun hfinished hlanded => ?_⟩
  · refine Ends.of rfl ?_ rfl
    have hmay : s.mayComplete f = false := by
      unfold State.mayComplete
      rcases hnot with h | ⟨hfence, hopen⟩
      · simp [h]
      · simp [hfence, hopen]
    unfold State.cueComplete
    rw [hf]
    dsimp only
    rw [if_pos (Or.inr hmay)]
  have hmay : s.mayComplete f = true := by
    unfold State.mayComplete
    rw [hfinished]
    rcases hlanded with h | h <;> simp [h]
  refine ⟨fun hworks hsilent hafter hposts => ?_, fun hworks hsilent => ?_, fun code engine hworks hsilent hafter => ?_,
    fun code hopt hcode => ?_, fun hopt hchecks hthere => ?_⟩
  · obtain ⟨t, ht, heq⟩ := State.cueComplete_works hf hrun hmay hworks
    rw [State.complete_posts hsilent hafter, State.makePosts_local hposts] at heq
    have hposted : KeptBut [.board, .trig, .callR, .fltR] (t.freed f) (((t.freed f).localPosts f.q.cue).progress f.q.line) :=
      (kept_progress ..).but.step (by decide) ((kept_localPosts ..).but.mono (by decide))
    have hall := hposted.step (m := [.flights, .arr, .trackers, .board, .trig, .callR, .fltR] ++ Field.optWork) (by decide)
      ((KeptBut.freed t f).step (by decide) (ht.mono (by decide)))
    refine Ends.of rfl heq ⟨State.lacks_of_kept (ht.same .flights (by decide)) hposted (by decide), ?_,
      hall.same .lines (by decide), hall.same .fab (by decide)⟩
    rw [(kept_progress ..).but.same .board (by decide)]
    exact State.board_localPosts_congr (((KeptBut.freed t f).same .board (by decide)).trans (ht.same .board (by decide))) _
  · obtain ⟨t, ht, heq⟩ := State.cueComplete_works hf hrun hmay hworks
    rw [State.complete_silent hsilent] at heq
    have hall := (kept_progress (t.freed f) f.q.line).but.step (m := [.flights, .arr, .trackers, .callR] ++ Field.optWork)
      (by decide) ((KeptBut.freed t f).step (by decide) (ht.mono (by decide)))
    exact Ends.of rfl heq ⟨State.lacks_of_kept (ht.same .flights (by decide)) (kept_progress ..).but (by decide),
      hall.same .board (by decide), hall.same .lines (by decide), hall.same .fab (by decide)⟩
  · obtain ⟨t, ht, heq⟩ := State.cueComplete_works hf hrun hmay hworks
    rw [State.complete_after hsilent hafter] at heq
    have hhalted : KeptBut [.lines, .trig, .ctlR, .lineR, .callR, .fltR] (t.freed f) _ :=
      (kept_haltCore ((t.freed f).progress f.q.line) f.q.line code.toNat engine.toNat false f.q.haltCue).but.step (by decide)
        ((kept_progress ..).but.mono (by decide))
    have hall := hhalted.step (m := [.flights, .arr, .trackers, .lines, .trig, .ctlR, .lineR, .callR, .fltR] ++ Field.optWork)
      (by decide) ((KeptBut.freed t f).step (by decide) (ht.mono (by decide)))
    exact Ends.of rfl heq ⟨State.lacks_of_kept (ht.same .flights (by decide)) hhalted (by decide), hall.same .board (by decide),
      hall.same .fab (by decide), State.halted_haltCore ..⟩
  · obtain ⟨c, hgo⟩ := State.optGo_fails hcode
    have heq : s.cueComplete i = (s.optFailed f code).halt f.q.line code optEngine false c := by
      rw [State.cueComplete_opt hf hrun hmay hopt, hgo]
      rfl
    have hall := (kept_halt (s.optFailed f code) f.q.line code optEngine false c).but
    have hfailed := KeptBut.optFailed s f code
    refine Ends.of rfl heq ⟨?_, (hall.same .board (by decide)).trans (hfailed.same .board (by decide)),
      (hall.same .mem (by decide)).trans (hfailed.same .mem (by decide)), State.halted_halt .., fun hline => ?_⟩
    · show _ = _
      rw [hall.same .flights (by decide)]
      exact State.flights_optFailed s f code
    · have hline' : ((s.optFailed f code).line f.q.line).halted = false := by
        rw [State.line_of_lines (hfailed.same .lines (by decide))]
        exact hline
      rw [State.regF, (State.halt_spec hline' code optEngine false _).2.1, fieldN_haltReasonWord_reason]
      exact Nat.mod_eq_of_lt (Code.num_lt code)
  · have heq : s.cueComplete i = (s.pagesReady (s.optPages f.q.cue.optCall).eraseDups).2 := by
      rw [State.cueComplete_opt hf hrun hmay hopt, State.optGo_waits hchecks hthere]
      rfl
    have hall := (kept_pagesReady s (s.optPages f.q.cue.optCall).eraseDups).but
    exact Ends.of rfl heq ⟨hall.same .flights (by decide), hall.same .board (by decide), hall.same .lines (by decide),
      hall.same .fab (by decide)⟩

/-- Settles O40: a write lands behind those before it; a finished cue completes, its optimizer work done. -/
theorem landing : Obligations.Landing := ⟨writesLand_claim, cueCompletes_claim⟩

end Sys2Proof.Machine
end

section
/-! SUPPORT. PROP_FREE, PROP_MIRROR and PROP_LOCK; the pages and handles that the property cues change. -/

namespace Sys2Proof.Machine

variable {s t : State} {f : Flight}

theorem leastCode_cons_ne_none (c : Code) (l : List Code) : leastCode (c :: l) ≠ none := by
  have hsome : ∀ (l : List Code) (a : Option Code), a.isSome = true → (l.foldl (fun a c => match a with
      | none => some c
      | some b => if c.num < b.num then some c else some b) a).isSome = true := by
    intro l
    induction l with
    | nil => exact fun a h => h
    | cons c l ih =>
      intro a ha
      refine ih _ ?_
      cases a with
      | none => rfl
      | some b => dsimp only; split <;> rfl
  intro h
  have hleast : (leastCode (c :: l)).isSome = true := hsome l (some c) rfl
  rw [h] at hleast
  exact absurd hleast (by decide)

theorem eq_nil_of_leastCode {l : List Code} (h : leastCode l = none) : l = [] := by
  cases l with
  | nil => rfl
  | cons c l => exact absurd h (leastCode_cons_ne_none c l)

/-! Pages and handles. -/

theorem State.page_congr (h : t.prop.pages = s.prop.pages) (d : Nat) : t.page d = s.page d := by
  unfold State.page; rw [h]

theorem State.handle_congr (h : t.prop.handles = s.prop.handles) (k : Nat) : t.handle k = s.handle k := by
  unfold State.handle; rw [h]

theorem State.nodup_descs (s : State) (h : Nat) : (s.descs h).Nodup :=
  List.nodup_range.map fun _ _ he => Nat.add_left_cancel he

theorem State.page_foldl_updPage (g : Page → Page) (k : Nat) : ∀ (ds : List Nat) (s : State), ds.Nodup →
    (ds.foldl (fun s d => s.updPage d g) s).page k = if k ∈ ds then g (s.page k) else s.page k
  | [], s, _ => by simp
  | d :: ds, s, h => by
    obtain ⟨hd, hds⟩ := List.nodup_cons.1 h
    rw [List.foldl_cons, State.page_foldl_updPage g k ds _ hds, State.updPage, State.page_setPage]
    by_cases hk : k = d
    · subst hk; simp [hd]
    · simp [hk]

theorem State.page_foldl_setPage (v : Page) (k : Nat) : ∀ (ds : List Nat) (s : State),
    (ds.foldl (fun s d => s.setPage d v) s).page k = if k ∈ ds then v else s.page k
  | [], s => by simp
  | d :: ds, s => by
    rw [List.foldl_cons, State.page_foldl_setPage v k ds, State.page_setPage]
    by_cases hds : k ∈ ds
    · simp [hds]
    · by_cases hk : k = d <;> simp [hds, hk]

theorem State.handles_foldl_setPage {g : State → Nat → Page} : ∀ (ds : List Nat) (s : State),
    (ds.foldl (fun s d => s.setPage d (g s d)) s).prop.handles = s.prop.handles
  | [], _ => rfl
  | d :: ds, s => State.handles_foldl_setPage ds (s.setPage d (g s d))

theorem State.handle_foldl_updPage (g : Page → Page) (ds : List Nat) (s : State) (k : Nat) :
    (ds.foldl (fun s d => s.updPage d g) s).handle k = s.handle k :=
  State.handle_congr (State.handles_foldl_setPage (g := fun s d => g (s.page d)) ds s) k

/-! A property cue that is done, or halts its line. -/

theorem State.doneWith_propDone (s : State) (f : Flight) : (s.propDone f.q.uid).doneWith f :=
  ⟨fun _ hy => State.stage_flight_finishFlight hy, fun k => State.not_mem_queue_unqueue s f.q.uid k⟩

theorem State.page_propDone (s : State) (uid d : Nat) : (s.propDone uid).page d = s.page d := rfl

theorem State.handle_propDone (s : State) (uid k : Nat) : (s.propDone uid).handle k = s.handle k := rfl

theorem State.flight_of_propHead {op : Nat} (h : s.propHead op = some f) : s.flight f.q.uid = some f :=
  State.flight_of_startable (Option.filter_eq_some_iff.1 h).1

theorem State.flight_of_propHeadOn {op : Nat} (h : s.propHeadOn op = some f) : s.flight f.q.uid = some f :=
  State.flight_of_head (Option.filter_eq_some_iff.1 (Option.filter_eq_some_iff.1 h).1).1

/-- The halt of a property cue at the head of its queue leaves the handles and pages. -/
theorem State.propHalts (hf : s.flight f.q.uid = some f) (code : Code) :
    s.haltsOn f 0x21 code (s.engineHalt f.q.uid 0x21 code) ∧ (s.engineHalt f.q.uid 0x21 code).prop = s.prop :=
  ⟨State.haltsOn_engineHalt hf rfl rfl (by decide) code, (kept_engineHalt ..).but.same .prop (by decide)⟩

theorem State.ringsAct_none (h : ∀ l, (s.line l).ringAt = []) : s.ringsAct = s := by
  have hfold : ∀ ls : List Line, ls.foldl (fun s l =>
      let ws := (s.line l).ringAt
      if ws = [] then s else ws.foldl (fun s v => s.ringAct l v) (s.updLine l fun ln => { ln with ringAt := [] })) s = s := by
    intro ls
    induction ls with
    | nil => rfl
    | cons l ls ih =>
      rw [List.foldl_cons]
      dsimp only
      rw [if_pos (h l)]
      exact ih
  unfold State.ringsAct
  split
  · rfl
  · exact hfold allLines

theorem State.ringAt_engineHalt (hf : s.flight f.q.uid = some f) (engine : Nat) (code : Code) (l : Line) :
    ((s.engineHalt f.q.uid engine code).line l).ringAt = (s.line l).ringAt := by
  rw [State.engineHalt_eq_haltCore hf]
  by_cases hl : l = f.q.line
  · subst hl
    rw [State.haltCore_line]
    split <;> rfl
  · rw [State.line_haltCore_ne _ _ _ _ _ hl]
    rfl

/-! PROP_FREE (R247). -/

theorem State.handle_unpair_self (s : State) (h : Nat) : ((s.unpair h).handle h).first = (s.handle h).first ∧
    ((s.unpair h).handle h).pages = (s.handle h).pages := by
  unfold State.unpair
  dsimp only
  split
  · exact ⟨rfl, rfl⟩
  · rw [State.handle_setHandle, if_pos rfl]
    exact ⟨rfl, rfl⟩

/-- A handle without its open pass, its pair and its tracker. -/
def State.untied (s : State) (h : Nat) : State :=
  let s := (s.handlePassClose h).unpair h
  let e := s.handle h
  if e.trkEn then s.setTracker e.trk { s.tracker e.trk with bound := none } else s

/-- A handle's pages free, its hints dropped and its entry gone. -/
def State.erased (s : State) (h : Nat) : State :=
  let s := (s.descs h).foldl (fun s d => s.setPage d Page.free) s
  let hints := s.prop.hints.filter fun d => (s.page d).state != PageState.free
  let s := { s with prop := { s.prop with
    hints := hints, starve := s.prop.starve && !(hints.isEmpty && s.prop.demand.isEmpty) } }
  s.setHandle h Handle.none

theorem State.prop_untied (s : State) (h : Nat) : (s.untied h).prop = (s.unpair h).prop := by
  have hclose : (s.handlePassClose h).prop = s.prop := (kept_handlePassClose ..).but.same .prop (by decide)
  have hunpair : ((s.handlePassClose h).unpair h).prop = (s.unpair h).prop := by
    unfold State.unpair
    dsimp only
    rw [State.handle_congr (congrArg (·.handles) hclose)]
    split
    · exact hclose
    · rw [State.handle_congr (congrArg (·.handles) hclose), State.setHandle, State.setHandle, State.setHandle, State.setHandle, hclose]
  unfold State.untied
  dsimp only
  split
  · exact hunpair
  · exact hunpair

theorem State.descs_untied (s : State) (h : Nat) : (s.untied h).descs h = s.descs h := by
  obtain ⟨hfirst, hpages⟩ := State.handle_unpair_self s h
  unfold State.descs
  rw [State.handle_congr (congrArg (·.handles) (s.prop_untied h)), hfirst, hpages]

theorem State.demand_foldl_setPage (v : Page) : ∀ (ds : List Nat) (s : State),
    (ds.foldl (fun s d => s.setPage d v) s).prop.demand = s.prop.demand
  | [], _ => rfl
  | d :: ds, s => State.demand_foldl_setPage v ds (s.setPage d v)

theorem State.demand_unpair (s : State) (h : Nat) : (s.unpair h).prop.demand = s.prop.demand := by
  unfold State.unpair
  dsimp only
  split <;> rfl

theorem State.demand_erased (s : State) (h : Nat) : (s.erased h).prop.demand = s.prop.demand := by
  unfold State.erased
  exact State.demand_foldl_setPage Page.free (s.descs h) s

theorem State.page_erased (s : State) {h d : Nat} (hd : d ∈ s.descs h) : (s.erased h).page d = Page.free := by
  unfold State.erased
  exact (State.page_foldl_setPage Page.free d (s.descs h) s).trans (if_pos hd)

theorem State.freeHandle_spec (s : State) (h : Nat) : (s.freeHandle h).handle h = Handle.none ∧
    (∀ d ∈ s.descs h, (s.freeHandle h).page d = Page.free) ∧ (s.freeHandle h).prop.demand = s.prop.demand := by
  have heq : s.freeHandle h = (s.untied h).erased h := by
    unfold State.freeHandle State.untied State.erased
    rfl
  rw [heq]
  refine ⟨?_, fun d hd => ?_, ?_⟩
  · exact (State.handle_setHandle ..).trans (if_pos rfl)
  · exact State.page_erased (s.untied h) ((s.descs_untied h).symm ▸ hd)
  · rw [State.demand_erased, s.prop_untied h, s.demand_unpair h]

section
variable (hhead : s.propHead 0x61 = some f)
include hhead

theorem State.propFree_eq : s.propFree =
    if s.handleOk f.q.cue.propHandle = false then s.engineHalt f.q.uid 0x21 .handleInvalid
    else if (s.descs f.q.cue.propHandle).any (fun d => (s.page d).state == .locked) then
      s.engineHalt f.q.uid 0x21 .propHandleBusy
    else if s.flyHolds f.q.cue.propHandle ∨ (s.descs f.q.cue.propHandle).any (fun d => (s.page d).moving) then s
    else (((s.freeHandle f.q.cue.propHandle).startFlight f.q.uid).propDone f.q.uid).pumpPages := by
  unfold State.propFree
  rw [hhead]

variable (hok : s.handleOk f.q.cue.propHandle = true)
include hok

theorem State.propFree_locked (hlocked : ∃ d ∈ s.descs f.q.cue.propHandle, (s.page d).state = .locked) :
    s.propFree = s.engineHalt f.q.uid 0x21 .propHandleBusy := by
  rw [State.propFree_eq hhead, if_neg (by simp [hok]), if_pos]
  obtain ⟨d, hd, hstate⟩ := hlocked
  exact List.any_eq_true.2 ⟨d, hd, by simp [hstate]⟩

variable (hopen : ∀ d ∈ s.descs f.q.cue.propHandle, (s.page d).state ≠ .locked)
include hopen

theorem State.propFree_open : s.propFree =
    if s.flyHolds f.q.cue.propHandle ∨ (s.descs f.q.cue.propHandle).any (fun d => (s.page d).moving) then s
    else (((s.freeHandle f.q.cue.propHandle).startFlight f.q.uid).propDone f.q.uid).pumpPages := by
  rw [State.propFree_eq hhead, if_neg (by simp [hok]), if_neg]
  intro hany
  obtain ⟨d, hd, hstate⟩ := List.any_eq_true.1 hany
  exact hopen d hd (by simpa using hstate)

theorem State.propFree_frees (hstill : ∀ d ∈ s.descs f.q.cue.propHandle, (s.page d).moving = false)
    (hholds : s.flyHolds f.q.cue.propHandle = false) (hdemand : s.prop.demand = []) :
    s.propFree = ((s.freeHandle f.q.cue.propHandle).startFlight f.q.uid).propDone f.q.uid := by
  rw [State.propFree_open hhead hok hopen, if_neg]
  · unfold State.pumpPages
    rw [show (((s.freeHandle f.q.cue.propHandle).startFlight f.q.uid).propDone f.q.uid).prop.demand = [] from
      (s.freeHandle_spec f.q.cue.propHandle).2.2.trans hdemand]
    rfl
  · rintro (h | h)
    · exact absurd (hholds.symm.trans h) (by decide)
    · obtain ⟨d, hd, hmoving⟩ := List.any_eq_true.1 h
      exact absurd ((hstill d hd).symm.trans hmoving) (by decide)

end

/-! PROP_MIRROR (R257). -/

/-- The pair on both sides. -/
def State.paired (s : State) (c : Cue) : State :=
  (s.setHandle c.pmW { s.handle c.pmW with mrole := 1, partner := c.pmWt, mrows := c.pmRows, mcols := c.pmCols }).setHandle c.pmWt
    { s.handle c.pmWt with mrole := 2, partner := c.pmW, mrows := c.pmRows, mcols := c.pmCols }

theorem State.handle_paired (s : State) (c : Cue) (k : Nat) : (s.paired c).handle k =
    if k = c.pmWt then { s.handle c.pmWt with mrole := 2, partner := c.pmW, mrows := c.pmRows, mcols := c.pmCols }
    else if k = c.pmW then { s.handle c.pmW with mrole := 1, partner := c.pmWt, mrows := c.pmRows, mcols := c.pmCols }
    else s.handle k := by
  unfold State.paired
  rw [State.handle_setHandle, State.handle_setHandle]

theorem KeptBut.paired (s : State) (c : Cue) : KeptBut [.prop] s (s.paired c) :=
  (kept_setHandle ..).but.step (by decide) (kept_setHandle ..).but

theorem State.handle_ended (s : State) (uid k : Nat) : ((s.startFlight uid).propDone uid).handle k = s.handle k := rfl

theorem State.page_ended (s : State) (uid d : Nat) : ((s.startFlight uid).propDone uid).page d = s.page d := rfl

theorem State.propMirror_eq (hhead : s.propHead 0x64 = some f) (hchecks : leastCode (s.mirrorChecks f.q.cue) = none) :
    s.propMirror = ((if f.q.cue.pmUnpair then (if (s.handle f.q.cue.pmW).mrole = 1 then s.unpair f.q.cue.pmW else s)
      else s.paired f.q.cue).startFlight f.q.uid).propDone f.q.uid := by
  unfold State.propMirror
  rw [hhead]
  dsimp only
  rw [hchecks]
  rfl

theorem KeptBut.propDone_of (h : KeptBut [.prop] s t) (uid : Nat) :
    KeptBut [.prop, .flights, .queues] s ((t.startFlight uid).propDone uid) :=
  (kept_propDone ..).but.step (by decide) ((kept_startFlight ..).but.step (by decide) (h.mono (by decide)))

theorem State.pair_differs {c : Cue} (hchecks : leastCode (s.mirrorChecks c) = none) (hpair : c.pmUnpair = false) :
    c.pmW ≠ c.pmWt := by
  intro he
  have hnil := eq_nil_of_leastCode hchecks
  unfold State.mirrorChecks at hnil
  dsimp only at hnil
  split at hnil
  · exact nomatch hnil
  · rw [if_neg (by simp [hpair]), if_pos (Or.inl he)] at hnil
    exact nomatch hnil

/-! PROP_LOCK (R263, R265). -/

/-- A locked page without its lock. -/
def Page.unlocked (p : Page) : Page := if p.state = .locked then { p with state := .owned } else p

theorem Page.state_unlocked (p : Page) : p.unlocked.state = if p.state = .locked then .owned else p.state := by
  unfold Page.unlocked
  split <;> rfl

/-- Every page of a handle changed, and its entry written. -/
def State.pagesSet (s : State) (h : Nat) (g : Page → Page) (v : Handle) : State :=
  ((s.descs h).foldl (fun s d => s.updPage d g) s).setHandle h v

theorem KeptBut.pagesSet (s : State) (h : Nat) (g : Page → Page) (v : Handle) : KeptBut [.prop] s (s.pagesSet h g v) :=
  (kept_setHandle ..).but.step (by decide) (Kept.fold _ (fun _ _ => kept_updPage ..) (Kept.refl _ s)).but

theorem State.page_pagesSet (s : State) {h d : Nat} (hd : d ∈ s.descs h) (g : Page → Page) (v : Handle) :
    (s.pagesSet h g v).page d = g (s.page d) :=
  (State.page_foldl_updPage g d _ s (s.nodup_descs h)).trans (if_pos hd)

theorem State.handle_pagesSet (s : State) (h : Nat) (g : Page → Page) (v : Handle) : (s.pagesSet h g v).handle h = v :=
  (State.handle_setHandle ..).trans (if_pos rfl)

section
variable (hhead : s.propHeadOn 0x65 = some f) (hsoft : s.softBusy = false)
include hhead hsoft

theorem State.propLock_invalid (hok : s.handleOk f.q.cue.propHandle = false) :
    s.propLock = s.engineHalt f.q.uid 0x21 .handleInvalid := by
  unfold State.propLock
  rw [hhead]
  dsimp only
  rw [if_neg (by simp [hsoft]), if_pos hok]

variable (hok : s.handleOk f.q.cue.propHandle = true)
include hok

theorem State.propLock_locks (hlock : f.q.cue.propUnlock = false) (hthere : ∀ d ∈ s.descs f.q.cue.propHandle,
    ((s.page d).state = .owned ∨ (s.page d).state = .locked) ∧ (s.page d).moving = false) :
    s.propLock = ((s.startFlight f.q.uid).pagesSet f.q.cue.propHandle (fun p => { p with state := .locked })
      { s.handle f.q.cue.propHandle with locked := true, fixed := true }).propDone f.q.uid := by
  have hall : (s.descs f.q.cue.propHandle).all (fun d =>
      ((s.page d).state == .owned || (s.page d).state == .locked) && !(s.page d).moving) = true := by
    refine List.all_eq_true.2 fun d hd => ?_
    obtain ⟨hstate, hmoving⟩ := hthere d hd
    rcases hstate with h | h <;> simp [h, hmoving]
  unfold State.propLock
  rw [hhead]
  dsimp only
  rw [if_neg (by simp [hsoft]), if_neg (by simp [hok]), if_neg (by simp [hlock])]
  exact if_pos hall

theorem State.propLock_unlocks (hunlock : f.q.cue.propUnlock = true) :
    s.propLock = ((s.startFlight f.q.uid).pagesSet f.q.cue.propHandle Page.unlocked
      { s.handle f.q.cue.propHandle with locked := false, fixed := (s.handle f.q.cue.propHandle).placed }).propDone f.q.uid := by
  unfold State.propLock
  rw [hhead]
  dsimp only
  rw [if_neg (by simp [hsoft]), if_neg (by simp [hok]), if_pos hunlock]
  rfl

end

/-- Settles O42: the checks of the three cues, their waits, and what they leave of handles and pages. -/
theorem propCues : Obligations.PropCues := by
  unfold Obligations.PropCues
  intro s f hring c h
  refine ⟨fun hhead => ?_, fun hhead => ?_, fun hhead hsoft => ?_⟩
  · have hf := State.flight_of_propHead hhead
    refine ⟨fun hok => ?_, fun hok hlocked => ?_, fun hok hopen hwait => ?_, fun hok hopen hholds hdemand => ?_⟩
    · exact Ends.of rfl ((State.propFree_eq hhead).trans (if_pos hok)) (State.propHalts hf _)
    · exact Ends.of rfl (State.propFree_locked hhead hok hlocked) (State.propHalts hf _)
    · refine Ends.of rfl ((State.propFree_open hhead hok hopen).trans (if_pos (hwait.imp id ?_))) rfl
      rintro ⟨d, hd, hmoving⟩
      exact List.any_eq_true.2 ⟨d, hd, hmoving⟩
    · obtain ⟨hgone, hfree, -⟩ := s.freeHandle_spec h
      rw [← State.handle_ended _ f.q.uid] at hgone
      have hpages (d : Nat) (hd : d ∈ s.descs h) :
          (((s.freeHandle h).startFlight f.q.uid).propDone f.q.uid).page d = Page.free :=
        (State.page_ended ..).trans (hfree d hd)
      exact Ends.of rfl (State.propFree_frees hhead hok (fun d hd => (hopen d hd).1) (fun d hd => (hopen d hd).2) hholds hdemand)
        ⟨hgone, hpages, State.doneWith_propDone _ f⟩
  · have hf := State.flight_of_propHead hhead
    refine ⟨fun code hcode => ?_, fun hchecks hpair => ?_, fun hchecks hunpair hrole => ?_⟩
    · refine Ends.of rfl (?_ : s.propMirror = _) (State.propHalts hf code)
      unfold State.propMirror
      rw [hhead]
      dsimp only
      rw [hcode]
    · have hne := State.pair_differs hchecks hpair
      have heq := State.propMirror_eq hhead hchecks
      rw [if_neg (show ¬ f.q.cue.pmUnpair = true by rw [show f.q.cue.pmUnpair = false from hpair]; decide)] at heq
      refine Ends.of rfl heq ⟨?_, ?_, fun k hk hk' => ?_, State.doneWith_propDone _ f, KeptBut.propDone_of ?_ _⟩
      · rw [State.handle_ended, State.handle_paired, if_neg hne, if_pos rfl]
      · rw [State.handle_ended, State.handle_paired, if_pos rfl]
      · rw [State.handle_ended, State.handle_paired, if_neg hk', if_neg hk]
      · exact KeptBut.paired s c
    · have heq := State.propMirror_eq hhead hchecks
      rw [if_pos hunpair, if_pos hrole] at heq
      have hself : (s.unpair c.pmW).handle c.pmW = { s.handle c.pmW with mrole := 0, partner := 0, mrows := 0, mcols := 0 } := by
        unfold State.unpair
        dsimp only
        rw [if_neg (by rw [hrole]; decide), State.handle_setHandle, if_pos rfl]
      rw [← State.handle_ended (s.unpair c.pmW) f.q.uid c.pmW] at hself
      exact Ends.of rfl heq ⟨congrArg (·.mrole) hself, congrArg (·.partner) hself, State.doneWith_propDone _ f,
        KeptBut.propDone_of (kept_unpair ..).but _⟩
  · have hf := State.flight_of_propHeadOn hhead
    have hkept (g : Page → Page) (v : Handle) : KeptBut [.prop, .flights, .queues] s
        (((s.startFlight f.q.uid).pagesSet f.q.cue.propHandle g v).propDone f.q.uid) :=
      (kept_propDone ..).but.step (by decide) ((KeptBut.pagesSet ..).step (by decide) ((kept_startFlight ..).but.mono (by decide)))
    have hacted {t u : State} (heq : t = u) (hr : ∀ l, (u.line l).ringAt = []) : t.ringsAct = u :=
      heq ▸ State.ringsAct_none (heq ▸ hr)
    have hquiet (g : Page → Page) (v : Handle) (l : Line) :
        ((((s.startFlight f.q.uid).pagesSet f.q.cue.propHandle g v).propDone f.q.uid).line l).ringAt = [] := by
      rw [State.line_of_lines ((hkept g v).same .lines (by decide))]
      exact hring l
    refine ⟨fun hok => ?_, fun hok hlock hthere => ?_, fun hok hunlock => ?_⟩
    · exact Ends.of rfl (hacted (State.propLock_invalid hhead hsoft hok) fun l =>
        (State.ringAt_engineHalt hf _ _ l).trans (hring l)) (State.propHalts hf _)
    · refine Ends.of rfl (hacted (State.propLock_locks hhead hsoft hok hlock hthere) (hquiet _ _)) ⟨fun d hd => ?_, ?_,
        State.doneWith_propDone _ f, hkept _ _⟩
      · rw [State.page_propDone, State.page_pagesSet (s.startFlight f.q.uid) hd]
        exact ⟨rfl, rfl⟩
      · rw [State.handle_propDone, State.handle_pagesSet]
    · refine Ends.of rfl (hacted (State.propLock_unlocks hhead hsoft hok hunlock) (hquiet _ _)) ⟨fun d hd => ?_, ?_,
        State.doneWith_propDone _ f, hkept _ _⟩
      · rw [State.page_propDone, State.page_pagesSet (s.startFlight f.q.uid) hd, Page.state_unlocked]
        rfl
      · rw [State.handle_propDone, State.handle_pagesSet]

end Sys2Proof.Machine
end

section
/-! SUPPORT. O44: a page table that lists one descriptor twice. -/

namespace Sys2Proof.Machine

variable {s t : State}

/-! What follows a command leaves a page retired, or the retirement of its frame shows. -/

/-- Descriptor `d` is RETIRED, or a retirement has moved on: some frame moves, or the page waits for its move. -/
def State.retiring (s : State) (d : Nat) : Prop :=
  (s.page d).state = .retired ∨ s.prop.moves ≠ [] ∨ (s.page d).retPend = true

theorem firstFrom_holds {p : Nat → Bool} : ∀ (n k d : Nat), firstFrom p n k = some d → p d = true
  | 0, _, _, h => nomatch h
  | n + 1, k, d, h => by
    unfold firstFrom at h
    split at h
    · exact Option.some.inj h ▸ ‹_›
    · exact firstFrom_holds n (k + 1) d h

theorem State.free_of_highest {d : Nat} (h : s.highestFreeDesc = some d) : (s.page d).state = .free := by
  obtain ⟨k, hk, rfl⟩ := Option.map_eq_some_iff.1 h
  have hfree : s.descFree (65535 - k) = true := firstFrom_holds (p := fun k => s.descFree (65535 - k)) _ _ _ hk
  exact of_decide_eq_true (Bool.and_eq_true_iff.1 hfree).2

/-- What retiring a frame makes of the pages (R261). -/
theorem State.page_retireNow {e : Nat} (h : s.highestFreeDesc = some e) (f k : Nat) :
    (s.retireNow f).page k = if k = e then { Page.free with state := .retired, frame := f } else s.page k := by
  unfold State.retireNow
  rw [h]
  exact (State.page_congr rfl k).trans (State.page_setPage s e { Page.free with state := .retired, frame := f } k)

theorem State.retiring_retireNow {d : Nat} (h : s.retiring d) (f : Nat) : (s.retireNow f).retiring d := by
  cases he : s.highestFreeDesc with
  | none =>
    unfold State.retireNow
    rw [he]
    exact h
  | some e =>
    have hmoves : (s.retireNow f).prop.moves = s.prop.moves := by
      unfold State.retireNow
      rw [he]
      rfl
    unfold State.retiring
    rw [State.page_retireNow he, hmoves]
    split
    · exact Or.inl rfl
    · exact h

theorem State.retiring_retireGo {d : Nat} (h : s.retiring d) (f : Nat) : (s.retireGo f).retiring d := by
  have hwait (e : Nat) (p : Page) : (s.setPage e { p with retPend := true }).retiring d := by
    unfold State.retiring
    rw [State.page_setPage]
    split
    · exact Or.inr (Or.inr rfl)
    · exact h
  unfold State.retireGo
  split
  · exact h
  · split
    · split
      · exact h
      · exact State.retiring_retireNow h f
    · next e p he =>
      dsimp only
      split
      · split
        · exact Or.inr (Or.inl (by simp))
        · exact hwait e p
      · exact hwait e p

theorem State.retiring_retireProgress {d : Nat} (h : s.retiring d) : s.retireProgress.retiring d := by
  have hfold : ∀ (l : List Nat) (s : State), s.retiring d → (l.foldl (fun s f => s.retireGo f) s).retiring d := by
    intro l
    induction l with
    | nil => exact fun _ h => h
    | cons f l ih => exact fun s h => ih _ (State.retiring_retireGo h f)
  unfold State.retireProgress
  split
  · exact h
  · exact hfold _ s h

theorem State.retiring_congr {d : Nat} (h : s.retiring d) (hprop : t.prop = s.prop) : t.retiring d := by
  unfold State.retiring State.page at *
  rw [hprop]
  exact h

theorem State.retiring_settle {d : Nat} (h : s.retiring d) : s.settle.retiring d := by
  refine State.retiring_congr (State.retiring_retireProgress (State.retiring_congr h
    ((kept_routineDone s).but.same .prop (by decide)))) ?_
  exact ((kept_takeTriggers _).but.same .prop (by decide)).trans (((kept_fatalHold _).but.same .prop (by decide)).trans
    ((kept_watches _).but.same .prop (by decide)))

/-- With no frame marked, what follows a command leaves the property table. -/
theorem State.prop_settle (h : s.prop.marked = []) : s.settle.prop = s.prop := by
  have hdone : s.routineDone.prop = s.prop := (kept_routineDone s).but.same .prop (by decide)
  have hretire : s.routineDone.retireProgress = s.routineDone := by
    unfold State.retireProgress
    rw [hdone, h]
    rfl
  unfold State.settle
  rw [hretire]
  exact ((kept_takeTriggers _).but.same .prop (by decide)).trans (((kept_fatalHold _).but.same .prop (by decide)).trans
    (((kept_watches _).but.same .prop (by decide)).trans hdone))

/-! A copy out of a frame that is marked already leaves the property table. -/

theorem State.prop_readWord {w : Nat} (h : s.prop.marked.contains (w / 1024) = true) : (s.readWord w).2.prop = s.prop := by
  have hretire (t : State) (ht : t.prop = s.prop) : (t.retireFrame (64 * w)).prop = s.prop := by
    unfold State.retireFrame
    dsimp only
    rw [if_pos (by rw [ht, show 64 * w / 65536 = w / 1024 by omega, h]; rfl)]
    exact ht
  have hqueue (t : State) (b : Bool) : (t.queueCorr w b).prop = t.prop := by
    unfold State.queueCorr
    split <;> rfl
  have hlog (t : State) (r : FaultRec) : (t.logRecord r).prop = t.prop := (kept_logRecord t r).but.same .prop (by decide)
  unfold State.readWord
  dsimp only
  split
  · rfl
  · rfl
  · unfold State.watchWord
    dsimp only
    split
    · split
      · exact hretire _ (hqueue ..)
      · exact hqueue ..
    · rw [hlog]
      split
      · exact hqueue ..
      · split
        · exact hqueue ..
        · exact hqueue ..
  · exact hretire _ ((hlog ..).trans (hqueue ..))

theorem State.prop_dropCorr (s : State) (f : Nat) : (s.dropCorr f).prop = s.prop := rfl

theorem State.prop_copyFrame {src : Nat} (h : s.prop.marked.contains src = true) (dst : Nat) :
    (s.copyFrame src dst).2.prop = s.prop := by
  have hfold : ∀ (l : List Nat) (st : Bool × State), (∀ i ∈ l, i < 1024) → st.2.prop = s.prop →
      (l.foldl (fun (st : Bool × State) i =>
        let r := st.2.readWord (src * 1024 + i)
        (st.1 || r.1.2, r.2.memStore (dst * 1024 + i) r.1.1 (if r.1.2 then poisonMark else []))) st).2.prop = s.prop := by
    intro l
    induction l with
    | nil => exact fun _ _ h => h
    | cons i l ih =>
      intro st hl hst
      refine ih _ (fun j hj => hl j (List.mem_cons_of_mem i hj)) ?_
      have hi : i < 1024 := hl i List.mem_cons_self
      exact (State.prop_readWord (by rw [hst, show (src * 1024 + i) / 1024 = src by omega]; exact h)).trans hst
  unfold State.copyFrame
  dsimp only
  rw [State.prop_dropCorr]
  unfold Sys2Proof.Machine.iter
  generalize hl : List.range 1024 = l
  exact hfold l (false, s) (fun i hi => List.mem_range.1 (hl ▸ hi)) rfl

/-- The writes of a frame that moves have landed. -/
def State.moveLanded (s : State) (m : Move) : State :=
  State.landFrame { s with prop := { s.prop with moves := s.prop.moves.filter (·.src != m.src) } } m.src

/-- The page of a frame that moves is in its new frame. -/
def State.moveCopied (s : State) (m : Move) : State :=
  let r := (s.moveLanded m).copyFrame m.src m.dst
  r.2.updPage m.desc fun p => { p with frame := m.dst, moving := false, retPend := false, poisoned := p.poisoned || r.1 }

theorem State.moveComplete_eq {m : Move} (h : (s.prop.moves.find? fun x => x.src == m.src) = some m) :
    s.moveComplete m.src = (s.moveCopied m).retireNow m.src := by
  unfold State.moveComplete
  rw [h]
  rfl

/-! O44: a page table that lists one descriptor twice. -/

/-- The move of a page out of frame 0. -/
def shadowMove : Move := ⟨0, 0, 1⟩

/-- A page table that lists descriptor 65535 twice: as `q`, and behind it OWNED in frame 0, which is marked. -/
def shadowTable (p q : Page) (moves : List Move) : PropTable :=
  { State.reset.prop with
    pages := [(0, p), (65535, q), (65535, { Page.free with state := .owned })]
    marked := [0]
    moves := moves }

/-- Descriptor 65535 is FREE by its first listing; page 0 moves to frame 1, and a write of frame 0 has still to land. -/
def shadowState : State :=
  { State.reset with
    prop := shadowTable { Page.free with state := .owned, frame := 7 } { Page.free with frame := 9 } [shadowMove]
    mem := { State.reset.mem with wq := [⟨0, 0, 0, List.replicate 64 0, false⟩] } }

theorem shadowState_moves : (shadowState.prop.moves.find? fun x => x.src == shadowMove.src) = some shadowMove ∧
    shadowState.prop.marked.contains shadowMove.src = true ∧ (shadowState.page shadowMove.desc).state ≠ .free ∧
    shadowState.highestFreeDesc = some 65535 := by decide +kernel

/-- Landing the write makes descriptor 65535 what its second listing says. -/
theorem shadowState_landed : (shadowState.moveLanded shadowMove).prop =
    shadowTable { Page.free with state := .owned, frame := 7 } { Page.free with state := .owned, dirty := true } [] := by
  decide +kernel

theorem shadowState_copied : ∃ b : Bool, (shadowState.moveCopied shadowMove).prop =
    shadowTable { Page.free with state := .owned, frame := 1, poisoned := b } { Page.free with state := .owned, dirty := true } [] := by
  unfold State.moveCopied State.updPage State.setPage State.page
  dsimp only
  rw [State.prop_copyFrame (by rw [shadowState_landed]; rfl), shadowState_landed]
  generalize ((shadowState.moveLanded shadowMove).copyFrame shadowMove.src shadowMove.dst).1 = b
  refine ⟨b, ?_⟩
  cases b <;> decide +kernel

/-- The retirement of frame 0 takes descriptor 65534, since 65535 is OWNED. -/
theorem not_retiring_shadow {b : Bool} (hprop : t.prop =
    shadowTable { Page.free with state := .owned, frame := 1, poisoned := b } { Page.free with state := .owned, dirty := true } []) :
    ¬ (t.retireNow shadowMove.src).retiring 65535 ∧ (t.retireNow shadowMove.src).prop.marked = [] := by
  have hhigh : t.highestFreeDesc = some 65534 := by
    unfold State.highestFreeDesc State.descFree State.page
    rw [hprop]
    cases b <;> decide +kernel
  have hpage : (t.retireNow shadowMove.src).page 65535 = { Page.free with state := .owned, dirty := true } := by
    rw [State.page_retireNow hhigh, if_neg (by decide)]
    unfold State.page
    rw [hprop]
    rfl
  have hrest : (t.retireNow shadowMove.src).prop.moves = [] ∧ (t.retireNow shadowMove.src).prop.marked = [] := by
    unfold State.retireNow
    rw [hhigh]
    unfold State.setPage
    dsimp only
    rw [hprop]
    exact ⟨rfl, rfl⟩
  refine ⟨?_, hrest.2⟩
  unfold State.retiring
  rw [hpage, hrest.1]
  decide

/-- Refutes O44: in `shadowState` the write that lands makes descriptor 65535 OWNED, so the retired frame's entry goes to
65534. -/
theorem not_scrubbing : ¬ Obligations.Scrubbing := by
  intro h
  obtain ⟨hmove, hmarked, hstate, hfree⟩ := shadowState_moves
  have hends := (h.2 shadowState shadowMove hmove (by decide) hmarked).2
  obtain ⟨u, hu, ⟨-, -, -, -, hpages, -⟩⟩ := hends
  obtain ⟨-, -, -, hpage, -⟩ := hpages 65535 hstate hfree (by decide)
  have hretiring : u.retiring 65535 := Or.inl (by rw [hpage])
  have hsettle : (shadowState.moveComplete shadowMove.src).settle = u.settle := Host.Outcome.next.inj hu
  obtain ⟨b, hprop⟩ := shadowState_copied
  obtain ⟨hnot, hnone⟩ := not_retiring_shadow hprop
  rw [State.moveComplete_eq hmove] at hsettle
  refine hnot (State.retiring_congr (State.retiring_settle hretiring) ?_)
  rw [← hsettle, State.prop_settle hnone]

end Sys2Proof.Machine
end

section
/-! SUPPORT. Operations that the local port takes; curtain arrivals and releases. -/

namespace Sys2Proof.Machine

/-! An operation that the local port takes (R495). -/

/-- The state that has taken a packet from the local port. -/
def State.opTaken (s : State) (p : Packet → Bool) : State := s.leaveIdle.takeLocal p

variable {s t : State}

theorem KeptBut.opTaken (s : State) (p : Packet → Bool) : KeptBut [.fab, .outs, .powerR] s (s.opTaken p) :=
  (kept_takeLocal ..).but.step (by decide) ((kept_leaveIdle ..).but.mono (by decide))

theorem State.serveOp_ok (h : s.localServes = true) (p : Packet → Bool) (f : State → State) : s.serveOp p f = f (s.opTaken p) :=
  if_pos h

theorem State.serveOp_not (h : s.localServes = false) (p : Packet → Bool) (f : State → State) : s.serveOp p f = s :=
  if_neg (by rw [h]; decide)

/-! The trees, which counters do not touch. -/

theorem State.tree_congr (h : t.board.trees = s.board.trees) (k : Nat) : t.tree k = s.tree k := by
  unfold State.tree; rw [h]

theorem State.trees_post (s : State) (i : Nat) (d : Int) : (s.post i d).board.trees = s.board.trees := by
  unfold State.post
  dsimp only
  split
  · rw [State.board_callBit _ (callSat_ofReg i)]; rfl
  · split
    · rw [State.board_callBit _ (callUnder_ofReg i)]; rfl
    · rfl

theorem State.trees_foldl {α : Type} {f : State → α → State} (hf : ∀ s a, (f s a).board.trees = s.board.trees) :
    ∀ (l : List α) (s : State), (l.foldl f s).board.trees = s.board.trees
  | [], _ => rfl
  | a :: l, s => (State.trees_foldl hf l (f s a)).trans (hf s a)

theorem State.trees_localPosts (s : State) (c : Cue) : (s.localPosts c).board.trees = s.board.trees := by
  refine State.trees_foldl (fun s w => ?_) _ s
  split
  · rfl
  · exact State.trees_post ..

theorem State.trees_ccIncrement (s : State) (k : Nat) : (s.ccIncrement k).board.trees = s.board.trees := by
  unfold State.ccIncrement
  dsimp only
  split
  · rw [State.board_callBit _ (by decide)]
  · rfl

/-- A counter set to a value of a realignment (R348). -/
def State.aligned (s : State) (p : Nat × BitVec 32) : State := s.setCnt p.1 (p.2.setWidth 20)

theorem State.applyAlign_eq (s : State) (a : Align) : s.applyAlign a = (a.listed.zip a.values).foldl State.aligned s := rfl

theorem State.trees_applyAlign (s : State) (a : Align) : (s.applyAlign a).board.trees = s.board.trees :=
  State.trees_foldl (f := State.aligned) (fun _ _ => rfl) _ s

theorem State.trees_completeLocal (s : State) (uid : Nat) : (s.completeLocal uid).board.trees = s.board.trees := by
  unfold State.completeLocal
  split
  · rfl
  · dsimp only
    rw [(kept_progress ..).but.same .board (by decide)]
    split
    · rfl
    · exact State.trees_localPosts ..

/-- A message to each of some cores leaves the callboard and the cues in flight. -/
theorem KeptBut.packets (opc ch : Nat) (data : List Byte) (l : List (BitVec 12)) (s : State) :
    KeptBut [.fab, .outs, .trig, .exchR, .fabR, .fltR] s (l.foldl (fun s c => s.sendPacket c opc ch data) s) :=
  (Kept.fold _ (fun _ _ => kept_sendPacket ..) (Kept.refl _ s)).but

/-! A release at a node (R347). -/

/-- The node's counter counts, and the realignment sets what it lists. -/
def State.nodeCounted (s : State) (k : Nat) : Option Align → State
  | some a => (s.ccIncrement k).applyAlign a
  | none => s.ccIncrement k

/-- The tree of a node that has released (R346). -/
def CcTree.released (t : CcTree) : CcTree := ⟨t.seq + 1, false, none, false, false, t.early, [], none⟩

/-- The node's tree goes on to the next call and its children are told. -/
def State.nodeTold (s : State) (k : Nat) (a : Option Align) : State :=
  (s.tree k).kids.foldl (fun u c => u.sendPacket c 4 0 (curtainBytes k true (s.tree k).seq a))
    ((s.nodeCounted k a).setTree k (s.tree k).released)

theorem State.ccReleaseNode_eq (s : State) (k : Nat) (a : Option Align) : s.ccReleaseNode k a = match (s.tree k).cue with
    | some uid => (s.nodeTold k a).completeLocal uid
    | none => s.nodeTold k a := by
  cases a <;> rfl

theorem State.tree_nodeTold (s : State) (k : Nat) (a : Option Align) (j : Nat) :
    (s.nodeTold k a).tree j = if j = k then (s.tree k).released else s.tree j := by
  have hcounted : (s.nodeCounted k a).tree j = s.tree j := by
    cases a with
    | none => exact State.tree_congr (State.trees_ccIncrement s k) j
    | some a => exact State.tree_congr ((State.trees_applyAlign ..).trans (State.trees_ccIncrement s k)) j
  unfold State.nodeTold
  rw [State.tree_congr (congrArg (·.trees) ((KeptBut.packets ..).same .board (by decide))), State.tree_setTree, hcounted]

theorem State.tree_ccReleaseNode (s : State) (k : Nat) (a : Option Align) (j : Nat) :
    (s.ccReleaseNode k a).tree j = if j = k then (s.tree k).released else s.tree j := by
  rw [State.ccReleaseNode_eq, ← State.tree_nodeTold s k a j]
  split
  · exact State.tree_congr (State.trees_completeLocal ..) j
  · rfl

theorem State.gone_completeLocal (s : State) (uid : Nat) : ∀ f ∈ (s.completeLocal uid).flights, f.q.uid ≠ uid := by
  intro f hf
  unfold State.completeLocal at hf
  split at hf
  · next hnone => exact fun he => List.find?_eq_none.1 hnone f hf (by simp [he])
  · next g hg =>
    dsimp only at hf
    rw [(kept_progress ..).but.same .flights (by decide)] at hf
    have hdropped : f ∈ (s.dropFlight uid).flights := by
      split at hf
      · exact hf
      · rwa [(kept_localPosts ..).but.same .flights (by decide)] at hf
    simpa using (List.mem_filter.1 hdropped).2

/-! Counters of a release without a cue of its own (R331, R348). -/

theorem Align.nodup_listed (a : Align) : a.listed.Nodup := by
  unfold Align.listed
  refine List.Nodup.append (List.nodup_range.filter _) ((List.nodup_range.filter _).map fun _ _ h => Nat.add_left_cancel h) ?_
  intro i hi hj
  obtain ⟨j, -, rfl⟩ := List.mem_map.1 hj
  have := List.mem_range.1 (List.mem_filter.1 hi).1
  omega

theorem State.cnt_foldl_ne {k : Nat} : ∀ (l : List (Nat × BitVec 32)) (s : State), k ∉ l.map Prod.fst →
    (l.foldl State.aligned s).cnt k = s.cnt k
  | [], _, _ => rfl
  | p :: l, s, h => by
    rw [List.map_cons, List.mem_cons, not_or] at h
    rw [List.foldl_cons, State.cnt_foldl_ne l _ h.2, State.aligned, State.cnt_setCnt, if_neg h.1]

theorem State.cnt_foldl_mem {p : Nat × BitVec 32} (l : List (Nat × BitVec 32)) (s : State) (hnodup : (l.map Prod.fst).Nodup)
    (hp : p ∈ l) : (l.foldl State.aligned s).cnt p.1 = p.2.setWidth 20 := by
  induction l generalizing s with
  | nil => exact absurd hp List.not_mem_nil
  | cons q l ih =>
    obtain ⟨hq, hl⟩ := List.nodup_cons.1 hnodup
    rw [List.foldl_cons]
    rcases List.mem_cons.1 hp with heq | hp
    · rw [heq, State.cnt_foldl_ne l _ hq, State.aligned, State.cnt_setCnt, if_pos rfl]
    · exact ih _ hl hp

theorem zip_fst_sublist {α β : Type} : ∀ (l : List α) (m : List β), ((l.zip m).map Prod.fst).Sublist l
  | [], _ => List.Sublist.refl _
  | _ :: _, [] => List.nil_sublist _
  | a :: l, _ :: m => (zip_fst_sublist l m).cons_cons a

theorem State.cnt_ccIncrement (s : State) (k : Nat) : (s.ccIncrement k).cnt (64 + k) =
    if 0xFFFFF < (s.cnt (64 + k)).toNat + 1 then s.cnt (64 + k) else BitVec.ofNat 20 ((s.cnt (64 + k)).toNat + 1) := by
  unfold State.ccIncrement
  dsimp only
  split
  · exact State.cnt_congr (State.board_callBit _ (by decide) ..) _
  · rw [State.cnt_setCnt, if_pos rfl]

theorem State.cnt_nodeTold (s : State) (k : Nat) (a : Align) (i : Nat) :
    (s.nodeTold k (some a)).cnt i = ((s.ccIncrement k).applyAlign a).cnt i := by
  unfold State.nodeTold
  rw [State.cnt_congr ((KeptBut.packets ..).same .board (by decide))]
  rfl

/-- The realignment sets what it lists. -/
theorem State.cnt_nodeTold_listed (s : State) (k : Nat) (a : Align) {p : Nat × BitVec 32} (hp : p ∈ a.listed.zip a.values) :
    (s.nodeTold k (some a)).cnt p.1 = p.2.setWidth 20 := by
  rw [State.cnt_nodeTold, State.applyAlign_eq]
  exact State.cnt_foldl_mem _ _ (a.nodup_listed.sublist (zip_fst_sublist ..)) hp

/-- The node's counter counts where the realignment does not set it. -/
theorem State.cnt_nodeTold_own (s : State) (k : Nat) (a : Align) (h : 64 + k ∉ a.listed) :
    (s.nodeTold k (some a)).cnt (64 + k) = (s.ccIncrement k).cnt (64 + k) := by
  rw [State.cnt_nodeTold, State.applyAlign_eq]
  exact State.cnt_foldl_ne _ _ fun hk => h ((zip_fst_sublist ..).subset hk)

/-- The saturation bit of a node whose counter stands at its end. -/
theorem State.sat_nodeTold (s : State) {k : Nat} (hk : k < 16) (a : Align) (hmax : s.cnt (64 + k) = 0xFFFFF#20) :
    (s.nodeTold k (some a)).regB R.callCcSat k = true := by
  have hkept : KeptBut [.board, .fab, .outs, .trig, .exchR, .fabR, .fltR] (s.ccIncrement k) (s.nodeTold k (some a)) :=
    (KeptBut.packets ..).step (by decide) ((kept_setTree ..).but.step (by decide) ((kept_applyAlign ..).but.mono (by decide)))
  unfold State.regB
  rw [hkept.reg (by decide)]
  unfold State.ccIncrement
  dsimp only
  rw [hmax, if_pos (by decide)]
  exact State.regB_callBit_self (by decide) _ _ _ (by omega)

/-! The claims. -/

theorem KeptBut.stray (s : State) (p : Packet → Bool) :
    KeptBut [.fab, .outs, .powerR, .callR] s (s.opTaken p).ccStray ∧
      (s.opTaken p).ccStray.reg R.callCcStray = satAdd (s.reg R.callCcStray) 1 := by
  refine ⟨(kept_ccStray ..).but.step (by decide) ((KeptBut.opTaken s p).mono (by decide)), ?_⟩
  unfold State.ccStray
  rw [State.reg_count_self, (KeptBut.opTaken s p).reg (by decide)]

theorem State.ccEn_opTaken (s : State) (p : Packet → Bool) (k : Fin 16) : (s.opTaken p).ccEn k.val = s.ccEn k.val := by
  unfold State.ccEn State.regB
  rw [(KeptBut.opTaken s p).reg (by revert k; decide)]

theorem State.tree_opTaken (s : State) (p : Packet → Bool) (j : Nat) : (s.opTaken p).tree j = s.tree j :=
  State.tree_congr (congrArg (·.trees) ((KeptBut.opTaken s p).same .board (by decide))) j

theorem State.cnt_opTaken (s : State) (p : Packet → Bool) (i : Nat) : (s.opTaken p).cnt i = s.cnt i :=
  State.cnt_congr ((KeptBut.opTaken s p).same .board (by decide)) i

theorem curtainRelease_claim : Sys2Proof.Claims.CurtainRelease := by
  unfold Sys2Proof.Claims.CurtainRelease
  intro s k seq mc mk vals hserves t a
  let p (p : Packet) : Bool := p.opc == 4 && p.data == curtainBytes k.val true seq (some a)
  have hexec : exec (.curtainRelease k seq mc mk vals) s = ((s.opTaken p).release k.val seq a).done :=
    congrArg State.done (State.serveOp_ok hserves p fun s => s.release k.val seq a)
  have htree := s.tree_opTaken p
  refine ⟨fun hen hseq hsent => ?_, fun hnot => ?_⟩
  · have hrelease : (s.opTaken p).release k.val seq a = (s.opTaken p).ccReleaseNode k.val (some a) := by
      unfold State.release
      rw [htree, State.ccEn_opTaken]
      exact if_pos ⟨hen, hseq, hsent⟩
    have hown (hcue : t.cue = none) : (s.opTaken p).ccReleaseNode k.val (some a) = (s.opTaken p).nodeTold k.val (some a) := by
      rw [State.ccReleaseNode_eq, htree, show (s.tree k.val).cue = none from hcue]
    have htrees (j : Nat) : ((s.opTaken p).ccReleaseNode k.val (some a)).tree j = if j = k.val then t.released else s.tree j := by
      rw [State.tree_ccReleaseNode, htree, htree]
    refine Ends.of hexec hrelease ⟨(htrees _).trans (if_pos rfl), fun j hj => (htrees j).trans (if_neg hj), fun hcue q hq => ?_,
      fun hcue hlisted hroom => ?_, fun hcue hlisted hmax => ?_, fun uid hcue => ?_⟩
    · rw [hown hcue]
      exact State.cnt_nodeTold_listed _ _ _ hq
    · rw [hown hcue, State.cnt_nodeTold_own _ _ _ hlisted, State.cnt_ccIncrement, State.cnt_opTaken, if_neg (by omega),
        BitVec.toNat_ofNat]
      omega
    · rw [hown hcue, State.cnt_nodeTold_own _ _ _ hlisted, State.cnt_ccIncrement, State.cnt_opTaken, hmax]
      exact ⟨if_pos (by decide), State.sat_nodeTold _ k.isLt a ((State.cnt_opTaken ..).trans hmax)⟩
    · rw [State.ccReleaseNode_eq, htree, show (s.tree k.val).cue = some uid from hcue]
      exact State.gone_completeLocal _ uid
  · have hstray : (s.opTaken p).release k.val seq a = (s.opTaken p).ccStray := by
      unfold State.release
      rw [htree, State.ccEn_opTaken]
      refine if_neg fun h => ?_
      obtain ⟨hen, hseq, hsent⟩ := h
      rcases hnot with h | h | h
      · exact absurd (hen.symm.trans h) (by decide)
      · exact h hseq
      · exact absurd (hsent.symm.trans h) (by decide)
    obtain ⟨hkept, hcount⟩ := KeptBut.stray s p
    exact Ends.of hexec hstray ⟨hkept.same .board (by decide), hcount, hkept.same .flights (by decide)⟩

/-! Arrivals of children (R345, R346). -/

theorem State.cfg_setTree (s : State) (k : Nat) (v : CcTree) (i : Nat) : (s.setTree k v).ccKids i = s.ccKids i ∧
    (s.setTree k v).ccRoot i = s.ccRoot i ∧ (s.setTree k v).ccParent i = s.ccParent i := ⟨rfl, rfl, rfl⟩

theorem State.ccArrive_of (s : State) (k : Nat) : s.ccArrive k =
    if (s.tree k).pending ∧ (s.tree k).loc ∧ (s.tree k).sent = false ∧ (s.tree k).kids.length = s.ccKids k then
      if s.ccRoot k then (s.setTree k { s.tree k with sent := true }).ccReleaseNode k (s.tree k).align
      else (s.setTree k { s.tree k with sent := true }).sendPacket (s.ccParent k) 4 0 (curtainBytes k false (s.tree k).seq none)
    else s := rfl

section
variable {k : Fin 16} {seq : BitVec 8} {child : BitVec 12} (hen : s.ccEn k.val = true)
include hen

/-- An arrival for the call in progress, where a child is still missing. -/
theorem State.arrival_now (hseq : seq = (s.tree k.val).seq) (hroom : (s.tree k.val).kids.length < s.ccKids k.val) :
    s.arrival k.val seq child =
      (s.setTree k.val { s.tree k.val with kids := (s.tree k.val).kids ++ [child] }).ccArrive k.val := by
  unfold State.arrival
  dsimp only
  rw [if_neg (by rw [hen]; decide), if_pos hseq, if_pos hroom]

theorem State.arrival_early (hseq : seq = (s.tree k.val).seq + 1) (hroom : (s.tree k.val).early.length < s.ccKids k.val) :
    s.arrival k.val seq child = s.setTree k.val { s.tree k.val with early := (s.tree k.val).early ++ [child] } := by
  have hne : seq ≠ (s.tree k.val).seq := by rw [hseq]; bv_omega
  unfold State.arrival
  dsimp only
  rw [if_neg (by rw [hen]; decide), if_neg hne, if_pos hseq, if_pos hroom]

end

theorem State.arrival_stray {k : Nat} {seq : BitVec 8} {child : BitVec 12} (h : s.ccEn k = false ∨
    (seq ≠ (s.tree k).seq ∧ seq ≠ (s.tree k).seq + 1) ∨ (seq = (s.tree k).seq ∧ s.ccKids k ≤ (s.tree k).kids.length) ∨
    (seq = (s.tree k).seq + 1 ∧ s.ccKids k ≤ (s.tree k).early.length)) : s.arrival k seq child = s.ccStray := by
  unfold State.arrival
  dsimp only
  by_cases hen : s.ccEn k = false
  · rw [if_pos hen]
  · rw [if_neg hen]
    rcases h with h | ⟨hne, hne'⟩ | ⟨heq, hfull⟩ | ⟨heq, hfull⟩
    · exact absurd h hen
    · rw [if_neg hne, if_neg hne']
    · rw [if_pos heq, if_neg (Nat.not_lt.2 hfull)]
    · rw [if_neg (by rw [heq]; bv_omega), if_pos heq, if_neg (Nat.not_lt.2 hfull)]

theorem State.ccKids_opTaken (s : State) (p : Packet → Bool) (k : Fin 16) : (s.opTaken p).ccKids k.val = s.ccKids k.val ∧
    (s.opTaken p).ccRoot k.val = s.ccRoot k.val ∧ (s.opTaken p).ccParent k.val = s.ccParent k.val := by
  have hreg : (s.opTaken p).reg (R.callCcCfg k.val) = s.reg (R.callCcCfg k.val) :=
    (KeptBut.opTaken s p).reg (by revert k; decide)
  refine ⟨?_, ?_, ?_⟩
  · unfold State.ccKids State.regF; rw [hreg]
  · unfold State.ccRoot State.regB; rw [hreg]
  · unfold State.ccParent State.regF; rw [hreg]

theorem curtainArrival_claim : Sys2Proof.Claims.CurtainArrival := by
  unfold Sys2Proof.Claims.CurtainArrival
  intro s k seq child hserves t whole c
  let p : Packet → Bool := isPacket 4 child (curtainBytes k.val false seq none)
  have hexec : exec c s = ((s.opTaken p).arrival k.val seq child).done :=
    congrArg State.done (State.serveOp_ok hserves p fun s => s.arrival k.val seq child)
  have htree := s.tree_opTaken p
  have hen : (s.opTaken p).ccEn k.val = s.ccEn k.val := s.ccEn_opTaken p k
  obtain ⟨hkids, hroot, hparent⟩ := s.ccKids_opTaken p k
  have hcounts : (s.opTaken p).board.counts = s.board.counts := congrArg (·.counts) ((KeptBut.opTaken s p).same .board (by decide))
  have hflights : (s.opTaken p).flights = s.flights := (KeptBut.opTaken s p).same .flights (by decide)
  have hnow (hen' : s.ccEn k.val = true) (hseq : seq = t.seq) (hroom : t.kids.length < s.ccKids k.val) :
      (s.opTaken p).arrival k.val seq child =
        ((s.opTaken p).setTree k.val { t with kids := t.kids ++ [child] }).ccArrive k.val := by
    have h := State.arrival_now (s := s.opTaken p) (child := child) (hen.trans hen') (hseq.trans (congrArg (·.seq) (htree k.val)).symm)
      (by rw [htree, hkids]; exact hroom)
    rwa [htree] at h
  have harrive : ((s.opTaken p).setTree k.val { t with kids := t.kids ++ [child] }).ccArrive k.val =
      if t.pending ∧ t.loc ∧ t.sent = false ∧ (t.kids ++ [child]).length = s.ccKids k.val then
        if s.ccRoot k.val then (((s.opTaken p).setTree k.val { t with kids := t.kids ++ [child] }).setTree k.val
          { t with kids := t.kids ++ [child], sent := true }).ccReleaseNode k.val t.align
        else (((s.opTaken p).setTree k.val { t with kids := t.kids ++ [child] }).setTree k.val
          { t with kids := t.kids ++ [child], sent := true }).sendPacket (s.ccParent k.val) 4 0 (curtainBytes k.val false t.seq none)
      else (s.opTaken p).setTree k.val { t with kids := t.kids ++ [child] } := by
    obtain ⟨h1, h2, h3⟩ := State.cfg_setTree (s.opTaken p) k.val { t with kids := t.kids ++ [child] } k.val
    rw [State.ccArrive_of, State.tree_setTree, if_pos rfl, h1, h2, h3, hkids, hroot, hparent]
  have hroomOf (h : whole) : t.kids.length < s.ccKids k.val := by
    have := h.2.2.2
    omega
  refine ⟨fun h => ?_, fun hen' hseq hroom hpart => ?_, fun hen' hseq hwhole hroot' => ?_, fun hen' hseq hwhole hroot' => ?_,
    fun hen' hseq hroom => ?_⟩
  · obtain ⟨hkept, hcount⟩ := KeptBut.stray s p
    refine Ends.of hexec (State.arrival_stray ?_) ⟨hkept.same .board (by decide), hcount, hkept.same .flights (by decide)⟩
    rw [htree, hkids, hen]
    exact h
  · refine Ends.of hexec ((hnow hen' hseq hroom).trans (harrive.trans (if_neg fun h => hpart ?_))) ⟨?_, fun j hj => ?_, hcounts, hflights⟩
    · obtain ⟨h1, h2, h3, h4⟩ := h
      exact ⟨h1, h2, h3, by simpa using h4⟩
    · exact (State.tree_setTree ..).trans (if_pos rfl)
    · exact (State.tree_setTree ..).trans ((if_neg hj).trans (htree j))
  · obtain ⟨h1, h2, h3, h4⟩ := hwhole
    have heq := (hnow hen' hseq (hroomOf ⟨h1, h2, h3, h4⟩)).trans (harrive.trans ((if_pos ⟨h1, h2, h3, by simpa using h4⟩).trans
      (if_neg (by rw [hroot']; decide))))
    refine Ends.of hexec heq ⟨?_, ?_, _, rfl⟩
    · rw [State.tree_congr (congrArg (·.trees) ((kept_sendPacket ..).but.same .board (by decide))), State.tree_setTree, if_pos rfl]
    · rw [(kept_sendPacket ..).but.same .board (by decide)]
      exact hcounts
  · obtain ⟨h1, h2, h3, h4⟩ := hwhole
    have heq := (hnow hen' hseq (hroomOf ⟨h1, h2, h3, h4⟩)).trans (harrive.trans ((if_pos ⟨h1, h2, h3, by simpa using h4⟩).trans
      (if_pos hroot')))
    refine Ends.of hexec heq ?_
    rw [State.tree_ccReleaseNode, if_pos rfl, State.tree_setTree, if_pos rfl]
    rfl
  · have heq := State.arrival_early (s := s.opTaken p) (child := child) (hen.trans hen')
      (hseq.trans (congrArg (·.seq + 1) (htree k.val)).symm) (by rw [htree, hkids]; exact hroom)
    rw [htree] at heq
    exact Ends.of hexec heq ⟨(State.tree_setTree ..).trans (if_pos rfl), hcounts, hflights⟩

/-- Settles O47: an arrival counts for its call, and the last one goes on; a release brings the next call. -/
theorem curtainTree : Obligations.CurtainTree := ⟨curtainArrival_claim, curtainRelease_claim⟩

end Sys2Proof.Machine
end

section
/-! SUPPORT. What sending a packet leaves; what a read delivers depends on memory alone. -/

namespace Sys2Proof.Machine

variable {s t u : State}

/-! A packet on its way out (R422, R436 to R440). -/

/-- What sending leaves beside the parts it does not touch: the operations under way, the time-out count, and FATAL. -/
structure State.sent (s t : State) : Prop where
  rops : t.fab.rops = s.fab.rops
  timeouts : t.reg R.fabTimeouts = s.reg R.fabTimeouts
  fatal : s.fatal = true → t.fatal = true

theorem State.sent.refl (s : State) : State.sent s s := ⟨rfl, rfl, id⟩

theorem State.sent.trans (h : State.sent s t) (k : State.sent t u) : State.sent s u :=
  ⟨k.rops.trans h.rops, k.timeouts.trans h.timeouts, fun hf => k.fatal (h.fatal hf)⟩

theorem State.sent_of_regs (hrops : t.fab.rops = s.fab.rops) (hregs : t.regs = s.regs) (hbuild : t.build = s.build) :
    State.sent s t := by
  have hreg (o : Nat) : t.reg o = s.reg o := by unfold State.reg; rw [hregs, hbuild]
  refine ⟨hrops, hreg _, fun h => ?_⟩
  unfold State.fatal State.regB at *
  rw [hreg]
  exact h

theorem State.sent_emit (s : State) (o : Output) : State.sent s (s.emit o) := State.sent_of_regs rfl rfl rfl

theorem State.sent_setReg (s : State) {o : Nat} (v : Word) (ho : o ≠ R.fabTimeouts) (hf : o ≠ R.fltStatus) :
    State.sent s (s.setReg o v) := by
  refine ⟨rfl, State.reg_setReg_ne _ _ ho.symm, fun h => ?_⟩
  unfold State.fatal State.regB at *
  rw [State.reg_setReg_ne _ _ hf.symm]
  exact h

theorem State.sent_count (s : State) {o : Nat} (n : Nat) (ho : o ≠ R.fabTimeouts) (hf : o ≠ R.fltStatus) :
    State.sent s (s.count o n) := State.sent_setReg s _ ho hf

theorem State.sent_countMod (s : State) {o : Nat} (n : Nat) (ho : o ≠ R.fabTimeouts) (hf : o ≠ R.fltStatus) :
    State.sent s (s.countMod o n) := State.sent_setReg s _ ho hf

theorem State.sent_logRecord (s : State) (r : FaultRec) : State.sent s (s.logRecord r) :=
  ⟨congrArg (·.rops) ((kept_logRecord s r).but.same .fab (by decide)), (kept_logRecord s r).but.reg (by decide),
    fun h => State.fatal_logRecord s r (Or.inl h)⟩

theorem State.sent_foldl {α : Type} {f : State → α → State} (hf : ∀ s a, State.sent s (f s a)) :
    ∀ (l : List α) (s : State), State.sent s (l.foldl f s)
  | [], s => State.sent.refl s
  | a :: l, s => (hf s a).trans (State.sent_foldl hf l (f s a))

theorem State.sent_returnOwed (s : State) (pk : Packet) : State.sent s (s.returnOwed pk) :=
  State.sent_foldl (fun s _ => State.sent_emit s _) _ s

theorem State.sent_eject (s : State) (inp : Option Nat) (f : Flit) : State.sent s (s.eject inp f) := by
  unfold State.eject
  extract_lets k old pk
  clear_value pk
  split
  · split
    · refine State.sent.trans (State.sent.trans ?_ (State.sent_count _ (o := R.exchStray) 1 (by decide) (by decide))) (State.sent_returnOwed ..)
      exact State.sent_of_regs rfl rfl rfl
    · exact State.sent_of_regs rfl rfl rfl
  · exact State.sent_of_regs rfl rfl rfl

theorem State.sent_txTry {p cls : Nat} {f : Flit} (h : s.txTry p cls f = some t) : State.sent s t := by
  unfold State.txTry at h
  split at h
  · exact nomatch h
  · next c _ =>
    dsimp only at h
    split at h
    · exact nomatch h
    · rw [← Option.some.inj h]
      refine State.sent.trans (State.sent.trans ?_ (State.sent_countMod _ (o := R.fabChFlits p c) 1 ?_ ?_)) (State.sent_emit ..)
      · exact State.sent_of_regs rfl rfl rfl
      · unfold R.fabChFlits R.fabTimeouts; omega
      · unfold R.fabChFlits R.fltStatus; omega

theorem State.sent_pumpClass (s : State) (p cls : Nat) : State.sent s (s.pumpClass p cls) := by
  unfold State.pumpClass
  refine iterWhile_induct (P := State.sent s) (fun a b ha hb => ?_) _ s (State.sent.refl s)
  split at hb
  · exact nomatch hb
  · obtain ⟨v, hv, rfl⟩ := Option.map_eq_some_iff.1 hb
    exact ha.trans ((State.sent_txTry hv).trans (State.sent_of_regs rfl rfl rfl))

theorem State.sent_toPort (s : State) (p : Nat) (f : Flit) : State.sent s (s.toPort p f) := by
  unfold State.toPort
  refine State.sent.trans ?_ (State.sent_pumpClass ..)
  exact State.sent_of_regs rfl rfl rfl

theorem State.sent_forward (s : State) (inp : Option (Nat × Nat)) (f : Flit) : State.sent s (s.forward inp f).2 := by
  unfold State.forward
  split
  · exact State.sent_count _ (o := R.fabStray) 1 (by decide) (by decide)
  · split
    · exact State.sent_eject ..
    · exact State.sent_count _ (o := R.fabNoroute) 1 (by decide) (by decide)
    · split
      · exact State.sent_count _ (o := R.fabNoroute) 1 (by decide) (by decide)
      · exact State.sent_toPort ..

theorem State.sent_routeFlit (s : State) (inp : Option (Nat × Nat)) (f : Flit) : State.sent s (s.routeFlit inp f) := by
  unfold State.routeFlit
  dsimp only
  split
  · exact (State.sent_forward ..).trans ((State.sent_logRecord ..).trans (State.sent_forward ..))
  · exact State.sent_forward ..

theorem State.sent_sendPacket (s : State) (dest : BitVec 12) (opc ch : Nat) (data : List Byte) :
    State.sent s (s.sendPacket dest opc ch data) := State.sent_foldl (fun s f => State.sent_routeFlit s none f) _ s

/-! A packet of one flit that is no exchange operation (R394, R422). -/

/-- A first and last flit that is no exchange operation. -/
def Flit.plain (f : Flit) : Prop := f.sop = true ∧ f.opc ≠ 2 ∧ f.opc ≠ 6 ∧ f.opc ≠ 0xA

theorem fieldN_mkFlit_opc {opc ch : Nat} (h : opc < 16) (dest src : BitVec 12) (sop eop : Bool) (bytes : List Byte) :
    (mkFlit opc ch dest src sop eop bytes).opc = opc := by
  unfold Flit.opc fieldN mkFlit
  rw [BitVec.toNat_ofNat]
  cases sop <;> cases eop <;> simp only [if_true, Bool.false_eq_true, if_false, Nat.shiftRight_zero] <;> omega

theorem sop_mkFlit {opc ch : Nat} (h : opc < 16) (hch : ch < 4) (dest src : BitVec 12) (eop : Bool) (bytes : List Byte) :
    (mkFlit opc ch dest src true eop bytes).sop = true := by
  have hd := dest.isLt
  have hs := src.isLt
  have hbit : (mkFlit opc ch dest src true eop bytes).toNat / 2 ^ 42 % 2 = 1 := by
    unfold mkFlit
    rw [BitVec.toNat_ofNat]
    cases eop <;> simp only [if_true, Bool.false_eq_true, if_false] <;> omega
  unfold Flit.sop
  rw [BitVec.getLsbD, Nat.testBit_eq_decide_div_mod_eq, hbit]
  rfl

theorem KeptBut.eject_plain {f : Flit} (h : f.plain) (s : State) (inp : Option Nat) : KeptBut [.fab, .outs] s (s.eject inp f) := by
  obtain ⟨hsop, h2, h6, hA⟩ := h
  unfold State.eject
  extract_lets k old pk
  have hopc : pk.opc = f.opc := congrArg Packet.opc (if_pos hsop)
  have hreserved : pk.exReserved = false := by
    unfold Packet.exReserved
    rw [hopc]
    simp [h2, h6, hA]
  clear_value pk
  split
  · rw [if_neg (by rw [hreserved]; decide)]
    exact KeptBut.upd (KeptBut.upd (KeptBut.refl _ s))
  · exact KeptBut.upd (KeptBut.refl _ s)

theorem KeptBut.forward_plain {f : Flit} (h : f.plain) (s : State) (inp : Option (Nat × Nat)) :
    KeptBut [.fab, .outs, .fabR] s (s.forward inp f).2 := by
  unfold State.forward
  split
  · exact (keptBut_setReg s R.fabStray _).mono (by decide)
  · split
    · exact (KeptBut.eject_plain h s _).mono (by decide)
    · exact (keptBut_setReg s R.fabNoroute _).mono (by decide)
    · split
      · exact (keptBut_setReg s R.fabNoroute _).mono (by decide)
      · exact (kept_routeOut ..).but

theorem KeptBut.routeFlit_plain {f : Flit} (h : f.plain) (s : State) (inp : Option (Nat × Nat)) :
    KeptBut [.fab, .outs, .trig, .fabR, .fltR] s (s.routeFlit inp f) := by
  have hforward := (KeptBut.forward_plain h s inp).mono (m := [.fab, .outs, .trig, .fabR, .fltR]) (by decide)
  unfold State.routeFlit
  dsimp only
  split
  · next hdrop =>
    refine (KeptBut.forward_plain ⟨?_, ?_⟩ _ none).step (by decide) ((kept_logRecord ..).but.step (by decide) hforward)
    · exact sop_mkFlit (by decide) (Nat.mod_lt _ (by decide)) ..
    · rw [fieldN_mkFlit_opc (by decide)]
      decide
  · exact hforward

theorem packetFlits_short {opc ch : Nat} {dest src : BitVec 12} {data : List Byte} (hlen : data.length ≤ 52) :
    packetFlits opc ch dest src data = [mkFlit opc ch dest src true true data] := by
  have hn : max 1 ((data.length + 51) / 52) = 1 := by omega
  unfold packetFlits
  dsimp only
  rw [hn]
  simp only [List.range_one, List.map_cons, List.map_nil, beq_self_eq_true, Nat.mul_zero, List.drop_zero,
    List.take_of_length_le hlen, Nat.zero_add]

theorem State.sendPacket_short (s : State) (dest : BitVec 12) (opc ch : Nat) {data : List Byte} (hlen : data.length ≤ 52) :
    s.sendPacket dest opc ch data = s.routeFlit none (mkFlit opc ch dest s.coreId true true data) := by
  unfold State.sendPacket
  rw [packetFlits_short hlen, List.foldl_cons, List.foldl_nil]

/-- A packet of one flit that is no exchange operation leaves the exchange's registers too. -/
theorem KeptBut.sendPacket_short (s : State) (dest : BitVec 12) {opc ch : Nat} {data : List Byte} (hlen : data.length ≤ 52)
    (hopc : opc < 16) (hplain : opc ≠ 2 ∧ opc ≠ 6 ∧ opc ≠ 0xA) (hch : ch < 4) :
    KeptBut [.fab, .outs, .trig, .fabR, .fltR] s (s.sendPacket dest opc ch data) := by
  have hflit : (mkFlit opc ch dest s.coreId true true data).plain := by
    unfold Flit.plain
    rw [fieldN_mkFlit_opc hopc, sop_mkFlit hopc hch]
    exact ⟨rfl, hplain⟩
  rw [State.sendPacket_short s dest opc ch hlen]
  exact KeptBut.routeFlit_plain hflit s none

theorem KeptBut.sendDone (s : State) (dst : BitVec 12) {ch : Nat} (hch : ch < 4) (tag : BitVec 16) (status : Nat) :
    KeptBut [.fab, .outs, .trig, .fabR, .fltR] s (s.sendDone dst ch tag status) := by
  refine KeptBut.sendPacket_short s dst ?_ (by decide) (by decide) hch
  rw [List.length_append, length_bytesOf, length_bytesOf]
  decide

/-! Reads of memory (R232). -/

theorem State.queueCorr_congr (h : t.mem = s.mem) (w : Nat) (b : Bool) : (t.queueCorr w b).mem = (s.queueCorr w b).mem := by
  unfold State.queueCorr
  rw [h]
  split <;> rfl

theorem State.mem_retireFrame (s : State) (a : Nat) : (s.retireFrame a).mem = s.mem :=
  (kept_retireFrame s a).but.same .mem (by decide)

theorem State.mem_logRecord (s : State) (r : FaultRec) : (s.logRecord r).mem = s.mem :=
  (kept_logRecord s r).but.same .mem (by decide)

theorem State.watchWord_congr (h : t.mem = s.mem) (w : Nat) : (t.watchWord w).mem = (s.watchWord w).mem := by
  unfold State.watchWord
  dsimp only
  rw [h]
  split
  · split
    · rw [State.mem_retireFrame, State.mem_retireFrame]
    · rfl
  · rw [State.mem_logRecord, State.mem_logRecord]
    split
    · rfl
    · split <;> rfl

/-- What a read of a word delivers, and what it leaves of memory, depend on memory alone. -/
theorem State.readWord_congr (h : t.mem = s.mem) (w : Nat) : (t.readWord w).1 = (s.readWord w).1 ∧
    (t.readWord w).2.mem = (s.readWord w).2.mem := by
  unfold State.readWord
  rw [h]
  dsimp only
  split
  · exact ⟨rfl, h⟩
  · exact ⟨rfl, h⟩
  · refine ⟨rfl, State.watchWord_congr (State.queueCorr_congr ?_ _ _) _⟩
    exact h
  · refine ⟨rfl, ?_⟩
    rw [State.mem_retireFrame, State.mem_logRecord, State.mem_retireFrame, State.mem_logRecord]
    exact State.queueCorr_congr (t := t.count R.propUncorr 1) (s := s.count R.propUncorr 1) h _ _

theorem iter_congr {σ τ : Type} {R : σ → τ → Prop} {f : Nat → σ → σ} {g : Nat → τ → τ} (hstep : ∀ i a b, R a b → R (f i a) (g i b))
    (n : Nat) {a : σ} {b : τ} (h : R a b) : R (iter n f a) (iter n g b) := by
  unfold Sys2Proof.Machine.iter
  induction List.range n generalizing a b with
  | nil => exact h
  | cons i l ih => exact ih (hstep i a b h)

theorem State.readBytes_congr (h : t.mem = s.mem) (engine addr n : Nat) : (t.readBytes engine addr n).1 = (s.readBytes engine addr n).1 ∧
    (t.readBytes engine addr n).2.mem = (s.readBytes engine addr n).2.mem := by
  let R (a b : List (Byte × Bool) × State) : Prop := a.1 = b.1 ∧ a.2.mem = b.2.mem
  have hall := iter_congr (R := R) (f := fun i (st : List (Byte × Bool) × State) =>
      let q := st.2.readWord (addr / 64 + i)
      (st.1 ++ q.1.1.map (fun b => (b, q.1.2)), q.2))
    (g := fun i (st : List (Byte × Bool) × State) =>
      let q := st.2.readWord (addr / 64 + i)
      (st.1 ++ q.1.1.map (fun b => (b, q.1.2)), q.2))
    (fun i a b hab => ?_) ((addr % 64 + n + 63) / 64) (a := ([], t)) (b := ([], s)) ⟨rfl, h⟩
  · obtain ⟨hdata, hmem⟩ := hall
    unfold State.readBytes
    dsimp only at hdata hmem ⊢
    rw [hdata, hmem]
    exact ⟨rfl, rfl⟩
  · obtain ⟨hdata, hmem⟩ := hab
    obtain ⟨hword, hrest⟩ := State.readWord_congr hmem (addr / 64 + i)
    exact ⟨by dsimp only; rw [hdata, hword], hrest⟩

theorem State.readPlain_congr (h : t.mem = s.mem) (engine addr n : Nat) : (t.readPlain engine addr n).1 = (s.readPlain engine addr n).1 ∧
    (t.readPlain engine addr n).2.mem = (s.readPlain engine addr n).2.mem := by
  obtain ⟨hdata, hmem⟩ := State.readBytes_congr h engine addr n
  unfold State.readPlain
  dsimp only
  rw [hdata]
  exact ⟨rfl, hmem⟩

end Sys2Proof.Machine
end

section
/-! SUPPORT. Remote posts, writes and reads at their target, and their answers at the source. -/

namespace Sys2Proof.Machine

variable {s t u : State}

/-! Remote posts (R333, R336 to R338). -/

theorem State.fatal_opTaken (s : State) (p : Packet → Bool) : (s.opTaken p).fatal = s.fatal := by
  unfold State.fatal State.regB
  rw [(KeptBut.opTaken s p).reg (by decide)]

/-- A record of a class below 5 leaves FATAL. -/
theorem State.fatal_logRecord_of_low (s : State) {r : FaultRec} (h : r.cls ≠ 5) : (s.logRecord r).fatal = s.fatal := by
  cases hf : s.fatal with
  | true => exact State.fatal_logRecord s r (Or.inl hf)
  | false =>
    unfold State.logRecord
    extract_lets wr d s1 ws s2 s3 s4 s5 s6
    have e1 : s1.reg R.fltStatus = s.reg R.fltStatus := by
      unfold s1; split
      · rw [State.reg_count_ne _ _ (by decide), State.reg_setReg_ne _ _ (by decide)]
      · rfl
    have e2 : s2.reg R.fltStatus = s1.reg R.fltStatus := State.reg_setRegs_ne _ _ _ _ fun i hi => by
      unfold R.fltStatus R.fltRec; omega
    have e4 : s4.reg R.fltStatus = s2.reg R.fltStatus := by
      unfold s4 s3
      rw [State.reg_count_ne _ _ (by unfold R.fltStatus R.fltClassCount; omega), State.reg_setReg_ne _ _ (by decide)]
    have e5 : s5.fatal = false := by
      rw [← hf]
      unfold s5 State.fatal
      split
      · rw [State.regB_setB _ _ _ _ _ (by decide), if_neg (by decide)]
        unfold State.regB; rw [e4, e2, e1]
      · unfold State.regB; rw [e4, e2, e1]
    have e6 : s6.fatal = false := by
      unfold s6
      rw [if_neg fun hc => h hc.1]
      exact e5
    split
    · exact e6
    · exact e6

theorem State.fatal_tableUpset (s : State) {upset : Fin 3} (h : upset ≠ 2) (unit addr kind : Nat) :
    (s.tableUpset upset unit addr kind).fatal = s.fatal := by
  unfold State.tableUpset
  split
  · exact State.fatal_logRecord_of_low s (show (0 : Nat) ≠ 5 by decide)
  · rw [if_neg (show ¬ upset.val = 2 from fun h2 => h (Fin.ext h2))]

theorem KeptBut.tableUpset (s : State) {upset : Fin 3} (h : upset ≠ 2) (unit addr kind : Nat) :
    KeptBut [.trig, .fltR] s (s.tableUpset upset unit addr kind) := by
  unfold State.tableUpset
  split
  · exact (kept_logRecord ..).but
  · rw [if_neg (show ¬ upset.val = 2 from fun h2 => h (Fin.ext h2))]
    exact KeptBut.refl _ s

/-- The payload of a POST (R422). -/
def postBytes (tag : BitVec 16) (counter : BitVec 7) (delta : BitVec 12) : List Byte :=
  bytesOf 2 tag.toNat ++ [BitVec.ofNat 8 counter.toNat, 0#8] ++ bytesOf 2 delta.toNat

section
variable {src : BitVec 12} {tag : BitVec 16} {counter : BitVec 7} {delta : BitVec 12} {upset : Fin 3}

/-- The state that has taken a POST from the local port. -/
def State.postTaken (s : State) (src : BitVec 12) (tag : BitVec 16) (counter : BitVec 7) (delta : BitVec 12) : State :=
  s.opTaken (isPacket 3 src (postBytes tag counter delta))

/-- A POST taken, its counter's code checked unless FATAL is set. -/
def State.postChecked (s : State) (src : BitVec 12) (tag : BitVec 16) (counter : BitVec 7) (delta : BitVec 12) (upset : Fin 3) :
    State :=
  if (s.postTaken src tag counter delta).fatal then s.postTaken src tag counter delta
  else (s.postTaken src tag counter delta).tableUpset upset unitCallboard counter.toNat 3

theorem State.postChecked_of_clear (hfatal : s.fatal = false) (hupset : upset ≠ 2) :
    KeptBut [.fab, .outs, .powerR, .trig, .fltR] s (s.postChecked src tag counter delta upset) ∧
      (s.postChecked src tag counter delta upset).fatal = false := by
  have htaken : (s.postTaken src tag counter delta).fatal = false := (State.fatal_opTaken ..).trans hfatal
  unfold State.postChecked
  rw [if_neg (by rw [htaken]; decide), State.fatal_tableUpset _ hupset]
  exact ⟨(KeptBut.tableUpset _ hupset ..).step (by decide) ((KeptBut.opTaken ..).mono (by decide)), htaken⟩

theorem State.postChecked_of_fatal (hfatal : s.fatal = true) :
    KeptBut [.fab, .outs, .powerR, .trig, .fltR] s (s.postChecked src tag counter delta upset) ∧
      (s.postChecked src tag counter delta upset).fatal = true := by
  have htaken : (s.postTaken src tag counter delta).fatal = true := (State.fatal_opTaken ..).trans hfatal
  unfold State.postChecked
  rw [if_pos htaken]
  exact ⟨(KeptBut.opTaken ..).mono (by decide), htaken⟩

theorem State.remoteIn_held (h : s.localServes = false ∨ s.postHeld src (isPacket 3 src (postBytes tag counter delta)) = true) :
    s.remoteIn src tag counter delta upset = s := by
  unfold State.remoteIn
  dsimp only
  split
  · rfl
  · next hnot => exact State.serveOp_not (h.resolve_right hnot) _ _

variable (hserves : s.localServes = true) (hheld : s.postHeld src (isPacket 3 src (postBytes tag counter delta)) = false)
include hserves hheld

theorem State.remoteIn_eq : s.remoteIn src tag counter delta upset =
    if (s.postChecked src tag counter delta upset).fatal ∨ 64 ≤ counter.toNat then
      (s.postChecked src tag counter delta upset).sendDone src 0 tag 1
    else ((s.postChecked src tag counter delta upset).post counter.toNat delta.toInt).sendDone src 0 tag 0 := by
  unfold State.remoteIn
  dsimp only
  refine (if_neg fun h => absurd (hheld.symm.trans h) (by decide)).trans ?_
  rw [State.serveOp_ok hserves]
  rfl

theorem State.remoteIn_counts (hfatal : s.fatal = false) (hupset : upset ≠ 2) (hcounter : counter.toNat < 64) :
    ∃ v, KeptBut [.fab, .outs, .powerR, .trig, .fltR] s v ∧
      s.remoteIn src tag counter delta upset = (v.post counter.toNat delta.toInt).sendDone src 0 tag 0 := by
  obtain ⟨hkept, hclear⟩ := State.postChecked_of_clear (src := src) (tag := tag) (counter := counter) (delta := delta) hfatal hupset
  refine ⟨_, hkept, (State.remoteIn_eq hserves hheld).trans (if_neg ?_)⟩
  rw [hclear]
  simpa using hcounter

theorem State.remoteIn_refuses (h : s.fatal = true ∨ (64 ≤ counter.toNat ∧ upset ≠ 2)) :
    ∃ v, KeptBut [.fab, .outs, .powerR, .trig, .fltR] s v ∧ s.remoteIn src tag counter delta upset = v.sendDone src 0 tag 1 := by
  cases hfatal : s.fatal with
  | true =>
    obtain ⟨hkept, hstays⟩ := State.postChecked_of_fatal (src := src) (tag := tag) (counter := counter) (delta := delta)
      (upset := upset) hfatal
    exact ⟨_, hkept, (State.remoteIn_eq hserves hheld).trans (if_pos (Or.inl hstays))⟩
  | false =>
    obtain ⟨hcounter, hupset⟩ := h.resolve_left (by rw [hfatal]; decide)
    exact ⟨_, (State.postChecked_of_clear hfatal hupset).1, (State.remoteIn_eq hserves hheld).trans (if_pos (Or.inr hcounter))⟩

end

theorem State.remoteIn_upset {src : BitVec 12} {tag : BitVec 16} {counter : BitVec 7} {delta : BitVec 12}
    (hserves : s.localServes = true)
    (hheld : s.postHeld src (isPacket 3 src (postBytes tag counter delta)) = false) (hfatal : s.fatal = false) :
    ∃ v : State, v.fatal = true ∧ v.board = s.board ∧ s.remoteIn src tag counter delta 2 = v.sendDone src 0 tag 1 := by
  have htaken : (s.postTaken src tag counter delta).fatal = false := (State.fatal_opTaken ..).trans hfatal
  have heq : s.postChecked src tag counter delta 2 = (s.postTaken src tag counter delta).coreFault
      (FaultRec.plain 5 unitCallboard Code.tableUncorrectable.num counter.toNat 3) := if_neg (by rw [htaken]; decide)
  have hfault := (State.coreFault_spec (s.postTaken src tag counter delta)
    (FaultRec.plain 5 unitCallboard Code.tableUncorrectable.num counter.toNat 3) rfl).1
  rw [← heq] at hfault
  refine ⟨_, hfault, ?_, (State.remoteIn_eq hserves hheld).trans (if_pos (Or.inl hfault))⟩
  rw [heq, (kept_coreFault ..).but.same .board (by decide)]
  exact (KeptBut.opTaken ..).same .board (by decide)

theorem remotePost_claim : Sys2Proof.Claims.RemotePost := by
  unfold Sys2Proof.Claims.RemotePost
  intro s src tag counter delta upset c held
  refine ⟨fun h => Ends.of rfl (State.remoteIn_held h) rfl, fun hserves hheld => ⟨fun hfatal hupset hcounter h0 h1 => ?_,
    fun hrefused => ?_, fun hfatal hupset => ?_⟩⟩
  · obtain ⟨v, hv, heq⟩ := State.remoteIn_counts (src := src) (tag := tag) (delta := delta) hserves hheld hfatal hupset hcounter
    have hcnt (i : Nat) : v.cnt i = s.cnt i := State.cnt_congr (hv.same .board (by decide)) i
    rw [State.post_eq_of_within (by rw [hcnt]; exact h0) (by rw [hcnt]; exact h1)] at heq
    have hdone := KeptBut.sendDone (v.setCnt counter.toNat (BitVec.ofInt 20 (((v.cnt counter.toNat).toNat : Int) + delta.toInt)))
      src (ch := 0) (by decide) tag 0
    have hall := hdone.step (m := [.board, .fab, .outs, .trig, .powerR, .fabR, .fltR]) (by decide)
      ((kept_setCnt ..).but.step (by decide) (hv.mono (by decide)))
    refine Ends.of rfl heq ⟨?_, fun k hk => ?_, hall.same .lines (by decide), ⟨_, rfl⟩, hall⟩
    · rw [State.cnt_congr (hdone.same .board (by decide)), State.cnt_setCnt, if_pos rfl, hcnt, BitVec.toNat_ofInt,
        Int.emod_eq_of_lt h0 (by omega), Int.toNat_of_nonneg h0]
    · rw [State.cnt_congr (hdone.same .board (by decide)), State.cnt_setCnt, if_neg hk, hcnt]
  · obtain ⟨v, hv, heq⟩ := State.remoteIn_refuses (src := src) (tag := tag) (delta := delta) hserves hheld hrefused
    have hall := (KeptBut.sendDone v src (ch := 0) (by decide) tag 1).step (m := [.fab, .outs, .trig, .powerR, .fabR, .fltR])
      (by decide) (hv.mono (by decide))
    exact Ends.of rfl heq ⟨hall.same .board (by decide), hall.same .lines (by decide), ⟨_, rfl⟩, hall⟩
  · subst hupset
    obtain ⟨v, hv, hboard, heq⟩ := State.remoteIn_upset (src := src) (tag := tag) (delta := delta) hserves hheld hfatal
    exact Ends.of rfl heq ⟨(State.sent_sendPacket ..).fatal hv,
      ((KeptBut.sendDone v src (ch := 0) (by decide) tag 1).same .board (by decide)).trans hboard, _, rfl⟩

/-! Writes and reads of other cores (R248, R249, R334, R423). -/

theorem State.holder_congr (h : t.prop.pages = s.prop.pages) (f : Nat) : t.holder f = s.holder f := by
  unfold State.holder; rw [h]

theorem State.remoteWriteOk_congr (h : t.prop = s.prop) (a : Nat) : t.remoteWriteOk a = s.remoteWriteOk a := by
  unfold State.remoteWriteOk
  rw [State.holder_congr (congrArg (·.pages) h)]
  split
  · rw [State.handle_congr (congrArg (·.handles) h)]
  · rfl

theorem State.remoteRangeOk_congr (h : t.prop = s.prop) (a n : Nat) : t.remoteRangeOk a n = s.remoteRangeOk a n := by
  unfold State.remoteRangeOk
  simp only [State.remoteWriteOk_congr h]

theorem State.localOk_congr (h : t.prop = s.prop) (a : Nat) : t.localOk a = s.localOk a := by
  unfold State.localOk
  rw [State.holder_congr (congrArg (·.pages) h)]
  split
  · rw [State.handle_congr (congrArg (·.handles) h)]
  · rfl

theorem State.localRangeOk_congr (h : t.prop = s.prop) (a n : Nat) : t.localRangeOk a n = s.localRangeOk a n := by
  unfold State.localRangeOk
  simp only [State.localOk_congr h]

theorem State.prop_opTaken (s : State) (p : Packet → Bool) : (s.opTaken p).prop = s.prop :=
  (KeptBut.opTaken s p).same .prop (by decide)

theorem State.mem_opTaken (s : State) (p : Packet → Bool) : (s.opTaken p).mem = s.mem :=
  (KeptBut.opTaken s p).same .mem (by decide)

theorem KeptBut.remoteRefused (s : State) (p : Packet → Bool) :
    KeptBut [.fab, .outs, .powerR, .propR] s ((s.opTaken p).count R.propRemoteRefused 1) ∧
      ((s.opTaken p).count R.propRemoteRefused 1).reg R.propRemoteRefused = satAdd (s.reg R.propRemoteRefused) 1 := by
  refine ⟨(keptBut_setReg _ R.propRemoteRefused _).step (by decide) ((KeptBut.opTaken s p).mono (by decide)), ?_⟩
  rw [State.reg_count_self, (KeptBut.opTaken s p).reg (by decide)]

theorem classOf_lt (a : Nat) : classOf a < 4 := Nat.mod_lt _ (by decide)

theorem remoteAccess_claim : Sys2Proof.Claims.RemoteAccess := by
  unfold Sys2Proof.Claims.RemoteAccess
  intro s src addr tag count data a w r got
  refine ⟨fun hnot => ⟨Ends.of rfl (State.serveOp_not hnot _ _) rfl, Ends.of rfl (State.serveOp_not hnot _ _) rfl⟩,
    fun hserves => ⟨fun _ hfatal hok => ?_, fun hno => ?_, fun hfatal hok => ?_, fun hno => ?_⟩⟩
  · have heq : s.writeIn src addr tag data =
        ((s.opTaken (isPacket 0 src (writeBytes addr tag data))).land a data false).sendDone src (classOf a) tag 0 := by
      refine (State.serveOp_ok hserves _ _).trans (if_neg ?_)
      rw [State.fatal_opTaken, State.remoteRangeOk_congr (State.prop_opTaken ..), hfatal, hok]
      decide
    have hdone := KeptBut.sendDone ((s.opTaken (isPacket 0 src (writeBytes addr tag data))).land a data false) src
      (classOf_lt a) tag 0
    have hall := hdone.step (m := [.mem, .prop, .trig, .propR, .fltR, .fab, .outs, .powerR, .fabR]) (by decide)
      ((kept_land ..).but.step (by decide) ((KeptBut.opTaken ..).mono (by decide)))
    refine Ends.of rfl heq ⟨fun x => ?_, hall.same .board (by decide), hall.same .lines (by decide), _, rfl⟩
    rw [hdone.same .mem (by decide), State.read_land, State.mem_opTaken]
  · obtain ⟨hkept, hcount⟩ := KeptBut.remoteRefused s (isPacket 0 src (writeBytes addr tag data))
    have heq : s.writeIn src addr tag data =
        ((s.opTaken (isPacket 0 src (writeBytes addr tag data))).count R.propRemoteRefused 1).sendDone src (classOf a) tag 1 := by
      refine (State.serveOp_ok hserves _ _).trans (if_pos ?_)
      rw [State.fatal_opTaken, State.remoteRangeOk_congr (State.prop_opTaken ..)]
      exact hno
    have hdone := KeptBut.sendDone ((s.opTaken (isPacket 0 src (writeBytes addr tag data))).count R.propRemoteRefused 1) src
      (classOf_lt a) tag 1
    have hall := hdone.step (m := [.propR, .trig, .fltR, .fab, .outs, .powerR, .fabR]) (by decide) (hkept.mono (by decide))
    exact Ends.of rfl heq ⟨hall.same .mem (by decide), (hdone.reg (by decide)).trans hcount, hall.same .lines (by decide), _, rfl⟩
  · have hread := (State.readPlain_congr (s.mem_opTaken (isPacket 1 src (readBytesOf addr tag count))) unitFabric a count.toNat).1
    have heq : s.readIn src addr tag count = ((s.opTaken (isPacket 1 src (readBytesOf addr tag count))).readPlain unitFabric a
        count.toNat).2.sendReadData src (classOf a) tag got.2 got.1 := by
      refine (State.serveOp_ok hserves _ _).trans ((if_neg ?_).trans ?_)
      · rw [State.fatal_opTaken, State.localRangeOk_congr (State.prop_opTaken ..), hfatal, hok]
        decide
      · dsimp only
        rw [hread]
    have hall := (kept_sendReadData ((s.opTaken (isPacket 1 src (readBytesOf addr tag count))).readPlain unitFabric a count.toNat).2
      src (classOf a) tag got.2 got.1).but.step (m := [.mem, .prop, .propR, .trig, .fltR, .fab, .outs, .powerR, .exchR, .fabR])
      (by decide) ((kept_readPlain ..).but.step (by decide) ((KeptBut.opTaken ..).mono (by decide)))
    exact Ends.of rfl heq ⟨hall.same .board (by decide), hall.same .lines (by decide), _, rfl⟩
  · obtain ⟨hkept, hcount⟩ := KeptBut.remoteRefused s (isPacket 1 src (readBytesOf addr tag count))
    have heq : s.readIn src addr tag count = ((s.opTaken (isPacket 1 src (readBytesOf addr tag count))).count R.propRemoteRefused
        1).sendReadData src (classOf a) tag true (List.replicate count.toNat 0) := by
      refine (State.serveOp_ok hserves _ _).trans (if_pos ?_)
      rw [State.fatal_opTaken, State.localRangeOk_congr (State.prop_opTaken ..)]
      exact hno
    have hdone := (kept_sendReadData ((s.opTaken (isPacket 1 src (readBytesOf addr tag count))).count R.propRemoteRefused 1) src
      (classOf a) tag true (List.replicate count.toNat 0)).but
    exact Ends.of rfl heq ⟨(hdone.same .mem (by decide)).trans (hkept.same .mem (by decide)),
      (hdone.reg (by decide)).trans hcount, _, rfl⟩

end Sys2Proof.Machine
end

section
/-! SUPPORT. The answers of remote operations at their source (R250, R423, R426, R427). -/

namespace Sys2Proof.Machine

variable {s t u : State} {r : RemoteOp}

/-! The operations under way. -/

theorem State.sent_takeLocal (s : State) (p : Packet → Bool) : State.sent s (s.takeLocal p) := by
  unfold State.takeLocal
  split
  · exact State.sent.refl s
  · refine State.sent.trans ?_ (State.sent_returnOwed ..)
    exact State.sent_of_regs rfl rfl rfl

theorem State.rops_opTaken (s : State) (p : Packet → Bool) : (s.opTaken p).fab.rops = s.fab.rops :=
  (State.sent_takeLocal ..).rops.trans (congrArg (·.rops) ((kept_leaveIdle s).but.same .fab (by decide)))

/-- No operation of the tag is under way. -/
def State.gone (s : State) (tag : Nat) : Prop := ∀ q ∈ s.fab.rops, q.tag ≠ tag

theorem State.gone_of_rops {tag : Nat} (h : s.gone tag) (hrops : t.fab.rops = s.fab.rops) : t.gone tag := by
  unfold State.gone at *
  rw [hrops]
  exact h

/-- The post of a tag waits no more. -/
def State.unwaits (s : State) (tag : Nat) : State := { s with fab := { s.fab with rops := s.fab.rops.map (RemoteOp.leaves tag) } }

theorem State.gone_unwaits {tag : Nat} (h : s.gone tag) (k : Nat) : (s.unwaits k).gone tag := by
  intro x hx
  obtain ⟨y, hy, rfl⟩ := List.mem_map.1 hx
  have htag : (RemoteOp.leaves k y).tag = y.tag := by unfold RemoteOp.leaves; split <;> rfl
  rw [htag]
  exact h y hy

theorem State.reg_unwaits (s : State) (tag o : Nat) : (s.unwaits tag).reg o = s.reg o := rfl

/-- A post that waits leaves, where nothing of class 0 to its core stands before it (R425). -/
def State.postLeaves (s : State) (r : RemoteOp) : State := match r.waits with
  | none => s
  | some (k, d) =>
    if s.classZeroOpen r.dst then s
    else (s.unwaits r.tag).sendPost r.dst r.tag k d

theorem State.pumpPosts_eq (s : State) : s.pumpPosts = s.fab.rops.foldl State.postLeaves s := rfl

theorem State.sent_sendPost (s : State) (dst : BitVec 12) (tag counter : Nat) (delta : BitVec 12) :
    State.sent s (s.sendPost dst tag counter delta) := by
  unfold State.sendPost
  exact State.sent_sendPacket ..

/-- A post that leaves keeps the tags under way and the count of time-outs. -/
theorem State.postLeaves_spec {tag : Nat} (h : s.gone tag) (r : RemoteOp) :
    (s.postLeaves r).gone tag ∧ (s.postLeaves r).reg R.fabTimeouts = s.reg R.fabTimeouts := by
  unfold State.postLeaves
  split
  · exact ⟨h, rfl⟩
  · split
    · exact ⟨h, rfl⟩
    · next k d _ _ =>
      have hsent := State.sent_sendPost (s.unwaits r.tag) r.dst r.tag k d
      exact ⟨State.gone_of_rops (State.gone_unwaits h r.tag) hsent.rops, hsent.timeouts.trans (State.reg_unwaits ..)⟩

theorem State.pumpPosts_spec {tag : Nat} (h : s.gone tag) :
    s.pumpPosts.gone tag ∧ s.pumpPosts.reg R.fabTimeouts = s.reg R.fabTimeouts := by
  have hfold : ∀ (l : List RemoteOp) (u : State), u.gone tag →
      (l.foldl State.postLeaves u).gone tag ∧ (l.foldl State.postLeaves u).reg R.fabTimeouts = u.reg R.fabTimeouts := by
    intro l
    induction l with
    | nil => exact fun _ h => ⟨h, rfl⟩
    | cons q l ih =>
      intro u hu
      obtain ⟨hgone, hreg⟩ := State.postLeaves_spec hu q
      exact ⟨(ih _ hgone).1, (ih _ hgone).2.trans hreg⟩
  rw [State.pumpPosts_eq]
  exact hfold _ s h

theorem State.ropDone_spec (s : State) (r : RemoteOp) :
    (s.ropDone r).gone r.tag ∧ (s.ropDone r).reg R.fabTimeouts = s.reg R.fabTimeouts := by
  unfold State.ropDone
  refine State.pumpPosts_spec (s := { s with fab := { s.fab with rops := s.fab.rops.filter fun q => q.tag != r.tag } }) ?_
  intro q hq
  simpa using (List.mem_filter.1 hq).2

/-! The transfer of an operation (R423, R426). -/

theorem State.fab_flySettle (s : State) (uid : Nat) : (s.flySettle uid).fab = s.fab :=
  (kept_flySettle s uid).but.same .fab (by decide)

/-- A transfer that ends keeps the reason for which its line will halt. -/
theorem State.after_flySettle (s : State) (uid : Nat) :
    ((s.flySettle uid).flight uid).map (·.after) = (s.flight uid).map (·.after) := by
  unfold State.flySettle
  dsimp only
  split
  · next f hf =>
    split
    · show ((s.finishFlight uid).flight uid).map (·.after) = _
      unfold State.finishFlight
      rw [find?_updFlight (g := fun f => { f with units := 0, stage := .finished }) (fun _ => rfl), if_pos rfl, Option.map_map]
      rfl
    · rfl
  · rfl

/-- A transfer whose operation is lost or refused will halt its line. -/
theorem State.after_flyFails {uid : Nat} {f : Flight} (hf : s.flight uid = some f) (hafter : f.after = none) (code : Code) :
    ((s.flyFails uid code).flight uid).map (·.after) = some (some (BitVec.ofNat 8 code.num, BitVec.ofNat 8 f.q.cue.engine)) := by
  unfold State.flyFails
  rw [find?_updFlight (fun f => by split <;> rfl), if_pos rfl, hf, Option.map_map, Option.map_some, Function.comp_apply,
    if_neg (by rw [hafter]; decide)]

theorem State.flights_ropDone (s : State) (r : RemoteOp) : (s.ropDone r).flights = s.flights :=
  (kept_ropDone s r).but.same .flights (by decide)

theorem State.lines_ropDone (s : State) (r : RemoteOp) : (s.ropDone r).lines = s.lines :=
  (kept_ropDone s r).but.same .lines (by decide)

/-- A write or a read of a transfer that is lost or refused: its line halts once it has completed. -/
theorem State.ropFails_spec (s : State) (hkind : r.kind ≠ .post) (code : Code) :
    (s.ropFails r code).gone r.tag ∧ (s.ropFails r code).reg R.fabTimeouts = s.reg R.fabTimeouts ∧
      (s.ropFails r code).lines = s.lines ∧
      ∀ f, s.flight r.uid = some f → f.after = none → ((s.ropFails r code).flight r.uid).map (·.after) =
        some (some (BitVec.ofNat 8 code.num, BitVec.ofNat 8 f.q.cue.engine)) := by
  have hdone := s.ropDone_spec r
  have hends (v : State) (hv : KeptBut [.fly] (s.ropDone r) v) :
      ((v.flyFails r.uid code).flySettle r.uid).gone r.tag ∧
      ((v.flyFails r.uid code).flySettle r.uid).reg R.fabTimeouts = s.reg R.fabTimeouts ∧
      ((v.flyFails r.uid code).flySettle r.uid).lines = s.lines ∧
      ∀ f, s.flight r.uid = some f → f.after = none → (((v.flyFails r.uid code).flySettle r.uid).flight r.uid).map (·.after) =
        some (some (BitVec.ofNat 8 code.num, BitVec.ofNat 8 f.q.cue.engine)) := by
    have hall : KeptBut [.fly, .flights, .flyR] (s.ropDone r) ((v.flyFails r.uid code).flySettle r.uid) :=
      (kept_flySettle ..).but.step (by decide) ((kept_flyFails ..).but.step (by decide) (hv.mono (by decide)))
    refine ⟨State.gone_of_rops hdone.1 (congrArg (·.rops) (hall.same .fab (by decide))), (hall.reg (by decide)).trans hdone.2,
      (hall.same .lines (by decide)).trans (s.lines_ropDone r), fun f hf hafter => ?_⟩
    rw [State.after_flySettle]
    refine State.after_flyFails ?_ hafter code
    rw [State.flight_congr ((hv.same .flights (by decide)).trans (s.flights_ropDone r))]
    exact hf
  unfold State.ropFails
  dsimp only
  split
  · exact hends _ (KeptBut.refl _ _)
  · exact hends _ (kept_flyData ..).but
  · exact absurd ‹_› hkind

/-- A post that is lost or refused halts its line, where that is enabled. -/
theorem State.ropFails_post (s : State) (hkind : r.kind = .post) (henabled : (s.line r.line).enabled = true) (code : Code) :
    (s.ropFails r code).gone r.tag ∧ ((s.ropFails r code).line r.line).halted = true ∧
      ((s.line r.line).halted = false → (s.ropFails r code).regF (R.lineHaltReason r.line.idx) 0 8 = code.num) := by
  have hline : (s.ropDone r).line r.line = s.line r.line := State.line_of_lines (s.lines_ropDone r) _
  have heq : s.ropFails r code = (s.ropDone r).halt r.line code r.q.cue.engine false r.q.haltCue := by
    unfold State.ropFails
    dsimp only
    rw [hkind]
    exact if_pos (hline.symm ▸ henabled)
  rw [heq]
  refine ⟨State.gone_of_rops (s.ropDone_spec r).1 (congrArg (·.rops) ((kept_halt ..).but.same .fab (by decide))),
    State.halted_halt .., fun hrun => ?_⟩
  rw [State.regF, (State.halt_spec (hline.symm ▸ hrun) code r.q.cue.engine false r.q.haltCue).2.1, fieldN_haltReasonWord_reason]
  exact Nat.mod_eq_of_lt (Code.num_lt code)

/-! Data for the transfer that asked (R423). -/

theorem FlyEng.find_put {g : FlyEng} {x y : Xfer} {uid : Nat} (h : g.find uid = some x) (hy : y.uid = uid) :
    (g.put y).find uid = some y := by
  have hmap : ∀ l : List Xfer, (l.find? (·.uid == uid)).isSome = true →
      (l.map fun z => if z.uid = y.uid then y else z).find? (·.uid == uid) = some y := by
    intro l
    induction l with
    | nil => exact fun h => nomatch h
    | cons z l ih =>
      intro hsome
      rw [List.map_cons, List.find?_cons]
      by_cases hz : z.uid = uid
      · rw [if_pos (hz.trans hy.symm), hy, beq_self_eq_true]
      · rw [if_neg (hy ▸ hz), beq_eq_false_iff_ne.2 hz]
        rw [List.find?_cons, beq_eq_false_iff_ne.2 hz] at hsome
        exact ih hsome
  unfold FlyEng.find
  rw [FlyEng.moving_put]
  exact hmap _ (by rw [show g.moving.find? (·.uid == uid) = some x from h]; rfl)

/-- An engine set in place of the one that holds the transfer is the one that holds it. -/
theorem NMap.find?_put_of_find? {α : Type} {p : Nat × α → Bool} {e : Nat} {g v : α} (hg : p (e, g) = true) :
    ∀ {m : NMap α}, m.find? p = some (e, v) → (NMap.put m e g).find? p = some (e, g)
  | (k, w) :: m, h => by
    unfold NMap.put
    split
    · rw [List.find?_cons, hg]
    · split
      · rw [List.find?_cons, hg]
      · next hne =>
        rw [List.find?_cons] at h ⊢
        cases hp : p (k, w) with
        | true =>
          rw [hp] at h
          exact absurd (congrArg Prod.fst (Option.some.inj h)).symm hne
        | false =>
          rw [hp] at h
          exact NMap.find?_put_of_find? hg h

theorem State.moverOf_setXfer {uid e : Nat} {x y : Xfer} (h : s.moverOf uid = some (e, x)) (hfind : (s.flyEng e).find uid = some x)
    (hy : y.uid = uid) : (s.setXfer e y).moverOf uid = some (e, y) := by
  have hput := FlyEng.find_put hfind hy
  have hne : (s.flyEng e).put y ≠ FlyEng.init := by
    intro he
    rw [he] at hput
    exact nomatch hput
  have hheld : ∃ v, s.fly.find? (fun e => (e.2.find uid).isSome) = some (e, v) := by
    unfold State.moverOf at h
    split at h
    · next k v hv =>
      obtain ⟨z, -, hz⟩ := Option.map_eq_some_iff.1 h
      have hk : k = e := congrArg Prod.fst hz
      exact ⟨v, hk ▸ hv⟩
    · exact nomatch h
  obtain ⟨v, hv⟩ := hheld
  have hset : (s.setXfer e y).fly = NMap.put s.fly e ((s.flyEng e).put y) := if_neg hne
  unfold State.moverOf
  rw [hset, NMap.find?_put_of_find? (by rw [hput]; rfl) hv]
  dsimp only
  rw [hput]
  rfl

/-- What stands in the inbox once groups of data have entered it. -/
theorem NMap.get_foldl_put {α : Type} (d : α) {key : Nat → Nat} (hkey : ∀ i j, key i = key j → i = j) (val : Nat → α) {k : Nat} :
    ∀ (l : List Nat) (m : NMap α), k ∈ l → NMap.get d (l.foldl (fun m k => NMap.put m (key k) (val k)) m) (key k) = val k := by
  have hstay : ∀ (l : List Nat) (m : NMap α), NMap.get d m (key k) = val k →
      NMap.get d (l.foldl (fun m k => NMap.put m (key k) (val k)) m) (key k) = val k := by
    intro l
    induction l with
    | nil => exact fun _ h => h
    | cons j l ih =>
      intro m h
      refine ih _ ?_
      rw [NMap.get_put]
      split
      · next he => rw [hkey _ _ he]
      · exact h
  intro l
  induction l with
  | nil => exact fun _ h => absurd h List.not_mem_nil
  | cons j l ih =>
    intro m hk
    rcases List.mem_cons.1 hk with rfl | hk
    · exact hstay l _ (by rw [NMap.get_put, if_pos rfl])
    · exact ih _ hk

theorem take_drop_map_range (f : Nat → Byte) {n k eb : Nat} (h : k < n / eb) :
    (((List.range n).map f).drop (k * eb)).take eb = (List.range eb).map fun i => f (k * eb + i) := by
  have hle : (k + 1) * eb ≤ n := (Nat.mul_le_mul_right eb h).trans (Nat.div_mul_le_self n eb)
  rw [Nat.add_mul, Nat.one_mul] at hle
  refine List.ext_getElem ?_ fun i h1 h2 => ?_
  · simp only [List.length_take, List.length_drop, List.length_map, List.length_range]
    omega
  · simp

/-- The transfer with other groups in its inbox. -/
def Xfer.receives (x : Xfer) (inbox : NMap (Nat × Bool)) : Xfer := { x with inbox := inbox }

/-- The inbox of a transfer once `data` has come for it. -/
def Xfer.inboxWith (x : Xfer) (pos part : Nat) (data : List Byte) (poison : Bool) : NMap (Nat × Bool) :=
  let eb := if part = 1 then 1 else groupBytes (fmtD x.sfmt)
  (List.range (data.length / eb)).foldl (fun m k =>
    NMap.put m (2 * (pos + k * x.group) + part) (numOf ((data.drop (k * eb)).take eb), poison)) x.inbox

theorem State.flyData_eq {uid e : Nat} {x : Xfer} (h : s.moverOf uid = some (e, x)) (pos part : Nat) (data : List Byte)
    (poison : Bool) : s.flyData uid pos part data poison = s.setXfer e (x.receives (x.inboxWith pos part data poison)) := by
  unfold State.flyData
  rw [h]
  rfl

theorem State.inbox_flyData {uid e n pos part : Nat} {x : Xfer} (h : s.moverOf uid = some (e, x))
    (hfind : (s.flyEng e).find uid = some x) (hgroup : 0 < x.group) (data : List Byte) (poison : Bool) {k : Nat}
    (hk : k < n / (if part = 1 then 1 else groupBytes (fmtD x.sfmt))) :
    ((s.flyData uid pos part ((List.range n).map fun i => listGet 0 data i) poison).moverOf uid).map
      (fun y => NMap.get (0, false) y.2.inbox (2 * (pos + k * x.group) + part)) =
      some (numOf ((List.range (if part = 1 then 1 else groupBytes (fmtD x.sfmt))).map fun i =>
        listGet 0 data (k * (if part = 1 then 1 else groupBytes (fmtD x.sfmt)) + i)), poison) := by
  have huid : x.uid = uid := by simpa using List.find?_some hfind
  have hmover (inbox : NMap (Nat × Bool)) := State.moverOf_setXfer h hfind (y := x.receives inbox) huid
  rw [State.flyData_eq h, hmover, Option.map_some]
  show some (NMap.get (0, false) (x.inboxWith pos part _ poison) _) = _
  unfold Xfer.inboxWith
  generalize (if part = 1 then 1 else groupBytes (fmtD x.sfmt)) = eb at hk ⊢
  dsimp only
  rw [List.length_map, List.length_range]
  have hkey (i j : Nat) (he : 2 * (pos + i * x.group) + part = 2 * (pos + j * x.group) + part) : i = j :=
    Nat.eq_of_mul_eq_mul_right hgroup (by omega)
  rw [NMap.get_foldl_put (0, false) (key := fun k => 2 * (pos + k * x.group) + part) hkey _ _ _ (List.mem_range.2 hk),
    take_drop_map_range _ hk]

/-! The answers. -/

theorem State.moverOf_congr (h : t.fly = s.fly) (uid : Nat) : t.moverOf uid = s.moverOf uid := by
  unfold State.moverOf; rw [h]

/-- An answer that finds no operation counts as stray (R426). -/
theorem State.ropStray_spec (s : State) (p : Packet → Bool) : (s.opTaken p).ropStray.reg R.fabStray = satAdd (s.reg R.fabStray) 1 ∧
    (s.opTaken p).ropStray.fab.rops = s.fab.rops ∧ (s.opTaken p).ropStray.flights = s.flights ∧
    (s.opTaken p).ropStray.fly = s.fly ∧ (s.opTaken p).ropStray.lines = s.lines := by
  have htaken := KeptBut.opTaken s p
  refine ⟨?_, s.rops_opTaken p, htaken.same .flights (by decide), htaken.same .fly (by decide), htaken.same .lines (by decide)⟩
  unfold State.ropStray
  rw [State.reg_count_self, htaken.reg (by decide)]

/-- The packet of a DONE. -/
def donePacket (src : BitVec 12) (tag : BitVec 16) (status : BitVec 8) : Packet → Bool :=
  isPacket 8 src (bytesOf 2 tag.toNat ++ [status])

/-- The packet of a READ_DATA. -/
def readDataPacket (src : BitVec 12) (tag : BitVec 16) (status : BitVec 8) (data : List Byte) : Packet → Bool :=
  isPacket 9 src (bytesOf 2 tag.toNat ++ [status] ++ data)

/-- The packet of an UNREACHABLE. -/
def unreachablePacket (opc : Nat) (router : BitVec 12) (key : BitVec 32) : Packet → Bool :=
  fun p => p.opc == 0xB && p.src == router && p.data == bytesOf 4 key.toNat ++ [BitVec.ofNat 8 opc]

/-- What a DONE does to the operation that it finds (R426). -/
def State.doneFor (s : State) (status : BitVec 8) : Option RemoteOp → State
  | none => s.ropStray
  | some r => match r.kind with
    | .read _ _ _ => s.ropStray
    | _ => if status = 0 then (s.ropDone r).flySettle r.uid else s.ropFails r .remoteRefused

/-- What READ_DATA does to the operation that it finds (R423). -/
def State.readFor (s : State) (status : BitVec 8) (data : List Byte) : Option RemoteOp → State
  | none => s.ropStray
  | some r => match r.kind with
    | .read pos part n =>
      ((s.ropDone r).flyData r.uid pos part ((List.range n).map fun i => listGet 0 data i) (status != 0)).flySettle r.uid
    | _ => s.ropStray

/-- What an UNREACHABLE does to the operation that it finds (R427). -/
def State.lostFor (s : State) (opc : Nat) : Option RemoteOp → State
  | none => if opc = 0 ∨ opc = 1 ∨ opc = 3 then s.ropStray else s
  | some r => s.ropFails r .remoteUnreachable

section
variable {src : BitVec 12} {tag : BitVec 16} {status : BitVec 8} {data : List Byte} (hserves : s.localServes = true)
include hserves

theorem State.doneIn_eq : s.doneIn src tag status = (s.opTaken (donePacket src tag status)).doneFor status
    (s.fab.rops.find? fun q => q.tag == tag.toNat && q.dst == src && q.waits.isNone) := by
  rw [← State.rops_opTaken s (donePacket src tag status)]
  exact State.serveOp_ok hserves _ _

theorem State.readDataIn_eq : s.readDataIn src tag status data = (s.opTaken (readDataPacket src tag status data)).readFor status data
    (s.fab.rops.find? fun q => q.tag == tag.toNat && q.dst == src) := by
  rw [← State.rops_opTaken s (readDataPacket src tag status data)]
  exact State.serveOp_ok hserves _ _

theorem State.unreachableIn_eq (opc : Nat) (key : BitVec 32) :
    s.unreachableIn opc src key = (s.opTaken (unreachablePacket opc src key)).lostFor opc
      (s.fab.rops.find? fun q => q.kind.isOpc opc && q.waits.isNone && decide (q.tag = key.toNat)) := by
  rw [← State.rops_opTaken s (unreachablePacket opc src key)]
  exact State.serveOp_ok hserves _ _

/-- An UNREACHABLE of an operation of the exchange ends no remote operation (R427). -/
theorem State.unreachableIn_exchange (key : BitVec 32) : s.unreachableIn 2 src key = s.opTaken (unreachablePacket 2 src key) := by
  rw [State.unreachableIn_eq hserves, List.find?_eq_none.2]
  · rfl
  · intro q _ hq
    rw [show q.kind.isOpc 2 = false by cases q.kind <;> rfl] at hq
    exact nomatch hq

theorem readData_stray (h : ∀ q ∈ s.fab.rops, ¬(q.tag = tag.toNat ∧ q.dst = src)) :
    s.readDataIn src tag status data = (s.opTaken (readDataPacket src tag status data)).ropStray := by
  rw [State.readDataIn_eq hserves, List.find?_eq_none.2]
  · rfl
  · intro q hq hp
    simp only [Bool.and_eq_true, beq_iff_eq] at hp
    exact h q hq hp

theorem done_stray (h : ∀ q ∈ s.fab.rops, ¬(q.tag = tag.toNat ∧ q.dst = src)) :
    s.doneIn src tag status = (s.opTaken (donePacket src tag status)).ropStray := by
  rw [State.doneIn_eq hserves, List.find?_eq_none.2]
  · rfl
  · intro q hq hp
    simp only [Bool.and_eq_true, beq_iff_eq] at hp
    exact h q hq hp.1

end

/-- READ_DATA hands its bytes to the transfer that asked. -/
theorem State.readFor_spec (s : State) {pos part n e : Nat} {x : Xfer} (hkind : r.kind = .read pos part n) (p : Packet → Bool)
    (h : s.moverOf r.uid = some (e, x)) (hfind : (s.flyEng e).find r.uid = some x) (hgroup : 0 < x.group) (status : BitVec 8)
    (data : List Byte) :
    ((s.opTaken p).readFor status data (some r)).gone r.tag ∧
      ∀ k, k < n / (if part = 1 then 1 else groupBytes (fmtD x.sfmt)) →
        (((s.opTaken p).readFor status data (some r)).moverOf r.uid).map
          (fun y => NMap.get (0, false) y.2.inbox (2 * (pos + k * x.group) + part)) =
          some (numOf ((List.range (if part = 1 then 1 else groupBytes (fmtD x.sfmt))).map fun i =>
            listGet 0 data (k * (if part = 1 then 1 else groupBytes (fmtD x.sfmt)) + i)), status != 0) := by
  have heq : (s.opTaken p).readFor status data (some r) =
      (((s.opTaken p).ropDone r).flyData r.uid pos part ((List.range n).map fun i => listGet 0 data i) (status != 0)).flySettle r.uid := by
    unfold State.readFor
    dsimp only
    rw [hkind]
  have hfly : ((s.opTaken p).ropDone r).fly = s.fly :=
    ((kept_ropDone ..).but.same .fly (by decide)).trans ((KeptBut.opTaken s p).same .fly (by decide))
  rw [heq]
  constructor
  · refine State.gone_of_rops ((s.opTaken p).ropDone_spec r).1 ?_
    rw [State.fab_flySettle]
    exact congrArg (·.rops) ((kept_flyData ..).but.same .fab (by decide))
  · intro k hk
    rw [State.moverOf_congr ((kept_flySettle ..).but.same .fly (by decide))]
    exact State.inbox_flyData ((State.moverOf_congr hfly _).trans h) (by rw [State.flyEng_congr hfly]; exact hfind) hgroup data _ hk

/-- A DONE 0 ends its operation. -/
theorem State.doneFor_done (s : State) (hkind : r.kind = .write ∨ r.kind = .post) (p : Packet → Bool) :
    ((s.opTaken p).doneFor 0 (some r)).gone r.tag ∧ ((s.opTaken p).doneFor 0 (some r)).lines = s.lines := by
  have heq : (s.opTaken p).doneFor 0 (some r) = ((s.opTaken p).ropDone r).flySettle r.uid := by
    unfold State.doneFor
    dsimp only
    rcases hkind with h | h <;> rw [h] <;> exact if_pos rfl
  rw [heq]
  refine ⟨State.gone_of_rops ((s.opTaken p).ropDone_spec r).1 (congrArg (·.rops) (State.fab_flySettle ..)), ?_⟩
  calc _ = ((s.opTaken p).ropDone r).lines := (kept_flySettle ..).but.same .lines (by decide)
    _ = (s.opTaken p).lines := State.lines_ropDone ..
    _ = s.lines := (KeptBut.opTaken s p).same .lines (by decide)

theorem State.doneFor_refused {status : BitVec 8} (hstatus : status ≠ 0) (hkind : r.kind = .write ∨ r.kind = .post) :
    s.doneFor status (some r) = s.ropFails r .remoteRefused := by
  unfold State.doneFor
  dsimp only
  rcases hkind with h | h <;> rw [h] <;> exact if_neg hstatus

/-- A transfer's operation that an answer of the fabric ends badly. -/
theorem State.taken_ropFails_spec (s : State) (p : Packet → Bool) (hkind : r.kind ≠ .post) (code : Code) :
    ((s.opTaken p).ropFails r code).gone r.tag ∧ ((s.opTaken p).ropFails r code).lines = s.lines ∧
      ∀ f, s.flight r.uid = some f → f.after = none → (((s.opTaken p).ropFails r code).flight r.uid).map (·.after) =
        some (some (BitVec.ofNat 8 code.num, BitVec.ofNat 8 f.q.cue.engine)) := by
  have htaken := KeptBut.opTaken s p
  obtain ⟨hgone, -, hlines, hafter⟩ := (s.opTaken p).ropFails_spec hkind code
  refine ⟨hgone, hlines.trans (htaken.same .lines (by decide)), fun f hf => hafter f ?_⟩
  rw [State.flight_congr (htaken.same .flights (by decide))]
  exact hf

/-- A post that an answer of the fabric ends badly. -/
theorem State.taken_ropFails_post (s : State) (p : Packet → Bool) (hkind : r.kind = .post) (henabled : (s.line r.line).enabled = true)
    (code : Code) :
    ((s.opTaken p).ropFails r code).gone r.tag ∧ (((s.opTaken p).ropFails r code).line r.line).halted = true ∧
      ((s.line r.line).halted = false → ((s.opTaken p).ropFails r code).regF (R.lineHaltReason r.line.idx) 0 8 = code.num) := by
  have hline : (s.opTaken p).line r.line = s.line r.line := State.line_of_lines ((KeptBut.opTaken s p).same .lines (by decide)) _
  obtain ⟨hgone, hhalted, hreason⟩ := (s.opTaken p).ropFails_post hkind (hline.symm ▸ henabled) code
  exact ⟨hgone, hhalted, fun h => hreason (hline.symm ▸ h)⟩

/-! The time-out (R427, R519). -/

section
variable {tag : Nat}

theorem State.ropTimeout_nothing (h : s.enginesRun = false ∨ s.age (.remote tag) < (s.reg R.fabOpTicks).toNat ∨
    ∀ q ∈ s.fab.rops, q.tag ≠ tag ∨ q.kind = .post) : s.ropTimeout tag = s := by
  unfold State.ropTimeout
  split
  · rfl
  · next hrun =>
    have hnone : s.ropOf (fun r => r.kind != .post && r.tag == tag && decide ((s.reg R.fabOpTicks).toNat ≤ s.age (.remote tag))) =
        none := by
      refine List.find?_eq_none.2 fun q hq hp => ?_
      simp only [Bool.and_eq_true, bne_iff_ne, beq_iff_eq, decide_eq_true_eq] at hp
      obtain ⟨⟨hkind, htag⟩, hage⟩ := hp
      rcases h with h | h | h
      · exact hrun h
      · exact absurd hage (Nat.not_le_of_lt h)
      · exact (h q hq).elim (fun h => h htag) hkind
    rw [hnone]

theorem State.ropTimeout_some (hrun : s.enginesRun = true) (hage : (s.reg R.fabOpTicks).toNat ≤ s.age (.remote tag))
    (h : s.fab.rops.find? (fun q => q.kind != .post && q.tag == tag) = some r) :
    s.ropTimeout tag = (s.count R.fabTimeouts 1).ropFails r .remoteTimeout := by
  unfold State.ropTimeout State.ropOf
  simp only [decide_eq_true hage, Bool.and_true]
  rw [if_neg (by rw [hrun]; decide), h]

end

/-- The operation that an answer finds has the tag of the answer. -/
theorem RemoteOp.tag_of_find {ops : List RemoteOp} {tag : BitVec 16} {p q : RemoteOp → Bool}
    (h : ops.find? (fun x => x.tag == tag.toNat && p x && q x) = some r) : r.tag = tag.toNat := by
  have hr := List.find?_some h
  simp only [Bool.and_eq_true, beq_iff_eq] at hr
  exact hr.1.1

theorem remoteAnswers_claim : Sys2Proof.Claims.RemoteAnswers := by
  intro s src tag status data r f
  dsimp only
  refine ⟨fun hserves => ⟨fun hnone => ⟨?_, ?_⟩, fun pos part n e x hfound hkind hmover hfind hgroup => ?_,
    fun hfound => ⟨fun hkind hstatus => ?_, fun hkind hstatus => ?_, fun hkind hstatus => ?_, fun hkind hstatus henabled => ?_⟩,
    fun opc key hfound => ⟨fun hkind => ?_, fun hkind henabled => ?_⟩, fun key => ?_⟩, fun hnothing => ?_, fun hrun hage hfound => ?_⟩
  · exact Ends.of rfl (readData_stray hserves hnone) (State.ropStray_spec ..)
  · exact Ends.of rfl (done_stray hserves hnone) (State.ropStray_spec ..)
  · have htag : r.tag = tag.toNat := by
      have hr := List.find?_some hfound
      simp only [Bool.and_eq_true, beq_iff_eq] at hr
      exact hr.1
    refine Ends.of rfl (State.readDataIn_eq hserves) ?_
    rw [hfound, ← htag]
    exact s.readFor_spec hkind _ hmover hfind hgroup status data
  · refine Ends.of rfl (State.doneIn_eq hserves) ?_
    rw [hfound, hstatus, ← RemoteOp.tag_of_find hfound]
    exact s.doneFor_done (.inl hkind) _
  · refine Ends.of rfl (State.doneIn_eq hserves) ?_
    rw [hfound, hstatus, ← RemoteOp.tag_of_find hfound]
    exact s.doneFor_done (.inr hkind) _
  · refine Ends.of rfl (State.doneIn_eq hserves) ?_
    rw [hfound, State.doneFor_refused hstatus (.inl hkind), ← RemoteOp.tag_of_find hfound]
    obtain ⟨hgone, hlines, hafter⟩ := s.taken_ropFails_spec (donePacket src tag status) (by rw [hkind]; decide) .remoteRefused
    exact ⟨hgone, hlines, hafter f⟩
  · refine Ends.of rfl (State.doneIn_eq hserves) ?_
    rw [hfound, State.doneFor_refused hstatus (.inr hkind), ← RemoteOp.tag_of_find hfound]
    exact s.taken_ropFails_post _ hkind henabled _
  · refine Ends.of rfl (State.unreachableIn_eq hserves ..) ?_
    rw [hfound]
    obtain ⟨-, hlines, hafter⟩ :=
      s.taken_ropFails_spec (unreachablePacket opc.toNat src key) (by rw [hkind]; decide) .remoteUnreachable
    exact ⟨hlines, hafter f⟩
  · refine Ends.of rfl (State.unreachableIn_eq hserves ..) ?_
    rw [hfound]
    exact (s.taken_ropFails_post _ hkind henabled _).2
  · refine Ends.of rfl (State.unreachableIn_exchange hserves key) ⟨?_, s.rops_opTaken _, ?_⟩
    · exact (KeptBut.opTaken s _).same .exch (by decide)
    · exact (KeptBut.opTaken s _).same .flights (by decide)
  · exact Ends.of rfl (State.ropTimeout_nothing hnothing) rfl
  · have hr := List.find?_some hfound
    simp only [Bool.and_eq_true, bne_iff_ne, beq_iff_eq] at hr
    obtain ⟨hkind, htag⟩ := hr
    refine Ends.of rfl (State.ropTimeout_some hrun hage hfound) ?_
    obtain ⟨hgone, htimeouts, hlines, hafter⟩ := (s.count R.fabTimeouts 1).ropFails_spec hkind .remoteTimeout
    exact ⟨htag ▸ hgone, htimeouts.trans (State.reg_count_self ..), hafter f, hlines⟩

/-- Settles O48: a command of a remote operation takes its packet from the local port, which keeps the operations of this core
(`State.opTaken`); an answer then ends the one operation of its tag. -/
theorem remoteOperations : Obligations.RemoteOperations :=
  ⟨remotePost_claim, remoteAccess_claim, remoteAnswers_claim⟩

end Sys2Proof.Machine
end

section
/-! SUPPORT. A page table that lists a descriptor twice: a write into one page changes who holds another frame. -/

namespace Sys2Proof.Machine

variable {s t u : State}

/-- A page in state `st` in frame `f`, of handle 0. -/
def framePage (st : PageState) (f : Nat) : Page := { Page.free with state := st, frame := f }

/-- Handle 0 is placed in fixed frames, and `pages` are listed. -/
def fixedTable (pages : NMap Page) : PropTable :=
  { State.reset.prop with
    handles := [(0, { Handle.none with owned := true, fixed := true })]
    pages := pages }

/-! O51: the write of GSCALE crosses into a page that becomes LOCKED. -/

/-- An EXCH_SETTLE of bucket 0 whose parameter block starts 30 bytes before the end of page 0; GSCALE's base is 1.0. -/
def settleCue : Cue := BitVec.ofNat 1024 (1 + 2 ^ 24 * 0x52 + 2 ^ 352 * 65506 + 2 ^ 384 * 0x3F800000)

def settleFlight : Flight := ⟨⟨0, .f, settleCue, 0, 0, 0, 0, 0, 0, 0, 0⟩, .queued, 1, false, none, none, none⟩

/-- Descriptor 0 is listed in frame 1 and once more in frame 0; descriptor 1 is LOCKED, in frame 1. Bucket 0 is COMPLETE and its
generation is not sampled. -/
def settleState : State :=
  { State.reset with
    phase := .up
    prop := fixedTable [(0, framePage .owned 1), (0, framePage .owned 0), (1, framePage .locked 1)]
    flights := [settleFlight]
    queues := [(0x20, [0])]
    regs := [(R.exchCtrl, 15)]
    exch := { State.reset.exch with buckets := [(0, entSet (entSet 3 Ex.state 1) Ex.gen 1)] } }

theorem settleState_settles : settleState.exch.run = none ∧ settleState.exchHead 0x52 = some settleFlight ∧
    entF (settleState.bucket settleFlight.q.cue.xBucket) Ex.state = 1 ∧ settleState.mustCheck settleFlight.q.cue = false ∧
    settleState.safe = true := by decide +kernel

theorem settleState_fits : settleState.bucketOk settleFlight.q.cue.xBucket = true ∧ entOwned (settleState.bucket settleFlight.q.cue.xBucket) = true ∧
    settleFlight.q.cue.xCheckUnit < settleState.build.units ∧
    (settleFlight.q.cue.xPblk = 0 ∨ settleState.localRangeOk settleFlight.q.cue.xPblk 64 = true) := by decide +kernel

theorem settleState_unlocked : ∀ j, j < 4 → settleState.lockedAt (settleFlight.q.cue.xPblk + 28 + j) = false := by decide +kernel

/-- The upper half of GSCALE is not written. -/
theorem settleState_gscale : settleState.exchSettle.mem.read (settleFlight.q.cue.xPblk + 28 + 2) = 0 := by decide +kernel

/-- Refutes O51: in `settleState` the first bytes of GSCALE, in frame 0, make descriptor 0 a page of frame 0, so that LOCKED
descriptor 1 holds frame 1 and the other bytes are not written. -/
theorem not_exchSettle : ¬ Obligations.ExchSettle := by
  intro h
  obtain ⟨hrun, hhead, hstate, hcheck, hsafe⟩ := settleState_settles
  obtain ⟨hok, howned, hunit, hrange⟩ := settleState_fits
  have hends := (h settleState settleFlight hrun hhead).2.2.2.1 ⟨hok, howned, hunit, hrange⟩ hstate (.inl hcheck)
  obtain ⟨u, ⟨-, -, -, -, -, hgscale⟩, hkept⟩ := Ends.settled (v := settleState.exchSettle) hends rfl
  have hbyte := hgscale hsafe (by decide +kernel) settleState_unlocked 2 (by decide)
  rw [show u.mem = settleState.exchSettle.mem from (hkept .mem (by decide))] at hbyte
  exact absurd (settleState_gscale.symm.trans hbyte) (by decide +kernel)

/-! O52: the accumulator reaches into a page that becomes LOCKED. -/

/-- An EXCH_OPEN of bucket 0 with ZERO_ACC. -/
def openCue : Cue := BitVec.ofNat 1024 (1 + 2 ^ 24 * 0x53 + 2 ^ 336)

def openFlight : Flight := ⟨⟨0, .f, openCue, 0, 0, 0, 0, 0, 0, 0, 0⟩, .queued, 1, false, none, none, none⟩

/-- The pages of `settleState`; bucket 0 is SETTLED, its accumulator of 16 elements starts 64 bytes before the end of frame 0,
and its first byte in frame 1 is not zero. -/
def openState : State :=
  { State.reset with
    phase := .up
    prop := fixedTable [(0, framePage .owned 1), (0, framePage .owned 0), (1, framePage .locked 1)]
    mem := { State.reset.mem with cells := [(65536, 1)] }
    flights := [openFlight]
    queues := [(0x20, [0])]
    exch := { State.reset.exch with
      buckets := [(0, entSet (entSet (entSet 3 Ex.state 4) Ex.accBase 65472) Ex.elems 16)] } }

theorem openState_opens : openState.exch.run = none ∧ openState.exchHead 0x53 = some openFlight ∧
    openState.bucketOk openFlight.q.cue.xBucket = true ∧ entOwned (openState.bucket openFlight.q.cue.xBucket) = true ∧
    entF (openState.bucket openFlight.q.cue.xBucket) Ex.state = 4 := by decide +kernel

theorem openState_plane : openState.safe = true ∧ entF (openState.bucket openFlight.q.cue.xBucket) Ex.pmaskBase % 64 = 0 ∧
    entF (openState.bucket openFlight.q.cue.xBucket) Ex.accBase % 64 = 0 ∧ openFlight.q.cue.xZeroAcc = true ∧
    openState.accOk (openState.bucket openFlight.q.cue.xBucket) = true := by decide +kernel

theorem openState_unlocked : ∀ i, i < 8 * entF (openState.bucket openFlight.q.cue.xBucket) Ex.elems →
    openState.lockedAt (entF (openState.bucket openFlight.q.cue.xBucket) Ex.accBase + i) = false := by decide +kernel

/-- The byte in frame 1 keeps its value. -/
theorem openState_keeps : 64 < 8 * entF (openState.bucket openFlight.q.cue.xBucket) Ex.elems ∧
    openState.exchOpen.mem.read (entF (openState.bucket openFlight.q.cue.xBucket) Ex.accBase + 64) = 1 := by decide +kernel

/-- Refutes O52: in `openState` the zeros of the poison plane, in frame 0, make descriptor 0 a page of frame 0, so that LOCKED
descriptor 1 holds frame 1 and the accumulator's half there is not cleared. -/
theorem not_exchOpen : ¬ Obligations.ExchOpen := by
  intro h
  obtain ⟨hrun, hhead, hok, howned, hstate⟩ := openState_opens
  obtain ⟨hsafe, hpmask, hacc, hzero, haccOk⟩ := openState_plane
  have hends := (h openState openFlight hrun hhead).2.2 hok howned hstate
  obtain ⟨u, ⟨-, -, -, -, -, -, -, -, -, -, -, hplane, -⟩, hkept⟩ := Ends.settled (v := openState.exchOpen) hends rfl
  have hbyte := hplane hsafe hpmask hacc hzero haccOk openState_unlocked 64 openState_keeps.1
  rw [show u.mem = openState.exchOpen.mem from (hkept .mem (by decide))] at hbyte
  exact absurd (openState_keeps.2.symm.trans hbyte) (by decide)

/-! O50: retained sums make a page of the source move. -/

/-- An EXCH_SEND, first of its retained generation, of 65 elements of handle 0 from element 65472 on. -/
def sendCue : Cue := BitVec.ofNat 1024 (1 + 2 ^ 24 * 0x51 + 2 ^ 337 + 2 ^ 384 * 65472 + 2 ^ 480 * 65)

def sendFlight : Flight := ⟨⟨0, .f, sendCue, 0, 0, 0, 0, 0, 0, 0, 0⟩, .queued, 1, false, none, none, none⟩

/-- Handle 0 has descriptors 5 and 6, each of them listed twice: 6 is last listed as a page that moves, in the frame of 5.
Bucket 0 has retain planes that start 128 bytes before the end of frame 0. -/
def sendState : State :=
  { State.reset with
    phase := .up
    prop :=
      { fixedTable [(5, framePage .owned 1), (5, framePage .owned 0), (6, framePage .owned 2),
          (6, { framePage .owned 1 with moving := true })] with
        handles := [(0, { Handle.none with owned := true, fixed := true, first := 5, pages := 2, elems := 65537, fmt := 2 })] }
    flights := [sendFlight]
    queues := [(0x20, [0])]
    exch := { State.reset.exch with buckets := [(0, entSet (entSet 5 Ex.retainBase 65408) Ex.elems 65)] } }

theorem sendState_starts : sendState.exch.run = none ∧ sendState.exchHead 0x51 = some sendFlight ∧
    leastCode (sendState.sendChecks sendFlight.q.cue) = none ∧
    sendFlight.q.cue.xGen.toNat = sendState.bf sendFlight.q.cue.xBucket Ex.gen ∧ sendFlight.q.cue.xCount = 65 ∧
    sendState.exch.ops = [] := by decide +kernel

theorem sendState_resident : ∀ d ∈ sendState.spanPages sendFlight.q.cue.xSrc sendFlight.q.cue.xSrcBase sendFlight.q.cue.xCount,
    ((sendState.page d).state = .owned ∨ (sendState.page d).state = .locked) ∧ (sendState.page d).moving = false := by
  decide +kernel

/-- A memory without flaws reads clean. -/
theorem Mem.clean_of_flaw {m : Mem} {w : Nat} (h : m.flaw w = []) : (m.readPure w).2.2 = .clean := by
  unfold Mem.readPure
  rw [h]
  rfl

/-- One group leaves, and the second waits for its source. -/
theorem sendState_sends : sendState.exchSend.exch.ops.length = 1 := by decide +kernel

/-- Refutes O50: in `sendState` the first group's retained sums make descriptor 5 a page of frame 0 and then descriptor 6, from
which the second group reads, a page that moves. -/
theorem not_exchangeSends : ¬ Obligations.ExchangeSends := by
  intro h
  obtain ⟨hrun, hhead, hchecks, hgen, hcount, hops⟩ := sendState_starts
  have hends := h.2 sendState sendFlight hrun hhead hchecks hgen (hcount ▸ by decide) sendState_resident
    fun w => .inl (Mem.clean_of_flaw rfl)
  obtain ⟨u, ⟨hsent, -⟩, hkept⟩ := Ends.settled (v := sendState.exchSend) hends rfl
  have hle := hsent.length_le
  rw [show u.exch = sendState.exchSend.exch from (hkept .exch (by decide)), sendState_sends, hops, List.nil_append,
    List.length_map, List.length_range, hcount] at hle
  exact absurd hle (by decide)

end Sys2Proof.Machine
end

section
/-! SUPPORT. A register file that lists a register twice. -/

namespace Sys2Proof.Machine

/-- A soft reset runs, with nothing left to end; PWR_LIMIT is listed with 1 and once more with 2. -/
def twoLimits : State := { State.reset with regs := [(R.rstStatus, 1), (R.pwrLimit, 1), (R.pwrLimit, 2)] }

theorem twoLimits_ends : (∀ l, (twoLimits.line l).ringAt = []) ∧ twoLimits.softBusy = true ∧
    (∀ f ∈ twoLimits.flights, f.silent = true) ∧ ∀ k, k < twoLimits.build.units → (twoLimits.unit k).run = none := by
  refine ⟨fun l => ?_, ?_⟩
  · cases l <;> rfl
  · decide +kernel

/-- The registers that the reset keeps are laid anew in their order, and the last listing counts. -/
theorem twoLimits_limit : twoLimits.reg R.pwrLimit = 1 ∧ twoLimits.softResetDone.ringsAct.reg R.pwrLimit = 2 := by
  decide +kernel

/-- Refutes O59: in `twoLimits` the end of the soft reset takes PWR_LIMIT from its second listing. -/
theorem not_softReset : ¬ Obligations.SoftReset := by
  intro h
  obtain ⟨hrings, hbusy, hsilent, hunits⟩ := twoLimits_ends
  have hends := (h.2 twoLimits hrings).2 hbusy hsilent hunits
  obtain ⟨u, ⟨-, -, -, -, -, -, -, -, -, -, -, -, -, -, -, -, -, -, -, -, -, hlimit, -⟩, hkept⟩ :=
    Ends.settled (v := twoLimits.softResetDone.ringsAct) hends rfl
  have hreg : u.reg R.pwrLimit = twoLimits.softResetDone.ringsAct.reg R.pwrLimit :=
    hkept .powerR (by decide) R.pwrLimit (by decide)
  rw [hreg, twoLimits_limit.1, twoLimits_limit.2] at hlimit
  exact absurd hlimit (by decide)

end Sys2Proof.Machine
end

section
/-! SUPPORT. Idle, Drowse and the power meters (R495 to R499, R505 to R509). -/

namespace Sys2Proof.Machine

variable {s t u : State}

theorem State.pstate_congr (h : t.reg R.pwrStatus = s.reg R.pwrStatus) : t.pstate = s.pstate := by
  unfold State.pstate State.regF; rw [h]

theorem State.pstate_hostTouch (s : State) : s.hostTouch.pstate = s.pstate :=
  State.pstate_congr (State.hostTouch_reg_ne s (by decide))

/-! Idle (R495, R496). -/

theorem allLines_any_iff (p : Line → Bool) : allLines.any p = true ↔ ∃ l, p l = true := by
  rw [List.any_eq_true]
  exact ⟨fun ⟨l, _, h⟩ => ⟨l, h⟩, fun ⟨l, h⟩ => ⟨l, mem_allLines l, h⟩⟩

theorem idleEntry_claim : Sys2Proof.Claims.IdleEntry := by
  intro s
  dsimp only
  have hlines : (allLines.any fun l => (s.lineState l).1 == 2 || (s.lineState l).1 == 4) = true ↔
      ∃ l, (s.lineState l).1 = 2 ∨ (s.lineState l).1 = 4 := by
    rw [allLines_any_iff]
    simp only [Bool.or_eq_true, beq_iff_eq]
  constructor
  · intro hphase hstate hidle
    rw [not_or, ← hlines] at hidle
    refine Ends.of rfl (if_neg ?_) ⟨State.regF_setF s R.pwrStatus 0 3 1 (by decide), (Only.refl ..).setF (by simp)⟩
    rintro (h | h | h | h)
    · exact h hphase
    · exact h hstate
    · exact hidle.1 h
    · exact hidle.2 h
  · rintro (h | h | h | h)
    · exact Ends.of rfl (if_pos (.inl h)) rfl
    · exact Ends.of rfl (if_pos (.inr (.inl h))) rfl
    · exact Ends.of rfl (if_pos (.inr (.inr (.inl (hlines.2 h))))) rfl
    · exact Ends.of rfl (if_pos (.inr (.inr (.inr h)))) rfl

/-! A line that is EMPTY, DISABLED or HALTED (R288). -/

/-- The Prompter finds nothing at the line's head. -/
def LineSt.empty (ln : LineSt) : Prop :=
  ln.skip = false ∧ ln.taken = none ∧ ln.routine = none ∧ (ln.tail - ln.head).toInt ≤ 0

theorem State.lateSteps_ne_idle (s : State) (x : Ctx) (c : Cue) : s.lateSteps x c ≠ .idle := by
  unfold State.lateSteps
  split
  · exact nofun
  · split <;> exact nofun

theorem State.ringCue_ne_nothing (s : State) (l : Line) (p : BitVec 32) : (s.ringCue l p).1 ≠ .nothing := by
  unfold State.ringCue
  dsimp only
  split
  · exact nofun
  · split <;> exact nofun

theorem State.fetchHead_nothing_iff (s : State) (l : Line) : (s.fetchHead l).1 = .nothing ↔
    (s.line l).routine = none ∧ ((s.line l).tail - (s.line l).head).toInt ≤ 0 := by
  unfold State.fetchHead
  dsimp only
  split
  · next r hr =>
    rw [hr]
    split <;> exact ⟨nofun, fun h => nomatch h.1⟩
  · next hr =>
    split
    · next h => exact ⟨fun _ => ⟨hr, h⟩, fun _ => rfl⟩
    · next h => exact ⟨fun hn => absurd hn (s.ringCue_ne_nothing l _), fun hn => absurd hn.2 h⟩

theorem State.turnOf_idle_iff {l : Line} (hdispatch : ¬((s.line l).enabled = false ∨ (s.line l).halted = true ∨
    (s.line l).resetting = true)) : s.turnOf l = .idle ↔ (s.line l).empty := by
  unfold State.turnOf LineSt.empty
  dsimp only
  rw [if_neg hdispatch]
  split
  · next hskip => exact ⟨nofun, fun h => absurd (hskip.symm.trans h.1) nofun⟩
  · next hskip =>
    split
    · next htaken =>
      exact ⟨fun h => absurd h (s.lateSteps_ne_idle _ _), fun h => absurd (htaken.symm.trans h.2.1) nofun⟩
    · next htaken =>
      have hfetch := s.fetchHead_nothing_iff l
      generalize (s.fetchHead l).1 = fetched at hfetch ⊢
      cases fetched with
      | nothing => exact ⟨fun _ => ⟨by simpa using hskip, htaken, hfetch.1 rfl⟩, fun _ => rfl⟩
      | bad r => exact ⟨nofun, fun h => nomatch hfetch.2 h.2.2⟩
      | cue c =>
        refine ⟨fun h => ?_, fun h => nomatch hfetch.2 h.2.2⟩
        dsimp only at h
        split at h
        · exact nomatch h
        · split at h
          · exact nomatch h
          · exact absurd h (s.lateSteps_ne_idle _ _)

/-- The line is EMPTY, DISABLED or HALTED. -/
def State.quietLine (s : State) (l : Line) : Bool := ([0, 1, 5] : List Nat).contains (s.lineState l).1

theorem State.quietLine_iff (s : State) (l : Line) : s.quietLine l = true ↔ (s.line l).resetting = false ∧
    ((s.line l).enabled = false ∨ (s.line l).halted = true ∨
      ((s.line l).empty ∧ (s.line l).loops = [] ∧ (s.line l).skipEnd = none)) := by
  unfold State.quietLine State.lineState
  dsimp only
  split
  · next h => simp [h]
  · next hreset =>
    split
    · next h => simp [h, hreset]
    · next hon =>
      split
      · next h => simp [h, hreset]
      · next hrun =>
        have hidle := State.turnOf_idle_iff (s := s) (l := l) (by simp [hreset, hon, hrun])
        generalize s.turnOf l = turn at hidle
        cases turn with
        | idle =>
          have hempty := hidle.1 rfl
          simp only [hempty, hreset, hon, hrun, true_and]
          split
          · next h => simpa [← Option.ne_none_iff_isSome, imp_iff_not_or] using h
          · next h => simp_all
        | waits c => simpa [hreset, hon, hrun] using fun h => nomatch hidle.2 h
        | stalls n c => simpa [hreset, hon, hrun] using fun h => nomatch hidle.2 h
        | fail r b c => simpa [hreset, hon, hrun] using fun h => nomatch hidle.2 h
        | go c => simpa [hreset, hon, hrun] using fun h => nomatch hidle.2 h
        | skip => simpa [hreset, hon, hrun] using fun h => nomatch hidle.2 h

theorem State.quietLine_congr (h : t.lines = s.lines) (l : Line) : t.quietLine l = s.quietLine l :=
  Bool.eq_iff_iff.2 (by rw [State.quietLine_iff, State.quietLine_iff, State.line_of_lines h])

/-! A request for Drowse (R497, R498 step 1). -/

/-- A line is busy, or a cue is in flight. -/
def State.linesBusy (s : State) : Bool := (allLines.any fun l => !s.quietLine l) || !s.flights.isEmpty

theorem State.linesBusy_iff (s : State) : s.linesBusy = true ↔
    (allLines.all fun l => (s.lineState l).1 == 0 || (s.lineState l).1 == 1 || (s.lineState l).1 == 5) = false ∨ s.flights ≠ [] := by
  have hquiet (l : Line) : ((s.lineState l).1 == 0 || (s.lineState l).1 == 1 || (s.lineState l).1 == 5) = s.quietLine l := by
    rw [Bool.eq_iff_iff]
    simp [State.quietLine, or_assoc]
  simp only [hquiet, State.linesBusy, Bool.or_eq_true, List.all_eq_false, List.any_eq_true, Bool.not_eq_true', ne_eq,
    Bool.not_eq_true, List.isEmpty_eq_false_iff]

theorem State.linesBusy_congr (hlines : t.lines = s.lines) (hflights : t.flights = s.flights) : t.linesBusy = s.linesBusy := by
  unfold State.linesBusy
  simp only [State.quietLine_congr hlines, hflights]

/-- A call of the curtain is pending, or an early arrival waits. -/
def State.curtainBusy (s : State) : Bool := (List.range 16).any fun k => (s.tree k).pending || !(s.tree k).early.isEmpty

theorem State.drowseWhy_eq (s : State) : s.drowseWhy = if s.linesBusy then 1 else if s.curtainBusy then 2
    else if s.softBusy then 3 else if s.writerBusy then 4 else if s.frozen then 6 else 0 := by
  unfold State.drowseWhy State.curtainBusy
  simp only [← State.linesBusy_iff]

theorem State.drowseWhy_hostTouch (s : State) : s.hostTouch.drowseWhy = s.drowseWhy := by
  have hreg {o : Nat} (h : o ≠ R.sesIdleTicks) (i : Nat) : s.hostTouch.regB o i = s.regB o i :=
    State.regB_congr (State.hostTouch_reg_ne s h) i
  rw [State.drowseWhy_eq, State.drowseWhy_eq, State.linesBusy_congr (s := s) (t := s.hostTouch) rfl rfl]
  have hsoft : s.hostTouch.softBusy = s.softBusy := hreg (by decide) 0
  have hwriter : s.hostTouch.writerBusy = s.writerBusy := hreg (by decide) 0
  have hfrozen : s.hostTouch.frozen = s.frozen := hreg (by decide) _
  rw [hsoft, hwriter, hfrozen]
  rfl

/-- The request is refused (R497). -/
theorem State.drowseRefused_spec (s : State) {why : Nat} (h : why < 8) : (s.drowseRefused why).regB R.pwrStatus 3 = true ∧
    (s.drowseRefused why).regF R.pwrStatus 4 3 = why ∧ (s.drowseRefused why).pstate = s.pstate := by
  unfold State.drowseRefused State.pstate
  refine ⟨?_, ?_, ?_⟩
  · rw [State.regB_setF _ _ _ _ _ _ (by decide), if_neg (by decide), State.regB_setB_self _ _ _ _ (by decide)]
  · rw [State.regF_setF _ _ _ _ _ (by decide), Nat.mod_eq_of_lt (show why < 2 ^ 3 from h)]
  · rw [State.regF_setF_ne _ _ _ _ _ _ _ (by decide) (by decide)]
    exact State.regF_setF_ne _ _ _ _ _ _ _ (by decide) (by decide)

theorem Only.drowseRefused {fs : List Field} {rs : List Nat} (h : Only fs rs s t) (m : R.pwrStatus ∈ rs) (why : Nat) :
    Only fs rs s (t.drowseRefused why) := (h.setB m).setF m

/-- What a request does where the core listens to it. -/
theorem State.drowseRequest_refused (hphase : s.phase = .up) (hstate : s.pstate < 2) (hwhy : s.drowseWhy ≠ 0) :
    s.drowseRequest = s.drowseRefused s.drowseWhy := by
  unfold State.drowseRequest
  rw [if_neg (by rintro (h | h); exacts [h hphase, absurd h (Nat.not_le_of_lt hstate)]), if_pos hwhy]

/-- Entering begins. -/
def State.entering (s : State) : State := ((s.setF R.pwrStatus 0 3 2).setB R.ctlStatus 0 false).closeSession

theorem State.drowseRequest_entering (hphase : s.phase = .up) (hstate : s.pstate < 2) (hwhy : s.drowseWhy = 0) :
    s.drowseRequest = s.entering := by
  unfold State.drowseRequest
  rw [if_neg (by rintro (h | h); exacts [h hphase, absurd h (Nat.not_le_of_lt hstate)]), if_neg (by rw [hwhy]; decide)]
  rfl

theorem State.entering_spec (s : State) : s.entering.pstate = 2 ∧ s.entering.regB R.ctlStatus 0 = false ∧
    s.entering.session = false ∧ KeptBut [.ctlR, .doorR, .powerR] s s.entering := by
  have hclose (o : Nat) (h : o ∉ [R.sesStatus, R.sesOpenId, R.sesIdleTicks]) :
      s.entering.reg o = ((s.setF R.pwrStatus 0 3 2).setB R.ctlStatus 0 false).reg o :=
    ((Only.refl [] [R.sesStatus, R.sesOpenId, R.sesIdleTicks] _).closeSession (by decide)).regs o h
  refine ⟨?_, ?_, State.session_closeSession _, ?_⟩
  · rw [State.pstate_congr (hclose _ (by decide)), State.pstate_congr (State.reg_setB_ne _ _ _ (by decide))]
    exact State.regF_setF s _ _ _ _ (by decide)
  · rw [State.regB_congr (hclose _ (by decide)), State.regB_setB_self _ _ _ _ (by decide)]
  · exact (kept_closeSession _).but.step (by decide) ((keptBut_setReg _ R.ctlStatus _).step (by decide)
      ((keptBut_setReg s R.pwrStatus _).mono (by decide)))

/-! The entry into Drowse (R498 steps 2 to 4). -/

theorem State.entryDrained_iff (s : State) : s.entryDrained = true ↔ s.prop.ins = [] ∧ s.prop.outs = [] ∧ s.prop.moves = [] ∧
    s.prop.demand = [] ∧ s.exch.ops = [] ∧ s.exch.syncs = [] := by
  simp only [State.entryDrained, Bool.and_eq_true, List.isEmpty_iff, and_assoc]

/-- What Drowse leaves of the state, before the voltage and the status. -/
def State.asleep (s : State) : State :=
  let k := s.dropTrainReqs.keepRegs (·.keepDrowse)
  { k with
    secret := { k.secret with nonceOk := false, proof := 0, good := false }
    arr := k.arr.asleep
    cho := []
    gangs := []
    lanes := []
    fly := []
    tab := ⟨[]⟩
    fab := k.fab.asleep
    mem := { k.mem with wq := [] }
    prop := { k.prop with hints := [], starve := false } }

/-- The voltage of Drowse and its state. -/
def State.drowses (s : State) (mv : Nat) : State :=
  (((s.setF R.pwrVreq 0 10 mv).setVreq 550).setF R.pwrStatus 0 3 3).latchIrq 6

theorem State.drowseEntry_eq (hstate : s.pstate = 2) (hdrained : s.entryDrained = true) :
    s.drowseEntry = s.asleep.drowses (s.regF R.pwrVreq 0 10) := by
  have hvreq : s.dropTrainReqs.regF R.pwrVreq 0 10 = s.regF R.pwrVreq 0 10 :=
    State.regF_congr ((kept_dropTrainReqs s).but.reg (by decide)) 0 10
  unfold State.drowseEntry
  rw [if_neg (by rw [hstate, hdrained]; decide), ← hvreq]
  rfl

theorem State.setVreq_spec (s : State) {mv : Nat} (h : mv < 1024) : (s.setVreq mv).regF R.pwrVreq 0 10 = mv ∧
    (s.regF R.pwrVreq 0 10 ≠ mv → (s.setVreq mv).regB R.ctlIrqPend 6 = true) ∧
    (s.regF R.pwrVreq 0 10 = mv → s.setVreq mv = s) ∧ Only [] [R.pwrVreq, R.ctlIrqPend] s (s.setVreq mv) := by
  unfold State.setVreq
  split
  · next heq => exact ⟨heq, fun hne => absurd heq hne, fun _ => rfl, Only.refl ..⟩
  · next hne =>
    refine ⟨?_, fun _ => State.regB_setB_self _ _ _ _ (by decide), fun heq => absurd heq hne,
      ((Only.refl ..).setF (by simp)).setB (by simp)⟩
    rw [State.latchIrq, State.regF_congr (State.reg_setB_ne _ _ _ (by decide)), State.regF_setF _ _ _ _ _ (by decide)]
    exact Nat.mod_eq_of_lt h

theorem State.drowses_spec (s : State) (mv : Nat) : (s.drowses mv).pstate = 3 ∧ (s.drowses mv).regF R.pwrVreq 0 10 = 550 ∧
    (s.drowses mv).regB R.ctlIrqPend 6 = true ∧ Only [] [R.pwrVreq, R.ctlIrqPend, R.pwrStatus] s (s.drowses mv) := by
  obtain ⟨hvreq, -, -, honly⟩ := (s.setF R.pwrVreq 0 10 mv).setVreq_spec (mv := 550) (by decide)
  refine ⟨?_, ?_, State.regB_setB_self _ _ _ _ (by decide), ?_⟩
  · rw [State.drowses, State.latchIrq, State.pstate_congr (State.reg_setB_ne _ _ _ (by decide))]
    exact State.regF_setF _ _ _ _ _ (by decide)
  · rw [State.drowses, State.latchIrq, State.regF_congr (State.reg_setB_ne _ _ _ (by decide)),
      State.regF_congr (State.reg_setF_ne _ _ _ _ (by decide)), hvreq]
  · exact ((((Only.refl ..).setF (by simp)).trans (honly.mono (by decide) (by decide))).setF (by simp)).setB (by simp)

theorem State.portUp_of_asleep {f : Fab} (h : s.fab = f.asleep) (p : Nat) : s.portUp p = false := by
  have hport : (s.port p).state ≠ .up := by
    have hmem := NMap.get_eq_default_or_mem PortSt.init f.asleep.ports p
    rw [← h] at hmem
    rcases hmem with hinit | hlisted
    · rw [show s.port p = PortSt.init from hinit]; decide
    · rw [h] at hlisted
      obtain ⟨⟨k, x⟩, -, hx⟩ := List.mem_map.1 hlisted
      rw [State.port, h, show NMap.get PortSt.init f.asleep.ports p = _ from (congrArg Prod.snd hx).symm]
      dsimp only
      split
      · next hdis => rw [hdis]; decide
      · decide
  unfold State.portUp
  rw [beq_eq_false_iff_ne.2 hport, Bool.and_false]

/-- The parts of the state that Drowse keeps, and those it clears. -/
theorem State.asleep_spec (s : State) (h : KeptBut Field.regs s.asleep t) : t.mem = { s.mem with wq := [] } ∧ t.cho = [] ∧
    t.fly = [] ∧ t.arr.mode = s.arr.mode ∧ t.arr.split = s.arr.split ∧ t.prop.hints = [] ∧ t.prop.pages = s.prop.pages ∧
    (∀ p, t.portUp p = false) ∧ t.prop.handles = s.prop.handles ∧ t.board = s.board ∧ t.lines = s.lines ∧ t.exch = s.exch ∧
    t.trackers = s.trackers ∧ t.secret.key = s.secret.key := by
  have hkept : KeptBut (.outs :: Field.regs) s (s.dropTrainReqs.keepRegs (·.keepDrowse)) :=
    (kept_keepRegs ..).but.step (by decide) ((kept_dropTrainReqs s).but.mono (by decide))
  have hmem := hkept.same .mem (by decide)
  have harr := hkept.same .arr (by decide)
  have hprop := hkept.same .prop (by decide)
  have hprop' : t.prop = s.asleep.prop := h.same .prop (by decide)
  have harr' : t.arr = s.asleep.arr := h.same .arr (by decide)
  refine ⟨(h.same .mem (by decide)).trans (congrArg (fun m : Mem => { m with wq := [] }) hmem), h.same .cho (by decide),
    h.same .fly (by decide), (congrArg (·.mode) harr').trans (congrArg (·.mode) harr),
    (congrArg (·.split) harr').trans (congrArg (·.split) harr), congrArg (·.hints) hprop',
    (congrArg (·.pages) hprop').trans (congrArg (·.pages) hprop), State.portUp_of_asleep (h.same .fab (by decide)),
    (congrArg (·.handles) hprop').trans (congrArg (·.handles) hprop), ?_, ?_, ?_, ?_, ?_⟩
  · exact (h.same .board (by decide)).trans (hkept.same .board (by decide))
  · exact (h.same .lines (by decide)).trans (hkept.same .lines (by decide))
  · exact (h.same .exch (by decide)).trans (hkept.same .exch (by decide))
  · exact (h.same .trackers (by decide)).trans (hkept.same .trackers (by decide))
  · have hsecret : t.secret = s.asleep.secret := h.same .secret (by decide)
    exact (congrArg (·.key) hsecret).trans (congrArg (·.key) (hkept.same .secret (by decide)))

/-- The end of an entry that has not drained in time (R497). -/
theorem State.drowseTimeout_spec (s : State) :
    ((((s.drowseRefused 5).setF R.pwrStatus 0 3 0).setB R.ctlStatus 0 true).pstate = 0 ∧
    (((s.drowseRefused 5).setF R.pwrStatus 0 3 0).setB R.ctlStatus 0 true).regB R.pwrStatus 3 = true ∧
    (((s.drowseRefused 5).setF R.pwrStatus 0 3 0).setB R.ctlStatus 0 true).regF R.pwrStatus 4 3 = 5) := by
  obtain ⟨hbit, hwhy, -⟩ := s.drowseRefused_spec (why := 5) (by decide)
  have hreg : (((s.drowseRefused 5).setF R.pwrStatus 0 3 0).setB R.ctlStatus 0 true).reg R.pwrStatus =
      ((s.drowseRefused 5).setF R.pwrStatus 0 3 0).reg R.pwrStatus := State.reg_setB_ne _ _ _ (by decide)
  refine ⟨?_, ?_, ?_⟩
  · rw [State.pstate_congr hreg]
    exact State.regF_setF _ _ _ _ _ (by decide)
  · rw [State.regB_congr hreg, State.regB_setF _ _ _ _ _ _ (by decide), if_neg (by decide), hbit]
  · rw [State.regF_congr hreg, State.regF_setF_ne _ _ _ _ _ _ _ (by decide) (by decide), hwhy]

theorem drowseEntry_claim : Sys2Proof.Claims.DrowseEntry := by
  intro s
  dsimp only
  have hwhy : (if ((allLines.any fun l => !([0, 1, 5] : List Nat).contains (s.lineState l).1) || !s.flights.isEmpty) = true then 1
      else if ((List.range 16).any fun k => (s.tree k).pending || !(s.tree k).early.isEmpty) = true then 2
      else if s.softBusy = true then 3 else if s.writerBusy = true then 4 else if s.frozen = true then 6 else 0) =
      s.drowseWhy := s.drowseWhy_eq.symm
  have hstate := s.pstate_hostTouch
  rw [hwhy, ← State.entryDrained_iff]
  refine ⟨fun hserve => ⟨fun hother => ?_, fun hphase hrun hbusy => ?_, fun hphase hrun hquiet => ?_⟩, fun hnot => ?_,
    fun hentering hdrained => ?_, fun hnot => ?_, fun hentering hage => ?_⟩
  · refine Ends.of rfl (State.hostWrite_ok _ hserve) ?_
    rw [State.drowseRequest, if_pos (by rw [hstate]; exact hother)]
    exact (Only.refl ..).hostTouch (by simp)
  · refine Ends.of rfl (State.hostWrite_ok _ hserve) ?_
    rw [State.drowseRequest_refused (s := s.hostTouch) hphase (hstate ▸ hrun) (s.drowseWhy_hostTouch.symm ▸ hbusy),
      State.drowseWhy_hostTouch]
    obtain ⟨hbit, hreason, hkeeps⟩ := s.hostTouch.drowseRefused_spec (why := s.drowseWhy) (by
      rw [State.drowseWhy_eq]
      repeat' split
      all_goals decide)
    exact ⟨hbit, hreason, hkeeps.trans hstate, ((Only.refl ..).hostTouch (by simp)).drowseRefused (by simp) _⟩
  · refine Ends.of rfl (State.hostWrite_ok _ hserve) ?_
    rw [State.drowseRequest_entering (s := s.hostTouch) hphase (hstate ▸ hrun) (s.drowseWhy_hostTouch.trans hquiet)]
    obtain ⟨hpstate, hready, hsession, hkept⟩ := s.hostTouch.entering_spec
    exact ⟨hpstate, hready, hsession, hkept.step (by decide) ((keptBut_hostTouch s).mono (by decide))⟩
  · refine Ends.of rfl (if_pos ?_) rfl
    rwa [Bool.not_eq_true] at hnot
  · refine Ends.of rfl (State.drowseEntry_eq hentering hdrained) ?_
    obtain ⟨hpstate, hvreq, hirq, honly⟩ := s.asleep.drowses_spec (s.regF R.pwrVreq 0 10)
    exact ⟨hpstate, hvreq, hirq, State.asleep_spec s honly.fields⟩
  · exact Ends.of rfl (if_pos hnot) rfl
  · refine Ends.of rfl (if_neg ?_) ?_
    · rintro (h | h)
      · exact h hentering
      · exact absurd hage (Nat.not_le_of_lt h)
    · obtain ⟨hpstate, hbit, hreason⟩ := s.drowseTimeout_spec
      exact ⟨hpstate, hbit, hreason, State.regB_setB_self _ _ _ _ (by decide),
        (((Only.refl ..).drowseRefused (by simp) 5).setF (by simp)).setB (by simp)⟩

end Sys2Proof.Machine
end

section
/-! SUPPORT. What routing flits leaves of ports, channels and registers. -/

namespace Sys2Proof.Machine

variable {s t u : State}

/-- A channel with another stream sent: LSEQ, replay buffer and credits. -/
def ChanSt.resent (a : ChanSt) (tx : BitVec 10) (replay : List Flit) (credits : List Nat) : ChanSt :=
  { a with tx := tx, replay := replay, credits := credits }

/-- The channels differ at most in what has been sent on them. -/
def ChanSt.alike (a b : ChanSt) : Prop := b = a.resent b.tx b.replay b.credits

theorem ChanSt.alike.refl (a : ChanSt) : a.alike a := rfl

theorem ChanSt.alike.trans {a b c : ChanSt} (h : a.alike b) (k : b.alike c) : a.alike c := by
  unfold ChanSt.alike at *
  rw [k, h]
  rfl

theorem ChanSt.alike_resent (a : ChanSt) (tx : BitVec 10) (replay : List Flit) (credits : List Nat) :
    a.alike (a.resent tx replay credits) := rfl

theorem ChanSt.alike.state {a b : ChanSt} (h : a.alike b) : b.state = a.state := congrArg (·.state) h
theorem ChanSt.alike.ready {a b : ChanSt} (h : a.alike b) : b.ready = a.ready := congrArg (·.ready) h
theorem ChanSt.alike.req {a b : ChanSt} (h : a.alike b) : b.req = a.req := congrArg (·.req) h

/-- The registers that routing a flit may change. -/
def routeRegs (o : Nat) : Prop :=
  o = R.fabNoroute ∨ o = R.fabStray ∨ o = R.exchStray ∨ (∃ p c, o = R.fabChFlits p c) ∨ Field.ofReg o = .fltR

/-- What routing flits leaves. -/
structure State.links (s t : State) : Prop where
  ports : t.fab.ports = s.fab.ports
  chans : ∀ p c, (s.chan p c).alike (t.chan p c)
  still : ∀ p c, c < 4 → s.portUp p = false → t.chan p c = s.chan p c
  regs : ∀ o, ¬routeRegs o → t.reg o = s.reg o
  fatal : t.fatal = s.fatal
  build : t.build = s.build

theorem State.links.refl (s : State) : State.links s s :=
  ⟨rfl, fun _ _ => ChanSt.alike.refl _, fun _ _ _ _ => rfl, fun _ _ => rfl, rfl, rfl⟩

theorem State.links.port (h : State.links s t) (p : Nat) : t.port p = s.port p := by
  unfold State.port; rw [h.ports]

theorem State.links.portUp (h : State.links s t) (p : Nat) : t.portUp p = s.portUp p := by
  unfold State.portUp; rw [h.port, h.build]

theorem State.links.trans (h : State.links s t) (k : State.links t u) : State.links s u :=
  ⟨k.ports.trans h.ports, fun p c => (h.chans p c).trans (k.chans p c),
    fun p c hc hp => (k.still p c hc ((h.portUp p).trans hp)).trans (h.still p c hc hp),
    fun o ho => (k.regs o ho).trans (h.regs o ho), k.fatal.trans h.fatal, k.build.trans h.build⟩

theorem State.fatal_congr (h : t.reg R.fltStatus = s.reg R.fltStatus) : t.fatal = s.fatal := State.regB_congr h 1

theorem State.links_of_regs (hports : t.fab.ports = s.fab.ports) (hchans : t.fab.chans = s.fab.chans) (hregs : t.regs = s.regs)
    (hbuild : t.build = s.build) : State.links s t := by
  have hreg (o : Nat) : t.reg o = s.reg o := by unfold State.reg; rw [hregs, hbuild]
  have hchan (p c : Nat) : t.chan p c = s.chan p c := by unfold State.chan; rw [hchans]
  exact ⟨hports, fun p c => by rw [hchan]; exact ChanSt.alike.refl _, fun p c _ _ => hchan p c, fun o _ => hreg o,
    State.fatal_congr (hreg _), hbuild⟩

theorem State.links_setReg (s : State) {o : Nat} (v : Word) (ho : routeRegs o) (hf : o ≠ R.fltStatus) :
    State.links s (s.setReg o v) :=
  ⟨rfl, fun _ _ => ChanSt.alike.refl _, fun _ _ _ _ => rfl,
    fun _ hq => State.reg_setReg_ne _ _ fun he => hq (he ▸ ho), State.fatal_congr (State.reg_setReg_ne _ _ hf.symm), rfl⟩

theorem State.links_logRecord (s : State) {r : FaultRec} (h : r.cls ≠ 5) : State.links s (s.logRecord r) := by
  have hkept := (kept_logRecord s r).but
  have hfab : (s.logRecord r).fab = s.fab := hkept.same .fab (by decide)
  have hchan (p c : Nat) : (s.logRecord r).chan p c = s.chan p c := by unfold State.chan; rw [hfab]
  refine ⟨congrArg (·.ports) hfab, fun p c => by rw [hchan]; exact ChanSt.alike.refl _, fun p c _ _ => hchan p c,
    fun o ho => hkept.reg ?_, State.fatal_logRecord_of_low s h, hkept.same .build (by decide)⟩
  have hne : Field.ofReg o ≠ .fltR := fun he => ho (.inr (.inr (.inr (.inr he))))
  have hregs := Field.ofReg_mem o
  generalize Field.ofReg o = f at hne hregs
  revert hne hregs
  cases f <;> decide

theorem State.links_foldl {α : Type} {f : State → α → State} (hf : ∀ s a, State.links s (f s a)) :
    ∀ (l : List α) (s : State), State.links s (l.foldl f s)
  | [], s => State.links.refl s
  | a :: l, s => (hf s a).trans (State.links_foldl hf l (f s a))

theorem State.links_iter {f : Nat → State → State} (hf : ∀ k s, State.links s (f k s)) (n : Nat) (s : State) :
    State.links s (iter n f s) := State.links_foldl (fun s k => hf k s) _ s

theorem State.links_emit (s : State) (o : Output) : State.links s (s.emit o) := State.links_of_regs rfl rfl rfl rfl

theorem State.links_returnOwed (s : State) (pk : Packet) : State.links s (s.returnOwed pk) :=
  State.links_foldl (fun s _ => State.links_emit s _) _ s

theorem State.links_eject (s : State) (inp : Option Nat) (f : Flit) : State.links s (s.eject inp f) := by
  unfold State.eject
  extract_lets k old pk
  clear_value pk
  split
  · split
    · refine State.links.trans (State.links.trans ?_
        (State.links_setReg _ (o := R.exchStray) _ (.inr (.inr (.inl rfl))) (by decide))) (State.links_returnOwed ..)
      exact State.links_of_regs rfl rfl rfl rfl
    · exact State.links_of_regs rfl rfl rfl rfl
  · exact State.links_of_regs rfl rfl rfl rfl

theorem State.chan_setChan (s : State) (p c q d : Nat) (v : ChanSt) :
    (s.setChan p c v).chan q d = if 4 * q + d = 4 * p + c then v else s.chan q d := NMap.get_set ..

/-- A channel of a port that is up sends. -/
theorem State.links_setChan_resent (s : State) {p c : Nat} (hc : c < 4) (hup : s.portUp p = true) (tx : BitVec 10)
    (replay : List Flit) (credits : List Nat) : State.links s (s.setChan p c ((s.chan p c).resent tx replay credits)) := by
  refine ⟨rfl, fun q d => ?_, fun q d hd hq => ?_, fun _ _ => rfl, rfl, rfl⟩
  · rw [State.chan_setChan]
    split
    · next he =>
      have hsame : s.chan q d = s.chan p c := by unfold State.chan; rw [he]
      rw [hsame]
      exact ChanSt.alike_resent ..
    · exact ChanSt.alike.refl _
  · rw [State.chan_setChan, if_neg]
    intro he
    have hqp : q = p := by omega
    rw [hqp, hup] at hq
    exact nomatch hq

/-- A channel that carries a class is one of the four. -/
theorem State.carrier_lt {p cls c : Nat} (h : s.carrier p cls = some c) : c < 4 := by
  have hm := List.mem_of_find?_eq_some h
  obtain ⟨k, -, hk⟩ := List.mem_map.1 hm
  omega

theorem State.links_txTry {p cls : Nat} {f : Flit} (h : s.txTry p cls f = some t) : State.links s t := by
  unfold State.txTry at h
  split at h
  · exact nomatch h
  · next c hc =>
    dsimp only at h
    split at h
    · exact nomatch h
    · next hmay =>
      have hup : s.portUp p = true := by
        simp only [not_or] at hmay
        simpa using hmay.2.2.2.2
      rw [← Option.some.inj h]
      refine State.links.trans (State.links.trans (State.links_setChan_resent s (State.carrier_lt hc) hup ..)
        (State.links_setReg _ (o := R.fabChFlits p c) _ (.inr (.inr (.inr (.inl ⟨p, c, rfl⟩)))) ?_)) (State.links_emit ..)
      unfold R.fabChFlits R.fltStatus
      omega

theorem State.links_pumpClass (s : State) (p cls : Nat) : State.links s (s.pumpClass p cls) := by
  unfold State.pumpClass
  refine iterWhile_induct (P := State.links s) (fun a b ha hb => ?_) _ s (State.links.refl s)
  split at hb
  · exact nomatch hb
  · obtain ⟨v, hv, rfl⟩ := Option.map_eq_some_iff.1 hb
    exact ha.trans ((State.links_txTry hv).trans (State.links_of_regs rfl rfl rfl rfl))

theorem State.links_pump (s : State) (p : Nat) : State.links s (s.pump p) :=
  State.links_foldl (fun s c => State.links_pumpClass s p c) _ s

theorem State.links_toPort (s : State) (p : Nat) (f : Flit) : State.links s (s.toPort p f) := by
  unfold State.toPort
  refine State.links.trans ?_ (State.links_pumpClass ..)
  exact State.links_of_regs rfl rfl rfl rfl

theorem State.links_forward (s : State) (inp : Option (Nat × Nat)) (f : Flit) : State.links s (s.forward inp f).2 := by
  unfold State.forward
  split
  · exact State.links_setReg _ (o := R.fabStray) _ (.inr (.inl rfl)) (by decide)
  · split
    · exact State.links_eject ..
    · exact State.links_setReg _ (o := R.fabNoroute) _ (.inl rfl) (by decide)
    · split
      · exact State.links_setReg _ (o := R.fabNoroute) _ (.inl rfl) (by decide)
      · exact State.links_toPort ..

theorem State.links_routeFlit (s : State) (inp : Option (Nat × Nat)) (f : Flit) : State.links s (s.routeFlit inp f) := by
  unfold State.routeFlit
  dsimp only
  split
  · exact (State.links_forward ..).trans ((State.links_logRecord _ (show (1 : Nat) ≠ 5 by decide)).trans (State.links_forward ..))
  · exact State.links_forward ..

theorem State.links_sendPacket (s : State) (dest : BitVec 12) (opc ch : Nat) (data : List Byte) :
    State.links s (s.sendPacket dest opc ch data) := State.links_foldl (fun s f => State.links_routeFlit s none f) _ s

/-- Flits that wait for a port take another way (R435). -/
theorem State.links_reroute (s : State) (p : Nat) : State.links s (s.reroute p) := by
  unfold State.reroute
  refine State.links.trans ?_ (State.links_foldl (fun s f => State.links_routeFlit s none _) _ _)
  exact State.links_iter (fun k s => State.links_of_regs (t := s.setWaiting p k []) rfl rfl rfl rfl) 4 s

/-! Channels that start afresh (R444). -/

theorem State.chan_trainReq (s : State) (p c q d : Nat) (v : Bool) :
    (s.trainReq p c v).chan q d = if 4 * q + d = 4 * p + c then { s.chan p c with req := v } else s.chan q d := by
  unfold State.trainReq
  split
  · next h =>
    split
    · next he =>
      have hsame : s.chan q d = s.chan p c := by unfold State.chan; rw [he]
      rw [hsame, ← h]
    · rfl
  · exact State.chan_setChan ..

/-- A channel to be trained from nothing; training is asked for where the PHY is ready. -/
def ChanSt.fresh (ch : ChanSt) : ChanSt :=
  { ChanSt.init with state := .idle, ready := ch.ready, req := ch.req || ch.ready }

theorem State.chan_freshChan (s : State) (p c q d : Nat) :
    (s.freshChan p c).chan q d = if 4 * q + d = 4 * p + c then (s.chan p c).fresh else s.chan q d := by
  unfold State.freshChan
  dsimp only
  split
  · next h =>
    rw [State.chan_trainReq, State.chan_setChan, State.chan_setChan, if_pos rfl, ChanSt.fresh, h, Bool.or_true]
    split <;> rfl
  · next h =>
    rw [State.chan_setChan, ChanSt.fresh, Bool.eq_false_of_not_eq_true h, Bool.or_false]

/-- What is done to each channel of a port, done to all four. -/
theorem State.chan_iter4 {p : Nat} {f : Nat → State → State} {g : ChanSt → ChanSt}
    (hf : ∀ (c : Nat) (s : State) (q d : Nat), (f c s).chan q d = if 4 * q + d = 4 * p + c then g (s.chan p c) else s.chan q d)
    (s : State) (q d : Nat) :
    (iter 4 f s).chan q d = if 4 * p ≤ 4 * q + d ∧ 4 * q + d < 4 * p + 4 then g (s.chan q d) else s.chan q d := by
  have hidx {k : Nat} (h : 4 * q + d = 4 * p + k) : s.chan p k = s.chan q d := by unfold State.chan; rw [h]
  have hfour : iter 4 f s = f 3 (f 2 (f 1 (f 0 s))) := rfl
  rw [hfour]
  simp only [hf]
  by_cases h0 : 4 * q + d = 4 * p + 0
  · rw [if_neg (by omega), if_neg (by omega), if_neg (by omega), if_pos h0, if_pos (by omega), hidx h0]
  by_cases h1 : 4 * q + d = 4 * p + 1
  · rw [if_neg (by omega), if_neg (by omega), if_pos h1, if_neg (by omega), if_pos (by omega), hidx h1]
  by_cases h2 : 4 * q + d = 4 * p + 2
  · rw [if_neg (by omega), if_pos h2, if_neg (by omega), if_neg (by omega), if_pos (by omega), hidx h2]
  by_cases h3 : 4 * q + d = 4 * p + 3
  · rw [if_pos h3, if_neg (by omega), if_neg (by omega), if_neg (by omega), if_pos (by omega), hidx h3]
  rw [if_neg h3, if_neg h2, if_neg h1, if_neg h0, if_neg (by omega)]

theorem State.chan_freshChans (s : State) (p q d : Nat) : (s.freshChans p).chan q d =
    if 4 * p ≤ 4 * q + d ∧ 4 * q + d < 4 * p + 4 then (s.chan q d).fresh else s.chan q d :=
  State.chan_iter4 (fun c s q d => s.chan_freshChan p c q d) s q d

theorem State.ports_trainReq (s : State) (p c : Nat) (v : Bool) : (s.trainReq p c v).fab.ports = s.fab.ports := by
  unfold State.trainReq
  split <;> rfl

theorem State.ports_freshChan (s : State) (p c : Nat) : (s.freshChan p c).fab.ports = s.fab.ports := by
  unfold State.freshChan
  dsimp only
  split
  · exact State.ports_trainReq ..
  · rfl

theorem State.ports_iter {f : Nat → State → State} (hf : ∀ c s, (f c s).fab.ports = s.fab.ports) (n : Nat) (s : State) :
    (iter n f s).fab.ports = s.fab.ports := by
  unfold iter
  induction List.range n generalizing s with
  | nil => rfl
  | cons c l ih => exact (ih (f c s)).trans (hf c s)

theorem State.ports_freshChans (s : State) (p : Nat) : (s.freshChans p).fab.ports = s.fab.ports :=
  State.ports_iter (fun c s => s.ports_freshChan p c) 4 s

theorem State.port_setPort (s : State) (p q : Nat) (v : PortSt) : (s.setPort p v).port q = if q = p then v else s.port q :=
  NMap.get_set ..

theorem State.port_congr (h : t.fab.ports = s.fab.ports) (p : Nat) : t.port p = s.port p := by
  unfold State.port; rw [h]

end Sys2Proof.Machine
end

section
/-! SUPPORT. Waking (R444, R498, R499, R525) and the power meters (R505 to R509). -/

namespace Sys2Proof.Machine

variable {s t u : State}

/-! One port at the end of Drowse. -/

/-- Port `p` and the states of its channels, its enable and FATAL are as before. -/
structure State.steady (p : Nat) (s t : State) : Prop where
  port : t.port p = s.port p
  chans : ∀ c, c < 4 → (t.chan p c).state = (s.chan p c).state
  enabled : t.portEn p = s.portEn p
  fatal : t.fatal = s.fatal

theorem State.steady.refl (p : Nat) (s : State) : State.steady p s s := ⟨rfl, fun _ _ => rfl, rfl, rfl⟩

theorem State.steady.trans {p : Nat} (h : State.steady p s t) (k : State.steady p t u) : State.steady p s u :=
  ⟨k.port.trans h.port, fun c hc => (k.chans c hc).trans (h.chans c hc), k.enabled.trans h.enabled, k.fatal.trans h.fatal⟩

theorem ite_ne_of_ne {α : Type} {c : Prop} [Decidable c] {a b x : α} (ha : a ≠ x) (hb : b ≠ x) : (if c then a else b) ≠ x := by
  split <;> assumption

theorem Field.le_of_fltR {o : Nat} (h : Field.ofReg o = .fltR) : 0x70000 ≤ o := by
  refine Nat.le_of_not_lt fun hlt => absurd h ?_
  unfold Field.ofReg
  iterate 14 refine ite_ne_of_ne (by decide) ?_
  rw [if_pos hlt]
  decide

theorem not_routeRegs_fabPortCfg (p : Nat) : ¬routeRegs (R.fabPortCfg p) := by
  rintro (h | h | h | ⟨q, c, h⟩ | h)
  · unfold R.fabPortCfg R.fabNoroute at h; omega
  · unfold R.fabPortCfg R.fabStray at h; omega
  · unfold R.fabPortCfg R.exchStray at h; omega
  · unfold R.fabPortCfg R.fabChFlits at h; omega
  · have hle := Field.le_of_fltR h
    unfold R.fabPortCfg at hle
    omega

theorem State.links.steady (h : State.links s t) (p : Nat) : State.steady p s t :=
  ⟨h.port p, fun c _ => (h.chans p c).state, State.regB_congr (h.regs _ (not_routeRegs_fabPortCfg p)) 4, h.fatal⟩

/-- What changes the channels and the port of another port only. -/
theorem State.steady_of_fab {p : Nat} (hkept : KeptBut [.fab, .outs] s t) (hport : t.port p = s.port p)
    (hchans : ∀ c, c < 4 → (t.chan p c).state = (s.chan p c).state) : State.steady p s t :=
  have hreg (o : Nat) : t.reg o = s.reg o :=
    (Only.ofKept (fs := [.fab, .outs]) (rs := []) hkept (by decide) (by decide)).regs o List.not_mem_nil
  ⟨hport, hchans, State.regB_congr (hreg _) 4, State.fatal_congr (hreg _)⟩

theorem State.steady_enterDown (s : State) {p q : Nat} (h : p ≠ q) : State.steady p s (s.enterDown q) := by
  unfold State.enterDown
  refine State.steady.trans (State.steady_of_fab (t := (s.setPort q _).freshChans q) ?_ ?_ fun c hc => ?_)
    ((State.links_reroute _ q).steady p)
  · exact (kept_freshChans ..).but.step (by decide) ((kept_setPort ..).but.mono (by decide))
  · rw [State.port_congr (State.ports_freshChans ..), State.port_setPort, if_neg h]
  · rw [State.chan_freshChans, if_neg (by omega)]
    rfl

/-- A channel that is not retired starts afresh. -/
def State.wakeChan (s : State) (p c : Nat) : State := if (s.chan p c).state = .retired then s else s.freshChan p c

def State.wakeChans (s : State) (p : Nat) : State := iter 4 (fun c s => s.wakeChan p c) s

theorem State.wakePort_eq (s : State) (p : Nat) : s.wakePort p = if s.portEn p = false then s
    else if [0, 1, 2, 3].all (fun c => (((s.setPort p ⟨.training, 0, none, none, false⟩).wakeChans p).chan p c).state == .retired)
      then ((s.setPort p ⟨.training, 0, none, none, false⟩).wakeChans p).enterDown p
      else (s.setPort p ⟨.training, 0, none, none, false⟩).wakeChans p := rfl

/-- The channel as Waking begins. -/
def ChanSt.woken (ch : ChanSt) : ChanSt := if ch.state = .retired then ch else ch.fresh

theorem State.chan_wakeChans (s : State) (p q d : Nat) : (s.wakeChans p).chan q d =
    if 4 * p ≤ 4 * q + d ∧ 4 * q + d < 4 * p + 4 then (s.chan q d).woken else s.chan q d := by
  refine State.chan_iter4 (fun c s q d => ?_) s q d
  unfold State.wakeChan ChanSt.woken
  split
  · split
    · next he => unfold State.chan; rw [he]
    · rfl
  · exact State.chan_freshChan ..

theorem State.ports_wakeChans (s : State) (p : Nat) : (s.wakeChans p).fab.ports = s.fab.ports := by
  refine State.ports_iter (fun c s => ?_) 4 s
  unfold State.wakeChan
  split
  · rfl
  · exact State.ports_freshChan ..

theorem KeptBut.wakeChans (s : State) (p : Nat) : KeptBut [.fab, .outs] s (s.wakeChans p) :=
  KeptBut.iter 4 (fun c u => KeptBut.ite (KeptBut.refl _ u) (kept_freshChan u p c).but) (KeptBut.refl _ s)

theorem State.steady_wakePort (s : State) {p q : Nat} (h : p ≠ q) : State.steady p s (s.wakePort q) := by
  have hchans : State.steady p s ((s.setPort q ⟨.training, 0, none, none, false⟩).wakeChans q) := by
    refine State.steady_of_fab ?_ ?_ fun c hc => ?_
    · exact (KeptBut.wakeChans ..).step (by decide) ((kept_setPort ..).but.mono (by decide))
    · rw [State.port_congr (State.ports_wakeChans ..), State.port_setPort, if_neg h]
    · rw [State.chan_wakeChans, if_neg (by omega)]
      rfl
  rw [State.wakePort_eq]
  split
  · exact State.steady.refl ..
  · split
    · exact hchans.trans (State.steady_enterDown _ h)
    · exact hchans

/-- A port in use with a channel that is not retired trains again. -/
theorem State.port_wakePort {p c : Nat} (henabled : s.portEn p = true) (hc : c < 4) (hlive : (s.chan p c).state ≠ .retired) :
    ((s.wakePort p).port p).state = .training := by
  rw [State.wakePort_eq, if_neg (by rw [henabled]; decide), if_neg]
  · rw [State.port_congr (State.ports_wakeChans ..), State.port_setPort, if_pos rfl]
  · intro hall
    have hretired := List.all_eq_true.1 hall c (by
      simp only [List.mem_cons, List.not_mem_nil, or_false]
      omega)
    rw [State.chan_wakeChans, if_pos (by omega), ChanSt.woken, show (s.setPort p _).chan p c = s.chan p c from rfl,
      if_neg hlive] at hretired
    exact nomatch hretired

/-! Waking (R498 steps 7 to 10). -/

/-- The registers that routing leaves, and FATAL, are as before. -/
structure State.calm (s t : State) : Prop where
  regs : ∀ o, ¬routeRegs o → t.reg o = s.reg o
  fatal : t.fatal = s.fatal

theorem State.calm.trans (h : State.calm s t) (k : State.calm t u) : State.calm s u :=
  ⟨fun o ho => (k.regs o ho).trans (h.regs o ho), k.fatal.trans h.fatal⟩

theorem State.links.calm (h : State.links s t) : State.calm s t := ⟨h.regs, h.fatal⟩

theorem State.calm_of_fab (hkept : KeptBut [.fab, .outs] s t) : State.calm s t :=
  have hreg (o : Nat) : t.reg o = s.reg o :=
    (Only.ofKept (fs := [.fab, .outs]) (rs := []) hkept (by decide) (by decide)).regs o List.not_mem_nil
  ⟨fun o _ => hreg o, State.fatal_congr (hreg _)⟩

theorem State.calm_enterDown (s : State) (p : Nat) : State.calm s (s.enterDown p) := by
  unfold State.enterDown
  refine State.calm.trans (State.calm_of_fab (t := (s.setPort p _).freshChans p) ?_) (State.links_reroute _ p).calm
  exact (kept_freshChans ..).but.step (by decide) ((kept_setPort ..).but.mono (by decide))

theorem State.calm_wakePort (s : State) (p : Nat) : State.calm s (s.wakePort p) := by
  have hchans : State.calm s ((s.setPort p ⟨.training, 0, none, none, false⟩).wakeChans p) :=
    State.calm_of_fab ((KeptBut.wakeChans ..).step (by decide) ((kept_setPort ..).but.mono (by decide)))
  rw [State.wakePort_eq]
  split
  · exact ⟨fun _ _ => rfl, rfl⟩
  · split
    · exact hchans.trans (State.calm_enterDown ..)
    · exact hchans

theorem iter_succ {σ : Type} (n : Nat) (f : Nat → σ → σ) (s : σ) : iter (n + 1) f s = f n (iter n f s) := by
  unfold iter
  rw [List.range_succ, List.foldl_append]
  rfl

/-- Every port in use begins to train. -/
theorem State.wakePorts_spec (s : State) (p : Nat) (n : Nat) :
    State.calm s (iter n (fun p s => s.wakePort p) s) ∧
    (n ≤ p → ∀ c, c < 4 → ((iter n (fun p s => s.wakePort p) s).chan p c).state = (s.chan p c).state) ∧
    (p < n → s.portEn p = true → (∃ c, c < 4 ∧ (s.chan p c).state ≠ .retired) →
      ((iter n (fun p s => s.wakePort p) s).port p).state = .training) := by
  induction n with
  | zero => exact ⟨⟨fun _ _ => rfl, rfl⟩, fun _ _ _ => rfl, fun h => absurd h (Nat.not_lt_zero p)⟩
  | succ n ih =>
    obtain ⟨hcalm, hchans, htrains⟩ := ih
    rw [iter_succ]
    generalize iter n (fun p s => s.wakePort p) s = t at hcalm hchans htrains ⊢
    refine ⟨hcalm.trans (t.calm_wakePort n), fun hle c hc => ?_, fun hlt henabled hlive => ?_⟩
    · exact ((t.steady_wakePort (show p ≠ n by omega)).chans c hc).trans (hchans (by omega) c hc)
    · by_cases hp : p = n
      · obtain ⟨c, hc, hstate⟩ := hlive
        subst hp
        refine State.port_wakePort ?_ hc (by rw [hchans (Nat.le_refl p) c hc]; exact hstate)
        exact (State.regB_congr (hcalm.regs _ (not_routeRegs_fabPortCfg p)) 4).trans henabled
      · rw [(t.steady_wakePort hp).port]
        exact htrains (by omega) henabled hlive

/-- The state as Waking begins, before the ports. -/
def State.waking (s : State) : State :=
  let s := s.setF R.pwrStatus 0 3 4
  { s with mem := { s.mem with watch := [] } }

theorem State.reg_waking (s : State) {o : Nat} (h : o ≠ R.pwrStatus) : s.waking.reg o = s.reg o :=
  State.reg_setF_ne s _ _ _ h

theorem State.pstate_waking (s : State) : s.waking.pstate = 4 := State.regF_setF s R.pwrStatus 0 3 4 (by decide)

/-- What WAKE does in Drowse. -/
theorem State.wake_eq (hstate : s.pstate = 3) (ok : Bool) : s.wake ok =
    if ok then iter s.build.ports (fun p s => s.wakePort p) s.waking
    else (iter s.build.ports (fun p s => s.wakePort p) s.waking).coreFault
      (FaultRec.plain 5 unitAon Code.shadowInvalid.num 0 0) := if_neg (not_not.2 hstate)

theorem State.wakePorts_kept (n : Nat) (s : State) :
    KeptBut [.fab, .outs, .trig, .exchR, .fabR, .fltR] s (iter n (fun p s => s.wakePort p) s) :=
  KeptBut.iter n (fun p u => (kept_wakePort u p).but) (KeptBut.refl _ s)

/-- What WAKE does in Drowse, whatever the shadow. -/
theorem State.wake_spec (hstate : s.pstate = 3) (ok : Bool) :
    (s.wake ok).pstate = 4 ∧ (s.wake ok).mem = { s.mem with watch := [] } ∧ (s.wake ok).prop = s.prop ∧
    (s.wake ok).board = s.board ∧
    (∀ p, p < s.build.ports → s.portEn p = true → (∃ c, c < 4 ∧ (s.chan p c).state ≠ .retired) →
      ((s.wake ok).port p).state = .training) ∧
    (ok = true → (s.wake ok).lines = s.lines ∧ (s.wake ok).fatal = s.fatal) ∧ (ok = false → (s.wake ok).fatal = true) := by
  have hports := State.wakePorts_kept s.build.ports s.waking
  have hreg (p : Nat) : s.waking.portEn p = s.portEn p :=
    State.regB_congr (s.reg_waking (by unfold R.fabPortCfg R.pwrStatus; omega)) 4
  have htrain (p : Nat) := (s.waking.wakePorts_spec p s.build.ports).2.2
  have hfatal := (s.waking.wakePorts_spec 0 s.build.ports).1.fatal
  have hpower : (iter s.build.ports (fun p s => s.wakePort p) s.waking).pstate = 4 := by
    rw [State.pstate_congr (hports.reg (by decide)), State.pstate_waking]
  rw [State.wake_eq hstate]
  generalize iter s.build.ports (fun p s => s.wakePort p) s.waking = t at hports htrain hfatal hpower ⊢
  cases ok with
  | true =>
    refine ⟨hpower, hports.same .mem (by decide), hports.same .prop (by decide), hports.same .board (by decide),
      fun p hp henabled hlive => htrain p hp ((hreg p).trans henabled) hlive,
      fun _ => ⟨hports.same .lines (by decide), hfatal.trans (State.fatal_congr (s.reg_waking (by decide)))⟩, nofun⟩
  | false =>
    have hfault := (kept_coreFault t (FaultRec.plain 5 unitAon Code.shadowInvalid.num 0 0)).but
    refine ⟨?_, ?_, ?_, ?_, fun p hp henabled hlive => ?_, nofun, fun _ => (t.coreFault_spec _ rfl).1⟩
    · exact (State.pstate_congr (t.reg_coreFault _ _ (by decide) (by decide))).trans hpower
    · exact (hfault.same .mem (by decide)).trans (hports.same .mem (by decide))
    · exact (hfault.same .prop (by decide)).trans (hports.same .prop (by decide))
    · exact (hfault.same .board (by decide)).trans (hports.same .board (by decide))
    · rw [if_neg (by decide), State.port_congr (congrArg (·.ports) (hfault.same .fab (by decide)))]
      exact htrain p hp ((hreg p).trans henabled) hlive

/-- The end of Waking. -/
def State.awake (s : State) : State :=
  ((((s.setF R.pwrStatus 0 3 0).setB R.ctlStatus 0 true).setB R.tabStatus 0 true).setB R.rstCause 3 true).latchIrq 0

theorem State.awake_spec (s : State) : s.awake.pstate = 0 ∧ s.awake.regB R.ctlStatus 0 = true ∧ s.awake.regB R.tabStatus 0 = true ∧
    s.awake.regB R.rstCause 3 = true ∧ s.awake.regB R.ctlIrqPend 0 = true ∧
    Only [] [R.pwrStatus, R.ctlStatus, R.tabStatus, R.rstCause, R.ctlIrqPend] s s.awake := by
  unfold State.awake State.latchIrq
  refine ⟨?_, ?_, ?_, ?_, State.regB_setB_self _ _ _ _ (by decide),
    (((((Only.refl ..).setF (by simp)).setB (by simp)).setB (by simp)).setB (by simp)).setB (by simp)⟩
  · unfold State.pstate
    rw [State.regF_congr (State.reg_setB_ne _ _ _ (by decide)), State.regF_congr (State.reg_setB_ne _ _ _ (by decide)),
      State.regF_congr (State.reg_setB_ne _ _ _ (by decide)), State.regF_congr (State.reg_setB_ne _ _ _ (by decide)),
      State.regF_setF _ _ _ _ _ (by decide), Nat.zero_mod]
  · rw [State.regB_setB_ne _ _ _ _ (by decide), State.regB_setB_ne _ _ _ _ (by decide), State.regB_setB_ne _ _ _ _ (by decide),
      State.regB_setB_self _ _ _ _ (by decide)]
  · rw [State.regB_setB_ne _ _ _ _ (by decide), State.regB_setB_ne _ _ _ _ (by decide), State.regB_setB_self _ _ _ _ (by decide)]
  · rw [State.regB_setB_ne _ _ _ _ (by decide), State.regB_setB_self _ _ _ _ (by decide)]

theorem waking_claim : Sys2Proof.Claims.Waking := by
  intro s ok
  dsimp only
  have hsettled : (List.range s.build.ports).all s.portSettled = true ↔ ∀ p, p < s.build.ports → s.portSettled p = true := by
    simp only [List.all_eq_true, List.mem_range]
  rw [← hsettled]
  have hstate := s.pstate_hostTouch
  refine ⟨fun hserve => ⟨fun hother => ?_, fun hdrowse => ?_⟩, fun hnot => ?_, fun hwaking hall => ?_⟩
  · refine Ends.of rfl (State.hostWrite_ok _ hserve) ?_
    rw [State.wake, if_pos (by rw [hstate]; exact hother)]
    exact (Only.refl ..).hostTouch (by simp)
  · refine Ends.of rfl (State.hostWrite_ok _ hserve) ?_
    obtain ⟨hpower, hmem, hprop, hboard, htrain, hok, hfault⟩ := State.wake_spec (s := s.hostTouch) (hstate.trans hdrowse) ok
    refine ⟨hpower, hmem, hprop, hboard, fun p hp henabled hlive => htrain p hp ?_ hlive,
      fun h => ⟨(hok h).1, (hok h).2.trans s.fatal_hostTouch⟩, hfault⟩
    exact (State.regB_congr (State.hostTouch_reg_ne s (by unfold R.fabPortCfg R.sesIdleTicks; omega)) 4).trans henabled
  · refine Ends.of rfl (if_pos ?_) rfl
    rwa [Bool.not_eq_true] at hnot
  · refine Ends.of rfl (if_neg ?_) s.awake_spec
    rintro (h | h)
    · exact h hwaking
    · rw [hall] at h; exact nomatch h

/-! The power meters (R505 to R509). -/

theorem getLsbD_fld {lo w v i : Nat} (h : lo + w ≤ 32) (hi : i < w) : (fld lo w v).getLsbD (lo + i) = v.testBit i := by
  unfold fld
  rw [BitVec.getLsbD_ofNat, Nat.testBit_shiftLeft, Nat.testBit_mod_two_pow, Nat.add_sub_cancel_left,
    decide_eq_true (show lo + i < 32 by omega), decide_eq_true (show lo ≤ lo + i by omega), decide_eq_true hi]
  rfl

/-- A field of a word that holds it beside bits outside the field. -/
theorem fieldN_fld_or {lo w v : Nat} {x : Word} (h : lo + w ≤ 32) (hv : v < 2 ^ w)
    (hx : ∀ i, i < w → x.getLsbD (lo + i) = false) : fieldN (fld lo w v ||| x) lo w = v := by
  rw [fieldN_eq_of_bits (v := v), Nat.mod_eq_of_lt hv]
  intro i hi
  rw [BitVec.getLsbD_or, getLsbD_fld h hi, hx i hi, Bool.or_false]

theorem fieldN_fld {lo w v : Nat} (h : lo + w ≤ 32) (hv : v < 2 ^ w) : fieldN (fld lo w v) lo w = v := by
  have hor := fieldN_fld_or (x := 0#32) h hv fun i _ => BitVec.getLsbD_zero
  rwa [BitVec.or_zero] at hor

/-- The two halves of a word. -/
theorem fieldN_halves {a b : Nat} (ha : a < 2 ^ 16) (hb : b < 2 ^ 16) :
    fieldN (fld 0 16 a ||| fld 16 16 b) 0 16 = a ∧ fieldN (fld 0 16 a ||| fld 16 16 b) 16 16 = b := by
  constructor
  · exact fieldN_fld_or (by decide) ha fun i hi => getLsbD_fld_of_not_mem (by omega)
  · rw [BitVec.or_comm]
    exact fieldN_fld_or (by decide) hb fun i hi => getLsbD_fld_of_not_mem (by omega)

/-- The registers of an estimate. -/
def State.estimated (s : State) (total : Nat) (a c m o t : BitVec 16) : State :=
  ((((s.setReg R.pwrEst (fld 0 16 total)).setReg R.pwrEstParts0 (fld 0 16 a.toNat ||| fld 16 16 c.toNat)).setReg
    R.pwrEstParts1 (fld 0 16 m.toNat ||| fld 16 16 o.toNat)).setReg R.pwrTemp (fld 0 16 t.toNat))

theorem State.estimated_spec (s : State) (total : Nat) (a c m o t : BitVec 16) :
    (s.estimated total a c m o t).reg R.pwrEst = fld 0 16 total ∧
    (s.estimated total a c m o t).reg R.pwrEstParts0 = fld 0 16 a.toNat ||| fld 16 16 c.toNat ∧
    (s.estimated total a c m o t).reg R.pwrEstParts1 = fld 0 16 m.toNat ||| fld 16 16 o.toNat ∧
    (s.estimated total a c m o t).reg R.pwrTemp = fld 0 16 t.toNat ∧
    Only [] [R.pwrEst, R.pwrEstParts0, R.pwrEstParts1, R.pwrTemp] s (s.estimated total a c m o t) := by
  unfold State.estimated
  refine ⟨?_, ?_, ?_, State.reg_setReg_self .., ((((Only.refl ..).setReg (by simp)).setReg (by simp)).setReg (by simp)).setReg
    (by simp)⟩
  · rw [State.reg_setReg_ne _ _ (by decide), State.reg_setReg_ne _ _ (by decide), State.reg_setReg_ne _ _ (by decide),
      State.reg_setReg_self]
  · rw [State.reg_setReg_ne _ _ (by decide), State.reg_setReg_ne _ _ (by decide), State.reg_setReg_self]
  · rw [State.reg_setReg_ne _ _ (by decide), State.reg_setReg_self]

/-- The governor (R507). -/
theorem State.govern_spec (s : State) (total : Nat) : (s.govern total).regB R.pwrStatus 7 =
    (if s.regF R.pwrLimit 0 16 < total then true
      else if total + s.regF R.pwrLimit 16 16 ≤ s.regF R.pwrLimit 0 16 then false else s.regB R.pwrStatus 7) ∧
    Only [] [R.pwrStatus] s (s.govern total) := by
  unfold State.govern
  dsimp only
  by_cases hover : s.regF R.pwrLimit 0 16 < total
  · rw [if_pos (by omega), if_pos hover]
    exact ⟨State.regB_setB_self _ _ _ _ (by decide), (Only.refl ..).setB (by simp)⟩
  · rw [if_neg (by omega), if_neg hover]
    by_cases hunder : total + s.regF R.pwrLimit 16 16 ≤ s.regF R.pwrLimit 0 16
    · rw [if_pos (by omega), if_pos hunder]
      exact ⟨State.regB_setB_self _ _ _ _ (by decide), (Only.refl ..).setB (by simp)⟩
    · rw [if_neg (by omega), if_neg hunder]
      exact ⟨rfl, Only.refl ..⟩

theorem State.powerEstimate_eq (h : s.running = true) (a c m o t : BitVec 16) : s.powerEstimate a c m o t =
    (s.estimated (min 0xFFFF (a.toNat + c.toNat + m.toNat + o.toNat)) a c m o t).govern
      (min 0xFFFF (a.toNat + c.toNat + m.toNat + o.toNat)) := if_neg (by rw [h]; decide)

/-- What an estimate enters in the registers. -/
theorem State.powerEstimate_spec (h : s.running = true) (a c m o t : BitVec 16) {total : Nat}
    (ht : total = min 0xFFFF (a.toNat + c.toNat + m.toNat + o.toNat)) :
    (s.powerEstimate a c m o t).regF R.pwrEst 0 16 = total ∧ (s.powerEstimate a c m o t).regF R.pwrEstParts0 0 16 = a.toNat ∧
    (s.powerEstimate a c m o t).regF R.pwrEstParts0 16 16 = c.toNat ∧
    (s.powerEstimate a c m o t).regF R.pwrEstParts1 0 16 = m.toNat ∧
    (s.powerEstimate a c m o t).regF R.pwrEstParts1 16 16 = o.toNat ∧
    (s.powerEstimate a c m o t).regF R.pwrTemp 0 16 = t.toNat ∧
    (s.powerEstimate a c m o t).regB R.pwrStatus 7 = (if s.regF R.pwrLimit 0 16 < total then true
      else if total + s.regF R.pwrLimit 16 16 ≤ s.regF R.pwrLimit 0 16 then false else s.regB R.pwrStatus 7) ∧
    Only [] [R.pwrEst, R.pwrEstParts0, R.pwrEstParts1, R.pwrTemp, R.pwrStatus] s (s.powerEstimate a c m o t) := by
  rw [State.powerEstimate_eq h, ← ht]
  have hlt : total < 2 ^ 16 := by omega
  obtain ⟨hest, hparts0, hparts1, htemp, honly⟩ := s.estimated_spec total a c m o t
  obtain ⟨hgov, hstatus⟩ := (s.estimated total a c m o t).govern_spec total
  have hkeep {q : Nat} (hq : q ∉ [R.pwrStatus]) (lo w : Nat) :
      ((s.estimated total a c m o t).govern total).regF q lo w = fieldN ((s.estimated total a c m o t).reg q) lo w :=
    congrArg (fieldN · lo w) (hstatus.regs q hq)
  have hsame {q : Nat} (hq : q ∉ [R.pwrEst, R.pwrEstParts0, R.pwrEstParts1, R.pwrTemp]) (lo w : Nat) :
      (s.estimated total a c m o t).regF q lo w = s.regF q lo w := honly.regF hq lo w
  have hac := fieldN_halves a.isLt c.isLt
  have hmo := fieldN_halves m.isLt o.isLt
  refine ⟨?_, ?_, ?_, ?_, ?_, ?_, ?_, (honly.mono (by decide) (by simp)).trans (hstatus.mono (by decide) (by simp))⟩
  · rw [hkeep (by decide), hest, fieldN_fld (by decide) hlt]
  · rw [hkeep (by decide), hparts0, hac.1]
  · rw [hkeep (by decide), hparts0, hac.2]
  · rw [hkeep (by decide), hparts1, hmo.1]
  · rw [hkeep (by decide), hparts1, hmo.2]
  · rw [hkeep (by decide), htemp, fieldN_fld (by decide) t.isLt]
  · rw [hgov, hsame (by decide), hsame (by decide), honly.regB (by decide)]

/-- The voltage a write asks for, clamped (R508). -/
def State.clamps (s : State) (mv : Nat) : State := if mv < 620 ∨ 880 < mv then s.setB R.pwrStatus 9 true else s

theorem State.clamps_spec (s : State) (mv : Nat) :
    (s.clamps mv).regB R.pwrStatus 9 = (s.regB R.pwrStatus 9 || decide (mv < 620 ∨ 880 < mv)) ∧
    Only [] [R.pwrStatus] s (s.clamps mv) := by
  unfold State.clamps
  split
  · next h =>
    rw [decide_eq_true h, Bool.or_true]
    exact ⟨State.regB_setB_self _ _ _ _ (by decide), (Only.refl ..).setB (by simp)⟩
  · next h =>
    rw [decide_eq_false h, Bool.or_false]
    exact ⟨rfl, Only.refl ..⟩

theorem powerMeters_claim : Sys2Proof.Claims.PowerMeters := by
  intro s v a c m o t n
  dsimp only
  refine ⟨fun hserve => ?_, fun hoff => ?_, fun hrunning => ?_, fun hphase hstate => ?_, fun hother => ?_, ?_⟩
  · refine Ends.of rfl (State.hostWrite_ok _ hserve) ?_
    obtain ⟨hclamp, hstatus⟩ := s.hostTouch.clamps_spec (fieldN v 0 10)
    have hlt : max 620 (min 880 (fieldN v 0 10)) < 1024 := by omega
    obtain ⟨hvreq, hchange, hsame, honly⟩ := (s.hostTouch.clamps (fieldN v 0 10)).setVreq_spec hlt
    have hbefore : (s.hostTouch.clamps (fieldN v 0 10)).regF R.pwrVreq 0 10 = s.regF R.pwrVreq 0 10 := by
      rw [hstatus.regF (by decide), State.regF_congr (State.hostTouch_reg_ne s (by decide))]
    rw [hbefore] at hchange hsame
    refine ⟨hvreq, ?_, hchange, fun h => ?_, ?_⟩
    · rw [show s.hostTouch.vreqWrite v = (s.hostTouch.clamps (fieldN v 0 10)).setVreq (max 620 (min 880 (fieldN v 0 10))) from rfl,
        honly.regB (by decide), hclamp, State.regB_congr (State.hostTouch_reg_ne s (by decide))]
    · rw [show s.hostTouch.vreqWrite v = (s.hostTouch.clamps (fieldN v 0 10)).setVreq (max 620 (min 880 (fieldN v 0 10))) from rfl,
        hsame h, hstatus.regs _ (by decide), State.hostTouch_reg_ne s (by decide)]
    · exact (((Only.refl ..).hostTouch (by simp)).trans (hstatus.mono (by decide) (by simp))).trans
        (honly.mono (by decide) (by simp))
  · refine Ends.of rfl (if_pos ?_) rfl
    unfold State.running
    generalize s.phase = phase at hoff
    cases phase <;> simp at hoff ⊢
  · exact Ends.of rfl rfl (State.powerEstimate_spec (State.running_of_phase hrunning) a c m o t rfl)
  · refine Ends.of rfl (if_neg ?_) ⟨?_, (Only.refl ..).setReg (by simp)⟩
    · rintro (h | h)
      · exact h hphase
      · exact absurd hstate (Nat.not_lt_of_le h)
    · rw [State.regF, State.reg_setReg_self, fieldN_fld (by decide) n.isLt]
  · exact Ends.of rfl (if_pos hother) rfl
  · exact Ends.of rfl rfl ⟨rfl, rfl, Only.ofKept (l := [.arr]) (KeptBut.upd (KeptBut.refl _ s)) (by decide) (by decide)⟩

/-- Settles O60, family by family: the entry into Idle, the request for and the entry into Drowse, Waking, and the meters. -/
theorem powerStates : Obligations.PowerStates := ⟨idleEntry_claim, drowseEntry_claim, waking_claim, powerMeters_claim⟩

end Sys2Proof.Machine
end

section
/-! SUPPORT. Peer checks of a port in training (R443, R444). -/

namespace Sys2Proof.Machine

variable {s t u : State}

/-! Readiness (R488). -/

theorem State.portSettled_congr {q : Nat} (hport : t.port q = s.port q) (henabled : t.portEn q = s.portEn q) :
    t.portSettled q = s.portSettled q := by
  unfold State.portSettled; rw [hport, henabled]

theorem State.checkReady_phase (h : s.phase = .up) : s.checkReady.phase = .up := by
  unfold State.checkReady
  split
  · rfl
  · exact h

/-- READY rises with the last port that settles. -/
theorem State.checkReady_ready (hphase : s.phase = .bringUp) (h : ∀ q, q < s.build.ports → s.portSettled q = true) :
    s.checkReady.phase = .up ∧ s.checkReady.regB R.ctlStatus 0 = true := by
  have hall : (List.range s.build.ports).all s.portSettled = true := by
    simpa only [List.all_eq_true, List.mem_range] using h
  unfold State.checkReady
  rw [if_pos ⟨hphase, hall⟩]
  refine ⟨rfl, ?_⟩
  unfold State.latchIrq
  rw [State.regB_setB_ne _ _ _ _ (by decide), State.regB_setB_ne _ _ _ _ (by decide), State.regB_setB_self _ _ _ _ (by decide)]

/-- Port `p` has an outcome in state `t`, and nothing else of the ports has changed since `s`. -/
structure State.outcome (s t : State) (p : Nat) (st : PortState) : Prop where
  state : (t.port p).state = st
  others : ∀ q, q ≠ p → t.port q = s.port q
  up : s.phase = .up → t.phase = .up
  ready : s.phase = .bringUp → (∀ q, q < s.build.ports → q ≠ p → s.portSettled q = true) →
    t.phase = .up ∧ t.regB R.ctlStatus 0 = true

/-- A port state that bring-up waits for no longer. -/
def PortState.settles (st : PortState) : Bool := st != .training && st != .disabled && st != .resetting

theorem State.outcome_checkReady {p : Nat} {st : PortState} (hst : st.settles = true) (hstate : (t.port p).state = st)
    (hothers : ∀ q, q ≠ p → t.port q = s.port q) (henabled : ∀ q, t.portEn q = s.portEn q) (hphase : t.phase = s.phase)
    (hbuild : t.build = s.build) : State.outcome s t.checkReady p st := by
  have hport (q : Nat) : t.checkReady.port q = t.port q :=
    State.port_congr (congrArg (·.ports) ((kept_checkReady t).but.same .fab (by decide))) q
  refine ⟨(congrArg (·.state) (hport p)).trans hstate, fun q hq => (hport q).trans (hothers q hq),
    fun h => State.checkReady_phase (hphase.trans h), fun h hall => State.checkReady_ready (hphase.trans h) fun q hq => ?_⟩
  by_cases hqp : q = p
  · subst hqp
    unfold State.portSettled
    rw [hstate]
    exact Bool.or_eq_true_iff.2 (.inr hst)
  · rw [State.portSettled_congr (hothers q hqp) (henabled q)]
    exact hall q (hbuild ▸ hq) hqp

/-! What does not change the block of FAB registers. -/

theorem State.portEn_of_reg (h : ∀ o, Field.ofReg o = .fabR → t.reg o = s.reg o) (q : Nat) : t.portEn q = s.portEn q :=
  State.regB_congr (h _ (Field.ofReg_fabR (by unfold R.fabPortCfg; omega) (by unfold R.fabPortCfg; omega))) 4

/-- Before an outcome of port `p`, only that port and messages may have changed. -/
theorem State.outcome.of_fab {v : State} {p : Nat} {st : PortState} (h : State.outcome t v p st) (hkept : KeptBut [.fab, .outs] s t)
    (hothers : ∀ q, q ≠ p → t.port q = s.port q) : State.outcome s v p st := by
  have hphase := hkept.same .phase (by decide)
  have hbuild := hkept.same .build (by decide)
  have henabled := State.portEn_of_reg (hkept.same .fabR (by decide))
  refine ⟨h.state, fun q hq => (h.others q hq).trans (hothers q hq), fun k => h.up (hphase.trans k), fun k hall =>
    h.ready (hphase.trans k) fun q hq hqp => ?_⟩
  rw [State.portSettled_congr (hothers q hqp) (henabled q)]
  exact hall q (hbuild ▸ hq) hqp

theorem State.liveChans_congr (h : t.fab.chans = s.fab.chans) (p : Nat) : t.liveChans p = s.liveChans p := by
  unfold State.liveChans State.chan; rw [h]

theorem State.setPort_self (s : State) (p : Nat) (v : PortSt) : (s.setPort p v).port p = v := by
  rw [State.port_setPort, if_pos rfl]

theorem State.setPort_other (s : State) {p q : Nat} (h : q ≠ p) (v : PortSt) : (s.setPort p v).port q = s.port q := by
  rw [State.port_setPort, if_neg h]

/-! A held port (R443). -/

theorem State.holdPort_spec (s : State) (p : Nat) {st : PortState} (hst : st.settles = true) :
    State.outcome s (s.holdPort p st) p st ∧ ((s.holdPort p st).port p).peer = (s.port p).peer ∧
      (s.holdPort p st).outs = s.outs ∧ (s.holdPort p st).reg R.fltWr = s.reg R.fltWr + 1 := by
  unfold State.holdPort
  extract_lets x
  have hset := (kept_setPort s p { x with state := st }).but
  generalize hlog : FaultRec.plain 2 unitFabric Code.fabPeerInvalid.num x.peer.toNat 6 = r
  have hrecord := (kept_logRecord (s.setPort p { x with state := st }) r).but
  have hready := (kept_checkReady ((s.setPort p { x with state := st }).logRecord r)).but
  have hport (q : Nat) : ((s.setPort p { x with state := st }).logRecord r).port q = (s.setPort p { x with state := st }).port q :=
    State.port_congr (congrArg (·.ports) (hrecord.same .fab (by decide))) q
  have hready_port (q : Nat) := State.port_congr (congrArg (·.ports) (hready.same .fab (by decide))) q
  refine ⟨State.outcome_checkReady hst ?_ (fun q hq => ?_) (State.portEn_of_reg ?_) (hrecord.same .phase (by decide))
    (hrecord.same .build (by decide)), ?_, ?_, ?_⟩
  · rw [hport, State.setPort_self]
  · rw [hport, State.setPort_other _ hq]
  · exact hrecord.same .fabR (by decide)
  · rw [hready_port, hport, State.setPort_self]
  · exact (hready.same .outs (by decide)).trans (hrecord.same .outs (by decide))
  · rw [hready.reg (by decide), State.fltWr_logRecord]
    rfl

/-! A port that goes UP (R443, R444). -/

theorem State.tryUp_spec {p : Nat} (hstate : (s.port p).state = .training) (hown : (s.port p).own = some false)
    (hheard : (s.port p).heard = some false) (htrained : ∀ c, c < 4 → (s.chan p c).state ≠ .idle) :
    State.outcome s (s.tryUp p) p .up := by
  have hall : [0, 1, 2, 3].all (fun c => (s.chan p c).state != .idle) = true := by
    simp only [List.all_cons, List.all_nil, Bool.and_true, Bool.and_eq_true, bne_iff_ne]
    exact ⟨htrained 0 (by decide), htrained 1 (by decide), htrained 2 (by decide), htrained 3 (by decide)⟩
  unfold State.tryUp
  extract_lets x
  rw [if_pos ⟨hstate, hown, hheard, hall⟩]
  have hlinks := State.links_pump (s.setPort p { x with state := .up, retry := false }) p
  have hkept := (kept_pump (s.setPort p { x with state := .up, retry := false }) p).but
  refine State.outcome_checkReady rfl ?_ (fun q hq => ?_)
    (fun q => State.regB_congr (hlinks.regs _ (not_routeRegs_fabPortCfg q)) 4) (hkept.same .phase (by decide)) hlinks.build
  · rw [hlinks.port, State.setPort_self]
  · rw [hlinks.port, State.setPort_other _ hq]

theorem State.tryUp_idle {p c : Nat} (hc : c < 4) (h : (s.chan p c).state = .idle) : s.tryUp p = s := by
  unfold State.tryUp
  refine if_neg ?_
  rintro ⟨_, _, _, hall⟩
  rw [List.all_eq_true] at hall
  have hmem : c ∈ [0, 1, 2, 3] := by
    simp only [List.mem_cons, List.not_mem_nil, or_false]
    omega
  exact absurd h (bne_iff_ne.1 (hall c hmem))

/-! VERDICT on every live channel (R443). -/

/-- The LINK flits of `bytes` on channels `l` of a port. -/
def State.linkFlits (s : State) (p : Nat) (bytes : List Byte) (l : List Nat) : List Output :=
  l.map fun c => .flit p c (mkFlit 0xF 0 0 s.coreId true true bytes).seal

theorem State.sendLinks_outs (s : State) (p : Nat) (bytes : List Byte) (l : List Nat) :
    (l.foldl (fun s c => s.sendLink p c bytes) s).outs = s.outs ++ s.linkFlits p bytes l := by
  induction l generalizing s with
  | nil => exact (List.append_nil _).symm
  | cons c l ih =>
    rw [List.foldl_cons, ih]
    exact List.append_assoc ..

/-- The core has judged the peer of a port and has told it. -/
def State.judged (s : State) (p : Nat) (peer : BitVec 12) (bad : Bool) : State :=
  (s.setPort p { s.port p with peer := peer, own := some bad }).sendLinks p [5#8, if bad then 1#8 else 0#8]

theorem KeptBut.judged (s : State) (p : Nat) (peer : BitVec 12) (bad : Bool) : KeptBut [.fab, .outs] s (s.judged p peer bad) :=
  (kept_sendLinks ..).but.step (by decide) ((kept_setPort ..).but.mono (by decide))

theorem State.fab_judged (s : State) (p : Nat) (peer : BitVec 12) (bad : Bool) :
    (s.judged p peer bad).fab = (s.setPort p { s.port p with peer := peer, own := some bad }).fab :=
  (kept_sendLinks ..).but.same .fab (by decide)

theorem State.port_judged (s : State) (p : Nat) (peer : BitVec 12) (bad : Bool) :
    (s.judged p peer bad).port p = { s.port p with peer := peer, own := some bad } :=
  (State.port_congr (congrArg (·.ports) (s.fab_judged p peer bad)) p).trans (State.setPort_self ..)

theorem State.port_judged_other (s : State) {p q : Nat} (h : q ≠ p) (peer : BitVec 12) (bad : Bool) :
    (s.judged p peer bad).port q = s.port q :=
  (State.port_congr (congrArg (·.ports) (s.fab_judged p peer bad)) q).trans (State.setPort_other _ h _)

theorem State.outs_judged (s : State) (p : Nat) (peer : BitVec 12) (bad : Bool) : (s.judged p peer bad).outs = s.outs ++
    (s.liveChans p).map fun c => .flit p c (mkFlit 0xF 0 0 s.coreId true true [5#8, if bad then 1#8 else 0#8]).seal :=
  State.sendLinks_outs ..

/-- What a port that holds shows, told of the state before the command. -/
def State.heldAs (s : State) (p : Nat) (st : PortState) (u : State) : Prop :=
  (u.port p).state = st ∧ (∀ q, q ≠ p → u.port q = s.port q) ∧
    u.reg R.fltWr = s.reg R.fltWr + 1 ∧ (s.phase = .up → u.phase = .up) ∧
    (s.phase = .bringUp → (∀ q, q < s.build.ports → q ≠ p → s.portSettled q = true) →
      u.phase = .up ∧ u.regB R.ctlStatus 0 = true)

theorem State.heldAs_holdPort {p : Nat} {st : PortState} (hst : st.settles = true) (hkept : KeptBut [.fab, .outs] s t)
    (hothers : ∀ q, q ≠ p → t.port q = s.port q) : s.heldAs p st (t.holdPort p st) := by
  obtain ⟨hout, _, _, hfault⟩ := State.holdPort_spec t p hst
  obtain ⟨hstate, hports, hup, hready⟩ := hout.of_fab hkept hothers
  exact ⟨hstate, hports, hfault.trans (congrArg (· + 1) (hkept.reg (by decide))), hup, hready⟩

/-! The checks of a port that has heard no HELLO, and the peer's verdict. -/

/-- A port in training with a channel to hear its peer on. -/
def State.awaits (s : State) (p : Nat) : Prop := p < s.build.ports ∧ (s.port p).state = .training ∧ s.liveChans p ≠ []

/-- The peer is not the one that FAB_PORT_CFG names. -/
def State.wrongPeer (s : State) (p : Nat) (peer : BitVec 12) : Prop :=
  s.regB (R.fabPortCfg p) 5 = true ∧ s.regF (R.fabPortCfg p) 16 12 ≠ peer.toNat

theorem State.hello_bad {p : Nat} {peer : BitVec 12} {st : PortState} (h : s.awaits p) (hown : (s.port p).own = none)
    (hbad : peer = s.coreId ∧ st = .dupId ∨ peer ≠ s.coreId ∧ s.wrongPeer p peer ∧ st = .peerMismatch) :
    s.hello p peer = (s.judged p peer true).holdPort p st := by
  unfold State.hello
  extract_lets x cfg bad
  rw [if_pos ⟨h.1, h.2.1, hown, h.2.2⟩]
  have hval : bad = some st := by
    rcases hbad with ⟨hid, rfl⟩ | ⟨hid, hwrong, rfl⟩
    · exact if_pos hid
    · exact (if_neg hid).trans (if_pos hwrong)
  clear_value bad
  subst hval
  rfl

theorem State.hello_good {p : Nat} {peer : BitVec 12} (h : s.awaits p) (hown : (s.port p).own = none)
    (hid : peer ≠ s.coreId) (hright : ¬s.wrongPeer p peer) : s.hello p peer = (s.judged p peer false).weighVerdict p := by
  unfold State.hello
  extract_lets x cfg bad
  rw [if_pos ⟨h.1, h.2.1, hown, h.2.2⟩]
  have hval : bad = none := (if_neg hid).trans (if_neg hright)
  clear_value bad
  subst hval
  rfl

theorem State.weighVerdict_eq {p : Nat} (hstate : (s.port p).state = .training) (hown : (s.port p).own = some false) :
    s.weighVerdict p = match (s.port p).heard with
      | some true => s.holdPort p .peerHeld
      | some false => s.tryUp p
      | none => s := by
  unfold State.weighVerdict
  exact if_neg (by rintro (h | h); exacts [h hstate, h hown])

theorem State.verdict_eq {p : Nat} (h : s.awaits p) (hheard : (s.port p).heard = none) (v : Bool) :
    s.verdict p v = (s.setPort p { s.port p with heard := some v }).weighVerdict p :=
  if_pos ⟨h.1, h.2.1, hheard, h.2.2⟩

theorem State.hello_not {p : Nat} {peer : BitVec 12} (h : ¬s.awaits p ∨ (s.port p).own ≠ none) : s.hello p peer = s := by
  refine if_neg ?_
  rintro ⟨hthere, hstate, hown, hlive⟩
  rcases h with h | h
  · exact h ⟨hthere, hstate, hlive⟩
  · exact h hown

theorem State.verdict_not {p : Nat} {v : Bool} (h : ¬s.awaits p ∨ (s.port p).heard ≠ none) : s.verdict p v = s := by
  refine if_neg ?_
  rintro ⟨hthere, hstate, hheard, hlive⟩
  rcases h with h | h
  · exact h ⟨hthere, hstate, hlive⟩
  · exact h hheard

/-- A peer that the checks refuse holds the port. -/
theorem State.hello_bad_spec {p : Nat} {peer : BitVec 12} {st : PortState} (h : s.awaits p) (hown : (s.port p).own = none)
    (hbad : peer = s.coreId ∧ st = .dupId ∨ peer ≠ s.coreId ∧ s.wrongPeer p peer ∧ st = .peerMismatch) :
    s.heldAs p st (s.hello p peer) ∧ ((s.hello p peer).port p).peer = peer ∧ (s.hello p peer).outs = s.outs ++
      (s.liveChans p).map fun c => .flit p c (mkFlit 0xF 0 0 s.coreId true true [5#8, 1#8]).seal := by
  have hst : st.settles = true := by rcases hbad with ⟨_, rfl⟩ | ⟨_, _, rfl⟩ <;> rfl
  rw [State.hello_bad h hown hbad]
  obtain ⟨_, hpeer, houts, _⟩ := State.holdPort_spec (s.judged p peer true) p hst
  refine ⟨State.heldAs_holdPort hst (KeptBut.judged ..) fun q hq => State.port_judged_other s hq peer true, ?_, ?_⟩
  · rw [hpeer, State.port_judged]
  · exact houts.trans (s.outs_judged p peer true)

/-- A peer that passes the checks is told; its own verdict, where it has come, takes effect. -/
theorem State.hello_good_spec {p : Nat} {peer : BitVec 12} (h : s.awaits p) (hown : (s.port p).own = none)
    (hid : peer ≠ s.coreId) (hright : ¬s.wrongPeer p peer) :
    ((s.port p).heard = none → s.hello p peer = s.judged p peer false) ∧
    ((s.port p).heard = some true → s.heldAs p .peerHeld (s.hello p peer) ∧ (s.hello p peer).outs = (s.judged p peer false).outs) := by
  have hport := s.port_judged p peer false
  rw [State.hello_good h hown hid hright, State.weighVerdict_eq (by rw [hport]; exact h.2.1) (by rw [hport])]
  refine ⟨fun hheard => by rw [hport, hheard], fun hheard => ?_⟩
  rw [hport, hheard]
  obtain ⟨_, _, houts, _⟩ := State.holdPort_spec (s.judged p peer false) p (st := .peerHeld) rfl
  exact ⟨State.heldAs_holdPort rfl (KeptBut.judged ..) fun q hq => State.port_judged_other s hq peer false, houts⟩

/-- The port has heard the peer's verdict. -/
def State.hearing (s : State) (p : Nat) (v : Bool) : State := s.setPort p { s.port p with heard := some v }

theorem State.port_hearing (s : State) (p : Nat) (v : Bool) : (s.hearing p v).port p = { s.port p with heard := some v } :=
  State.setPort_self ..

theorem State.only_hearing (s : State) (p : Nat) (v : Bool) : Only [.fab] [] s (s.hearing p v) :=
  Only.ofKept (kept_setPort ..).but (by decide) (by decide)

/-- The peer's verdict before the own checks, or when they hold the port, is only noted. -/
theorem State.verdict_early {p : Nat} {v : Bool} (h : s.awaits p) (hheard : (s.port p).heard = none)
    (hown : (s.port p).own ≠ some false) : s.verdict p v = s.hearing p v := by
  rw [State.verdict_eq h hheard]
  exact if_pos (.inr (by rw [State.setPort_self]; exact hown))

theorem State.verdict_late {p : Nat} {v : Bool} (h : s.awaits p) (hheard : (s.port p).heard = none)
    (hown : (s.port p).own = some false) :
    s.verdict p v = if v then (s.hearing p v).holdPort p .peerHeld else (s.hearing p v).tryUp p := by
  have hport := s.port_hearing p v
  rw [State.verdict_eq h hheard]
  refine (State.weighVerdict_eq (s := s.hearing p v) (by rw [hport]; exact h.2.1) (by rw [hport]; exact hown)).trans ?_
  rw [hport]
  cases v <;> rfl

theorem State.hearing_ends {p : Nat} {v : Bool} (h : t = s.hearing p v) :
    t.port p = { s.port p with heard := some v } ∧ Only [.fab] [] s t := by
  subst h
  exact ⟨s.port_hearing p v, s.only_hearing p v⟩

theorem peerChecks_claim : Sys2Proof.Claims.PeerChecks := by
  intro s p peer v
  dsimp only
  refine ⟨fun h => Ends.of rfl (State.hello_not h) rfl, fun h hown hid => ?_, fun h hown hid hwrong => ?_,
    fun h hown hid hright => ⟨fun hheard => ?_, fun hheard => ?_⟩, fun h => Ends.of rfl (State.verdict_not h) rfl,
    fun h hheard => ⟨fun hown => ?_, fun hown hv => ?_, fun hown hv htrained => ?_, fun hown hv htrained => ?_⟩⟩
  · exact Ends.of rfl rfl (State.hello_bad_spec h hown (.inl ⟨hid, rfl⟩))
  · exact Ends.of rfl rfl (State.hello_bad_spec h hown (.inr ⟨hid, hwrong, rfl⟩))
  · refine Ends.of rfl ((State.hello_good_spec h hown hid hright).1 hheard)
      ⟨State.port_judged .., State.outs_judged .., KeptBut.judged ..⟩
  · obtain ⟨hheld, houts⟩ := (State.hello_good_spec h hown hid hright).2 hheard
    exact Ends.of rfl rfl ⟨hheld, houts.trans (State.outs_judged ..)⟩
  · refine Ends.of rfl (State.verdict_early h hheard ?_) (State.hearing_ends rfl)
    rcases hown with hown | hown <;> rw [hown] <;> decide
  · subst hv
    refine Ends.of rfl (State.verdict_late h hheard hown) ?_
    exact State.heldAs_holdPort rfl ((kept_setPort ..).but.mono (by decide))
      fun q hq => State.setPort_other s hq _
  · subst hv
    refine Ends.of rfl (State.verdict_late h hheard hown) ?_
    have hport := s.port_hearing p false
    obtain ⟨hstate, _, _, hready⟩ := (State.tryUp_spec (s := s.hearing p false) (p := p) (by rw [hport]; exact h.2.1)
      (by rw [hport]; exact hown) (by rw [hport]) htrained).of_fab ((kept_setPort ..).but.mono (by decide))
      fun q hq => State.setPort_other s hq _
    exact ⟨hstate, hready⟩
  · subst hv
    obtain ⟨c, hc, hidle⟩ : ∃ c, c < 4 ∧ (s.chan p c).state = .idle := by
      simpa only [not_forall, not_not, exists_prop] using htrained
    refine Ends.of rfl ((State.verdict_late h hheard hown).trans ?_) (State.hearing_ends rfl)
    exact State.tryUp_idle (s := s.hearing p false) hc hidle

end Sys2Proof.Machine
end

section
/-! SUPPORT. Fields of a flit: what a replaced field, a CRC and the building of a flit leave and set (R421). -/

namespace Sys2Proof.Machine

/-! A replaced field. -/

theorem Flit.getLsbD_setF (f : Flit) (lo w v : Nat) {i : Nat} (h : i < 512) :
    (f.setF lo w v).getLsbD i = if lo ≤ i ∧ i < lo + w then v.testBit (i - lo) else f.getLsbD i := by
  unfold Flit.setF
  simp only [BitVec.getLsbD_or, BitVec.getLsbD_and, BitVec.getLsbD_not, BitVec.getLsbD_ofNat, Nat.testBit_shiftLeft,
    Nat.testBit_two_pow_sub_one, Nat.testBit_mod_two_pow, h, decide_true, Bool.true_and]
  by_cases hlo : lo ≤ i
  · by_cases hw : i - lo < w
    · rw [if_pos (by omega)]
      simp [hlo, hw]
    · rw [if_neg (by omega)]
      simp [hlo, hw]
  · rw [if_neg (by omega)]
    simp [hlo]

theorem fieldN_testBit {n : Nat} (x : BitVec n) (lo w i : Nat) : (fieldN x lo w).testBit i = (decide (i < w) && x.getLsbD (lo + i)) := by
  unfold fieldN
  rw [Nat.testBit_mod_two_pow, Nat.testBit_shiftRight]
  rfl

theorem Flit.fieldN_setF (f : Flit) (lo w v : Nat) (h : lo + w ≤ 512) : fieldN (f.setF lo w v) lo w = v % 2 ^ w := by
  refine Nat.eq_of_testBit_eq fun i => ?_
  rw [fieldN_testBit, Nat.testBit_mod_two_pow]
  by_cases hi : i < w
  · rw [Flit.getLsbD_setF _ _ _ _ (by omega), if_pos ⟨by omega, by omega⟩, Nat.add_sub_cancel_left]
  · simp [hi]

theorem Flit.fieldN_setF_ne (f : Flit) {lo w lo' w' : Nat} (v : Nat) (h : lo' + w' ≤ 512) (hne : lo' + w' ≤ lo ∨ lo + w ≤ lo') :
    fieldN (f.setF lo w v) lo' w' = fieldN f lo' w' := by
  refine Nat.eq_of_testBit_eq fun i => ?_
  rw [fieldN_testBit, fieldN_testBit]
  by_cases hi : i < w'
  · rw [Flit.getLsbD_setF _ _ _ _ (by omega), if_neg (by omega)]
  · simp [hi]

theorem toNat_field {n : Nat} (x : BitVec n) (lo w : Nat) : (field x lo w).toNat = fieldN x lo w := by
  unfold field fieldN
  rw [BitVec.toNat_setWidth, BitVec.toNat_ushiftRight]

theorem field_congr {m n : Nat} {x : BitVec m} {y : BitVec n} {lo lo' w : Nat} (h : fieldN x lo w = fieldN y lo' w) :
    field x lo w = field y lo' w :=
  BitVec.eq_of_toNat_eq (by rw [toNat_field, toNat_field, h])

theorem fieldN_congr_bits {n : Nat} {x y : BitVec n} {lo w : Nat} (h : ∀ i, lo ≤ i → i < lo + w → x.getLsbD i = y.getLsbD i) :
    fieldN x lo w = fieldN y lo w := by
  refine Nat.eq_of_testBit_eq fun i => ?_
  rw [fieldN_testBit, fieldN_testBit]
  by_cases hi : i < w
  · rw [h _ (by omega) (by omega)]
  · simp [hi]

/-! The CRC. -/

/-- The CRC covers bytes 0 to 59. -/
theorem Flit.crcOf_congr {f g : Flit} (h : ∀ i, i < 480 → f.getLsbD i = g.getLsbD i) : f.crcOf = g.crcOf := by
  unfold Flit.crcOf bytesOf
  refine congrArg _ (List.map_congr_left fun k hk => BitVec.eq_of_getLsbD_eq fun i hi => ?_)
  have hk' := List.mem_range.1 hk
  rw [BitVec.getLsbD_ofNat, BitVec.getLsbD_ofNat, Nat.testBit_shiftRight, Nat.testBit_shiftRight]
  exact congrArg _ (h (8 * k + i) (by omega))

theorem Flit.getLsbD_seal (f : Flit) {i : Nat} (h : i < 480) : f.seal.getLsbD i = f.getLsbD i := by
  unfold Flit.seal
  rw [Flit.getLsbD_setF _ _ _ _ (by omega), if_neg (by omega)]

theorem Flit.crcOk_seal (f : Flit) : f.seal.crcOk = true := by
  unfold Flit.crcOk
  rw [decide_eq_true_eq, Flit.crcOf_congr fun i hi => f.getLsbD_seal hi]
  unfold Flit.seal
  rw [Flit.fieldN_setF _ _ _ _ (by decide)]
  exact (Nat.mod_eq_of_lt f.crcOf.isLt).symm

theorem Flit.fieldN_seal (f : Flit) {lo w : Nat} (h : lo + w ≤ 480) : fieldN f.seal lo w = fieldN f lo w :=
  fieldN_congr_bits fun _ _ _ => f.getLsbD_seal (by omega)

theorem Flit.field_seal (f : Flit) {lo w : Nat} (h : lo + w ≤ 480) : field f.seal lo w = field f lo w := field_congr (f.fieldN_seal h)

/-! A flit built from its fields. -/

theorem numOf_append (a b : List Byte) : numOf (a ++ b) = numOf a + 256 ^ a.length * numOf b := by
  induction a with
  | nil => simp [numOf]
  | cons x a ih =>
    have hcons (l : List Byte) : numOf (x :: l) = x.toNat + 256 * numOf l := rfl
    rw [List.cons_append, hcons, hcons, ih, List.length_cons, Nat.pow_succ]
    ring

theorem fieldN_ofNat {n lo w : Nat} (x : Nat) (h : lo + w ≤ n) : fieldN (BitVec.ofNat n x) lo w = x / 2 ^ lo % 2 ^ w := by
  refine Nat.eq_of_testBit_eq fun i => ?_
  rw [fieldN_testBit, Nat.testBit_mod_two_pow, Nat.testBit_div_two_pow, BitVec.getLsbD_ofNat, Nat.add_comm i lo]
  by_cases hi : i < w
  · simp [hi, show lo + i < n by omega]
  · simp [hi]

/-- The header of a flit of one packet for core 0, class 0. -/
def linkHeader (opc : Nat) (src : BitVec 12) (n : Nat) : Nat :=
  opc + 0 * 2 ^ 4 + 0 * 2 ^ 8 + src.toNat * 2 ^ 20 + 2 ^ 42 + 2 ^ 43 + n * 2 ^ 44

theorem mkFlit_link (opc : Nat) (src : BitVec 12) (bytes : List Byte) : mkFlit opc 0 0 src true true bytes =
    BitVec.ofNat 512 (linkHeader opc src bytes.length + numOf bytes * 2 ^ 64) := rfl

theorem opc_link (src : BitVec 12) (bytes : List Byte) : (mkFlit 15 0 0 src true true bytes).seal.opc = 15 := by
  unfold Flit.opc
  rw [Flit.fieldN_seal _ (by decide), mkFlit_link, fieldN_ofNat _ (by decide)]
  unfold linkHeader
  omega

/-- The bytes of a LINK flit stand behind its header. -/
theorem fieldN_link (src : BitVec 12) {bytes : List Byte} (hlen : bytes.length < 64) {lo w : Nat} (h : lo + w ≤ 416) :
    fieldN (mkFlit 15 0 0 src true true bytes).seal (64 + lo) w = numOf bytes / 2 ^ lo % 2 ^ w := by
  have hheader : linkHeader 15 src bytes.length < 2 ^ 64 := by
    have := src.isLt
    unfold linkHeader
    omega
  rw [Flit.fieldN_seal _ (by omega), mkFlit_link, fieldN_ofNat _ (by omega), Nat.pow_add, ← Nat.div_div_eq_div_mul,
    Nat.add_mul_div_right _ _ (by decide), Nat.div_eq_of_lt hheader, Nat.zero_add]

end Sys2Proof.Machine
end

section
/-! SUPPORT. Training of a channel in bring-up (R432, R443, R444). -/

namespace Sys2Proof.Machine

variable {s t u : State}

/-! The channels of one port. -/

theorem State.chan_congr (h : t.fab = s.fab) (p c : Nat) : t.chan p c = s.chan p c := by
  unfold State.chan; rw [h]

theorem State.chan_trainReq_self (s : State) (p c : Nat) (v : Bool) : (s.trainReq p c v).chan p c = { s.chan p c with req := v } := by
  rw [State.chan_trainReq, if_pos rfl]

theorem State.chan_setChan_self (s : State) (p c : Nat) (v : ChanSt) : (s.setChan p c v).chan p c = v := by
  rw [State.chan_setChan, if_pos rfl]

theorem State.trainReq_outs (s : State) (p c : Nat) (v : Bool) :
    (s.trainReq p c v).outs = if (s.chan p c).req = v then s.outs else s.outs ++ [.trainReq p c v] := by
  unfold State.trainReq
  split <;> rfl

theorem all_four {f : Nat → Bool} : [0, 1, 2, 3].all f = true ↔ ∀ k, k < 4 → f k = true := by
  rw [List.all_eq_true]
  refine forall_congr' fun k => imp_congr_left ?_
  simp only [List.mem_cons, List.not_mem_nil, or_false]
  omega

/-! The PHY is ready (R444 steps 1 and 2). -/

theorem State.phyReady_asks {p c : Nat} (hthere : p < s.build.ports)
    (hstate : (s.port p).state = .training ∨ (s.port p).state = .down) (hidle : (s.chan p c).state = .idle) :
    s.phyReady p c = (s.setChan p c { s.chan p c with ready := true }).trainReq p c true := by
  unfold State.phyReady
  rw [if_neg (Nat.not_le.2 hthere)]
  exact if_pos ⟨hstate, by rw [State.chan_setChan_self]; exact hidle⟩

theorem State.phyReady_notes {p c : Nat} (hthere : p < s.build.ports)
    (h : ((s.port p).state ≠ .training ∧ (s.port p).state ≠ .down) ∨ (s.chan p c).state ≠ .idle) :
    s.phyReady p c = s.setChan p c { s.chan p c with ready := true } := by
  unfold State.phyReady
  rw [if_neg (Nat.not_le.2 hthere)]
  refine if_neg ?_
  rw [State.chan_setChan_self]
  rintro ⟨hstate, hidle⟩
  rcases h with ⟨htraining, hdown⟩ | hother
  · exact hstate.elim htraining hdown
  · exact hother hidle

/-! A channel that has trained in bring-up. -/

/-- The channel's request falls, and it is live with LSEQ from 0. -/
def State.trained (s : State) (p c : Nat) : State :=
  ((s.trainReq p c false).setPort p { s.port p with state := .training }).setChan p c
    { ChanSt.init with ready := (s.chan p c).ready }

theorem State.port_trained (s : State) (p c : Nat) : (s.trained p c).port p = { s.port p with state := .training } :=
  (State.port_congr (s := (s.trainReq p c false).setPort p { s.port p with state := .training }) rfl p).trans (State.setPort_self ..)

theorem State.outs_trained {p c : Nat} (h : (s.chan p c).req = true) :
    (s.trained p c).outs = s.outs ++ [.trainReq p c false] := by
  refine (s.trainReq_outs p c false).trans (if_neg ?_)
  rw [h]
  decide

theorem KeptBut.trained (s : State) (p c : Nat) : KeptBut [.fab, .outs] s (s.trained p c) :=
  (kept_setChan ..).but.step (by decide) ((kept_setPort ..).but.step (by decide) (kept_trainReq ..).but)

/-- The bytes of HELLO (R443). -/
def State.helloBytes (s : State) (p : Nat) : List Byte :=
  [3#8, 0#8] ++ bytesOf 2 s.coreId.toNat ++ [BitVec.ofNat 8 p, BitVec.ofNat 8 (fieldN (s.ctlWord R.ctlIdent) 0 8)]

/-- HELLO on a channel, and behind it the verdict that the port has given already. -/
def State.greet (s : State) (p c : Nat) (own : Option Bool) : State :=
  let s := s.sendLink p c (s.helloBytes p)
  match own with
  | some v => s.sendLink p c [5#8, if v then 1#8 else 0#8]
  | none => s

/-- With a live channel and without an own verdict a port stays in training. -/
theorem State.trainOutcome_stays {p c : Nat} (hc : c < 4) (hlive : (s.chan p c).state = .live) (hown : (s.port p).own = none) :
    s.trainOutcome p = s := by
  unfold State.trainOutcome
  split
  · rfl
  · rw [if_neg]
    · unfold State.tryUp
      refine if_neg ?_
      rintro ⟨_, h, _⟩
      rw [hown] at h
      exact nomatch h
    · rw [all_four]
      intro hall
      have := hall c hc
      rw [hlive] at this
      exact nomatch this

theorem State.trainDone_bringUp {p c : Nat} (hthere : p < s.build.ports) (hreq : (s.chan p c).req = true)
    (hidle : (s.chan p c).state = .idle) (hstate : (s.port p).state = .training ∨ (s.port p).state = .down) :
    s.trainDone p c = ((s.trained p c).greet p c (s.port p).own).trainOutcome p := by
  have hret : ¬(s.chan p c).state = .retraining := by rw [hidle]; decide
  unfold State.trainDone
  dsimp only
  rw [if_neg (by rw [hreq]; simpa using hthere), if_neg hret, if_pos ⟨hidle, hstate⟩]
  rfl

theorem State.trainDone_idle {p c : Nat} (hc : c < 4) (hthere : p < s.build.ports) (hreq : (s.chan p c).req = true)
    (hidle : (s.chan p c).state = .idle) (hstate : (s.port p).state = .training ∨ (s.port p).state = .down)
    (hown : (s.port p).own = none) : s.trainDone p c = (s.trained p c).sendLink p c ((s.trained p c).helloBytes p) := by
  rw [State.trainDone_bringUp hthere hreq hidle hstate, hown]
  refine State.trainOutcome_stays (s := (s.trained p c).sendLink p c ((s.trained p c).helloBytes p)) hc ?_ ?_
  · exact congrArg (·.state) (State.chan_setChan_self ..)
  · exact (congrArg (·.own) (s.port_trained p c)).trans hown

/-! The HELLO flit. -/

theorem numOf_cons (b : Byte) (l : List Byte) : numOf (b :: l) = b.toNat + 256 * numOf l := rfl

theorem bytesOf_two (n : Nat) : bytesOf 2 n = [BitVec.ofNat 8 n, BitVec.ofNat 8 (n >>> 8)] := rfl

theorem numOf_hello (n p : Nat) (x : Nat) (hn : n < 2 ^ 16) (hp : p < 256) :
    numOf ([3#8, 0#8] ++ bytesOf 2 n ++ [BitVec.ofNat 8 p, BitVec.ofNat 8 x]) = 3 + n * 2 ^ 16 + p * 2 ^ 32 + x % 256 * 2 ^ 40 := by
  rw [bytesOf_two]
  simp only [List.cons_append, List.nil_append, numOf_cons, BitVec.toNat_ofNat, Nat.shiftRight_eq_div_pow]
  have hnil : numOf [] = 0 := rfl
  rw [hnil]
  omega

theorem State.helloBytes_spec (s : State) {p : Nat} (hp : p < 16) (w : Flit)
    (hw : w = (mkFlit 15 0 0 s.coreId true true (s.helloBytes p)).seal) : w.opc = 15 ∧ w.crcOk = true ∧
      fieldN w 64 8 = 3 ∧ field w 80 12 = s.coreId ∧ fieldN w 96 8 = p := by
  have hlen : (s.helloBytes p).length < 64 := by
    unfold State.helloBytes
    simp
  have hid : s.coreId.toNat < 2 ^ 12 := s.coreId.isLt
  have hnum : numOf (s.helloBytes p) = _ := numOf_hello s.coreId.toNat p _ (by omega) (by omega)
  subst hw
  refine ⟨opc_link .., Flit.crcOk_seal _, ?_, ?_, ?_⟩
  · rw [show 64 = 64 + 0 from rfl, fieldN_link _ hlen (by decide), hnum]
    omega
  · refine BitVec.eq_of_toNat_eq ?_
    rw [toNat_field, show 80 = 64 + 16 from rfl, fieldN_link _ hlen (by decide), hnum]
    omega
  · rw [show 96 = 64 + 32 from rfl, fieldN_link _ hlen (by decide), hnum]
    omega

theorem State.trainDone_idle_spec {p c : Nat} (hp : p < 16) (hreq : (s.chan p c).req = true)
    (heq : t = (s.trained p c).sendLink p c ((s.trained p c).helloBytes p)) :
    t.chan p c = { ChanSt.init with ready := (s.chan p c).ready } ∧ t.port p = { s.port p with state := .training } ∧
      (∃ w : Flit, t.outs = s.outs ++ [.trainReq p c false, .flit p c w] ∧ w.opc = 15 ∧ w.crcOk = true ∧
        fieldN w 64 8 = 3 ∧ field w 80 12 = s.coreId ∧ fieldN w 96 8 = p) ∧ KeptBut [.fab, .outs] s t := by
  subst heq
  have hid : (s.trained p c).coreId = s.coreId :=
    congrArg (fun x : Word => x.setWidth 12) ((KeptBut.trained s p c).reg (o := R.fabCoreId) (by decide))
  refine ⟨State.chan_setChan_self .., State.port_trained ..,
    ⟨(mkFlit 15 0 0 (s.trained p c).coreId true true ((s.trained p c).helloBytes p)).seal, ?_, ?_⟩,
    (kept_sendLink ..).but.step (by decide) (KeptBut.trained ..)⟩
  · rw [List.append_cons, ← State.outs_trained hreq]
    rfl
  · rw [← hid]
    exact State.helloBytes_spec _ hp _ rfl

/-! A training that fails or lapses. -/

/-- The channel of a retirement: its request falls, and it is left with the classes to hand over. -/
def ChanSt.retire (ch : ChanSt) (handing : List Nat) : ChanSt :=
  { ch with req := false, state := .retired, handing := handing, win := [] }

/-- The classes that a chanGone channel hands over. -/
def State.carried (s : State) (p c : Nat) : List Nat :=
  if (s.port p).state = .up then [0, 1, 2, 3].filter fun k => s.carrier p k == some c else []

/-- The channel has retired, without its record. -/
def State.chanGone (s : State) (p c : Nat) : State :=
  (s.trainReq p c false).setChan p c ((s.chan p c).retire (s.carried p c))

theorem State.ports_chanGone (s : State) (p c : Nat) : (s.chanGone p c).fab.ports = s.fab.ports := State.ports_trainReq ..

theorem State.chan_chanGone (s : State) (p c : Nat) : (s.chanGone p c).chan p c = (s.chan p c).retire (s.carried p c) :=
  State.chan_setChan_self ..

theorem State.chan_chanGone_other (s : State) {p c q d : Nat} (h : 4 * q + d ≠ 4 * p + c) :
    (s.chanGone p c).chan q d = s.chan q d := by
  unfold State.chanGone
  rw [State.chan_setChan, if_neg h, State.chan_trainReq, if_neg h]

theorem KeptBut.chanGone (s : State) (p c : Nat) : KeptBut [.fab, .outs] s (s.chanGone p c) :=
  (kept_setChan ..).but.step (by decide) (kept_trainReq ..).but

/-- A retirement leaves a record, unless a DOWN port retries (R433, R444). -/
theorem State.retireChan_eq (s : State) (p c : Nat) : s.retireChan p c =
    if (s.port p).retry then s.chanGone p c
    else (s.chanGone p c).logRecord (FaultRec.plain 2 unitFabric Code.fabChRetired.num (chanAddr p c) 4) := by
  rw [← State.port_congr (s.ports_chanGone p c) p]
  unfold State.retireChan
  dsimp only
  rw [State.chan_trainReq_self]
  unfold State.chanGone State.carried ChanSt.retire
  simp only [beq_iff_eq]

theorem State.fab_retireChan (s : State) (p c : Nat) : (s.retireChan p c).fab = (s.chanGone p c).fab := by
  rw [State.retireChan_eq]
  split
  · rfl
  · exact (kept_logRecord ..).but.same .fab (by decide)

theorem State.fltWr_retireChan {p : Nat} (h : (s.port p).retry = false) (c : Nat) :
    (s.retireChan p c).reg R.fltWr = s.reg R.fltWr + 1 := by
  rw [State.retireChan_eq, h, if_neg (by decide), State.fltWr_logRecord, (KeptBut.chanGone s p c).reg (by decide)]

/-! What follows an outcome of a training in bring-up. -/

theorem State.trainOutcome_down {p : Nat} (hstate : (s.port p).state = .training)
    (h : ∀ k, k < 4 → (s.chan p k).state = .retired) : s.trainOutcome p = (s.enterDown p).checkReady := by
  unfold State.trainOutcome
  rw [if_neg (by rw [hstate]; decide), if_pos (all_four.2 fun k hk => by rw [h k hk]; rfl)]

theorem State.trainOutcome_tries {p k : Nat} (hstate : (s.port p).state = .training) (hk : k < 4)
    (h : (s.chan p k).state ≠ .retired) : s.trainOutcome p = s.tryUp p := by
  unfold State.trainOutcome
  rw [if_neg (by rw [hstate]; decide), if_neg]
  rw [all_four]
  exact fun hall => h (beq_iff_eq.1 (hall k hk))

/-- A port that goes UP sends what waits on its channels and nothing else of them changes. -/
theorem State.chan_tryUp (s : State) (p q d : Nat) : (s.chan q d).alike ((s.tryUp p).chan q d) := by
  unfold State.tryUp
  extract_lets x
  split
  · rw [State.chan_congr ((kept_checkReady _).but.same .fab (by decide))]
    exact (State.links_pump (s.setPort p { x with state := .up, retry := false }) p).chans q d
  · exact ChanSt.alike.refl _

/-- A port with no channel left is DOWN and trains each anew. -/
theorem State.enterDown_spec (s : State) (p : Nat) :
    (s.enterDown p).port p = { s.port p with state := .down, own := none, heard := none, retry := true } ∧
    ∀ k, k < 4 → (s.enterDown p).chan p k = (s.chan p k).fresh := by
  unfold State.enterDown
  generalize hdown : s.setPort p { s.port p with state := .down, own := none, heard := none, retry := true } = t
  have hlinks := State.links_reroute (t.freshChans p) p
  have hport : (t.freshChans p).port p = { s.port p with state := .down, own := none, heard := none, retry := true } := by
    rw [State.port_congr (t.ports_freshChans p), ← hdown, State.setPort_self]
  refine ⟨(hlinks.port p).trans hport, fun k hk => ?_⟩
  rw [hlinks.still p k hk ?_, State.chan_freshChans, if_pos (by omega), ← hdown]
  · rfl
  · unfold State.portUp
    rw [hport, Bool.and_eq_false_iff]
    exact .inr rfl

/-! A training that fails or lapses (R432, R444). -/

theorem State.trainFails_training {p c : Nat} (hthere : p < s.build.ports) (hidle : (s.chan p c).state = .idle)
    (hstate : (s.port p).state = .training) : s.trainFails p c = (s.retireChan p c).trainOutcome p := by
  unfold State.trainFails
  dsimp only
  rw [if_neg (Nat.not_le.2 hthere), if_neg (by rw [hidle]; decide), if_neg (by rw [hidle]; decide),
    if_neg (by rw [hstate]; decide), if_pos hstate]

theorem State.trainFails_down {p c : Nat} (hthere : p < s.build.ports) (hidle : (s.chan p c).state = .idle)
    (hstate : (s.port p).state = .down) : s.trainFails p c = s.trainReq p c false := by
  unfold State.trainFails
  dsimp only
  rw [if_neg (Nat.not_le.2 hthere), if_neg (by rw [hidle]; decide), if_neg (by rw [hidle]; decide), if_pos hstate]

/-- A failure of a training, and its lapse, which also ends the wait. -/
theorem State.trainFails_cmd {p : Fin 16} {c : Fin 4} {cmd : Instr}
    (h : (cmd = .trainTimeout p c ∧ (s.reg R.fabTrainTicks).toNat ≤ s.age (.train p.val c.val)) ∨
      (cmd = .fabTrainFail p c ∧ (s.chan p.val c.val).req = true)) :
    ∃ t, KeptBut [.timers] s t ∧ exec cmd s = (t.trainFails p.val c.val).done := by
  rcases h with ⟨rfl, hage⟩ | ⟨rfl, hreq⟩
  · exact ⟨s.restart (.train p.val c.val), (kept_restart ..).but, congrArg State.done (if_pos hage)⟩
  · exact ⟨s, KeptBut.refl .., congrArg State.done (if_pos hreq)⟩

theorem State.retired_one {p c k : Nat} (hthere : p < s.build.ports) (hidle : (s.chan p c).state = .idle)
    (hstate : (s.port p).state = .training) (hretry : (s.port p).retry = false) (hk : k < 4) (hkc : k ≠ c)
    (hother : (s.chan p k).state ≠ .retired) :
    ((s.trainFails p c).chan p c).state = .retired ∧ ((s.trainFails p c).chan p c).req = false ∧
      (s.trainFails p c).reg R.fltWr = s.reg R.fltWr + 1 := by
  have hports := (congrArg (·.ports) (s.fab_retireChan p c)).trans (s.ports_chanGone p c)
  have hchan := (State.chan_congr (s.fab_retireChan p c) p c).trans (s.chan_chanGone p c)
  have hother' : ((s.retireChan p c).chan p k).state ≠ .retired := by
    rw [State.chan_congr (s.fab_retireChan p c), State.chan_chanGone_other _ (by omega)]
    exact hother
  rw [State.trainFails_training hthere hidle hstate,
    State.trainOutcome_tries (by rw [State.port_congr hports]; exact hstate) hk hother']
  have halike := State.chan_tryUp (s.retireChan p c) p p c
  refine ⟨?_, ?_, ?_⟩
  · rw [halike.state, hchan]
    rfl
  · rw [halike.req, hchan]
    rfl
  · rw [(kept_tryUp ..).but.reg (by decide), State.fltWr_retireChan hretry]

theorem State.retired_last {p c : Nat} (hc : c < 4) (hthere : p < s.build.ports) (hidle : (s.chan p c).state = .idle)
    (hstate : (s.port p).state = .training) (hothers : ∀ k, k < 4 → k ≠ c → (s.chan p k).state = .retired) :
    ((s.trainFails p c).port p).state = .down ∧ ((s.trainFails p c).port p).retry = true ∧
      ∀ k, k < 4 → ((s.trainFails p c).chan p k).state = .idle ∧ ((s.trainFails p c).chan p k).ready = (s.chan p k).ready := by
  have hports := (congrArg (·.ports) (s.fab_retireChan p c)).trans (s.ports_chanGone p c)
  have hchan (k : Nat) (hk : k < 4) : ((s.retireChan p c).chan p k).state = .retired ∧
      ((s.retireChan p c).chan p k).ready = (s.chan p k).ready := by
    rw [State.chan_congr (s.fab_retireChan p c)]
    by_cases hkc : k = c
    · subst hkc
      rw [State.chan_chanGone]
      exact ⟨rfl, rfl⟩
    · rw [State.chan_chanGone_other _ (by omega)]
      exact ⟨hothers k hk hkc, rfl⟩
  rw [State.trainFails_training hthere hidle hstate,
    State.trainOutcome_down (by rw [State.port_congr hports]; exact hstate) fun k hk => (hchan k hk).1]
  have hfab := (kept_checkReady ((s.retireChan p c).enterDown p)).but.same .fab (by decide)
  obtain ⟨hport, hfresh⟩ := (s.retireChan p c).enterDown_spec p
  rw [State.port_congr (congrArg (·.ports) hfab), hport]
  refine ⟨rfl, rfl, fun k hk => ?_⟩
  rw [State.chan_congr hfab, hfresh k hk]
  exact ⟨rfl, (hchan k hk).2⟩

/-! A DOWN port tries again (R444). -/

/-- A channel of a DOWN port asks for training where its PHY is ready. -/
def State.retryChan (s : State) (p c : Nat) : State := if (s.chan p c).ready then s.trainReq p c true else s

theorem State.chan_retryChan (s : State) (p c q d : Nat) : (s.retryChan p c).chan q d =
    if 4 * q + d = 4 * p + c then { s.chan p c with req := (s.chan p c).req || (s.chan p c).ready } else s.chan q d := by
  unfold State.retryChan
  split
  · next h => rw [State.chan_trainReq, h, Bool.or_true]
  · next h =>
    rw [Bool.eq_false_of_not_eq_true h, Bool.or_false]
    split
    · next he =>
      have hsame : s.chan q d = s.chan p c := by unfold State.chan; rw [he]
      rw [hsame]
    · rfl

theorem State.downRetry_spec {p : Nat} (hthere : p < s.build.ports) (hstate : (s.port p).state = .down) :
    (∀ k, k < 4 → (s.downRetry p).chan p k = { s.chan p k with req := (s.chan p k).req || (s.chan p k).ready }) ∧
    (s.downRetry p).fab.ports = s.fab.ports ∧ KeptBut [.fab, .outs] s (s.downRetry p) := by
  have heq : s.downRetry p = iter 4 (fun c s => s.retryChan p c) s := by
    refine if_neg ?_
    rintro (h | h)
    · exact absurd hthere (Nat.not_lt.2 h)
    · exact h hstate
  refine ⟨fun k hk => ?_, ?_, (kept_downRetry ..).but⟩
  · rw [heq, State.chan_iter4 (g := fun ch => { ch with req := ch.req || ch.ready }) fun c s q d => s.chan_retryChan p c q d,
      if_pos (by omega)]
  · rw [heq]
    refine State.ports_iter (fun c s => ?_) 4 s
    unfold State.retryChan
    split
    · exact State.ports_trainReq ..
    · rfl

theorem training_claim : Sys2Proof.Claims.Training := by
  intro s p c cmd
  dsimp only
  refine ⟨fun hthere hstate hidle => ?_, fun hthere h => ?_, fun h => ?_, fun hthere hreq hidle hstate hown => ?_,
    fun hcmd hthere hidle => ?_, fun hthere hstate => Ends.of rfl rfl (State.downRetry_spec hthere hstate), fun h => ?_⟩
  · refine Ends.of rfl (State.phyReady_asks hthere hstate hidle) ⟨?_, ?_,
      (kept_trainReq ..).but.step (by decide) ((kept_setChan ..).but.mono (by decide))⟩
    · rw [State.chan_trainReq_self, State.chan_setChan_self]
    · rw [State.trainReq_outs, State.chan_setChan_self]
      rfl
  · exact Ends.of rfl (State.phyReady_notes hthere h)
      ⟨State.chan_setChan_self .., Only.ofKept (kept_setChan ..).but (by decide) (by decide)⟩
  · refine Ends.of rfl (if_pos ?_) rfl
    exact h.imp id Nat.not_lt.1
  · exact Ends.of rfl (State.trainDone_idle c.isLt hthere hreq hidle hstate hown) (State.trainDone_idle_spec p.isLt hreq rfl)
  · obtain ⟨t, hkept, hexec⟩ := State.trainFails_cmd hcmd
    have hfab := hkept.same .fab (by decide)
    have hchan (k : Nat) : t.chan p.val k = s.chan p.val k := State.chan_congr hfab ..
    have hport := State.port_congr (congrArg (·.ports) hfab) p.val
    have hthere' : p.val < t.build.ports := (congrArg (·.ports) (hkept.same .build (by decide))).symm ▸ hthere
    have hidle' : (t.chan p.val c.val).state = .idle := by rw [hchan]; exact hidle
    refine ⟨fun hstate hretry hothers => Ends.of hexec rfl ?_, fun hstate hothers => Ends.of hexec rfl ?_,
      fun hstate => Ends.of hexec (State.trainFails_down hthere' hidle' (by rw [hport]; exact hstate)) ⟨?_, ?_, ?_⟩⟩
    · obtain ⟨k, hk, hkc, hother⟩ : ∃ k, k < 4 ∧ k ≠ c.val ∧ (s.chan p.val k).state ≠ .retired := by
        simpa only [not_forall, exists_prop] using hothers
      have hspec := State.retired_one hthere' hidle' (by rw [hport]; exact hstate) (by rw [hport]; exact hretry) hk hkc
        (by rw [hchan]; exact hother)
      rwa [hkept.reg (o := R.fltWr) (by decide)] at hspec
    · have hspec := State.retired_last c.isLt hthere' hidle' (by rw [hport]; exact hstate)
        fun k hk hkc => by rw [hchan]; exact hothers k hk hkc
      simpa only [hchan] using hspec
    · rw [State.chan_trainReq_self, hchan]
    · rw [State.port_congr (State.ports_trainReq ..), hport]
    · exact (kept_trainReq ..).but.step (by decide) (hkept.mono (by decide))
  · refine Ends.of rfl (if_pos ?_) rfl
    exact h.imp Nat.not_lt.1 id

end Sys2Proof.Machine
end

section
/-! SUPPORT. Go-back on a channel (R429 to R432), and a channel that has retrained. -/

namespace Sys2Proof.Machine

variable {s t u : State}

/-! What has nothing to do. -/

theorem State.pumpClass_of_empty {p k : Nat} (h : s.waiting p k = []) : s.pumpClass p k = s := by
  unfold State.pumpClass
  rw [h]
  rfl

/-- Nothing waits for the port. -/
def State.noneWaits (s : State) (p : Nat) : Prop := ∀ k, k < 4 → s.waiting p k = []

theorem iter_four {σ : Type} (f : Nat → σ → σ) (s : σ) : iter 4 f s = f 3 (f 2 (f 1 (f 0 s))) := rfl

theorem State.pump_of_empty {p : Nat} (h : s.noneWaits p) : s.pump p = s := by
  unfold State.pump
  rw [iter_four, State.pumpClass_of_empty (h 0 (by decide)), State.pumpClass_of_empty (h 1 (by decide)),
    State.pumpClass_of_empty (h 2 (by decide)), State.pumpClass_of_empty (h 3 (by decide))]

theorem State.noneWaits_congr {p : Nat} (h : t.fab.waitq = s.fab.waitq) (hw : s.noneWaits p) : t.noneWaits p := by
  intro k hk
  have := hw k hk
  unfold State.waiting at *
  rw [h, this]

/-- No channel of a port has a handover open. -/
theorem State.askHandovers_of_none {p : Nat} (h : ∀ k, k < 4 → (s.chan p k).handing = []) : s.askHandovers p = s := by
  unfold State.askHandovers
  rw [iter_four, if_pos (h 0 (by decide)), if_pos (h 1 (by decide)), if_pos (h 2 (by decide)), if_pos (h 3 (by decide))]

/-! Go-back (R430). -/

/-- The ticks of the replays that R433 still counts. -/
def State.recent (s : State) (ch : ChanSt) : List (BitVec 64) := ch.win.filter fun t => decide ((s.tick - t).toNat ≤ 2 ^ 20)

/-- A channel that sends the flits above `last` again. -/
def State.backTo (s : State) (ch : ChanSt) (last : BitVec 10) : ChanSt :=
  { ch with replay := flitsAbove last ch.replay, win := s.recent ch ++ [s.tick] }

/-- The replay counts. -/
def State.rewound (s : State) (p c : Nat) (last : BitVec 10) : State :=
  (s.setChan p c (s.backTo (s.chan p c) last)).count (R.fabChReplay p c) 1

theorem State.chan_rewound (s : State) (p c : Nat) (last : BitVec 10) (q d : Nat) :
    (s.rewound p c last).chan q d = if 4 * q + d = 4 * p + c then s.backTo (s.chan p c) last else s.chan q d :=
  State.chan_setChan ..

theorem State.only_rewound (s : State) (p c : Nat) (last : BitVec 10) :
    Only [.fab] [R.fabChReplay p c] s (s.rewound p c last) :=
  (Only.ofKept (kept_setChan ..).but (by decide) (by decide)).count (List.mem_singleton.2 rfl)

theorem State.reg_rewound (s : State) (p c : Nat) (last : BitVec 10) :
    (s.rewound p c last).reg (R.fabChReplay p c) = satAdd (s.reg (R.fabChReplay p c)) 1 :=
  State.reg_count_self (s.setChan p c (s.backTo (s.chan p c) last)) (R.fabChReplay p c) 1

/-- Messages that a state has sent besides. -/
def State.sends (s : State) (l : List Output) : State := { s with outs := s.outs ++ l }

theorem KeptBut.sends (s : State) (l : List Output) : KeptBut [.outs] s (s.sends l) := KeptBut.upd (KeptBut.refl _ s)

theorem State.sends_emit (s : State) (o : Output) (l : List Output) : (s.emit o).sends l = s.sends (o :: l) :=
  congrArg (fun x => { s with outs := x }) (List.append_assoc s.outs [o] l)

theorem State.foldl_emit (s : State) {α : Type} (f : α → Output) (l : List α) :
    l.foldl (fun s a => s.emit (f a)) s = s.sends (l.map f) := by
  induction l generalizing s with
  | nil => simp [State.sends]
  | cons a l ih =>
    rw [List.foldl_cons, ih, State.sends_emit]
    rfl

theorem State.goBackChan_sends {p c : Nat} {last : BitVec 10} (h : (s.recent (s.chan p c)).length < 15) :
    s.goBackChan p c last = (s.rewound p c last).sends ((flitsAbove last (s.chan p c).replay).map fun f => .flit p c f) := by
  unfold State.goBackChan
  extract_lets ch rest win t
  rw [if_neg]
  · exact State.foldl_emit t (fun f => .flit p c f) rest
  · rw [show win = s.recent (s.chan p c) ++ [s.tick] from rfl, List.length_append, List.length_singleton]
    omega

theorem State.goBackChan_retires {p c : Nat} {last : BitVec 10} (h : 15 ≤ (s.recent (s.chan p c)).length) :
    s.goBackChan p c last = ((s.rewound p c last).retireChan p c).afterRetire p c false := by
  unfold State.goBackChan
  extract_lets ch rest win t
  refine if_pos ?_
  rw [show win = s.recent (s.chan p c) ++ [s.tick] from rfl, List.length_append, List.length_singleton]
  omega

theorem State.goBackChan_spec {p c : Nat} {last : BitVec 10} (h : (s.recent (s.chan p c)).length < 15) :
    (∀ q d, (s.goBackChan p c last).chan q d = if 4 * q + d = 4 * p + c then s.backTo (s.chan p c) last else s.chan q d) ∧
    (s.goBackChan p c last).outs = s.outs ++ (flitsAbove last (s.chan p c).replay).map (fun f => .flit p c f) ∧
    (s.goBackChan p c last).reg (R.fabChReplay p c) = satAdd (s.reg (R.fabChReplay p c)) 1 ∧
    (s.goBackChan p c last).fab.waitq = s.fab.waitq ∧ Only [.fab, .outs] [R.fabChReplay p c] s (s.goBackChan p c last) := by
  rw [State.goBackChan_sends h]
  exact ⟨fun q d => s.chan_rewound p c last q d, rfl, s.reg_rewound p c last, rfl,
    ((s.only_rewound p c last).mono (by decide) fun _ h => h).kept (KeptBut.sends ..) (by decide) (by decide)⟩

/-! A channel that has retrained (R430, R432). -/

/-- The channel is live again, its request fallen. -/
def State.relive (s : State) (p c : Nat) : State :=
  (s.trainReq p c false).setChan p c { s.chan p c with state := .live, req := false }

theorem State.trainDone_retraining {p c : Nat} (hthere : p < s.build.ports) (hreq : (s.chan p c).req = true)
    (hstate : (s.chan p c).state = .retraining) : s.trainDone p c =
    ((((s.relive p c).sendAck p c []).goBackChan p c (beforeOldest ((s.chan p c).tx - 1) (s.chan p c).replay)).askHandovers p).pump p := by
  unfold State.trainDone
  dsimp only
  rw [if_neg (by rw [hreq]; simpa using hthere), if_pos hstate, State.chan_trainReq_self]
  rfl

/-- A replay buffer whose LSEQs run on from its oldest flit goes back as a whole. -/
theorem flitsAbove_all {d : BitVec 10} {l : List Flit} (h : ∀ f rest, l = f :: rest → ∀ g ∈ rest,
    1 ≤ (g.lseq - f.lseq).toNat ∧ (g.lseq - f.lseq).toNat < 256) : flitsAbove (beforeOldest d l) l = l := by
  unfold flitsAbove
  rw [List.filter_eq_self]
  match l, h with
  | [], _ => exact fun _ hg => nomatch hg
  | f :: rest, h =>
    intro g hg
    rw [decide_eq_true_eq]
    unfold beforeOldest
    rcases List.mem_cons.1 hg with rfl | hg
    · bv_omega
    · have := h f rest rfl g hg
      bv_omega

/-- The bytes of an ACK (R429). -/
def State.ackBytes (s : State) (p c : Nat) (credits : List Nat) : List Byte :=
  [1#8, 0#8] ++ bytesOf 2 (s.chan p c).rx.toNat ++ (List.range 6).map fun i => BitVec.ofNat 8 (listGet 0 credits i)

theorem State.ackBytes_spec (s : State) (p c : Nat) (credits : List Nat) (w : Flit)
    (hw : w = (mkFlit 15 0 0 s.coreId true true (s.ackBytes p c credits)).seal) : w.opc = 15 ∧ w.crcOk = true ∧
      fieldN w 64 8 = 1 ∧ field w 80 10 = (s.chan p c).rx := by
  have hlen : (s.ackBytes p c credits).length < 64 := by
    unfold State.ackBytes
    simp
  have hrx : (s.chan p c).rx.toNat < 2 ^ 10 := (s.chan p c).rx.isLt
  obtain ⟨tail, hnum⟩ : ∃ tail, numOf (s.ackBytes p c credits) = 1 + (s.chan p c).rx.toNat * 2 ^ 16 + tail * 2 ^ 32 := by
    refine ⟨numOf ((List.range 6).map fun i => BitVec.ofNat 8 (listGet 0 credits i)), ?_⟩
    unfold State.ackBytes
    rw [numOf_append, bytesOf_two]
    simp only [List.cons_append, List.nil_append, numOf_cons, BitVec.toNat_ofNat, Nat.shiftRight_eq_div_pow, List.length_cons,
      List.length_nil]
    have hnil : numOf [] = 0 := rfl
    rw [hnil]
    omega
  subst hw
  refine ⟨opc_link .., Flit.crcOk_seal _, ?_, BitVec.eq_of_toNat_eq ?_⟩
  · rw [show 64 = 64 + 0 from rfl, fieldN_link _ hlen (by decide), hnum]
    omega
  · rw [toNat_field, show 80 = 64 + 16 from rfl, fieldN_link _ hlen (by decide), hnum]
    omega

/-- The channel is live again and has sent its ACK. -/
def State.acked (s : State) (p c : Nat) : State := (s.relive p c).sendAck p c []

theorem KeptBut.acked (s : State) (p c : Nat) : KeptBut [.fab, .outs] s (s.acked p c) :=
  (kept_sendAck ..).but.step (by decide) ((kept_setChan ..).but.step (by decide) (kept_trainReq ..).but)

theorem State.chan_acked (s : State) (p c q d : Nat) : (s.acked p c).chan q d =
    if 4 * q + d = 4 * p + c then { s.chan p c with state := .live, req := false } else s.chan q d := by
  refine (State.chan_setChan (s.trainReq p c false) p c q d _).trans ?_
  split
  · rfl
  · next h => rw [State.chan_trainReq, if_neg h]

theorem State.outs_acked {p c : Nat} (hreq : (s.chan p c).req = true) : ∃ w : Flit,
    (s.acked p c).outs = s.outs ++ [.trainReq p c false, .flit p c w] ∧ w.opc = 15 ∧ w.crcOk = true ∧
    fieldN w 64 8 = 1 ∧ field w 80 10 = (s.chan p c).rx := by
  have hrx : ((s.relive p c).chan p c).rx = (s.chan p c).rx := congrArg (·.rx) (State.chan_setChan_self ..)
  refine ⟨(mkFlit 15 0 0 (s.relive p c).coreId true true ((s.relive p c).ackBytes p c [])).seal, ?_, ?_⟩
  · have houts : (s.relive p c).outs = s.outs ++ [.trainReq p c false] :=
      (s.trainReq_outs p c false).trans (if_neg (by rw [hreq]; decide))
    rw [List.append_cons, ← houts]
    rfl
  · rw [← hrx]
    exact State.ackBytes_spec _ p c [] _ rfl

theorem State.waitq_trainReq (s : State) (p c : Nat) (v : Bool) : (s.trainReq p c v).fab.waitq = s.fab.waitq := by
  unfold State.trainReq
  split <;> rfl

theorem State.recent_congr (h : t.tick = s.tick) (ch : ChanSt) : t.recent ch = s.recent ch := by
  unfold State.recent; rw [h]

theorem State.reg_of_fab (hkept : KeptBut [.fab, .outs] s t) (o : Nat) : t.reg o = s.reg o :=
  (Only.ofKept (fs := [.fab, .outs]) (rs := []) hkept (by decide) (by decide)).regs o List.not_mem_nil

theorem retrained_claim : Sys2Proof.Claims.Retrained := by
  intro s p c
  dsimp only
  intro hthere hreq hstate hrecent hnone hlseq
  have hkept := KeptBut.acked s p.val c.val
  have htick := hkept.same .tick (by decide)
  have hself : (s.acked p.val c.val).chan p.val c.val = { s.chan p.val c.val with state := .live, req := false } := by
    rw [State.chan_acked, if_pos rfl]
  have hall := flitsAbove_all (d := (s.chan p.val c.val).tx - 1) hlseq
  have heq := State.trainDone_retraining hthere hreq hstate
  revert heq hall
  generalize beforeOldest ((s.chan p.val c.val).tx - 1) (s.chan p.val c.val).replay = last
  intro hall heq
  obtain ⟨hchan, houts, hreg, hwait, honly⟩ := State.goBackChan_spec (s := s.acked p.val c.val) (p := p.val) (c := c.val)
    (last := last) (by rw [hself, State.recent_congr htick]; exact hrecent)
  have hhanding (k : Nat) (hk : k < 4) : (((s.acked p.val c.val).goBackChan p.val c.val last).chan p.val k).handing = [] := by
    rw [hchan]
    split
    · rw [hself]
      exact (hnone c.val c.isLt).2
    · next h => rw [State.chan_acked, if_neg h]; exact (hnone k hk).2
  have hwaits : ((s.acked p.val c.val).goBackChan p.val c.val last).noneWaits p.val :=
    State.noneWaits_congr (hwait.trans (State.waitq_trainReq ..)) fun k hk => (hnone k hk).1
  obtain ⟨w, hw, hfields⟩ := State.outs_acked hreq
  refine Ends.of rfl (heq.trans ?_) (u := (s.acked p.val c.val).goBackChan p.val c.val last) ⟨?_, ⟨w, ?_, hfields⟩, ?_, ?_⟩
  · exact (congrArg (State.pump · p.val) (State.askHandovers_of_none hhanding)).trans (State.pump_of_empty hwaits)
  · rw [hchan, if_pos rfl, hself, State.backTo, State.recent_congr htick, htick]
    dsimp only
    rw [hall]
    rfl
  · rw [houts, hw, hself]
    dsimp only
    rw [hall]
  · rw [hreg, State.reg_of_fab hkept]
  · exact ((Only.ofKept hkept (by decide) (by decide))).trans honly

end Sys2Proof.Machine
end

section
/-! SUPPORT. Port reset and the configuration of a port (R444, R448, R450, R487); bring-up settled. -/

namespace Sys2Proof.Machine

variable {s t u : State}

/-! Bring-up from nothing (R444). -/

theorem State.chan_freshChans_own (s : State) (p : Nat) {k : Nat} (hk : k < 4) : (s.freshChans p).chan p k = (s.chan p k).fresh := by
  rw [State.chan_freshChans, if_pos (by omega)]

theorem State.bringUp_spec (s : State) (p : Nat) : (s.bringUp p).port p = ⟨.training, 0, none, none, false⟩ ∧
    (∀ k, k < 4 → (s.bringUp p).chan p k = (s.chan p k).fresh) ∧ ∀ q, q ≠ p → (s.bringUp p).port q = s.port q := by
  unfold State.bringUp
  refine ⟨?_, fun k hk => ?_, fun q hq => ?_⟩
  · rw [State.port_congr (State.ports_freshChans ..), State.setPort_self]
  · rw [State.chan_freshChans_own _ _ hk]
    rfl
  · rw [State.port_congr (State.ports_freshChans ..), State.setPort_other _ hq]

theorem ChanSt.fresh_fresh (ch : ChanSt) : ch.fresh.fresh = ch.fresh := by
  unfold ChanSt.fresh
  dsimp only
  rw [Bool.or_assoc, Bool.or_self]

/-! A link that goes down (R435). -/

theorem State.port_enterDown_other (s : State) {p q : Nat} (h : q ≠ p) : (s.enterDown p).port q = s.port q := by
  unfold State.enterDown
  rw [(State.links_reroute _ p).port, State.port_congr (State.ports_freshChans ..), State.setPort_other _ h]

theorem State.linkDown_spec (s : State) (p : Nat) : (∀ k, k < 4 → (s.linkDown p).chan p k = (s.chan p k).fresh) ∧
    (∀ q, q ≠ p → (s.linkDown p).port q = s.port q) ∧ ∀ q, (s.linkDown p).portEn q = s.portEn q := by
  unfold State.linkDown
  generalize hr : FaultRec.plain 2 unitFabric Code.fabLinkDown.num (chanAddr p 0) 4 = r
  have hlog := (kept_logRecord s r).but
  have hfab := hlog.same .fab (by decide)
  refine ⟨fun k hk => ?_, fun q hq => ?_, fun q => ?_⟩
  · rw [((s.logRecord r).enterDown_spec p).2 k hk, State.chan_congr hfab]
  · rw [State.port_enterDown_other _ hq, State.port_congr (congrArg (·.ports) hfab)]
  · exact (State.regB_congr ((State.calm_enterDown _ p).regs _ (not_routeRegs_fabPortCfg q)) 4).trans
      (State.portEn_of_reg (hlog.same .fabR (by decide)) q)

/-! The counts of a port (R450). -/

theorem State.clearPortCounts_regs (s : State) (p : Nat) {o : Nat}
    (ho : ∀ c, o ≠ R.fabChCrc p c ∧ o ≠ R.fabChReplay p c ∧ o ≠ R.fabChFlits p c) : (s.clearPortCounts p).reg o = s.reg o := by
  unfold State.clearPortCounts
  rw [iter_four]
  simp only [State.reg_setReg_ne _ _ (ho _).1, State.reg_setReg_ne _ _ (ho _).2.1, State.reg_setReg_ne _ _ (ho _).2.2]

theorem State.reg_setReg_zero {o : Nat} (h : s.reg o = 0) (q : Nat) : (s.setReg q 0).reg o = 0 := by
  rw [State.reg_setReg, h, ite_self]

/-- The counts of one channel. -/
def State.clearChanCounts (s : State) (p c : Nat) : State :=
  ((s.setReg (R.fabChCrc p c) 0).setReg (R.fabChReplay p c) 0).setReg (R.fabChFlits p c) 0

theorem State.clearChanCounts_keeps {o : Nat} (h : s.reg o = 0) (p c : Nat) : (s.clearChanCounts p c).reg o = 0 :=
  State.reg_setReg_zero (State.reg_setReg_zero (State.reg_setReg_zero h _) _) _

theorem State.clearChanCounts_self (s : State) (p c : Nat) :
    (s.clearChanCounts p c).reg (R.fabChCrc p c) = 0 ∧ (s.clearChanCounts p c).reg (R.fabChReplay p c) = 0 :=
  ⟨State.reg_setReg_zero (State.reg_setReg_zero (State.reg_setReg_self ..) _) _, State.reg_setReg_zero (State.reg_setReg_self ..) _⟩

theorem State.clearPortCounts_zero (s : State) (p : Nat) {k : Nat} (hk : k < 4) :
    (s.clearPortCounts p).reg (R.fabChCrc p k) = 0 ∧ (s.clearPortCounts p).reg (R.fabChReplay p k) = 0 := by
  have hfour : s.clearPortCounts p =
    (((s.clearChanCounts p 0).clearChanCounts p 1).clearChanCounts p 2).clearChanCounts p 3 := rfl
  have hkeep {t : State} {c : Nat} (h : t.reg (R.fabChCrc p k) = 0 ∧ t.reg (R.fabChReplay p k) = 0) :
      (t.clearChanCounts p c).reg (R.fabChCrc p k) = 0 ∧ (t.clearChanCounts p c).reg (R.fabChReplay p k) = 0 :=
    ⟨State.clearChanCounts_keeps h.1 p c, State.clearChanCounts_keeps h.2 p c⟩
  rw [hfour]
  obtain rfl | rfl | rfl | rfl : k = 0 ∨ k = 1 ∨ k = 2 ∨ k = 3 := by omega
  · exact hkeep (hkeep (hkeep (State.clearChanCounts_self ..)))
  · exact hkeep (hkeep (State.clearChanCounts_self ..))
  · exact hkeep (State.clearChanCounts_self ..)
  · exact State.clearChanCounts_self ..

theorem State.portEn_clearPortCounts (s : State) (p q : Nat) : (s.clearPortCounts p).portEn q = s.portEn q := by
  refine State.regB_congr (State.clearPortCounts_regs s p fun c => ?_) 4
  unfold R.fabPortCfg R.fabChCrc R.fabChReplay R.fabChFlits
  omega

/-! Port reset (R448). -/

/-- The door is closed, and a link that was up is down. -/
def State.portClosed (s : State) (p : Nat) : State := if (s.resetDoor.port p).state = .up then s.resetDoor.linkDown p else s.resetDoor

theorem State.portClosed_spec (s : State) (p : Nat) :
    (∀ k, k < 4 → ((s.portClosed p).chan p k).fresh = (s.chan p k).fresh) ∧
    (∀ q, q ≠ p → (s.portClosed p).port q = s.port q) ∧ (∀ q, (s.portClosed p).portEn q = s.portEn q) ∧
    (s.portClosed p).session = false ∧ (s.portClosed p).mem = s.mem ∧ (s.portClosed p).board = s.board := by
  have hdoor := (kept_resetDoor s).but
  have hfab := hdoor.same .fab (by decide)
  have henabled := State.portEn_of_reg (hdoor.same .fabR (by decide))
  unfold State.portClosed
  split
  · have hdown := (kept_linkDown s.resetDoor p).but
    obtain ⟨hchan, hport, hen⟩ := s.resetDoor.linkDown_spec p
    refine ⟨fun k hk => ?_, fun q hq => (hport q hq).trans (State.port_congr (congrArg (·.ports) hfab) q),
      fun q => (hen q).trans (henabled q), ?_, (hdown.same .mem (by decide)).trans (hdoor.same .mem (by decide)),
      (hdown.same .board (by decide)).trans (hdoor.same .board (by decide))⟩
    · rw [hchan k hk, ChanSt.fresh_fresh, State.chan_congr hfab]
    · exact (State.regB_congr (hdown.reg (by decide)) 0).trans s.session_resetDoor
  · exact ⟨fun k hk => by rw [State.chan_congr hfab], fun q hq => State.port_congr (congrArg (·.ports) hfab) q, henabled,
      s.session_resetDoor, hdoor.same .mem (by decide), hdoor.same .board (by decide)⟩

theorem State.portReset_eq {p : Nat} (hthere : p < s.build.ports) (henabled : s.portEn p = true) :
    s.portReset p = ((s.portClosed p).clearPortCounts p).bringUp p := by
  have hen : ((s.portClosed p).clearPortCounts p).portEn p = true := by
    rw [State.portEn_clearPortCounts, (s.portClosed_spec p).2.2.1, henabled]
  refine (if_neg (Nat.not_le.2 hthere)).trans ?_
  exact if_pos hen

/-- What a port that starts afresh shows, told of the state before the command. -/
def State.afresh (s : State) (p : Nat) (u : State) : Prop := u.port p = ⟨.training, 0, none, none, false⟩ ∧
    ∀ k, k < 4 → u.chan p k = { ChanSt.init with state := .idle, ready := (s.chan p k).ready,
                                                 req := (s.chan p k).req || (s.chan p k).ready }

theorem State.portReset_spec {p : Nat} (hthere : p < s.build.ports) (henabled : s.portEn p = true) :
    s.afresh p (s.portReset p) ∧ (s.portReset p).session = false ∧
    (∀ k, k < 4 → (s.portReset p).reg (R.fabChCrc p k) = 0 ∧ (s.portReset p).reg (R.fabChReplay p k) = 0) ∧
    (∀ q, q ≠ p → (s.portReset p).port q = s.port q) ∧ (s.portReset p).mem = s.mem ∧ (s.portReset p).board = s.board := by
  obtain ⟨hchan, hport, _, hsession, hmem, hboard⟩ := s.portClosed_spec p
  rw [State.portReset_eq hthere henabled]
  have hclear := (kept_clearPortCounts (s.portClosed p) p).but
  have hup := (kept_bringUp ((s.portClosed p).clearPortCounts p) p).but
  have hfab := hclear.same .fab (by decide)
  obtain ⟨hself, hfresh, hothers⟩ := ((s.portClosed p).clearPortCounts p).bringUp_spec p
  refine ⟨⟨hself, fun k hk => ?_⟩, ?_, fun k hk => ?_, fun q hq => ?_, ?_, ?_⟩
  · rw [hfresh k hk, State.chan_congr hfab, hchan k hk]
    rfl
  · exact (State.regB_congr (State.reg_of_fab hup _) 0).trans ((State.regB_congr (hclear.reg (by decide)) 0).trans hsession)
  · rw [State.reg_of_fab hup, State.reg_of_fab hup]
    exact State.clearPortCounts_zero _ p hk
  · rw [hothers q hq, State.port_congr (congrArg (·.ports) hfab), hport q hq]
  · exact (hup.same .mem (by decide)).trans ((hclear.same .mem (by decide)).trans hmem)
  · exact (hup.same .board (by decide)).trans ((hclear.same .board (by decide)).trans hboard)

/-! FAB_PORT_CFG (R444). -/

/-- The fields of the register are stored. -/
def State.portStored (s : State) (p : Nat) (v : Word) : State := s.setReg (R.fabPortCfg p) (v &&& 0x0FFF003F#32)

theorem State.portEn_portStored (s : State) (p : Nat) (v : Word) : (s.portStored p v).portEn p = v.getLsbD 4 := by
  unfold State.portEn State.regB State.portStored bit
  rw [State.reg_setReg_self, BitVec.getLsbD_and, show (0x0FFF003F#32).getLsbD 4 = true from rfl, Bool.and_true]

theorem State.portCfgWrite_eq {p : Nat} (hthere : p < s.build.ports) (v : Word) : s.portCfgWrite p v =
    if v.getLsbD 4 = s.portEn p then s.portStored p v
    else if s.portEn p then (s.portStored p v).disablePort p else (s.portStored p v).bringUp p := by
  refine (if_neg (Nat.not_le.2 hthere)).trans ?_
  rw [← State.portEn_portStored s p v]
  rfl

/-- A channel of a port that is not in use. -/
def State.disuse (s : State) (p c : Nat) : State :=
  (s.trainReq p c false).setChan p c { ChanSt.init with ready := ((s.trainReq p c false).chan p c).ready }

theorem State.chan_disuse (s : State) (p c q d : Nat) : (s.disuse p c).chan q d =
    if 4 * q + d = 4 * p + c then { ChanSt.init with ready := (s.chan p c).ready } else s.chan q d := by
  unfold State.disuse
  rw [State.chan_setChan, State.chan_trainReq_self]
  split
  · rfl
  · next h => rw [State.chan_trainReq, if_neg h]

theorem KeptBut.disuse (s : State) (p c : Nat) : KeptBut [.fab, .outs] s (s.disuse p c) :=
  (kept_setChan ..).but.step (by decide) (kept_trainReq ..).but

theorem State.disablePort_spec (s : State) (p : Nat) : ((s.disablePort p).port p).state = .disabled ∧
    (∀ k, k < 4 → ((s.disablePort p).chan p k).req = false) ∧
    (s.disablePort p).reg (R.fabPortCfg p) = s.reg (R.fabPortCfg p) ∧ (s.disablePort p).mem = s.mem := by
  have heq : s.disablePort p = iter 4 (fun c s => s.disuse p c) ((s.setPort p PortSt.init).reroute p) := rfl
  rw [heq]
  have hlinks := State.links_reroute (s.setPort p PortSt.init) p
  have hroute := (kept_reroute (s.setPort p PortSt.init) p).but
  generalize (s.setPort p PortSt.init).reroute p = t at *
  have hkept : KeptBut [.fab, .outs] t (iter 4 (fun c s => s.disuse p c) t) :=
    KeptBut.iter 4 (fun c u => KeptBut.disuse u p c) (KeptBut.refl _ t)
  refine ⟨?_, fun k hk => ?_, ?_, ?_⟩
  · rw [State.port_congr (State.ports_iter (f := fun c s => s.disuse p c) (fun c s => State.ports_trainReq ..) 4 t), hlinks.port,
      State.setPort_self]
    rfl
  · rw [State.chan_iter4 (g := fun ch => { ChanSt.init with ready := ch.ready }) fun c s q d => s.chan_disuse p c q d, if_pos (by omega)]
    rfl
  · rw [State.reg_of_fab hkept]
    exact hlinks.regs _ (not_routeRegs_fabPortCfg p)
  · exact (hkept.same .mem (by decide)).trans (hroute.same .mem (by decide))

theorem portControl_claim : Sys2Proof.Claims.PortControl := by
  intro s p v
  dsimp only
  have henabled (q : Nat) : s.hostTouch.portEn q = s.portEn q := State.portEn_of_reg ((keptBut_hostTouch s).same .fabR (by decide)) q
  have htouch : Only [] [R.sesIdleTicks] s s.hostTouch := (Only.refl ..).hostTouch (by simp)
  refine ⟨fun hserve => ⟨fun hnone => ?_, fun hthere hen => ?_⟩,
    fun hserve => ⟨fun hnone => ?_, fun hthere hsame => ?_, fun hthere hv hwas => ?_, fun hthere hv hwas => ?_⟩⟩
  · exact Ends.of rfl ((State.hostWrite_ok _ hserve).trans (if_pos hnone)) htouch
  · exact Ends.of rfl (State.hostWrite_ok _ hserve)
      (State.portReset_spec (s := s.hostTouch) hthere ((henabled _).trans hen))
  · exact Ends.of rfl ((State.hostWrite_ok _ hserve).trans (if_pos hnone)) htouch
  · refine Ends.of rfl ((State.hostWrite_ok _ hserve).trans (State.portCfgWrite_eq (s := s.hostTouch) hthere v)) ?_
    rw [henabled, if_pos hsame]
    exact ⟨State.reg_setReg_self .., ((Only.refl ..).hostTouch (by simp)).setReg (by simp)⟩
  · refine Ends.of rfl ((State.hostWrite_ok _ hserve).trans (State.portCfgWrite_eq (s := s.hostTouch) hthere v)) ?_
    rw [henabled, hv, hwas, if_neg (by decide), if_neg (by decide)]
    obtain ⟨hself, hfresh, hothers⟩ := (s.hostTouch.portStored p.val v).bringUp_spec p.val
    refine ⟨?_, ⟨hself, hfresh⟩, hothers, (kept_bringUp ..).but.same .mem (by decide)⟩
    rw [State.reg_of_fab (kept_bringUp ..).but]
    exact State.reg_setReg_self ..
  · refine Ends.of rfl ((State.hostWrite_ok _ hserve).trans (State.portCfgWrite_eq (s := s.hostTouch) hthere v)) ?_
    rw [henabled, hv, hwas, if_neg (by decide), if_pos rfl]
    obtain ⟨hstate, hreq, hreg, hmem⟩ := (s.hostTouch.portStored p.val v).disablePort_spec p.val
    exact ⟨hreg.trans (State.reg_setReg_self ..), hstate, hreq, hmem⟩

/-- Settles O57: a port's checks end in an outcome, or leave it in training; a channel trains anew or goes back; a reset and a
change of EN begin or end a bring-up. -/
theorem portBringUp : Obligations.PortBringUp := ⟨peerChecks_claim, training_claim, retrained_claim, portControl_claim⟩

end Sys2Proof.Machine
end

section
/-! SUPPORT. Acknowledgement, go-back and retirement of a channel (R429 to R433). -/

namespace Sys2Proof.Machine

variable {s t u : State}

/-! Acknowledgement and go-back (R429 to R431). -/

/-- No other channel of the core has changed. -/
def State.elsewhere (s t : State) (p c : Nat) : Prop := ∀ q d, d < 4 → (q, d) ≠ (p, c) → t.chan q d = s.chan q d

theorem State.elsewhere_of_index {p c : Nat} (hc : c < 4) (h : ∀ q d, 4 * q + d ≠ 4 * p + c → t.chan q d = s.chan q d) :
    s.elsewhere t p c := by
  refine fun q d hd hne => h q d fun he => hne ?_
  rw [Prod.mk.injEq]
  omega

/-- A channel whose flits up to an LSEQ the other side has. -/
def ChanSt.acked (ch : ChanSt) (w : BitVec 416) : ChanSt :=
  { ch with
    replay := flitsAbove (field w 16 10) ch.replay
    credits := (List.range 6).map fun i => min 32 (listGet 0 ch.credits i + fieldN w (32 + 8 * i) 8) }

theorem State.linkAck_eq {p c : Nat} (hhears : s.hears p c = true) (hnone : s.noneWaits p) (w : BitVec 416) :
    s.linkAck p c w = s.setChan p c ((s.chan p c).acked w) := by
  unfold State.linkAck
  rw [if_neg (by rw [hhears]; decide)]
  exact State.pump_of_empty (s := s.setChan p c ((s.chan p c).acked w)) hnone

/-- What a go-back leaves, told of the state before the command. -/
def State.wentBack (s : State) (p c : Nat) (l : BitVec 10) (u : State) : Prop :=
  u.chan p c = s.backTo (s.chan p c) l ∧ u.outs = s.outs ++ (flitsAbove l (s.chan p c).replay).map (fun f => .flit p c f) ∧
  u.reg (R.fabChReplay p c) = satAdd (s.reg (R.fabChReplay p c)) 1 ∧ s.elsewhere u p c ∧
  Only [.fab, .outs, .timers] [R.fabChReplay p c] s u

theorem State.wentBack_spec {p c : Nat} {l : BitVec 10} (hc : c < 4) (hnone : s.noneWaits p)
    (h : (s.recent (s.chan p c)).length < 15) : s.wentBack p c l ((s.goBackChan p c l).pump p) := by
  obtain ⟨hchan, houts, hreg, hwait, honly⟩ := State.goBackChan_spec (last := l) h
  rw [State.pump_of_empty (State.noneWaits_congr hwait hnone)]
  refine ⟨?_, houts, hreg, State.elsewhere_of_index hc fun q d hne => ?_, honly.mono (by decide) fun _ h => h⟩
  · rw [hchan, if_pos rfl]
  · rw [hchan, if_neg hne]

theorem goBack_claim : Sys2Proof.Claims.GoBack := by
  intro s p c w last
  dsimp only
  refine ⟨fun hdeaf i hi => ?_, fun h => ?_, fun hhears hnone => ⟨?_, fun hrecent => ?_, fun f rest hrecent hreplay hlate => ?_⟩⟩
  · rcases hi with rfl | rfl | rfl
    · exact Ends.of rfl (if_pos hdeaf) rfl
    · exact Ends.of rfl (if_neg (by rw [hdeaf]; decide)) rfl
    · exact Ends.of rfl (if_pos (.inl hdeaf)) rfl
  · refine Ends.of rfl (if_pos ?_) rfl
    rw [decide_eq_false_iff_not, Nat.not_le] at h
    exact .inr h
  · refine Ends.of rfl (State.linkAck_eq hhears hnone w)
      ⟨State.chan_setChan_self .., State.elsewhere_of_index c.isLt fun q d hne => ?_,
        Only.ofKept (kept_setChan ..).but (by decide) (by decide)⟩
    rw [State.chan_setChan, if_neg hne]
  · exact Ends.of rfl (if_pos hhears) (State.wentBack_spec c.isLt hnone hrecent)
  · have hlate' : ¬s.age (.replay p.val c.val (beforeOldest 0 (s.chan p.val c.val).replay)) < 2 ^ 10 :=
      Nat.not_lt.2 (of_decide_eq_true hlate)
    refine Ends.of rfl (if_neg ?_) ?_
    · rintro (h | h | h)
      · rw [hhears] at h; exact nomatch h
      · rw [hreplay] at h; exact nomatch h
      · exact hlate' h
    · have hage : beforeOldest 0 (s.chan p.val c.val).replay = Flit.lseq f - 1 := by rw [hreplay]; rfl
      rw [hage]
      obtain ⟨hchan, houts, hreg, helse, honly⟩ := State.wentBack_spec (s := s.restart (.replay p.val c.val (Flit.lseq f - 1)))
        (l := Flit.lseq f - 1) c.isLt hnone hrecent
      exact ⟨hchan, houts, hreg, helse, (Only.ofKept (kept_restart ..).but (by decide) (by decide)).trans honly⟩

/-! Retirement (R432, R433). -/

theorem State.carrier_congr {p : Nat} (h : ∀ k, k < 4 → (t.chan p k).state = (s.chan p k).state) (cls : Nat) :
    t.carrier p cls = s.carrier p cls := by
  unfold State.carrier
  refine List.find?_congr fun k hk => ?_
  obtain ⟨j, -, hj⟩ := List.mem_map.1 hk
  rw [h k (by omega)]

theorem State.carried_of_up {p : Nat} (h : (s.port p).state = .up) (c : Nat) :
    s.carried p c = [0, 1, 2, 3].filter fun k => s.carrier p k == some c := if_pos h

/-- While another channel lives, a retirement on a link that is up leaves the link up. -/
theorem State.retire_spec {p c k : Nat} (hup : (s.port p).state = .up) (hretry : (s.port p).retry = false) (hk : k < 4) (hkc : k ≠ c)
    (hlive : (s.chan p k).state = .live) (reply : Bool) :
    ((s.retireChan p c).afterRetire p c reply).fab = (s.chanGone p c).fab ∧
    ((s.retireChan p c).afterRetire p c reply).reg R.fltWr = s.reg R.fltWr + 1 ∧
    KeptBut [.fab, .outs, .trig, .fltR] s ((s.retireChan p c).afterRetire p c reply) := by
  have hfab := s.fab_retireChan p c
  have hport := State.port_congr ((congrArg (·.ports) hfab).trans (s.ports_chanGone p c)) p
  have hkeeps : (s.retireChan p c).chan p k = s.chan p k :=
    (State.chan_congr hfab p k).trans (State.chan_chanGone_other _ (by omega))
  have heq : (s.retireChan p c).afterRetire p c reply = (s.retireChan p c).sendHandover p c reply := by
    unfold State.afterRetire
    rw [if_neg (by rw [hport, hup]; decide), if_neg]
    rw [all_four]
    intro hall
    have := hall k hk
    rw [hkeeps, hlive] at this
    exact nomatch this
  have hsend := (kept_sendHandover (s.retireChan p c) p c reply).but
  rw [heq]
  exact ⟨(hsend.same .fab (by decide)).trans hfab, (hsend.reg (by decide)).trans (State.fltWr_retireChan hretry c),
    hsend.step (by decide) (kept_retireChan ..).but⟩

/-- What a retirement leaves, told of the state before the command. -/
def State.goneFrom (s : State) (p c : Nat) (u : State) : Prop :=
  (u.chan p c).state = .retired ∧ (u.chan p c).req = false ∧
  (u.chan p c).handing = ([0, 1, 2, 3] : List Nat).filter (fun k => s.carrier p k == some c) ∧
  (u.port p).state = .up ∧ u.reg R.fltWr = s.reg R.fltWr + 1 ∧ KeptBut [.fab, .outs, .timers, .trig, .ctlR, .fabR, .fltR] s u

/-- The retirement as a state `t` goes into it that has the port and the channels' states of `s`. -/
theorem State.goneFrom_of {p c k : Nat} (hkept : KeptBut [.fab, .outs, .timers, .fabR] s t)
    (hport : t.port p = s.port p) (hchans : ∀ k, k < 4 → (t.chan p k).state = (s.chan p k).state)
    (hup : (s.port p).state = .up) (hretry : (s.port p).retry = false) (hk : k < 4) (hkc : k ≠ c)
    (hlive : (s.chan p k).state = .live) : s.goneFrom p c ((t.retireChan p c).afterRetire p c false) := by
  obtain ⟨hfab, hfault, hrest⟩ := State.retire_spec (s := t) (c := c) (by rw [hport]; exact hup) (by rw [hport]; exact hretry) hk hkc
    (by rw [hchans k hk]; exact hlive) false
  have hchan := (State.chan_congr hfab p c).trans (t.chan_chanGone p c)
  have hcarried : t.carried p c = [0, 1, 2, 3].filter fun k => s.carrier p k == some c := by
    rw [State.carried_of_up (by rw [hport]; exact hup)]
    simp only [State.carrier_congr hchans]
  refine ⟨by rw [hchan]; rfl, by rw [hchan]; rfl, ?_, ?_, ?_, hrest.step (by decide) (hkept.mono (by decide))⟩
  · rw [hchan, ← hcarried]
    rfl
  · rw [State.port_congr ((congrArg (·.ports) hfab).trans (t.ports_chanGone p c)), hport, hup]
  · rw [hfault, hkept.reg (by decide)]

theorem State.trainFails_retraining {p c : Nat} (hthere : p < s.build.ports) (hstate : (s.chan p c).state = .retraining) :
    s.trainFails p c = ((s.retireChan p c).afterRetire p c false).trainOutcome p := by
  unfold State.trainFails
  dsimp only
  rw [if_neg (Nat.not_le.2 hthere), if_pos hstate]

theorem State.trainOutcome_of_up {p : Nat} (h : (s.port p).state = .up) : s.trainOutcome p = s :=
  if_pos (by rw [h]; decide)

theorem State.phyErr_eq {p c : Nat} (hthere : p < s.build.ports) (hport : (s.port p).state ≠ .disabled)
    (hlive : (s.chan p c).state = .live) : s.phyErr p c =
    ((s.restart (.train p c)).setChan p c { s.chan p c with state := .retraining }).trainReq p c true := by
  refine if_neg ?_
  rintro (h | h | h)
  · exact absurd hthere (Nat.not_lt.2 h)
  · exact hport h
  · exact h hlive

/-- The sixteenth replay in the window retires the channel. -/
theorem State.goneFrom_linkNak {p c k : Nat} {last : BitVec 10} (hup : (s.port p).state = .up) (hretry : (s.port p).retry = false)
    (hk : k < 4) (hkc : k ≠ c) (hlive : (s.chan p k).state = .live) (hnone : s.noneWaits p)
    (hrecent : 15 ≤ (s.recent (s.chan p c)).length) : s.goneFrom p c ((s.goBackChan p c last).pump p) := by
  have hchans (k : Nat) : ((s.rewound p c last).chan p k).state = (s.chan p k).state := by
    rw [State.chan_rewound]
    split
    · next h => rw [show k = c by omega]; rfl
    · rfl
  have hkept : KeptBut [.fab, .outs, .timers, .fabR] s (s.rewound p c last) :=
    (kept_count ..).but.step (by simp) ((kept_setChan ..).but.mono (by decide))
  have hgone := State.goneFrom_of (c := c) hkept rfl (fun k _ => hchans k) hup hretry hk hkc hlive
  obtain ⟨hfab, -, -⟩ := State.retire_spec (s := s.rewound p c last) (p := p) (c := c) hup hretry hk hkc
    (by rw [hchans]; exact hlive) false
  rw [State.goBackChan_retires hrecent, State.pump_of_empty]
  · exact hgone
  · exact State.noneWaits_congr ((congrArg (·.waitq) hfab).trans (State.waitq_trainReq ..)) hnone

theorem retirement_claim : Sys2Proof.Claims.Retirement := by
  intro s p c last
  dsimp only
  refine ⟨fun h => Ends.of rfl (if_pos h) rfl, fun hthere hport hlive => ?_, fun hlate => ?_, fun hthere hup hretry hothers => ?_,
    fun hreq => Ends.of rfl (if_neg (by rw [hreq]; decide)) rfl⟩
  · refine Ends.of rfl (State.phyErr_eq hthere hport hlive) ⟨?_, State.elsewhere_of_index c.isLt fun q d hne => ?_, ?_, ?_⟩
    · rw [State.chan_trainReq_self, State.chan_setChan_self]
    · rw [State.chan_trainReq, if_neg hne, State.chan_setChan, if_neg hne]
      rfl
    · rw [State.trainReq_outs, State.chan_setChan_self]
      rfl
    · exact (kept_trainReq ..).but.step (by decide) ((kept_setChan ..).but.step (by decide) ((kept_restart ..).but.mono (by decide)))
  · exact Ends.of rfl (if_neg (of_decide_eq_false hlate)) rfl
  · obtain ⟨k, hk, hkc, hlive⟩ := hothers
    have hfails (t : State) (hfab : t.fab = s.fab) (hkept : KeptBut [.timers] s t) (hret : (s.chan p.val c.val).state = .retraining) :
        s.goneFrom p.val c.val (t.trainFails p.val c.val) := by
      have hport := State.port_congr (congrArg (·.ports) hfab) p.val
      have hgone : s.goneFrom p.val c.val ((t.retireChan p.val c.val).afterRetire p.val c.val false) :=
        State.goneFrom_of (hkept.mono (by decide)) hport (fun k _ => by rw [State.chan_congr hfab]) hup hretry hk hkc hlive
      rw [State.trainFails_retraining ((congrArg (·.ports) (hkept.same .build (by decide))).symm ▸ hthere)
        (by rw [State.chan_congr hfab]; exact hret), State.trainOutcome_of_up hgone.2.2.2.1]
      exact hgone
    refine ⟨fun hret hlate => ?_, fun hret hreq => ?_, fun _ hhears hnone hrecent => ?_⟩
    · exact Ends.of rfl (if_pos (of_decide_eq_true hlate)) (hfails _ rfl (kept_restart ..).but hret)
    · exact Ends.of rfl (if_pos hreq) (hfails s rfl (KeptBut.refl ..) hret)
    · exact Ends.of rfl (if_pos hhears) (State.goneFrom_linkNak hup hretry hk hkc hlive hnone hrecent)

end Sys2Proof.Machine
end

section
/-! SUPPORT. Handover of a retired channel (R434): what its flits wait behind, and what of them leaves. -/

namespace Sys2Proof.Machine

variable {s t u : State}

/-! What sending from a class does to the channels that are not live, and to the flits that wait. -/

/-- Flits have left a class in order: the flits that wait are those left, the other classes and the channels not live are as
before. -/
structure State.letOut (s t : State) (p cls : Nat) : Prop where
  own : ∃ n, t.waiting p cls = (s.waiting p cls).drop n
  others : ∀ q k, 4 * q + k ≠ 4 * p + cls → t.waiting q k = s.waiting q k
  chans : ∀ q d, (s.chan q d).state ≠ .live → t.chan q d = s.chan q d
  states : ∀ q d, (t.chan q d).state = (s.chan q d).state

theorem State.waiting_setWaiting (s : State) (p c q d : Nat) (l : List Flit) :
    (s.setWaiting p c l).waiting q d = if 4 * q + d = 4 * p + c then l else s.waiting q d := NMap.get_set ..

theorem State.letOut.refl (s : State) (p cls : Nat) : State.letOut s s p cls :=
  ⟨⟨0, rfl⟩, fun _ _ _ => rfl, fun _ _ _ => rfl, fun _ _ => rfl⟩

theorem State.chan_txTry {p cls : Nat} {f : Flit} (h : s.txTry p cls f = some t) :
    t.fab.waitq = s.fab.waitq ∧ ∀ q d, (s.chan q d).state ≠ .live → t.chan q d = s.chan q d := by
  unfold State.txTry at h
  split at h
  · exact nomatch h
  · next c hc =>
    dsimp only at h
    split at h
    · exact nomatch h
    · next hmay =>
      have hlive : (s.chan p c).state = .live := by
        simp only [not_or, not_not] at hmay
        exact hmay.1
      rw [← Option.some.inj h]
      refine ⟨rfl, fun q d hne => (State.chan_setChan s p c q d _).trans (if_neg fun he => hne ?_)⟩
      unfold State.chan at *
      rw [he]
      exact hlive

theorem State.letOut_pumpClass (s : State) (p cls : Nat) : State.letOut s (s.pumpClass p cls) p cls := by
  unfold State.pumpClass
  refine iterWhile_induct (P := fun t => State.letOut s t p cls) (fun a b ha hb => ?_) _ s (State.letOut.refl s p cls)
  split at hb
  · exact nomatch hb
  · next f rest hw =>
    obtain ⟨v, hv, rfl⟩ := Option.map_eq_some_iff.1 hb
    obtain ⟨hwaitq, hchan⟩ := State.chan_txTry hv
    have hstate (q d : Nat) : (v.chan q d).state = (a.chan q d).state := ((State.links_txTry hv).chans q d).state
    obtain ⟨n, hn⟩ := ha.own
    refine ⟨⟨n + 1, ?_⟩, fun q k hne => ?_, fun q d hne => ?_, fun q d => (hstate q d).trans (ha.states q d)⟩
    · rw [State.waiting_setWaiting, if_pos rfl, ← List.drop_drop, ← hn, hw]
      rfl
    · rw [State.waiting_setWaiting, if_neg hne, ← ha.others q k hne]
      unfold State.waiting
      rw [hwaitq]
    · exact (hchan q d (by rw [ha.states]; exact hne)).trans (ha.chans q d hne)

/-- A port sends what can leave: of each class of its own the flits that wait first. -/
theorem State.pump_drains (s : State) (p : Nat) : (∀ k, k < 4 → ∃ n, (s.pump p).waiting p k = (s.waiting p k).drop n) ∧
    (∀ q k, q ≠ p → k < 4 → (s.pump p).waiting q k = s.waiting q k) ∧
    ∀ q d, (s.chan q d).state ≠ .live → (s.pump p).chan q d = s.chan q d := by
  unfold State.pump
  rw [iter_four]
  have h0 := s.letOut_pumpClass p 0
  generalize s.pumpClass p 0 = a at *
  have h1 := a.letOut_pumpClass p 1
  generalize a.pumpClass p 1 = b at *
  have h2 := b.letOut_pumpClass p 2
  generalize b.pumpClass p 2 = c at *
  have h3 := c.letOut_pumpClass p 3
  generalize c.pumpClass p 3 = d at *
  refine ⟨fun k hk => ?_, fun q k hq hk => ?_, fun q e hne => ?_⟩
  · obtain rfl | rfl | rfl | rfl : k = 0 ∨ k = 1 ∨ k = 2 ∨ k = 3 := by omega
    · rw [h3.others _ _ (by omega), h2.others _ _ (by omega), h1.others _ _ (by omega)]
      exact h0.own
    · rw [h3.others _ _ (by omega), h2.others _ _ (by omega), ← h0.others _ _ (by omega)]
      exact h1.own
    · rw [h3.others _ _ (by omega), ← h0.others _ _ (by omega), ← h1.others _ _ (by omega)]
      exact h2.own
    · rw [← h0.others _ _ (by omega), ← h1.others _ _ (by omega), ← h2.others _ _ (by omega)]
      exact h3.own
  · rw [h3.others _ _ (by omega), h2.others _ _ (by omega), h1.others _ _ (by omega), h0.others _ _ (by omega)]
  · have ha : (a.chan q e).state ≠ .live := by rw [h0.states]; exact hne
    have hb : (b.chan q e).state ≠ .live := by rw [h1.states]; exact ha
    have hc : (c.chan q e).state ≠ .live := by rw [h2.states]; exact hb
    rw [h3.chans _ _ hc, h2.chans _ _ hb, h1.chans _ _ ha, h0.chans _ _ hne]

/-! A handover (R434). -/

/-- The flits of a retired channel that the other side lacks go ahead of those that wait. -/
def State.putAhead (s : State) (p : Nat) (rest : List Flit) : State :=
  iter 4 (fun k s => s.setWaiting p k (flitsOf k rest ++ s.waiting p k)) s

theorem State.waiting_putAhead (s : State) (p : Nat) (rest : List Flit) :
    (∀ k, k < 4 → (s.putAhead p rest).waiting p k = flitsOf k rest ++ s.waiting p k) ∧
    ∀ q k, q ≠ p → k < 4 → (s.putAhead p rest).waiting q k = s.waiting q k := by
  unfold State.putAhead
  rw [iter_four]
  refine ⟨fun k hk => ?_, fun q k hq hk => ?_⟩
  · obtain rfl | rfl | rfl | rfl : k = 0 ∨ k = 1 ∨ k = 2 ∨ k = 3 := by omega
    all_goals simp [State.waiting_setWaiting]
  · simp only [State.waiting_setWaiting]
    rw [if_neg (by omega), if_neg (by omega), if_neg (by omega), if_neg (by omega)]

theorem KeptBut.putAhead (s : State) (p : Nat) (rest : List Flit) : KeptBut [.fab] s (s.putAhead p rest) :=
  KeptBut.iter 4 (fun _ _ => (kept_setWaiting ..).but) (KeptBut.refl _ s)

/-- What a handover takes of a retired channel. -/
def State.handed (s : State) (p r : Nat) (last : BitVec 10) : State :=
  (s.setChan p r { s.chan p r with replay := [], handing := [] }).putAhead p (flitsAbove last (s.chan p r).replay)

theorem State.fab_putAhead (s : State) (p : Nat) (rest : List Flit) :
    (s.putAhead p rest).fab.ports = s.fab.ports ∧ (s.putAhead p rest).fab.chans = s.fab.chans := by
  unfold State.putAhead
  rw [iter_four]
  exact ⟨rfl, rfl⟩

/-- A retired channel's flits are handed over, where that is asked for. -/
def State.handOn (s : State) (p r : Nat) (last : BitVec 10) : State :=
  if (s.chan p r).handing = [] then s else (s.handed p r last).pump p

theorem State.handover_eq (s : State) (p r : Nat) (last : BitVec 10) (reply : Bool) : s.handover p r last reply =
    if s.liveChans p = [] ∨ (s.port p).state ≠ .up then s
    else State.handOn (if (s.chan p r).state ≠ .retired then (s.retireChan p r).afterRetire p r true
      else if reply then s else s.sendHandover p r true) p r last := rfl

theorem State.handover_reply {p r : Nat} {last : BitVec 10} (hlive : s.liveChans p ≠ []) (hup : (s.port p).state = .up)
    (hret : (s.chan p r).state = .retired) : s.handover p r last true = s.handOn p r last := by
  rw [State.handover_eq, if_neg (by rintro (h | h); exacts [hlive h, h hup]), if_neg (by rw [hret]; decide), if_pos rfl]

theorem State.handed_spec (s : State) (p r : Nat) (last : BitVec 10) :
    ((∀ k, k < 4 → (s.handed p r last).waiting p k = flitsOf k (flitsAbove last (s.chan p r).replay) ++ s.waiting p k) ∧
      ∀ q k, q ≠ p → k < 4 → (s.handed p r last).waiting q k = s.waiting q k) ∧
    (∀ q, (s.handed p r last).port q = s.port q) ∧
    (s.handed p r last).chan p r = { s.chan p r with replay := [], handing := [] } := by
  unfold State.handed
  generalize ht : s.setChan p r { s.chan p r with replay := [], handing := [] } = t
  obtain ⟨hports, hchans⟩ := t.fab_putAhead p (flitsAbove last (s.chan p r).replay)
  obtain ⟨hown, hothers⟩ := t.waiting_putAhead p (flitsAbove last (s.chan p r).replay)
  have hself : t.chan p r = { s.chan p r with replay := [], handing := [] } := by rw [← ht, State.chan_setChan_self]
  have hwait (q k : Nat) : t.waiting q k = s.waiting q k := by rw [← ht]; rfl
  refine ⟨⟨fun k hk => ?_, fun q k hq hk => ?_⟩, fun q => ?_, ?_⟩
  · rw [hown k hk, hwait]
  · rw [hothers q k hq hk, hwait]
  · rw [State.port_congr hports, ← ht]
    rfl
  · exact (congrArg (fun m => NMap.get ChanSt.init m (4 * p + r)) hchans).trans hself

theorem handover_claim : Sys2Proof.Claims.Handover := by
  intro s p r last
  dsimp only
  refine ⟨fun h => Ends.of rfl (if_pos h) rfl, fun hlive hup hret => ?_⟩
  have hexec : exec (.handover p r last) s = (s.handover p.val r.val (last.setWidth 10) true).done :=
    congrArg (fun b => State.done (s.handover p.val r.val (last.setWidth 10) b)) (beq_iff_eq.2 hret)
  refine ⟨fun hnone => Ends.of hexec ((State.handover_reply hlive hup hret).trans (if_pos hnone)) rfl, fun hsome => ?_⟩
  refine Ends.of hexec ((State.handover_reply hlive hup hret).trans (if_neg hsome)) ?_
  obtain ⟨hdrop, hothers, hchan⟩ := (s.handed p.val r.val (last.setWidth 10)).pump_drains p.val
  obtain ⟨hwait, hport, hself⟩ := s.handed_spec p.val r.val (last.setWidth 10)
  have hlinks := State.links_pump (s.handed p.val r.val (last.setWidth 10)) p.val
  refine ⟨?_, ?_, fun k hk => ?_, fun q k hq hk => ?_, ?_⟩
  · rw [hchan _ _ (by rw [hself, hret]; decide), hself]
  · rw [hlinks.port, hport, hup]
  · have hleft := hdrop k hk
    rw [hwait.1 k hk] at hleft
    exact hleft
  · rw [hothers q k hq hk, hwait.2 q k hq hk]
  · exact (kept_pump ..).but.step (by decide) ((KeptBut.putAhead ..).step (by decide) ((kept_setChan ..).but.mono (by decide)))

/-- Settles O56: replay buffers lose what is acknowledged and send again what is not; the sixteenth replay and a failed training
retire a channel; a handover puts its flits ahead of those that wait. -/
theorem linkReplay : Obligations.LinkReplay := ⟨goBack_claim, retirement_claim, handover_claim⟩

end Sys2Proof.Machine
end

section
/-! SUPPORT. A flit at a channel: what is dropped, answered or given to the local port (R421, R428 to R430). -/

namespace Sys2Proof.Machine

variable {s t u : State}

/-! The branches of FLIT_ACCEPT. -/

/-- NAK of the last LSEQ accepted on a channel. -/
def State.nak (s : State) (p c : Nat) : State := s.sendLink p c ([2#8, 0#8] ++ bytesOf 2 (s.chan p c).rx.toNat)

/-- The flit is the next one of its channel. -/
def State.accepted (s : State) (p c : Nat) (f : Flit) : State := s.setChan p c { s.chan p c with rx := f.lseq }

/-- The credits of an ACK for a flit that goes on at once (R431). -/
def State.flitCredits (s : State) (f : Flit) : List Nat :=
  (List.range 6).map fun i => if (f.dest == s.coreId && !opcReserved f.opc) = false ∧ i = f.lv then 1 else 0

theorem State.flitAccept_crc {p c : Nat} {f : Flit} (hhears : s.hears p c = true) (hcrc : f.crcOk = false) :
    s.flitAccept p c f = if f.opc = 0xF ∨ (s.port p).state ≠ .up then s.count (R.fabChCrc p c) 1
      else (s.count (R.fabChCrc p c) 1).nak p c := by
  unfold State.flitAccept
  rw [if_neg (by rw [hhears]; decide), if_pos hcrc]
  rfl

theorem State.flitAccept_link {p c : Nat} {f : Flit} (hhears : s.hears p c = true) (hcrc : f.crcOk = true) (hopc : f.opc = 15) :
    s.flitAccept p c f = s.linkIn p c f := by
  unfold State.flitAccept
  rw [if_neg (by rw [hhears]; decide), if_neg (by rw [hcrc]; decide), if_pos hopc]

theorem State.flitAccept_routed {p c : Nat} {f : Flit} (hhears : s.hears p c = true) (hcrc : f.crcOk = true) (hopc : f.opc ≠ 15) :
    s.flitAccept p c f = if (s.port p).state ≠ .up then s else if f.lseq ≠ (s.chan p c).rx + 1 then s.nak p c
      else ((s.accepted p c f).routeFlit (some (p, c)) f).sendAck p c ((s.accepted p c f).flitCredits f) := by
  unfold State.flitAccept
  rw [if_neg (by rw [hhears]; decide), if_neg (by rw [hcrc]; decide), if_neg hopc]
  rfl

theorem State.flitAccept_next {p c : Nat} {f : Flit} (hhears : s.hears p c = true) (hcrc : f.crcOk = true) (hopc : f.opc ≠ 15)
    (hup : (s.port p).state = .up) (hlseq : f.lseq = (s.chan p c).rx + 1) : s.flitAccept p c f =
    ((s.accepted p c f).routeFlit (some (p, c)) f).sendAck p c ((s.accepted p c f).flitCredits f) := by
  rw [State.flitAccept_routed hhears hcrc hopc, if_neg (by rw [hup]; decide), if_neg (not_not.2 hlseq)]

/-! What the acceptance of a flit leaves. -/

theorem KeptBut.accepted (s : State) (p c : Nat) (f : Flit) : KeptBut [.fab] s (s.accepted p c f) := (kept_setChan ..).but

theorem State.chan_accepted (s : State) (p c : Nat) (f : Flit) (q d : Nat) : (s.accepted p c f).chan q d =
    if 4 * q + d = 4 * p + c then { s.chan p c with rx := f.lseq } else s.chan q d := State.chan_setChan ..

/-- The ACK of a flit (R429): the LSEQ accepted, and `credits`. -/
theorem State.outs_sendAck (s : State) (p c : Nat) (credits : List Nat) : (s.sendAck p c credits).outs = s.outs ++
    [.flit p c (mkFlit 0xF 0 0 s.coreId true true ([1#8, 0#8] ++ bytesOf 2 (s.chan p c).rx.toNat
      ++ (List.range 6).map fun i => BitVec.ofNat 8 (listGet 0 credits i))).seal] := rfl

/-! A flit of one packet for this core (R422, R436). -/

/-- The packet of a flit that begins and ends it. -/
def packetOf (p c : Nat) (f : Flit) : Packet := ⟨f.opc, f.ch, f.src, f.payload, [(4 * p + c, f.lv)]⟩

theorem State.routeFlit_here {p c : Nat} {f : Flit} (hdest : f.dest = s.coreId) (hopc : opcReserved f.opc = false) :
    s.routeFlit (some (p, c)) f = s.eject (some (4 * p + c)) f := by
  have hforward : s.forward (some (p, c)) f = (false, s.eject (some (4 * p + c)) f) := by
    unfold State.forward State.hop
    rw [if_neg (by rw [hopc]; decide), if_pos hdest]
    rfl
  unfold State.routeFlit
  rw [hforward]
  rfl

/-- The first flit of a packet that is its last: the parts of a packet that were there go. -/
def State.unparted (s : State) (f : Flit) : State :=
  { s with fab := { s.fab with partials := NMap.del s.fab.partials (partKey f.src f.ch (laneOf f.opc)) } }

def State.arrives (s : State) (pk : Packet) : State := { s with fab := { s.fab with localIn := s.fab.localIn ++ [pk] } }

theorem KeptBut.unparted (s : State) (f : Flit) : KeptBut [.fab] s (s.unparted f) := KeptBut.upd (KeptBut.refl _ s)

theorem KeptBut.arrives (s : State) (pk : Packet) : KeptBut [.fab] s (s.arrives pk) := KeptBut.upd (KeptBut.refl _ s)

theorem State.eject_whole {p c : Nat} {f : Flit} (hsop : f.sop = true) (heop : f.eop = true) : s.eject (some (4 * p + c)) f =
    if (packetOf p c f).exReserved then ((s.unparted f).count R.exchStray 1).returnOwed (packetOf p c f)
    else (s.unparted f).arrives (packetOf p c f) := by
  unfold State.eject
  rw [hsop, heop]
  rfl

theorem State.flitCredits_here {f : Flit} (hdest : f.dest = s.coreId) (hopc : opcReserved f.opc = false) :
    s.flitCredits f = List.replicate 6 0 := by
  unfold State.flitCredits
  rw [beq_iff_eq.2 hdest, hopc]
  rfl

theorem State.outs_nak (s : State) (p c : Nat) : (s.nak p c) = { s with outs := s.outs ++
    [.flit p c (mkFlit 0xF 0 0 s.coreId true true ([2#8, 0#8] ++ bytesOf 2 (s.chan p c).rx.toNat)).seal] } := rfl

/-- A flit with a wrong CRC counts, and is asked for again unless it is a LINK flit. -/
theorem State.flitAccept_crc_spec {p c : Nat} {f : Flit} (hhears : s.hears p c = true) (hcrc : f.crcOk = false) :
    (s.flitAccept p c f).reg (R.fabChCrc p c) = satAdd (s.reg (R.fabChCrc p c)) 1 ∧
    (s.flitAccept p c f).outs = (if f.opc ≠ 15 ∧ (s.port p).state = .up then s.outs ++ [.flit p c (mkFlit 0xF 0 0 s.coreId true true
      ([2#8, 0#8] ++ bytesOf 2 (s.chan p c).rx.toNat)).seal] else s.outs) ∧
    Only [.outs] [R.fabChCrc p c] s (s.flitAccept p c f) := by
  have hid : (s.count (R.fabChCrc p c) 1).coreId = s.coreId :=
    congrArg (fun x : Word => x.setWidth 12) (State.reg_count_ne s _ (by unfold R.fabCoreId R.fabChCrc; omega))
  have honly : Only [.outs] [R.fabChCrc p c] s (s.count (R.fabChCrc p c) 1) := (Only.refl ..).count (List.mem_singleton.2 rfl)
  rw [State.flitAccept_crc hhears hcrc]
  by_cases h : f.opc = 15 ∨ (s.port p).state ≠ .up
  · rw [if_pos h, if_neg (by rintro ⟨ho, hup⟩; exact h.elim ho fun hn => hn hup)]
    exact ⟨State.reg_count_self .., rfl, honly⟩
  · rw [if_neg h, if_pos (by simpa only [not_or, not_not] using h), ← hid]
    exact ⟨State.reg_count_self s (R.fabChCrc p c) 1, rfl, honly.kept (kept_sendLink ..).but (by decide) (by decide)⟩

/-- An exchange operation with a reserved KIND is dropped and counts (R394). -/
theorem State.dropped_spec {p c : Nat} {f : Flit} (hdest : f.dest = s.coreId) (hopc : opcReserved f.opc = false)
    (hsop : f.sop = true) (heop : f.eop = true) (hdrop : (packetOf p c f).exReserved = true)
    (heq : t = ((s.accepted p c f).routeFlit (some (p, c)) f).sendAck p c ((s.accepted p c f).flitCredits f)) :
    t.fab.localIn = s.fab.localIn ∧ t.reg R.exchStray = satAdd (s.reg R.exchStray) 1 ∧ KeptBut [.fab, .outs, .exchR] s t := by
  rw [State.routeFlit_here (s := s.accepted p c f) hdest hopc, State.eject_whole hsop heop, if_pos hdrop] at heq
  have hback := (kept_returnOwed (((s.accepted p c f).unparted f).count R.exchStray 1) (packetOf p c f)).but
  have hack := (kept_sendAck ((((s.accepted p c f).unparted f).count R.exchStray 1).returnOwed (packetOf p c f)) p c
    ((s.accepted p c f).flitCredits f)).but
  have hgone : KeptBut [.fab] (s.accepted p c f) ((s.accepted p c f).unparted f) := KeptBut.unparted ..
  subst heq
  refine ⟨?_, ?_, ?_⟩
  · exact congrArg (·.localIn) ((hack.same .fab (by decide)).trans (hback.same .fab (by decide)))
  · rw [hack.reg (by decide), hback.reg (by decide), State.reg_count_self]
    rfl
  · exact hack.step (by decide) (hback.step (by decide) ((kept_count ..).but.step (by decide)
      (hgone.step (by decide) ((KeptBut.accepted ..).mono (by decide)))))

/-- The packet of a flit for this core reaches the local port; an ACK carries its LSEQ. -/
theorem State.arrives_spec {p c : Nat} {f : Flit} (hc : c < 4) (hdest : f.dest = s.coreId) (hopc : opcReserved f.opc = false)
    (hsop : f.sop = true) (heop : f.eop = true) (hkeep : (packetOf p c f).exReserved = false)
    (heq : t = ((s.accepted p c f).routeFlit (some (p, c)) f).sendAck p c ((s.accepted p c f).flitCredits f)) :
    t.fab.localIn = s.fab.localIn ++ [packetOf p c f] ∧ t.chan p c = { s.chan p c with rx := f.lseq } ∧ s.elsewhere t p c ∧
    t.outs = s.outs ++ [.flit p c (mkFlit 0xF 0 0 s.coreId true true ([1#8, 0#8] ++ bytesOf 2 f.lseq.toNat ++ List.replicate 6 0)).seal] ∧
    KeptBut [.fab, .outs] s t := by
  rw [State.routeFlit_here (s := s.accepted p c f) hdest hopc, State.eject_whole hsop heop, if_neg (by rw [hkeep]; decide),
    State.flitCredits_here (s := s.accepted p c f) hdest hopc] at heq
  have harrive : KeptBut [.fab] (s.accepted p c f) (((s.accepted p c f).unparted f).arrives (packetOf p c f)) :=
    (KeptBut.arrives ..).step (by decide) (KeptBut.unparted ..)
  have hlocal : (((s.accepted p c f).unparted f).arrives (packetOf p c f)).fab.localIn = s.fab.localIn ++ [packetOf p c f] := rfl
  have hchan (q d : Nat) : (((s.accepted p c f).unparted f).arrives (packetOf p c f)).chan q d = (s.accepted p c f).chan q d := rfl
  have houts : (((s.accepted p c f).unparted f).arrives (packetOf p c f)).outs = s.outs := harrive.same .outs (by decide)
  have hid : (((s.accepted p c f).unparted f).arrives (packetOf p c f)).coreId = s.coreId := rfl
  generalize ((s.accepted p c f).unparted f).arrives (packetOf p c f) = v at *
  have hfab : (v.sendAck p c (List.replicate 6 0)).fab = v.fab := rfl
  subst heq
  refine ⟨hlocal, ?_, State.elsewhere_of_index hc fun q d hne => ?_, ?_, ?_⟩
  · rw [State.chan_congr hfab, hchan, State.chan_accepted, if_pos rfl]
  · rw [State.chan_congr hfab, hchan, State.chan_accepted, if_neg hne]
  · rw [State.outs_sendAck, hchan, State.chan_accepted, if_pos rfl, houts, hid]
    rfl
  · exact (kept_sendAck ..).but.step (by decide) (harrive.step (by decide) ((KeptBut.accepted ..).mono (by decide)))

theorem flitIn_claim : Sys2Proof.Claims.FlitIn := by
  intro s p c flit
  dsimp only
  refine ⟨fun hdeaf => Ends.of rfl (if_pos hdeaf) rfl, fun hhears =>
    ⟨fun hcrc => Ends.of rfl rfl (State.flitAccept_crc_spec hhears hcrc),
    fun hcrc hopc => ⟨fun hdown => ?_, fun hup hlseq => ?_, fun hup hlseq hdest hres hsop heop hdrop => ?_,
      fun hup hlseq hdest hres hsop heop hkeep => ?_⟩⟩⟩
  · exact Ends.of rfl ((State.flitAccept_routed hhears hcrc hopc).trans (if_pos hdown)) rfl
  · refine Ends.of rfl ((State.flitAccept_routed hhears hcrc hopc).trans ?_) rfl (u := s.nak p.val c.val)
    rw [if_neg (not_not.2 hup), if_pos hlseq]
  · exact Ends.of rfl (State.flitAccept_next hhears hcrc hopc hup hlseq) (State.dropped_spec hdest hres hsop heop hdrop rfl)
  · exact Ends.of rfl (State.flitAccept_next hhears hcrc hopc hup hlseq) (State.arrives_spec c.isLt hdest hres hsop heop hkeep rfl)

end Sys2Proof.Machine
end

section
/-! SUPPORT. LINK flits that came as flits (R429). -/

namespace Sys2Proof.Machine

variable {s t u : State}

theorem field_setWidth {n : Nat} (x : BitVec n) (lo : Nat) {w v : Nat} (h : v ≤ w) :
    (field x lo w).setWidth v = field x lo v := by
  unfold field
  exact BitVec.setWidth_setWidth_of_le _ h

/-- The payload of a LINK flit. -/
def linkPayload (f : Flit) : BitVec 416 := field f 64 416

theorem State.linkIn_eq (s : State) (p c : Nat) (f : Flit) : s.linkIn p c f = match fieldN (linkPayload f) 0 8 with
    | 1 => s.linkAck p c (linkPayload f)
    | 2 => s.linkNak p c (field (linkPayload f) 16 10)
    | 3 => s.hello p (field (linkPayload f) 16 12)
    | 4 => s.handover p (fieldN (linkPayload f) 8 2) (field (linkPayload f) 16 10) (fieldN (linkPayload f) 32 8 != 0)
    | 5 => s.verdict p (fieldN (linkPayload f) 8 8 != 0)
    | _ => s := rfl

theorem State.exec_link {p : Fin 16} {c : Fin 4} {f : Flit} (hhears : s.hears p.val c.val = true) (hcrc : f.crcOk = true)
    (hopc : f.opc = 15) : exec (.flitAccept p c f) s = (s.linkIn p.val c.val f).done :=
  congrArg State.done (State.flitAccept_link hhears hcrc hopc)

/-- While the channel has not retired, a handover retires it whether it is a request or a reply. -/
theorem State.handover_any {p r : Nat} {last : BitVec 10} (h : (s.chan p r).state ≠ .retired) (a b : Bool) :
    s.handover p r last a = s.handover p r last b := by
  rw [State.handover_eq, State.handover_eq, if_pos h, if_pos h]

theorem State.exec_handover (s : State) (p : Fin 16) (r : Fin 4) (last : BitVec 12) : exec (.handover p r last) s =
    (s.handover p.val r.val (last.setWidth 10) ((s.chan p.val r.val).state == .retired)).done := rfl

theorem State.mem_liveChans {p c : Nat} (hc : c < 4) (h : (s.chan p c).state = .live) : s.liveChans p ≠ [] := by
  refine List.ne_nil_of_mem (a := c) (List.mem_filter.2 ⟨?_, by rw [h]; rfl⟩)
  simp only [List.mem_cons, List.not_mem_nil, or_false]
  omega

theorem State.live_of_hears {p c : Nat} (h : s.hears p c = true) : (s.chan p c).state = .live := by
  unfold State.hears at h
  rw [Bool.and_eq_true] at h
  exact beq_iff_eq.1 h.2

/-- The reply to a request for a channel that has retired here. -/
theorem State.sendHandover_reply {p r : Nat} (h : s.liveChans p ≠ []) : s.sendHandover p r true =
    s.sendLink p ((s.liveChans p).headD 0) ([4#8, BitVec.ofNat 8 r] ++ bytesOf 2 (s.chan p r).rx.toNat ++ [1#8]) := by
  unfold State.sendHandover
  cases hl : s.liveChans p with
  | nil => exact absurd hl h
  | cons c l => rfl

theorem State.handover_request {p r : Nat} {last : BitVec 10} (hlive : s.liveChans p ≠ []) (hup : (s.port p).state = .up)
    (hret : (s.chan p r).state = .retired) :
    s.handover p r last false = (s.sendHandover p r true).handover p r last true := by
  have hfab : (s.sendHandover p r true).fab = s.fab := (kept_sendHandover ..).but.same .fab (by decide)
  have hreply := State.handover_reply (s := s.sendHandover p r true) (p := p) (r := r) (last := last)
    (by rw [State.liveChans_congr (congrArg (·.chans) hfab)]; exact hlive)
    (by rw [State.port_congr (congrArg (·.ports) hfab)]; exact hup) (by rw [State.chan_congr hfab]; exact hret)
  rw [hreply, State.handover_eq, if_neg (by rintro (h | h); exacts [hlive h, h hup]), if_neg (by rw [hret]; decide),
    if_neg (by decide)]

theorem linkFlits_claim : Sys2Proof.Claims.LinkFlits := by
  intro s p c flit r
  dsimp only
  intro hhears hcrc hopc
  rw [State.exec_link hhears hcrc hopc, State.linkIn_eq]
  have hlast : field (linkPayload flit) 16 10 = (field (linkPayload flit) 16 12).setWidth 10 :=
    (field_setWidth (linkPayload flit) 16 (by decide)).symm
  have hlive : s.liveChans p.val ≠ [] := State.mem_liveChans c.isLt (State.live_of_hears hhears)
  generalize hw : linkPayload flit = w at hlast ⊢
  have hw' : field flit 64 416 = w := hw
  rw [hw', hlast]
  refine ⟨fun hkind => ?_, fun hkind => ?_, fun hkind => ?_, fun hkind hr hany => ?_, fun hkind hr hreq hret hup => ?_,
    fun hkind => ?_, fun hkind => ?_⟩
  · rw [hkind]; rfl
  · rw [hkind]; rfl
  · rw [hkind]; rfl
  · rw [hkind, hr, State.exec_handover]
    refine congrArg State.done ?_
    by_cases hret : (s.chan p.val r.val).state = .retired
    · have hne : fieldN w 32 8 ≠ 0 := hany.resolve_right (not_not.2 hret)
      rw [bne_iff_ne.2 hne, beq_iff_eq.2 hret]
      rfl
    · exact State.handover_any hret _ _
  · rw [← State.sendHandover_reply hlive, State.exec_handover, hkind, hr, hreq]
    have hfab : (s.sendHandover p.val r.val true).fab = s.fab := (kept_sendHandover ..).but.same .fab (by decide)
    refine congrArg State.done ((State.handover_request hlive hup hret).trans ?_)
    rw [State.chan_congr hfab, beq_iff_eq.2 hret]
  · rw [hkind]; rfl
  · rcases hkind with hkind | hkind
    · rw [hkind]; rfl
    · obtain ⟨k, hk⟩ := Nat.exists_eq_add_of_le' hkind
      rw [hk]; rfl

end Sys2Proof.Machine
end

section
/-! SUPPORT. The router: a flit that goes on, and one that is dropped (R422, R437 to R440). -/

namespace Sys2Proof.Machine

variable {s t u : State}

/-! The fields of a flit that goes on. -/

/-- The flit as it waits for the next port: VC by the dateline rule, no alternate route, one hop more. -/
def Flit.hopped (f : Flit) (vc : Nat) : Flit := ((f.setF 6 1 vc).setF 7 1 0).setF 52 12 (f.hops + 1)

/-- The flit as the next channel sends it. -/
def Flit.sentAs (f : Flit) (vc : Nat) (tx : BitVec 10) : Flit := ((f.hopped vc).setF 32 10 tx.toNat).seal

theorem Flit.getLsbD_sentAs (f : Flit) (vc : Nat) (tx : BitVec 10) {i : Nat} (h : i < 480) (h6 : i ≠ 6) (h7 : i ≠ 7)
    (hlseq : i < 32 ∨ 42 ≤ i) (hhops : i < 52 ∨ 64 ≤ i) : (f.sentAs vc tx).getLsbD i = f.getLsbD i := by
  unfold Flit.sentAs Flit.hopped
  rw [Flit.getLsbD_seal _ h, Flit.getLsbD_setF _ _ _ _ (by omega), if_neg (by omega), Flit.getLsbD_setF _ _ _ _ (by omega),
    if_neg (by omega), Flit.getLsbD_setF _ _ _ _ (by omega), if_neg (by omega), Flit.getLsbD_setF _ _ _ _ (by omega), if_neg (by omega)]

theorem Flit.fieldN_sentAs (f : Flit) (vc : Nat) (tx : BitVec 10) {lo w : Nat}
    (h : lo + w ≤ 6 ∨ 8 ≤ lo ∧ lo + w ≤ 32 ∨ 42 ≤ lo ∧ lo + w ≤ 52) : fieldN (f.sentAs vc tx) lo w = fieldN f lo w :=
  fieldN_congr_bits fun i _ _ => f.getLsbD_sentAs vc tx (by omega) (by omega) (by omega) (by omega) (by omega)

theorem Flit.payload_congr {f g : Flit} (hlen : g.len = f.len) (h : ∀ i, 64 ≤ i → i < 480 → g.getLsbD i = f.getLsbD i) :
    g.payload = f.payload := by
  unfold Flit.payload
  rw [hlen]
  refine congrArg (List.take f.len) ?_
  unfold bytesOf
  refine List.map_congr_left fun k hk => BitVec.eq_of_getLsbD_eq fun i hi => ?_
  have hk' := List.mem_range.1 hk
  rw [BitVec.getLsbD_ofNat, BitVec.getLsbD_ofNat, Nat.testBit_shiftRight, Nat.testBit_shiftRight, Nat.testBit_shiftRight,
    Nat.testBit_shiftRight]
  exact congrArg _ (h (64 + (8 * k + i)) (by omega) (by omega))

theorem Flit.sentAs_same (f : Flit) (vc : Nat) (tx : BitVec 10) : (f.sentAs vc tx).opc = f.opc ∧ (f.sentAs vc tx).ch = f.ch ∧
    (f.sentAs vc tx).dest = f.dest ∧ (f.sentAs vc tx).src = f.src ∧ (f.sentAs vc tx).payload = f.payload ∧
    (f.sentAs vc tx).sop = f.sop ∧ (f.sentAs vc tx).eop = f.eop :=
  ⟨f.fieldN_sentAs vc tx (by decide), f.fieldN_sentAs vc tx (by decide), field_congr (f.fieldN_sentAs vc tx (by decide)),
    field_congr (f.fieldN_sentAs vc tx (by decide)),
    Flit.payload_congr (f.fieldN_sentAs vc tx (by decide)) fun i hi h =>
      f.getLsbD_sentAs vc tx h (by omega) (by omega) (by omega) (by omega),
    f.getLsbD_sentAs vc tx (by decide) (by decide) (by decide) (by decide) (by decide),
    f.getLsbD_sentAs vc tx (by decide) (by decide) (by decide) (by decide) (by decide)⟩

theorem Flit.sentAs_new (f : Flit) {vc : Nat} (hvc : vc < 2) (tx : BitVec 10) : (f.sentAs vc tx).hops = (f.hops + 1) % 4096 ∧
    (f.sentAs vc tx).lseq = tx ∧ (f.sentAs vc tx).alt = false ∧ (f.sentAs vc tx).crcOk = true ∧ (f.sentAs vc tx).vc = vc := by
  refine ⟨?_, ?_, ?_, Flit.crcOk_seal _, ?_⟩
  · unfold Flit.hops Flit.sentAs Flit.hopped
    rw [Flit.fieldN_seal _ (by decide), Flit.fieldN_setF_ne _ _ (by decide) (by decide), Flit.fieldN_setF _ _ _ _ (by decide)]
    rfl
  · refine BitVec.eq_of_toNat_eq ?_
    unfold Flit.lseq Flit.sentAs
    rw [toNat_field, Flit.fieldN_seal _ (by decide), Flit.fieldN_setF _ _ _ _ (by decide)]
    exact Nat.mod_eq_of_lt tx.isLt
  · unfold Flit.alt Flit.sentAs Flit.hopped
    rw [Flit.getLsbD_seal _ (by decide), Flit.getLsbD_setF _ _ _ _ (by decide), if_neg (by decide),
      Flit.getLsbD_setF _ _ _ _ (by decide), if_neg (by decide), Flit.getLsbD_setF _ _ _ _ (by decide), if_pos (by decide)]
    rfl
  · unfold Flit.vc Flit.sentAs Flit.hopped
    rw [Flit.fieldN_seal _ (by decide), Flit.fieldN_setF_ne _ _ (by decide) (by decide),
      Flit.fieldN_setF_ne _ _ (by decide) (by decide),
      Flit.fieldN_setF_ne _ _ (by decide) (by decide), Flit.fieldN_setF _ _ _ _ (by decide)]
    exact Nat.mod_eq_of_lt hvc

theorem Flit.hopped_same (f : Flit) (vc : Nat) : (f.hopped vc).ch = f.ch ∧ (f.hopped vc).lv < 6 := by
  have hlane : laneOf (f.hopped vc).opc ≤ 2 := by
    unfold laneOf
    split
    · decide
    · split <;> decide
  have hbit : (f.hopped vc).vc < 2 := Nat.mod_lt _ (by decide)
  refine ⟨?_, by unfold Flit.lv; omega⟩
  unfold Flit.ch Flit.hopped
  rw [Flit.fieldN_setF_ne _ _ (by decide) (by decide), Flit.fieldN_setF_ne _ _ (by decide) (by decide),
    Flit.fieldN_setF_ne _ _ (by decide) (by decide)]

/-! The ACK of a flit that goes on or is dropped: its credit returns at once (R431). -/

/-- The ACK of a flit that this core does not keep. -/
def State.ackOnward (s : State) (p c : Nat) (f : Flit) : Output :=
  .flit p c (mkFlit 0xF 0 0 s.coreId true true ([1#8, 0#8] ++ bytesOf 2 f.lseq.toNat ++
    (List.range 6).map fun j => if j = f.lv then 1#8 else 0#8)).seal

theorem State.flitCredits_onward {f : Flit} (h : opcReserved f.opc = true ∨ f.dest ≠ s.coreId) :
    s.flitCredits f = (List.range 6).map fun i => if i = f.lv then 1 else 0 := by
  have hhere : (f.dest == s.coreId && !opcReserved f.opc) = false := by
    rcases h with h | h
    · rw [h]; simp
    · simp [h]
  unfold State.flitCredits
  rw [hhere]
  simp

theorem creditBytes (lv : Nat) : ((List.range 6).map fun i => BitVec.ofNat 8 (listGet 0 ((List.range 6).map fun i =>
    if i = lv then 1 else 0) i)) = (List.range 6).map fun j => if j = lv then 1#8 else 0#8 := by
  have hbyte (i : Nat) : BitVec.ofNat 8 (if i = lv then 1 else 0) = if i = lv then 1#8 else 0#8 := apply_ite ..
  simp only [← hbyte]
  rfl

theorem State.outs_ackOnward {p c : Nat} {f : Flit} (hrx : (t.chan p c).rx = f.lseq) (hid : t.coreId = s.coreId)
    (h : opcReserved f.opc = true ∨ f.dest ≠ s.coreId) :
    (t.sendAck p c (s.flitCredits f)).outs = t.outs ++ [s.ackOnward p c f] := by
  rw [State.outs_sendAck, hrx, hid, State.flitCredits_onward h, creditBytes]
  rfl

/-! Sending one flit (R428, R431). -/

/-- A class may send on its channel now. -/
def State.maySend (s : State) (p cls c lv : Nat) : Prop :=
  s.carrier p cls = some c ∧ (s.chan p c).state = .live ∧ s.classHeld p cls = false ∧ (s.chan p c).replay.length < 256 ∧
    listGet 0 (s.chan p c).credits lv ≠ 0 ∧ s.portUp p = true

/-- Flit `f`, whose LSEQ is set, has left. -/
def State.sentFlit (s : State) (p c : Nat) (f : Flit) : State :=
  (((s.setChan p c { s.chan p c with
      tx := (s.chan p c).tx + 1
      replay := (s.chan p c).replay ++ [f]
      credits := listSet (s.chan p c).credits f.lv (listGet 0 (s.chan p c).credits f.lv - 1) }).countMod (R.fabChFlits p c) 1).emit
    (.flit p c f))

theorem State.txTry_some {p cls c : Nat} {f : Flit} (h : s.maySend p cls c f.lv) : s.txTry p cls f =
    some (s.sentFlit p c (f.setF 32 10 (s.chan p c).tx.toNat).seal) := by
  obtain ⟨hcarrier, hlive, hheld, hroom, hcredit, hup⟩ := h
  unfold State.txTry
  rw [hcarrier]
  dsimp only
  rw [if_neg]
  · rfl
  · rw [hheld, hup]
    simp only [not_or]
    exact ⟨not_not.2 hlive, by decide, Nat.not_le.2 hroom, hcredit, by decide⟩

theorem iterWhile_one {σ : Type} {f : σ → Option σ} {s t : σ} (h : f s = some t) : iterWhile 1 f s = t := by
  unfold iterWhile
  rw [h]
  rfl

/-- With nothing that waits before it, a flit that may be sent leaves at once. -/
theorem State.toPort_sends {p c : Nat} {f : Flit} (hnone : s.waiting p f.ch = []) (h : s.maySend p f.ch c f.lv) :
    s.toPort p f = (((s.setWaiting p f.ch [f]).sentFlit p c (f.setF 32 10 (s.chan p c).tx.toNat).seal).setWaiting p f.ch []) := by
  have hwait : (s.setWaiting p f.ch [f]).waiting p f.ch = [f] := by rw [State.waiting_setWaiting, if_pos rfl]
  have hmay : (s.setWaiting p f.ch [f]).maySend p f.ch c f.lv := h
  unfold State.toPort State.pumpClass
  rw [hnone, List.nil_append, hwait]
  refine iterWhile_one ?_
  rw [hwait]
  exact congrArg (Option.map fun s => s.setWaiting p f.ch []) (State.txTry_some hmay)

/-! What the router decides (R437 to R440). -/

theorem State.forward_out {p c : Nat} {f : Flit} {q : Nat} (hres : opcReserved f.opc = false)
    (hhop : s.hop (some p) f = .out q false) (hhops : f.hops ≠ s.regF R.fabCtrl 0 12) : s.forward (some (p, c)) f =
    (false, s.routeOut q (if s.portDim p = s.portDim q then f.vc else 0) false f) := by
  unfold State.forward
  rw [if_neg (by rw [hres]; decide), show (some (p, c)).map (·.1) = some p from rfl, hhop]
  dsimp only
  rw [if_neg hhops]

theorem State.hop_table {p : Nat} {f : Flit} (hdest : f.dest ≠ s.coreId) (halt : f.alt = false) :
    s.hop (some p) f = s.tableHop f.dest := by
  unfold State.hop
  rw [if_neg hdest]
  dsimp only
  rw [if_neg (by rw [halt]; exact fun h => nomatch h.1)]

theorem State.tableHop_primary {d : BitVec 12} (hvalid : (s.route d).getLsbD 8 = true)
    (hup : s.portUp (fieldN (s.route d) 0 4) = true) : s.tableHop d = .out (fieldN (s.route d) 0 4) false := if_pos ⟨hvalid, hup⟩

theorem State.tableHop_drop {d : BitVec 12} (hpri : (s.route d).getLsbD 8 = false ∨ s.portUp (fieldN (s.route d) 0 4) = false)
    (halt : (s.route d).getLsbD 9 = false ∨ s.portUp (fieldN (s.route d) 4 4) = false) : s.tableHop d = .drop := by
  unfold State.tableHop bit
  dsimp only
  rw [if_neg, if_neg]
  · rintro ⟨h8, hup⟩
    rcases halt with h | h
    · rw [h8] at h; exact nomatch h
    · rw [hup] at h; exact nomatch h
  · rintro ⟨h8, hup⟩
    rcases hpri with h | h
    · rw [h8] at h; exact nomatch h
    · rw [hup] at h; exact nomatch h

theorem State.routeFlit_quiet {inp : Option (Nat × Nat)} {f : Flit} (h : (s.forward inp f).1 = false ∨ laneOf f.opc = 1) :
    s.routeFlit inp f = (s.forward inp f).2 := by
  unfold State.routeFlit
  refine if_neg ?_
  rintro ⟨hdrop, hlane, _⟩
  rcases h with h | h
  · rw [h] at hdrop; exact nomatch hdrop
  · exact hlane h

/-- A flit with a reserved operation, and a response that no port takes, are dropped and counted. -/
theorem State.routeFlit_reserved {inp : Option (Nat × Nat)} {f : Flit} (hres : opcReserved f.opc = true) :
    s.routeFlit inp f = s.count R.fabStray 1 := by
  have hforward : s.forward inp f = (false, s.count R.fabStray 1) := if_pos hres
  rw [State.routeFlit_quiet (.inl (by rw [hforward])), hforward]

theorem State.routeFlit_unroutable {p c : Nat} {f : Flit} (hres : opcReserved f.opc = false) (hlane : laneOf f.opc = 1)
    (hhop : s.hop (some p) f = .drop) : s.routeFlit (some (p, c)) f = s.count R.fabNoroute 1 := by
  have hforward : s.forward (some (p, c)) f = (true, s.count R.fabNoroute 1) := by
    unfold State.forward
    rw [if_neg (by rw [hres]; decide), show (some (p, c)).map (·.1) = some p from rfl, hhop]
  rw [State.routeFlit_quiet (.inr hlane), hforward]

/-! The state in which the router takes a flit. -/

theorem State.accepted_chan (s : State) (p c : Nat) (f : Flit) (q d : Nat) :
    ∃ rx, (s.accepted p c f).chan q d = { s.chan q d with rx := rx } := by
  rw [State.chan_accepted]
  split
  · next he =>
    have hsame : s.chan q d = s.chan p c := by unfold State.chan; rw [he]
    exact ⟨f.lseq, by rw [hsame]⟩
  · exact ⟨(s.chan q d).rx, rfl⟩

theorem State.accepted_maySend {p c q cls k lv : Nat} {f : Flit} (h : s.maySend q cls k lv) :
    (s.accepted p c f).maySend q cls k lv := by
  obtain ⟨hcarrier, hlive, hheld, hroom, hcredit, hup⟩ := h
  obtain ⟨rx, hk⟩ := s.accepted_chan p c f q k
  refine ⟨(State.carrier_congr (fun j _ => ?_) cls).trans hcarrier, by rw [hk]; exact hlive, ?_, by rw [hk]; exact hroom,
    by rw [hk]; exact hcredit, hup⟩
  · obtain ⟨rx, hj⟩ := s.accepted_chan p c f q j
    rw [hj]
  · rw [← hheld]
    unfold State.classHeld
    have hhanding (j : Nat) : ((s.accepted p c f).chan q j).handing = (s.chan q j).handing := by
      obtain ⟨rx, hj⟩ := s.accepted_chan p c f q j
      rw [hj]
    simp only [hhanding]

/-- VC of a flit that leaves by port `q` (R440). -/
def State.onwardVc (s : State) (p q : Nat) (f : Flit) : Nat :=
  if s.portWrap q then 1 else if s.portDim p = s.portDim q then f.vc else 0

theorem State.onwardVc_lt (s : State) (p q : Nat) (f : Flit) : s.onwardVc p q f < 2 := by
  have hvc : f.vc < 2 := Nat.mod_lt _ (by decide)
  unfold State.onwardVc
  split
  · decide
  · split
    · exact hvc
    · decide

theorem State.routeFlit_onward {p c q : Nat} {f : Flit} (hres : opcReserved f.opc = false) (hhop : s.hop (some p) f = .out q false)
    (hhops : f.hops ≠ s.regF R.fabCtrl 0 12) : s.routeFlit (some (p, c)) f = s.toPort q (f.hopped (s.onwardVc p q f)) := by
  have hforward := State.forward_out (c := c) hres hhop hhops
  rw [State.routeFlit_quiet (.inl (by rw [hforward])), hforward]
  rfl

/-- A flit that goes on at once leaves by its class's channel. -/
theorem State.onward_spec {q k vc : Nat} {f : Flit} (hnone : s.waiting q f.ch = [])
    (hmay : s.maySend q f.ch k (f.hopped vc).lv) : (s.toPort q (f.hopped vc)).outs =
      s.outs ++ [.flit q k (f.sentAs vc (s.chan q k).tx)] ∧ (s.toPort q (f.hopped vc)).fab.localIn = s.fab.localIn := by
  have hch := (f.hopped_same vc).1
  rw [← hch] at hnone hmay
  rw [State.toPort_sends hnone hmay]
  exact ⟨rfl, rfl⟩

theorem not_routeRegs_fabCoreId : ¬routeRegs R.fabCoreId := by
  rintro (h | h | h | ⟨q, c, h⟩ | h)
  · exact absurd h (by decide)
  · exact absurd h (by decide)
  · exact absurd h (by decide)
  · unfold R.fabCoreId R.fabChFlits at h; omega
  · exact absurd h (by decide)

/-- The ACK that follows a flit which this core does not keep. -/
theorem State.ack_spec {p c : Nat} {f : Flit} (hlinks : State.links (s.accepted p c f) t)
    (h : opcReserved f.opc = true ∨ f.dest ≠ s.coreId) :
    (t.sendAck p c ((s.accepted p c f).flitCredits f)).outs = t.outs ++ [s.ackOnward p c f] := by
  have hrx : (t.chan p c).rx = f.lseq := by
    refine (congrArg ChanSt.rx (hlinks.chans p c)).trans ?_
    rw [State.chan_accepted, if_pos rfl]
    rfl
  have hid : t.coreId = s.coreId := congrArg (fun x : Word => x.setWidth 12) (hlinks.regs R.fabCoreId not_routeRegs_fabCoreId)
  exact State.outs_ackOnward (s := s.accepted p c f) hrx hid h

theorem State.router_reserved {p c : Nat} {f : Flit} (hres : opcReserved f.opc = true)
    (heq : u = ((s.accepted p c f).routeFlit (some (p, c)) f).sendAck p c ((s.accepted p c f).flitCredits f)) :
    u.reg R.fabStray = satAdd (s.reg R.fabStray) 1 ∧ u.outs = s.outs ++ [s.ackOnward p c f] ∧ u.fab.localIn = s.fab.localIn := by
  have hlinks := State.links_routeFlit (s.accepted p c f) (some (p, c)) f
  have houts := State.ack_spec hlinks (.inl hres)
  rw [State.routeFlit_reserved hres] at heq houts
  subst heq
  exact ⟨((kept_sendAck ..).but.reg (by decide)).trans (State.reg_count_self (s.accepted p c f) R.fabStray 1), houts, rfl⟩

theorem State.router_unroutable {p c : Nat} {f : Flit} (hres : opcReserved f.opc = false) (hlane : laneOf f.opc = 1)
    (hdest : f.dest ≠ s.coreId) (hhop : (s.accepted p c f).hop (some p) f = .drop)
    (heq : u = ((s.accepted p c f).routeFlit (some (p, c)) f).sendAck p c ((s.accepted p c f).flitCredits f)) :
    u.reg R.fabNoroute = satAdd (s.reg R.fabNoroute) 1 ∧ u.outs = s.outs ++ [s.ackOnward p c f] ∧
    u.fab.localIn = s.fab.localIn ∧ KeptBut [.fab, .outs, .fabR] s u := by
  have hlinks := State.links_routeFlit (s.accepted p c f) (some (p, c)) f
  have houts := State.ack_spec hlinks (.inr hdest)
  rw [State.routeFlit_unroutable hres hlane hhop] at heq houts
  subst heq
  exact ⟨((kept_sendAck ..).but.reg (by decide)).trans (State.reg_count_self (s.accepted p c f) R.fabNoroute 1), houts, rfl,
    (kept_sendAck ..).but.step (by decide) ((kept_count ..).but.step (by decide) ((KeptBut.accepted ..).mono (by decide)))⟩

theorem State.router_onward {p c q k : Nat} {f : Flit} (hres : opcReserved f.opc = false) (hdest : f.dest ≠ s.coreId)
    (hhop : (s.accepted p c f).hop (some p) f = .out q false) (hhops : f.hops ≠ s.regF R.fabCtrl 0 12)
    (hnone : s.waiting q f.ch = []) (hmay : s.maySend q f.ch k (f.hopped (s.onwardVc p q f)).lv)
    (heq : u = ((s.accepted p c f).routeFlit (some (p, c)) f).sendAck p c ((s.accepted p c f).flitCredits f)) :
    u.outs = s.outs ++ [.flit q k (f.sentAs (s.onwardVc p q f) (s.chan q k).tx), s.ackOnward p c f] ∧
    u.fab.localIn = s.fab.localIn ∧ KeptBut [.fab, .outs, .fabR] s u := by
  have hlinks := State.links_routeFlit (s.accepted p c f) (some (p, c)) f
  have hack := State.ack_spec hlinks (.inr hdest)
  obtain ⟨rx, hk⟩ := s.accepted_chan p c f q k
  obtain ⟨houts, hlocal⟩ := State.onward_spec (s := s.accepted p c f) (vc := s.onwardVc p q f) hnone (State.accepted_maySend hmay)
  have hroute : (s.accepted p c f).routeFlit (some (p, c)) f = (s.accepted p c f).toPort q (f.hopped (s.onwardVc p q f)) :=
    State.routeFlit_onward hres hhop hhops
  rw [hroute] at heq hack
  rw [houts, hk] at hack
  subst heq
  refine ⟨hack.trans (List.append_assoc ..), hlocal, ?_⟩
  exact (kept_sendAck ..).but.step (by decide) ((kept_toPort ..).but.step (by decide) ((KeptBut.accepted ..).mono (by decide)))

theorem router_claim : Sys2Proof.Claims.Router := by
  intro s p c flit
  dsimp only
  intro hhears hcrc hopc hup hlseq _
  have hexec := State.flitAccept_next (s := s) hhears hcrc hopc hup hlseq
  refine ⟨fun hres => Ends.of rfl hexec (State.router_reserved hres rfl),
    fun hres hdest halt hvalid hupq hhops hnone hlow hlive hheld hroom hcredit => ?_,
    fun hres hlane hdest halt hpri haltp => Ends.of rfl hexec (State.router_unroutable hres hlane hdest
      ((State.hop_table (s := s.accepted p.val c.val flit) hdest halt).trans (State.tableHop_drop hpri haltp)) rfl)⟩
  generalize hq : fieldN (s.route (Flit.dest flit)) 0 4 = q at *
  obtain ⟨k, hk⟩ : ∃ k, s.carrier q (Flit.ch flit) = some k := by
    rw [← Option.isSome_iff_exists]
    refine Option.isSome_iff_ne_none.2 fun hnot => ?_
    rw [hnot] at hlow
    exact absurd hlow (by decide)
  have hgot : (s.carrier q (Flit.ch flit)).getD 4 = k := by rw [hk, Option.getD_some]
  rw [hgot] at hlive hroom hcredit ⊢
  have hmay : s.maySend q (Flit.ch flit) k (Flit.hopped flit (s.onwardVc p.val q flit)).lv :=
    ⟨hk, hlive, hheld, hroom, hcredit _ (Flit.hopped_same flit _).2, hupq⟩
  have hhop : (s.accepted p.val c.val flit).hop (some p.val) flit = .out q false := by
    refine (State.hop_table (s := s.accepted p.val c.val flit) hdest halt).trans ?_
    rw [← hq]
    exact State.tableHop_primary hvalid (hq ▸ hupq)
  obtain ⟨houts, hlocal, hkept⟩ := State.router_onward (c := c.val) hres hdest hhop hhops hnone hmay rfl
  obtain ⟨gopc, gch, gdest, gsrc, gpay, gsop, geop⟩ := Flit.sentAs_same flit (s.onwardVc p.val q flit) (s.chan q k).tx
  obtain ⟨ghops, glseq, galt, gcrc, gvc⟩ := Flit.sentAs_new flit (s.onwardVc_lt p.val q flit) (s.chan q k).tx
  exact Ends.of rfl hexec ⟨⟨_, houts, gopc, gch, gdest, gsrc, gpay, gsop, geop, ghops, glseq, galt, gcrc, gvc⟩, hlocal, hkept⟩

/-- Settles O55: a flit that a channel hears is dropped and asked for again, does what its LINK kind says, reaches the local port
or goes on by its route. -/
theorem flitTaking : Obligations.FlitTaking := ⟨flitIn_claim, linkFlits_claim, router_claim⟩

end Sys2Proof.Machine
end

section
/-! SUPPORT. Notices, RESENDs and UNABLEs that reach this core (R388, R393, R406, R407). -/

namespace Sys2Proof.Machine

variable {s t u : State}

/-! Entries of the bucket table. -/

theorem State.bucket_setBucket (s : State) (b k : Nat) (e : BitVec 1024) :
    (s.setBucket b e).bucket k = if k = b then e else s.bucket k := NMap.get_set ..

theorem State.bucket_setBf (s : State) (b k : Nat) (f : Nat × Nat) (v : Nat) :
    (s.setBf b f v).bucket k = if k = b then entSet (s.bucket b) f v else s.bucket k := NMap.get_set ..

theorem State.bucket_congr (h : t.exch = s.exch) (b : Nat) : t.bucket b = s.bucket b := by
  unfold State.bucket; rw [h]

theorem State.bucketOk_congr {b : Nat} (h : t.bucket b = s.bucket b) : t.bucketOk b = s.bucketOk b := by
  unfold State.bucketOk; rw [h]

theorem entF_entSet_ne (e : BitVec 1024) {k j : Nat × Nat} (v : Nat) (h : j.1 + j.2 ≤ 1024)
    (hne : j.1 + j.2 ≤ k.1 ∨ k.1 + k.2 ≤ j.1) :
    entF (entSet e k v) j = entF e j :=
  entF_congr fun i hi hj => by rw [getLsbD_entSet _ _ _ (by omega), if_neg (by omega)]

/-! A sync operation: answered with an ACK whose SEQ is 0, then acted on (R393). -/

/-- The state that has taken a sync operation and has answered it. -/
def State.syncTaken (s : State) (p : Packet → Bool) (src : BitVec 12) (b : Nat) (gen : BitVec 16) : State :=
  (s.opTaken p).sendPacket src 0xA 0 (exHead b gen.toNat 0 0 8 0)

theorem KeptBut.syncTaken (s : State) (p : Packet → Bool) (src : BitVec 12) (b : Nat) (gen : BitVec 16) :
    KeptBut [.fab, .outs, .trig, .powerR, .exchR, .fabR, .fltR] s (s.syncTaken p src b gen) :=
  (kept_sendPacket ..).but.step (by decide) ((KeptBut.opTaken ..).mono (by decide))

/-- The packet of a sync operation. -/
def isSync (src : BitVec 12) (kind b : Nat) (gen : BitVec 16) (arg : BitVec 8) : Packet → Bool :=
  isPacket 6 src (syncBytes kind b gen.toNat arg)

theorem State.syncIn_ok (h : s.localServes = true) (src : BitVec 12) (kind b : Nat) (gen : BitVec 16) (arg : BitVec 8)
    (f : State → State) : s.syncIn src kind b gen arg f = f (s.syncTaken (isSync src kind b gen arg) src b gen) :=
  State.serveOp_ok h _ _

theorem State.syncIn_not (h : s.localServes = false) (src : BitVec 12) (kind b : Nat) (gen : BitVec 16) (arg : BitVec 8)
    (f : State → State) : s.syncIn src kind b gen arg f = s := State.serveOp_not h _ _

/-! NOTICE (R388). -/

theorem State.noticeIn_ahead {b : Nat} {gen : BitVec 16} (shift : BitVec 8) (hok : s.bucketOk b = true)
    (hlow : 1 ≤ genAhead gen (BitVec.ofNat 16 (s.bf b Ex.gen))) (hhigh : genAhead gen (BitVec.ofNat 16 (s.bf b Ex.gen)) ≤ 0x7FFF) :
    s.noticeIn b gen shift = (s.setBf b Ex.gen gen.toNat).setBf b Ex.shift shift.toNat := if_pos ⟨hok, hlow, hhigh⟩

/-- What a NOTICE that is ahead leaves. -/
theorem State.noticed_spec (s : State) (b : Nat) (gen : BitVec 16) (shift : BitVec 8)
    (heq : u = (s.setBf b Ex.gen gen.toNat).setBf b Ex.shift shift.toNat) :
    u.bf b Ex.gen = gen.toNat ∧ u.bf b Ex.shift = shift.toNat ∧ (∀ i, i < 320 → (u.bucket b).getLsbD i = (s.bucket b).getLsbD i) ∧
    (∀ i, 352 ≤ i → (u.bucket b).getLsbD i = (s.bucket b).getLsbD i) ∧ ∀ k, k ≠ b → u.bucket k = s.bucket k := by
  have hself : u.bucket b = entSet (entSet (s.bucket b) Ex.gen gen.toNat) Ex.shift shift.toNat := by
    rw [heq, State.bucket_setBf, if_pos rfl, State.bucket_setBf, if_pos rfl]
  have hbits (i : Nat) (hi : i < 1024) (hne : i < 320 ∨ 352 ≤ i) : (u.bucket b).getLsbD i = (s.bucket b).getLsbD i := by
    have hshift : Ex.shift = (320, 8) := rfl
    have hgen : Ex.gen = (336, 16) := rfl
    rw [hself, getLsbD_entSet _ _ _ hi, if_neg (by rw [hshift]; omega), getLsbD_entSet _ _ _ hi, if_neg (by rw [hgen]; omega)]
  refine ⟨?_, ?_, fun i hi => hbits i (by omega) (.inl hi), fun i hi => ?_, fun k hk => ?_⟩
  · unfold State.bf
    rw [hself, entF_entSet_ne _ _ (by decide) (by decide), entF_entSet_self _ _ _ (by decide)]
    exact Nat.mod_eq_of_lt gen.isLt
  · unfold State.bf
    rw [hself, entF_entSet_self _ _ _ (by decide)]
    exact Nat.mod_eq_of_lt shift.isLt
  · by_cases h : i < 1024
    · exact hbits i h (.inr hi)
    · rw [BitVec.getLsbD_of_ge _ _ (by omega), BitVec.getLsbD_of_ge _ _ (by omega)]
  · rw [heq, State.bucket_setBf, if_neg hk, State.bucket_setBf, if_neg hk]

theorem State.noticed {b : Nat} {gen : BitVec 16} (shift : BitVec 8) (hok : s.bucketOk b = true)
    (hlow : 1 ≤ genAhead gen (BitVec.ofNat 16 (s.bf b Ex.gen))) (hhigh : genAhead gen (BitVec.ofNat 16 (s.bf b Ex.gen)) ≤ 0x7FFF) :
    (s.noticeIn b gen shift).bf b Ex.gen = gen.toNat ∧ (s.noticeIn b gen shift).bf b Ex.shift = shift.toNat ∧
    (∀ i, i < 320 → ((s.noticeIn b gen shift).bucket b).getLsbD i = (s.bucket b).getLsbD i) ∧
    (∀ i, 352 ≤ i → ((s.noticeIn b gen shift).bucket b).getLsbD i = (s.bucket b).getLsbD i) ∧
    (∀ k, k ≠ b → (s.noticeIn b gen shift).bucket k = s.bucket k) ∧ (s.noticeIn b gen shift).exch.ops = s.exch.ops ∧
    KeptBut [.exch] s (s.noticeIn b gen shift) := by
  rw [State.noticeIn_ahead shift hok hlow hhigh]
  obtain ⟨hgen, hshift, hlo, hhi, hothers⟩ := State.noticed_spec s b gen shift rfl
  exact ⟨hgen, hshift, hlo, hhi, hothers, rfl, (kept_setBf ..).but.step (by decide) (kept_setBf ..).but⟩

/-! RESEND (R407). -/

/-- A RESEND of the source, generation and attempt has come before. -/
def actedKey (src : BitVec 12) (gen : BitVec 16) (att : BitVec 3) : Nat × Nat × Nat := (src.toNat, gen.toNat, att.toNat)

theorem State.resendIn_again {src : BitVec 12} {b : Nat} {gen : BitVec 16} {att : BitVec 3}
    (h : actedKey src gen att ∈ NMap.get [] s.exch.acted b) : s.resendIn src b gen att = s :=
  if_pos (List.contains_iff_mem.2 h)

/-- The RESEND is remembered, and its attempt is in SERVED. -/
def State.resendNoted (s : State) (src : BitVec 12) (b : Nat) (gen : BitVec 16) (att : BitVec 3) : State :=
  let t : State := { s with exch := { s.exch with
    acted := NMap.put s.exch.acted b (actedKey src gen att :: NMap.get [] s.exch.acted b) } }
  if t.bucketOk b then t.setBf b Ex.served att.toNat else t

/-- This core holds retain planes from which it can serve the RESEND. -/
def State.canServe (s : State) (b : Nat) (gen : BitVec 16) : Prop :=
  s.bucketOk b = true ∧ entRetain (s.bucket b) = true ∧ NMap.get 0 s.exch.retGen b = gen.toNat + 1 ∧
    s.localRangeOk (entF (s.bucket b) Ex.retainBase) (retainBytes (s.bucket b)) = true

theorem State.bucket_resendNoted (s : State) (src : BitVec 12) (b : Nat) (gen : BitVec 16) (att : BitVec 3) (k : Nat) :
    (s.resendNoted src b gen att).bucket k =
      if k = b ∧ s.bucketOk b = true then entSet (s.bucket b) Ex.served att.toNat else s.bucket k := by
  have hok (m : NMap (List (Nat × Nat × Nat))) : ({ s with exch := { s.exch with acted := m } } : State).bucketOk b = s.bucketOk b := rfl
  unfold State.resendNoted
  dsimp only
  rw [hok]
  split
  · next h =>
    rw [State.bucket_setBf]
    by_cases hk : k = b
    · rw [if_pos hk, if_pos ⟨hk, h⟩]
      rfl
    · rw [if_neg hk, if_neg fun h => hk h.1]
      rfl
  · next h =>
    rw [if_neg fun hk => h hk.2]
    rfl

theorem KeptBut.resendNoted (s : State) (src : BitVec 12) (b : Nat) (gen : BitVec 16) (att : BitVec 3) :
    KeptBut [.exch] s (s.resendNoted src b gen att) := by
  have hacted : KeptBut [.exch] s { s with exch := { s.exch with
      acted := NMap.put s.exch.acted b (actedKey src gen att :: NMap.get [] s.exch.acted b) } } := KeptBut.upd (KeptBut.refl _ s)
  unfold State.resendNoted
  dsimp only
  split
  · exact (kept_setBf ..).but.step (by decide) hacted
  · exact hacted

/-- What of the exchange a RESEND that is noted leaves. -/
theorem State.exch_resendNoted (s : State) (src : BitVec 12) (b : Nat) (gen : BitVec 16) (att : BitVec 3) :
    (s.resendNoted src b gen att).exch.acted = NMap.put s.exch.acted b (actedKey src gen att :: NMap.get [] s.exch.acted b) ∧
    (s.resendNoted src b gen att).exch.syncs = s.exch.syncs ∧ (s.resendNoted src b gen att).exch.ops = s.exch.ops ∧
    (s.resendNoted src b gen att).exch.retGen = s.exch.retGen := by
  unfold State.resendNoted
  dsimp only
  split
  · exact ⟨rfl, rfl, rfl, rfl⟩
  · exact ⟨rfl, rfl, rfl, rfl⟩

theorem entValid_entSet (e : BitVec 1024) {k : Nat × Nat} (v : Nat) (h : 0 < k.1) : entValid (entSet e k v) = entValid e := by
  unfold entValid
  rw [getLsbD_entSet _ _ _ (by decide), if_neg (by omega)]

theorem State.bucketOk_resendNoted (s : State) (src : BitVec 12) (b : Nat) (gen : BitVec 16) (att : BitVec 3) :
    (s.resendNoted src b gen att).bucketOk b = s.bucketOk b := by
  by_cases h : s.bucketOk b = true
  · unfold State.bucketOk at h ⊢
    rw [State.bucket_resendNoted, if_pos ⟨rfl, h⟩, entValid_entSet _ _ (by decide)]
  · exact State.bucketOk_congr (by rw [State.bucket_resendNoted, if_neg fun hk => h hk.2])

/-- A RESEND that cannot be served is answered UNABLE. -/
theorem State.resendIn_unable {src : BitVec 12} {b : Nat} {gen : BitVec 16} {att : BitVec 3}
    (hnew : actedKey src gen att ∉ NMap.get [] s.exch.acted b) (hnot : ¬s.canServe b gen) :
    s.resendIn src b gen att = (s.resendNoted src b gen att).sendSync src 5 b gen (att.setWidth 8) none := by
  have hok := s.bucketOk_resendNoted src b gen att
  have hret := (s.exch_resendNoted src b gen att).2.2.2
  have hrange := State.localRangeOk_congr ((KeptBut.resendNoted s src b gen att).same .prop (by decide))
  refine (if_neg (by rwa [List.contains_iff_mem])).trans (if_neg ?_)
  refine fun h => hnot ?_
  obtain ⟨h1, h2, h3, h4⟩ := h
  exact ⟨hok ▸ h1, h2, hret ▸ h3, hrange _ _ ▸ h4⟩

/-- A sync operation is remembered until it is answered. -/
def State.syncNoted (s : State) (o : SyncOp) : State := { s with exch := { s.exch with syncs := s.exch.syncs ++ [o] } }

theorem State.sendSync_eq (s : State) (dst : BitVec 12) (kind b : Nat) (gen : BitVec 16) (arg : BitVec 8) (uid : Option Nat) :
    s.sendSync dst kind b gen arg uid =
      (s.syncNoted ⟨dst, kind, b, gen, arg, uid, 0⟩).sendPacket dst 6 0 (syncBytes kind b gen.toNat arg) := rfl

/-- What a RESEND that cannot be served leaves. -/
theorem State.unableSent_spec {src : BitVec 12} {b : Nat} {gen : BitVec 16} {att : BitVec 3}
    (hnew : actedKey src gen att ∉ NMap.get [] s.exch.acted b) (hnot : ¬s.canServe b gen) (heq : u = s.resendIn src b gen att) :
    u.bucket b = (if s.bucketOk b = true then entSet (s.bucket b) Ex.served att.toNat else s.bucket b) ∧
    actedKey src gen att ∈ NMap.get [] u.exch.acted b ∧ (∀ k, k ≠ b → u.bucket k = s.bucket k) ∧
    u.exch.syncs = s.exch.syncs ++ [SyncOp.mk src 5 b gen (att.setWidth 8) none 0] ∧ u.exch.ops = s.exch.ops ∧ u.mem = s.mem := by
  rw [State.resendIn_unable hnew hnot, State.sendSync_eq] at heq
  have hnoted := KeptBut.resendNoted s src b gen att
  obtain ⟨hacted, hsyncs, hops, -⟩ := s.exch_resendNoted src b gen att
  have hbucket := s.bucket_resendNoted src b gen att
  generalize s.resendNoted src b gen att = v at *
  have hsend := (kept_sendPacket (v.syncNoted ⟨src, 5, b, gen, att.setWidth 8, none, 0⟩) src 6 0
    (syncBytes 5 b gen.toNat (att.setWidth 8))).but
  rw [← heq] at hsend
  have hexch : u.exch = (v.syncNoted ⟨src, 5, b, gen, att.setWidth 8, none, 0⟩).exch := hsend.same .exch (by decide)
  have hbuckets (k : Nat) : u.bucket k = v.bucket k := by
    unfold State.bucket
    rw [hexch]
    rfl
  refine ⟨?_, ?_, fun k hk => ?_, ?_, ?_, (hsend.same .mem (by decide)).trans (hnoted.same .mem (by decide))⟩
  · rw [hbuckets, hbucket]
    simp only [true_and]
  · rw [hexch]
    show _ ∈ NMap.get [] v.exch.acted b
    rw [hacted, NMap.get_put, if_pos rfl]
    exact List.mem_cons_self
  · rw [hbuckets, hbucket, if_neg fun h => hk h.1]
  · rw [hexch]
    show v.exch.syncs ++ _ = _
    rw [hsyncs]
  · rw [hexch]
    exact hops

/-! UNABLE (R406). -/

/-- The repair that an UNABLE answers. -/
def State.repairs (s : State) (b : Nat) (gen : BitVec 16) (att : BitVec 3) : Prop :=
  s.bucketOk b = true ∧ entOwned (s.bucket b) = true ∧ entF (s.bucket b) Ex.state = 3 ∧ entF (s.bucket b) Ex.gen = gen.toNat ∧
    entF (s.bucket b) Ex.attempt = att.toNat

theorem State.unableIn_not {b : Nat} {gen : BitVec 16} {att : BitVec 3} (h : ¬s.repairs b gen att) : s.unableIn b gen att = s := by
  refine if_pos ?_
  by_contra hall
  simp only [not_or, Bool.not_eq_false, ne_eq, not_not] at hall
  exact h hall

/-- What the settle in progress does once its bucket has failed. -/
def State.repairLost (s : State) (b : Nat) : State := match s.exch.run with
  | none => s
  | some r => match s.flight r.uid with
    | some f => if f.opcode = 0x52 ∧ f.q.cue.xBucket = b then s.exchHalt r.uid .exchRepairFailed else s
    | none => s

theorem State.unableIn_repairs {b : Nat} {gen : BitVec 16} {att : BitVec 3} (h : s.repairs b gen att) :
    s.unableIn b gen att = (s.setBf b Ex.state exFailed).repairLost b := by
  obtain ⟨hok, howned, hstate, hgen, hatt⟩ := h
  refine if_neg ?_
  rintro (h | h | h | h | h)
  · rw [hok] at h; exact nomatch h
  · rw [howned] at h; exact nomatch h
  · exact h hstate
  · exact h hgen
  · exact h hatt

/-- Without the run, which the halt ends. -/
def State.runless (s : State) : State := { s with exch := { s.exch with run := none } }

theorem State.exchHalt_runless {s : State} {code : Code} (h : code ≠ .localAddr) (uid : Nat) :
    s.exchHalt uid code = s.runless.exchHalt uid code := by
  unfold State.exchHalt
  rw [if_neg h, if_neg h]
  rfl

theorem State.exch_exchHalt {s : State} {code : Code} (h : code ≠ .localAddr) (uid : Nat) :
    (s.exchHalt uid code).exch = s.runless.exch := by
  rw [State.exchHalt_runless h, State.exchHalt_eq_engineHalt rfl, if_neg h]
  exact (kept_engineHalt ..).but.same .exch (by decide)

/-- A repair that is lost changes no entry. -/
theorem State.bucket_repairLost (s : State) (b k : Nat) : (s.repairLost b).bucket k = s.bucket k := by
  unfold State.repairLost
  split
  · rfl
  · split
    · split
      · unfold State.bucket
        rw [State.exch_exchHalt (by decide)]
        rfl
      · rfl
    · rfl

/-- The settle in progress whose repair has failed halts its line. -/
theorem State.repairLost_halts {b : Nat} {f : Flight} (hrun : t.exch.run = some ⟨f.q.uid, 0, false, true⟩)
    (hf : t.flight f.q.uid = some f) (hop : f.q.cue.opcode = 0x52) (hb : f.q.cue.xBucket = b) (hlines : t.lines = s.lines)
    (hboard : t.board = s.board) : s.haltsOn f 0x20 .exchRepairFailed (t.repairLost b) := by
  have heq : t.repairLost b = t.runless.exchHalt f.q.uid .exchRepairFailed := by
    unfold State.repairLost
    rw [hrun]
    dsimp only
    rw [hf]
    exact (if_pos ⟨hop, hb⟩).trans (State.exchHalt_runless (by decide) _)
  rw [heq]
  exact (State.exchHalt_spec (t := t.runless) hf rfl hlines hboard _).1

/-- What an UNABLE for the attempt under repair leaves. -/
theorem State.unableIn_spec {b : Nat} {gen : BitVec 16} {att : BitVec 3} (h : s.repairs b gen att) (heq : u = s.unableIn b gen att) :
    u.bf b Ex.state = 5 ∧ (∀ k, k ≠ b → u.bucket k = s.bucket k) ∧
    ∀ f, s.exch.run = some ⟨f.q.uid, 0, false, true⟩ → s.flight f.q.uid = some f → f.q.cue.opcode = 0x52 →
      f.q.cue.xBucket = b → s.haltsOn f 0x20 .exchRepairFailed u := by
  rw [State.unableIn_repairs h] at heq
  subst heq
  refine ⟨?_, fun k hk => ?_, fun f hrun hf hop hb => State.repairLost_halts (s := s) hrun hf hop hb rfl rfl⟩
  · unfold State.bf
    rw [State.bucket_repairLost, State.bucket_setBf, if_pos rfl, entF_entSet_self _ _ _ (by decide)]
    rfl
  · rw [State.bucket_repairLost, State.bucket_setBf, if_neg hk]

theorem State.haltsOn_congr {f : Flight} {engine : Nat} {code : Code} (hlines : t.lines = s.lines) (hboard : t.board = s.board)
    (h : t.haltsOn f engine code u) : s.haltsOn f engine code u := by
  unfold State.haltsOn State.line at *
  rwa [hlines, hboard] at h

/-! What the answer to a sync operation leaves as it is. -/

theorem State.canServe_congr (hexch : t.exch = s.exch) (hprop : t.prop = s.prop) (b : Nat) (gen : BitVec 16) :
    t.canServe b gen ↔ s.canServe b gen := by
  unfold State.canServe
  rw [State.bucketOk_congr (State.bucket_congr hexch b), State.bucket_congr hexch, hexch, State.localRangeOk_congr hprop]

theorem State.repairs_congr (hexch : t.exch = s.exch) (b : Nat) (gen : BitVec 16) (att : BitVec 3) :
    t.repairs b gen att ↔ s.repairs b gen att := by
  unfold State.repairs
  rw [State.bucketOk_congr (State.bucket_congr hexch b), State.bucket_congr hexch]

theorem State.noticeIn_stale {b : Nat} {gen : BitVec 16} (shift : BitVec 8)
    (h : s.bucketOk b = false ∨ genAhead gen (BitVec.ofNat 16 (s.bf b Ex.gen)) = 0 ∨
      0x7FFF < genAhead gen (BitVec.ofNat 16 (s.bf b Ex.gen))) : s.noticeIn b gen shift = s := by
  refine if_neg ?_
  rintro ⟨hok, hlow, hhigh⟩
  rcases h with h | h | h
  · rw [hok] at h; exact nomatch h
  · omega
  · omega

theorem syncOperations_claim : Sys2Proof.Claims.SyncOperations := by
  intro s src bucket gen shift att
  dsimp only
  refine ⟨fun hdeaf c hc => ?_, fun hserves => ?_⟩
  · rcases hc with rfl | rfl | rfl
    all_goals exact Ends.of rfl (State.syncIn_not hdeaf ..) rfl
  have htaken (p : Packet → Bool) : KeptBut _ s (s.syncTaken p src bucket.toNat gen) := KeptBut.syncTaken s p src bucket.toNat gen
  have hexch (p : Packet → Bool) : (s.syncTaken p src bucket.toNat gen).exch = s.exch := (htaken p).same .exch (by decide)
  have hprop (p : Packet → Bool) : (s.syncTaken p src bucket.toNat gen).prop = s.prop := (htaken p).same .prop (by decide)
  have hmem (p : Packet → Bool) : (s.syncTaken p src bucket.toNat gen).mem = s.mem := (htaken p).same .mem (by decide)
  have hboard (p : Packet → Bool) : (s.syncTaken p src bucket.toNat gen).board = s.board := (htaken p).same .board (by decide)
  have hlines (p : Packet → Bool) : (s.syncTaken p src bucket.toNat gen).lines = s.lines := (htaken p).same .lines (by decide)
  have hflights (p : Packet → Bool) : (s.syncTaken p src bucket.toNat gen).flights = s.flights := (htaken p).same .flights (by decide)
  have hbucket (p : Packet → Bool) (k : Nat) : (s.syncTaken p src bucket.toNat gen).bucket k = s.bucket k :=
    State.bucket_congr (hexch p) k
  have hok (p : Packet → Bool) : (s.syncTaken p src bucket.toNat gen).bucketOk bucket.toNat = s.bucketOk bucket.toNat :=
    State.bucketOk_congr (hbucket p bucket.toNat)
  have hbf (p : Packet → Bool) : (s.syncTaken p src bucket.toNat gen).bf bucket.toNat Ex.gen = entF (s.bucket bucket.toNat) Ex.gen :=
    congrArg (entF · Ex.gen) (hbucket p bucket.toNat)
  refine ⟨fun hvalid hlow hhigh => ?_, fun hstale => ?_, fun hagain => ?_, fun hnew hnot => ?_, fun hours => ?_, fun hnot => ?_⟩
  · refine Ends.of rfl (State.syncIn_ok hserves ..) ?_
    obtain ⟨hgen, hshift, hlo, hhi, hothers, hops, hkept⟩ := State.noticed
      (s := s.syncTaken (isSync src 3 bucket.toNat gen shift) src bucket.toNat gen) shift (by rw [hok]; exact hvalid)
      (by rw [hbf]; exact hlow) (by rw [hbf]; exact hhigh)
    simp only [hbucket, hexch] at hlo hhi hothers hops
    exact ⟨hgen, hshift, hlo, hhi, hothers, hops, (hkept.same .mem (by decide)).trans (hmem _),
      (hkept.same .board (by decide)).trans (hboard _)⟩
  · refine Ends.of rfl ((State.syncIn_ok hserves ..).trans (State.noticeIn_stale shift ?_)) ⟨hexch _, hmem _, hboard _, _, rfl⟩
    rw [hok, hbf]
    exact hstale
  · refine Ends.of rfl ((State.syncIn_ok hserves ..).trans (State.resendIn_again ?_)) ⟨hexch _, hmem _, _, rfl⟩
    rw [hexch]
    exact hagain
  · refine Ends.of rfl (State.syncIn_ok hserves ..) ?_
    obtain ⟨hself, hacted, hothers, hsyncs, hops, hmem'⟩ := State.unableSent_spec
      (s := s.syncTaken (isSync src 4 bucket.toNat gen (att.setWidth 8)) src bucket.toNat gen) (src := src) (b := bucket.toNat)
      (gen := gen) (att := att) (by rw [hexch]; exact hnew)
      (by rw [State.canServe_congr (hexch _) (hprop _)]; exact hnot) rfl
    simp only [hbucket, hok, hexch] at hself hothers hsyncs hops
    exact ⟨hself, hacted, hothers, hsyncs, hops, hmem'.trans (hmem _)⟩
  · refine Ends.of rfl (State.syncIn_ok hserves ..) ?_
    obtain ⟨hstate, hothers, hhalts⟩ := State.unableIn_spec
      (s := s.syncTaken (isSync src 5 bucket.toNat gen (att.setWidth 8)) src bucket.toNat gen) (b := bucket.toNat) (gen := gen) (att := att)
      ((State.repairs_congr (hexch _) ..).2 hours) rfl
    simp only [hbucket, hexch, State.flight_congr (hflights _)] at hothers hhalts
    exact ⟨hstate, hothers, fun f hrun hf hop hb => State.haltsOn_congr (hlines _) (hboard _) (hhalts f hrun hf hop hb)⟩
  · refine Ends.of rfl ((State.syncIn_ok hserves ..).trans (State.unableIn_not ?_)) ⟨hexch _, hmem _, hlines _, _, rfl⟩
    exact fun h => hnot ((State.repairs_congr (hexch _) ..).1 h)

end Sys2Proof.Machine
end

section
/-! SUPPORT. Answers at the sender of exchange operations (R393, R395, R398, R401). -/

namespace Sys2Proof.Machine

variable {s t u : State}

/-! What follows an answer while the engine has nothing to do (R425). -/

/-- No exchange cue is in progress, and no repair is served. -/
def State.exchIdle (s : State) : Prop := s.exch.run = none ∧ s.exch.serves = []

theorem State.sendGroups_of_idle (h : s.exch.run = none) (n : Nat) : s.sendGroups n = s := by
  cases n with
  | zero => rfl
  | succ n =>
    have hstuck : s.sendGroup = .stuck s := by
      unfold State.sendGroup
      rw [h]
    unfold State.sendGroups
    rw [hstuck]

theorem State.exchPump_of_idle (h : s.exchIdle) : s.exchPump = s := by
  obtain ⟨hrun, hserves⟩ := h
  have hclose : s.sendClose = s := by
    unfold State.sendClose
    rw [hrun]
  have hfinish : s.exchFinish = s := by
    unfold State.exchFinish
    rw [hrun]
  have hgroups : s.serveGroups (32769 * s.exch.serves.length) = s := by
    rw [hserves]
    rfl
  unfold State.exchPump
  rw [State.sendGroups_of_idle hrun, hclose]
  exact (congrArg State.exchFinish hgroups).trans hfinish

theorem State.links_pumpPosts (s : State) : State.links s s.pumpPosts := by
  unfold State.pumpPosts
  refine State.links_foldl (fun s r => ?_) _ s
  split
  · exact State.links.refl s
  · split
    · exact State.links.refl s
    · exact State.links.trans (t := { s with fab := { s.fab with rops := s.fab.rops.map (RemoteOp.leaves r.tag) } })
        (State.links_of_regs rfl rfl rfl rfl) (State.links_sendPacket ..)

theorem State.pumpPosts_of_none (h : s.fab.rops = []) : s.pumpPosts = s := by
  unfold State.pumpPosts
  rw [h]
  rfl

theorem State.answered_of_idle (h : s.exchIdle) : s.answered = s.pumpPosts := congrArg State.pumpPosts (State.exchPump_of_idle h)

theorem KeptBut.answered (h : s.exchIdle) : KeptBut [.fab, .outs, .trig, .exchR, .fabR, .fltR] s s.answered := by
  rw [State.answered_of_idle h]
  exact (kept_pumpPosts s).but

theorem State.reg_answered (h : s.exchIdle) {o : Nat} (ho : ¬routeRegs o) : s.answered.reg o = s.reg o := by
  rw [State.answered_of_idle h]
  exact s.links_pumpPosts.regs o ho

theorem not_routeRegs_exch {o : Nat} (hlo : 0x40000 ≤ o) (hhi : o < 0x50000) (h : o ≠ R.exchStray) : ¬routeRegs o := by
  rintro (he | he | he | ⟨q, c, he⟩ | he)
  · unfold R.fabNoroute at he; omega
  · unfold R.fabStray at he; omega
  · exact h he
  · unfold R.fabChFlits at he; omega
  · rw [Field.ofReg_exchR hlo hhi] at he
    exact nomatch he

/-! ACK (R393, R398). -/

/-- The operations that are outstanding are `l`. -/
def State.withOps (s : State) (l : List ExOp) : State := { s with exch := { s.exch with ops := l } }

/-- The sync operations that are outstanding are `l`. -/
def State.withSyncs (s : State) (l : List SyncOp) : State := { s with exch := { s.exch with syncs := l } }

/-- The operations that an answer with a SEQ leaves outstanding. -/
def opsLeft (src : BitVec 12) (ch : Nat) (seq : BitVec 32) (l : List ExOp) : List ExOp := l.filter fun o => !o.is src ch seq

theorem State.exchAckIn_op {src : BitVec 12} {ch : Nat} {seq : BitVec 32} (h : ∃ o ∈ s.exch.ops, o.is src ch seq = true) :
    s.exchAckIn src ch seq = (s.withOps (opsLeft src ch seq s.exch.ops)).answered := if_pos (List.any_eq_true.2 h)

theorem State.exchAckIn_sync {src : BitVec 12} {ch : Nat} {seq : BitVec 32} {i : Nat}
    (h : ¬∃ o ∈ s.exch.ops, o.is src ch seq = true) (hch : ch = 0) (hseq : seq = 0)
    (hi : findIdx? (fun o : SyncOp => o.dst == src) s.exch.syncs = some i) :
    s.exchAckIn src ch seq = (s.withSyncs (listDrop1 s.exch.syncs i)).answered := by
  unfold State.exchAckIn
  rw [if_neg (by rwa [List.any_eq_true]), if_pos ⟨hch, hseq⟩, hi]
  rfl

/-! REFUSED (R401). -/

theorem State.refusedIn_none {src : BitVec 12} {ch : Nat} {seq : BitVec 32} (h : ¬∃ o ∈ s.exch.ops, o.is src ch seq = true) :
    s.refusedIn src ch seq = s := by
  have hnone : s.exch.ops.find? (·.is src ch seq) = none := List.find?_eq_none.2 fun o ho hin => h ⟨o, ho, hin⟩
  unfold State.refusedIn
  rw [hnone]

/-- The part of a group has failed at the sender. -/
def State.sendFails (s : State) (b g : Nat) : State :=
  s.setBucket b (entSet (s.bucket b) Ex.sendFail (entF (s.bucket b) Ex.sendFail ||| 2 ^ entPart (s.bucket b) g))

/-- The record of a part that has failed for good. -/
def partRecord (b : Nat) : FaultRec := FaultRec.plain 1 0x20 Code.exchPartFailed.num b 7

theorem State.partFailed_acc {o : ExOp} {g : Nat} {x : ExSend} (h : o.body = .acc g x) :
    s.partFailed o = ((s.sendFails o.bucket g).count R.exchPartFailed 1).logRecord (partRecord o.bucket) := by
  unfold State.partFailed
  rw [h]
  rfl

theorem State.refusedIn_some {src : BitVec 12} {ch : Nat} {seq : BitVec 32} {o : ExOp}
    (h : s.exch.ops.find? (·.is src ch seq) = some o) (hopen : o.open = true) : s.refusedIn src ch seq =
    ((s.partFailed o).withOps (opsLeft src ch seq (s.partFailed o).exch.ops)).answered := by
  unfold State.refusedIn
  rw [h]
  dsimp only
  rw [if_pos hopen]
  rfl

/-- What a REFUSED for a group leaves. -/
theorem State.refused_acc {src : BitVec 12} {ch : Nat} {seq : BitVec 32} {o : ExOp} {g : Nat} {x : ExSend} (hidle : s.exchIdle)
    (h : s.exch.ops.find? (·.is src ch seq) = some o) (hbody : o.body = .acc g x) (heq : u = s.refusedIn src ch seq) :
    u.exch.ops = opsLeft src ch seq s.exch.ops ∧
    u.bucket o.bucket = entSet (s.bucket o.bucket) Ex.sendFail (s.bf o.bucket Ex.sendFail ||| 2 ^ entPart (s.bucket o.bucket) g) ∧
    (∀ k, k ≠ o.bucket → u.bucket k = s.bucket k) ∧ u.reg R.exchPartFailed = satAdd (s.reg R.exchPartFailed) 1 ∧
    (s.fab.rops = [] → u.reg R.fltWr = s.reg R.fltWr + 1) ∧ u.mem = s.mem := by
  have hopen : o.open = true := by
    unfold ExOp.open
    rw [hbody]
  rw [State.refusedIn_some h hopen, State.partFailed_acc hbody] at heq
  have hcount : ((s.sendFails o.bucket g).count R.exchPartFailed 1).reg R.exchPartFailed = satAdd (s.reg R.exchPartFailed) 1 :=
    State.reg_count_self ..
  have hwr : ((s.sendFails o.bucket g).count R.exchPartFailed 1).reg R.fltWr = s.reg R.fltWr := State.reg_count_ne _ _ (by decide)
  have hexch : ((s.sendFails o.bucket g).count R.exchPartFailed 1).exch = (s.sendFails o.bucket g).exch := rfl
  have hrest : KeptBut [.exch, .exchR] s ((s.sendFails o.bucket g).count R.exchPartFailed 1) :=
    (kept_count ..).but.step (by decide) ((kept_setBucket ..).but.mono (by decide))
  generalize (s.sendFails o.bucket g).count R.exchPartFailed 1 = v at *
  have hlog := (kept_logRecord v (partRecord o.bucket)).but
  have hfault := v.fltWr_logRecord (partRecord o.bucket)
  have hexch' : (v.logRecord (partRecord o.bucket)).exch = (s.sendFails o.bucket g).exch := (hlog.same .exch (by decide)).trans hexch
  have hrops : (v.logRecord (partRecord o.bucket)).fab = s.fab := (hlog.same .fab (by decide)).trans (hrest.same .fab (by decide))
  have hmem : (v.logRecord (partRecord o.bucket)).mem = s.mem := (hlog.same .mem (by decide)).trans (hrest.same .mem (by decide))
  have hparts : (v.logRecord (partRecord o.bucket)).reg R.exchPartFailed = satAdd (s.reg R.exchPartFailed) 1 :=
    (hlog.reg (by decide)).trans hcount
  generalize v.logRecord (partRecord o.bucket) = w at *
  have hwidle : (w.withOps (opsLeft src ch seq w.exch.ops)).exchIdle := by
    unfold State.exchIdle State.withOps
    rw [hexch']
    exact hidle
  have hansw := KeptBut.answered hwidle
  rw [← heq] at hansw
  have hu : u.exch = { (s.sendFails o.bucket g).exch with ops := opsLeft src ch seq s.exch.ops } := by
    rw [hansw.same .exch (by decide)]
    unfold State.withOps
    rw [hexch']
    rfl
  have hbuckets (k : Nat) : u.bucket k = (s.sendFails o.bucket g).bucket k := by
    unfold State.bucket
    rw [hu]
  refine ⟨by rw [hu], ?_, fun k hk => ?_, ?_, fun hnone => ?_, (hansw.same .mem (by decide)).trans hmem⟩
  · rw [hbuckets, State.sendFails, State.bucket_setBucket, if_pos rfl]
    rfl
  · rw [hbuckets, State.sendFails, State.bucket_setBucket, if_neg hk]
  · rw [heq, State.reg_answered hwidle (not_routeRegs_exch (by decide) (by decide) (by decide))]
    exact hparts
  · rw [heq, State.answered_of_idle hwidle, State.pumpPosts_of_none (by rw [← hnone, ← hrops]; rfl)]
    exact hfault.trans (congrArg (· + 1) hwr)

/-! NAK (R395). -/

/-- A NAK with nothing outstanding above it re-sends nothing. -/
theorem State.nakIn_none {src : BitVec 12} {ch : Nat} {last : BitVec 32}
    (h : ∀ o ∈ s.exch.ops, o.dst = src → o.ch = ch → o.seq = last ∨ 2 ^ 31 ≤ (o.seq - last).toNat) :
    s.nakIn src ch last = s.answered := by
  have hnone : (s.exch.ops.filter fun o => o.dst == src && o.ch == ch &&
      decide (1 ≤ (o.seq - last).toNat ∧ (o.seq - last).toNat < 2 ^ 31)) = [] := by
    refine List.filter_eq_nil_iff.2 fun o ho hin => ?_
    simp only [Bool.and_eq_true, beq_iff_eq, decide_eq_true_eq] at hin
    obtain ⟨⟨hdst, hch⟩, hlow, hhigh⟩ := hin
    rcases h o ho hdst hch with rfl | hfar
    · rw [BitVec.sub_self] at hlow
      exact absurd hlow (by decide)
    · omega
  unfold State.nakIn State.goBack
  rw [hnone]
  rfl

theorem State.exch_answered (h : s.exchIdle) : s.answered.exch = s.exch := (KeptBut.answered h).same .exch (by decide)

theorem State.exchIdle_congr (h : t.exch = s.exch) (hidle : s.exchIdle) : t.exchIdle := by
  unfold State.exchIdle
  rwa [h]

/-- Behind an ACK the answered operation is gone. -/
theorem State.ackedOps_spec (hidle : s.exchIdle) (l : List ExOp) (heq : u = (s.withOps l).answered) :
    u.exch.ops = l ∧ u.exch.syncs = s.exch.syncs ∧ u.exch.buckets = s.exch.buckets ∧ u.mem = s.mem ∧ u.flights = s.flights := by
  have hans := KeptBut.answered (s := s.withOps l) hidle
  rw [← heq] at hans
  have hexch : u.exch = (s.withOps l).exch := hans.same .exch (by decide)
  rw [hexch]
  exact ⟨rfl, rfl, rfl, hans.same .mem (by decide), hans.same .flights (by decide)⟩

theorem State.ackedSyncs_spec (hidle : s.exchIdle) (l : List SyncOp) (heq : u = (s.withSyncs l).answered) :
    u.exch.syncs = l ∧ u.exch.ops = s.exch.ops ∧ u.exch.buckets = s.exch.buckets ∧ u.mem = s.mem ∧ u.flights = s.flights := by
  have hans := KeptBut.answered (s := s.withSyncs l) hidle
  rw [← heq] at hans
  have hexch : u.exch = (s.withSyncs l).exch := hans.same .exch (by decide)
  rw [hexch]
  exact ⟨rfl, rfl, rfl, hans.same .mem (by decide), hans.same .flights (by decide)⟩

theorem exchAnswers_claim : Sys2Proof.Claims.ExchAnswers := by
  intro s src ch seq
  dsimp only
  refine ⟨fun hdeaf c hc => ?_, fun hserves hrun hnone => ?_⟩
  · rcases hc with rfl | rfl | rfl
    all_goals exact Ends.of rfl (State.serveOp_not hdeaf ..) rfl
  have htaken (p : Packet → Bool) := KeptBut.opTaken s p
  have hexch (p : Packet → Bool) : (s.opTaken p).exch = s.exch := (htaken p).same .exch (by decide)
  have hmem (p : Packet → Bool) : (s.opTaken p).mem = s.mem := (htaken p).same .mem (by decide)
  have hboard (p : Packet → Bool) : (s.opTaken p).board = s.board := (htaken p).same .board (by decide)
  have hlines (p : Packet → Bool) : (s.opTaken p).lines = s.lines := (htaken p).same .lines (by decide)
  have hflights (p : Packet → Bool) : (s.opTaken p).flights = s.flights := (htaken p).same .flights (by decide)
  have hidle (p : Packet → Bool) : (s.opTaken p).exchIdle := State.exchIdle_congr (hexch p) ⟨hrun, hnone⟩
  refine ⟨fun hhas => ?_, fun hhas hch hseq i hi => ?_, fun o g x hfind hbody => ?_, fun hhas => ?_, fun hfar => ?_⟩
  · refine Ends.of rfl ((State.serveOp_ok hserves ..).trans (State.exchAckIn_op (by rw [hexch]; exact hhas))) ?_
    obtain ⟨hops, hsyncs, hbuckets, hm, hf⟩ := State.ackedOps_spec (hidle (isExRsp 8 src ch.toNat seq.toNat))
      (opsLeft src ch.toNat seq (s.opTaken (isExRsp 8 src ch.toNat seq.toNat)).exch.ops) rfl
    exact ⟨hops.trans (congrArg (fun e : Exch => opsLeft src ch.toNat seq e.ops) (hexch _)), hsyncs.trans (congrArg (·.syncs) (hexch _)),
      hbuckets.trans (congrArg (·.buckets) (hexch _)), hm.trans (hmem _), hf.trans (hflights _)⟩
  · refine Ends.of rfl ((State.serveOp_ok hserves ..).trans (State.exchAckIn_sync (by rw [hexch]; exact hhas)
      (by rw [hch]; rfl) hseq (by rw [hexch]; exact hi))) ?_
    obtain ⟨hsyncs, hops, hbuckets, hm, hf⟩ := State.ackedSyncs_spec (hidle (isExRsp 8 src ch.toNat seq.toNat))
      (listDrop1 (s.opTaken (isExRsp 8 src ch.toNat seq.toNat)).exch.syncs i) rfl
    exact ⟨hsyncs.trans (congrArg (fun e : Exch => listDrop1 e.syncs i) (hexch _)), hops.trans (congrArg (·.ops) (hexch _)),
      hbuckets.trans (congrArg (·.buckets) (hexch _)), hm.trans (hmem _), hf.trans (hflights _)⟩
  · refine Ends.of rfl (State.serveOp_ok hserves ..) ?_
    have hp := htaken (isExRsp 10 src ch.toNat seq.toNat)
    obtain ⟨hops, hself, hothers, hfailed, hfault, hm⟩ := State.refused_acc (hidle (isExRsp 10 src ch.toNat seq.toNat))
      (by rw [hexch]; exact hfind) hbody rfl
    simp only [State.bucket_congr (hexch _), State.bf, hexch, hp.reg (o := R.exchPartFailed) (by decide),
      hp.reg (o := R.fltWr) (by decide), State.rops_opTaken] at hops hself hothers hfailed hfault
    exact ⟨hops, hself, hothers, hfailed, hfault, hm.trans (hmem _)⟩
  · exact Ends.of rfl ((State.serveOp_ok hserves ..).trans (State.refusedIn_none (by rw [hexch]; exact hhas)))
      ⟨hexch _, hmem _, hboard _, hlines _⟩
  · refine Ends.of rfl ((State.serveOp_ok hserves ..).trans (State.nakIn_none (by rw [hexch]; exact hfar))) ?_
    have hans := (KeptBut.answered (hidle (isExRsp 9 src ch.toNat seq.toNat)))
    exact ⟨(hans.same .exch (by decide)).trans (hexch _), (hans.same .mem (by decide)).trans (hmem _),
      (hans.same .board (by decide)).trans (hboard _), (hans.same .lines (by decide)).trans (hlines _)⟩

end Sys2Proof.Machine
end

section
/-! SUPPORT. Operations without an answer (R393, R395, R401), and the clearing of replay entries (R414). -/

namespace Sys2Proof.Machine

variable {s t u : State}

/-! One re-send. -/

/-- Operation `n` takes the place of `o`. -/
def State.putOp (s : State) (o n : ExOp) : State :=
  s.withOps (s.exch.ops.map fun x => if x.is o.dst o.ch o.seq then n else x)

/-- The operation, tried once more. -/
def ExOp.again (o : ExOp) : ExOp := { o with tries := o.tries + 1 }

/-- The SKIP that takes the operation's SEQ. -/
def ExOp.skipped (o : ExOp) : ExOp := { o with body := .skip o.body.group, tries := 0 }

/-- A CLOSE or a SKIP, whose payload needs no page. -/
def ExOp.plain (o : ExOp) : Prop := (∃ n m x y, o.body = .close n m x y) ∨ ∃ g, o.body = .skip g

theorem State.sendOp_plain {o : ExOp} (h : o.plain) : ∃ data, s.sendOp o = s.sendPacket o.dst 2 o.ch data := by
  rcases h with ⟨n, m, x, y, h⟩ | ⟨g, h⟩
  · refine ⟨closeBytes o.bucket o.gen.toNat o.seq.toNat n o.ch m x y, ?_⟩
    unfold State.sendOp State.opPayload
    rw [h]
  · refine ⟨skipBytes o.bucket o.gen.toNat o.seq.toNat g o.ch, ?_⟩
    unfold State.sendOp State.opPayload
    rw [h]

/-- The pages that the payload of an operation is formed from. -/
def State.opPages (s : State) (o : ExOp) : List Nat := match o.body with
  | .acc g x => s.spanPages x.handle (x.span g).1 (x.span g).2
  | _ => []

theorem State.opPages_plain {o : ExOp} (h : o.plain) : s.opPages o = [] := by
  unfold State.opPages
  rcases h with ⟨n, m, x, y, h⟩ | ⟨g, h⟩
  · rw [h]
  · rw [h]

/-- The operation is sent again from pages that are `ready`. -/
def State.sendAgain (o : ExOp) (ready : Bool × State) : State :=
  if ready.1 then (((ready.2.putOp o o.again).count R.exchRetry 1).restart (.exchange o.dst o.ch o.seq)).sendOp o.again else ready.2

theorem State.resendOp_below {o : ExOp} (h : ¬(o.open = true ∧ s.regF R.exchCtrl 8 4 ≤ o.tries)) :
    s.resendOp o = State.sendAgain o (s.pagesReady (s.opPages o)) := by
  refine (if_neg h).trans ?_
  unfold State.opPages
  rfl

theorem State.resendOp_again {o : ExOp} (hplain : o.plain) (h : o.open = false ∨ o.tries < s.regF R.exchCtrl 8 4) :
    s.resendOp o = (((s.putOp o o.again).count R.exchRetry 1).restart (.exchange o.dst o.ch o.seq)).sendOp o.again := by
  rw [State.resendOp_below, State.opPages_plain hplain]
  · rfl
  · rintro ⟨hopen, hlim⟩
    rcases h with h | h
    · rw [h] at hopen; exact nomatch hopen
    · omega

theorem State.resendOp_gives_up {o : ExOp} (hopen : o.open = true) (h : s.regF R.exchCtrl 8 4 ≤ o.tries) :
    s.resendOp o = (((s.partFailed o).putOp o o.skipped).restart (.exchange o.dst o.ch o.seq)).sendOp o.skipped := if_pos ⟨hopen, h⟩

theorem ExOp.is_self (o : ExOp) : o.is o.dst o.ch o.seq = true := by
  unfold ExOp.is
  simp

theorem State.putOp_single {o : ExOp} (h : s.exch.ops = [o]) (n : ExOp) : s.putOp o n = s.withOps [n] := by
  unfold State.putOp
  rw [h, List.map_singleton, if_pos o.is_self]

/-- What an operation that is sent leaves of the registers that count re-sends and failed parts. -/
theorem State.sendOp_spec {o : ExOp} (h : o.plain) (hidle : s.exchIdle) (heq : u = (s.sendOp o).answered) :
    u.exch = s.exch ∧ u.mem = s.mem ∧ ∀ r, ¬routeRegs r → u.reg r = s.reg r := by
  obtain ⟨data, hsend⟩ := s.sendOp_plain h
  rw [hsend] at heq
  have hkept := (kept_sendPacket s o.dst 2 o.ch data).but
  have hlinks := State.links_sendPacket s o.dst 2 o.ch data
  have hexch : (s.sendPacket o.dst 2 o.ch data).exch = s.exch := hkept.same .exch (by decide)
  have hidle' := State.exchIdle_congr hexch hidle
  have hans := KeptBut.answered hidle'
  subst heq
  exact ⟨(hans.same .exch (by decide)).trans hexch, (hans.same .mem (by decide)).trans (hkept.same .mem (by decide)),
    fun r hr => (State.reg_answered hidle' hr).trans (hlinks.regs r hr)⟩

/-- The part of an operation's group is marked where the operation carries one. -/
def State.partMarked (s : State) (o : ExOp) : State := match o.body with
  | .acc g _ => s.sendFails o.bucket g
  | .retained g => s.sendFails o.bucket g
  | _ => s

theorem State.partFailed_eq (s : State) (o : ExOp) :
    s.partFailed o = ((s.partMarked o).count R.exchPartFailed 1).logRecord (partRecord o.bucket) := by
  unfold State.partFailed State.partMarked
  cases o.body <;> rfl

theorem State.partMarked_spec (s : State) (o : ExOp) : (s.partMarked o).exch.ops = s.exch.ops ∧
    (s.partMarked o).exch.run = s.exch.run ∧ (s.partMarked o).exch.serves = s.exch.serves ∧
    (s.partMarked o).reg R.exchPartFailed = s.reg R.exchPartFailed ∧ (s.partMarked o).mem = s.mem := by
  unfold State.partMarked
  cases o.body <;> exact ⟨rfl, rfl, rfl, rfl, rfl⟩

theorem State.bf_sendFails (s : State) (b g : Nat) :
    (s.sendFails b g).bf b Ex.sendFail = s.bf b Ex.sendFail ||| 2 ^ entPart (s.bucket b) g := by
  have hpart : entPart (s.bucket b) g < 64 := by
    unfold entPart
    omega
  have hfail : entF (s.bucket b) Ex.sendFail < 2 ^ 64 := entF_lt _ Ex.sendFail
  unfold State.bf State.sendFails
  rw [State.bucket_setBucket, if_pos rfl, entF_entSet_self _ _ _ (by decide)]
  exact Nat.mod_eq_of_lt (Nat.or_lt_two_pow hfail (Nat.pow_lt_pow_right (by decide) hpart))

/-- What a part that has failed for good leaves. -/
theorem State.partFailed_spec (s : State) (o : ExOp) (heq : u = s.partFailed o) : u.exch.ops = s.exch.ops ∧
    u.exch.run = s.exch.run ∧ u.exch.serves = s.exch.serves ∧ u.reg R.exchPartFailed = satAdd (s.reg R.exchPartFailed) 1 ∧
    u.mem = s.mem ∧ ∀ g x, o.body = .acc g x →
      u.bf o.bucket Ex.sendFail = s.bf o.bucket Ex.sendFail ||| 2 ^ entPart (s.bucket o.bucket) g := by
  rw [State.partFailed_eq] at heq
  obtain ⟨hops, hrun, hserves, hreg, hmem⟩ := s.partMarked_spec o
  have hmarked (g : Nat) (x : ExSend) (h : o.body = .acc g x) : s.partMarked o = s.sendFails o.bucket g := by
    unfold State.partMarked
    rw [h]
  generalize s.partMarked o = v at *
  have hlog := (kept_logRecord (v.count R.exchPartFailed 1) (partRecord o.bucket)).but
  rw [← heq] at hlog
  have hexch : u.exch = v.exch := hlog.same .exch (by decide)
  rw [hexch]
  refine ⟨hops, hrun, hserves, ?_, (hlog.same .mem (by decide)).trans hmem, fun g x h => ?_⟩
  · rw [hlog.reg (by decide), State.reg_count_self, hreg]
  · rw [← State.bf_sendFails, ← hmarked g x h]
    exact congrArg (entF · Ex.sendFail) (State.bucket_congr hexch o.bucket)

/-! Timeouts of operations. -/

theorem State.goBack_single {dst : BitVec 12} {ch : Nat} {o : ExOp} (hops : s.exch.ops = [o]) (hdst : o.dst = dst) (hch : o.ch = ch) :
    s.goBack dst ch (fun _ => true) = (s.resendOp o).answered := by
  unfold State.goBack
  rw [hops, List.filter_cons_of_pos (by simp [hdst, hch])]
  rfl

/-- Below RETRY_LIMIT the operation is sent again, and counted. -/
theorem State.resent_spec {o : ExOp} (hidle : s.exchIdle) (hops : s.exch.ops = [o]) (hplain : o.plain)
    (h : o.open = false ∨ o.tries < s.regF R.exchCtrl 8 4) (heq : u = (s.resendOp o).answered) :
    u.exch = { s.exch with ops := [o.again] } ∧ u.reg R.exchRetry = satAdd (s.reg R.exchRetry) 1 ∧
    u.reg R.exchPartFailed = s.reg R.exchPartFailed ∧ u.mem = s.mem := by
  rw [State.resendOp_again hplain h, State.putOp_single hops] at heq
  have hself : (((s.withOps [o.again]).count R.exchRetry 1).restart (.exchange o.dst o.ch o.seq)).reg R.exchRetry =
    satAdd (s.reg R.exchRetry) 1 := State.reg_count_self (s.withOps [o.again]) R.exchRetry 1
  have hfailed : (((s.withOps [o.again]).count R.exchRetry 1).restart (.exchange o.dst o.ch o.seq)).reg R.exchPartFailed =
    s.reg R.exchPartFailed := State.reg_count_ne (s.withOps [o.again]) 1 (by decide)
  have hexch : (((s.withOps [o.again]).count R.exchRetry 1).restart (.exchange o.dst o.ch o.seq)).exch =
    { s.exch with ops := [o.again] } := rfl
  have hmem : (((s.withOps [o.again]).count R.exchRetry 1).restart (.exchange o.dst o.ch o.seq)).mem = s.mem := rfl
  generalize ((s.withOps [o.again]).count R.exchRetry 1).restart (.exchange o.dst o.ch o.seq) = v at *
  obtain ⟨he, hm, hr⟩ := State.sendOp_spec (o := o.again) hplain (by unfold State.exchIdle; rw [hexch]; exact hidle) heq
  exact ⟨he.trans hexch, (hr _ (not_routeRegs_exch (by decide) (by decide) (by decide))).trans hself,
    (hr _ (not_routeRegs_exch (by decide) (by decide) (by decide))).trans hfailed, hm.trans hmem⟩

/-- At RETRY_LIMIT the part has failed for good, and a SKIP takes the operation's place. -/
theorem State.givenUp_spec {o : ExOp} (hidle : s.exchIdle) (hops : s.exch.ops = [o]) (hopen : o.open = true)
    (h : s.regF R.exchCtrl 8 4 ≤ o.tries) (heq : u = (s.resendOp o).answered) :
    u.exch.ops = [o.skipped] ∧ u.reg R.exchPartFailed = satAdd (s.reg R.exchPartFailed) 1 ∧
    (∀ g x, o.body = .acc g x → u.bf o.bucket Ex.sendFail = s.bf o.bucket Ex.sendFail ||| 2 ^ entPart (s.bucket o.bucket) g) ∧
    u.mem = s.mem := by
  rw [State.resendOp_gives_up hopen h] at heq
  obtain ⟨hpops, hprun, hpserves, hpreg, hpmem, hpbf⟩ := State.partFailed_spec s o rfl
  generalize s.partFailed o = v at *
  rw [State.putOp_single (hpops.trans hops)] at heq
  have hidle' : ((v.withOps [o.skipped]).restart (.exchange o.dst o.ch o.seq)).exchIdle := ⟨hprun.trans hidle.1, hpserves.trans hidle.2⟩
  obtain ⟨he, hm, hr⟩ := State.sendOp_spec (o := o.skipped) (.inr ⟨_, rfl⟩) hidle' heq
  refine ⟨congrArg (·.ops) he, ?_, fun g x hbody => ?_, hm.trans hpmem⟩
  · exact (hr _ (not_routeRegs_exch (by decide) (by decide) (by decide))).trans hpreg
  · rw [← hpbf g x hbody]
    exact congrArg (entF · Ex.sendFail) (State.bucket_congr he o.bucket)

theorem State.exec_exchAckTimeout {dst : BitVec 12} {ch : BitVec 2} (hserves : s.localServes = true) (h : ∃ x ∈ s.exch.ops,
    x.dst = dst ∧ x.ch = ch.toNat ∧ s.lapsed (.exchange x.dst x.ch x.seq) = true) :
    exec (.exchAckTimeout dst ch) s = (s.goBack dst ch.toNat fun _ => true).done := by
  refine congrArg State.done (if_pos ?_)
  obtain ⟨x, hx, hdst, hch, hlapsed⟩ := h
  rw [hserves, Bool.true_and, List.any_eq_true]
  exact ⟨x, hx, by rw [hlapsed, hdst, hch]; simp⟩

theorem State.exec_exchAckTimeout_not {dst : BitVec 12} {ch : BitVec 2} (h : s.localServes = false ∨ ∀ x ∈ s.exch.ops,
    ¬(x.dst = dst ∧ x.ch = ch.toNat ∧ s.lapsed (.exchange x.dst x.ch x.seq) = true)) :
    exec (.exchAckTimeout dst ch) s = s.done := by
  refine congrArg State.done (if_neg ?_)
  rw [Bool.and_eq_true, List.any_eq_true]
  rintro ⟨hserves, x, hx, hdue⟩
  rcases h with h | h
  · rw [h] at hserves; exact nomatch hserves
  · simp only [Bool.and_eq_true, beq_iff_eq] at hdue
    exact h x hx ⟨hdue.1.1, hdue.1.2, hdue.2⟩

/-! Timeouts of sync operations (R393). -/

/-- A sync operation is sent once more. -/
def State.syncAgain (s : State) (i : Nat) (y : SyncOp) : State :=
  ((s.restart y.timer).withSyncs (listSet s.exch.syncs i { y with tries := y.tries + 1 })).count R.exchRetry 1

theorem State.syncTimeout_some {i : Nat} {y : SyncOp} (hy : s.exch.syncs[i]? = some y) : s.syncTimeout i =
    if s.regF R.exchCtrl 8 4 ≤ y.tries ∨ s.lapsed y.timer = false then s
    else (s.syncAgain i y).sendPacket y.dst 6 0 (syncBytes y.kind y.bucket y.gen.toNat y.arg) := by
  unfold State.syncTimeout
  rw [hy]
  rfl

theorem exchTimeouts_claim : Sys2Proof.Claims.ExchTimeouts := by
  intro s dst ch o i y
  dsimp only
  refine ⟨fun hdeaf => ⟨Ends.of (State.exec_exchAckTimeout_not (.inl hdeaf)) rfl rfl,
    Ends.of rfl (if_neg (by rw [hdeaf]; decide)) rfl⟩,
    fun hserves => ⟨fun hnone => ?_, fun hrun hserv hops hdue => ?_, fun hy => ?_⟩⟩
  · exact Ends.of (State.exec_exchAckTimeout_not (.inr hnone)) rfl rfl
  · have hexec := State.exec_exchAckTimeout (dst := dst) (ch := ch) hserves ⟨o, by rw [hops]; exact List.mem_singleton_self o, hdue⟩
    have hback := State.goBack_single hops hdue.1 hdue.2.1
    exact ⟨fun hmore hplain => Ends.of hexec hback (State.resent_spec ⟨hrun, hserv⟩ hops hplain hmore rfl),
      fun hlimit hopen => Ends.of hexec hback (State.givenUp_spec ⟨hrun, hserv⟩ hops hopen hlimit rfl)⟩
  · have hstep := State.syncTimeout_some hy
    refine ⟨fun hmore hlapsed => ?_, fun hno => ?_⟩
    · refine Ends.of rfl ((if_pos hserves).trans (hstep.trans (if_neg ?_))) ⟨?_, _, rfl⟩
      · rintro (h | h)
        · omega
        · rw [hlapsed] at h; exact nomatch h
      · exact (kept_sendPacket ..).but.same .exch (by decide)
    · exact Ends.of rfl ((if_pos hserves).trans (hstep.trans (if_pos hno))) rfl

/-! Clearing of replay entries (R414). -/

/-- The replay entries are `m`. -/
def State.withReplay (s : State) (m : NMap (Option (BitVec 32))) : State := { s with exch := { s.exch with replay := m } }

theorem State.replayWrite_all {v : Word} (h : v.getLsbD 12 = true) : s.replayWrite v = s.withReplay [] := by
  unfold State.replayWrite bit
  dsimp only
  rw [if_pos h]
  rfl

/-- The replay entries without those of a source. -/
def replayWithout (src : BitVec 12) (m : NMap (Option (BitVec 32))) : NMap (Option (BitVec 32)) :=
  (List.range 4).foldl (fun m c => NMap.del m (exKey src c)) m

theorem State.replayWrite_source {v : Word} (h : v.getLsbD 12 = false) :
    s.replayWrite v = s.withReplay (replayWithout (field v 0 12) s.exch.replay) := by
  unfold State.replayWrite bit
  dsimp only
  rw [h]
  rfl

theorem get_replayWithout (src : BitVec 12) (m : NMap (Option (BitVec 32))) (k : Nat) :
    NMap.get none (replayWithout src m) k = if exKey src 0 ≤ k ∧ k < exKey src 4 then none else NMap.get none m k := by
  have hfour : replayWithout src m =
    NMap.del (NMap.del (NMap.del (NMap.del m (exKey src 0)) (exKey src 1)) (exKey src 2)) (exKey src 3) := rfl
  rw [hfour]
  by_cases h : exKey src 0 ≤ k ∧ k < exKey src 4
  · have hk : k = exKey src 0 ∨ k = exKey src 1 ∨ k = exKey src 2 ∨ k = exKey src 3 := by
      unfold exKey at *
      omega
    rw [if_pos h]
    rcases hk with hk | hk | hk | hk
    all_goals simp [NMap.get_del, hk]
  · unfold exKey at *
    rw [if_neg h, NMap.get_del, if_neg (by omega), NMap.get_del, if_neg (by omega), NMap.get_del, if_neg (by omega), NMap.get_del,
      if_neg (by omega)]

theorem KeptBut.withReplay (s : State) (m : NMap (Option (BitVec 32))) :
    KeptBut [.exch] s (s.withReplay m) := KeptBut.upd (KeptBut.refl _ s)

theorem replayClear_claim : Sys2Proof.Claims.ReplayClear := by
  intro s v hserve
  dsimp only
  have honly (m : NMap (Option (BitVec 32))) : Only [.exch] [R.sesIdleTicks] s (s.hostTouch.withReplay m) :=
    ((Only.refl ..).hostTouch (by simp)).kept (KeptBut.withReplay ..) (by decide) (by decide)
  have hall {v : Word} (h : v.getLsbD 12 = true) :
      s.hostWrite R.exchReplayClear (fun s => s.replayWrite v) = s.hostTouch.withReplay [] :=
    (State.hostWrite_ok _ hserve).trans (State.replayWrite_all h)
  refine ⟨fun hone => ?_, fun hevery => Ends.of rfl (hall hevery) ⟨rfl, honly []⟩,
    Ends.of rfl (hall (by decide)) ⟨rfl, honly []⟩⟩
  refine Ends.of rfl ((State.hostWrite_ok _ hserve).trans (State.replayWrite_source hone))
    ⟨fun c hc => ?_, fun src c hc hne => ?_, rfl, rfl, honly _⟩
  · refine (get_replayWithout ..).trans (if_pos ?_)
    unfold exKey
    omega
  · refine (get_replayWithout ..).trans (if_neg ?_)
    have hne' : src.toNat ≠ (field v 0 12 : BitVec 12).toNat := fun h => hne (BitVec.eq_of_toNat_eq h)
    unfold exKey
    omega

/-- Settles O54: sync operations are acknowledged and acted on once; an answer ends its operation; what has no answer is sent
again up to RETRY_LIMIT; a host write clears replay entries. -/
theorem exchangeReplies : Obligations.ExchangeReplies :=
  ⟨syncOperations_claim, exchAnswers_claim, exchTimeouts_claim, replayClear_claim⟩

end Sys2Proof.Machine
end

section
/-! SUPPORT. The owner's sequence rule (R399), and operations that a bucket refuses or skips (R400, R401). -/

namespace Sys2Proof.Machine

variable {s t u : State}

/-! Answers (R394): one response flit. -/

theorem KeptBut.exchAnswer (s : State) (dst : BitVec 12) (kind ch b gen seq : Nat) :
    KeptBut [.fab, .outs, .exchR, .fabR] s (s.exchAnswer dst kind ch b gen seq) := by
  have hlen : (exHead b gen seq 0 kind ch).length ≤ 52 := by
    unfold exHead
    simp
  unfold State.exchAnswer
  rw [State.sendPacket_short s dst 0xA ch hlen, State.routeFlit_quiet]
  · exact (kept_forward ..).but
  · refine .inr ?_
    rw [fieldN_mkFlit_opc (opc := 0xA) (by decide)]
    rfl

theorem State.reg_exchAnswer (s : State) (dst : BitVec 12) (kind ch b gen seq : Nat) {o : Nat} (h : ¬routeRegs o) :
    (s.exchAnswer dst kind ch b gen seq).reg o = s.reg o := (State.links_sendPacket ..).regs o h

/-! The sequence rule (R399). -/

/-- The operation with `seq` is the next of its stream, or the stream's first. -/
def State.inTurn (s : State) (src : BitVec 12) (ch : Nat) (seq : BitVec 32) : Prop :=
  ∀ last, NMap.get none s.exch.replay (exKey src ch) = some last → seq = last + 1

/-- The stream's last operation is `seq`. -/
def State.lastSeq (s : State) (src : BitVec 12) (ch : Nat) (seq : BitVec 32) : State :=
  s.withReplay (NMap.set none s.exch.replay (exKey src ch) (some seq))

/-- What is answered to an operation that has been applied, or refused. -/
def answerKind (applied : Bool) : Nat := if applied then 8 else 10

theorem State.sequenced_inTurn {src : BitVec 12} {ch b gen : Nat} {seq : BitVec 32} (h : s.inTurn src ch seq)
    (f : State → Bool × State) : s.sequenced src ch seq b gen f =
      ((f s).2.lastSeq src ch seq).exchAnswer src (answerKind (f s).1) ch b gen seq.toNat := by
  unfold State.sequenced
  dsimp only
  split
  · rfl
  · next last hlast =>
    rw [if_pos (h last hlast)]
    rfl

theorem State.sequenced_dup {src : BitVec 12} {ch b gen : Nat} {seq last : BitVec 32}
    (hlast : NMap.get none s.exch.replay (exKey src ch) = some last) (h : (last - seq).toNat < 2 ^ 31) (f : State → Bool × State) :
    s.sequenced src ch seq b gen f = (s.count R.exchDup 1).exchAnswer src 8 ch b gen seq.toNat := by
  have hne : seq ≠ last + 1 := by
    rintro rfl
    bv_omega
  unfold State.sequenced
  dsimp only
  rw [hlast]
  dsimp only
  rw [if_neg hne, if_pos h]

theorem State.sequenced_nak {src : BitVec 12} {ch b gen : Nat} {seq last : BitVec 32}
    (hlast : NMap.get none s.exch.replay (exKey src ch) = some last) (hne : seq ≠ last + 1) (h : 2 ^ 31 ≤ (last - seq).toNat)
    (f : State → Bool × State) :
    s.sequenced src ch seq b gen f = (s.count R.exchNak 1).exchAnswer src 9 ch b gen last.toNat := by
  unfold State.sequenced
  dsimp only
  rw [hlast]
  dsimp only
  rw [if_neg hne, if_neg (Nat.not_lt.2 h)]

/-- The operations of the owner's stream. -/
theorem exec_sequenced {s : State} {src : BitVec 12} {bucket gen : BitVec 16} {seq : BitVec 32} {group : BitVec 16} {n : BitVec 7}
    {n20 : BitVec 20} {ch : BitVec 2} {pmask : BitVec 64} {data : List (BitVec 32)} {mx : BitVec 32} {sum fail : BitVec 64} {c : Instr}
    (hc : c = .accumulate src bucket gen seq group n ch pmask data ∨ c = .close src bucket gen seq n20 ch mx sum fail ∨
      c = .skip src bucket gen seq group ch) :
    ∃ (p : Packet → Bool) (f : State → Bool × State), exec c s =
      (s.serveOp p fun s => s.sequenced src ch.toNat seq bucket.toNat gen.toNat f).done := by
  rcases hc with rfl | rfl | rfl
  · exact ⟨_, _, rfl⟩
  · exact ⟨_, _, rfl⟩
  · exact ⟨_, _, rfl⟩

/-- An operation out of turn changes nothing of the bucket table, the replay table, memory or the callboard. -/
theorem State.outOfTurn_spec {src : BitVec 12} {p : Packet → Bool} {kind ch b gen seq o : Nat} (ho : Field.ofReg o = .exchR)
    (hroute : ¬routeRegs o) (heq : u = ((s.opTaken p).count o 1).exchAnswer src kind ch b gen seq) :
    u.exch = s.exch ∧ u.mem = s.mem ∧ u.board = s.board ∧ u.reg o = satAdd (s.reg o) 1 ∧
    (∃ t : State, u = t.sendPacket src 0xA ch (exHead b gen seq 0 kind ch)) ∧
    KeptBut [.fab, .outs, .trig, .powerR, .fabR, .exchR, .fltR] s u := by
  have htaken := KeptBut.opTaken s p
  have hcount : KeptBut [.exchR] (s.opTaken p) ((s.opTaken p).count o 1) := ho ▸ (kept_count ..).but
  have hans := KeptBut.exchAnswer ((s.opTaken p).count o 1) src kind ch b gen seq
  rw [← heq] at hans
  have hkept : KeptBut [.fab, .outs, .trig, .powerR, .fabR, .exchR, .fltR] s u :=
    hans.step (by decide) (hcount.step (by decide) (htaken.mono (by decide)))
  refine ⟨hkept.same .exch (by decide), hkept.same .mem (by decide), hkept.same .board (by decide), ?_, ⟨_, heq⟩, hkept⟩
  rw [heq, State.reg_exchAnswer _ _ _ _ _ _ _ hroute, State.reg_count_self, htaken.reg (by rw [ho]; decide)]

theorem ownerStream_claim : Sys2Proof.Claims.OwnerStream := by
  intro s src bucket gen seq group n n20 ch pmask data mx sum fail c hc
  dsimp only
  obtain ⟨p, f, hexec⟩ := exec_sequenced (s := s) hc
  have hreplay : (s.opTaken p).exch = s.exch := (KeptBut.opTaken s p).same .exch (by decide)
  refine ⟨fun hdeaf => Ends.of hexec (State.serveOp_not hdeaf ..) rfl, fun last hserves hlast hold => ?_,
    fun last hserves hlast hne hnew => ?_⟩
  · refine Ends.of hexec ((State.serveOp_ok hserves ..).trans (State.sequenced_dup (by rw [hreplay]; exact hlast) hold f)) ?_
    exact State.outOfTurn_spec rfl (not_routeRegs_exch (by decide) (by decide) (by decide)) rfl
  · refine Ends.of hexec ((State.serveOp_ok hserves ..).trans (State.sequenced_nak (by rw [hreplay]; exact hlast) hne hnew f)) ?_
    exact State.outOfTurn_spec rfl (not_routeRegs_exch (by decide) (by decide) (by decide)) rfl

/-! An operation in its turn. -/

/-- What follows an operation in its turn, which has left `s`: its SEQ is the stream's last, and it is answered. -/
def State.concluded (s : State) (src : BitVec 12) (ch b gen : Nat) (seq : BitVec 32) (applied : Bool) : State :=
  (s.lastSeq src ch seq).exchAnswer src (answerKind applied) ch b gen seq.toNat

theorem State.concluded_spec (s : State) (src : BitVec 12) (ch b gen : Nat) (seq : BitVec 32) (applied : Bool)
    (heq : u = s.concluded src ch b gen seq applied) :
    (∀ k, u.bucket k = s.bucket k) ∧ u.exch.buckets = s.exch.buckets ∧ NMap.get none u.exch.replay (exKey src ch) = some seq ∧
    (∃ t : State, u = t.sendPacket src 0xA ch (exHead b gen seq.toNat 0 (answerKind applied) ch)) ∧
    KeptBut [.exch, .fab, .outs, .exchR, .fabR] s u ∧ ∀ o, ¬routeRegs o → u.reg o = s.reg o := by
  have hans := KeptBut.exchAnswer (s.lastSeq src ch seq) src (answerKind applied) ch b gen seq.toNat
  have hregs {o : Nat} (ho : ¬routeRegs o) := State.reg_exchAnswer (s.lastSeq src ch seq) src (answerKind applied) ch b gen seq.toNat ho
  rw [State.concluded] at heq
  rw [← heq] at hans
  have hexch : u.exch = (s.lastSeq src ch seq).exch := hans.same .exch (by decide)
  refine ⟨fun k => State.bucket_congr hexch k, congrArg (·.buckets) hexch, ?_, ⟨_, heq⟩,
    hans.step (by decide) ((KeptBut.withReplay ..).mono (by decide)), fun o ho => ?_⟩
  · rw [hexch]
    exact NMap.get_set_self none s.exch.replay (exKey src ch) (some seq)
  · rw [heq]
    exact hregs ho

theorem State.serve_inTurn {src : BitVec 12} {p : Packet → Bool} {ch b gen : Nat} {seq : BitVec 32} (hserves : s.localServes = true)
    (hturn : s.inTurn src ch seq) (f : State → Bool × State) : s.serveOp p (fun s => s.sequenced src ch seq b gen f) =
      (f (s.opTaken p)).2.concluded src ch b gen seq (f (s.opTaken p)).1 := by
  have hreplay : (s.opTaken p).exch = s.exch := (KeptBut.opTaken s p).same .exch (by decide)
  refine (State.serveOp_ok hserves ..).trans (State.sequenced_inTurn ?_ f)
  unfold State.inTurn
  rw [hreplay]
  exact hturn

/-! An operation that the bucket does not take (R400). -/

/-- The mark that a refused operation leaves of its group. -/
def State.refuseMark (s : State) (b : Nat) (group : Option Nat) : State := match group with
  | some g => if s.bucketLive b then s.failPart b g else s
  | none => s

theorem State.refuseOp_eq (s : State) (b : Nat) (group : Option Nat) :
    s.refuseOp b group = (false, ((s.refuseMark b group).count R.exchRefused 1).exchStray b) := rfl

theorem State.bucket_refuseMark (s : State) (b : Nat) (group : Option Nat) (k : Nat) : (s.refuseMark b group).bucket k =
    match group with
    | some g => if k = b ∧ s.bucketLive b = true then
        entSet (s.bucket b) Ex.failMask (entF (s.bucket b) Ex.failMask ||| 2 ^ entPart (s.bucket b) g) else s.bucket k
    | none => s.bucket k := by
  unfold State.refuseMark
  cases group with
  | none => rfl
  | some g =>
    dsimp only
    split
    · next h =>
      refine (State.bucket_setBucket ..).trans ?_
      by_cases hk : k = b
      · rw [if_pos hk, if_pos ⟨hk, h⟩]
      · rw [if_neg hk, if_neg fun hb => hk hb.1]
    · next h => rw [if_neg fun hb => h hb.2]

theorem KeptBut.refuseMark (s : State) (b : Nat) (group : Option Nat) : KeptBut [.exch] s (s.refuseMark b group) := by
  unfold State.refuseMark
  cases group with
  | none => exact KeptBut.refl _ s
  | some g =>
    dsimp only
    split
    · exact (kept_failPart ..).but
    · exact KeptBut.refl _ s

/-- A refused operation counts and leaves a record. -/
theorem State.refuseOp_spec (s : State) (b : Nat) (group : Option Nat) (heq : u = (s.refuseOp b group).2) :
    (∀ k, u.bucket k = (s.refuseMark b group).bucket k) ∧ u.reg R.exchRefused = satAdd (s.reg R.exchRefused) 1 ∧
    u.reg R.fltWr = s.reg R.fltWr + 1 ∧ KeptBut [.exch, .trig, .exchR, .fltR] s u := by
  rw [State.refuseOp_eq] at heq
  have hmark := KeptBut.refuseMark s b group
  generalize s.refuseMark b group = v at *
  have hlog := (kept_logRecord ((v.count R.exchRefused 1).count R.exchStray 1) (FaultRec.plain 1 0x20 Code.exchStray.num b 7)).but
  have hfault := State.fltWr_logRecord ((v.count R.exchRefused 1).count R.exchStray 1) (FaultRec.plain 1 0x20 Code.exchStray.num b 7)
  have hu : u = ((v.count R.exchRefused 1).count R.exchStray 1).logRecord (FaultRec.plain 1 0x20 Code.exchStray.num b 7) := heq
  rw [← hu] at hlog hfault
  have hexch : u.exch = v.exch := hlog.same .exch (by decide)
  refine ⟨fun k => State.bucket_congr hexch k, ?_, ?_, ?_⟩
  · rw [hlog.reg (by decide), State.reg_count_ne _ _ (by decide), State.reg_count_self, hmark.reg (by decide)]
  · rw [hfault, State.reg_count_ne _ _ (by decide), State.reg_count_ne _ _ (by decide), hmark.reg (by decide)]
  · exact hlog.step (by decide) ((kept_count ..).but.step (by decide) ((kept_count ..).but.step (by decide) (hmark.mono (by decide))))

end Sys2Proof.Machine
end

section
/-! SUPPORT. What an operation in its turn adds to its bucket (R400, R401). -/

namespace Sys2Proof.Machine

variable {s t u : State}

/-! Which operations a bucket takes depends on its entry. -/

theorem State.bucketLive_congr {b : Nat} (h : t.bucket b = s.bucket b) : t.bucketLive b = s.bucketLive b := by
  unfold State.bucketLive State.bf
  rw [State.bucketOk_congr h, h]

theorem State.takesOp_congr {b : Nat} (h : t.bucket b = s.bucket b) (gen : BitVec 16) : t.takesOp b gen = s.takesOp b gen := by
  unfold State.takesOp State.bf
  rw [State.bucketLive_congr h, h]

theorem State.takesClose_congr {b : Nat} (h : t.bucket b = s.bucket b) (gen : BitVec 16) (n : Nat) :
    t.takesClose b gen n = s.takesClose b gen n := by
  unfold State.takesClose State.bf
  rw [State.takesOp_congr h, State.bucketOk_congr h, h]

/-! SKIP, and operations refused (R400, R401). -/

/-- The entry with the part of a group marked as failed. -/
def failedEntry (e : BitVec 1024) (g : Nat) : BitVec 1024 := entSet e Ex.failMask (entF e Ex.failMask ||| 2 ^ entPart e g)

theorem State.skipOp_takes {b g : Nat} {gen : BitVec 16} (h : s.takesOp b gen = true) : s.skipOp b gen g = (true, s.failPart b g) :=
  if_pos h

theorem State.skipOp_refuses {b g : Nat} {gen : BitVec 16} (h : s.takesOp b gen = false) :
    s.skipOp b gen g = s.refuseOp b (some g) := if_neg (by rw [h]; decide)

theorem State.accumulateOp_refuses {b g n : Nat} {gen : BitVec 16} (h : s.takesOp b gen = false) (pmask : BitVec 64)
    (data : List (BitVec 32)) : s.accumulateOp b gen g n pmask data = s.refuseOp b (some g) := if_pos h

theorem State.closeOp_refuses {b n : Nat} {gen : BitVec 16} (h : s.takesClose b gen n = false) (mx : BitVec 32) (sum fail : BitVec 64) :
    s.closeOp b gen n mx sum fail = s.refuseOp b none := if_pos h

/-- What a SKIP that the bucket takes leaves. -/
theorem State.skipped_spec {src : BitVec 12} {p : Packet → Bool} {b g ch : Nat} {gen : BitVec 16} {seq : BitVec 32}
    (htakes : s.takesOp b gen = true) (heq : u = ((s.opTaken p).skipOp b gen g).2.concluded src ch b gen.toNat seq
      ((s.opTaken p).skipOp b gen g).1) :
    u.bucket b = failedEntry (s.bucket b) g ∧ (∀ j, j ≠ b → u.bucket j = s.bucket j) ∧
    NMap.get none u.exch.replay (exKey src ch) = some seq ∧
    (∃ t : State, u = t.sendPacket src 0xA ch (exHead b gen.toNat seq.toNat 0 8 ch)) ∧ u.mem = s.mem := by
  have hkept := KeptBut.opTaken s p
  have hbucket (k : Nat) : (s.opTaken p).bucket k = s.bucket k := State.bucket_congr (hkept.same .exch (by decide)) k
  rw [State.skipOp_takes (by rw [State.takesOp_congr (hbucket b)]; exact htakes)] at heq
  obtain ⟨hbuckets, _, hreplay, hans, hrest, _⟩ := State.concluded_spec _ src ch b gen.toNat seq true heq
  have hset (k : Nat) : ((s.opTaken p).failPart b g).bucket k = if k = b then failedEntry ((s.opTaken p).bucket b) g
    else (s.opTaken p).bucket k := State.bucket_setBucket ..
  refine ⟨?_, fun j hj => ?_, hreplay, hans, (hrest.same .mem (by decide)).trans (hkept.same .mem (by decide))⟩
  · rw [hbuckets, hset, if_pos rfl, hbucket]
  · rw [hbuckets, hset, if_neg hj, hbucket]

/-- What an operation that is refused leaves. -/
theorem State.refused_spec {src : BitVec 12} {p : Packet → Bool} {b ch gen : Nat} {group : Option Nat} {seq : BitVec 32}
    (heq : u = ((s.opTaken p).refuseOp b group).2.concluded src ch b gen seq ((s.opTaken p).refuseOp b group).1) :
    u.mem = s.mem ∧ u.board = s.board ∧ NMap.get none u.exch.replay (exKey src ch) = some seq ∧
    (∀ k, u.bucket k = (s.refuseMark b group).bucket k) ∧ u.reg R.exchRefused = satAdd (s.reg R.exchRefused) 1 ∧
    u.reg R.fltWr = s.reg R.fltWr + 1 ∧ ∃ t : State, u = t.sendPacket src 0xA ch (exHead b gen seq.toNat 0 10 ch) := by
  have hkept := KeptBut.opTaken s p
  have hbucket (k : Nat) : (s.opTaken p).bucket k = s.bucket k := State.bucket_congr (hkept.same .exch (by decide)) k
  have hmark (k : Nat) : ((s.opTaken p).refuseMark b group).bucket k = (s.refuseMark b group).bucket k := by
    rw [State.bucket_refuseMark, State.bucket_refuseMark, State.bucketLive_congr (hbucket b), hbucket, hbucket]
  obtain ⟨hrbucket, hrefused, hfault, hrkept⟩ := State.refuseOp_spec (s.opTaken p) b group rfl
  obtain ⟨hbuckets, _, hreplay, hans, hrest, hregs⟩ := State.concluded_spec ((s.opTaken p).refuseOp b group).2 src ch b gen
    seq false heq
  refine ⟨(hrest.same .mem (by decide)).trans ((hrkept.same .mem (by decide)).trans (hkept.same .mem (by decide))),
    (hrest.same .board (by decide)).trans ((hrkept.same .board (by decide)).trans (hkept.same .board (by decide))), hreplay,
    fun k => ?_, ?_, ?_, hans⟩
  · rw [hbuckets, hrbucket, hmark]
  · rw [hregs _ (not_routeRegs_exch (by decide) (by decide) (by decide)), hrefused, hkept.reg (by decide)]
  · rw [hrest.reg (by decide), hfault, hkept.reg (by decide)]

end Sys2Proof.Machine
end

section
/-! SUPPORT. Accumulator words: what an ACCUMULATE adds (R400). -/

namespace Sys2Proof.Machine

variable {s t u : State}

/-! Numbers and their bytes. -/

theorem bytesOf_succ (n x : Nat) : bytesOf (n + 1) x = BitVec.ofNat 8 x :: bytesOf n (x >>> 8) := by
  unfold bytesOf
  rw [List.range_succ_eq_map, List.map_cons, List.map_map, Nat.mul_zero, Nat.shiftRight_zero]
  refine congrArg _ (List.map_congr_left fun i _ => ?_)
  show BitVec.ofNat 8 (x >>> (8 * (i + 1))) = BitVec.ofNat 8 (x >>> 8 >>> (8 * i))
  rw [← Nat.shiftRight_add, Nat.mul_add, Nat.add_comm (8 * i)]

theorem numOf_bytesOf (n x : Nat) : numOf (bytesOf n x) = x % 256 ^ n := by
  induction n generalizing x with
  | zero =>
    rw [Nat.pow_zero, Nat.mod_one]
    rfl
  | succ n ih =>
    rw [bytesOf_succ, numOf_cons, ih, BitVec.toNat_ofNat, Nat.shiftRight_eq_div_pow]
    show x % 256 + 256 * (x / 256 % 256 ^ n) = x % 256 ^ (n + 1)
    rw [Nat.pow_succ, Nat.mul_comm (256 ^ n), Nat.mod_mul]

/-- Bytes are determined by their number. -/
theorem eq_of_numOf_eq {a b : List Byte} (hlen : a.length = b.length) (h : numOf a = numOf b) : a = b := by
  induction a generalizing b with
  | nil => exact (List.length_eq_zero_iff.1 hlen.symm).symm
  | cons x a ih =>
    match b, hlen with
    | y :: b, hlen =>
      rw [numOf_cons, numOf_cons] at h
      have hx : x.toNat < 256 := x.isLt
      have hy : y.toNat < 256 := y.isLt
      rw [BitVec.eq_of_toNat_eq (x := x) (y := y) (by omega), ih (Nat.succ.inj hlen) (by omega)]

/-! Words of 64 bits in memory. -/

/-- The 64 bits at an address, as a read delivers them. -/
def State.word64 (s : State) (a : Nat) : BitVec 64 := BitVec.ofNat 64 (numOf ((List.range 8).map fun j => s.mem.read (a + j)))

/-- The bytes of words, in order. -/
def wordBytes (l : List (BitVec 64)) : List Byte := (l.map fun v => bytesOf 8 v.toNat).flatten

theorem length_wordBytes (l : List (BitVec 64)) : (wordBytes l).length = 8 * l.length := by
  unfold wordBytes
  induction l with
  | nil => rfl
  | cons v l ih =>
    rw [List.map_cons, List.flatten_cons, List.length_append, ih, length_bytesOf, List.length_cons]
    omega

theorem take_drop_wordBytes {l : List (BitVec 64)} {k : Nat} {v : BitVec 64} (h : l[k]? = some v) :
    ((wordBytes l).drop (8 * k)).take 8 = bytesOf 8 v.toNat := by
  induction l generalizing k with
  | nil => exact nomatch h
  | cons x l ih =>
    have hcons : wordBytes (x :: l) = bytesOf 8 x.toNat ++ wordBytes l := rfl
    have hlen : (bytesOf 8 x.toNat).length = 8 := length_bytesOf ..
    rw [hcons]
    cases k with
    | zero =>
      rw [List.getElem?_cons_zero, Option.some.injEq] at h
      rw [← h, Nat.mul_zero, List.drop_zero, List.take_left' hlen]
    | succ k =>
      rw [List.getElem?_cons_succ] at h
      rw [Nat.mul_add, Nat.mul_one, Nat.add_comm (8 * k), ← List.drop_drop, List.drop_left' hlen]
      exact ih h

/-- A word of memory that reads as eight bytes of a list. -/
theorem State.word64_of_read {a off : Nat} {l : List Byte} {v : BitVec 64}
    (hread : ∀ j, j < 8 → s.mem.read (a + j) = listGet 0 l (off + j))
    (h : (l.drop off).take 8 = bytesOf 8 v.toNat) : s.word64 a = v := by
  have hlist : ((List.range 8).map fun j => s.mem.read (a + j)) = bytesOf 8 v.toNat := by
    refine List.map_congr_left fun j hj => ?_
    have hj' := List.mem_range.1 hj
    rw [hread j hj', ← listGet_take_drop l off 8 j hj', h, bytesOf_get 8 _ j hj']
  unfold State.word64
  rw [hlist, numOf_bytesOf, Nat.mod_eq_of_lt (show v.toNat < 256 ^ 8 from v.isLt), BitVec.ofNat_toNat, BitVec.setWidth_eq]

/-- Bytes of memory are those of its words. -/
theorem State.read_of_word64 {a a' j : Nat} (h : t.word64 a = s.word64 a') (hj : j < 8) : t.mem.read (a + j) = s.mem.read (a' + j) := by
  have hlen (v : State) (a : Nat) : ((List.range 8).map fun j => v.mem.read (a + j)).length = 8 := by simp
  have hlt (v : State) (a : Nat) : numOf ((List.range 8).map fun j => v.mem.read (a + j)) < 2 ^ 64 := by
    have hn := numOf_lt ((List.range 8).map fun j => v.mem.read (a + j))
    rwa [hlen] at hn
  have hnum := congrArg BitVec.toNat h
  unfold State.word64 at hnum
  rw [BitVec.toNat_ofNat, BitVec.toNat_ofNat, Nat.mod_eq_of_lt (hlt t a), Nat.mod_eq_of_lt (hlt s a')] at hnum
  have hlist := eq_of_numOf_eq ((hlen t a).trans (hlen s a').symm) hnum
  exact List.map_inj_left.1 hlist j (List.mem_range.2 hj)

theorem State.word64_congr {a : Nat} (h : ∀ j, j < 8 → t.mem.read (a + j) = s.mem.read (a + j)) : t.word64 a = s.word64 a := by
  unfold State.word64
  rw [List.map_congr_left fun j hj => h j (List.mem_range.1 hj)]

/-! One word of the accumulator. -/

/-- An element of the accumulator with what is added to it, and whether it saturates. -/
def accNew (v : BitVec 64) (x : Option Int) : Int × Bool := match x with
  | some n => (max (-rawTop) (min rawTop (v.toInt + n)), decide (v.toInt + n < -rawTop ∨ rawTop < v.toInt + n))
  | none => (v.toInt, false)

/-- The elements of a word at `a` with what is added to them. -/
def State.accWord (s : State) (a : Nat) (l : List Int) : List (BitVec 64) :=
  (List.range 8).map fun i => BitVec.ofInt 64 (accNew (s.word64 (a + 8 * i)) l[i]?).1

theorem State.readWord_clean {w : Nat} (h : s.mem.flaw w = []) : s.readWord w = (((s.mem.readPure w).1, false), s) := by
  unfold State.readWord
  dsimp only
  rw [Mem.clean_of_flaw h]

theorem map_listGet_range (l : List Byte) : (List.range l.length).map (listGet 0 l) = l := by
  refine List.ext_getElem (by simp) fun i h _ => ?_
  have hi : i < l.length := by simpa using h
  simp [listGet, hi]

/-- The element of a word that has been read. -/
theorem State.word64_of_readPure {a i : Nat} (ha : a % 64 = 0) (hi : i < 8) :
    BitVec.ofNat 64 (numOf (((s.mem.readPure (a / 64)).1.drop (8 * i)).take 8)) = s.word64 (a + 8 * i) := by
  have hlen : (((s.mem.readPure (a / 64)).1.drop (8 * i)).take 8).length = 8 := by
    rw [List.length_take, List.length_drop, Mem.length_readPure]
    omega
  unfold State.word64
  refine congrArg _ (congrArg _ ?_)
  rw [← map_listGet_range (((s.mem.readPure (a / 64)).1.drop (8 * i)).take 8), hlen]
  refine List.map_congr_left fun j hj => ?_
  have hj' := List.mem_range.1 hj
  rw [listGet_take_drop _ _ _ _ hj', Mem.read_of_readPure _ _ _ (by omega)]
  exact congrArg _ (by omega)

/-- The elements of the word that ADD reads, with what is added to them. -/
def addedVals (bytes : List Byte) (l : List Int) : List (Int × Bool) :=
  (List.range 8).map fun i => accNew (BitVec.ofNat 64 (numOf ((bytes.drop (8 * i)).take 8))) l[i]?

theorem State.addWord_eq (s : State) (a : Nat) (l : List Int) : s.addWord a l = ((s.readWord (a / 64)).1.2,
    ((s.readWord (a / 64)).2.count R.exchSat ((addedVals (s.readWord (a / 64)).1.1 l).countP (·.2))).landWord a
      ((addedVals (s.readWord (a / 64)).1.1 l).map fun v => bytesOf 8 (BitVec.ofInt 64 v.1).toNat).flatten (s.readWord (a / 64)).1.2) := by
  unfold State.addWord addedVals accNew
  rfl

theorem State.addedVals_eq {a : Nat} (ha : a % 64 = 0) (l : List Int) : addedVals (s.mem.readPure (a / 64)).1 l =
    (List.range 8).map fun i => accNew (s.word64 (a + 8 * i)) l[i]? :=
  List.map_congr_left fun i hi => by rw [State.word64_of_readPure ha (List.mem_range.1 hi)]

theorem State.addWord_clean {a : Nat} (ha : a % 64 = 0) (h : s.mem.flaw (a / 64) = []) (l : List Int) :
    ∃ n, s.addWord a l = (false, (s.count R.exchSat n).landWord a (wordBytes (s.accWord a l)) false) := by
  refine ⟨(addedVals (s.mem.readPure (a / 64)).1 l).countP (·.2), ?_⟩
  rw [State.addWord_eq, State.readWord_clean h]
  dsimp only
  rw [State.addedVals_eq ha]
  unfold wordBytes State.accWord
  rw [List.map_map, List.map_map]
  rfl

/-- A whole word that lands leaves itself without a flaw and the others as they are. -/
theorem State.flaw_landWord (s : State) {a : Nat} {bytes : List Byte} (ha : a % 64 = 0) (hlen : bytes.length = 64) (w : Nat) :
    (s.landWord a bytes false).mem.flaw w = if w = a / 64 then [] else s.mem.flaw w := by
  unfold State.landWord
  extract_lets v full
  have hfull : full = true := by simp [full, ha, hlen]
  rw [if_pos hfull]
  dsimp only
  rw [if_pos hfull, State.mem_markWritten]
  refine (Mem.flaw_setFlaw (s.mem.setBytes a bytes) v w []).trans ?_
  rw [Mem.flaw_setBytes]

/-- What a word of an ACCUMULATE leaves. -/
theorem State.addWord_spec {a : Nat} (ha : a % 64 = 0) (h : s.mem.flaw (a / 64) = []) (l : List Int) :
    (s.addWord a l).1 = false ∧
    (∀ i, i < 8 → (s.addWord a l).2.word64 (a + 8 * i) = BitVec.ofInt 64 (accNew (s.word64 (a + 8 * i)) l[i]?).1) ∧
    (∀ x, x < a ∨ a + 64 ≤ x → (s.addWord a l).2.mem.read x = s.mem.read x) ∧
    (∀ w, (s.addWord a l).2.mem.flaw w = if w = a / 64 then [] else s.mem.flaw w) ∧
    KeptBut [.mem, .prop, .exchR] s (s.addWord a l).2 := by
  obtain ⟨n, hadd⟩ := State.addWord_clean ha h l
  have hlen : (wordBytes (s.accWord a l)).length = 64 := by
    rw [length_wordBytes]
    unfold State.accWord
    simp
  have hread (x : Nat) := State.read_landWord (s.count R.exchSat n) a (wordBytes (s.accWord a l)) false (by rw [hlen]; omega) x
  rw [hadd]
  refine ⟨rfl, fun i hi => ?_, fun x hx => ?_, fun w => ?_, ?_⟩
  · refine State.word64_of_read (off := 8 * i) (l := wordBytes (s.accWord a l)) (fun j hj => ?_) (take_drop_wordBytes ?_)
    · rw [hread, if_pos (by rw [hlen]; omega)]
      exact congrArg _ (by omega)
    · unfold State.accWord
      rw [List.getElem?_map, List.getElem?_range hi]
      rfl
  · rw [hread, if_neg (by rw [hlen]; omega)]
    rfl
  · exact State.flaw_landWord _ ha hlen w
  · exact (State.only_landWord _ _ _ ha hlen).step (by decide) ((kept_count ..).but.mono (by decide))

/-! The words of an ACCUMULATE, one after the other. -/

/-- Word `i` of an ACCUMULATE, with the poison found so far. -/
def addStep (a : Nat) (l : List Int) (i : Nat) (st : Nat × State) : Nat × State :=
  let q := st.2.addWord (a + 64 * i) ((l.drop (8 * i)).take 8)
  (if q.1 then st.1 ||| (0xFF <<< (8 * i)) else st.1, q.2)

/-- What the first `k` words of an ACCUMULATE leave. -/
structure State.added (s : State) (a : Nat) (l : List Int) (k : Nat) (st : Nat × State) : Prop where
  clean : st.1 = 0
  words : ∀ i, i < 8 * k → st.2.word64 (a + 8 * i) = BitVec.ofInt 64 (accNew (s.word64 (a + 8 * i)) l[i]?).1
  others : ∀ x, x < a ∨ a + 64 * k ≤ x → st.2.mem.read x = s.mem.read x
  flaws : ∀ w, a / 64 ≤ w → w < a / 64 + 8 → st.2.mem.flaw w = []
  kept : KeptBut [.mem, .prop, .exchR] s st.2

theorem State.added_step {a : Nat} {l : List Int} {k : Nat} {st : Nat × State} (ha : a % 64 = 0) (hk : k < 8)
    (h : s.added a l k st) : s.added a l (k + 1) (addStep a l k st) := by
  have hflaw : st.2.mem.flaw ((a + 64 * k) / 64) = [] := h.flaws _ (by omega) (by omega)
  obtain ⟨hpoison, hwords, hothers, hflaws, hkept⟩ := State.addWord_spec (s := st.2) (a := a + 64 * k) (by omega) hflaw
    ((l.drop (8 * k)).take 8)
  have heq : addStep a l k st = (st.1, (st.2.addWord (a + 64 * k) ((l.drop (8 * k)).take 8)).2) := by
    unfold addStep
    dsimp only
    rw [hpoison]
    rfl
  rw [heq]
  refine ⟨h.clean, fun i hi => ?_, fun x hx => ?_, fun w hlo hhi => ?_, hkept.step (by decide) h.kept⟩
  · dsimp only
    by_cases hold : i < 8 * k
    · rw [← h.words i hold]
      exact State.word64_congr fun j hj => hothers _ (.inl (by omega))
    · have hat : a + 8 * i = a + 64 * k + 8 * (i - 8 * k) := by omega
      rw [hat, hwords _ (by omega), List.getElem?_take, if_pos (by omega), List.getElem?_drop, Nat.add_sub_cancel' (by omega)]
      exact congrArg (fun v => BitVec.ofInt 64 (accNew v l[i]?).1) (State.word64_congr fun j hj => h.others _ (.inr (by omega)))
  · rw [hothers x (by omega), h.others x (by omega)]
  · rw [hflaws]
    split
    · rfl
    · exact h.flaws w hlo hhi

theorem State.added_iter {a : Nat} {l : List Int} (ha : a % 64 = 0) (hflaws : ∀ w, a / 64 ≤ w → w < a / 64 + 8 → s.mem.flaw w = [])
    {k : Nat} (hk : k ≤ 8) : s.added a l k (iter k (addStep a l) (0, s)) := by
  induction k with
  | zero => exact ⟨rfl, fun i hi => absurd hi (by omega), fun _ _ => rfl, hflaws, KeptBut.refl _ s⟩
  | succ k ih =>
    rw [iter_succ]
    exact State.added_step ha (by omega) (ih (by omega))

end Sys2Proof.Machine
end

section
/-! SUPPORT. An ACCUMULATE that the bucket takes (R400). -/

namespace Sys2Proof.Machine

variable {s t u : State}

/-- The contributions of an ACCUMULATE of `n` elements. -/
def contribs (n : Nat) (data : List (BitVec 32)) : List Int := (data.take n).map (·.toInt)

theorem contribs_get {n i : Nat} {data : List (BitVec 32)} (hi : i < n) (hn : n ≤ data.length) :
    (contribs n data)[i]? = some ((data[i]?).getD 0).toInt := by
  unfold contribs
  rw [List.getElem?_map, List.getElem?_take, if_pos hi, List.getElem?_eq_getElem (by omega)]
  rfl

theorem contribs_none {n i : Nat} (data : List (BitVec 32)) (hi : n ≤ i) : (contribs n data)[i]? = none := by
  unfold contribs
  rw [List.getElem?_map, List.getElem?_take, if_neg (by omega)]
  rfl

/-- An element that takes a contribution is the saturated sum. -/
theorem toInt_accNew_some (v : BitVec 64) (n : Int) :
    (BitVec.ofInt 64 (accNew v (some n)).1).toInt = max (-rawTop) (min rawTop (v.toInt + n)) := by
  have htop : rawTop = 2 ^ 63 - 2 := rfl
  refine BitVec.toInt_ofInt_eq_self (by decide) ?_ ?_
  · show -2 ^ 63 ≤ max (-rawTop) (min rawTop (v.toInt + n))
    omega
  · show max (-rawTop) (min rawTop (v.toInt + n)) < 2 ^ 63
    omega

theorem ofInt_accNew_none (v : BitVec 64) : BitVec.ofInt 64 (accNew v none).1 = v := BitVec.ofInt_toInt

/-- What the words of an ACCUMULATE leave of each element and of every other byte. -/
theorem State.added_elements {a n : Nat} {data : List (BitVec 32)} {st : Nat × State} (hn : n ≤ data.length)
    (h : s.added a (contribs n data) ((n + 7) / 8) st) :
    (∀ i, i < n → (st.2.word64 (a + 8 * i)).toInt =
      max (-rawTop) (min rawTop ((s.word64 (a + 8 * i)).toInt + ((data[i]?).getD 0).toInt))) ∧
    (∀ i, n ≤ i → st.2.word64 (a + 8 * i) = s.word64 (a + 8 * i)) ∧
    ∀ x, x < a ∨ a + 8 * n ≤ x → st.2.mem.read x = s.mem.read x := by
  have hrest (i : Nat) (hi : n ≤ i) : st.2.word64 (a + 8 * i) = s.word64 (a + 8 * i) := by
    by_cases hin : i < 8 * ((n + 7) / 8)
    · rw [h.words i hin, contribs_none data hi, ofInt_accNew_none]
    · exact State.word64_congr fun j _ => h.others _ (.inr (by omega))
  refine ⟨fun i hi => ?_, hrest, fun x hx => ?_⟩
  · rw [h.words i (by omega), contribs_get hi hn, toInt_accNew_some]
  · by_cases hout : x < a ∨ a + 64 * ((n + 7) / 8) ≤ x
    · exact h.others x hout
    · have hread := State.read_of_word64 (j := (x - a) % 8) (hrest ((x - a) / 8) (by omega)) (by omega)
      rwa [show a + 8 * ((x - a) / 8) + (x - a) % 8 = x by omega] at hread

/-- The state behind the words of an ACCUMULATE without poison. -/
def State.sums (s : State) (a n : Nat) (data : List (BitVec 32)) : Nat × State := iter ((n + 7) / 8) (addStep a (contribs n data)) (0, s)

/-- The poison found in the words enters the poison plane at `p`. -/
def State.planeMarked (r : Nat × State) (p : Nat) : State :=
  if r.1 = 0 then r.2
  else
    let old := r.2.readWord (p / 64)
    let was := numOf ((old.1.1.drop (p % 64)).take 8)
    old.2.landWord p (bytesOf 8 (was ||| r.1)) old.1.2

/-- An ACCUMULATE that the bucket takes, of words that read clean. -/
theorem State.accumulateOp_takes {b g n : Nat} {gen : BitVec 16} {data : List (BitVec 32)} (htakes : s.takesOp b gen = true)
    (hfatal : s.fatal = false) (hacc : s.addersOk (entF (s.bucket b) Ex.accBase + 512 * g) (8 * n) = true)
    (hplane : s.remoteWriteOk (entF (s.bucket b) Ex.pmaskBase + 8 * g) = true)
    (hclean : (s.sums (entF (s.bucket b) Ex.accBase + 512 * g) n data).1 = 0) : s.accumulateOp b gen g n 0 data =
      (true, (s.sums (entF (s.bucket b) Ex.accBase + 512 * g) n data).2.count64 R.exchAppliedLo R.exchAppliedHi 1) := by
  refine (if_neg (by rw [htakes]; decide)).trans ((if_neg ?_).trans ?_)
  · rw [hfatal, hacc, hplane]
    simp
  · have hzero : (0#64).toNat % 2 ^ n = 0 := by simp
    show (true, (State.planeMarked (iter ((n + 7) / 8) (addStep _ (contribs n data)) ((0#64).toNat % 2 ^ n, s)) _).count64 _ _ 1) = _
    rw [hzero]
    exact congrArg (fun t : State => (true, t.count64 R.exchAppliedLo R.exchAppliedHi 1)) (if_pos hclean)

/-- What an ACCUMULATE that the bucket takes leaves, in a state `s` that has taken its packet. -/
theorem State.accumulated_spec {src : BitVec 12} {b g n ch : Nat} {gen : BitVec 16} {seq : BitVec 32} {data : List (BitVec 32)}
    (htakes : s.takesOp b gen = true) (hfatal : s.fatal = false) (ha : (entF (s.bucket b) Ex.accBase + 512 * g) % 64 = 0)
    (hn : n ≤ 64) (hdata : n ≤ data.length) (hacc : s.addersOk (entF (s.bucket b) Ex.accBase + 512 * g) (8 * n) = true)
    (hplane : s.remoteWriteOk (entF (s.bucket b) Ex.pmaskBase + 8 * g) = true)
    (hflaws : ∀ w, (entF (s.bucket b) Ex.accBase + 512 * g) / 64 ≤ w →
      w < (entF (s.bucket b) Ex.accBase + 512 * g) / 64 + 8 → s.mem.flaw w = [])
    (heq : u = (s.accumulateOp b gen g n 0 data).2.concluded src ch b gen.toNat seq (s.accumulateOp b gen g n 0 data).1) :
    (∀ i, i < n → (u.word64 (entF (s.bucket b) Ex.accBase + 512 * g + 8 * i)).toInt = max (-rawTop) (min rawTop
      ((s.word64 (entF (s.bucket b) Ex.accBase + 512 * g + 8 * i)).toInt + ((data[i]?).getD 0).toInt))) ∧
    (∀ i, n ≤ i → u.word64 (entF (s.bucket b) Ex.accBase + 512 * g + 8 * i) =
      s.word64 (entF (s.bucket b) Ex.accBase + 512 * g + 8 * i)) ∧
    (∀ x, x < entF (s.bucket b) Ex.accBase + 512 * g ∨ entF (s.bucket b) Ex.accBase + 512 * g + 8 * n ≤ x →
      u.mem.read x = s.mem.read x) ∧
    NMap.get none u.exch.replay (exKey src ch) = some seq ∧ u.exch.buckets = s.exch.buckets ∧
    ∃ t : State, u = t.sendPacket src 0xA ch (exHead b gen.toNat seq.toNat 0 8 ch) := by
  have hadded := State.added_iter (l := contribs n data) ha hflaws (k := (n + 7) / 8) (by omega)
  rw [State.accumulateOp_takes htakes hfatal hacc hplane hadded.clean] at heq
  obtain ⟨helems, hsame, hreads⟩ := State.added_elements hdata hadded
  have hkept := hadded.kept
  unfold State.sums at heq
  generalize entF (s.bucket b) Ex.accBase + 512 * g = a at *
  generalize iter ((n + 7) / 8) (addStep a (contribs n data)) (0, s) = r at *
  obtain ⟨_, hbuckets, hreplay, hans, hrest, _⟩ := State.concluded_spec (r.2.count64 R.exchAppliedLo R.exchAppliedHi 1) src
    ch b gen.toNat seq true heq
  have hmem : u.mem = r.2.mem := hrest.same .mem (by decide)
  have hexch : r.2.exch = s.exch := hkept.same .exch (by decide)
  have hword (x : Nat) : u.word64 x = r.2.word64 x := State.word64_congr fun j _ => by rw [hmem]
  refine ⟨fun i hi => ?_, fun i hi => ?_, fun x hx => ?_, hreplay, hbuckets.trans ?_, hans⟩
  · rw [hword, helems i hi]
  · rw [hword, hsame i hi]
  · rw [hmem, hreads x hx]
  · exact congrArg (·.buckets) hexch

theorem State.addersOk_congr (h : t.prop = s.prop) (a n : Nat) : t.addersOk a n = s.addersOk a n := by
  unfold State.addersOk
  rw [State.remoteWriteOk_congr h, State.remoteWriteOk_congr h]

/-- The group of which an operation leaves a mark when it is refused; a CLOSE has none. -/
theorem State.refused_bucket (s : State) (b g : Nat) {c x : Instr} (hne : c ≠ x) : (s.refuseMark b (some g)).bucket b =
    if s.bucketLive b = true ∧ c ≠ x then failedEntry (s.bucket b) g else s.bucket b := by
  rw [State.bucket_refuseMark]
  by_cases h : s.bucketLive b = true
  · rw [if_pos ⟨h, hne⟩]
    exact if_pos ⟨rfl, h⟩
  · rw [if_neg fun k => h k.1]
    exact if_neg fun k => h k.2

theorem State.refused_others (s : State) (b : Nat) (group : Option Nat) {j : Nat} (hj : j ≠ b) :
    (s.refuseMark b group).bucket j = s.bucket j := by
  rw [State.bucket_refuseMark]
  cases group with
  | none => rfl
  | some g => exact if_neg fun h => hj h.1

theorem ownerApplies_claim : Sys2Proof.Claims.OwnerApplies := by
  intro s src bucket gen seq group n n20 ch pmask data mx sum fail
  dsimp only
  intro hserves hturn
  have hkept (p : Packet → Bool) := KeptBut.opTaken s p
  have hbucket (p : Packet → Bool) (k : Nat) : (s.opTaken p).bucket k = s.bucket k :=
    State.bucket_congr ((hkept p).same .exch (by decide)) k
  have htakes (p : Packet → Bool) : (s.opTaken p).takesOp bucket.toNat gen = s.takesOp bucket.toNat gen :=
    State.takesOp_congr (hbucket p _) gen
  refine ⟨fun _ hyes hfatal hbase hn hdata hpmask hacc hplane hflaws => ?_, fun hyes => ?_, fun hno c hc => ?_⟩
  · subst hpmask
    refine Ends.of rfl (State.serve_inTurn hserves hturn _) ?_
    generalize hp : isPacket 2 src _ = p
    have hprop : (s.opTaken p).prop = s.prop := (hkept p).same .prop (by decide)
    have hexch : (s.opTaken p).exch = s.exch := (hkept p).same .exch (by decide)
    have hmem := State.mem_opTaken s p
    have hword (x : Nat) : (s.opTaken p).word64 x = s.word64 x := State.word64_congr fun j _ => by rw [hmem]
    obtain ⟨hsum, hrest, hreads, hreplay, hbuckets, hans⟩ := State.accumulated_spec (s := s.opTaken p) (b := bucket.toNat)
      (g := group.toNat) (n := n.toNat) (gen := gen) (seq := seq) (src := src) (ch := ch.toNat) (data := data)
      (by rw [htakes]; exact hyes) ((s.fatal_opTaken p).trans hfatal) (by rw [hbucket]; exact hbase) hn hdata
      (by rw [hbucket, State.addersOk_congr hprop]; exact hacc) (by rw [hbucket, State.remoteWriteOk_congr hprop]; exact hplane)
      (by rw [hbucket, hmem]; exact hflaws) rfl
    simp only [hbucket, hword, hmem, hexch] at hsum hrest hreads hbuckets
    exact ⟨hsum, fun i hi _ => congrArg BitVec.toInt (hrest i hi), hreads, hreplay, hbuckets, hans⟩
  · refine Ends.of rfl (State.serve_inTurn hserves hturn _) ?_
    exact State.skipped_spec hyes rfl
  · have hno' (p : Packet → Bool) : (s.opTaken p).takesOp bucket.toNat gen = false := (htakes p).trans hno
    rcases hc with rfl | ⟨hclose, rfl⟩ | rfl
    · refine Ends.of rfl (State.serve_inTurn hserves hturn _) ?_
      rw [State.accumulateOp_refuses (hno' _)]
      obtain ⟨hmem, hboard, hreplay, hmark, hregs⟩ := State.refused_spec rfl
      exact ⟨hmem, hboard, hreplay, fun j hj => (hmark j).trans (State.refused_others s _ _ hj),
        (hmark _).trans (State.refused_bucket s _ _ nofun), hregs⟩
    · refine Ends.of rfl (State.serve_inTurn hserves hturn _) ?_
      rw [State.closeOp_refuses ((State.takesClose_congr (hbucket _ _) gen _).trans hclose)]
      obtain ⟨hmem, hboard, hreplay, hmark, hregs⟩ := State.refused_spec rfl
      exact ⟨hmem, hboard, hreplay, fun j hj => (hmark j).trans (State.refused_others s _ _ hj),
        (hmark _).trans (if_neg fun h => h.2 rfl).symm, hregs⟩
    · refine Ends.of rfl (State.serve_inTurn hserves hturn _) ?_
      rw [State.skipOp_refuses (hno' _)]
      obtain ⟨hmem, hboard, hreplay, hmark, hregs⟩ := State.refused_spec rfl
      exact ⟨hmem, hboard, hreplay, fun j hj => (hmark j).trans (State.refused_others s _ _ hj),
        (hmark _).trans (State.refused_bucket s _ _ nofun), hregs⟩

end Sys2Proof.Machine
end

section
/-! SUPPORT. A CLOSE that the bucket takes (R399, R402, R403). -/

namespace Sys2Proof.Machine

variable {s t u : State}

/-! The write pass of a tracker (R37 to R39): a pass that has opened stays open until it closes. -/

theorem State.passOpen_tracker (s : State) (k : Nat) (f : Fmt) : ((s.passOpen k f).tracker k).isOpen = true ∧
    ((s.passOpen k f).tracker k).passes = (s.tracker k).passes := by
  unfold State.passOpen
  dsimp only
  split
  · next h => exact ⟨h, rfl⟩
  · rw [State.tracker_setTracker, if_pos rfl]
    exact ⟨rfl, rfl⟩

theorem State.passNote_tracker (s : State) (k : Nat) (x : Num) : ((s.passNote k x).tracker k).isOpen = (s.tracker k).isOpen ∧
    ((s.passNote k x).tracker k).passes = (s.tracker k).passes := by
  unfold State.passNote
  dsimp only
  split
  · exact ⟨rfl, rfl⟩
  · split
    · rw [State.tracker_setTracker, if_pos rfl]
      exact ⟨rfl, rfl⟩
    · exact ⟨rfl, rfl⟩

theorem State.passClose_tracker {k : Nat} (h : (s.tracker k).isOpen = true) : ((s.passClose k).tracker k).isOpen = false ∧
    ((s.passClose k).tracker k).passes = (s.tracker k).passes + 1 := by
  unfold State.passClose
  dsimp only
  rw [if_pos h, State.tracker_setTracker, if_pos rfl]
  exact ⟨rfl, rfl⟩

theorem State.tracker_congr (h : t.trackers = s.trackers) (k : Nat) : t.tracker k = s.tracker k := by
  unfold State.tracker; rw [h]

/-! The entry behind a CLOSE. -/

/-- The entry with what a CLOSE adds. -/
def closeSums (e : BitVec 1024) (count : Nat) (sum fail : BitVec 64) : BitVec 1024 :=
  let e := entSet e Ex.arrived (entF e Ex.arrived + count)
  let e := entSet e Ex.ownSum (BitVec.ofNat 64 (entF e Ex.ownSum) + sum).toNat
  entSet e Ex.failMask (entF e Ex.failMask ||| fail.toNat)

/-- The entry with the largest maximum. -/
def closeMax (e : BitVec 1024) (mx : BitVec 32) : BitVec 1024 :=
  if (ofB32 (BitVec.ofNat 32 (entF e Ex.ownMax))).lt (ofB32 mx) then entSet e Ex.ownMax mx.toNat else e

/-- The entry in which every part has failed. -/
def lateEntry (e : BitVec 1024) (late : Bool) : BitVec 1024 := if late then entSet e Ex.failMask (2 ^ 64 - 1) else e

/-- The entry behind a CLOSE. -/
def closedEntry (e : BitVec 1024) (count : Nat) (mx : BitVec 32) (sum fail : BitVec 64) : BitVec 1024 :=
  let f := closeMax (closeSums e count sum fail) mx
  lateEntry f (decide (entF f Ex.expect < entF e Ex.arrived + count))

theorem entF_closeMax (e : BitVec 1024) (mx : BitVec 32) {j : Nat × Nat} (h : j.1 + j.2 ≤ 512) :
    entF (closeMax e mx) j = entF e j := by
  unfold closeMax
  split
  · exact entF_entSet_ne _ _ (by omega) (.inl h)
  · rfl

theorem entF_lateEntry (e : BitVec 1024) (late : Bool) {j : Nat × Nat} (h : j.1 + j.2 ≤ 1024)
    (hne : j.1 + j.2 ≤ 384 ∨ 448 ≤ j.1) : entF (lateEntry e late) j = entF e j := by
  unfold lateEntry
  split
  · exact entF_entSet_ne _ _ h hne
  · rfl

theorem failMask_lateEntry (e : BitVec 1024) (late : Bool) :
    entF (lateEntry e late) Ex.failMask = if late then 2 ^ 64 - 1 else entF e Ex.failMask := by
  unfold lateEntry
  split
  · exact entF_entSet_self _ _ _ (by decide)
  · rfl

theorem entF_closeSums (e : BitVec 1024) (count : Nat) (sum fail : BitVec 64) {j : Nat × Nat}
    (h : j.1 + j.2 ≤ 352 ∨ 372 ≤ j.1 ∧ j.1 + j.2 ≤ 384) : entF (closeSums e count sum fail) j = entF e j := by
  unfold closeSums
  dsimp only
  rw [entF_entSet_ne _ _ (by omega) (.inl (show _ ≤ 384 by omega)), entF_entSet_ne _ _ (by omega) (.inl (show _ ≤ 448 by omega)),
    entF_entSet_ne _ _ (by omega) (show _ ≤ 352 ∨ 352 + 20 ≤ _ by omega)]

/-- The fields of an entry that a CLOSE leaves. -/
theorem entF_closedEntry (e : BitVec 1024) (count : Nat) (mx : BitVec 32) (sum fail : BitVec 64) {j : Nat × Nat}
    (h : j.1 + j.2 ≤ 352 ∨ 372 ≤ j.1 ∧ j.1 + j.2 ≤ 384) : entF (closedEntry e count mx sum fail) j = entF e j :=
  (entF_lateEntry _ _ (by omega) (by omega)).trans ((entF_closeMax _ _ (by omega)).trans (entF_closeSums e count sum fail h))

theorem arrived_closedEntry (e : BitVec 1024) {count : Nat} (mx : BitVec 32) (sum fail : BitVec 64)
    (h : entF e Ex.arrived + count < 2 ^ 20) : entF (closedEntry e count mx sum fail) Ex.arrived = entF e Ex.arrived + count := by
  unfold closedEntry closeSums
  dsimp only
  rw [entF_lateEntry _ _ (by decide) (by decide), entF_closeMax _ _ (by decide), entF_entSet_ne _ _ (by decide) (by decide),
    entF_entSet_ne _ _ (by decide) (by decide), entF_entSet_self _ _ _ (by decide)]
  exact Nat.mod_eq_of_lt h

theorem ownSum_closedEntry (e : BitVec 1024) (count : Nat) (mx : BitVec 32) (sum fail : BitVec 64) :
    entF (closedEntry e count mx sum fail) Ex.ownSum = (entF e Ex.ownSum + sum.toNat) % 2 ^ 64 := by
  unfold closedEntry closeSums
  dsimp only
  rw [entF_lateEntry _ _ (by decide) (by decide), entF_closeMax _ _ (by decide), entF_entSet_ne _ _ (by decide) (by decide),
    entF_entSet_self _ _ _ (by decide), entF_entSet_ne _ (j := Ex.ownSum) _ (by decide) (by decide)]
  simp [Ex.ownSum]

theorem failMask_closedEntry (e : BitVec 1024) (count : Nat) (mx : BitVec 32) (sum fail : BitVec 64) :
    entF (closedEntry e count mx sum fail) Ex.failMask =
      if entF e Ex.expect < entF e Ex.arrived + count then 2 ^ 64 - 1 else entF e Ex.failMask ||| fail.toNat := by
  have hexpect : entF (closeMax (closeSums e count sum fail) mx) Ex.expect = entF e Ex.expect :=
    (entF_closeMax _ _ (by decide)).trans (entF_closeSums e count sum fail (.inl (by decide)))
  have hor : (entF e Ex.failMask ||| fail.toNat) % 2 ^ Ex.failMask.2 = entF e Ex.failMask ||| fail.toNat :=
    Nat.mod_eq_of_lt (Nat.or_lt_two_pow (entF_lt e Ex.failMask) fail.isLt)
  unfold closedEntry
  dsimp only
  rw [failMask_lateEntry, hexpect, entF_closeMax _ _ (by decide)]
  unfold closeSums
  dsimp only
  rw [entF_entSet_self _ _ _ (by decide), entF_entSet_ne _ (j := Ex.failMask) _ (by decide) (by decide),
    entF_entSet_ne _ (j := Ex.failMask) _ (by decide) (by decide), hor]
  simp only [decide_eq_true_eq]

/-! The bucket completes (R403). -/

/-- The counter that a finished bucket posts to. -/
def State.donePost (s : State) (d : Nat) : State := if d < 64 then s.post d 1 else s

theorem KeptBut.donePost (s : State) (d : Nat) : KeptBut [.board, .trig, .callR, .fltR] s (s.donePost d) := by
  unfold State.donePost
  split
  · exact (kept_post ..).but
  · exact KeptBut.refl _ s

theorem State.bucketCompletes_first {b : Nat} (h : entF (s.bucket b) Ex.state = 0) : s.bucketCompletes b =
    ((s.setBf b Ex.state (if entF (s.bucket b) Ex.failMask = 0 then exComplete else exHeld)).passClose
      (entF (s.bucket b) Ex.trk)).donePost (entF (s.bucket b) Ex.doneCtr) := if_neg (by rw [h]; decide)

theorem State.bucketCompletes_again {b : Nat} (h : entF (s.bucket b) Ex.state ≠ 0) : s.bucketCompletes b =
    s.setBf b Ex.state (if entF (s.bucket b) Ex.failMask = 0 then exComplete else exHeld) := if_pos (by simpa [exOpen] using h)

/-- What the completion of a bucket leaves. -/
theorem State.bucketCompletes_spec (b : Nat) (heq : u = s.bucketCompletes b) :
    (∀ k, u.bucket k = if k = b then entSet (s.bucket b) Ex.state (if entF (s.bucket b) Ex.failMask = 0 then 1 else 2)
      else s.bucket k) ∧
    (entF (s.bucket b) Ex.state = 0 → (s.tracker (entF (s.bucket b) Ex.trk)).isOpen = true →
      (u.tracker (entF (s.bucket b) Ex.trk)).isOpen = false ∧
      (u.tracker (entF (s.bucket b) Ex.trk)).passes = (s.tracker (entF (s.bucket b) Ex.trk)).passes + 1) ∧
    (entF (s.bucket b) Ex.state = 0 → entF (s.bucket b) Ex.doneCtr < 64 → (s.cnt (entF (s.bucket b) Ex.doneCtr)).toNat < 0xFFFFF →
      (u.cnt (entF (s.bucket b) Ex.doneCtr)).toNat = (s.cnt (entF (s.bucket b) Ex.doneCtr)).toNat + 1 ∧
      ∀ j, j ≠ entF (s.bucket b) Ex.doneCtr → u.cnt j = s.cnt j) := by
  by_cases hst : entF (s.bucket b) Ex.state = 0
  · rw [State.bucketCompletes_first hst] at heq
    have hset := State.bucket_setBf s b
    have hentry (k : Nat) := State.bucket_setBf s b k Ex.state (if entF (s.bucket b) Ex.failMask = 0 then exComplete else exHeld)
    have hkept := (kept_setBf s b Ex.state (if entF (s.bucket b) Ex.failMask = 0 then exComplete else exHeld)).but
    generalize s.setBf b Ex.state _ = v at *
    generalize entF (s.bucket b) Ex.trk = k at *
    generalize entF (s.bucket b) Ex.doneCtr = d at *
    have hpass := (kept_passClose v k).but
    have hpost := KeptBut.donePost (v.passClose k) d
    rw [← heq] at hpost
    have htrk : v.tracker k = s.tracker k := State.tracker_congr (hkept.same .trackers (by decide)) k
    have hboard (j : Nat) : (v.passClose k).cnt j = s.cnt j :=
      State.cnt_congr ((hpass.same .board (by decide)).trans (hkept.same .board (by decide))) j
    refine ⟨fun j => ?_, fun _ hopen => ?_, fun _ hd hlt => ?_⟩
    · rw [State.bucket_congr ((hpost.same .exch (by decide)).trans (hpass.same .exch (by decide))), hentry]
      rfl
    · rw [State.tracker_congr (hpost.same .trackers (by decide))]
      rw [← htrk] at hopen ⊢
      exact State.passClose_tracker hopen
    · rw [State.donePost, if_pos hd, State.post_eq_of_within (by omega) (by rw [hboard]; omega)] at heq
      subst heq
      refine ⟨?_, fun j hj => ?_⟩
      · rw [State.cnt_setCnt, if_pos rfl, hboard]
        simp only [BitVec.toNat_ofInt]
        omega
      · rw [State.cnt_setCnt, if_neg hj, hboard]
  · rw [State.bucketCompletes_again hst] at heq
    subst heq
    exact ⟨fun k => State.bucket_setBf .., fun h => absurd h hst, fun h => absurd h hst⟩

end Sys2Proof.Machine
end

section
/-! SUPPORT. A CLOSE that the bucket takes, and the owner's answers (R399, R402, R403). -/

namespace Sys2Proof.Machine

variable {s t u : State}

/-- The maximum of a CLOSE enters the write pass of an OPEN bucket. -/
def State.passNoted (s : State) (e : BitVec 1024) (mx : BitVec 32) : State :=
  if entF e Ex.state = exOpen then (s.passOpen (entF e Ex.trk) .i32).passNote (entF e Ex.trk) (ofB32 mx) else s

/-- More than the bucket expects is counted. -/
def State.lateStray (s : State) (b : Nat) (late : Bool) : State := if late then s.exchStray b else s

/-- The state behind what a CLOSE adds, before the bucket completes. -/
def State.closed (s : State) (b count : Nat) (mx : BitVec 32) (sum fail : BitVec 64) : State :=
  let e := s.bucket b
  let f := closeMax (closeSums e count sum fail) mx
  ((s.passNoted e mx).setBucket b (closedEntry e count mx sum fail)).lateStray b (decide (entF f Ex.expect < entF e Ex.arrived + count))

theorem KeptBut.passNoted (s : State) (e : BitVec 1024) (mx : BitVec 32) : KeptBut [.trackers, .trkR] s (s.passNoted e mx) := by
  unfold State.passNoted
  split
  · exact (kept_passNote ..).but.step (by decide) ((kept_passOpen ..).but.mono (by decide))
  · exact KeptBut.refl _ s

theorem KeptBut.lateStray (s : State) (b : Nat) (late : Bool) : KeptBut [.trig, .exchR, .fltR] s (s.lateStray b late) := by
  unfold State.lateStray
  split
  · exact (kept_exchStray ..).but
  · exact KeptBut.refl _ s

/-- The write pass of an OPEN bucket is open behind a CLOSE. -/
theorem State.passNoted_tracker {e : BitVec 1024} (mx : BitVec 32) (h : entF e Ex.state = 0) :
    ((s.passNoted e mx).tracker (entF e Ex.trk)).isOpen = true ∧
    ((s.passNoted e mx).tracker (entF e Ex.trk)).passes = (s.tracker (entF e Ex.trk)).passes := by
  obtain ⟨hopen, hpasses⟩ := State.passOpen_tracker s (entF e Ex.trk) .i32
  obtain ⟨hkeptOpen, hkeptPasses⟩ := State.passNote_tracker (s.passOpen (entF e Ex.trk) .i32) (entF e Ex.trk) (ofB32 mx)
  rw [State.passNoted, if_pos (show entF e Ex.state = exOpen from h)]
  exact ⟨hkeptOpen.trans hopen, hkeptPasses.trans hpasses⟩

/-- What a CLOSE leaves before the bucket completes. -/
theorem State.closed_spec (b count : Nat) (mx : BitVec 32) (sum fail : BitVec 64) (heq : u = s.closed b count mx sum fail) :
    (∀ k, u.bucket k = if k = b then closedEntry (s.bucket b) count mx sum fail else s.bucket k) ∧
    (entF (s.bucket b) Ex.state = 0 → (u.tracker (entF (s.bucket b) Ex.trk)).isOpen = true ∧
      (u.tracker (entF (s.bucket b) Ex.trk)).passes = (s.tracker (entF (s.bucket b) Ex.trk)).passes) ∧
    KeptBut [.trackers, .trkR, .exch, .trig, .exchR, .fltR] s u := by
  unfold State.closed at heq
  dsimp only at heq
  have hpass := KeptBut.passNoted s (s.bucket b) mx
  have htrk := State.passNoted_tracker (s := s) (e := s.bucket b) mx
  generalize s.passNoted (s.bucket b) mx = v at *
  generalize decide ((_ : Nat) < _) = late at heq
  have hset (k : Nat) := State.bucket_setBucket v b k (closedEntry (s.bucket b) count mx sum fail)
  have hsetKept := (kept_setBucket v b (closedEntry (s.bucket b) count mx sum fail)).but
  generalize v.setBucket b _ = w at *
  have hstray := KeptBut.lateStray w b late
  rw [← heq] at hstray
  have hexch : v.exch = s.exch := hpass.same .exch (by decide)
  have htrackers : u.trackers = v.trackers := (hstray.same .trackers (by decide)).trans (hsetKept.same .trackers (by decide))
  refine ⟨fun k => ?_, fun h => ?_, hstray.step (by decide) (hsetKept.step (by decide) (hpass.mono (by decide)))⟩
  · rw [State.bucket_congr (hstray.same .exch (by decide)), hset, State.bucket_congr hexch]
  · rw [State.tracker_congr htrackers]
    exact htrk h

theorem expect_closeMax (e : BitVec 1024) (count : Nat) (mx : BitVec 32) (sum fail : BitVec 64) :
    entF (closeMax (closeSums e count sum fail) mx) Ex.expect = entF e Ex.expect :=
  (entF_closeMax _ _ (by decide)).trans (entF_closeSums e count sum fail (.inl (by decide)))

/-- A CLOSE of `count` elements brings their number up to what the bucket expects. -/
abbrev Fills (e : BitVec 1024) (count : Nat) : Prop :=
  entF e Ex.arrived < entF e Ex.expect ∧ entF e Ex.expect ≤ entF e Ex.arrived + count

/-- The state of an entry behind a CLOSE. -/
def closedState (e : BitVec 1024) (count : Nat) (fail : BitVec 64) : Nat :=
  if Fills e count then
    if (if entF e Ex.expect < entF e Ex.arrived + count then 2 ^ 64 - 1 else entF e Ex.failMask ||| fail.toNat) = 0 then 1 else 2
  else entF e Ex.state

theorem State.closeOp_takes {b count : Nat} {gen : BitVec 16} (h : s.takesClose b gen count = true) (mx : BitVec 32)
    (sum fail : BitVec 64) : s.closeOp b gen count mx sum fail = (true, if Fills (s.bucket b) count then
      (s.closed b count mx sum fail).bucketCompletes b else s.closed b count mx sum fail) := by
  have hexpect := expect_closeMax (s.bucket b) count mx sum fail
  refine Eq.trans (b := (true, if entF (s.bucket b) Ex.arrived < entF (closeMax (closeSums (s.bucket b) count sum fail) mx) Ex.expect ∧
      entF (closeMax (closeSums (s.bucket b) count sum fail) mx) Ex.expect ≤ entF (s.bucket b) Ex.arrived + count
    then (s.closed b count mx sum fail).bucketCompletes b else s.closed b count mx sum fail)) (if_neg (by rw [h]; decide)) ?_
  simp only [hexpect]

/-- The state COMPLETE or HELD fits its field. -/
theorem completed_lt (mask : Nat) : (if mask = 0 then 1 else 2) < 2 ^ Ex.state.2 := by split <;> decide

/-- What a CLOSE that the bucket takes leaves of the board, the trackers and the buckets. -/
structure Closed (s u : State) (b count : Nat) (sum fail : BitVec 64) : Prop where
  arrived : u.bf b Ex.arrived = entF (s.bucket b) Ex.arrived + count
  ownSum : u.bf b Ex.ownSum = (entF (s.bucket b) Ex.ownSum + sum.toNat) % 2 ^ 64
  failMask : u.bf b Ex.failMask = if entF (s.bucket b) Ex.expect < entF (s.bucket b) Ex.arrived + count then 2 ^ 64 - 1
    else entF (s.bucket b) Ex.failMask ||| fail.toNat
  others : ∀ j, j ≠ b → u.bucket j = s.bucket j
  gen : u.bf b Ex.gen = entF (s.bucket b) Ex.gen
  state : u.bf b Ex.state = closedState (s.bucket b) count fail
  pass : Fills (s.bucket b) count → entF (s.bucket b) Ex.state = 0 →
    (u.tracker (entF (s.bucket b) Ex.trk)).isOpen = false ∧
    (u.tracker (entF (s.bucket b) Ex.trk)).passes = (s.tracker (entF (s.bucket b) Ex.trk)).passes + 1
  done : Fills (s.bucket b) count → entF (s.bucket b) Ex.state = 0 → entF (s.bucket b) Ex.doneCtr < 64 →
    (s.cnt (entF (s.bucket b) Ex.doneCtr)).toNat < 0xFFFFF →
    (u.cnt (entF (s.bucket b) Ex.doneCtr)).toNat = (s.cnt (entF (s.bucket b) Ex.doneCtr)).toNat + 1 ∧
    ∀ j, j ≠ entF (s.bucket b) Ex.doneCtr → u.cnt j = s.cnt j
  board : ¬Fills (s.bucket b) count → u.board = s.board

theorem State.closeOp_spec {b count : Nat} {gen : BitVec 16} (h : s.takesClose b gen count = true) (mx : BitVec 32)
    (sum fail : BitVec 64) (hlt : entF (s.bucket b) Ex.arrived + count < 2 ^ 20) (heq : u = (s.closeOp b gen count mx sum fail).2) :
    Closed s u b count sum fail := by
  rw [State.closeOp_takes h] at heq
  obtain ⟨hbucket, htrk, hkept⟩ := State.closed_spec (s := s) b count mx sum fail rfl
  dsimp only at heq
  generalize s.closed b count mx sum fail = v at *
  have hself : v.bucket b = closedEntry (s.bucket b) count mx sum fail := (hbucket b).trans (if_pos rfl)
  have hother (j : Nat) (hj : j ≠ b) : v.bucket j = s.bucket j := (hbucket j).trans (if_neg hj)
  have hfield {j : Nat × Nat} (hj : j.1 + j.2 ≤ 352 ∨ 372 ≤ j.1 ∧ j.1 + j.2 ≤ 384) :
      entF (v.bucket b) j = entF (s.bucket b) j := by
    rw [hself]
    exact entF_closedEntry _ _ _ _ _ hj
  have harrived : entF (v.bucket b) Ex.arrived = _ := (congrArg (entF · _) hself).trans (arrived_closedEntry (s.bucket b) mx sum fail hlt)
  have hsum : entF (v.bucket b) Ex.ownSum = _ := (congrArg (entF · _) hself).trans (ownSum_closedEntry (s.bucket b) count mx sum fail)
  have hmask : entF (v.bucket b) Ex.failMask = _ := (congrArg (entF · _) hself).trans (failMask_closedEntry (s.bucket b) count mx sum fail)
  have hboard : v.board = s.board := hkept.same .board (by decide)
  by_cases hfills : Fills (s.bucket b) count
  · rw [if_pos hfills] at heq
    obtain ⟨hdone, hpass, hpost⟩ := State.bucketCompletes_spec b heq
    have hdoneSelf := (hdone b).trans (if_pos rfl)
    have hrest {j : Nat × Nat} (hj : j.1 + j.2 ≤ 1024) (hne : j.1 + j.2 ≤ 376 ∨ 379 ≤ j.1) : u.bf b j = entF (v.bucket b) j :=
      (congrArg (entF · j) hdoneSelf).trans (entF_entSet_ne _ _ hj hne)
    rw [hfield (j := Ex.trk) (by decide), hfield (j := Ex.state) (by decide)] at hpass
    rw [hfield (j := Ex.doneCtr) (by decide), hfield (j := Ex.state) (by decide)] at hpost
    refine ⟨(hrest (by decide) (by decide)).trans harrived, (hrest (by decide) (by decide)).trans hsum,
      (hrest (by decide) (by decide)).trans hmask, fun j hj => ((hdone j).trans (if_neg hj)).trans (hother j hj),
      (hrest (by decide) (by decide)).trans (hfield (by decide)), ?_, fun _ hst => ?_, fun _ hst hd hcnt => ?_,
      fun k => absurd hfills k⟩
    · refine (congrArg (entF · Ex.state) hdoneSelf).trans ((entF_entSet_self _ _ _ (by decide)).trans ?_)
      rw [hmask, closedState, if_pos hfills]
      exact Nat.mod_eq_of_lt (completed_lt _)
    · obtain ⟨hopen, hpasses⟩ := htrk hst
      rw [← hpasses]
      exact hpass hst hopen
    · have hcnts (j : Nat) : v.cnt j = s.cnt j := State.cnt_congr hboard j
      simp only [hcnts] at hpost
      exact hpost hst hd hcnt
  · rw [if_neg hfills] at heq
    subst heq
    exact ⟨harrived, hsum, hmask, hother, hfield (by decide), (hfield (by decide)).trans (if_neg hfills).symm,
      fun k => absurd k hfills, fun k => absurd k hfills, fun _ => hboard⟩

theorem closeApplies_claim : Sys2Proof.Claims.CloseApplies := by
  intro s src bucket gen seq n ch mx sum fail
  dsimp only
  intro hserves hturn htakes hlt
  refine Ends.of rfl (State.serve_inTurn hserves hturn _) ?_
  generalize isPacket 2 src _ = p
  have hkept := KeptBut.opTaken s p
  have hexch : (s.opTaken p).exch = s.exch := hkept.same .exch (by decide)
  have hboard : (s.opTaken p).board = s.board := hkept.same .board (by decide)
  have htrackers : (s.opTaken p).trackers = s.trackers := hkept.same .trackers (by decide)
  have hmem : (s.opTaken p).mem = s.mem := State.mem_opTaken s p
  have hlines : (s.opTaken p).lines = s.lines := hkept.same .lines (by decide)
  generalize s.opTaken p = v at *
  have hbucket (k : Nat) : v.bucket k = s.bucket k := State.bucket_congr hexch k
  rw [← State.takesClose_congr (hbucket _)] at htakes
  have hclose := (kept_closeOp v bucket.toNat gen n.toNat mx sum fail).but
  have hspec := State.closeOp_spec htakes mx sum fail (by rw [hbucket]; exact hlt) rfl
  have htrue : (v.closeOp bucket.toNat gen n.toNat mx sum fail).1 = true := by rw [State.closeOp_takes htakes]
  rw [htrue]
  generalize (v.closeOp bucket.toNat gen n.toNat mx sum fail).2 = w at *
  obtain ⟨hbuckets, _, hreplay, hans, hrest, _⟩ := State.concluded_spec w src ch.toNat bucket.toNat gen.toNat seq true rfl
  generalize w.concluded src ch.toNat bucket.toNat gen.toNat seq true = u at *
  have hbf (j : Nat × Nat) : u.bf bucket.toNat j = w.bf bucket.toNat j := congrArg (entF · j) (hbuckets _)
  have hwboard : u.board = w.board := hrest.same .board (by decide)
  have hwcnt (j : Nat) : u.cnt j = w.cnt j := State.cnt_congr hwboard j
  have hwtrk (j : Nat) : u.tracker j = w.tracker j := State.tracker_congr (hrest.same .trackers (by decide)) j
  have hcnt (j : Nat) : v.cnt j = s.cnt j := State.cnt_congr hboard j
  have htrk (j : Nat) : v.tracker j = s.tracker j := State.tracker_congr htrackers j
  obtain ⟨harrived, hsum, hmask, hothers, hgen, hstate, hpass, hdone, hstill⟩ := hspec
  simp only [hbucket, hcnt, htrk, hboard] at harrived hsum hmask hothers hgen hstate hpass hdone hstill
  simp only [hbf, hwcnt, hwtrk, hbuckets, hwboard]
  exact ⟨harrived, hsum, hmask, hothers, hgen, hstate, hpass, hdone, hstill, hreplay,
    (hrest.same .mem (by decide)).trans ((hclose.same .mem (by decide)).trans hmem),
    (hrest.same .lines (by decide)).trans ((hclose.same .lines (by decide)).trans hlines), hans⟩

/-- Settles O53: an operation that is answered already is dropped by the sequence rule; the next one goes to the addition, the mark or the
close that its bucket takes, or to a refusal, and the answer follows it. -/
theorem ownerStream : Obligations.OwnerStream := ⟨ownerStream_claim, ownerApplies_claim, closeApplies_claim⟩

end Sys2Proof.Machine
end

section
/-! SUPPORT. The image of a run of the prompt-book writer, and how a run begins and ends (R480, R481). -/

namespace Sys2Proof.Machine

variable {s t u : State}

/-! What the checks of an image and the choice of the copy depend on. -/

theorem State.bookMayWrite_congr (h : t.build = s.build) (off : Nat) : t.bookMayWrite off = s.bookMayWrite off := by
  unfold State.bookMayWrite State.present
  rw [h]

theorem State.recordsOk_congr (h : t.build = s.build) (img : List Byte) (l : List BookRec) : t.recordsOk img l = s.recordsOk img l := by
  unfold State.recordsOk
  simp only [State.bookMayWrite_congr h, h]

theorem State.imageErr_congr (hflash : t.flash = s.flash) (hbuild : t.build = s.build) (img : List Byte) :
    t.imageErr img = s.imageErr img := by
  unfold State.imageErr
  simp only [State.recordsOk_congr hbuild, hflash]

theorem State.bodyErr_congr (h : t.build = s.build) (img : List Byte) : t.bodyErr img = s.bodyErr img := by
  unfold State.bodyErr
  simp only [State.recordsOk_congr h]

theorem State.tryCopies_congr (hflash : t.flash = s.flash) (hbuild : t.build = s.build) (l : List Bool) :
    t.tryCopies l = s.tryCopies l := by
  induction l with
  | nil => rfl
  | cons b l ih =>
    unfold State.tryCopies
    dsimp only
    rw [State.bodyErr_congr hbuild, hflash, ih]

theorem State.winner_congr (hflash : t.flash = s.flash) (hbuild : t.build = s.build) : t.winner = s.winner := by
  unfold State.winner
  rw [State.tryCopies_congr hflash hbuild, hflash]

theorem State.retiredImage_congr (h : t.prop = s.prop) (img : List Byte) : t.retiredImage img = s.retiredImage img := by
  unfold State.retiredImage State.retiredFrames
  rw [h]

/-- Two states in which a run finds the same image. -/
structure SameBook (s t : State) : Prop where
  flash : t.flash = s.flash
  mem : t.mem = s.mem
  prop : t.prop = s.prop
  build : t.build = s.build
  src : t.reg R.pbkWrSrc = s.reg R.pbkWrSrc
  len : t.reg R.pbkWrLen = s.reg R.pbkWrLen

/-- The buffer's copy in local memory may be used, and there is a flash. -/
def State.bookReady (s : State) : Prop :=
  s.localRangeOk (s.reg R.pbkWrSrc).toNat s.flash.copySize = true ∧ s.flash.found = true

/-- A run under UPDATE finds this image, and it passes. -/
def State.holdsImage (s : State) (img : List Byte) : Prop :=
  s.localRangeOk (s.reg R.pbkWrSrc).toNat s.flash.copySize = true ∧ s.flash.found = true ∧
    (s.reg R.pbkWrLen).toNat ≤ s.flash.copySize ∧ 40 ≤ (s.reg R.pbkWrLen).toNat ∧
    (s.readPlain 0 (s.reg R.pbkWrSrc).toNat (s.reg R.pbkWrLen).toNat).1 = (img, false) ∧ s.imageErr img = 0

/-- A run under RETIRED makes this image, and it passes. -/
def State.remakesImage (s : State) (img : List Byte) : Prop :=
  s.localRangeOk (s.reg R.pbkWrSrc).toNat s.flash.copySize = true ∧ s.flash.found = true ∧
    (∃ b, s.winner = some b ∧ img = s.retiredImage (s.flash.image b)) ∧ img.length ≤ s.flash.copySize ∧ s.imageErr img = 0

theorem SameBook.localRangeOk (h : SameBook s t) : t.localRangeOk (t.reg R.pbkWrSrc).toNat t.flash.copySize =
    s.localRangeOk (s.reg R.pbkWrSrc).toNat s.flash.copySize := by
  rw [State.localRangeOk_congr h.prop, h.src, h.flash]

theorem SameBook.holdsImage {img : List Byte} (h : SameBook s t) (hs : s.holdsImage img) : t.holdsImage img := by
  unfold State.holdsImage
  rw [h.localRangeOk, h.flash, h.len, h.src, (State.readPlain_congr h.mem 0 _ _).1, State.imageErr_congr h.flash h.build]
  exact hs

theorem SameBook.remakesImage {img : List Byte} (h : SameBook s t) (hs : s.remakesImage img) : t.remakesImage img := by
  unfold State.remakesImage
  rw [h.localRangeOk]
  simp only [State.winner_congr h.flash h.build, State.retiredImage_congr h.prop, h.flash, State.imageErr_congr h.flash h.build]
  exact hs

/-! The image of a run. -/

theorem State.runImage_outside (h : s.localRangeOk (s.reg R.pbkWrSrc).toNat s.flash.copySize = false) (mode : Nat) :
    s.runImage mode = (.inl 1, s) := if_pos h

theorem State.runImage_noFlash (h : s.localRangeOk (s.reg R.pbkWrSrc).toNat s.flash.copySize = true) (hfound : s.flash.found = false)
    (mode : Nat) : s.runImage mode = (.inl 6, s) := (if_neg (by rw [h]; decide)).trans (if_pos hfound)

theorem State.runImage_length (h : s.localRangeOk (s.reg R.pbkWrSrc).toNat s.flash.copySize = true) (hfound : s.flash.found = true)
    (hlen : s.flash.copySize < (s.reg R.pbkWrLen).toNat ∨ (s.reg R.pbkWrLen).toNat < 40) : s.runImage 1 = (.inl 3, s) :=
  (if_neg (by rw [h]; decide)).trans ((if_neg (by rw [hfound]; decide)).trans ((if_pos rfl).trans (if_pos hlen)))

theorem State.runImage_update {img : List Byte} (h : s.holdsImage img) :
    s.runImage 1 = (.inr img, (s.readPlain 0 (s.reg R.pbkWrSrc).toNat (s.reg R.pbkWrLen).toNat).2) := by
  obtain ⟨hrange, hfound, hle, hge, hread, _⟩ := h
  refine (if_neg (by rw [hrange]; decide)).trans ((if_neg (by rw [hfound]; decide)).trans ((if_pos rfl).trans
    ((if_neg (by omega)).trans ?_)))
  dsimp only
  rw [hread]
  rfl

theorem State.runImage_retired {img : List Byte} (h : s.remakesImage img) :
    s.runImage 2 = (.inr img, s.land (s.reg R.pbkWrSrc).toNat img false) := by
  obtain ⟨hrange, hfound, ⟨b, hwinner, rfl⟩, hle, _⟩ := h
  refine (if_neg (by rw [hrange]; decide)).trans ((if_neg (by rw [hfound]; decide)).trans ((if_neg (by decide)).trans ?_))
  rw [hwinner]
  exact if_neg (Nat.not_lt.mpr hle)

/-! The end of a run. -/

/-- PBK_WR_STATUS at the end of a run: TARGET stays, ERR is set, BUSY and PHASE are 0. -/
def endWord (x : Word) (err : Nat) : Word := (x &&& 0x100#32) ||| fld 4 4 err

theorem fieldN_endWord (x : Word) {err : Nat} (h : err < 16) : fieldN (endWord x err) 4 4 = err := by
  rw [endWord, BitVec.or_comm]
  refine fieldN_fld_or (by decide) h fun i hi => ?_
  rw [BitVec.getLsbD_and]
  interval_cases i <;> exact Bool.and_false _

theorem busy_endWord (x : Word) (err : Nat) : (endWord x err).getLsbD 0 = false := by
  rw [endWord, BitVec.getLsbD_or, BitVec.getLsbD_and, getLsbD_fld_of_not_mem (by decide), Bool.or_false]
  exact Bool.and_false _

theorem State.writerPost_cnt (s : State) {d : Nat} (heq : u = s.writerPost d 1) (hd : d < 64) (hcnt : (s.cnt d).toNat < 0xFFFFF) :
    (u.cnt d).toNat = (s.cnt d).toNat + 1 := by
  rw [State.writerPost, if_pos hd, State.post_eq_of_within (by omega) (by omega)] at heq
  rw [heq, State.cnt_setCnt, if_pos rfl]
  simp only [BitVec.toNat_ofInt]
  omega

/-- PBK_WR_STATUS at the end of a run, and the count of the runs without error. -/
def State.runNoted (s : State) (err : Nat) : State :=
  let s := s.setReg R.pbkWrStatus (endWord (s.reg R.pbkWrStatus) err)
  if err = 0 then s.countMod R.pbkWrCount 1 else s

/-- The writer with nothing but the starts that wait. -/
def State.freeWriter (s : State) : State := { s with writer := { Writer.idle with waits := s.writer.waits } }

theorem State.endRun_eq (s : State) (err : Nat) :
    s.endRun err = (s.runNoted err).freeWriter.writerPost ((s.runNoted err).regF R.pbkWrCfg 16 7) 1 := rfl

theorem State.runNoted_spec (s : State) (err : Nat) (heq : u = s.runNoted err) :
    u.reg R.pbkWrStatus = endWord (s.reg R.pbkWrStatus) err ∧ u.reg R.pbkWrCfg = s.reg R.pbkWrCfg ∧
    (u.reg R.pbkWrCount = if err = 0 then s.reg R.pbkWrCount + 1 else s.reg R.pbkWrCount) ∧
    u.flash = s.flash ∧ u.lines = s.lines ∧ u.board = s.board ∧ u.writer = s.writer := by
  have hkeep {o : Nat} (ho : o ≠ R.pbkWrStatus) : (s.setReg R.pbkWrStatus (endWord (s.reg R.pbkWrStatus) err)).reg o = s.reg o :=
    State.reg_setReg_ne _ _ ho
  have hself : (s.setReg R.pbkWrStatus (endWord (s.reg R.pbkWrStatus) err)).reg R.pbkWrStatus = _ := State.reg_setReg_self ..
  unfold State.runNoted at heq
  dsimp only at heq
  by_cases h : err = 0
  · rw [if_pos h] at heq
    have hcount := (kept_countMod (s.setReg R.pbkWrStatus (endWord (s.reg R.pbkWrStatus) err)) R.pbkWrCount 1).but
    have hreg {o : Nat} (ho : o ≠ R.pbkWrCount) : u.reg o = (s.setReg R.pbkWrStatus (endWord (s.reg R.pbkWrStatus) err)).reg o := by
      rw [heq]
      exact State.reg_setReg_ne _ _ ho
    rw [← heq] at hcount
    refine ⟨(hreg (by decide)).trans hself, (hreg (by decide)).trans (hkeep (by decide)), ?_, hcount.same .flash (by decide),
      hcount.same .lines (by decide), hcount.same .board (by decide), hcount.same .writer (by decide)⟩
    rw [if_pos h, heq]
    refine (State.reg_setReg_self ..).trans ?_
    rw [hkeep (by decide)]
    rfl
  · rw [if_neg h] at heq
    rw [heq, if_neg h]
    exact ⟨hself, hkeep (by decide), hkeep (by decide), rfl, rfl, rfl, rfl⟩

/-- The end of a run, before the next one that waits. -/
structure RunEnds (s u : State) (code : Nat) : Prop where
  free : u.writerBusy = false
  error : u.regF R.pbkWrStatus 4 4 = code
  flash : u.flash = s.flash
  lines : u.lines = s.lines
  post : s.regF R.pbkWrCfg 16 7 < 64 → (s.cnt (s.regF R.pbkWrCfg 16 7)).toNat < 0xFFFFF →
    (u.cnt (s.regF R.pbkWrCfg 16 7)).toNat = (s.cnt (s.regF R.pbkWrCfg 16 7)).toNat + 1
  writer : u.writer = { Writer.idle with waits := s.writer.waits }
  counts : u.reg R.pbkWrCount = if code = 0 then s.reg R.pbkWrCount + 1 else s.reg R.pbkWrCount

theorem State.endRun_spec (s : State) {err : Nat} (herr : err < 16) (heq : u = s.endRun err) : RunEnds s u err := by
  obtain ⟨hstatus, hcfg, hcounts, hflash, hlines, hboard, hwriter⟩ := State.runNoted_spec s err rfl
  rw [State.endRun_eq] at heq
  generalize s.runNoted err = v at *
  rw [State.regF_congr hcfg] at heq
  have hcnt (i : Nat) : v.freeWriter.cnt i = s.cnt i := State.cnt_congr hboard i
  have hpost := (kept_writerPost v.freeWriter (s.regF R.pbkWrCfg 16 7) 1).but
  rw [← heq] at hpost
  have hreg {o : Nat} (ho : [Field.board, .trig, .callR, .fltR].contains (Field.ofReg o) = false) : u.reg o = v.reg o := hpost.reg ho
  refine ⟨?_, ?_, (hpost.same .flash (by decide)).trans hflash, (hpost.same .lines (by decide)).trans hlines, fun hd hlt => ?_,
    (hpost.same .writer (by decide)).trans ?_, (hreg (by decide)).trans hcounts⟩
  · rw [State.writerBusy, State.regB, hreg (by decide), hstatus]
    exact busy_endWord ..
  · rw [State.regF, hreg (by decide), hstatus]
    exact fieldN_endWord _ herr
  · rw [← hcnt] at hlt ⊢
    exact State.writerPost_cnt v.freeWriter heq hd hlt
  · exact congrArg (fun w : Writer => ({ Writer.idle with waits := w.waits } : Writer)) hwriter

/-! A run begins. -/

/-- The start of a run in PBK_WR_STATUS. -/
def State.runTaken (s : State) : State := s.setReg R.pbkWrStatus ((s.reg R.pbkWrStatus &&& 0x100#32) ||| 1#32)

theorem SameBook.runTaken (s : State) : SameBook s s.runTaken :=
  ⟨rfl, rfl, rfl, rfl, State.reg_setReg_ne _ _ (by decide), State.reg_setReg_ne _ _ (by decide)⟩

/-- The copy that a run writes. -/
def State.bookTarget (s : State) : Bool := s.winner == some false

/-- The generation that a run gives its copy. -/
def State.bookGen (s : State) : BitVec 32 := match s.winner with | some b => s.flash.gen b + 1 | none => 1

/-- Step 4 begins with the first erase. -/
def State.beginRun (s : State) (mode : Nat) (img : List Byte) : State :=
  let w := { s.writer with mode := mode, image := sealed img, base := s.flash.base s.bookTarget, gen := s.bookGen, ops := 0 }
  ({ s with writer := w }).setReg R.pbkWrStatus (1#32 ||| fld 1 3 4 ||| bfld 8 s.bookTarget)

theorem State.startRun_fails {e mode : Nat} (h : s.runTaken.runImage mode = (.inl e, t)) : s.startRun mode = t.endRun e := by
  unfold State.startRun
  dsimp only
  rw [show s.setReg R.pbkWrStatus ((s.reg R.pbkWrStatus &&& 0x100#32) ||| 1#32) = s.runTaken from rfl, h]

theorem State.startRun_begins {mode : Nat} {img : List Byte} (h : s.runTaken.runImage mode = (.inr img, t)) (herr : t.imageErr img = 0) :
    s.startRun mode = t.beginRun mode img := by
  unfold State.startRun
  dsimp only
  rw [show s.setReg R.pbkWrStatus ((s.reg R.pbkWrStatus &&& 0x100#32) ||| 1#32) = s.runTaken from rfl, h]
  exact if_neg fun hne => hne herr

/-- A run that has begun, with no other start waiting. -/
def RunBegins (s : State) (mode : Nat) (img : List Byte) (u : State) : Prop :=
  u.writer = ⟨mode, [], sealed img, s.flash.base s.bookTarget, s.bookGen, 0⟩ ∧ u.writerBusy = true ∧ u.writerPhase = 4 ∧
  u.regB R.pbkWrStatus 8 = s.bookTarget ∧ u.regF R.pbkWrStatus 4 4 = 0 ∧ u.flash = s.flash ∧ u.lines = s.lines

theorem State.bookTarget_congr (hflash : t.flash = s.flash) (hbuild : t.build = s.build) : t.bookTarget = s.bookTarget := by
  unfold State.bookTarget
  rw [State.winner_congr hflash hbuild]

theorem State.bookGen_congr (hflash : t.flash = s.flash) (hbuild : t.build = s.build) : t.bookGen = s.bookGen := by
  unfold State.bookGen
  rw [State.winner_congr hflash hbuild, hflash]

/-- The fields of PBK_WR_STATUS at the first erase. -/
theorem beginWord_fields (target : Bool) : bit (1#32 ||| fld 1 3 4 ||| bfld 8 target) 0 = true ∧
    fieldN (1#32 ||| fld 1 3 4 ||| bfld 8 target) 1 3 = 4 ∧ bit (1#32 ||| fld 1 3 4 ||| bfld 8 target) 8 = target ∧
    fieldN (1#32 ||| fld 1 3 4 ||| bfld 8 target) 4 4 = 0 := by
  cases target <;> decide

theorem State.beginRun_spec {mode : Nat} {img : List Byte} (hwaits : s.writer.waits = []) (heq : u = s.beginRun mode img) :
    RunBegins s mode img u ∧ u.board = s.board ∧ u.mem = s.mem := by
  obtain ⟨hbusy, hphase, htarget, herr⟩ := beginWord_fields s.bookTarget
  have hstatus : u.reg R.pbkWrStatus = 1#32 ||| fld 1 3 4 ||| bfld 8 s.bookTarget := by
    rw [heq]
    exact State.reg_setReg_self ..
  refine ⟨⟨?_, ?_, ?_, ?_, ?_, ?_, ?_⟩, ?_, ?_⟩
  · rw [heq, ← hwaits]
    rfl
  · rw [State.writerBusy, State.regB, hstatus, hbusy]
  · rw [State.writerPhase, State.regF, hstatus, hphase]
  · rw [State.regB, hstatus, htarget]
  · rw [State.regF, hstatus, herr]
  all_goals
    rw [heq]
    rfl

end Sys2Proof.Machine
end

section
/-! O58. The starts of the prompt-book writer (R480, R481). -/

namespace Sys2Proof.Machine

variable {s t u : State}

/-! A run that is started. -/

/-- A run that has ended at its start. -/
def RunFails (s : State) (err : Nat) (u : State) : Prop :=
  u.writerBusy = false ∧ u.regF R.pbkWrStatus 4 4 = err ∧ u.flash = s.flash ∧ u.lines = s.lines ∧
  (s.regF R.pbkWrCfg 16 7 < 64 → (s.cnt (s.regF R.pbkWrCfg 16 7)).toNat < 0xFFFFF →
    (u.cnt (s.regF R.pbkWrCfg 16 7)).toNat = (s.cnt (s.regF R.pbkWrCfg 16 7)).toNat + 1)

theorem RunFails.congr {err : Nat} (hflash : t.flash = s.flash) (hlines : t.lines = s.lines) (hboard : t.board = s.board)
    (hcfg : t.reg R.pbkWrCfg = s.reg R.pbkWrCfg) (h : RunFails t err u) : RunFails s err u := by
  unfold RunFails at h
  rw [State.regF_congr hcfg, State.cnt_congr hboard, hflash, hlines] at h
  exact h

theorem RunBegins.congr {mode : Nat} {img : List Byte} (hflash : t.flash = s.flash) (hbuild : t.build = s.build)
    (hlines : t.lines = s.lines) (h : RunBegins t mode img u) : RunBegins s mode img u := by
  unfold RunBegins at h
  rw [State.bookTarget_congr hflash hbuild, State.bookGen_congr hflash hbuild, hflash, hlines] at h
  exact h

theorem State.startRun_failed {mode err : Nat} (herr : err < 16) (h : s.runTaken.runImage mode = (.inl err, s.runTaken))
    (heq : u = s.startRun mode) : RunFails s err u := by
  have hends := State.endRun_spec s.runTaken herr (heq.trans (State.startRun_fails h))
  exact RunFails.congr (t := s.runTaken) rfl rfl rfl (State.reg_setReg_ne _ _ (by decide))
    ⟨hends.free, hends.error, hends.flash, hends.lines, hends.post⟩

theorem State.startRun_outside (h : s.localRangeOk (s.reg R.pbkWrSrc).toNat s.flash.copySize = false) (mode : Nat)
    (heq : u = s.startRun mode) : RunFails s 1 u :=
  State.startRun_failed (by decide) (State.runImage_outside ((SameBook.runTaken s).localRangeOk.trans h) mode) heq

theorem State.startRun_noFlash (h : s.localRangeOk (s.reg R.pbkWrSrc).toNat s.flash.copySize = true) (hfound : s.flash.found = false)
    (mode : Nat) (heq : u = s.startRun mode) : RunFails s 6 u :=
  State.startRun_failed (by decide) (State.runImage_noFlash ((SameBook.runTaken s).localRangeOk.trans h) hfound mode) heq

theorem State.startRun_length (h : s.localRangeOk (s.reg R.pbkWrSrc).toNat s.flash.copySize = true) (hfound : s.flash.found = true)
    (hlen : s.flash.copySize < (s.reg R.pbkWrLen).toNat ∨ (s.reg R.pbkWrLen).toNat < 40) (heq : u = s.startRun 1) : RunFails s 3 u :=
  State.startRun_failed (by decide) (State.runImage_length ((SameBook.runTaken s).localRangeOk.trans h) hfound
    (by rw [(SameBook.runTaken s).len]; exact hlen)) heq

theorem State.startRun_update {img : List Byte} (hwaits : s.writer.waits = []) (h : s.holdsImage img) (heq : u = s.startRun 1) :
    RunBegins s 1 img u ∧ u.board = s.board := by
  have hrun := State.runImage_update ((SameBook.runTaken s).holdsImage h)
  have hread := (kept_readPlain s.runTaken 0 (s.runTaken.reg R.pbkWrSrc).toNat (s.runTaken.reg R.pbkWrLen).toNat).but
  generalize (s.runTaken.readPlain 0 (s.runTaken.reg R.pbkWrSrc).toNat (s.runTaken.reg R.pbkWrLen).toNat).2 = v at *
  have hflash : v.flash = s.flash := hread.same .flash (by decide)
  have hbuild : v.build = s.build := hread.same .build (by decide)
  have hwriter : v.writer = s.writer := hread.same .writer (by decide)
  obtain ⟨_, _, _, _, _, herr⟩ := h
  rw [State.startRun_begins hrun ((State.imageErr_congr hflash hbuild img).trans herr)] at heq
  obtain ⟨hbegins, hboard, _⟩ := State.beginRun_spec (by rw [hwriter]; exact hwaits) heq
  exact ⟨hbegins.congr hflash hbuild (hread.same .lines (by decide)), hboard.trans (hread.same .board (by decide))⟩

theorem State.startRun_retired {img : List Byte} (hwaits : s.writer.waits = []) (h : s.remakesImage img) (heq : u = s.startRun 2) :
    RunBegins s 2 img u ∧ u.board = s.board ∧ ∀ i, i < img.length →
      u.mem.read ((s.reg R.pbkWrSrc).toNat + i) = listGet 0 img i := by
  have hrun := State.runImage_retired ((SameBook.runTaken s).remakesImage h)
  rw [(SameBook.runTaken s).src] at hrun
  have hland := (kept_land s.runTaken (s.reg R.pbkWrSrc).toNat img false).but
  have hreads := State.read_land s.runTaken (s.reg R.pbkWrSrc).toNat img false
  generalize s.runTaken.land (s.reg R.pbkWrSrc).toNat img false = v at *
  have hflash : v.flash = s.flash := hland.same .flash (by decide)
  have hbuild : v.build = s.build := hland.same .build (by decide)
  have hwriter : v.writer = s.writer := hland.same .writer (by decide)
  obtain ⟨_, _, _, _, herr⟩ := h
  rw [State.startRun_begins hrun ((State.imageErr_congr hflash hbuild img).trans herr)] at heq
  obtain ⟨hbegins, hboard, hmem⟩ := State.beginRun_spec (by rw [hwriter]; exact hwaits) heq
  refine ⟨hbegins.congr hflash hbuild (hland.same .lines (by decide)), hboard.trans (hland.same .board (by decide)), fun i hi => ?_⟩
  rw [hmem, hreads, if_pos ⟨by omega, by omega⟩, Nat.add_sub_cancel_left]

/-! A start that is asked for. -/

/-- The writer with a start more. -/
def State.runWaits (s : State) (mode : Nat) : State := { s with writer := { s.writer with waits := s.writer.waits ++ [mode] } }

theorem KeptBut.runWaits (s : State) (mode : Nat) : KeptBut [.writer] s (s.runWaits mode) := KeptBut.upd (KeptBut.refl _ s)

theorem State.startWaiting_busy (h : s.writerBusy = true) (n : Nat) : State.startWaiting n s = s := by
  cases n with
  | zero => rfl
  | succ n =>
    unfold State.startWaiting
    rw [h]

theorem State.askRun_busy (h : s.writerBusy = true) (mode : Nat) : s.askRun mode = s.runWaits mode :=
  State.startWaiting_busy (s := s.runWaits mode) h _

theorem State.startWaiting_one {mode : Nat} (h : s.writerBusy = false) (hwaits : s.writer.waits = [mode]) :
    State.startWaiting 1 s = ({ s with writer := { s.writer with waits := [] } }).startRun mode := by
  unfold State.startWaiting
  rw [h, hwaits]
  rfl

theorem State.askRun_free (h : s.writerBusy = false) (hwaits : s.writer.waits = []) (mode : Nat) : s.askRun mode = s.startRun mode := by
  have hone : (s.runWaits mode).writer.waits = [mode] := congrArg (· ++ [mode]) hwaits
  have hsame : ({ s.runWaits mode with writer := { (s.runWaits mode).writer with waits := [] } } : State) = s := by
    rw [← hwaits]
    rfl
  show State.startWaiting (s.runWaits mode).writer.waits.length (s.runWaits mode) = _
  rw [hone, List.length_singleton, State.startWaiting_one (s := s.runWaits mode) h hone, hsame]

/-! A write of PBK_WR_CTRL. -/

theorem State.writerCtrl_session (h : s.session = true) : s.writerCtrl 3 = s.askRun 1 ∧ s.writerCtrl 5 = s.askRun 2 :=
  ⟨if_pos ⟨h, by decide, .inl (by decide)⟩, if_pos ⟨h, by decide, .inr (by decide)⟩⟩

theorem State.writerCtrl_closed (h : s.session = false) (v : Word) : s.writerCtrl v = s := if_neg fun k => by simp [h] at k

theorem SameBook.hostTouch (s : State) : SameBook s s.hostTouch :=
  ⟨rfl, rfl, rfl, rfl, State.hostTouch_reg_ne s (by decide), State.hostTouch_reg_ne s (by decide)⟩

theorem SameBook.setCnt (s : State) (i : Nat) (v : BitVec 20) : SameBook s (s.setCnt i v) := ⟨rfl, rfl, rfl, rfl, rfl, rfl⟩

theorem State.writerBusy_hostTouch (s : State) : s.hostTouch.writerBusy = s.writerBusy :=
  State.regB_congr (State.hostTouch_reg_ne s (by decide)) 0

/-- A start asked for in a session. -/
theorem ends_ask {c : Instr} {mode : Nat} {P : State → Prop}
    (hc : (c, mode) = (.pbkWriteUpdate, 1) ∨ (c, mode) = (.pbkWriteRetired, 2))
    (hserve : s.serve R.pbkWrCtrl = .ok) (hsession : s.session = true) (heq : s.hostTouch.askRun mode = u) (h : P u) : Ends c s P := by
  obtain ⟨hupdate, hretired⟩ := State.writerCtrl_session ((State.session_hostTouch s).trans hsession)
  rcases hc with hc | hc
  · obtain ⟨rfl, rfl⟩ := Prod.mk.inj hc
    exact Ends.of rfl ((State.hostWrite_ok _ hserve).trans (hupdate.trans heq)) h
  · obtain ⟨rfl, rfl⟩ := Prod.mk.inj hc
    exact Ends.of rfl ((State.hostWrite_ok _ hserve).trans (hretired.trans heq)) h

/-- A start in a session with the writer free. -/
theorem ends_start {c : Instr} {mode : Nat} {P : State → Prop}
    (hc : (c, mode) = (.pbkWriteUpdate, 1) ∨ (c, mode) = (.pbkWriteRetired, 2))
    (hserve : s.serve R.pbkWrCtrl = .ok) (hsession : s.session = true) (hfree : s.writerBusy = false) (hwaits : s.writer.waits = [])
    (h : P (s.hostTouch.startRun mode)) : Ends c s P :=
  ends_ask hc hserve hsession (State.askRun_free ((State.writerBusy_hostTouch s).trans hfree) hwaits mode) h

/-- Either start fails in the same way. -/
theorem ends_start_fails {err : Nat} (hserve : s.serve R.pbkWrCtrl = .ok) (hsession : s.session = true) (hfree : s.writerBusy = false)
    (hwaits : s.writer.waits = []) (h : ∀ mode, RunFails s.hostTouch err (s.hostTouch.startRun mode)) {c : Instr}
    (hc : c = .pbkWriteUpdate ∨ c = .pbkWriteRetired) : Ends c s (RunFails s err) := by
  have hfails (mode : Nat) : RunFails s err (s.hostTouch.startRun mode) :=
    (h mode).congr (t := s.hostTouch) rfl rfl rfl (State.hostTouch_reg_ne s (by decide))
  rcases hc with rfl | rfl
  · exact ends_start (mode := 1) (.inl rfl) hserve hsession hfree hwaits (hfails 1)
  · exact ends_start (mode := 2) (.inr rfl) hserve hsession hfree hwaits (hfails 2)

/-! A counter that starts a run. -/

/-- No counter starts a run. -/
def State.noCounterStart (s : State) : Prop := s.phase ≠ .up ∨ 2 ≤ s.pstate ∨ s.regB R.pbkWrCfg 24 = false ∨ s.writerBusy = true

theorem State.counterStart_idle (h : s.noCounterStart) :
    s.counterStart = s := if_pos h

/-- The counter's part of a start: it holds a count and loses one. -/
theorem State.post_taken {i : Nat} (h : 1 ≤ (s.cnt i).toNat) :
    ∃ v : BitVec 20, s.post i (-1) = s.setCnt i v ∧ v.toNat + 1 = (s.cnt i).toNat := by
  have hlt := (s.cnt i).isLt
  refine ⟨_, State.post_eq_of_within (by omega) (by omega), ?_⟩
  simp only [BitVec.toNat_ofInt]
  omega

theorem State.counterStart_update (hidle : ¬s.noCounterStart)
    (hcu : s.regF R.pbkWrCfg 0 7 < 64) (h : 1 ≤ (s.cnt (s.regF R.pbkWrCfg 0 7)).toNat) :
    s.counterStart = (s.post (s.regF R.pbkWrCfg 0 7) (-1)).askRun 1 := (if_neg hidle).trans (if_pos ⟨hcu, h⟩)

theorem State.counterStart_retired (hidle : ¬s.noCounterStart)
    (hcu : ¬(s.regF R.pbkWrCfg 0 7 < 64 ∧ 1 ≤ (s.cnt (s.regF R.pbkWrCfg 0 7)).toNat))
    (hcr : s.regF R.pbkWrCfg 8 7 < 64) (h : 1 ≤ (s.cnt (s.regF R.pbkWrCfg 8 7)).toNat) :
    s.counterStart = (s.post (s.regF R.pbkWrCfg 8 7) (-1)).askRun 2 := (if_neg hidle).trans ((if_neg hcu).trans (if_pos ⟨hcr, h⟩))

theorem State.counterStart_none (hidle : ¬s.noCounterStart)
    (hcu : ¬(s.regF R.pbkWrCfg 0 7 < 64 ∧ 1 ≤ (s.cnt (s.regF R.pbkWrCfg 0 7)).toNat))
    (hcr : ¬(s.regF R.pbkWrCfg 8 7 < 64 ∧ 1 ≤ (s.cnt (s.regF R.pbkWrCfg 8 7)).toNat)) : s.counterStart = s :=
  (if_neg hidle).trans ((if_neg hcu).trans (if_neg hcr))

/-- A counter without a count starts nothing. -/
theorem not_counts {i : Nat} (h : 64 ≤ i ∨ s.cnt i = 0) : ¬(i < 64 ∧ 1 ≤ (s.cnt i).toNat) := by
  rintro ⟨hlt, hone⟩
  rcases h with hge | hzero
  · omega
  · rw [hzero] at hone
    exact absurd hone (by decide)

/-- A count that is taken by a start. -/
theorem cnt_taken {i : Nat} {v : BitVec 20} (hv : v.toNat + 1 = (s.cnt i).toNat) (hboard : u.board = (s.setCnt i v).board) :
    (u.cnt i).toNat + 1 = (s.cnt i).toNat ∧ ∀ k, k ≠ i → u.cnt k = s.cnt k := by
  have hcnt (k : Nat) : u.cnt k = if k = i then v else s.cnt k := (State.cnt_congr hboard k).trans (State.cnt_setCnt ..)
  exact ⟨by rw [hcnt, if_pos rfl, hv], fun k hk => (hcnt k).trans (if_neg hk)⟩

/-- A counter whose start makes a run under UPDATE. -/
theorem counter_starts_update {img : List Byte} (hidle : ¬s.noCounterStart)
    (hfree : s.writerBusy = false) (hwaits : s.writer.waits = []) {i : Nat} (hi : s.regF R.pbkWrCfg 0 7 = i) (hlt : i < 64)
    (hone : 1 ≤ (s.cnt i).toNat) (hfits : s.holdsImage img) : Ends .writerCounterStart s fun u =>
      RunBegins s 1 img u ∧ (u.cnt i).toNat + 1 = (s.cnt i).toNat ∧ ∀ k, k ≠ i → u.cnt k = s.cnt k := by
  subst hi
  obtain ⟨v, hpost, hv⟩ := State.post_taken hone
  have hstart := State.counterStart_update hidle hlt hone
  rw [hpost, State.askRun_free (s := s.setCnt _ v) hfree hwaits] at hstart
  have hsame := SameBook.setCnt s (s.regF R.pbkWrCfg 0 7) v
  have hlines : (s.setCnt (s.regF R.pbkWrCfg 0 7) v).lines = s.lines := rfl
  obtain ⟨hbegins, hboard⟩ := State.startRun_update (s := s.setCnt _ v) hwaits (hsame.holdsImage hfits) rfl
  exact Ends.of rfl hstart ⟨hbegins.congr hsame.flash hsame.build hlines, cnt_taken hv hboard⟩

/-- A counter whose start makes a run under RETIRED. -/
theorem counter_starts_retired {img : List Byte} (hidle : ¬s.noCounterStart)
    (hfree : s.writerBusy = false) (hwaits : s.writer.waits = [])
    (hcu : ¬(s.regF R.pbkWrCfg 0 7 < 64 ∧ 1 ≤ (s.cnt (s.regF R.pbkWrCfg 0 7)).toNat)) {i : Nat} (hi : s.regF R.pbkWrCfg 8 7 = i)
    (hlt : i < 64) (hone : 1 ≤ (s.cnt i).toNat) (hfits : s.remakesImage img) : Ends .writerCounterStart s fun u =>
      RunBegins s 2 img u ∧ (u.cnt i).toNat + 1 = (s.cnt i).toNat ∧ ∀ k, k ≠ i → u.cnt k = s.cnt k := by
  subst hi
  obtain ⟨v, hpost, hv⟩ := State.post_taken hone
  have hstart := State.counterStart_retired hidle hcu hlt hone
  rw [hpost, State.askRun_free (s := s.setCnt _ v) hfree hwaits] at hstart
  have hsame := SameBook.setCnt s (s.regF R.pbkWrCfg 8 7) v
  have hlines : (s.setCnt (s.regF R.pbkWrCfg 8 7) v).lines = s.lines := rfl
  obtain ⟨hbegins, hboard, _⟩ := State.startRun_retired (s := s.setCnt _ v) hwaits (hsame.remakesImage hfits) rfl
  exact Ends.of rfl hstart ⟨hbegins.congr hsame.flash hsame.build hlines, cnt_taken hv hboard⟩

theorem writerStarts_claim : Sys2Proof.Claims.WriterStarts := by
  intro s img
  dsimp only
  refine ⟨fun hserve hclosed c hc => ?_, fun hserve hopen hbusy c m hc => ?_, fun hserve hopen hfree hwaits => ⟨?_, ?_, ?_, ?_, ?_⟩,
    fun h => Ends.of rfl (State.counterStart_idle h) rfl, fun hphase hpstate hen hfree hwaits => ?_⟩
  · have hnone := State.writerCtrl_closed ((State.session_hostTouch s).trans hclosed)
    rcases hc with rfl | rfl
    · exact Ends.of rfl ((State.hostWrite_ok _ hserve).trans (hnone 3)) ((Only.refl ..).hostTouch (by simp))
    · exact Ends.of rfl ((State.hostWrite_ok _ hserve).trans (hnone 5)) ((Only.refl ..).hostTouch (by simp))
  · exact ends_ask hc hserve hopen (State.askRun_busy ((State.writerBusy_hostTouch s).trans hbusy) m)
      ⟨rfl, ((Only.refl ..).hostTouch (by simp)).kept (KeptBut.runWaits _ m) (by decide) (by decide)⟩
  · exact fun hrange c hc => ends_start_fails hserve hopen hfree hwaits
      (fun mode => State.startRun_outside ((SameBook.hostTouch s).localRangeOk.trans hrange) mode rfl) hc
  · exact fun hrange hfound c hc => ends_start_fails hserve hopen hfree hwaits
      (fun mode => State.startRun_noFlash ((SameBook.hostTouch s).localRangeOk.trans hrange) hfound mode rfl) hc
  · exact fun hrange hfound hlen => ends_start (mode := 1) (.inl rfl) hserve hopen hfree hwaits
      ((State.startRun_length ((SameBook.hostTouch s).localRangeOk.trans hrange) hfound
        (by rw [(SameBook.hostTouch s).len]; exact hlen) rfl).congr (t := s.hostTouch) rfl rfl rfl (State.hostTouch_reg_ne s (by decide)))
  · intro hfits
    have hlines : s.hostTouch.lines = s.lines := rfl
    obtain ⟨hbegins, _⟩ := State.startRun_update (s := s.hostTouch) (img := img) hwaits ((SameBook.hostTouch s).holdsImage hfits) rfl
    exact ends_start (mode := 1) (.inl rfl) hserve hopen hfree hwaits
      (hbegins.congr (SameBook.hostTouch s).flash (SameBook.hostTouch s).build hlines)
  · intro _ hfits
    have hlines : s.hostTouch.lines = s.lines := rfl
    obtain ⟨hbegins, _, hreads⟩ := State.startRun_retired (s := s.hostTouch) (img := img) hwaits
      ((SameBook.hostTouch s).remakesImage hfits) rfl
    rw [(SameBook.hostTouch s).src] at hreads
    exact ends_start (mode := 2) (.inr rfl) hserve hopen hfree hwaits
      ⟨hbegins.congr (SameBook.hostTouch s).flash (SameBook.hostTouch s).build hlines, hreads⟩
  · have hidle : ¬s.noCounterStart := by
      rw [State.noCounterStart, hphase, hen, hfree]
      simp only [ne_eq, not_true_eq_false, false_or, Bool.true_eq_false, Bool.false_eq_true, or_false]
      omega
    exact ⟨fun hcu hone hfits => counter_starts_update hidle hfree hwaits rfl hcu hone hfits,
      fun hnone hcr hone hfits => counter_starts_retired hidle hfree hwaits (not_counts hnone) rfl hcr hone hfits,
      fun hcu hcr => Ends.of rfl (State.counterStart_none hidle (not_counts hcu) (not_counts hcr)) rfl⟩

end Sys2Proof.Machine
end

section
/-! O58. The steps of a run of the prompt-book writer (R481, R482). -/

namespace Sys2Proof.Machine

variable {s t u : State}

/-! The operations of the flash. -/

theorem NMap.get_filter_out {α : Type} (d : α) {p : Nat → Bool} {k : Nat} (h : p k = false) :
    ∀ m : NMap α, NMap.get d (m.filter fun e => p e.1) k = d
  | [] => rfl
  | (j, v) :: m => by
    rw [List.filter_cons]
    split
    · next hj =>
      have hne : k ≠ j := fun hkj => by
        rw [← hkj, h] at hj
        exact absurd hj (by decide)
      simp only [NMap.get, if_neg hne]
      exact NMap.get_filter_out d h m
    · exact NMap.get_filter_out d h m

/-- A byte of the flash cells. -/
def Flash.cell (f : Flash) (a : Nat) : Byte := NMap.get 0xFF#8 f.cells a

theorem Flash.cell_erase (f : Flash) (b n a : Nat) : (f.erase b n).cell a = if b ≤ a ∧ a < b + n then 0xFF else f.cell a := by
  by_cases h : b ≤ a ∧ a < b + n
  · rw [if_pos h]
    exact NMap.get_filter_out (p := fun k => decide (k < b) || decide (b + n ≤ k)) _ (by simp; omega) f.cells
  · rw [if_neg h]
    exact NMap.get_filter (p := fun k => decide (k < b) || decide (b + n ≤ k)) _ (by simp; omega) f.cells

theorem Flash.cell_program (l : List Byte) (f : Flash) (b a : Nat) :
    (f.program b l).cell a = if b ≤ a ∧ a < b + l.length then f.cell a &&& listGet 0 l (a - b) else f.cell a := by
  induction l generalizing f b with
  | nil => exact (if_neg (by simp only [List.length_nil]; omega)).symm
  | cons x l ih =>
    unfold Flash.program
    rw [ih]
    have hset : ({ f with cells := NMap.set 0xFF#8 f.cells b (NMap.get 0xFF#8 f.cells b &&& x) } : Flash).cell a =
        if a = b then f.cell b &&& x else f.cell a := NMap.get_set ..
    rw [hset]
    simp only [List.length_cons]
    by_cases hab : a = b
    · subst hab
      rw [if_neg (by omega), if_pos rfl, if_pos (by omega), Nat.sub_self]
      rfl
    · rw [if_neg hab]
      by_cases hin : b + 1 ≤ a ∧ a < b + 1 + l.length
      · rw [if_pos hin, if_pos (by omega), show a - b = (a - (b + 1)) + 1 by omega]
        rfl
      · rw [if_neg hin, if_neg (by omega)]

/-! The phases of a run. -/

theorem State.finishRun_eq (hwaits : s.writer.waits = []) {err : Nat} (herr : err < 16) : s.finishRun err = s.endRun err := by
  have hwriter := (State.endRun_spec s herr rfl).writer
  show State.startWaiting (s.endRun err).writer.waits.length (s.endRun err) = _
  rw [hwriter, hwaits]
  rfl

/-- The flash, the writer and the phase behind an operation. -/
def State.flashStep (s : State) (f : Flash) (w : Writer) : State := { s with flash := f, writer := w }

theorem State.flashDone_free (h : s.writerBusy = false) : s.flashDone = s := if_pos h

theorem State.flashDone_erase (hbusy : s.writerBusy = true) (hphase : s.writerPhase = 4) : s.flashDone =
    if s.flash.copySize ≤ (s.writer.ops + 1) * 2 ^ s.flash.eraseLog then
      (s.flashStep (s.flash.erase (s.writer.base + s.writer.ops * 2 ^ s.flash.eraseLog) (2 ^ s.flash.eraseLog))
        { s.writer with ops := 0 }).setPhase 5
    else s.flashStep (s.flash.erase (s.writer.base + s.writer.ops * 2 ^ s.flash.eraseLog) (2 ^ s.flash.eraseLog))
      { s.writer with ops := s.writer.ops + 1 } := by
  refine (if_neg (by rw [hbusy]; decide)).trans ?_
  rw [hphase]
  rfl

/-- The part of the image that a program operation writes. -/
def State.pageBytes (s : State) : List Byte :=
  (s.writer.image.drop (s.writer.ops * 2 ^ s.flash.pageLog)).take (2 ^ s.flash.pageLog)

/-- The flash behind a program operation. -/
def State.paged (s : State) : Flash := s.flash.program (s.writer.base + s.writer.ops * 2 ^ s.flash.pageLog) s.pageBytes

theorem State.flashDone_program (hbusy : s.writerBusy = true) (hphase : s.writerPhase = 5) : s.flashDone =
    if s.writer.image.length ≤ (s.writer.ops + 1) * 2 ^ s.flash.pageLog then
      if s.paged.bytes s.writer.base s.writer.image.length = s.writer.image then
        (s.flashStep s.paged { s.writer with ops := 0 }).setPhase 7
      else (s.flashStep s.paged { s.writer with ops := s.writer.ops + 1 }).finishRun 4
    else s.flashStep s.paged { s.writer with ops := s.writer.ops + 1 } := by
  refine (if_neg (by rw [hbusy]; decide)).trans ?_
  rw [hphase]
  rfl

/-- GEN and its inverse. -/
def State.genPair (s : State) : List Byte := bytesOf 4 s.writer.gen.toNat ++ bytesOf 4 (~~~s.writer.gen).toNat

theorem State.flashDone_seal (hbusy : s.writerBusy = true) (hphase : s.writerPhase = 7) : s.flashDone =
    (s.flashStep (s.flash.program (s.writer.base + 12) s.genPair) s.writer).finishRun
      (if (s.flash.program (s.writer.base + 12) s.genPair).bytes (s.writer.base + 12) 8 = s.genPair then 0 else 4) := by
  refine (if_neg (by rw [hbusy]; decide)).trans ?_
  rw [hphase]
  rfl

/-- The next phase: BUSY stays. -/
theorem State.setPhase_spec (s : State) {n : Nat} (hn : n < 8) (heq : u = s.setPhase n) :
    u.writerBusy = s.writerBusy ∧ u.writerPhase = n ∧ u.flash = s.flash ∧ u.writer = s.writer ∧ u.board = s.board := by
  have hkept := (kept_setPhase s n).but
  rw [← heq] at hkept
  refine ⟨?_, ?_, hkept.same .flash (by decide), hkept.same .writer (by decide), hkept.same .board (by decide)⟩
  · rw [heq]
    exact State.regB_setF_out (h := by decide) (d := by decide) ..
  · rw [heq]
    exact (State.regF_setF _ _ _ _ _ (by decide)).trans (Nat.mod_eq_of_lt hn)

/-- A run that has ended with an ERR, and its DONE post. -/
def RunEnded (s : State) (code : Nat) (u : State) : Prop :=
  u.writerBusy = false ∧ u.regF R.pbkWrStatus 4 4 = code ∧ u.lines = s.lines ∧
  (s.regF R.pbkWrCfg 16 7 < 64 → (s.cnt (s.regF R.pbkWrCfg 16 7)).toNat < 0xFFFFF →
    (u.cnt (s.regF R.pbkWrCfg 16 7)).toNat = (s.cnt (s.regF R.pbkWrCfg 16 7)).toNat + 1)

theorem RunEnds.ended {code : Nat} (h : RunEnds s u code) : RunEnded s code u := ⟨h.free, h.error, h.lines, h.post⟩

/-- A run that ends with an operation of the flash. -/
theorem finishRun_ends {f : Flash} {w : Writer} {code : Nat} (hwaits : w.waits = []) (hcode : code < 16)
    (heq : u = (s.flashStep f w).finishRun code) : RunEnded s code u ∧ u.flash = f ∧
      u.reg R.pbkWrCount = if code = 0 then s.reg R.pbkWrCount + 1 else s.reg R.pbkWrCount := by
  have hends := State.endRun_spec (s.flashStep f w) hcode (heq.trans (State.finishRun_eq hwaits hcode))
  exact ⟨hends.ended, hends.flash, hends.counts⟩

theorem timeout_ends (hbusy : s.writerBusy = true) (hwaits : s.writer.waits = []) (hage : 2 ^ 28 ≤ s.age s.flashTimer) :
    Ends .writerTimeout s fun u => RunEnded s 5 u ∧ u.flash = s.flash ∧ u.writer = Writer.idle := by
  have hends := State.endRun_spec (s.restart s.flashTimer) (show 5 < 16 by decide) rfl
  refine Ends.of rfl ((if_pos ⟨hbusy, hage⟩).trans (State.finishRun_eq (s := s.restart s.flashTimer) hwaits (by decide)))
    ⟨hends.ended, hends.flash, ?_⟩
  have hidle : ({ Writer.idle with waits := s.writer.waits } : Writer) = Writer.idle := by rw [hwaits]; rfl
  exact hends.writer.trans hidle

/-- What an erase operation leaves. -/
theorem erase_ends (hbusy : s.writerBusy = true) (hphase : s.writerPhase = 4) : Ends .flashOpDone s fun u =>
    (∀ a, u.flash.cell a = if s.writer.base + s.writer.ops * 2 ^ s.flash.eraseLog ≤ a ∧
      a < s.writer.base + s.writer.ops * 2 ^ s.flash.eraseLog + 2 ^ s.flash.eraseLog then 0xFF else s.flash.cell a) ∧
    u.writerBusy = true ∧ u.writerPhase = (if s.flash.copySize ≤ (s.writer.ops + 1) * 2 ^ s.flash.eraseLog then 5 else 4) ∧
    u.writer = { s.writer with ops := if s.flash.copySize ≤ (s.writer.ops + 1) * 2 ^ s.flash.eraseLog then 0 else s.writer.ops + 1 } ∧
    u.board = s.board := by
  have hstep := State.flashDone_erase hbusy hphase
  have hcell := Flash.cell_erase s.flash (s.writer.base + s.writer.ops * 2 ^ s.flash.eraseLog) (2 ^ s.flash.eraseLog)
  generalize s.flash.erase _ _ = f at *
  by_cases hlast : s.flash.copySize ≤ (s.writer.ops + 1) * 2 ^ s.flash.eraseLog
  · rw [if_pos hlast] at hstep
    refine Ends.of rfl hstep ?_
    obtain ⟨hbusy', hphase', hflash, hwriter, hboard⟩ := State.setPhase_spec (s.flashStep f { s.writer with ops := 0 })
      (show 5 < 8 by decide) rfl
    rw [if_pos hlast, if_pos hlast]
    exact ⟨fun a => (congrArg (Flash.cell · a) hflash).trans (hcell a), hbusy'.trans hbusy, hphase', hwriter, hboard⟩
  · rw [if_neg hlast] at hstep
    refine Ends.of rfl hstep ?_
    rw [if_neg hlast, if_neg hlast]
    exact ⟨hcell, hbusy, hphase, rfl, rfl⟩

/-- What a program operation leaves. -/
theorem program_ends (hbusy : s.writerBusy = true) (hwaits : s.writer.waits = []) (hphase : s.writerPhase = 5) :
    Ends .flashOpDone s fun u =>
      (∀ a, u.flash.cell a = if s.writer.base + s.writer.ops * 2 ^ s.flash.pageLog ≤ a ∧
        a < s.writer.base + s.writer.ops * 2 ^ s.flash.pageLog + s.pageBytes.length then
          s.flash.cell a &&& listGet 0 s.pageBytes (a - (s.writer.base + s.writer.ops * 2 ^ s.flash.pageLog)) else s.flash.cell a) ∧
      ((s.writer.ops + 1) * 2 ^ s.flash.pageLog < s.writer.image.length → u.writerBusy = true ∧ u.writerPhase = 5 ∧
        u.writer = { s.writer with ops := s.writer.ops + 1 } ∧ u.board = s.board) ∧
      (s.writer.image.length ≤ (s.writer.ops + 1) * 2 ^ s.flash.pageLog →
        (u.flash.bytes s.writer.base s.writer.image.length = s.writer.image → u.writerBusy = true ∧ u.writerPhase = 7 ∧
          u.board = s.board) ∧
        (u.flash.bytes s.writer.base s.writer.image.length ≠ s.writer.image → RunEnded s 4 u)) := by
  have hstep := State.flashDone_program hbusy hphase
  have hcell : ∀ a, s.paged.cell a = _ :=
    Flash.cell_program s.pageBytes s.flash (s.writer.base + s.writer.ops * 2 ^ s.flash.pageLog)
  generalize s.pageBytes = l at *
  generalize s.paged = f at *
  by_cases hlast : s.writer.image.length ≤ (s.writer.ops + 1) * 2 ^ s.flash.pageLog
  · rw [if_pos hlast] at hstep
    by_cases hread : f.bytes s.writer.base s.writer.image.length = s.writer.image
    · rw [if_pos hread] at hstep
      refine Ends.of rfl hstep ?_
      obtain ⟨hbusy', hphase', hflash, _, hboard⟩ := State.setPhase_spec (s.flashStep f { s.writer with ops := 0 })
        (show 7 < 8 by decide) rfl
      rw [hflash]
      exact ⟨hcell, fun h => absurd hlast (by omega),
        fun _ => ⟨fun _ => ⟨hbusy'.trans hbusy, hphase', hboard⟩, fun h => absurd hread h⟩⟩
    · rw [if_neg hread] at hstep
      refine Ends.of rfl hstep ?_
      obtain ⟨hended, hflash, _⟩ := finishRun_ends (s := s) (f := f) (w := { s.writer with ops := s.writer.ops + 1 }) hwaits
        (show 4 < 16 by decide) rfl
      rw [hflash]
      exact ⟨hcell, fun h => absurd hlast (by omega), fun _ => ⟨fun h => absurd h hread, fun _ => hended⟩⟩
  · rw [if_neg hlast] at hstep
    exact Ends.of rfl hstep ⟨hcell, fun _ => ⟨hbusy, hphase, rfl, rfl⟩, fun h => absurd h hlast⟩

/-- What the program of GEN and its inverse leaves. -/
theorem seal_ends (hbusy : s.writerBusy = true) (hwaits : s.writer.waits = []) (hphase : s.writerPhase = 7) :
    Ends .flashOpDone s fun u =>
      (∀ a, u.flash.cell a = if s.writer.base + 12 ≤ a ∧ a < s.writer.base + 12 + s.genPair.length then
        s.flash.cell a &&& listGet 0 s.genPair (a - (s.writer.base + 12)) else s.flash.cell a) ∧
      (u.flash.bytes (s.writer.base + 12) 8 = s.genPair → RunEnded s 0 u ∧ u.reg R.pbkWrCount = s.reg R.pbkWrCount + 1) ∧
      (u.flash.bytes (s.writer.base + 12) 8 ≠ s.genPair → RunEnded s 4 u ∧ u.reg R.pbkWrCount = s.reg R.pbkWrCount) := by
  have hstep := State.flashDone_seal hbusy hphase
  have hcell := Flash.cell_program s.genPair s.flash (s.writer.base + 12)
  generalize s.genPair = l at *
  generalize s.flash.program (s.writer.base + 12) l = f at *
  by_cases hread : f.bytes (s.writer.base + 12) 8 = l
  · rw [if_pos hread] at hstep
    refine Ends.of rfl hstep ?_
    obtain ⟨hended, hflash, hcount⟩ := finishRun_ends (s := s) (f := f) (w := s.writer) hwaits (show 0 < 16 by decide) rfl
    rw [hflash]
    exact ⟨hcell, fun _ => ⟨hended, hcount⟩, fun h => absurd hread h⟩
  · rw [if_neg hread] at hstep
    refine Ends.of rfl hstep ?_
    obtain ⟨hended, hflash, hcount⟩ := finishRun_ends (s := s) (f := f) (w := s.writer) hwaits (show 4 < 16 by decide) rfl
    rw [hflash]
    exact ⟨hcell, fun h => absurd h hread, fun _ => ⟨hended, hcount⟩⟩

theorem writerSteps_claim : Sys2Proof.Claims.WriterSteps := by
  intro s
  dsimp only
  refine ⟨fun hfree => ⟨Ends.of rfl (State.flashDone_free hfree) rfl, Ends.of rfl (if_neg fun h => ?_) rfl⟩,
    fun hage => Ends.of rfl (if_neg fun h => absurd h.2 (Nat.not_le.mpr hage)) rfl, fun hbusy hwaits => ⟨fun hage => ?_, ?_, ?_, ?_⟩⟩
  · rw [hfree] at h
    exact absurd h.1 (by decide)
  · exact timeout_ends hbusy hwaits hage
  · exact fun hphase => erase_ends hbusy hphase
  · exact fun hphase => program_ends hbusy hwaits hphase
  · exact fun hphase => seal_ends hbusy hwaits hphase

/-- Settles O58: a start fails with its code or takes its image for the copy that does not win, and each operation of the flash takes
the run on, up to its end with the code and the DONE post. -/
theorem bookWriter : Obligations.BookWriter := ⟨writerStarts_claim, writerSteps_claim⟩

end Sys2Proof.Machine
end
